-- ==== Sys2Proof/Word.lean ====
section
/-! DEFINITION. The word types of the model and their plainest arithmetic. Bit 0 is the least significant bit (R4). -/

namespace Sys2Proof

/-- One byte. -/
abbrev Byte := BitVec 8

/-- A string of bytes, the lowest address or the first sent first. -/
abbrev Bytes := List Byte

/-- Ticks of the time base, 4 ns each (04, "The time base"). -/
abbrev Tick := Nat

end Sys2Proof
end

