-- ==== Sys2Proof/Syntax.lean ====
section
/-! DEFINITION. The commands of the block: one constructor of `Instr` per row of spec/opcode_table.json.
The table's rows have no fields, so the operands are the model's: what arrives from outside with the command
(log entry 1). Where a value is computed by a datapath whose arithmetic the spec leaves open, the operand carries
it (log entry 6). -/

namespace Sys2Proof

/-- A parcel: the header fields of Table 05-1, the payload and the seal word of Table 05-2. `len` is the LENGTH field,
which a damaged parcel may carry wrongly (Table 05-5), and `spare` the reserved bytes 5 and 13 to 15, low byte first: zero as sealed
here, ignored by every consumer (R6), and covered by the CRC (R161). -/
structure Parcel where
  type     : BitVec 16
  len      : BitVec 16
  stream   : BitVec 8
  chip     : BitVec 16
  seq      : BitVec 32
  producer : BitVec 8
  payload  : Bytes
  sealWord : BitVec 64
  spare    : BitVec 32 := 0
deriving DecidableEq, Repr

/-- How a stored or moving parcel comes out of the memory or the fabric when a unit reads it (R174, R180, R181). -/
inductive Seen where
  | intact                     -- as it was sealed
  | altered (p : Parcel)       -- these are the beats that arrived
  | uncorrectable              -- an uncorrectable ECC error: no data (R569)
  | denied                     -- the unit's access was to an absent or forbidden address, and is not performed (R398)
deriving DecidableEq, Repr

/-- A parcel that does not read intact, by its producer, stream and sequence number (R160). -/
structure Misread where
  producer : BitVec 8
  stream   : BitVec 8
  seq      : BitVec 32
  seen     : Seen
deriving DecidableEq, Repr

/-- What goes wrong with the parcels that a command's unit reads; every parcel it does not name reads intact (R174). -/
abbrev Reads := List Misread

/-- The queue and the CMD_ID of a fetched command (Table 14-4). -/
structure CmdRef where
  q  : Fin 16
  id : BitVec 32
deriving DecidableEq, Repr

/-- The two hamper slots (R46). -/
inductive SlotId where
  | a | b
deriving DecidableEq, Repr

/-- The Ranger pairs (Table 05-4: 0x02 and 0x03). -/
inductive Pair where
  | a | b
deriving DecidableEq, Repr

/-- The eleven islands, in the row order of Table 01-1 (numbers 0 to 10 of chapter 19). -/
inductive Island where
  | thermos | boot | sensor | ifc | fox | afu | owl | badger | den | host | trail
deriving DecidableEq, Repr

/-- The four islands that have P-points (R583), in the order of Table 17-3. -/
inductive Dvfs where
  | boot | fox | owl | badger
deriving DecidableEq, Repr

/-- One P-point for each island of R583, P0 to P5. -/
structure PPoints where
  boot   : Fin 6
  fox    : Fin 6
  owl    : Fin 6
  badger : Fin 6
deriving DecidableEq, Repr

/-- What the probe of R43 to R46 reads from the flash. -/
inductive FlashProbe where
  | sfdp (octal quad single : Bool) (density : Nat)
  | absent
  | allOnes
  | allZeros
deriving DecidableEq, Repr

/-- What the flash holds, as segments of bytes by flash offset, none touching another; everything else is erased flash. -/
abbrev FlashImage := List (Nat × Bytes)

/-- A beat on HC_BOOT_D (Table 18-4). A READ beat carries the storage offset it answers for. -/
inductive BootBeat where
  | info (density : BitVec 32) (err : Bool)
  | read (offset : Nat) (data : BitVec 256) (err : Bool)
deriving DecidableEq, Repr

/-- The outcome of a header ECC check (R199). -/
inductive Ecc where
  | ok | corrected | bad
deriving DecidableEq, Repr

/-- A CSI-2 short packet: virtual channel, the 16-bit data field, the header check. -/
structure ShortPkt where
  vc   : BitVec 8
  data : BitVec 16
  ecc  : Ecc
deriving DecidableEq, Repr

/-- A CSI-2 long packet: header fields, whether its own CRC-16 passes (R169), its payload, and whether Den could take it in
time (R206). -/
structure LongPkt where
  vc       : BitVec 8
  dt       : BitVec 8
  ecc      : Ecc
  payload  : Bytes
  crcOk    : Bool
  overflow : Bool
deriving DecidableEq, Repr

/-- One device's temperature mode register as read at a boundary (R412). -/
structure DramTemp where
  channel : BitVec 2
  rank    : BitVec 1
  value   : BitVec 8
  hot     : Bool      -- above its rated range
deriving DecidableEq, Repr

/-- Why the governor asks for a burst (R593; the reason codes of BURST_START). -/
inductive BurstWhy where
  | none | vio | job
deriving DecidableEq, Repr

/-- A raise that the governor may take: an island on the projected critical path, the time that one step saves, and the power then. -/
structure Raise where
  island : Dvfs
  saves  : Nat
  mw     : BitVec 16
deriving DecidableEq, Repr

/-- A projection of an epoch (R591, R593): the power; whether VIO ends later than 0.5 ms before its deadline, whether queued engine jobs fall
behind the plan, whether an engine pose-graph or guest-alignment job finishes after its deadline; and the raises on the critical path. -/
structure Projection where
  mw      : BitVec 16
  vioLate : Bool
  behind  : Bool
  jobLate : Bool
  raises  : List Raise
deriving DecidableEq, Repr

/-- What the firmware brings to a plan commit: the lane lists by CAMERA_ID and the order in which a lane serves the cameras (R275), and the
governor's projections, whose arithmetic the spec leaves open (R591): with every island at its floor, then after each raise taken. -/
structure PlanIn where
  lanes : List (List (Fin 8))
  order : List (Fin 6)
  steps : List Projection
deriving DecidableEq, Repr

/-- The in-engine uses of Owl (Table 10-9). -/
inductive OwlUse where
  | gate | keyframe | cull | loop | motion
deriving DecidableEq, Repr

/-- One sample offered to Owl: the raw fields by feature index, absent when the presence bit is clear (R350). -/
structure Sample where
  raw : List (Option (BitVec 64))
  key : Nat                        -- what the sample is about: feature, map point or keyframe ID
deriving DecidableEq, Repr

/-- What an in-engine scoring brings: the camera for the gate, the samples in their order, and for the keyframe decision the map-point
slot that each observation refers to, in the order of the observations; and what its reads meet. -/
structure OwlIn where
  cam     : Fin 6
  samples : List Sample
  slots   : List (BitVec 32)
  reads   : Reads
deriving DecidableEq, Repr

/-- What the assembler brings to a VIO problem beside the parcels it reads: the landmarks, the non-zero blocks, the factors, the
tracks used, and per prior source the innovation's squared Mahalanobis distance of R316 (FP32). -/
structure VioIn where
  reads     : Reads
  landmarks : Nat
  blocks    : Nat
  factors   : Nat
  tracks    : Nat
  gates     : List (BitVec 4 × BitVec 32)
deriving DecidableEq, Repr

/-- What a tile completes (R357). What the spec gives no arithmetic for arrives with it: the linearisation's blocks, and the scalars of PCG. -/
inductive BlockOp where
  | input  (row col : BitVec 32) (vals : List (BitVec 32))  -- an FP32 block or segment of the linearisation (R368, R371)
  | linearised                                          -- the linearisation at x is complete
  | next                                                -- the job's next block operation (R373 to R377)
  | precond (p m : Int)                                 -- a block-Jacobi pivot and its block's max|diag| (R380)
  | pcg (rr r0r0 pap : Int)                             -- one PCG iteration's squared norms and pᵀAp (R380, R381)
deriving DecidableEq, Repr

/-- What decides an iteration (R379): the cost and the squared gradient norm at the initial estimate (used once), the trial cost, the
squared gradient norm there, the largest step with 24 fraction bits, all exact; and the FP32 values that the iterate would publish. -/
structure IterIn where
  init  : Int × Int
  cTry  : Int
  grad2 : Int
  maxDx : Nat
  x     : List (BitVec 32)
  cost  : BitVec 32
  cov   : List (BitVec 32)
deriving DecidableEq, Repr

/-- The kinds of map object (Table 12-3). -/
inductive MapKind where
  | kfHead | kfObs | points | edges | postings
deriving DecidableEq, Repr

/-- One map write (R414): the object's kind; its keyframe ID, or the number of its points or edges parcel; for KF_OBS which of the
keyframe's parcels, for POSTINGS which of its place samples; the new payload (POSTINGS follow from the sample), and the parcels whose
content the write takes in. -/
structure MapObj where
  kind    : MapKind
  index   : Nat
  sub     : Nat
  payload : Bytes
  inputs  : List Parcel
deriving DecidableEq, Repr

/-- A hot or cold move (R423 to R425). -/
structure HotMove where
  kf   : Nat
  toHot : Bool
deriving DecidableEq, Repr

/-- What ECC finds on a scrub read (R400, R407). -/
inductive EccFind where
  | clean | single | uncorrectable
deriving DecidableEq, Repr

/-- What a DMA read of a command's data buffer brings (R482): every parcel header of the buffer with the payload's first bytes (the
pass of R90, R327 and R361 reads at most 64), the next whole parcel, or a failure. -/
inductive DmaData where
  | headers (hs : List Parcel)
  | parcel (p : Parcel)
  | failed
deriving DecidableEq, Repr

/-- The target of a register write: BAR0, or the fields of configuration space the spec names (R468, R117, R509). -/
inductive RegWrite where
  | bar0 (off : Nat) (size : Nat) (value : BitVec 64)
  | busMaster (on : Bool)
  | ptmControl (on : Bool)
  | msixControl (on : Bool)
  | linkPm (code : BitVec 3)     -- 0 L0, 1 L1, 2 L1.1, 3 L1.2, 4 exit of L1.2
deriving DecidableEq, Repr

/-- The beat of R17. -/
structure Beat where
  data : BitVec 256
  sealWord : BitVec 64
  kind : BitVec 2
deriving DecidableEq, Repr

/-- The signals of one crossing (R16). -/
inductive Handshake where
  | request (b : Beat)
  | acknowledge
  | dropRequest
  | dropAcknowledge
deriving DecidableEq, Repr

/-- The far end as a training set names it (R519). -/
structure FarEnd where
  serial : BitVec 64
  chip   : BitVec 16
  rates  : BitVec 4       -- its rate mask under RATE_CAP
deriving DecidableEq, Repr

/-- The commands of the block, one per row of spec/opcode_table.json. -/
inductive Instr where
  -- Thermos, reset and boot
  | thermosPorExit
  | coldThermosPor
  | thermosSourceSwitch (toVbk : Bool)
  | thermosArbitration (vaonRise vbkFall : Option Nat)
  | crystalStop
  | crystalRestart
  | tporRelease
  | mainBrownout (rails : BitVec 8)
  | mainPorRelease (probe : FlashProbe)
  | resetNFall
  | romProbeTimeout
  | otpResponse (word : BitVec 10) (value : BitVec 32) (err : Bool)
  | otpTimeout
  | bootResponse (beat : BootBeat)
  | slotAttempt (flash : FlashImage)
  | slotVerifyTimeout
  | settingsLoadTimeout
  | bringupStart (populated : BitVec 4)
  | unitSelfTestDone (unit : BitVec 8) (ok : Bool)
  | bringupTimeout
  | dramTrainingDone (trained : BitVec 4) (mibPerChannel : Nat)
  | dramTrainingTimeout (trained : BitVec 4) (mibPerChannel : Nat)
  | readyEntry
  | otpProgramResponse (err readback : Bool)
  | bootLockstepMismatch
  | softReset (value : BitVec 32)
  | nvCounterResponse (value : BitVec 32) (err : Bool)
  | nvCounterTimeout
  -- features and the link
  | featAcceptWrite (word : Fin 4) (value : BitVec 32)
  | helloDone (value : BitVec 32)
  | helloTimerExpiry
  | linkUp (speed : Fin 4) (bme msix ptm : Bool)
  | linkDown
  | busMasterEnableClear
  | flr
  -- settings and epochs
  | settingsRead (r : CmdRef)
  | shadowWrite (r : CmdRef)
  | check (r : CmdRef)
  | checkComplete
  | apply (r : CmdRef)
  | syncShadow (r : CmdRef)
  | epochBoundary (dram : List DramTemp) (vack : PPoints)
  | planCommit (p : PlanIn)
  | voltageRaise (i : Dvfs)
  | voltageLower (i : Dvfs)
  -- time
  | ptmDialogueDue
  | ptmDeferredRun
  | ptmDialogueComplete (master : BitVec 64) (delay : BitVec 32)
  | ptmDialogueFail
  | lostAck (value : BitVec 32)
  | lowerHalfRead (off : Nat)
  | ptmCorrRead (size : Nat)
  -- sensors
  | trigEdge (pin : Fin 8) (rise : Bool)
  | frameStart (port : Fin 6) (p : ShortPkt)
  | trigNoFrame (port : Fin 6)
  | frameEnd (port : Fin 6) (p : ShortPkt)
  | lineStart (port : Fin 6) (isEnd : Bool) (p : ShortPkt)
  | longPacket (port : Fin 6) (p : LongPkt)
  | embedPacket (port : Fin 6) (p : LongPkt)
  | phyFramingError (port : Fin 6)
  | irqImuEdge (pin : Fin 4) (rising : Bool) (width : Nat)
  | pollTimer (slot : Fin 6)
  | sensorReadStart (ctl : Fin 4)
  | sensorReadDone (ctl : Fin 4) (burst : Option Bytes)
  | inertialGroupClose (slot : Fin 6)
  | skinReadDue
  | skinReadDone (value : Option (BitVec 16))
  | skinStale
  -- inertial filter chain
  | ifcInput (slot : Fin 6) (seen : Seen)
  | trigPulseEnd (pin : Fin 8)
  | ifcOutClose (group : Fin 4)
  | syncEdge (width : Nat)
  | sync (r : CmdRef)
  | coefLoadRefused (ch : Fin 24) (set : BitVec 8)
  -- Fox, AFU, Owl
  | foxBandStart (lane : Fin 8)
  | foxBandSeal (lane : Fin 8) (reads : Reads)
  | foxCutoff
  | preintBuild (reads : Reads)
  | prior (r : CmdRef)
  | poseAssembly (reads : Reads)
  | predEmit (reads : Reads)
  | owlModelLoad (r : CmdRef)
  | owlScore (r : CmdRef)
  | owlEngineScore (use : OwlUse) (input : OwlIn)
  | owlSampleResult (thread : Fin 32) (index : Nat)
  | owlGateLate (cam : Fin 6)
  | nodeUe (slot : Fin 8) (reloadOk : Bool)
  -- Badger
  | vioAssembly (input : VioIn)
  | badgerJob (r : CmdRef)
  | badgerBlockOpDone (job : Nat) (tile : Fin 16) (op : BlockOp) (residueOk : Bool) (reads : Reads)
  | badgerIterationDecide (job : Nat) (d : IterIn)
  | badgerDeadline (job : Nat)
  | vioReset
  -- Den
  | mapWrite (obj : MapObj)
  | hotColdMove (moves : List HotMove)
  | sramScrub (addr : BitVec 40) (found : EccFind)
  | dramScrub (addr : BitVec 40) (found : EccFind) (link : Bool)
  | zqCalibration
  | denWindowOpen (r : CmdRef)
  | denWindowClose (r : CmdRef)
  | bar4Read (off len : Nat)
  | bar4Write (off : Nat) (data : Bytes)
  -- guests
  | guestOpen (r : CmdRef)
  | guestFragment (r : CmdRef)
  | guestClose (r : CmdRef)
  | guestAlignStart (slot : Fin 64) (samples : List (Nat × Sample))
  | guestMerge (reads : Reads)
  | guestIdleExpiry (slot : Fin 64)
  | guestEvictComplete (slot : Fin 64)
  | guestCoolingEnd (slot : Fin 64)
  -- host link
  | sqTailDoorbell (q : Fin 16) (value : BitVec 32)
  | cqHeadDoorbell (q : Fin 16) (value : BitVec 32)
  | streamHeadDoorbell (st : Fin 8) (value : BitVec 32)
  | badDoorbell (off size : Nat)
  | commandFetch (q : Fin 16) (entry : BitVec 512)
  | completionWrite (q : Fin 16)
  | nop (r : CmdRef)
  | streamOpen (r : CmdRef) (journalUe : BitVec 2)
  | streamClose (r : CmdRef)
  | abort (r : CmdRef)
  | streamParcelWrite (st : Fin 8) (seen : Seen)
  | msixCoalesceTimer (vector : Fin 32)
  | qEnable (q : Fin 16)
  | qDisable (q : Fin 16)
  | qResume (q : Fin 16)
  | streamResume (st : Fin 8)
  | streamReset (st : Fin 8)
  | sidebandRead (command : Byte) (addr : BitVec 16) (count : Nat)
  -- trails
  | laneTrainAttempt (lane : Fin 18)
  | laneTrainTimeout (lane : Fin 18)
  | laneRetry (lane : Fin 18)
  | syncHeaderErrors (lane : Fin 18) (count : Nat)
  | laneLockLoss (lane : Fin 18)
  | retrainReq (lane : Fin 18)
  | widthReq (bundle : Fin 16) (width : BitVec 5)
  | widthAck (bundle : Fin 16) (width : BitVec 5)
  | flitReceive (bundle : Fin 16) (flit : BitVec 2048)
  | nakReceive (bundle : Fin 16) (seq : BitVec 12)
  | ackTimer (bundle : Fin 16)
  | flitAckTimeout (bundle : Fin 16)
  | rollCallSend
  | rollCallReceive (bundle : Fin 16) (p : Parcel)
  | rollCallSettle
  | assign (p : Parcel)
  | readReq (src : BitVec 12) (p : Parcel)
  | readResp (tag : BitVec 32) (p : Parcel)
  | readReqTimeout (tag : BitVec 32)
  | join (p : Parcel)
  | joinReply (p : Parcel)
  | joinRetry
  | fragAckReceive (p : Parcel)
  | fragAckTimeout
  | leave (p : Parcel)
  | chipLost (serial : BitVec 64)
  | sealReport (p : Parcel)
  -- faults
  | bridgeBeat (sender receiver : Island) (h : Handshake)
  | bridgeWatchdog (sender receiver : Island) (unit : Option (BitVec 8))
  | lockstepMismatch (pair : Pair)
  | localUe (unit : BitVec 8)
  | eccStorm (unit : BitVec 8) (count : Nat)
  | unitWatchdog (unit : BitVec 8)
  | islandRestartDone (island : Island)
  -- power
  | govBudgetWrite (value : BitVec 32)
  | govSkinWrite (value : BitVec 32)
  | cooldownEnd
  | dieTempSample (temps : BitVec 128) (valid : BitVec 8)
  | thermalTrip (sensor : Fin 8) (temp : BitVec 16)
  | pauseRequest
  | pauseClear
  | resumeBoundary
  | shutdown
  | journalCommit
  -- the block's edge
  | edgeBeatIn (ch : Fin 53) (beat : Beat) (early : Bool)
  | edgeStall (ch : Fin 53)
  | packMatch (i : Dvfs)
  | packTimeout (i : Dvfs) (delivered : Fin 6)
  | pwrAckRise (island : Island)
  | retAckDen (level : Bool)
  | pwrAckFall (island : Island)
  | pwrAckTimeout (island : Island)
  -- registers and the rest
  | clearWrite (off : Nat) (value : BitVec 32)
  | registerWrite (w : RegWrite)
  | dmaReadCompletion (r : CmdRef) (d : DmaData)
  | laneUp (lane : Fin 18) (rate : BitVec 3) (far : FarEnd)
  | guestFragReceive (p : Parcel)
  | tbSourceChange (refRunning : Bool)
deriving DecidableEq, Repr

end Sys2Proof
end

