-- ==== Sys2Proof/Config.lean ====
section
/-! DEFINITION. What an implementation fixes and the spec leaves open. Every constant is opaque: no proof can see a value of
one (log entries 5 and 6). -/

namespace Sys2Proof.Config

/-- Free values (log entry 5): the n-th value that the spec leaves open, drawn with the state's `fresh` counter. -/
opaque freeValue : Nat → BitVec 64

/-- REVISION.ROM_VERSION (Table 19-3). -/
opaque romVersion : BitVec 16

/-- The ROM hashes of the Ngarain public keys, by KEY_ID (R57). -/
opaque romKeyHash : Fin 4 → BitVec 256

/-- Which half of Den's settings region holds the active set while ACTIVE_GEN has a parity (R98, Table 12-1): open. -/
opaque activeHalf : Bool → Bool

/-- A port's fixed deskew latency in ticks (R126). -/
opaque deskew : Fin 6 → Nat

/-- The built-in range table of a problem class, as a range-table section (R369). -/
opaque builtinRanges : Fin 4 → Bytes

/-- By how many ULP, less two, a link function's FP32 differs from the exact value rounded once (R342, log entry 6): from the link code, the
margins and the class. -/
opaque linkUlps : Nat → List (BitVec 32) → Nat → Fin 5

/-- One step of the propagation of the 9×9 covariance of (δθ, δv, δp) of R309, 45 elements: from those before it, the step's ΔR, angular
velocity, acceleration and Δt, and its noise variances; open (log entry 6). -/
opaque covStep : List (BitVec 32) → List (BitVec 32) → List (BitVec 32) → List (BitVec 32)

/-- One step of the propagation of the 45 bias Jacobian entries of R309; open (log entry 6). -/
opaque jacStep : List (BitVec 32) → List (BitVec 32) → List (BitVec 32)

/-- The pose covariance of a record whose solution was propagated (R322, R384): from the solution's 21 elements and the 45 of the propagation;
open (log entry 6). -/
opaque poseCov : List (BitVec 32) → List (BitVec 32) → List (BitVec 32)

/-- The covariance of a prior between two others (R315): from both and the weight s of R149; open (log entry 6). -/
opaque priorCov : List (BitVec 32) → List (BitVec 32) → BitVec 32 → List (BitVec 32)

/-- The information of the guest edge between a merged keyframe and its pair (R455), 21 FP16 as 42 bytes, from both heads: open (log entry 6). -/
opaque guestInfo : Bytes → Bytes → Bytes

/-- The update of one Lucas-Kanade iteration (R285), x and y with 16 fraction bits of the level's pixel: from the reference level, the reference
position there and the 81 values of the present window with 12 fraction bits; its arithmetic is open (log entry 6). -/
opaque lkUpdate : List (List (Option (BitVec 16))) → Int × Int → List Int → Int × Int

end Sys2Proof.Config
end

