-- ==== Sys2Proof/Machine/State.lean ====
section
/-! DEFINITION. The state of the block: every register, counter, queue, buffer and mode that the spec names, as plain data,
grouped as its chapters group them, and `State.reset`. A field's initial value is its value at reset: the Reset column of
chapter 19 (R644) where it gives one, otherwise an empty, idle or zero value (log entry 3). -/

namespace Sys2Proof.Machine

/-- An addressed memory: (address, byte) pairs, addresses strictly rising, no byte equal to what an unlisted address reads
(`Memory.blank`, in Ops). -/
abbrev Memory := List Host.Cell

/-- Why the block stops with a fault. The spec describes every error of this block as an effect on its state, so no meaning
raises one. -/
inductive Fault where
  /-- Raised by no meaning (safe). -/
  | none
deriving DecidableEq, Repr

/-- Why the model gives a command no meaning. -/
inductive Refusal where
  /-- Raised by an arm of `exec` that has no meaning yet (safe: the run stops). -/
  | notModelled (mnemonic : String)
deriving DecidableEq, Repr

/-- What names one input parcel in a lineage string and in a trace entry (R163, R191). -/
structure InRef where
  chip     : BitVec 16
  producer : BitVec 8
  stream   : BitVec 8
  seq      : BitVec 32
  crc      : BitVec 32
  type     : BitVec 16
  flags    : BitVec 8
deriving DecidableEq, Repr

/-- The mode the boot path reads in (R44, R638): 8D-8D-8D at 200 MHz; 1-4-4, command 0xEC, or 1-1-1, command 0x0C, at 50 MHz; HC_BOOT. -/
inductive FlashMode where
  | none | octal | quad | single | hcBoot
deriving DecidableEq, Repr

/-- What the block drives outward: its own record of its output pins, oldest first. -/
inductive Out where
  | memWrite (addr : BitVec 64) (data : Bytes)           -- a DMA write to host memory
  | msix (vector : Nat)                                  -- an MSI-X message (R509)
  | readReply (data : Bytes)                             -- a completion with data
  | unsupported                                          -- a completion with Unsupported Request (R430)
  | poisoned (data : Bytes)                              -- a completion with EP set (R430)
  | sideband (data : Bytes)                              -- bytes on SB_MISO (R511)
  | parcel (bundle : Nat) (dest : BitVec 12) (p : Parcel) -- a parcel sent on a trail bundle (R527)
  | flit (bundle : Nat) (bytes : Bytes)                  -- a replayed flit (R528)
  | ack (bundle : Nat) (seq : BitVec 12) (nak : Bool)    -- an acknowledgement or NAK (R528)
  | retrain (lane : Nat)                                 -- RETRAIN_REQ (R522)
  | widthReq (bundle : Nat) (w : BitVec 5)               -- WIDTH_REQ (R524)
  | widthAck (bundle : Nat) (w : BitVec 5)               -- WIDTH_ACK (R524)
  | otpRead (word : BitVec 10)                           -- HC_OTP_Q READ (R635)
  | otpProgram (bit : Nat)                               -- HC_OTP_Q PROGRAM_BIT of the thermometer (R66)
  | nvRead                                               -- HC_NV_Q READ (R637)
  | nvIncrement                                          -- HC_NV_Q INCREMENT (R637)
  | bootInfo                                             -- HC_BOOT_Q INFO (R638)
  | bootRead (off units : Nat)                           -- HC_BOOT_Q READ, its length in 32-byte units (R638)
  | flashProbe                                           -- SFDP: command 0x5A in 1-1-1 mode at 12.5 MHz, 3-byte address (R43)
  | flashRead (mode : FlashMode) (addr len : Nat)        -- a read in the mode of R44, 4-byte address
  | flashReset                                           -- 0x66 then 0x99 (R47)
  | busRead (slot : Nat) (cmd : Bytes) (len : Nat)       -- a sensor read (R213)
  | hdrRead (slot : Nat) (code : Byte) (len : Nat)       -- ENTHDR0, an HDR-DDR read command with its code, the burst, HDR exit (R217)
  | skinRead (bus addr reg : Byte)                       -- a skin-sensor read (R586)
  | rstdaa (bus : Nat)                                   -- I3C RSTDAA (R217)
  | setdasa (bus : Nat) (addr : Byte)                    -- I3C SETDASA (R217)
  | ptmRequest                                           -- a PTM dialogue (R117)
  | zqCal                                                -- ZQ calibration and WCK tracking (R411)
deriving DecidableEq, Repr

/-! ### The always-on domain -/

/-- Which clock TB counts (R111, R112). -/
inductive TbSource where
  | pll | crystal
deriving DecidableEq, Repr

/-- The transaction on the monotonic counter's channel (R637). -/
inductive NvOp where
  | idle | reading | incrementing
deriving DecidableEq, Repr

/-- The Thermos domain (chapters 04 and 17). -/
structure Thermos where
  tb          : BitVec 64 := 0       -- R111 to R116
  tbFrac      : BitVec 8 := 0        -- fraction accumulator of R112
  tbEpoch     : BitVec 32 := 0       -- R114
  tbSource    : TbSource := .crystal -- R111, R112
  refRuns     : Bool := false        -- the 38.4 MHz reference runs (R111)
  onVbk       : Bool := false        -- R605
  xtalStopped : Bool := false        -- R114
  timeLost    : Bool := false        -- R156, TIME_STATUS.LOST
  lostCause   : BitVec 8 := 0        -- cause of the newest increment (TIME_LOST body, Table 14-12)
  nv          : NvOp := .idle        -- R637
  nvSince     : Tick := 0
  journal     : Memory := []         -- Table 17-4
  journalUe   : BitVec 2 := 0        -- slots in which an uncorrectable error lies (R612)
  brownCount  : BitVec 32 := 0       -- entries written to the brown-out log (R609)
  brownRead   : BitVec 32 := 0       -- entries read out (R613)
deriving DecidableEq, Repr

/-! ### Boot -/

/-- Table 02-1. -/
inductive BootPhase where
  | thermosPor | mainPor | romProbe | slotVerify | settingsLoad | bringup | ready | haltedNoboot | faultHalt
deriving DecidableEq, Repr

/-- The order codes (Table 00-1; REVISION.PACKAGE). -/
inductive Package where
  | h | w | c
deriving DecidableEq, Repr

/-- OTP (Table 18-8). -/
structure Otp where
  serial      : BitVec 64 := 0
  keyRevoke   : BitVec 4 := 0
  custKeyHash : BitVec 256 := 0
  rollback    : BitVec 64 := 0
  energy      : List (BitVec 32) := List.replicate 48 0
  readMask    : List (BitVec 10) := []     -- words answered since the entry to ROM_PROBE (R635)
deriving DecidableEq, Repr

/-- Boot (chapter 02, R633 to R639). -/
structure Boot where
  package        : Package := .h          -- fixed by bond option
  phase          : BootPhase := .thermosPor
  since          : Tick := 0              -- entry to the phase
  releasedAt     : Tick := 0              -- release of MAIN_POR
  causeA         : BitVec 8 := 0          -- BOOT_STATUS.CAUSE_A
  causeB         : BitVec 8 := 0
  booted         : Bool := false
  bootedSlot     : SlotId := .a
  bootUs         : BitVec 32 := 0         -- BOOT_TIME
  svn            : BitVec 8 := 0          -- HAMPER_INFO.SVN, set at READY
  hamperSlot     : SlotId := .a
  versionCounter : BitVec 32 := 0
  trySvn         : BitVec 8 := 0          -- of the slot that passed, shown at READY
  tryVersion     : BitVec 32 := 0
  custKeyBlank   : Bool := false          -- STATUS.CUST_KEY_BLANK
  order          : List SlotId := []      -- slots not yet tried (R61)
  headersRead    : Bool := false
  trying         : Option SlotId := none
  romPair        : Pair := .a             -- R38
  romMismatchA   : Bool := false
  flashMode      : FlashMode := .none
  density        : Nat := 0
  flashDriven    : Bool := false
  bootStore      : Memory := []           -- what HC_BOOT_D has delivered, by storage offset (R638)
  policy         : BitVec 128 := BitVec.allOnes 128 -- feature-policy mask (R69)
  models         : List (Option Bytes) := List.replicate 8 none  -- Owl sections by INDEX
  ranges         : List (Option Bytes) := List.replicate 4 none  -- range tables by class (R369)
  otp            : Otp := {}
  otpSince       : Tick := 0
  rollTarget     : Nat := 0               -- R66
  rollBusy       : Bool := false
  masterStrap    : Bool := false          -- R661
  bootSrc        : Bool := false          -- R638
  stream2Opened  : Bool := false          -- stream 2 opened since READY in this power-up (R613)
  haltDue        : Bool := false          -- a halt record waits for R581
  dramDone       : Bool := false          -- the channels in use are chosen (R409)
deriving DecidableEq, Repr

/-- Pins (chapter 20). -/
structure Pins where
  resetN      : Bool := false
  resetFellAt : Option Tick := none         -- R669
  brownAt     : Option Tick := none         -- R669
  rails       : BitVec 8 := 0               -- main rails below threshold (R609, HB_BOR)
  testEn      : Bool := false               -- R660
  master      : Bool := false               -- the strap pin
  bootSrcPin  : Bool := false
  trailsWired : BitVec 18 := 0              -- HB_TRAIL_PRESENT (R624)
  trigLevel   : List Bool := List.replicate 8 false
  trigDriven  : List Bool := List.replicate 8 false  -- false: high impedance (Table 20-5)
  dramResetN  : Bool := false
deriving DecidableEq, Repr

/-! ### Features and the link -/

/-- HELLO_STATUS.STATE (Table 19-4). -/
inductive Hello where
  | notReady | waiting | committed | refused | baseline
deriving DecidableEq, Repr

/-- Feature negotiation (R69 to R82, R646). -/
structure Feat where
  offer       : BitVec 128 := 0
  accept      : BitVec 128 := 0
  committed   : BitVec 128 := 0
  state       : Hello := .notReady
  late        : Bool := false
  timer       : Option Tick := none       -- expiry tick (R71)
  limited     : Bool := false             -- the offer was limited by R79
  everCommit  : Bool := false             -- a commit since READY (R80, R573)
  commitTick  : Tick := 0
  applied     : Bool := true              -- R80: the newest commit has taken effect at a boundary
  inForce     : BitVec 128 := BitVec.allOnes 128 -- the features the engine runs with (R80)
deriving DecidableEq, Repr

/-- Link power states the spec names (R118, R675, R678). -/
inductive LinkPm where
  | l0 | l1 | l11 | l12 | l12exit
deriving DecidableEq, Repr

/-- One MSI-X table entry (Table 19-2). -/
structure MsixEntry where
  addr : BitVec 64 := 0
  data : BitVec 32 := 0
  mask : Bool := true
deriving DecidableEq, Repr

/-- The PCIe endpoint (R466 to R469, R505, R509). -/
structure Link where
  up     : Bool := false
  pm     : LinkPm := .l0
  speed  : Fin 4 := 0                -- 0 to 3 for 2.5 to 16 GT/s
  bme    : Bool := false
  ptm    : Bool := false
  msixOn : Bool := false
  msix   : List MsixEntry := List.replicate 32 {}
  pba    : BitVec 32 := 0
deriving DecidableEq, Repr

/-! ### Settings, epochs, time -/

/-- Table 03-4, in the coding of SETTINGS_STATUS.SHADOW_STATE. -/
inductive Shadow where
  | clean | dirty | checking | pass | fail | armed | stale
deriving DecidableEq, Repr

/-- An armed swap (R96). -/
structure Armed where
  epoch    : Nat        -- the epoch whose start swaps
  boundary : Tick
  at_      : Tick       -- tick of arming (R26)
  owner    : Option CmdRef
deriving DecidableEq, Repr

/-- CHECK_RESULT (R108). -/
structure CheckResult where
  pass   : Bool := false
  reason : BitVec 8 := 0
  page   : BitVec 6 := 0
  field  : BitVec 12 := 0
deriving DecidableEq, Repr

/-- The settings sets (chapter 03). -/
structure Cfg where
  active      : List Memory := List.replicate 64 []
  shadow      : List Memory := List.replicate 64 []
  shadowState : Shadow := .clean
  before      : Shadow := .clean         -- the state CHECK started from (R104)
  gen         : BitVec 32 := 0           -- ACTIVE_GEN
  lastSwap    : BitVec 64 := 0
  armed       : Option Armed := none
  checkSince  : Tick := 0
  result      : CheckResult := {}
  modelErr    : BitVec 32 := 0xFFFFFFFF  -- OWL_STATUS
  busy        : Bool := false            -- a settings command executes (R87)
  busyBy      : Option CmdRef := none    -- the command whose completion it has; none once its queue is gone
  badPages    : List Nat := []           -- shadow pages lost to a memory fault (Table 16-4)
deriving DecidableEq, Repr

/-- The plan of an epoch (R24, R275, R591, R593): the lane lists, the P-points and power under the sustained budget and under the budget that
it runs with, which differ when a burst is granted, and the tick of its commit. -/
structure Plan where
  lanes : List (List (Fin 8)) := List.replicate 6 []
  order : List (Fin 6) := [0, 1, 2, 3, 4, 5]   -- in which a lane serves the cameras (R275)
  pp    : PPoints := ⟨5, 5, 5, 5⟩
  mw    : BitVec 16 := 0
  lowPp : PPoints := ⟨5, 5, 5, 5⟩
  lowMw : BitVec 16 := 0
  burst : Bool := false
  why   : BurstWhy := .none
  made  : Tick := 0
deriving DecidableEq, Repr

/-- Frame epochs (R123 to R125, R573 to R575). -/
structure Ep where
  running  : Bool := false
  now      : BitVec 64 := 0           -- EPOCH_NOW
  base     : Tick := 0                -- b
  n        : Nat := 0
  rate     : Nat := 0                 -- effective rate, Hz
  start    : Tick := 0                -- tick of the boundary that started epoch now
  prevLen  : Tick := 0                -- length of the previous epoch (R146)
  plan     : Plan := {}
  next     : Option Plan := none
  degraded : Bool := false            -- the epoch's POSE must be DEGRADED
  cameras  : BitVec 6 := 0            -- cameras that contributed
  changeAt : Tick := 0                -- newest change in live counts (R574)
  journaled : Bool := false           -- the epoch's journal commit is done (R611)
  k        : Fin 3 := 0               -- the step level in force (R573, R574)
deriving DecidableEq, Repr

/-- Correlation with the host clock, and SYNC (R117 to R120, R143, R144, R651). -/
structure Tim where
  pairHost   : BitVec 64 := 0
  pairTb     : BitVec 64 := 0
  pairEpoch  : BitVec 32 := 0
  valid      : Bool := false
  failCount  : BitVec 16 := 0
  latch      : BitVec 192 := 0
  due        : Tick := 0
  deferred   : Bool := false
  busy       : Bool := false
  reqAt      : Tick := 0               -- TB at the request instant of the newest dialogue (R119)
  lastSync   : Option Tick := none     -- stamp of the last accepted SYNC edge
  syncPend   : Option (Tick × BitVec 8) := none -- a SYNC within 250 ticks, stamp and source, whose event waits (R144)
  syncCount  : BitVec 32 := 0          -- SYNC_IGNORED
deriving DecidableEq, Repr

/-! ### Sensor ports -/

/-- A line of an open frame: its number and whether it is good (R202 to R205). -/
structure Line where
  no   : Nat
  good : Bool
deriving DecidableEq, Repr

/-- An open frame (R203 to R210). -/
structure Frame where
  no      : BitVec 16
  fs      : Tick                -- Frame Start stamp
  gen     : BitVec 32
  page    : Memory := []        -- the port's page at Frame Start, which the whole frame runs under (R100, R101)
  next    : Nat := 0            -- number of the next line (R201, R203)
  lines   : List Line := []
  tooMany : Bool := false       -- a line at or above HEIGHT came (R207)
  matched : Bool := false       -- R138
  slipped : Bool := false       -- R140
  rise    : Tick := 0           -- the trigger edges it matched
  fall    : Tick := 0
deriving DecidableEq, Repr

/-- A trigger pulse of the epoch and the Frame Start it predicts (R137, R138); `met` says that no Frame Start can match it any more. -/
structure Trig where
  rise : Tick
  fall : Tick
  met  : Bool := false
deriving DecidableEq, Repr

/-- A CSI-2 receiver (R193 to R212). -/
structure Port where
  synced   : Bool := false                  -- a Frame Start since enable (R211)
  frame    : Option Frame := none
  trigs    : List Trig := []
  usedFor  : Option Nat := none             -- the epoch its last used frame belongs to (R145)
  counters : List (BitVec 32) := List.replicate 16 0  -- Table 19-12 order
  changed  : Bool := false                  -- R230
  doneAt   : Option Tick := none            -- t_mid of its last FRAME
deriving DecidableEq, Repr

/-- One inertial sample (R224). -/
structure InSample where
  stamp : BitVec 64
  code  : BitVec 8
  ovr   : BitVec 8
  flags : BitVec 8
  vals  : List (BitVec 32)
deriving DecidableEq, Repr

/-- A read waiting or running on an inertial bus (R214 to R216). -/
structure Read where
  stamp   : Tick
  overrun : Bool := false
  polled  : Bool := false
deriving DecidableEq, Repr

/-- An inertial slot (R213 to R225). -/
structure Slot where
  pending   : List Read := []                -- oldest first
  reading   : Option Read := none
  failRun   : Nat := 0
  lost      : Bool := false
  group     : List InSample := []
  groupAt   : Tick := 0
  lastCode  : Option (BitVec 8) := none
  pollNext  : Tick := 0
  pollFrom  : Tick := 0                      -- the boundary at which the slot was enabled (R214)
  addressed : Bool := false                  -- SETDASA done (R217)
  counters  : List (BitVec 32) := List.replicate 5 0
  changed   : Bool := false
deriving DecidableEq, Repr

/-! ### Inertial filter chain -/

/-- One input in a channel's history (R236, R247). -/
structure IfcIn where
  n     : Nat
  stamp : Tick
  raw   : BitVec 32      -- the sample's value
  v     : BitVec 32      -- rescaled (R236)
  code  : BitVec 8
  ovr   : Bool
  fill  : Bool
  src   : InRef
deriving DecidableEq, Repr

/-- The states of an event unit (R258). -/
inductive EvSt where
  | idle | pending | active
deriving DecidableEq, Repr

/-- An event unit (R256 to R263). -/
structure EvUnit where
  st      : EvSt := .idle
  run     : Nat := 0
  tFirst  : Tick := 0
  tainted : Bool := false
  seam    : Bool := false
  since   : Tick := 0        -- its fields are those of outputs stamped from here on (R100, R263)
deriving DecidableEq, Repr

/-- A filter channel (R231 to R267). -/
structure Chan where
  running  : Bool := false
  hist     : List IfcIn := []              -- newest first
  count    : Nat := 0                      -- inputs since start, fills included
  n0       : Nat := 0
  first    : Bool := true                  -- the next output is the FIRST
  syncAts  : List Tick := []               -- SYNCs not yet anchored (R249)
  syncDue  : Bool := false                 -- the next output carries SYNC_RESET
  seams    : List Nat := []                -- inputs that are the first under a new code, and that no output's window held yet (R251)
  seamLeft : Nat := 0
  code     : Option (BitVec 8) := none
  rescaleAt : Option Tick := none          -- R252
  oldScale : List (BitVec 32) := []        -- RANGE_SCALE before the swap of R252
  prevStamp : Option Tick := none          -- stamp of the newest sample
  restartDue : Bool := false               -- an island restart (Table 16-3): the next sample is n0
  coefs    : List (BitVec 16) := []        -- loaded h (R234)
  delay    : BitVec 16 := 0                -- loaded GROUP_DELAY
  ev0      : EvUnit := {}
  ev1      : EvUnit := {}
  counters : List (BitVec 32) := List.replicate 6 0
deriving DecidableEq, Repr

/-- One record of an IFC_OUT parcel (Table 07-6). -/
structure IfcRec where
  stamp : BitVec 64
  ch    : BitVec 8
  flags : BitVec 8
  code  : BitVec 8
  value : BitVec 32
deriving DecidableEq, Repr

/-- A channel group's open IFC_OUT parcel (R264). -/
structure Group where
  recs    : List IfcRec := []
  firstAt : Tick := 0
  inputs  : List InRef := []
  changed : Bool := false                   -- R267
  events  : List (BitVec 8 × Bytes) := []   -- threshold events that wait for their parcel's seal (R498)
  last    : Option InRef := none            -- the newest sealed IFC_OUT parcel
deriving DecidableEq, Repr

/-- The inertial filter chain. -/
structure Ifc where
  chans    : List Chan := List.replicate 24 {}
  groups   : List Group := List.replicate 4 {}
  coefBusy : BitVec 24 := 0                 -- IFC_STATUS (R235)
  pulses   : List (Option Tick) := List.replicate 8 none  -- end of an event pulse by pin (R260)
  taken    : List InRef := []               -- INERTIAL parcels entered and not yet released (R175)
deriving DecidableEq, Repr

/-! ### Fox -/

/-- A feature slot of a camera (R272, R282 to R288). -/
structure Feature where
  slot  : Nat
  id    : BitVec 32
  x     : BitVec 32            -- S32, 6 fraction bits
  y     : BitVec 32
  px    : BitVec 32            -- position in the frame before
  py    : BitVec 32
  t     : Tick                 -- t_mid of the frames concerned
  pt    : Option Tick
  resp  : BitVec 32
  age   : BitVec 16
  orient : BitVec 8
  desc  : BitVec 256
deriving DecidableEq, Repr

/-- One record of a TRACK parcel (Table 08-4). -/
structure Track where
  id     : BitVec 32
  x      : BitVec 32
  y      : BitVec 32
  resp   : BitVec 32
  age    : BitVec 16
  status : BitVec 8
  flags  : BitVec 8
  resid  : BitVec 16
  iters  : BitVec 8
  orient : BitVec 8
  desc   : BitVec 256
deriving DecidableEq, Repr

/-- A level of a pyramid: rows of pixels, none where missing (R277, R278). -/
abbrev Image := List (List (Option (BitVec 16)))

/-- A PYRAMID parcel of a frame: its level, row and first pixel (R289). -/
structure PyrRef where
  level : Nat
  row   : Nat
  first : Nat
  ref   : InRef
deriving DecidableEq, Repr

/-- A band of a frame (R275, R277). -/
structure Band where
  index   : Nat
  ownLo   : Nat
  ownHi   : Nat               -- one past the last own line
  lane    : Nat
  started : Bool := false
  isSealed : Bool := false
  startAt : Tick := 0
  levels  : List Image := []  -- the own rows of each level
  tracks  : List Track := []
  pyr     : List PyrRef := []  -- its PYRAMID parcels
  trk     : List InRef := []   -- its TRACK parcels
deriving DecidableEq, Repr

/-- What a frame is tracked from (R272): the feature slots, and the reference frame's pyramid, parcels and epoch. -/
structure FoxBase where
  feats : List Feature := []
  img   : List Image := []          -- levels 0 to 3; empty when there is no reference frame
  refs  : List PyrRef := []
  epoch : Option Nat := none
  toEnd : List Nat := []            -- slots that a swap ends at the next frame (R283)
deriving DecidableEq, Repr

/-- A frame that Fox works on (R271), under the set and from the features and reference of its Frame Start (R101, R268). -/
structure FoxFrame where
  no       : BitVec 16
  port     : Nat
  fs       : Tick                 -- its Frame Start stamp, which names it
  gen      : BitVec 32
  set      : List Memory
  base     : FoxBase
  bands    : List Band
  first    : BitVec 32 := 0       -- SEQ of its first LINE parcel
  last     : Option (BitVec 32) := none   -- SEQ after its last one, once it has closed
  mid      : Option (Tick × Nat) := none  -- t_mid from its FRAME parcel, and the epoch its results belong to (R271)
  lost     : List Nat := []       -- lines whose parcels were not consumed (R174, R570)
  consumed : Bool := false        -- the assembler has consumed its results (R272)
deriving DecidableEq, Repr

/-- A camera's Fox state (R272 to R274). -/
structure FoxCam where
  base    : FoxBase := {}
  frames  : List FoxFrame := []   -- oldest first
  dropped : Bool := false         -- it contributes nothing to this epoch (R273, R295)
deriving DecidableEq, Repr

/-- The Fox lanes. -/
structure Fox where
  cams   : List FoxCam := List.replicate 6 {}
  freeAt : List Tick := List.replicate 8 0   -- projected free time of each lane (R294)
deriving DecidableEq, Repr

/-! ### Alignment and fusion -/

/-- An accepted host prior (R315). -/
structure PriorRec where
  stamp   : Tick
  payload : Bytes
  src     : InRef
  at_     : Tick               -- verified (R317)
deriving DecidableEq, Repr

/-- Records held of one IFC channel, newest first (R147). -/
structure AfuOut where
  recs : List (IfcRec × InRef) := []
deriving DecidableEq, Repr

/-- A SOLUTION that records may rest on, with what they say of it (Table 09-5). -/
structure SolRec where
  parcel   : Parcel
  epoch    : Nat
  age      : Tick                 -- its earliest new measurement (R153)
  sealedAt : Tick
  cams     : BitVec 8
  priors   : BitVec 16
  table    : BitVec 32            -- TABLE_VERSION
  reloc    : BitVec 16 := 0       -- RELOC_COUNT, once its POSE is assembled
  flags    : BitVec 32 := 0       -- RELOCALISED, KEYFRAME and CALIB_CHANGED of its POSE
  posed    : Bool := false
  told     : Bool := false        -- a PRED that rests on it has carried those flags (R321)
  omega    : List (BitVec 32) := []   -- angular velocity in B at its t_c, once its POSE is assembled
deriving DecidableEq, Repr

/-- A prior brought to t_c, as a factor of the epoch's problem (R315). -/
structure PriorFactor where
  source : Nat
  pose   : List (BitVec 32)            -- p_WB and q_WB
  cov    : List (BitVec 32)            -- 21 elements (R300)
deriving DecidableEq, Repr

/-- The alignment and fusion unit. -/
structure Afu where
  outs       : List AfuOut := List.replicate 24 {}
  tc         : Tick := 0
  tcPrev     : Option Tick := none
  tcDone     : Bool := false                 -- t_c of the epoch is fixed
  tcNext     : Option Tick := none           -- t_mid of a reference frame that belongs to the epoch to come (R145)
  arrived    : List InRef := []              -- IFC_OUT parcels in order of first verification, newest first
  preint     : Option Parcel := none         -- newest PREINT
  preintDone : Bool := false                 -- the epoch has its PREINT
  preints    : List Parcel := []             -- PREINT parcels since the newest SOLUTION (R323)
  secondary  : Bool := false                 -- the secondary slot is in use (R311)
  noInertial : Bool := false                 -- R312
  switched   : Bool := false                 -- the epoch is the first on the secondary slot
  priors     : List (List PriorRec) := List.replicate 16 []   -- newest first
  dropEpoch  : BitVec 32 := 0                -- priors dropped by R135
  rejected   : BitVec 32 := 0                -- priors rejected by R314
  usedPriors : BitVec 16 := 0
  factors    : List PriorFactor := []        -- the priors that entered the newest VIO problem (R315)
  sol        : Option SolRec := none         -- newest SOLUTION
  solPrev    : Option SolRec := none         -- the one before it
  carried    : Bool := false                 -- the epoch's VIO job ended CARRIED
  rangeFault : Bool := false
  noSol      : Bool := true                  -- no estimate exists (R320)
  noSolEpoch : Bool := false                 -- the epoch's VIO job ended without a solution under STRICT (R384)
  reloc      : BitVec 16 := 0                -- RELOC_COUNT
  relocDue   : Bool := false                 -- the next solution is RELOCALISED
  keyDue     : Bool := false
  calibDue   : Bool := false
  predAt     : Tick := 0                     -- t_valid of the newest PRED
  posed      : Bool := true                  -- the epoch has its POSE (R28)
  mirror     : Option Parcel := none         -- R513
  mirrorPrev : Option Parcel := none         -- R675
  mirrorNo   : BitVec 32 := 0
  lastKf     : BitVec 32 := 0
deriving DecidableEq, Repr

/-! ### Owl -/

/-- A model load being staged (R327). -/
structure Staging where
  owner : CmdRef
  count : Nat
  parts : List Bytes
deriving DecidableEq, Repr

/-- An Owl slot (R324, R354). -/
structure OwlSlot where
  host     : Option Bytes := none                  -- model loaded by the host
  lost     : Bool := false                         -- R571
  counters : List (BitVec 32) := List.replicate 4 0
deriving DecidableEq, Repr

/-- One record of an OWL_RESULT parcel (Table 10-8). -/
structure OwlRec where
  index  : BitVec 16
  flags  : BitVec 8
  cls    : BitVec 8
  margin : BitVec 64
  probs  : List (BitVec 32)
  nans   : Nat := 0                  -- NaNs on bypass features (R332)
deriving DecidableEq, Repr

/-- A host scoring job (R350, R351). -/
structure OwlJob where
  no      : Nat
  owner   : Option CmdRef
  slot    : Nat
  tag     : BitVec 32                -- its CMD_ID
  gen     : BitVec 32
  use     : Nat                      -- USE, the model and the threshold of the set it runs under (R101)
  model   : Bytes
  threshold : BitVec 32
  samples : List Sample
  inputs  : List (InRef × Nat)       -- its FEATURES parcels, each with its number of samples
  entered : Bool := false            -- its first sample has entered traversal (R351)
  done    : List Nat := []           -- samples whose results are sealed or in the open parcel
  recs    : List OwlRec := []        -- the open parcel
deriving DecidableEq, Repr

/-- The tree-ensemble scorer. -/
structure Owl where
  slots   : List OwlSlot := List.replicate 8 {}
  staging : Option Staging := none
  jobs    : List OwlJob := []
  nextNo  : Nat := 0
  gated   : List (Option (List (BitVec 32))) := List.replicate 6 none  -- by camera: the feature IDs that pass the gate
  motion  : Option (BitVec 8) := none                   -- class of a passing motion result (R366)
  motionDone : Bool := false                            -- the epoch's motion class is scored
  cullDue : Bool := false                               -- the newest keyframe's points wait for use 3
  loopDue : Bool := false                               -- its loop candidates wait for use 4
  gateRefs : List InRef := []
deriving DecidableEq, Repr

/-! ### Badger -/

/-- One entry of a job's formats (R369, R371). -/
structure Fmt where
  role : BitVec 8
  kind : BitVec 8
  frac : Nat
  acc  : Nat
deriving DecidableEq, Repr

/-- An exact number: v over 2 to the frac. -/
structure Dy where
  v    : Int
  frac : Nat := 0
deriving DecidableEq, Repr

/-- The block operations of an iteration of a factorising job, in the order of the spec's loops: reading the host's blocks, damping, the landmark
groups (R376, R377), the factorisation and the substitutions (R373). -/
inductive Work where
  | linearise
  | load (t : Nat)
  | damp (i j : Nat)
  | landmark (g : Nat)
  | gain (g i : Nat)
  | reduce (g i : Nat)
  | schur (g i j : Nat)
  | factor (k : Nat)
  | panel (k i : Nat)
  | update (k i j : Nat)
  | forward (i : Nat)
  | back (i : Nat)
  | points (g : Nat)
  | solved
deriving DecidableEq, Repr

/-- The outcomes of Table 11-7. -/
inductive JobEnd where
  | converged | cap | deadline | rangeFault
deriving DecidableEq, Repr

/-- A Badger job (R355 to R394). -/
structure Job where
  no       : Nat
  cls      : BitVec 8
  pcg      : Bool
  carry    : Bool
  deadline : Option Tick
  host     : Bool := false            -- a host job
  owner    : Option CmdRef            -- the host command that waits for it
  tag      : BitVec 32
  gen      : BitVec 32
  epoch    : Nat
  fmts     : List Fmt
  lows     : List (BitVec 32 × BitVec 32 × Fmt) := []  -- blocks, by row and column, whose formats a trip has lowered (R371)
  inputs   : List InRef
  init     : List (BitVec 32)         -- initial estimate, FP32
  x        : List (BitVec 32)         -- last accepted iterate
  cov      : List (BitVec 32) := []
  cost32   : BitVec 32 := 0
  lam      : Nat := 1                 -- lambda, U32 with 16 fraction bits
  cost     : Option Int := none
  g0       : Option Int := none       -- squared norm of the first gradient
  accepted : Nat := 0
  decided  : Nat := 0
  trips    : Nat := 0
  opTrips  : Nat := 0                 -- trips of the operation in progress (R372)
  tiny     : Nat := 0                 -- PIVOT_TINY events of this factorisation (R375)
  tinyAll  : Nat := 0
  m        : Dy := ⟨0, 0⟩             -- max|diag(A)| at the start of the factorisation (R374)
  ill      : Bool := false            -- ILL_POSED in this iteration
  illEver  : Bool := false
  breakdown : Bool := false
  dropped  : Bool := false            -- LANDMARKS_DROPPED
  pcgIters : Nat := 0
  still    : Bool := false
  loopApplied : Bool := false
  tracks   : Nat := 0
  rows     : Nat := 0                 -- block rows n
  unknowns : Nat := 0                 -- variables in them
  marks    : Nat := 0                 -- landmarks
  problem  : Option Parcel := none    -- its PROBLEM parcel
  given    : List Parcel := []        -- the host's BLOCK parcels (R361)
  work     : Work := .linearise       -- the next block operation
  store    : List (Parcel × List InRef) := []  -- the BLOCK parcels of the iteration, each with its inputs
  redo     : List Parcel := []        -- BLOCK parcels whose operation is to be redone (R392)
  lastTile : Nat := 0
  guest    : Option (Nat × BitVec 16) := none
  loop     : Option (Nat × Nat) := none        -- new keyframe, candidate
  span     : Option (Nat × Nat) := none        -- keyframes of a pose-graph job
  points   : Nat := 0                          -- correspondences
  limits   : Nat × BitVec 32 := (0, 0)         -- ALIGN_MIN_INLIERS and ALIGN_MAX_RMS of its set (R101, R452)
  tc       : BitVec 64 := 0                    -- t_c of a VIO job's epoch
  cams     : BitVec 8 := 0                     -- cameras that contributed
  age      : BitVec 64 := 0                    -- the earliest measurement newly taken in (R153)
  core     : Memory := []                      -- the engine-core page of the set it runs under (R101)
deriving DecidableEq, Repr

/-- A feature that the newest keyframe observes (Table 10-9): its camera, its ID and where it was. -/
structure KeyFeat where
  cam : Nat
  id  : BitVec 32
  x   : BitVec 32
  y   : BitVec 32
deriving DecidableEq, Repr

/-- The sparse solver. -/
structure Badger where
  jobs       : List Job := []
  tiles      : List (Option Nat) := List.replicate 16 none  -- the job that each tile works for (R356)
  nextNo     : Nat := 0
  window     : Option Parcel := none    -- newest WINDOW
  vioInit    : Bool := false
  initFrames : List Tick := []          -- t_c of frames carrying tracks with PREINT data (R362)
  needReloc  : Bool := false            -- R385
  pendLoop   : Bool := false            -- a loop commit waits for the next VIO assembly (R367)
  dryEpochs  : Nat := 0                 -- consecutive epochs without a SOLUTION (R385)
  vioDone    : Bool := false            -- the epoch's VIO job was assembled
  keyDone   : Bool := false             -- the epoch's keyframe decision is made
  keyPending : Bool := false            -- the newest frame became a keyframe (R365)
  keyFeats   : List KeyFeat := []       -- what the newest keyframe observes (Table 10-9)
  keyframes  : Nat := 0                 -- keyframes in the window (R365)
  recents    : Nat := 0
  rangeTrips : BitVec 32 := 0
  lmDropped  : BitVec 32 := 0
  precondReg : BitVec 32 := 0
  asmHeld    : Bool := false            -- the assembler is restarting (R557)
deriving DecidableEq, Repr

/-! ### Den and the map -/

/-- One entry of MEM_FAULT_LOG (Table 19-13). -/
structure MemFault where
  addr   : BitVec 64
  tick   : BitVec 64
  region : BitVec 8
  dram   : Bool
deriving DecidableEq, Repr

/-- A BAR4 window (R428). -/
structure Window where
  off  : Nat
  base : Nat
  len  : Nat
deriving DecidableEq, Repr

/-- A keyframe in the directory: its ID and the hot slot it holds (R423). -/
structure KfDir where
  id  : Nat
  hot : Option Nat
deriving DecidableEq, Repr

/-- A bucket head of the place index: the addresses of its POSTINGS parcels, newest first, and the newest one's entry count (R421). -/
structure Bucket where
  key   : Nat
  chain : List Nat
  count : Nat
deriving DecidableEq, Repr

/-- The firmware's own data about the map (R414 to R426); the map objects themselves are stored parcels in `Den.mem`. -/
structure Map where
  kfs      : List KfDir := []          -- the directory, IDs rising
  ptTop    : Nat := 0                  -- one past the highest map-point slot written
  edgeTop  : Nat := 0                  -- one past the highest edge written
  buckets  : List Bucket := []
  poolNext : Nat := 0x130000000        -- next free byte of the DRAM pool
  saidFull : BitVec 4 := 0             -- MAP_FULL kinds emitted in the session (R418)
  rebuild  : Bool := false             -- directory or buckets being rebuilt (Table 16-4)
  moved    : Nat := 0                  -- hot and cold moves since the newest plan commit (R425)
  merged   : Nat := 0                  -- fragments merged in the epoch (R454)
  purged   : Nat := 0                  -- parcels written by purges in the epoch (R463)
deriving DecidableEq, Repr

/-- The map store and its memory (chapter 12). -/
structure Den where
  mem        : Memory := []
  ue         : List Nat := []          -- 64-byte granules that report an uncorrectable error (R569)
  populated  : BitVec 4 := 0
  trained    : BitVec 4 := 0
  channels   : BitVec 4 := 0           -- DEN_STATUS.CHANNELS
  usableMib  : BitVec 16 := 0
  dramAbsent : Bool := false
  mapFull    : Bool := false
  degradedDue : Bool := false          -- DRAM_DEGRADED waits for stream 2 (R409)
  bar4Drop   : BitVec 32 := 0
  sramCe     : BitVec 32 := 0
  dramCe     : BitVec 32 := 0
  linkCe     : BitVec 32 := 0
  windows    : List (Option Window) := List.replicate 8 none
  hot        : Bool := false           -- a device is above its rated range (R412, R598)
  refresh    : List (BitVec 8) := List.replicate 4 0   -- temperature code the refresh rate follows
  zqAt       : Tick := 0
  scrubAt    : Tick := 0
  faultLog   : List MemFault := []     -- newest last, 16 kept
  faultCount : BitVec 32 := 0
deriving DecidableEq, Repr

/-! ### Guests -/

/-- Table 13-1, in the coding of Table 19-12. -/
inductive GuestSt where
  | free | arriving | aligning | merged | evicting | cooling
deriving DecidableEq, Repr

/-- A guest slot (chapter 13). -/
structure Guest where
  st       : GuestSt := .free
  gen      : BitVec 16 := 0
  gid      : BitVec 64 := 0
  staged   : List Parcel := []            -- oldest first
  bytes    : Nat := 0                     -- their stored size
  lastFrag : BitVec 32 := 0
  mergedFrag : BitVec 32 := 0             -- FRAG_NO of the last merged fragment
  kfs      : List (BitVec 32) := []       -- guest keyframes with a KF_HEAD staged or merged in this stay
  obsKfs   : List (BitVec 32) := []       -- guest keyframes with observations staged
  stagedAt : Nat := 0                     -- epoch of the newest staging (R460)
  attempts : Nat := 0
  alignAt  : Nat := 0                     -- keyframes needed before the next attempt (R452)
  pairs    : List (Nat × Nat) := []       -- guest keyframe, own keyframe
  corrs    : List (Nat × Nat × Bytes) := [] -- correspondences: guest point, own point, p_G
  job      : Option Nat := none
  xform    : List (BitVec 32) := []       -- s, q_WG, t_WG
  inliers  : Nat := 0
  rms      : BitVec 32 := 0
  cause    : BitVec 8 := 0
  purged   : BitVec 32 := 0
  purge    : List (BitVec 32) := []       -- the stay's own keyframe IDs still to purge (R463)
  since    : Nat := 0                     -- epoch of the move to EVICTING, or of the last purge write
  doneAt   : Nat := 0                     -- epoch at whose start eviction completed
  kfMap    : List (BitVec 32 × Nat) := [] -- guest keyframe to own keyframe
  ptMap    : List (BitVec 32 × Nat) := [] -- guest point to own point
  merges   : Nat := 0
  stale    : BitVec 32 := 0               -- GUEST_STALE
  dropped  : BitVec 32 := 0               -- MERGE_DROPPED
  member   : Option (BitVec 12) := none   -- the member chip, for a merge job (R544)
  refusal  : BitVec 16 := 0               -- latest refusal since the previous FRAG_ACK (Table 15-8)
deriving DecidableEq, Repr

/-! ### Host link -/

/-- Where a fetched command stands. -/
inductive Stage where
  | fetched          -- not started
  | running          -- started, before its commit point
  | committed        -- past its commit point
  | finished         -- ended; its completion may be written
deriving DecidableEq, Repr

/-- A fetched command (Tables 14-4 and 14-5). -/
structure Cmd where
  id      : BitVec 32
  op      : BitVec 8
  entry   : BitVec 512
  stage   : Stage := .fetched
  status  : BitVec 16 := 0
  detail  : BitVec 32 := 0
  result0 : BitVec 64 := 0
  result1 : BitVec 64 := 0
  heads   : Bool := false           -- the header pass of R90 and R327 is done
  count   : Nat := 0                -- parcels taken
  data    : List Parcel := []       -- parcels verified and held
  order   : Tick := 0               -- tick of its doorbell (R88, R442)
  outs    : List (Nat × BitVec 32) := []  -- SEQs it put on streams (R480)
deriving DecidableEq, Repr

/-- A queue pair (R471 to R479, Table 19-10). -/
structure Queue where
  sqBase    : BitVec 64 := 0
  cqBase    : BitVec 64 := 0
  sqSize    : BitVec 13 := 0
  cqSize    : BitVec 13 := 0
  coalCount : BitVec 8 := 0
  coalUs    : BitVec 16 := 0
  enabled   : Bool := false
  configErr : Bool := false
  bellErr   : Bool := false
  held      : Bool := false
  sqHead    : Nat := 0
  sqTail    : Nat := 0
  cqHead    : Nat := 0
  cqTail    : Nat := 0
  phase     : Bool := true
  cmds      : List Cmd := []        -- fetched and not completed, in submission order
  bells     : List (Nat × Tick) := []  -- (tail rung, tick) of doorbells not yet fetched up to
  unsig     : Nat := 0              -- completions written and not signalled
  unsigAt   : Tick := 0
deriving DecidableEq, Repr

/-- Why a SEQ will never be written (R495). -/
inductive GapCause where
  | ringFull | link | egress
deriving DecidableEq, Repr

/-- An output stream (R489 to R496, Table 19-11). -/
structure Stream where
  isOpen    : Bool := false
  held      : Bool := false
  bellErr   : Bool := false
  base      : BitVec 64 := 0
  tailAddr  : BitVec 64 := 0
  slots     : BitVec 32 := 0        -- SLOT_COUNT
  coalCount : BitVec 8 := 0
  coalUs    : BitVec 16 := 0
  tail      : BitVec 32 := 0
  head      : BitVec 32 := 0
  lastSeq   : BitVec 32 := 0
  written   : Bool := false         -- something has been written since READY
  nextSeq   : BitVec 32 := 0        -- the SEQ the next sealed parcel draws (R493)
  out       : List Parcel := []     -- sealed, not yet written
  gap       : Option (BitVec 32 × BitVec 32 × GapCause) := none  -- first and last missing SEQ, cause of the first
  unsig     : Nat := 0
  unsigAt   : Tick := 0
deriving DecidableEq, Repr

/-- The host link's registers and records. -/
structure HostLink where
  queues     : List Queue := List.replicate 16 {}
  streams    : List Stream := List.replicate 8 {}
  badBell    : BitVec 16 := 0        -- HOST_STATUS.BAD_DOORBELL
  badReg     : BitVec 16 := 0        -- HOST_STATUS.BAD_REG_ACCESS
  eventCause : BitVec 4 := 0
  latch      : List (Nat × BitVec 32) := []  -- holding copies by offset of the upper half (R641)
  pool       : List Parcel := []     -- sealed parcels waiting for a consumer inside the engine, oldest first
  flows      : List (BitVec 8 × BitVec 8 × BitVec 32) := []  -- next SEQ by producer and internal stream (R159)
  out        : List Out := []
deriving DecidableEq, Repr

/-! ### Faults -/

/-- One entry of FENCE_LOG (Table 19-13). -/
structure FenceEntry where
  unit  : BitVec 8
  cause : BitVec 8
  live  : BitVec 8
  epoch : BitVec 32
  tick  : BitVec 64
deriving DecidableEq, Repr

/-- The four phases of a crossing (R16), seen from the receiving island. -/
inductive CrossPhase where
  | idle | requested | acknowledged | released
deriving DecidableEq, Repr

/-- The bridge from one island into another (R16 to R22). -/
structure Bridge where
  phase : CrossPhase := .idle
  beat  : Option Beat := none         -- the data that the sender holds
  since : Tick := 0
  seq   : List Beat := []             -- beats taken of the parcel in transfer
  taken : Option Parcel := none       -- the newest parcel that crossed whole
deriving DecidableEq, Repr

/-- Faults, fences and restarts (chapter 16). -/
structure Flt where
  fox        : BitVec 8 := BitVec.allOnes 8        -- live lanes
  tiles      : BitVec 16 := BitVec.allOnes 16
  threads    : BitVec 32 := BitVec.allOnes 32
  pairA      : Bool := true
  pairB      : Bool := true
  control    : Pair := .a
  capOn      : Bool := false                       -- CAPACITY reads zero until BRINGUP ends
  step       : Fin 3 := 0                          -- k
  foxDone    : BitVec 8 := 0                       -- self-tests finished (R39)
  tilesDone  : BitVec 16 := 0
  threadsDone : BitVec 32 := 0
  sealFaults : BitVec 32 := 0
  traceDrop  : BitVec 32 := 0
  fenceLog   : List FenceEntry := []               -- newest last, 32 kept
  fenceCount : BitVec 32 := 0
  restarts   : List (BitVec 32) := List.replicate 11 0
  ticks      : List (List Tick) := List.replicate 11 []  -- restart ticks within the last 1 s
  asmTicks   : List Tick := []
  restarting : List Bool := List.replicate 11 false
  failed     : List Bool := List.replicate 11 false
  clockOn    : List Bool := List.replicate 11 false
  haltCause  : BitVec 4 := 0
  haltIsland : BitVec 4 := 0
  bridges    : List Bridge := List.replicate 121 {}  -- 11 × the sender's island + the receiver's
deriving DecidableEq, Repr

/-! ### Power -/

/-- How DRAM is powered (R601, R604). -/
inductive DramPower where
  | active | selfRefresh | deepSleep
deriving DecidableEq, Repr

/-- The burst envelope (R593, R594). -/
inductive Burst where
  | idle | active (since : Tick) | cooldown (until_ : Tick)
deriving DecidableEq, Repr

/-- What woke the engine (R602; the source codes of RESUMED). -/
inductive WakeSrc where
  | host | event | sync
deriving DecidableEq, Repr

/-- Power, heat and pause (chapter 17, R627 to R632). -/
structure Pwr where
  govPage    : Option Memory := none   -- the governor page that plans use: the active set's at the newest plan commit (R584)
  sustained  : BitVec 16 := 0          -- GOV_BUDGET
  burstMw    : BitVec 16 := 0
  budgetSet  : Bool := false           -- GOV_BUDGET was written since READY (R587)
  useSustained : BitVec 16 := 0        -- the budget of the newest plan (R587)
  useBurst   : BitVec 16 := 0
  skin       : BitVec 16 := 0          -- GOV_SKIN
  skinAt     : Option Tick := none
  sensor     : Option (BitVec 16) := none
  sensorFails : Nat := 0
  skinDue    : Tick := 0               -- when the next skin-sensor read is due (R585)
  sensorAt   : Tick := 0               -- stamp of the newest sensor value (R133)
  skinBusy   : Bool := false
  skinLost   : Bool := false
  thermal    : BitVec 16 := 0
  thermalSet : Bool := false           -- a thermal budget was ever computed (R589)
  throttled  : Bool := false
  planned    : BitVec 16 := 0
  skinUsed   : BitVec 16 := 0
  skinSource : BitVec 2 := 0
  burst      : Burst := .idle
  dieTemps   : List (Option (BitVec 16)) := List.replicate 8 none
  hottest    : BitVec 16 := 0          -- DIE_TEMP, at the latest boundary
  dieHot     : Bool := false
  tripped    : Bool := false
  pp         : PPoints := ⟨5, 5, 5, 5⟩   -- P-points in force
  volt       : PPoints := ⟨5, 5, 5, 5⟩   -- voltages in force (R27)
  pauseReq   : Option Tick := none
  pauseBit   : Bool := false           -- POWER_CTRL.PAUSE
  paused     : Bool := false
  shutdown   : Bool := false           -- POWER_CTRL.SHUTDOWN
  shutReady  : Bool := false
  wake       : Option (Tick × WakeSrc) := none
  preq       : PPoints := ⟨5, 5, 5, 5⟩   -- HB_PREQ
  pack       : PPoints := ⟨5, 5, 5, 5⟩
  vreq       : PPoints := ⟨5, 5, 5, 5⟩
  vack       : PPoints := ⟨5, 5, 5, 5⟩
  packSince  : List (Option Tick) := List.replicate 4 none
  pwrReq     : List Bool := List.replicate 11 false
  pwrAck     : List Bool := List.replicate 11 false
  iso        : List Bool := List.replicate 11 true
  pwrSince   : List Tick := List.replicate 11 0
  govStatus  : BitVec 128 := 5#128 <<< 96 ||| 5#128 <<< 104 ||| 5#128 <<< 112 ||| 5#128 <<< 120  -- GOV_STATUS, as of the latest boundary (R599)
  retDen     : Bool := false
  retAckDen  : Bool := false
  dram       : DramPower := .active    -- R601, R604
  standbyOff : Bool := false           -- the standby Ranger pair is gated (R601)
deriving DecidableEq, Repr

/-- An edge channel (R617 to R623). -/
structure EdgeCh where
  beats : List Beat := []
  inSeq : Bool := false               -- between FIRST and LAST
  proto : BitVec 16 := 0
  stall : BitVec 16 := 0
deriving DecidableEq, Repr

/-! ### Trails -/

/-- R519, in the coding of Table 19-12. -/
inductive LaneSt where
  | off | training | up | retraining | failed
deriving DecidableEq, Repr

/-- A trail lane. -/
structure Lane where
  st        : LaneSt := .off
  rate      : BitVec 3 := 0
  trainFail : BitVec 16 := 0
  since     : Tick := 0
  sentReq   : Bool := false            -- RETRAIN_REQ sent and not answered (R522)
  leads     : Bool := false            -- this end leads the retrain
deriving DecidableEq, Repr

/-- A flit held for replay (R528). -/
structure HeldFlit where
  seq   : BitVec 12
  at_   : Tick
  bytes : Bytes              -- its 256 bytes (Table 15-3)
deriving DecidableEq, Repr

/-- A parcel on its way over a bundle, with what its flits carry beside it (Table 15-3). -/
structure Sending where
  dest : BitVec 12
  src  : BitVec 12
  kind : BitVec 4 := 1       -- 1 PARCEL, 2 READ_REQ, 3 READ_RESP
  tag  : BitVec 32 := 0
  p    : Parcel
deriving DecidableEq, Repr

/-- A trail bundle (R523 to R530). -/
structure Bundle where
  width     : BitVec 5 := 0
  wantWidth : Option (BitVec 5) := none      -- WIDTH_REQ sent and not answered
  noReqTill : Tick := 0                      -- R525
  nbSerial  : BitVec 64 := 0
  nbChip    : BitVec 12 := 0
  nbValid   : Bool := false
  crcErr    : BitVec 32 := 0
  replays   : BitVec 32 := 0
  txSeq     : BitVec 12 := 0                 -- next FLIT_SEQ to send
  replay    : List HeldFlit := []            -- oldest first, at most 512
  rxSeq     : BitVec 12 := 0                 -- next FLIT_SEQ expected
  unacked   : Nat := 0                       -- flits received and not acknowledged
  ackAt     : Tick := 0
  nakSeq    : Option (BitVec 12) := none     -- the last NAK received names this FLIT_SEQ
  nakRun    : Nat := 0
  gapNak    : Bool := false                  -- a NAK was sent for the present gap
  rx        : List Bytes := []               -- beats of the parcel being received on channel 0
  rx1       : List Bytes := []               -- and on channel 1
  wait      : List Sending := []             -- parcels that wait for room in the replay buffer
deriving DecidableEq, Repr

/-- A chip that is or was a neighbour over a local bundle (R553). -/
structure Neighbour where
  serial  : BitVec 64
  chip    : Option (BitVec 12)
  heardAt : Tick             -- when a roll call last reported it
deriving DecidableEq, Repr

/-- A chip this one has heard of in its domain (R533 to R537, R553). -/
structure Peer where
  serial   : BitVec 64
  chip     : Option (BitVec 12)
  strap    : Bool
  wide     : Bool
  settled  : Bool
  bundle   : Nat                -- the bundle it was heard on
  hops     : Nat
  heardAt  : Tick
  nbs      : List (BitVec 12)   -- chip numbers its neighbour table gives (R551)
deriving DecidableEq, Repr

/-- A READ_REQ waiting for its answer (R550). -/
structure ReadWait where
  tag  : BitVec 32
  addr : BitVec 64
  at_  : Tick
  again : Bool
deriving DecidableEq, Repr

/-- The trails (chapter 15). -/
structure Trail where
  lanes      : List Lane := List.replicate 18 {}
  bundles    : List Bundle := List.replicate 16 {}
  chip       : BitVec 12 := 0
  assigned   : Bool := false
  master     : Bool := false
  rolling    : Bool := false             -- a roll call runs
  rollAt     : Tick := 0                 -- its trigger
  rollSent   : Option Tick := none       -- the newest ROLL_CALL sent (R533)
  changedAt  : Tick := 0                 -- newest change of candidate or neighbours (R534)
  settled    : Bool := false
  candSerial : BitVec 64 := 0
  candStrap  : Bool := false
  peers      : List Peer := []
  nbs        : List Neighbour := []      -- the neighbours not lost (R553)
  numbers    : List (BitVec 64 × BitVec 12) := []  -- numbers kept by serial (R536, R553)
  masterSerial : BitVec 64 := 0
  rollDone   : Bool := false             -- TRAIL_STATUS.ROLL_CALL_DONE
  failed     : Bool := false             -- TRAIL_STATUS.TRAILS_FAILED
  unreach    : BitVec 32 := 0            -- UNREACHABLE
  unreachSaid : List (BitVec 12) := []   -- destinations named this epoch (R542)
  reads      : List ReadWait := []
  inbox      : List Parcel := []         -- received parcels for this chip (R539)
  joined     : Option (BitVec 8 × BitVec 16) := none   -- slot and generation at the collector
  joinEpoch  : Nat := 0                  -- when to send JOIN again after NO_SLOT
  joinWait   : Bool := false
  joinSent   : Bool := false             -- a JOIN has no answer yet
  nextFrag   : BitVec 32 := 1
  unacked    : List Parcel := []         -- fragments sent and not acknowledged
  toSend     : List Parcel := []         -- fragments not yet sent
  ackEpoch   : Nat := 0
  sentTag    : BitVec 32 := 0            -- the JOB_TAG joined under (R547)
deriving DecidableEq, Repr

/-! ### The whole -/

/-- Everything the block holds but the command queue. -/
structure Block where
  thermos : Thermos := {}
  boot    : Boot := {}
  pins    : Pins := {}
  feat    : Feat := {}
  link    : Link := {}
  cfg     : Cfg := {}
  ep      : Ep := {}
  tim     : Tim := {}
  ports   : List Port := List.replicate 6 {}
  slots   : List Slot := List.replicate 6 {}
  ctls    : List (Option Nat) := List.replicate 4 none   -- the slot each controller is reading
  ifc     : Ifc := {}
  fox     : Fox := {}
  afu     : Afu := {}
  owl     : Owl := {}
  badger  : Badger := {}
  den     : Den := {}
  map     : Map := {}
  guests  : List Guest := List.replicate 64 {}
  host    : HostLink := {}
  flt     : Flt := {}
  pwr     : Pwr := {}
  edge    : List EdgeCh := List.replicate 53 {}
  trail   : Trail := {}
  fresh   : Nat := 0              -- draws free values (log entry 5); no register of the part
deriving DecidableEq, Repr

/-- The state of the machine: the block, and the commands waiting for it, first in first out. -/
structure State extends Block where
  pending : List Instr := []
deriving DecidableEq, Repr

/-- The machine right after reset: power has just been applied, THERMOS_POR (R34), nothing loaded, the command queue empty. -/
def State.reset : State := {}

end Sys2Proof.Machine
end

