-- ==== Sys2Proof/Machine/Ops.lean ====
section
/-! DEFINITION. The named operations that the meanings share: bytes and memories, CRCs and seals, streams, events, interrupts
and the journal. -/

namespace Sys2Proof.Machine

/-! ### Time -/

/-- The present tick (R111). -/
def Block.now (b : Block) : Tick := b.thermos.tb.toNat

/-- Microseconds in ticks (4 ns each). -/
def us (n : Nat) : Tick := 250 * n

/-- Milliseconds in ticks. -/
def ms (n : Nat) : Tick := 250000 * n

/-- Draws a free value (log entry 5). -/
def Block.freeNow (b : Block) : BitVec 64 := Config.freeValue b.fresh

/-- The block after a free value was drawn. -/
def Block.drew (b : Block) : Block := { b with fresh := b.fresh + 1 }

/-! ### Bytes -/

/-- The n low bytes of v, least significant first (R5). -/
def leBytes : Nat → Nat → Bytes
  | 0, _ => []
  | n + 1, v => BitVec.ofNat 8 v :: leBytes n (v / 256)

/-- The n low bytes of v, most significant first. -/
def beBytes (n v : Nat) : Bytes := (leBytes n v).reverse

/-- The number that bytes spell, least significant first. -/
def ofLe : Bytes → Nat
  | [] => 0
  | x :: xs => x.toNat + 256 * ofLe xs

/-- The number that bytes spell, most significant first. -/
def ofBe (bs : Bytes) : Nat := bs.foldl (fun a x => 256 * a + x.toNat) 0

/-- A stretch of a byte string. -/
def slice (bs : Bytes) (off n : Nat) : Bytes := (bs.drop off).take n

/-- The little-endian field of n bytes at an offset. -/
def field (bs : Bytes) (off n : Nat) : Nat := ofLe (slice bs off n)

/-- The signed value of a two's-complement field of w bits. -/
def signedOf (w v : Nat) : Int := (BitVec.ofNat w v).toInt

/-- A byte string filled with zeros up to a multiple of m. -/
def padTo (m : Nat) (bs : Bytes) : Bytes :=
  if bs.length % m = 0 then bs else bs ++ List.replicate (m - bs.length % m) 0

/-- A byte string cut or filled with zeros to n bytes. -/
def fit (n : Nat) (bs : Bytes) : Bytes := (bs ++ List.replicate n 0).take n

/-- A saturating increment (R644). -/
def bump {w : Nat} (c : BitVec w) : BitVec w := if c = BitVec.allOnes w then c else c + 1

/-- A saturating sum (R644). -/
def bumpBy {w : Nat} (c : BitVec w) (n : Nat) : BitVec w :=
  if c.toNat + n < 2 ^ w then c + BitVec.ofNat w n else BitVec.allOnes w

/-- The last n entries of a list. -/
def lastN {α : Type} (n : Nat) (l : List α) : List α := l.drop (l.length - n)

/-- How many bits are set. -/
def popcount {w : Nat} (x : BitVec w) : Nat := ((List.range w).filter x.getLsbD).length

/-- x with bit i cleared. -/
def clearBit {w : Nat} (x : BitVec w) (i : Nat) : BitVec w := x &&& ~~~(BitVec.ofNat w (2 ^ i))

/-- x with bit i set. -/
def setBit {w : Nat} (x : BitVec w) (i : Nat) : BitVec w := x ||| BitVec.ofNat w (2 ^ i)

/-! ### Memories (log entry 2) -/

/-- What a byte that nothing has written reads as (log entry 2). -/
def memBlank : Byte := 0

/-- The byte at an address. -/
def memRead (m : Memory) (a : Nat) : Byte :=
  match m with
  | [] => memBlank
  | (k, v) :: r => if k = a then v else memRead r a

/-- The canonical form: addresses strictly rising, every one above `lo`, no blank byte listed. -/
def memSorted (lo : Nat) (m : Memory) : Bool :=
  match m with
  | [] => true
  | (k, v) :: r => decide (lo ≤ k) && decide (v ≠ memBlank) && memSorted (k + 1) r

/-- The canonical form of a memory. -/
def Memory.wf (m : Memory) : Bool := memSorted 0 m

/-- One byte written; writing the blank byte removes the entry. -/
def memWrite (m : Memory) (a : Nat) (x : Byte) : Memory :=
  match m with
  | [] => if x = memBlank then [] else [(a, x)]
  | (k, v) :: r =>
    if k < a then (k, v) :: memWrite r a x
    else if k = a then (if x = memBlank then r else (a, x) :: r)
    else (if x = memBlank then (k, v) :: r else (a, x) :: (k, v) :: r)

/-- Bytes written from an address upward. -/
def memWriteBytes (m : Memory) (a : Nat) : Bytes → Memory
  | [] => m
  | x :: xs => memWriteBytes (memWrite m a x) (a + 1) xs

/-- n bytes read from an address upward. -/
def memBytes (m : Memory) (a n : Nat) : Bytes := (List.range n).map fun i => memRead m (a + i)

/-- A little-endian field of a memory. -/
def memField (m : Memory) (a n : Nat) : Nat := ofLe (memBytes m a n)

/-- The memory that holds a byte string from address 0. -/
def memOf (bs : Bytes) : Memory := memWriteBytes [] 0 bs

/-! ### CRCs (R162) -/

/-- One bit of the reflected CRC-32C. -/
def crc32cBit (c : BitVec 32) : BitVec 32 :=
  if c.getLsbD 0 then (c >>> 1) ^^^ 0x82F63B78 else c >>> 1

/-- One byte into the CRC-32C register. -/
def crc32cByte (c : BitVec 32) (x : Byte) : BitVec 32 :=
  Nat.repeat crc32cBit 8 (c ^^^ x.setWidth 32)

/-- CRC-32C of Table 05-3. -/
def crc32c (bs : Bytes) : BitVec 32 := ~~~(bs.foldl crc32cByte 0xFFFFFFFF)

/-- One bit of the CRC-16. -/
def crc16Bit (c : BitVec 16) : BitVec 16 :=
  if c.getLsbD 15 then (c <<< 1) ^^^ 0x1021 else c <<< 1

/-- One byte into the CRC-16 register. -/
def crc16Byte (c : BitVec 16) (x : Byte) : BitVec 16 :=
  Nat.repeat crc16Bit 8 (c ^^^ (x.setWidth 16 <<< 8))

/-- CRC-16 of Table 05-3. -/
def crc16 (bs : Bytes) : BitVec 16 := bs.foldl crc16Byte 0xFFFF

/-! ### Parcels and seals (R158 to R166) -/

end Sys2Proof.Machine

namespace Sys2Proof

open Machine

/-- The 16 header bytes (Table 05-1). -/
def Parcel.header (p : Parcel) : Bytes :=
  leBytes 2 p.type.toNat ++ leBytes 2 p.len.toNat ++ [p.stream, p.spare.setWidth 8] ++ leBytes 2 p.chip.toNat
    ++ leBytes 4 p.seq.toNat ++ p.producer :: leBytes 3 (p.spare.toNat / 256)

/-- The CRC of a parcel as it stands (R161). -/
def Parcel.crc (p : Parcel) : BitVec 32 := crc32c (p.header ++ p.payload.take p.len.toNat)

/-- Seal bits [31:0]. -/
def Parcel.sealCrc (p : Parcel) : BitVec 32 := p.sealWord.extractLsb' 0 32
/-- Seal bits [47:32]. -/
def Parcel.lineage (p : Parcel) : BitVec 16 := p.sealWord.extractLsb' 32 16
/-- Seal bits [55:48]. -/
def Parcel.sealer (p : Parcel) : BitVec 8 := p.sealWord.extractLsb' 48 8
/-- Seal bits [59:56]. -/
def Parcel.version (p : Parcel) : BitVec 4 := p.sealWord.extractLsb' 56 4
/-- Seal bits [63:56]. -/
def Parcel.sealFlags (p : Parcel) : BitVec 8 := p.sealWord.extractLsb' 56 8

/-- What names a parcel among another's inputs (R163, R191). -/
def Parcel.ref (p : Parcel) : InRef :=
  { chip := p.chip, producer := p.producer, stream := p.stream, seq := p.seq, crc := p.sealCrc, type := p.type, flags := p.sealFlags }

end Sys2Proof

namespace Sys2Proof.Machine

/-- Two parcels with one tuple are one parcel (R160). -/
def InRef.same (x y : InRef) : Bool :=
  x.chip == y.chip && x.producer == y.producer && x.stream == y.stream && x.seq == y.seq

/-- Inputs in consumption order, each once, at its first verification (R164). -/
def consumed (ins : List InRef) : List InRef :=
  ins.foldl (fun acc r => if acc.any (InRef.same r) then acc else acc ++ [r]) []

/-- The LINEAGE of a parcel built from inputs (R163). -/
def lineageOf (ins : List InRef) : BitVec 16 :=
  if ins.isEmpty then 0 else crc16 (ins.flatMap fun r => leBytes 4 r.crc.toNat)

/-- Whether an input carries SEALED_AT_BOUNDARY or BOUNDARY_LINEAGE (R166). -/
def InRef.fromBoundary (r : InRef) : Bool := r.flags.getLsbD 4 || r.flags.getLsbD 6

/-- The seal word of Table 05-2 for a CRC. -/
def sealBits (crc : BitVec 32) (lineage : BitVec 16) (sealer : BitVec 8) (boundary origin blineage : Bool) : BitVec 64 :=
  BitVec.ofNat 64 (crc.toNat + lineage.toNat * 2 ^ 32 + sealer.toNat * 2 ^ 48 + 2 ^ 56
    + boundary.toNat * 2 ^ 60 + origin.toNat * 2 ^ 61 + blineage.toNat * 2 ^ 62)

/-- A parcel sealed by one unit from its inputs (R161 to R168). -/
def sealParcel (chip : BitVec 16) (type : BitVec 16) (stream : BitVec 8) (seq : BitVec 32) (unit : BitVec 8)
    (payload : Bytes) (ins : List InRef) : Parcel :=
  let r := consumed ins
  let p : Parcel := { type := type, len := BitVec.ofNat 16 payload.length, stream := stream, chip := chip, seq := seq,
                      producer := unit, payload := payload, sealWord := 0 }
  { p with sealWord := sealBits p.crc (lineageOf r) unit false r.isEmpty (r.any InRef.fromBoundary) }

end Sys2Proof.Machine

namespace Sys2Proof

open Machine

/-- The stored image of R402. -/
def Parcel.stored (p : Parcel) : Bytes :=
  padTo 64 (padTo 32 (p.header ++ p.payload) ++ leBytes 8 p.sealWord.toNat)

end Sys2Proof

namespace Sys2Proof.Machine

/-- How many bytes a parcel of payload length L occupies (R402). -/
def storedSize (l : Nat) : Nat := 64 * ((32 * ((16 + l + 31) / 32) + 8 + 63) / 64)

/-- The parcel that a stored image spells. -/
def parcelOf (bs : Bytes) : Parcel :=
  let l := field bs 2 2
  { type := BitVec.ofNat 16 (field bs 0 2), len := BitVec.ofNat 16 l, stream := bs.getD 4 0,
    chip := BitVec.ofNat 16 (field bs 6 2), seq := BitVec.ofNat 32 (field bs 8 4), producer := bs.getD 12 0,
    payload := slice bs 16 l, sealWord := BitVec.ofNat 64 (field bs (32 * ((16 + l + 31) / 32)) 8),
    spare := BitVec.ofNat 32 (field bs 5 1 + 256 * field bs 13 3) }

/-- The integrity fault cause of Table 05-5, none when the seal passes; with several, the first in the table's order
(log entry 7). -/
def sealFault (p : Parcel) : Option (BitVec 8) :=
  if p.crc ≠ p.sealCrc then some 1
  else if p.version ≠ 1 then some 2
  else if 4096 < p.len.toNat || p.len.toNat ≠ p.payload.length then some 3
  else none

/-- The units of Table 05-4. -/
def unitExists (u : BitVec 8) : Bool :=
  let n := u.toNat
  n ≤ 3 || (0x08 ≤ n && n ≤ 0x11) || (0x18 ≤ n && n ≤ 0x1B) || (0x20 ≤ n && n ≤ 0x28) || (0x40 ≤ n && n ≤ 0x70) || n = 0x80

/-- The unit an integrity fault is attributed to (R182). -/
def blamedSealer (p : Parcel) : Option (BitVec 8) :=
  if p.sealer = p.producer && unitExists p.sealer then some p.sealer else none

/-! ### Settings pages -/

/-- The position of the page of a type and instance in a set (Table 03-2). -/
def pagePos (set : List Memory) (type inst : Nat) : Option Nat :=
  set.findIdx? fun p => memField p 0 2 == type && memField p 5 1 == inst

/-- The page of a type and instance; an absent page reads as zeros. -/
def pageAt (set : List Memory) (type inst : Nat) : Memory :=
  match pagePos set type inst with
  | some i => set.getD i []
  | none => []

/-- The engine-core page of a set (position 0). -/
def corePage (set : List Memory) : Memory := set.getD 0 []

/-- A field of the active set's page of a type and instance. -/
def Block.setting (b : Block) (type inst off n : Nat) : Nat := memField (pageAt b.cfg.active type inst) off n

/-- LINEAGE_TRACE of the active set (R190). -/
def Block.lineageTrace (b : Block) : Nat := memField (corePage b.cfg.active) 18 1

/-! ### Sensor-port page fields (Table 06-1) -/

/-- A field of port or slot k in the active set. -/
def Block.port (b : Block) (k off n : Nat) : Nat := b.setting 2 k off n

/-- A signed 32-bit field of port or slot k. -/
def Block.portS (b : Block) (k off : Nat) : Int := signedOf 32 (b.port k off 4)

/-- CAMERA_ID of a port. -/
def Block.camOf (b : Block) (k : Nat) : Byte := BitVec.ofNat 8 (b.port k 34 1)

/-! ### Units -/

/-- The unit ID of a Ranger pair (Table 05-4). -/
def pairUnit : Pair → BitVec 8
  | .a => 0x02
  | .b => 0x03

/-- The unit ID of the pair in control. -/
def Block.control (b : Block) : BitVec 8 := pairUnit b.flt.control

/-- The CHIP field of the parcels this chip seals (Table 05-1). -/
def Block.chip (b : Block) : BitVec 16 := b.trail.chip.setWidth 16

/-- An island's number (chapter 19). -/
def islandNo : Island → Nat
  | .thermos => 0 | .boot => 1 | .sensor => 2 | .ifc => 3 | .fox => 4 | .afu => 5
  | .owl => 6 | .badger => 7 | .den => 8 | .host => 9 | .trail => 10

/-! ### Interrupts (R508, R509, R648) -/

/-- Whether the engine may issue DMA and MSI-X messages (R468, R505). -/
def Link.live (l : Link) : Bool := l.up && l.bme

/-- Signals an MSI-X vector: a message, or its pending bit while it is masked (R509). -/
def Block.signal (v : Nat) (b : Block) : Block :=
  let on := b.link.live && b.link.msixOn
  let masked := (b.link.msix.getD v {}).mask
  { b with
    link := { b.link with pba := if on && masked then setBit b.link.pba v else b.link.pba }
    host := { b.host with out := if on && !masked then b.host.out ++ [.msix v] else b.host.out } }

/-- Sets a bit of EVENT_CAUSE; vector 0 is signalled when it goes from 0 to 1 (R648). -/
def Block.cause (i : Nat) (b : Block) : Block :=
  let b' := { b with host := { b.host with eventCause := setBit b.host.eventCause i } }
  if b.host.eventCause.getLsbD i then b' else b'.signal 0

/-- The boot phase changes: STATUS.STATE changes (Table 19-5). -/
def Block.enter (p : BootPhase) (b : Block) : Block :=
  Block.cause 0 { b with boot := { b.boot with phase := p, since := b.now } }

/-- HELLO_STATUS changes (Table 19-5). -/
def Block.hello (h : Hello) (b : Block) : Block :=
  if b.feat.state = h then b else Block.cause 1 { b with feat := { b.feat with state := h } }

/-- The block drives something outward. -/
def Block.drive (o : Out) (b : Block) : Block := { b with host := { b.host with out := b.host.out ++ [o] } }

/-! ### Streams (R489 to R496) -/

/-- Marks a SEQ as one that will never be written (R495). -/
def Stream.miss (q : BitVec 32) (c : GapCause) (s : Stream) : Stream :=
  match s.gap with
  | none => { s with gap := some (q, q, c) }
  | some (f, _, c0) => { s with gap := some (f, q, c0) }

/-- A stream's slot size in bytes (R489). -/
def slotSize (st : Nat) : Nat := if st < 2 then 320 else 4160

/-- Free slots of a ring (R491). -/
def Stream.free (s : Stream) : Nat := s.slots.toNat - (s.tail - s.head).toNat

/-- Takes a sealed parcel for a stream: its SEQ is spent, and the parcel waits for its slot, is missing with cause LINK while
the stream is held (R505), or is dropped while a stream 0 or 1 is closed (R496). -/
def Stream.take (p : Parcel) (s : Stream) : Stream :=
  let s1 := { s with nextSeq := s.nextSeq + 1 }
  if !s.isOpen then s1
  else if s.held then s1.miss p.seq .link
  else { s1 with out := s1.out ++ [p] }

/-- Whether a parcel sealed for a stream draws a SEQ (R493): streams 0 and 1 always, the others while open. -/
def Stream.numbers (st : Nat) (s : Stream) : Bool := decide (st < 2) || s.isOpen

/-- The 16 bytes of one trace entry (R191, R500). -/
def InRef.entry (r : InRef) : Bytes :=
  leBytes 2 r.chip.toNat ++ [r.producer, r.stream] ++ leBytes 4 r.seq.toNat ++ leBytes 4 r.crc.toNat
    ++ leBytes 2 r.type.toNat ++ [r.flags, 0]

/-- The payloads of the trace records of a parcel: at most 255 entries each (R191, R500). -/
def traceRecords (p : Parcel) (ins : List InRef) : List Bytes :=
  (List.range ((ins.length + 254) / 255)).map fun k =>
    leBytes 2 p.chip.toNat ++ [p.producer, p.stream] ++ leBytes 4 p.seq.toNat ++ leBytes 4 p.sealCrc.toNat
      ++ leBytes 2 ins.length ++ leBytes 2 (255 * k)
      ++ ((ins.drop (255 * k)).take 255).flatMap InRef.entry

/-- Whether stream 7 can carry one more record: two free slots remain for it behind the parcels that wait and the GAP parcel that is due,
if one is (R192, R495, log entry 8). -/
def Stream.carries (s : Stream) : Bool := s.isOpen && !s.held && decide (s.out.length + s.gap.isSome.toNat + 2 ≤ s.free)

/-- Puts one trace record on stream 7, or counts it as dropped (R192). -/
def traceOne (chip : BitVec 16) (unit : BitVec 8) (acc : Stream × Nat) (payload : Bytes) : Stream × Nat :=
  if acc.1.carries then (acc.1.take (sealParcel chip 0x0E03 7 acc.1.nextSeq unit payload []), acc.2)
  else (acc.1, acc.2 + 1)

/-- Whether a parcel is traced (R190). -/
def Block.traces (b : Block) (p : Parcel) (ins : List InRef) : Bool :=
  (b.host.streams.getD 7 {}).isOpen && !ins.isEmpty
    && (b.lineageTrace == 2 || (b.lineageTrace == 1 && p.type == 0x0420))

/-- Publishes a parcel's lineage on stream 7 (R190 to R192). -/
def Block.trace (p : Parcel) (ins : List InRef) (b : Block) : Block :=
  let recs := if b.traces p (consumed ins) then traceRecords p (consumed ins) else []
  let r := recs.foldl (traceOne b.chip b.control) (b.host.streams.getD 7 {}, 0)
  { b with
    host := { b.host with streams := b.host.streams.set 7 r.1 }
    flt := { b.flt with traceDrop := bumpBy b.flt.traceDrop r.2 } }

/-- Gives a sealed parcel to a host stream, when the stream numbers it (R493). -/
def Block.toStream (st : Nat) (p : Parcel) (b : Block) : Block :=
  { b with host := { b.host with streams := b.host.streams.modify st (Stream.take p) } }

/-- The parcel that a unit would seal for a host stream now. -/
def Block.streamParcel (st : Nat) (type : BitVec 16) (unit : BitVec 8) (payload : Bytes) (ins : List InRef) (b : Block) : Parcel :=
  sealParcel b.chip type (BitVec.ofNat 8 st) (b.host.streams.getD st {}).nextSeq unit payload ins

/-- A unit seals a parcel for a host stream (R168, R493). -/
def Block.emit (st : Nat) (type : BitVec 16) (unit : BitVec 8) (payload : Bytes) (ins : List InRef) (b : Block) : Block :=
  if (b.host.streams.getD st {}).numbers st then
    let p := b.streamParcel st type unit payload ins
    (b.toStream st p).trace p ins
  else b

/-- The head of Table 14-11 and the body, filled to a multiple of 8 (R497). -/
def Block.eventBytes (code : Nat) (source : BitVec 8) (body : Bytes) (b : Block) : Bytes :=
  let body := padTo 8 body
  leBytes 2 code ++ [source, 0] ++ leBytes 2 body.length ++ [0, 0] ++ leBytes 8 b.now ++ leBytes 8 b.ep.now.toNat
    ++ leBytes 4 b.thermos.tbEpoch.toNat ++ leBytes 4 b.cfg.gen.toNat ++ body

/-- Emits an event on stream 2, sealed by the pair in control (R497, R498). -/
def Block.event (code : Nat) (source : BitVec 8) (body : Bytes) (b : Block) : Block :=
  b.emit 2 0x0E01 b.control (b.eventBytes code source body) []

/-- Emits an event whose lineage names an input (R498). -/
def Block.eventFrom (code : Nat) (source unit : BitVec 8) (body : Bytes) (ins : List InRef) (b : Block) : Block :=
  b.emit 2 0x0E01 unit (b.eventBytes code source body) ins

/-- Emits a diagnostics record on stream 7 (R497, R498). -/
def Block.diag (code : Nat) (source : BitVec 8) (body : Bytes) (b : Block) : Block :=
  b.emit 7 0x0E02 b.control (b.eventBytes code source body) []

/-- No unit (Table 14-11). -/
def noUnit : BitVec 8 := 0xFF

/-! ### Internal flows (R159) -/

/-- The next SEQ of a producer on an internal stream. -/
def HostLink.flowSeq (h : HostLink) (unit stream : BitVec 8) : BitVec 32 :=
  match h.flows.find? fun f => f.1 == unit && f.2.1 == stream with
  | some f => f.2.2
  | none => 0

/-- Counts one parcel on a flow. -/
def HostLink.flowStep (h : HostLink) (unit stream : BitVec 8) : HostLink :=
  { h with flows := (unit, stream, h.flowSeq unit stream + 1) :: h.flows.filter fun f => !(f.1 == unit && f.2.1 == stream) }

/-- The parcel a unit would seal on an internal flow now. -/
def Block.flowParcel (stream type : Nat) (unit : BitVec 8) (payload : Bytes) (ins : List InRef) (b : Block) : Parcel :=
  sealParcel b.chip (BitVec.ofNat 16 type) (BitVec.ofNat 8 stream) (b.host.flowSeq unit (BitVec.ofNat 8 stream)) unit payload ins

/-- A unit seals a parcel on an internal flow, for a consumer inside the engine. -/
def Block.flow (stream type : Nat) (unit : BitVec 8) (payload : Bytes) (ins : List InRef) (b : Block) : Block :=
  let p := b.flowParcel stream type unit payload ins
  let h := b.host.flowStep unit (BitVec.ofNat 8 stream)
  Block.trace p ins { b with host := { h with pool := h.pool ++ [p] } }

/-- The oldest sealed parcel waiting on a flow of a type from a producer. -/
def Block.pooled (type : Nat) (unit : BitVec 8) (b : Block) : Option Parcel :=
  b.host.pool.find? fun p => p.type == BitVec.ofNat 16 type && p.producer == unit

/-- The pool without a consumed parcel (R175). -/
def Block.release (r : InRef) (b : Block) : Block :=
  { b with host := { b.host with pool := b.host.pool.filter fun p => !(InRef.same r p.ref) } }

/-! ### Commands of the queues -/

/-- A fetched command that has not completed. -/
def Block.cmd (r : CmdRef) (b : Block) : Option Cmd :=
  (b.host.queues.getD r.q {}).cmds.find? fun c => c.id == r.id && c.stage != .finished

/-- Changes the earliest uncompleted command a reference names. -/
def cmdModify (id : BitVec 32) (f : Cmd → Cmd) : List Cmd → List Cmd
  | [] => []
  | c :: cs => if c.id == id && c.stage != .finished then f c :: cs else c :: cmdModify id f cs

/-- Changes a fetched command. -/
def Block.withCmd (r : CmdRef) (f : Cmd → Cmd) (b : Block) : Block :=
  { b with host := { b.host with queues := b.host.queues.modify r.q fun q => { q with cmds := cmdModify r.id f q.cmds } } }

/-- Ends a command: its completion may now be written (R478). -/
def Block.finish (r : CmdRef) (status : Nat) (detail : Nat) (r0 r1 : Nat) (b : Block) : Block :=
  b.withCmd r fun c => { c with stage := .finished, status := BitVec.ofNat 16 status, detail := BitVec.ofNat 32 detail,
                                result0 := BitVec.ofNat 64 r0, result1 := BitVec.ofNat 64 r1, data := [] }

/-- An operand field of a command's entry (Table 14-6). -/
def Cmd.arg (c : Cmd) (off n : Nat) : Nat := (c.entry.extractLsb' (8 * off) (8 * n)).toNat

/-! ### Counters -/

/-- Counts in one of a port's counters, in the order of Table 19-12. A counter that stands at its greatest value does not change (R230,
R644). -/
def Block.portCount (k i : Nat) (b : Block) : Block :=
  { b with ports := b.ports.modify k fun p =>
    { p with counters := p.counters.modify i bump, changed := p.changed || p.counters.getD i 0 != BitVec.allOnes 32 } }

/-- Counts in one of an inertial slot's counters. -/
def Block.slotCount (k i : Nat) (b : Block) : Block :=
  { b with slots := b.slots.modify k fun p =>
    { p with counters := p.counters.modify i bump, changed := p.changed || p.counters.getD i 0 != BitVec.allOnes 32 } }

/-- The watchdogs of every bridge into an island run from now. -/
def Block.rearm (i : Nat) (b : Block) : Block :=
  { b with flt := { b.flt with bridges := b.flt.bridges.mapIdx fun n x => if n % 11 == i then { x with since := b.now } else x } }

/-- Counts a BAR0 write that was ignored (R640). -/
def Block.badReg (b : Block) : Block := { b with host := { b.host with badReg := bump b.host.badReg } }

/-! ### CAPACITY (Table 19-7) -/

/-- Live Ranger pairs. -/
def Flt.pairs (f : Flt) : Nat := f.pairA.toNat + f.pairB.toNat

/-- CAPACITY: zero until BRINGUP ends. -/
def Flt.capacity (f : Flt) : BitVec 32 :=
  if f.capOn then
    BitVec.ofNat 32 (popcount f.fox + popcount f.tiles * 2 ^ 8 + popcount f.threads * 2 ^ 16 + f.pairs * 2 ^ 24 + f.step.val * 2 ^ 28)
  else 0

/-- The step level that the live lanes and tiles give (R572). -/
def Flt.level (f : Flt) : Fin 3 :=
  if popcount f.fox < 3 || popcount f.tiles < 8 then 2
  else if popcount f.fox < 5 || popcount f.tiles < 12 then 1
  else 0

/-! ### Features (R69, R82) and epochs -/

/-- Whether the committed set holds a feature bit of Table 02-7. -/
def Block.committed (i : Nat) (b : Block) : Bool := b.feat.committed.getLsbD i

/-- The tick of the boundary that starts epoch n (R123). -/
def Ep.boundary (e : Ep) (n : Nat) : Tick := e.base + (n - e.n) * 250000000 / e.rate

/-- The tick of the next boundary. -/
def Ep.nextBoundary (e : Ep) : Tick := e.boundary (e.now.toNat + 1)

/-- The epoch in which a tick lies (R123). -/
def Ep.epochOf (e : Ep) (t : Tick) : Nat :=
  if e.base ≤ t then e.n + ((t - e.base + 1) * e.rate - 1) / 250000000 else e.n - 1

/-! ### Stored parcels in Den (R402, R416, R423, R569) -/

/-- The address of a hot slot. -/
def hotAddr (h : Nat) : Nat := 0x180000 + 320 * h
/-- The address of a keyframe's DRAM head. -/
def headAddr (k : Nat) : Nat := 0x100000000 + 320 * k
/-- The address of a MAP_POINTS parcel. -/
def pointsAddr (i : Nat) : Nat := 0x105000000 + 4096 * i
/-- The address of a PG_EDGES parcel. -/
def edgesAddr (i : Nat) : Nat := 0x126000000 + 4096 * i

/-- Where the current copy of a keyframe's head lies (R423). -/
def kfAddr (k : KfDir) : Nat :=
  match k.hot with
  | some h => hotAddr h
  | none => headAddr k.id

/-- The parcel stored at an address: absent where a granule reports an uncorrectable error (R569) or the seal fails. -/
def Block.storedAt (a : Nat) (b : Block) : Option Parcel :=
  let n := storedSize (memField b.den.mem (a + 2) 2)
  let p := parcelOf (memBytes b.den.mem a n)
  if b.den.ue.any (fun g => decide (a < 64 * g + 64) && decide (64 * g < a + n)) || (sealFault p).isSome then none else some p

/-- The payload of the object at an address; empty when it is absent. -/
def Block.object (b : Block) (a : Nat) : Bytes :=
  match b.storedAt a with
  | some p => p.payload
  | none => []

/-! ### The journal (R609 to R613) -/

/-- One entry of the brown-out log: TB, TB_EPOCH, kind, rails, outcome and a CRC in the last four bytes (R609, log entry 9). -/
def brownEntry (t : Thermos) (kind rails outcome : Nat) : Bytes :=
  let body := fit 60 (leBytes 8 t.tb.toNat ++ leBytes 4 t.tbEpoch.toNat ++ leBytes 1 kind ++ leBytes 1 rails ++ leBytes 1 outcome)
  body ++ leBytes 4 (crc32c body).toNat

/-- Adds an entry to the brown-out log, which keeps the 32 newest (R609). -/
def Thermos.brown (kind rails outcome : Nat) (t : Thermos) : Thermos :=
  { t with
    journal := memWriteBytes t.journal (0xF800 + 64 * (t.brownCount.toNat % 32)) (brownEntry t kind rails outcome)
    brownCount := t.brownCount + 1 }

/-- The base of a journal slot (Table 17-4). -/
def journalBase (slot : Nat) : Nat := 0x7C00 * slot

/-- The body of a journal slot. -/
def journalBody (j : Memory) (slot : Nat) : Bytes :=
  memBytes j (journalBase slot + 16) (min (memField j (journalBase slot + 8) 4) 0x7BF0)

/-- The two parcels of a journal slot's body: JOURNAL_STATE, and HALT when one exists (Table 17-5). -/
def journalParcels (j : Memory) (slot : Nat) : Parcel × Option Parcel :=
  let body := journalBody j slot
  let p := parcelOf body
  let rest := body.drop (storedSize p.len.toNat)
  (p, if rest.isEmpty then none else some (parcelOf rest))

/-- Whether a slot is valid (R612); `ue` marks the slots in which an uncorrectable error lies. -/
def journalValid (ue : BitVec 2) (j : Memory) (slot : Nat) : Bool :=
  let body := journalBody j slot
  !ue.getLsbD slot && memField j (journalBase slot) 4 == 0x4A524E4C
    && memField j (journalBase slot + 8) 4 ≤ 0x7BF0
    && memField j (journalBase slot + 12) 4 == (crc32c body).toNat
    && (sealFault (journalParcels j slot).1).isNone
    && (match (journalParcels j slot).2 with | none => true | some h => (sealFault h).isNone)

/-- The COMMIT_COUNT of a slot. -/
def journalCount (j : Memory) (slot : Nat) : BitVec 32 := BitVec.ofNat 32 (memField j (journalBase slot + 4) 4)

/-- The newest valid slot (R612). -/
def journalNewest (ue : BitVec 2) (j : Memory) : Option Nat :=
  match journalValid ue j 0, journalValid ue j 1 with
  | false, false => none
  | true, false => some 0
  | false, true => some 1
  | true, true => if (journalCount j 0 - journalCount j 1).toNat < 2 ^ 31 then some 0 else some 1

/-- The slot that a commit goes to: the one that does not hold the newest valid commit (R611). -/
def journalTarget (ue : BitVec 2) (j : Memory) : Nat := match journalNewest ue j with | some 0 => 1 | _ => 0

/-- A whole commit to that slot (R611). -/
def journalWrite (ue : BitVec 2) (j : Memory) (body : Bytes) : Memory :=
  let newest := journalNewest ue j
  let slot := journalTarget ue j
  let count := match newest with | some n => journalCount j n + 1 | none => 1
  let base := journalBase slot
  let j1 := memWriteBytes j base (leBytes 4 0)
  let j2 := memWriteBytes (memWriteBytes j1 (base + 16) body) (base + 8) (leBytes 4 body.length ++ leBytes 4 (crc32c body).toNat)
  memWriteBytes (memWriteBytes j2 (base + 4) (leBytes 4 count.toNat)) base (leBytes 4 0x4A524E4C)

/-- The fence log as its bytes, by index (Table 19-13). -/
def fenceBytes (e : FenceEntry) : Bytes :=
  [e.unit, e.cause, e.live, 0] ++ leBytes 4 e.epoch.toNat ++ leBytes 8 e.tick.toNat

/-- A memory-fault log entry as its bytes. -/
def memFaultBytes (e : MemFault) : Bytes :=
  leBytes 8 e.addr.toNat ++ leBytes 8 e.tick.toNat ++ [e.region, if e.dram then 1 else 0] ++ List.replicate 14 0

/-- The payload of JOURNAL_STATE (R610); its layout is the model's (log entry 9). -/
def Block.journalState (b : Block) : Bytes :=
  leBytes 8 b.ep.now.toNat ++ leBytes 8 b.now ++ leBytes 4 b.thermos.tbEpoch.toNat ++ leBytes 4 b.cfg.gen.toNat
    ++ leBytes 4 b.flt.capacity.toNat ++ leBytes 4 0
    ++ (b.host.streams.flatMap fun s => leBytes 4 (s.nextSeq - 1).toNat)
    ++ (match b.afu.mirror with | some p => fit 320 p.stored | none => List.replicate 320 0)
    ++ ((lastN 32 b.map.kfs).flatMap fun k => leBytes 4 k.id ++ fit 28 (slice (b.object (kfAddr k)) 32 28))

/-- The payload of the HALT parcel (R579); its layout is the model's (log entry 9). -/
def Block.haltRecord (b : Block) : Bytes :=
  leBytes 4 b.flt.haltCause.toNat ++ leBytes 4 b.flt.capacity.toNat ++ leBytes 8 b.ep.now.toNat
    ++ leBytes 4 ((b.host.streams.getD 0 {}).nextSeq - 1).toNat ++ leBytes 4 0
    ++ fit 512 (b.flt.fenceLog.flatMap fenceBytes) ++ fit 512 (b.den.faultLog.flatMap memFaultBytes)

/-- Commits the journal (R611), with a HALT parcel when one is given or one still waits for its readout (R581). -/
def Block.journal (halt : Option Bytes) (b : Block) : Block :=
  let s := b.flowParcel 0xFF 0x0A01 b.control b.journalState []
  let h1 := b.host.flowStep b.control 0xFF
  let ue := b.thermos.journalUe
  let kept := match journalNewest ue b.thermos.journal with
    | some n => (journalParcels b.thermos.journal n).2
    | none => none
  let hp := match halt with
    | some bs => some (sealParcel b.chip 0x0A02 0xFF (h1.flowSeq b.control 0xFF) b.control bs [])
    | none => if b.boot.haltDue then kept else none
  let h2 := if halt.isSome then h1.flowStep b.control 0xFF else h1
  let body := s.stored ++ (match hp with | some p => p.stored | none => [])
  { b with host := h2, thermos := { b.thermos with
      journal := journalWrite ue b.thermos.journal body, journalUe := clearBit ue (journalTarget ue b.thermos.journal) } }

end Sys2Proof.Machine
end

