-- ==== Sys2Proof/Machine/Clock.lean ====
section
/-! DEFINITION. The advance of the time base (R111, R112, R114), and how a meaning acts on the state. -/

namespace Sys2Proof.Machine

/-- TB after one advance of its source: one tick of the PLL (R111), or one crystal period of 7629 ticks and the carry of an 8-bit
accumulator that gains 101 (R112); it holds while the crystal is stopped (R114). -/
def Thermos.advance (t : Thermos) : Thermos :=
  match t.tbSource with
  | .pll => { t with tb := t.tb + 1 }
  | .crystal =>
    if t.xtalStopped then t
    else
      { t with
        tb := t.tb + (if t.tbFrac.toNat + 101 < 256 then 7629 else 7630)
        tbFrac := t.tbFrac + 101 }

/-- The event of the SYNC whose 250 ticks are over, when the stamps of a SYNC command and a SYNC edge can no longer be merged (R143,
R144). -/
def Block.syncEmit (b : Block) : Block :=
  match b.tim.syncPend with
  | none => b
  | some (t, src) =>
    Block.event 0x0005 noUnit (leBytes 8 t ++ [src]) { b with tim := { b.tim with syncPend := none } }

/-- Whether a SYNC's 250 ticks are over. -/
def Block.syncOver (b : Block) : Bool := match b.tim.syncPend with | some (t, _) => decide (t + 250 ≤ b.now) | none => false

/-- One advance of the time base. -/
def Block.tick (b : Block) : Block :=
  let b1 := { b with thermos := b.thermos.advance }
  if b1.syncOver then b1.syncEmit else b1

/-- What an idle step does: one advance of the time base, and the SYNC event that it makes due (log entry 10). -/
def tickStep (s : State) : State := { s with toBlock := s.toBlock.tick }

/-- A meaning's outcome: the block changes by an effect, the queue does not. -/
def State.act (s : State) (f : Block → Block) : Host.Outcome State Fault Refusal := .next { s with toBlock := f s.toBlock }

end Sys2Proof.Machine
end

