-- ==== Sys2Proof/Machine/Crypto.lean ====
section
/-! DEFINITION. SHA-256 and ECDSA over P-256 (R56), as FIPS 180-4 and FIPS 186-4 define them. -/

namespace Sys2Proof.Machine

/-! ### SHA-256: its constants are computed from the roots of the first primes, as the standard defines them -/

/-- Whether a number below 18² is prime. -/
def smallPrime (n : Nat) : Bool := decide (2 ≤ n) && (List.range 18).all fun d => d < 2 || n ≤ d || n % d != 0

/-- The first 64 primes. -/
def shaPrimes : List Nat := (List.range 312).filter smallPrime

/-- The greatest r whose k-th power is at most n, found from bit i − 1 downward on top of r. -/
def rootBelow (k n : Nat) : Nat → Nat → Nat
  | 0, r => r
  | i + 1, r => rootBelow k n i (if (r + 2 ^ i) ^ k ≤ n then r + 2 ^ i else r)

/-- The first 32 bits of the fractional part of the k-th root of p. -/
def rootBits (k p : Nat) : BitVec 32 := BitVec.ofNat 32 (rootBelow k (p * 2 ^ (32 * k)) 37 0)

/-- The exclusive or of a word's rotations to the right. -/
def rotations (x : BitVec 32) (ns : List Nat) : BitVec 32 := ns.foldl (fun acc n => acc ^^^ x.rotateRight n) 0

/-- The message schedule, newest word first, n words longer. -/
def shaSchedule : Nat → List (BitVec 32) → List (BitVec 32)
  | 0, ws => ws
  | n + 1, ws =>
    let back (i : Nat) : BitVec 32 := ws.getD (i - 1) 0
    shaSchedule n ((back 16 + back 7 + (rotations (back 15) [7, 18] ^^^ back 15 >>> 3)
      + (rotations (back 2) [17, 19] ^^^ back 2 >>> 10)) :: ws)

/-- One round on the eight working words; kw is the sum of the round's constant and its schedule word. -/
def shaRound (v : List (BitVec 32)) (kw : BitVec 32) : List (BitVec 32) :=
  let at_ (i : Nat) : BitVec 32 := v.getD i 0
  let chosen := (at_ 4 &&& at_ 5) ||| (~~~ (at_ 4) &&& at_ 6)
  let majority := (at_ 0 &&& at_ 1) ||| (at_ 2 &&& (at_ 0 ||| at_ 1))
  let t := at_ 7 + kw + chosen + rotations (at_ 4) [6, 11, 25]
  (t + majority + rotations (at_ 0) [2, 13, 22]) :: (v.take 7).modify 3 (· + t)

/-- One 64-byte block taken into the hash value. -/
def shaBlock (v : List (BitVec 32)) (block : Bytes) : List (BitVec 32) :=
  let first := (List.range 16).map fun i => BitVec.ofNat 32 (ofBe (slice block (60 - 4 * i) 4))
  let kws := List.zipWith (fun p w => rootBits 3 p + w) shaPrimes (shaSchedule 48 first).reverse
  List.zipWith (· + ·) v (kws.foldl shaRound v)

/-- SHA-256 of a byte string, 32 bytes. -/
def sha256 (bs : Bytes) : Bytes :=
  let zeros := (119 - bs.length % 64) % 64
  let m := bs ++ 0x80 :: List.replicate zeros 0 ++ beBytes 8 (8 * bs.length)
  let v := (List.range (m.length / 64)).foldl (fun v i => shaBlock v (slice m (64 * i) 64)) ((shaPrimes.take 8).map (rootBits 2))
  v.flatMap fun x => beBytes 4 x.toNat

/-! ### P-256 -/

/-- The field prime. -/
def p256P : Nat := 0xffffffff00000001000000000000000000000000ffffffffffffffffffffffff
/-- The group order. -/
def p256N : Nat := 0xffffffff00000000ffffffffffffffffbce6faada7179e84f3b9cac2fc632551
/-- The curve's b; its a is −3. -/
def p256B : Nat := 0x5ac635d8aa3a93e7b3ebbd55769886bc651d06b0cc53b0f63bce3c3e27d2604b
/-- The base point. -/
def p256G : Nat × Nat :=
  (0x6b17d1f2e12c4247f8bce6e563a440f277037d812deb33a0f4a13945d898c296,
   0x4fe342e2fe1a7f9b8ee7eb4a7c0f9e162bce33576b315ececbb6406837bf51f5)

/-- a ^ e mod m, by the low k bits of e. -/
def powMod : Nat → Nat → Nat → Nat → Nat
  | 0, _, _, m => 1 % m
  | k + 1, a, e, m =>
    let r := powMod k (a * a % m) (e / 2) m
    if e % 2 = 1 then a * r % m else r

/-- The inverse modulo a prime of 256 bits. -/
def invMod (a m : Nat) : Nat := powMod 256 (a % m) (m - 2) m

/-- A difference modulo the field prime. -/
def subP (x y : Nat) : Nat := (x + p256P - y % p256P) % p256P

/-- A sum of points; none is the point at infinity. -/
def ptAdd : Option (Nat × Nat) → Option (Nat × Nat) → Option (Nat × Nat)
  | none, q => q
  | p, none => p
  | some (x1, y1), some (x2, y2) =>
    if x1 = x2 && (y1 + y2) % p256P == 0 then none
    else
      let l := if x1 = x2 then (3 * x1 * x1 + (p256P - 3)) * invMod (2 * y1) p256P % p256P
               else subP y2 y1 * invMod (subP x2 x1) p256P % p256P
      let x3 := subP (subP (l * l % p256P) x1) x2
      some (x3, subP (l * subP x1 x3 % p256P) y1)

/-- A multiple of a point, by the low k bits of u. -/
def ptMul : Nat → Nat → Option (Nat × Nat) → Option (Nat × Nat)
  | 0, _, _ => none
  | k + 1, u, p =>
    let r := ptMul k (u / 2) (ptAdd p p)
    if u % 2 = 1 then ptAdd p r else r

/-- Whether a pair of coordinates is a point of the curve. -/
def onCurve (x y : Nat) : Bool :=
  decide (x < p256P) && decide (y < p256P) && y * y % p256P == (x * x * x + (p256P - 3) * x + p256B) % p256P

/-- Whether a signature (r, s) by the key (x, y) verifies over a message's SHA-256 digest. -/
def ecdsaOk (x y r s : Nat) (digest : Bytes) : Bool :=
  if onCurve x y && decide (1 ≤ r) && decide (r < p256N) && decide (1 ≤ s) && decide (s < p256N) then
    let w := invMod s p256N
    match ptAdd (ptMul 256 (ofBe digest * w % p256N) (some p256G)) (ptMul 256 (r * w % p256N) (some (x, y))) with
    | some (v, _) => v % p256N == r
    | none => false
  else false

end Sys2Proof.Machine
end

