-- ==== Sys2Proof/Machine/Flags.lean ====
section
/-! DEFINITION. The flags and status words: feature bits (Table 02-7), completion statuses (Table 14-7), the record flags,
and the status registers that fields of the state make up (chapter 19). -/

namespace Sys2Proof.Machine

/-! ### Feature bits (Table 02-7) -/

def featHostSeal := 0
def featStreamPred := 1
def featMapDelta := 2
def featGuests := 5
def featPriors := 7
def featOwlJobs := 8
def featBadgerJobs := 9
def featSettings := 10
def featWindow := 11
def featRate240 := 12
def featBurst := 13
def featSkin := 14
def featTrails := 15
def featMirror := 16
def featPerStream := 17
def featWake := 18

/-- The capabilities of every package: every bit of Table 02-7 (R69). -/
def capabilities : BitVec 128 := 0x7FFFF

/-- The baseline set of Table 02-7. -/
def baseline : BitVec 128 := 0x18002

/-- The R69 offer value. -/
def Block.offerValue (b : Block) : BitVec 128 := capabilities &&& b.boot.policy

/-- The feature a command opcode needs (Table 14-6); none for those always available. -/
def opFeature (op : Nat) : Option Nat :=
  match op with
  | 0x11 | 0x12 | 0x13 | 0x14 => some featSettings
  | 0x20 | 0x21 => some featOwlJobs
  | 0x30 => some featBadgerJobs
  | 0x40 => some featPriors
  | 0x50 | 0x51 | 0x52 => some featGuests
  | 0x60 | 0x61 => some featWindow
  | _ => none

/-- The feature that lets a stream open (R81, Table 02-7). -/
def streamFeature (st : Nat) : Option Nat :=
  match st with
  | 1 => some 1 | 3 => some 2 | 4 => some 3 | 5 => some 4 | 6 => some 5 | 7 => some 6
  | _ => none

/-! ### Completion statuses (Table 14-7) -/

def stOk := 0x00
def stAborted := 0x01
def stNothing := 0x02
def stOpcode := 0x03
def stField := 0x04
def stFeature := 0x05
def stSeal := 0x06
def stData := 0x07
def stStream := 0x08
def stRing := 0x09
def stHalted := 0x0F
def stCheckReq := 0x10
def stStale := 0x11
def stBusy := 0x12
def stPending := 0x13
def stCheckFail := 0x14
def stSlotRun := 0x20
def stSlotOff := 0x21
def stMismatch := 0x22
def stMiss := 0x30
def stCap := 0x31
def stRange := 0x32
def stProblem := 0x33
def stNoSlot := 0x40
def stIdUsed := 0x41
def stHome := 0x42
def stUnavail := 0x43
def stGuestStale := 0x44
def stOrder := 0x45
def stUnknownKf := 0x46
def stQuota := 0x47
def stWindow := 0x50

/-! ### Status words -/

/-- STATUS.STATE (Table 02-1); THERMOS_POR has no code and reads as MAIN_POR's reset value. -/
def phaseCode : BootPhase → Nat
  | .thermosPor => 0x1 | .mainPor => 0x1 | .romProbe => 0x2 | .slotVerify => 0x3 | .settingsLoad => 0x4
  | .bringup => 0x5 | .ready => 0x6 | .haltedNoboot => 0x8 | .faultHalt => 0x9

/-- HELLO_STATUS.STATE (Table 19-4). -/
def helloCode : Hello → Nat
  | .notReady => 0 | .waiting => 1 | .committed => 2 | .refused => 3 | .baseline => 4

/-- SETTINGS_STATUS.SHADOW_STATE (Table 19-6). -/
def shadowCode : Shadow → Nat
  | .clean => 0 | .dirty => 1 | .checking => 2 | .pass => 3 | .fail => 4 | .armed => 5 | .stale => 6

/-- Guest slot states in Table 13-1 order. -/
def guestCode : GuestSt → Nat
  | .free => 0 | .arriving => 1 | .aligning => 2 | .merged => 3 | .evicting => 4 | .cooling => 5

/-- Trail lane states (Table 19-12). -/
def laneCode : LaneSt → Nat
  | .off => 0 | .training => 1 | .up => 2 | .retraining => 3 | .failed => 4

/-- Packages (REVISION.PACKAGE). -/
def packageCode : Package → Nat
  | .h => 1 | .w => 2 | .c => 3

/-- STATUS (Table 19-5). -/
def Block.statusWord (b : Block) : Nat :=
  phaseCode b.boot.phase + 16 * b.pwr.paused.toNat + 32 * b.pwr.shutReady.toNat + 64 * b.boot.custKeyBlank.toNat
    + 128 * (match b.flt.control with | .a => 0 | .b => 1)

/-- BOOT_STATUS (Table 19-5). -/
def Block.bootStatusWord (b : Block) : Nat :=
  b.boot.causeA.toNat + 2 ^ 8 * b.boot.causeB.toNat + 2 ^ 16 * (match b.boot.bootedSlot with | .a => 0 | .b => 1)
    + 2 ^ 17 * b.boot.booted.toNat

/-- Whether HELLO_STATUS is COMMITTED or BASELINE_TIMEOUT (R471). -/
def Feat.done (f : Feat) : Bool := f.state == .committed || f.state == .baseline

/-- Whether a part of the active set that needs a feature runs (R80): unless a commit that left the feature out has taken effect at a boundary
and no later commit has included it. -/
def Block.licensed (i : Nat) (b : Block) : Bool := b.feat.inForce.getLsbD i || b.feat.committed.getLsbD i

/-- Whether the engine accepts guest parcels (R80, R82): from the first commit on while GUESTS is committed, and before it as SETTINGS_LOAD
checked the active set. -/
def Block.guestsOn (b : Block) : Bool := !b.feat.everCommit || b.feat.committed.getLsbD featGuests

/-- Whether the boot phase is READY. -/
def Block.ready (b : Block) : Bool := b.boot.phase == .ready

end Sys2Proof.Machine
end

