-- ==== Sys2Proof/Machine/Operands.lean ====
section
/-! DEFINITION. Number formats and their rounding (R8 to R14), and the operand forms of the queue commands. -/

namespace Sys2Proof.Machine

/-! ### Order -/

/-- Puts a value before the first that it may precede. -/
def insertBy {α : Type} (le : α → α → Bool) (x : α) : List α → List α
  | [] => [x]
  | y :: ys => if le x y then x :: y :: ys else y :: insertBy le x ys

/-- A list in order; values that tie keep theirs. -/
def sortBy {α : Type} (le : α → α → Bool) : List α → List α
  | [] => []
  | x :: xs => insertBy le x (sortBy le xs)

/-! ### Rounding and saturation (R12, R13) -/

/-- n / d rounded to nearest, ties to even (R12). -/
def rneNat (n d : Nat) : Nat :=
  let q := n / d
  let r := n % d
  if 2 * r < d then q else if 2 * r = d then q + q % 2 else q + 1

/-- n / d rounded to nearest, ties to even. -/
def rneDiv (n : Int) (d : Nat) : Int :=
  if 0 ≤ n then (rneNat n.toNat d : Int) else -(rneNat (-n).toNat d : Int)

/-- The nearest value of a two's-complement format of w bits (R13). -/
def saturate (w : Nat) (v : Int) : Int := max (-(2 ^ (w - 1) : Int)) (min v (2 ^ (w - 1) - 1 : Int))

/-- The nearest value of an unsigned format of w bits. -/
def saturateU (w : Nat) (v : Int) : Int := max 0 (min v (2 ^ w - 1 : Int))

/-- A value with f fraction bits brought to g fraction bits, rounded to nearest even (R9, R12). -/
def refrac (v : Int) (f g : Nat) : Int := if f ≤ g then v * 2 ^ (g - f) else rneDiv v (2 ^ (f - g))

/-- Requantises to a w-bit integer with g fraction bits (R12, R13). -/
def requant (w : Nat) (v : Int) (f g : Nat) : Int := saturate w (refrac v f g)

/-! ### Binary floating point: m fraction bits, least exponent −lo, w bits in all -/

/-- A float's value in units of its least exponent; infinities and NaN read as the value beyond the greatest finite one. -/
def floatNum (m w : Nat) (x : Nat) : Int :=
  let e := x / 2 ^ m % 2 ^ (w - 1 - m)
  let f := x % 2 ^ m
  let a : Nat := if e = 0 then f else (2 ^ m + f) * 2 ^ (e - 1)
  if x / 2 ^ (w - 1) % 2 = 1 then -(a : Int) else a

/-- The float nearest to n / d, ties to even, saturating at the greatest finite value (R12, R13). lo is minus the least exponent. -/
def floatOf (m w lo : Nat) (n : Int) (d : Nat) : Nat :=
  let a := n.natAbs
  let sign := if n < 0 then 2 ^ (w - 1) else 0
  if a = 0 then 0
  else
    -- units of 2^-lo
    let u := a * 2 ^ lo
    let k := Nat.log2 (u / d)          -- exponent of the value in those units
    let e := k - m                     -- units dropped
    let q := rneNat u (d * 2 ^ e)
    let bits := if q < 2 ^ m then q else (e + 1) * 2 ^ m + (q - 2 ^ m)
    let top := (2 ^ (w - 1 - m) - 1) * 2 ^ m
    sign + (if bits < top then bits else top - 1)

/-- An FP32 value in units of 2^-149. -/
def fp32Num (x : BitVec 32) : Int := floatNum 23 32 x.toNat
/-- Whether an FP32 is finite. -/
def fp32Finite (x : BitVec 32) : Bool := x.extractLsb' 23 8 != 0xFF
/-- Whether an FP32 is a NaN. -/
def fp32Nan (x : BitVec 32) : Bool := x.extractLsb' 23 8 == 0xFF && x.extractLsb' 0 23 != 0
/-- The FP32 nearest to n / d. -/
def fp32Of (n : Int) (d : Nat) : BitVec 32 := BitVec.ofNat 32 (floatOf 23 32 149 n d)
/-- An FP16 value in units of 2^-24. -/
def fp16Num (x : Nat) : Int := floatNum 10 16 x
/-- The FP16 nearest to n / d. -/
def fp16Of (n : Int) (d : Nat) : Nat := floatOf 10 16 24 n d
/-- Whether an FP16 is finite. -/
def fp16Finite (x : Nat) : Bool := x / 1024 % 32 != 31

/-- 1 in the units of `fp32Num`. -/
def fp32One : Int := 2 ^ 149

/-- FP32 sum, correctly rounded. -/
def fp32Add (x y : BitVec 32) : BitVec 32 := fp32Of (fp32Num x + fp32Num y) (2 ^ 149)
/-- FP32 difference. -/
def fp32Sub (x y : BitVec 32) : BitVec 32 := fp32Of (fp32Num x - fp32Num y) (2 ^ 149)
/-- FP32 product. -/
def fp32Mul (x y : BitVec 32) : BitVec 32 := fp32Of (fp32Num x * fp32Num y) (2 ^ 298)
/-- FP32 quotient, with a zero divisor's value free (log entry 5). -/
def fp32Div (x y : BitVec 32) : BitVec 32 :=
  if fp32Num y = 0 then (Config.freeValue (x.toNat + 2 ^ 32)).setWidth 32
  else fp32Of (if fp32Num y < 0 then -(fp32Num x) else fp32Num x) (fp32Num y).natAbs
/-- The integer square root, from bit i downward. -/
def isqrtGo : Nat → Nat → Nat → Nat
  | 0, n, r => if (r + 1) * (r + 1) ≤ n then r + 1 else r
  | i + 1, n, r => isqrtGo i n (if (r + 2 ^ (i + 1)) * (r + 2 ^ (i + 1)) ≤ n then r + 2 ^ (i + 1) else r)

/-- The greatest integer whose square is at most n. -/
def isqrt (n : Nat) : Nat := isqrtGo (Nat.log2 n / 2) n 0

/-- The FP32 nearest to the square root of n / d: 200 bits below the point and a sticky bit decide the rounding. -/
def fp32Sqrt (n d : Nat) : BitVec 32 :=
  let v := n * 2 ^ 400
  let r := isqrt (v / max 1 d)
  fp32Of (2 * r + (if r * r * max 1 d = v then 0 else 1) : Nat) (2 ^ 201)

/-- Order of two FP32 values. -/
def fp32Lt (x y : BitVec 32) : Bool := fp32Num x < fp32Num y

/-- The format codes of Table 00-3. -/
inductive Format where
  | u8 | s16 | s32 | s64 | fp16 | bf16 | fp32 | bfx16
deriving DecidableEq, Repr

/-- Table 00-3. -/
def formatOf : Nat → Format
  | 0 => .u8 | 1 => .s16 | 2 => .s32 | 3 => .s64 | 4 => .fp16 | 5 => .bf16 | 6 => .fp32 | _ => .bfx16

/-- Bytes of one value (one block for BFX16). -/
def Format.size : Format → Nat
  | .u8 => 1 | .s16 => 2 | .s32 => 4 | .s64 => 8 | .fp16 => 2 | .bf16 => 2 | .fp32 => 4 | .bfx16 => 34

/-- The greatest fraction-bits field of an integer format (R10). -/
def Format.maxFrac : Format → Nat
  | .u8 => 8 | .s16 => 15 | .s32 => 31 | .s64 => 63 | _ => 0

/-- The elements of a BFX16 block in units of 2^-128 (R11). -/
def bfx16Num (block : Bytes) (k : Nat) : Int :=
  signedOf 16 (field block (2 * k) 2) * 2 ^ ((signedOf 8 (field block 32 1) + 128).toNat)

/-- A block of values, each n / 2^s, as BFX16 (R14): the smallest exponent at which the element of greatest magnitude fits S16 after
rounding; the others saturate where they do not fit (R13). -/
def bfx16Of (s : Nat) (vs : List Int) : Bytes :=
  let at_ (e : Int) (v : Int) : Int :=
    let sh := e + s
    if 0 ≤ sh then rneDiv v (2 ^ sh.toNat) else v * 2 ^ (-sh).toNat
  let top := (vs.map Int.natAbs).foldl max 0
  let fits (e : Int) : Bool := vs.all fun v => decide (v.natAbs < top) || (decide (-32768 ≤ at_ e v) && decide (at_ e v ≤ 32767))
  let e : Int := match (List.range 256).find? fun i => fits ((i : Int) - 128) with
    | some i => (i : Int) - 128
    | none => 127
  fit 32 (vs.flatMap fun v => leBytes 2 (BitVec.ofInt 16 (saturate 16 (at_ e v))).toNat) ++ [BitVec.ofInt 8 e, 0]

/-! ### Operand forms of the queue commands (Tables 14-4 and 14-6) -/

/-- The reserved bytes of a command's entry, by opcode: those Table 14-6 does not name for it. -/
def namedOperands (op cls : Nat) : List (Nat × Nat) :=
  match op with
  | 0x02 => [(24, 1), (26, 1), (28, 4), (32, 8), (40, 8), (48, 2)]
  | 0x03 => [(24, 1)]
  | 0x04 => [(24, 1), (28, 4)]
  | 0x10 => [(24, 1), (25, 1), (26, 1)]
  | 0x11 => [(25, 1), (26, 1)]
  | 0x20 => [(24, 1)]
  | 0x21 => [(24, 1), (28, 4)]
  | 0x30 =>
    if cls = 1 then [(24, 1), (25, 1), (28, 4), (32, 4), (36, 4)]
    else if cls = 2 then [(24, 1), (25, 1), (28, 4), (40, 1), (42, 2)]
    else [(24, 1), (25, 1), (28, 4)]
  | 0x50 => [(32, 8)]
  | 0x51 => [(28, 4)]
  | 0x52 => [(24, 1), (26, 2)]
  | 0x60 => [(24, 1), (32, 8), (40, 8), (48, 8)]
  | 0x61 => [(24, 1)]
  | _ => []

/-- Whether the command reads or writes a data buffer. -/
def hasData (op cls : Nat) : Bool :=
  op == 0x10 || op == 0x11 || op == 0x20 || op == 0x21 || (op == 0x30 && cls == 3) || op == 0x40 || op == 0x51

/-- Whether every reserved byte of an entry is zero (R484). -/
def reservedZero (e : Bytes) (op cls : Nat) : Bool :=
  let named := [(0, 1), (4, 4)] ++ (if hasData op cls then [(8, 8), (16, 4)] else []) ++ namedOperands op cls
  (List.range 64).all fun i => named.any (fun f => decide (f.1 ≤ i) && decide (i < f.1 + f.2)) || e.getD i 0 == 0

end Sys2Proof.Machine
end

