-- ==== Sys2Proof/Machine/HostOps.lean ====
section
/-! DEFINITION. Shared operations of the host link (chapter 14): commands in the queues, aborts, link loss, sessions. -/

namespace Sys2Proof.Machine

/-! ### Commands -/

/-- Whether an opcode is executed as a settings command (Table 03-3; OWL_MODEL_LOAD by R326). -/
def isSettingsOp (op : Nat) : Bool := (0x10 ≤ op && op ≤ 0x14) || op == 0x20

/-- Whether an opcode is a guest command (Table 13-3). -/
def isGuestOp (op : Nat) : Bool := 0x50 ≤ op && op ≤ 0x52

/-- Every command of a kind that no row has started yet, as (doorbell tick, queue, CMD_ID). -/
def Block.waitingCmds (kind : Nat → Bool) (b : Block) : List (Tick × Nat × BitVec 32) :=
  (b.host.queues.zipIdx).flatMap fun (q, i) =>
    (q.cmds.filter fun c => c.stage == .fetched && kind c.op.toNat).map fun c => (c.order, i, c.id)

/-- The doorbells whose entries are not all fetched, each as (tick, queue): what they bring is not known before (R88). -/
def Block.openBells (b : Block) : List (Tick × Nat) :=
  (b.host.queues.zipIdx).flatMap fun (q, i) => if q.enabled && !q.held && !q.bellErr then q.bells.map fun t => (t.2, i) else []

/-- Whether a command is the first waiting one of its kind: by doorbell, then by queue (R88, R442). A doorbell that another queue rang before
and that is not fetched yet may bring one of its kind, so it is waited for (DEDUCED, log entry 81). -/
def Block.firstOfKind (kind : Nat → Bool) (r : CmdRef) (c : Cmd) (b : Block) : Bool :=
  (b.waitingCmds kind).all (fun w => decide (c.order < w.1) || (c.order == w.1 && decide (r.q.val ≤ w.2.1)))
    && b.openBells.all fun w => w.2 == r.q.val || decide (c.order < w.1) || (c.order == w.1 && decide (r.q.val < w.2))

/-- Whether a guest command is executing (R442). -/
def Block.guestBusy (b : Block) : Bool :=
  b.host.queues.any fun q => q.cmds.any fun c => isGuestOp c.op.toNat && (c.stage == .running || c.stage == .committed)

/-- Whether an opcode waits while the engine is paused (R601): OWL_SCORE, BADGER_JOB and the guest commands. -/
def waitsInPause (op : Nat) : Bool := op == 0x21 || op == 0x30 || isGuestOp op

/-- The command a row starts: fetched, not started, of the row's opcode, with every earlier command of its queue started (R477), and
in its turn among settings commands (R87, R88) or guest commands (R442), and not one that waits for a resume (R601). -/
def Block.starting (r : CmdRef) (op : Nat) (b : Block) : Option Cmd :=
  match (b.host.queues.getD r.q {}).cmds.find? fun c => c.stage == .fetched with
  | none => none
  | some c =>
    if c.id == r.id && c.op.toNat == op && b.ready && !(b.pwr.paused && waitsInPause op)
        && (!isSettingsOp op || (!b.cfg.busy && b.firstOfKind isSettingsOp r c))
        && (!isGuestOp op || (!b.guestBusy && b.firstOfKind isGuestOp r c))
    then some c else none

/-- The feature a command needs: that of its opcode, or of the stream it opens (Table 14-6). -/
def Cmd.feature (c : Cmd) : Option Nat := if c.op = 0x02 then streamFeature (c.arg 24 1) else opFeature c.op.toNat

/-- Whether an entry's reserved bytes are zero, its data buffer aligned where it has one, and its operands in range (R484). -/
def Cmd.fieldsOk (c : Cmd) (inRange : Cmd → Bool) : Bool :=
  reservedZero (leBytes 64 c.entry.toNat) c.op.toNat (c.arg 24 1)
    && (!hasData c.op.toNat (c.arg 24 1) || c.arg 8 8 % 64 == 0) && inRange c

/-- Starts a command that its row names, in its turn: ended by R484, or run. The field tests come before the feature test (log entry 17). -/
def Block.begin (r : CmdRef) (op : Nat) (inRange : Cmd → Bool) (run : Cmd → Block → Block) (b : Block) : Block :=
  match b.starting r op with
  | none => b
  | some c =>
    if !c.fieldsOk inRange then b.finish r stField 0 0 0
    else match c.feature with
    | some f => if b.committed f then run c b else b.finish r stFeature 0 0 0
    | none => run c b

/-- Moves a command to a stage. -/
def Block.stage (r : CmdRef) (st : Stage) (b : Block) : Block := b.withCmd r fun c => { c with stage := st }

/-- A settings command that reads data executes until it ends (R87). -/
def Block.settingsBusy (r : CmdRef) (b : Block) : Block := { b with cfg := { b.cfg with busy := true, busyBy := some r } }

/-- A settings command has executed and ends. -/
def Block.settingsEnd (r : CmdRef) (status detail r0 r1 : Nat) (b : Block) : Block :=
  Block.finish r status detail r0 r1 { b with cfg := { b.cfg with busy := false, busyBy := none } }

/-- Runs an effect of a command and notes the SEQs that it drew on the host streams, which its completion waits for (R480). -/
def Block.forCmd (r : CmdRef) (f : Block → Block) (b : Block) : Block :=
  let b' := f b
  let news := (b'.host.streams.zipIdx).flatMap fun (s, i) =>
    let s0 := b.host.streams.getD i {}
    if s.isOpen then (List.range (s.nextSeq - s0.nextSeq).toNat).map fun k => (i, s0.nextSeq + BitVec.ofNat 32 k) else []
  b'.withCmd r fun c => { c with outs := c.outs ++ news }

/-- Whether a SEQ has been written to its ring or named by a GAP (R480). -/
def HostLink.settled (h : HostLink) (st : Nat) (seq : BitVec 32) : Bool :=
  let s := h.streams.getD st {}
  !s.isOpen || (s.out.all fun p => p.seq != seq) &&
    (match s.gap with | none => true | some (f, l, _) => !decide ((seq - f).toNat ≤ (l - f).toNat))

/-- Whether a command is past its commit point (Table 14-6; for APPLY, R96). -/
def Block.pastCommit (r : CmdRef) (c : Cmd) (b : Block) : Bool :=
  c.stage == .committed || c.stage == .finished ||
    (match b.cfg.armed with
     | some a => a.owner == some r && decide (a.boundary ≤ b.now + 50000)
     | none => false)

/-- Takes back what an uncommitted command had begun: an armed APPLY returns the shadow set to PASS (R97), staged model parcels and
host jobs go (R327, R351, R389). -/
def Block.dropWork (r : CmdRef) (b : Block) : Block :=
  let mine : Bool := match b.cfg.armed with | some a => a.owner == some r | none => false
  { b with
    cfg := { b.cfg with
      armed := if mine then none else b.cfg.armed
      shadowState := if mine then .pass else b.cfg.shadowState
      busy := b.cfg.busy && !(b.cfg.busyBy == some r)
      busyBy := if b.cfg.busyBy == some r then none else b.cfg.busyBy }
    owl := { b.owl with
      staging := match b.owl.staging with | some g => if g.owner == r then none else some g | none => none
      jobs := b.owl.jobs.filter fun j => !(j.owner == some r) }
    badger := { b.badger with jobs := b.badger.jobs.filter fun j => !(j.owner == some r) } }

/-- Ends an uncommitted command as aborted (R486). -/
def Block.abortCmd (r : CmdRef) (b : Block) : Block := (b.dropWork r).finish r stAborted 0 0 0

/-- The engine's work for a command goes on without one to complete (R469, R507). -/
def Block.orphan (q : Fin 16) (b : Block) : Block :=
  let lose (o : Option CmdRef) : Option CmdRef := match o with | some r => if r.q = q then none else some r | none => none
  let reader : Bool := match b.cfg.busyBy with
    | some r => r.q = q && b.cfg.shadowState != .checking
    | none => false
  { b with
    cfg := { b.cfg with
      armed := b.cfg.armed.map fun a => { a with owner := lose a.owner }
      busy := b.cfg.busy && !reader
      busyBy := lose b.cfg.busyBy }
    owl := { b.owl with
      staging := match b.owl.staging with | some g => if g.owner.q = q then none else some g | none => none
      jobs := b.owl.jobs.map fun j => { j with owner := lose j.owner } }
    badger := { b.badger with jobs := b.badger.jobs.map fun j => { j with owner := lose j.owner } } }

/-- Ends every command of a queue without a completion: those short of their commit point as though aborted, the others run on
(R469, R507). -/
def Block.endQueue (q : Fin 16) (b : Block) : Block :=
  let cmds := (b.host.queues.getD q {}).cmds
  let b1 := cmds.foldl (fun b c => if b.pastCommit ⟨q, c.id⟩ c then b else b.dropWork ⟨q, c.id⟩) b
  let b2 := b1.orphan q
  { b2 with host := { b2.host with queues := b2.host.queues.modify q fun x => { x with cmds := [] } } }

/-- A queue as its disabling leaves it (R471, R473, R507). -/
def Queue.off (x : Queue) : Queue :=
  { x with enabled := false, bellErr := false, held := false, cmds := [], bells := [], unsig := 0 }

/-- Disables a queue (R507). -/
def Block.queueOff (q : Fin 16) (b : Block) : Block :=
  let b1 := b.endQueue q
  { b1 with host := { b1.host with queues := b1.host.queues.modify q Queue.off } }

/-- A stream closed without writing anything further (R469, R507): its SEQ counter goes on (R493). -/
def Stream.shut (s : Stream) : Stream :=
  { s with isOpen := false, held := false, out := [], gap := none, unsig := 0 }

/-! ### Islands that stand still -/

/-- Whether a thermal trip holds an island's clock (R597): requests into it wait, and no watchdog runs. -/
def Block.tripStops (i : Nat) (b : Block) : Bool := b.pwr.tripped && (i == 4 || i == 6 || i == 7)

/-- Whether the units of an island work: in READY, neither paused (R601), nor restarting (R566), nor stopped by a thermal trip (R597). -/
def Block.unitsRun (i : Nat) (b : Block) : Bool := b.ready && !b.pwr.paused && !(b.flt.restarting.getD i false) && !b.tripStops i

/-! ### Host-written parcels (R171, R172, R481, R483) -/

/-- A host-written parcel as the engine takes it: sealed by the host when HOST_SEAL is committed, otherwise by the host link after the
link's checks (R171, R172). -/
def Block.hostSealed (p : Parcel) (b : Block) : Parcel :=
  if b.committed featHostSeal then p
  else
    let q := { p with producer := 0x01 }
    { q with sealWord := sealBits q.crc 0 0x01 true true false }

/-- Its integrity fault -/
def Block.hostFault (p : Parcel) (b : Block) : Option (BitVec 8) := sealFault (b.hostSealed p)

/-- The stored size of a data buffer that holds parcels with these headers (R481). -/
def bufferSize (hs : List Parcel) : Nat := (hs.map fun h => storedSize h.len.toNat).sum

/-! ### Link loss and sessions -/

/-- A stream at link loss: held, and what it had not written is missing with cause LINK (R505). -/
def Stream.lose (s : Stream) : Stream :=
  if s.isOpen then
    { (s.out.foldl (fun s p => s.miss p.seq .link) s) with held := true, out := [] }
  else s

/-- The engine stops fetching and writing (R505, R468): every configured queue and stream is held. -/
def Block.hold (b : Block) : Block :=
  { b with host := { b.host with
    queues := b.host.queues.map fun q => { q with held := q.held || q.enabled }
    streams := b.host.streams.map Stream.lose } }

/-- The session ends and its timer is cancelled (R78). -/
def Block.sessionEnd (b : Block) : Block := { b with feat := { b.feat with timer := none } }

/-- Link-down (R78, R429, R505). -/
def Block.linkLost (b : Block) : Block :=
  let b1 := b.hold.sessionEnd
  { b1 with
    link := { b1.link with up := false, pm := .l0 }
    den := { b1.den with windows := List.replicate 8 none }
    tim := { b1.tim with busy := false, failCount := if b1.tim.busy then bump b1.tim.failCount else b1.tim.failCount } }

/-- The offer of a new session (R69, R79): limited to the previous session's committed set while a stream is open. -/
def Block.newOffer (b : Block) : BitVec 128 × Bool :=
  if b.host.streams.any Stream.isOpen then (b.feat.committed &&& b.offerValue, true) else (b.offerValue, false)

/-- A new session starts (R71, R78, R79, R646). -/
def Block.sessionStart (b : Block) : Block :=
  let o := b.newOffer
  let b1 := { b with map := { b.map with saidFull := 0 }, feat := { b.feat with
    accept := 0, late := false
    offer := if b.ready then o.1 else 0
    limited := o.2
    timer := if b.ready then some (b.now + ms 500) else none } }
  b1.hello (if b.ready then .waiting else .notReady)

/-- A Function Level Reset's effect on queues, streams and windows, and the session's end (R469). -/
def Block.flrEffect (b : Block) : Block :=
  let b1 := (List.finRange 16).foldl (fun b q => b.queueOff q) b
  Block.sessionEnd { b1 with
    host := { b1.host with
      streams := b1.host.streams.map Stream.shut }
    den := { b1.den with windows := List.replicate 8 none } }

/-! ### Streams and their vectors -/

/-- A stream's MSI-X vector (Table 14-8). -/
def Block.streamVector (st : Nat) (b : Block) : Nat := if b.committed featPerStream then 17 + st else 0

/-- Counts a slot written on a stream, and signals its vector when COAL_COUNT are unsignalled (R508). -/
def Block.streamSignal (st : Nat) (b : Block) : Block :=
  let s := b.host.streams.getD st {}
  let n := s.unsig + 1
  let now : Bool := decide (max 1 s.coalCount.toNat ≤ n) || s.coalUs == 0
  let b1 := { b with host := { b.host with streams := b.host.streams.modify st fun s =>
    { s with unsig := if now then 0 else n, unsigAt := if s.unsig = 0 then b.now else s.unsigAt } } }
  if now then b1.signal (b.streamVector st) else b1

/-- Counts a completion written, and signals the queue's vector (R508). -/
def Block.queueSignal (q : Nat) (b : Block) : Block :=
  let x := b.host.queues.getD q {}
  let n := x.unsig + 1
  let now : Bool := decide (max 1 x.coalCount.toNat ≤ n) || x.coalUs == 0
  let b1 := { b with host := { b.host with queues := b.host.queues.modify q fun x =>
    { x with unsig := if now then 0 else n, unsigAt := if x.unsig = 0 then b.now else x.unsigAt } } }
  if now then b1.signal (1 + q) else b1

/-- The 32 bytes of a completion (Table 14-5). -/
def completionBytes (q : Nat) (x : Queue) (c : Cmd) : Bytes :=
  leBytes 4 c.id.toNat ++ leBytes 2 x.sqHead ++ leBytes 1 q ++ leBytes 1 x.phase.toNat ++ leBytes 2 c.status.toNat
    ++ leBytes 2 0 ++ leBytes 4 c.detail.toNat ++ leBytes 8 c.result0.toNat ++ leBytes 8 c.result1.toNat

/-- Writes the completion of the command at the head of a queue (R475, R476, R478). -/
def Block.writeCompletion (q : Nat) (c : Cmd) (b : Block) : Block :=
  let x := b.host.queues.getD q {}
  let addr := BitVec.ofNat 64 (x.cqBase.toNat + 32 * x.cqTail)
  let wrap : Bool := x.cqTail + 1 == x.cqSize.toNat
  let x' := { x with cmds := x.cmds.tail, cqTail := if wrap then 0 else x.cqTail + 1, phase := if wrap then !x.phase else x.phase }
  Block.queueSignal q (Block.drive (.memWrite addr (completionBytes q x c))
    { b with host := { b.host with queues := b.host.queues.set q x' } })

/-- On entering FAULT_HALT: every fetched and uncompleted command completes FAULT_HALTED, in order, and the queues' vectors are
signalled (R504). A command that has ended keeps its own outcome (log entry 11). -/
def Block.haltCompletions (b : Block) : Block :=
  if b.link.live then
    (List.range 16).foldl (fun b q =>
      let x := b.host.queues.getD q {}
      if x.enabled && !x.held && !x.cmds.isEmpty then
        let b1 := x.cmds.foldl (fun b c =>
          b.writeCompletion q (if c.stage == .finished then c else { c with status := BitVec.ofNat 16 stHalted })) b
        b1.signal (1 + q)
      else b) b
  else b

end Sys2Proof.Machine
end

