-- ==== Sys2Proof/Machine/FoxOps.lean ====
section
/-! DEFINITION. Frames, bands and lanes of Fox (chapter 08): dealing bands, dropping a camera, redoing a fenced lane's bands. -/

namespace Sys2Proof.Machine

/-! ### The Fox page (Table 08-1) -/

/-- A Fox field of a set, with its default when the set has no Fox page (R269). -/
def foxIn (set : List Memory) (off n dflt : Nat) : Nat :=
  match pagePos set 7 0 with
  | some i => memField (set.getD i []) off n
  | none => dflt

/-- A Fox field of the active set. -/
def Block.foxF (b : Block) (off n dflt : Nat) : Nat := foxIn b.cfg.active off n dflt

/-- BAND_LINES. -/
def Block.bandLines (b : Block) : Nat := max 1 (b.foxF 16 2 128)
/-- MARGIN_LINES. -/
def Block.marginLines (b : Block) : Nat := b.foxF 18 1 24
/-- FOX_CUTOFF in ticks after the boundary. -/
def Block.foxCutoff (b : Block) : Nat := b.foxF 28 4 1250000

/-- The port of a set that claims a camera through CAMERA_ID (R270), enabled ones first. -/
def claimPort (set : List Memory) (cam : Nat) : Option Nat :=
  let has (k : Nat) : Bool := (pagePos set 2 k).isSome && memField (pageAt set 2 k) 34 1 == cam
  match (List.range 6).find? fun k => has k && memField (pageAt set 2 k) 16 1 == 1 with
  | some k => some k
  | none => (List.range 6).find? has

/-- ROLE of a camera in a set; by default 1 for the camera on REF_PORT (Table 08-1). -/
def foxRole (set : List Memory) (cam : Nat) : Nat :=
  foxIn set (32 + 16 * cam) 1
    (if claimPort set cam == some (memField (corePage set) 17 1) && (claimPort set cam).isSome then 1 else 0)

/-- MAX_FEATURES of a camera in a set. -/
def foxMax (set : List Memory) (cam : Nat) : Nat := foxIn set (32 + 16 * cam + 2) 2 1024

/-- BAYER of a camera in a set. -/
def foxBayer (set : List Memory) (cam : Nat) : Bool := foxIn set (32 + 16 * cam + 1) 1 0 == 1

/-- Changes a camera's Fox state. -/
def Block.onCam (cam : Nat) (f : FoxCam → FoxCam) (b : Block) : Block := { b with fox := { b.fox with cams := b.fox.cams.modify cam f } }

/-- A camera's Fox state. -/
def Block.foxCam (b : Block) (cam : Nat) : FoxCam := b.fox.cams.getD cam {}

/-- Changes the frame of a camera that a Frame Start stamp names. -/
def Block.onFoxFrame (cam : Nat) (fs : Tick) (f : FoxFrame → FoxFrame) (b : Block) : Block :=
  b.onCam cam fun c => { c with frames := c.frames.map fun x => if x.fs == fs then f x else x }

/-- Takes a frame's results away. -/
def Block.foxForget (cam : Nat) (fs : Tick) (b : Block) : Block :=
  b.onCam cam fun c => { c with frames := c.frames.filter fun x => x.fs != fs }

/-- A block as a frame's bands see it: under the set of its Frame Start (R101). -/
def Block.under (f : FoxFrame) (b : Block) : Block := { b with cfg := { b.cfg with active := f.set, gen := f.gen } }

/-- Whether every band of a frame is sealed (R292). -/
def FoxFrame.whole (f : FoxFrame) : Bool := f.bands.all Band.isSealed

/-- The records of a frame. -/
def FoxFrame.tracks (f : FoxFrame) : List Track := f.bands.flatMap Band.tracks

/-- The frame of a camera whose results belong to the epoch and of which the LAST parcel of every band is held (R271, R292). -/
def Block.foxReady (b : Block) (cam : Nat) : Option FoxFrame :=
  (b.foxCam cam).frames.find? fun f => f.whole && (match f.mid with | some m => m.2 == b.ep.now.toNat | none => false)

/-- Its records, in band order. -/
def Block.doneTracks (b : Block) (cam : Nat) : List Track := match b.foxReady cam with | some f => f.tracks | none => []

/-! ### Lane rate (Table 08-2) -/

/-- An island's clock at a P-point as a fraction of its maximum, in tenths (Table 17-2). -/
def ppTenths (p : Fin 6) : Nat := [10, 8, 6, 4, 2, 1].getD p.val 1

/-- Ticks a lane needs for pixels at a P-point: 200 Mpixel/s at P0 (Table 08-2), rounded up. -/
def laneTicks (p : Fin 6) (pixels : Nat) : Tick := (pixels * 125 + 10 * ppTenths p - 1) / (10 * ppTenths p)

/-- The lanes that the fallback rule gives a camera (R276). -/
def lanesFor (p : Fin 6) (width lineTime : Nat) (bayer : Bool) : Nat :=
  let den := max 1 lineTime * (20000000 * ppTenths p) * (if bayer then 4 else 1)
  min 4 ((width * 250000000 + den - 1) / den)

/-- Whether the camera of a port has a frame in epoch n, as a plan knows it: a triggered one when its trigger fires (R137), a stamped one in
every epoch (FRAME_DIV is then used by the capacity checks alone, R196). -/
def frameDue (set : List Memory) (k n : Nat) : Bool :=
  let f (off : Nat) : Nat := memField (pageAt set 2 k) off 1
  f 16 == 1 && (f 42 != 1 || n % max 1 (f 77) == f 78)

/-- The lane lists of the fallback rule for epoch n under a set: cameras with a frame in ascending CAMERA_ID, live lanes in ascending number
(R275, R276). -/
def fallbackLanes (set : List Memory) (n : Nat) (live : BitVec 8) (p : Fin 6) : List (List (Fin 8)) :=
  let lanes : List (Fin 8) := (List.finRange 8).filter fun l => live.getLsbD l.val
  ((List.range 6).foldl (fun (acc : List (List (Fin 8)) × List (Fin 8)) cam =>
    let n := match claimPort set cam with
      | some k =>
        if foxRole set cam = 0 || !frameDue set k n then 0
        else lanesFor p (memField (pageAt set 2 k) 24 2) (memField (pageAt set 2 k) 56 4) (foxBayer set cam)
      | none => 0
    (acc.1 ++ [acc.2.take n], acc.2.drop n)) ([], lanes)).1

/-! ### Frames -/

/-- The bands of a frame of a height, dealt round-robin to a lane list (R275). -/
def dealBands (height lines : Nat) (lanes : List (Fin 8)) : List Band :=
  (List.range ((height + lines - 1) / lines)).map fun i =>
    { index := i, ownLo := lines * i, ownHi := min height (lines * (i + 1)), lane := (lanes.getD (i % max 1 lanes.length) 0).val }

/-- The lines that a band reads: its own and the margins, clipped to the frame. -/
def Band.readLo (x : Band) (margin : Nat) : Nat := x.ownLo - margin
/-- One past the last line that a band reads. -/
def Band.readHi (x : Band) (margin height : Nat) : Nat := min height (x.ownHi + margin)

/-- When a frame's line is taken to have arrived, for projections (R294): LINE_TIME after its start. -/
def Block.lineArrival (k : Nat) (fs : Tick) (line : Nat) (b : Block) : Tick := fs + (line + 1) * b.port k 56 4

/-- The projected completion of a band on a lane free at a tick, not before an earliest tick (R294). -/
def Block.projectBand (k : Nat) (fs : Tick) (x : Band) (free earliest : Tick) (b : Block) : Tick :=
  let lo := x.readLo b.marginLines
  let hi := x.readHi b.marginLines (b.port k 26 2)
  max (max free earliest) (b.lineArrival k fs lo) + laneTicks b.pwr.pp.fox ((hi - lo) * b.port k 24 2)

/-- Counts a dealt band in its lane's projected free time. -/
def Block.bookBand (k : Nat) (fs : Tick) (x : Band) (b : Block) : Block :=
  { b with fox := { b.fox with freeAt := b.fox.freeAt.set x.lane (b.projectBand k fs x (b.fox.freeAt.getD x.lane 0) 0) } }

/-- The event that drops a camera (Table 14-12). -/
def Block.foxDropEvent (cam cause : Nat) (no : BitVec 16) (b : Block) : Block :=
  b.event 0x0020 noUnit ([BitVec.ofNat 8 cam, BitVec.ofNat 8 cause] ++ leBytes 2 no.toNat)

/-- Free slots of a frame (R281): those of no feature that is alive before it; every slot of a ROLE 2 camera. -/
def FoxFrame.free (cam : Nat) (f : FoxFrame) : List Nat :=
  (List.range (foxMax f.set cam)).filter fun i => foxRole f.set cam == 2 || f.base.feats.all fun x => x.slot != i

/-- A frame of a working camera opens (R271, R275, R276); with no lane in the plan the camera contributes nothing. -/
def Block.foxOpen (k : Nat) (f : Frame) (b : Block) : Block :=
  let cam := (b.camOf k).toNat
  if foxRole b.cfg.active cam = 0 || 6 ≤ cam then b
  else
    let lanes := b.ep.plan.lanes.getD cam []
    if lanes.isEmpty then
      Block.foxDropEvent cam 3 f.no
        { (b.onCam cam fun c => { c with dropped := true }) with ep := { b.ep with degraded := true } }
    else
      let bands := dealBands (b.port k 26 2) b.bandLines lanes
      let fr : FoxFrame := { no := f.no, port := k, fs := f.fs, gen := b.cfg.gen, set := b.cfg.active, base := (b.foxCam cam).base, bands := bands,
                             first := b.host.flowSeq (BitVec.ofNat 8 (0x08 + k)) (BitVec.ofNat 8 (0x80 + k)) }
      bands.foldl (fun b x => b.bookBand k f.fs x) (b.onCam cam fun c => { c with frames := c.frames ++ [fr] })

/-- Fox discards every result of a frame that is DROPPED or ABANDONED: slots and reference frame stay unchanged, and the camera contributes
nothing to the epoch (R273). -/
def Block.foxDiscard (cam : Nat) (fs : Tick) (b : Block) : Block :=
  (b.foxForget cam fs).onCam cam fun c => { c with dropped := true }

/-- A camera's contribution for the epoch is dropped (R295, R296): the event, and the POSE DEGRADED. -/
def Block.foxDrop (cam cause : Nat) (f : FoxFrame) (b : Block) : Block :=
  Block.foxDropEvent cam cause f.no { (b.foxDiscard cam f.fs) with ep := { b.ep with degraded := true } }

/-- The features that live on after a frame: tracked ones moved, new ones added (R272, R282, R284). -/
def nextFeatures (old : List Feature) (ts : List Track) (mid : Tick) : List Feature :=
  (ts.filter fun t => t.status == 0 || t.status == 1).map fun t =>
    let slot := (t.id.extractLsb' 0 10).toNat
    match old.find? fun f => f.id == t.id with
    | some f => { f with x := t.x, y := t.y, px := f.x, py := f.y, t := mid, pt := some f.t, age := t.age, orient := t.orient, desc := t.desc }
    | none => { slot := slot, id := t.id, x := t.x, y := t.y, px := t.x, py := t.y, t := mid, pt := none, resp := t.resp, age := t.age,
                orient := t.orient, desc := t.desc }

/-- The predicted position of a slot, in 1/64 pixel (R284). -/
def Feature.predict (f : Feature) (mid : Tick) : Int × Int :=
  match f.pt with
  | some pt =>
    if f.t ≤ pt then (f.x.toInt, f.y.toInt)
    else
      let go (v p : BitVec 32) : Int := v.toInt + rneDiv ((v.toInt - p.toInt) * ((mid : Int) - f.t)) (f.t - pt)
      (go f.x f.px, go f.y f.py)
  | none => (f.x.toInt, f.y.toInt)

/-- The levels of a frame from its bands, in band order. -/
def joinLevels (bands : List Band) : List Image :=
  (List.range 4).map fun l => bands.flatMap fun x => x.levels.getD l []

/-- What the next frame of a ROLE 1 camera is tracked from once a frame's results were consumed (R272). -/
def FoxBase.after (c : FoxBase) (f : FoxFrame) (m : Tick × Nat) : FoxBase :=
  { feats := nextFeatures f.base.feats f.tracks m.1, img := joinLevels f.bands, refs := f.bands.flatMap Band.pyr, epoch := some m.2,
    toEnd := c.toEnd.filter fun s => !f.base.toEnd.contains s }

/-- The assembler has consumed a camera's results for the epoch (R272, R292): its slots and reference frame move to that frame. -/
def Block.foxConsume (cam : Nat) (b : Block) : Block :=
  match b.foxReady cam with
  | none => b
  | some f =>
    match f.mid with
    | none => b
    | some m =>
      (b.onFoxFrame cam f.fs fun x => { x with consumed := true }).onCam cam fun c =>
        if f.consumed then c
        else if foxRole f.set cam = 1 then { c with base := c.base.after f m } else { c with base := { c.base with feats := [], toEnd := [] } }

/-- A frame's FRAME parcel gives its t_mid, and with it the epoch its results belong to (R271). -/
def Block.foxFrameDone (cam : Nat) (fs mid : Tick) (b : Block) : Block :=
  b.onFoxFrame cam fs fun f => { f with
    mid := some (mid, b.ep.epochOf mid)
    last := some (b.host.flowSeq (BitVec.ofNat 8 (0x08 + f.port)) (BitVec.ofNat 8 (0x80 + f.port))) }

/-! ### Redoing a fenced lane's bands (R293 to R297) -/

/-- The lanes in the order of R294 for a camera whose bands are with `own`. A frame that has a band with a lane is one of this epoch: those of
past epochs are gone (`Block.freshEpoch`). -/
def Block.redoOrder (own : List Nat) (b : Block) : List Nat :=
  let live := (List.range 8).filter fun l => b.flt.fox.getLsbD l
  let busy (l : Nat) : Bool := b.fox.cams.any fun c => c.frames.any fun f => !f.consumed && f.bands.any fun x => x.lane == l
  (live.filter fun l => !busy l) ++ (live.filter fun l => busy l && own.contains l) ++ live.filter fun l => busy l && !own.contains l

/-- Places one unsealed band of a fenced lane on the first lane that can finish it by FOX_CUTOFF, or drops its camera (R294, R295). -/
def Block.redoBand (cam : Nat) (fs : Tick) (index : Nat) (b : Block) : Block :=
  match (b.foxCam cam).frames.find? fun f => f.fs == fs with
  | none => b
  | some f =>
    match f.bands.find? fun x => x.index == index with
    | none => b
    | some x =>
      let own := f.bands.map Band.lane
      match (b.redoOrder own).find? fun l =>
          b.projectBand f.port f.fs x (b.fox.freeAt.getD l 0) b.now ≤ b.ep.start + b.foxCutoff with
      | some l =>
        Block.bookBand f.port f.fs { x with lane := l }
          (b.onFoxFrame cam fs fun f => { f with bands := f.bands.map fun y =>
            if y.index == index then { y with lane := l, started := false } else y })
      | none => b.foxDrop cam 1 f

/-- Redoes every band that a fenced lane had started and not sealed, and every band queued for it (R293). -/
def Block.redoLane (lane : Nat) (b : Block) : Block :=
  (List.range 6).foldl (fun b cam =>
    (b.foxCam cam).frames.foldl (fun b f =>
      ((f.bands.filter fun x => x.lane == lane && !x.isSealed).map Band.index).foldl (fun b i => b.redoBand cam f.fs i) b) b) b

end Sys2Proof.Machine
end

