-- ==== Sys2Proof/Machine/Sensor.lean ====
section
/-! DEFINITION. The sensor ports (chapter 06), stamping at the source and triggered capture (chapter 04): shared operations, then
one meaning per command. -/

namespace Sys2Proof.Machine

/-! ### Sensor-port page fields (Table 06-1) -/

/-- Whether receiver k is running (R105): enabled in the active set, in READY, not paused, its island not restarting (Table 16-3). -/
def Block.csiOn (b : Block) (k : Nat) : Bool :=
  b.ready && !b.pwr.paused && !(b.flt.restarting.getD 2 false) && b.port k 16 1 == 1

/-- The fields of event unit u of channel c (Tables 07-1 and 07-5). -/
def Block.eventField (b : Block) (c u off n : Nat) : Nat :=
  b.setting 3 (c / 6) (64 + 128 * (c % 6) + 80 + 24 * u + off) n

/-- Whether a channel group has a channel with an event unit whose ACTION sets wake (R602), WAKE_ON_EVENT being in force (R80). -/
def Block.groupWakes (b : Block) (k : Nat) : Bool :=
  b.licensed featWake &&
    (List.range 6).any fun i => (List.range 2).any fun u =>
      b.eventField (6 * k + i) u 0 1 != 0 && b.eventField (6 * k + i) u 1 1 / 2 % 2 == 1

/-- The IFC channel of entry i of a slot's CHANNEL_MAP; 0xFF when unused. -/
def Block.mapChan (b : Block) (k i : Nat) : Nat := b.port k (121 + 2 * i) 1

/-- Whether inertial slot k is running: enabled, in READY, and while paused only when it feeds a group that may wake the engine
(R105, R602). -/
def Block.slotOn (b : Block) (k : Nat) : Bool :=
  b.ready && !(b.flt.restarting.getD 2 false) && b.port k 96 1 == 1 &&
    (!b.pwr.paused || (List.range (b.port k 111 1)).any fun i => b.mapChan k i < 24 && b.groupWakes (b.mapChan k i / 6))

/-- TRIG_TOLERANCE with its default (Table 06-1, R138). -/
def Block.trigTol (b : Block) (k : Nat) : Nat := b.port k 64 4

/-- The unit of sensor port k. -/
def portUnit (k : Nat) : BitVec 8 := BitVec.ofNat 8 (0x08 + k)

/-- The unit of the controller that reads slot k (Table 05-4). -/
def Block.ctlUnit (b : Block) (k : Nat) : BitVec 8 := BitVec.ofNat 8 (0x0E + b.port k 97 1)

/-! ### Pins -/

/-- Drives a TRIG pin. -/
def Block.trigDrive (pin : Nat) (level : Bool) (b : Block) : Block :=
  { b with pins := { b.pins with trigLevel := b.pins.trigLevel.set pin level, trigDriven := b.pins.trigDriven.set pin true } }

/-! ### Frames -/

/-- Bits per pixel of a data type (Table 06-2). -/
def bitsPerPixel : Nat → Nat
  | 0x2A => 8 | 0x2B => 10 | 0x2C => 12 | 0x2D => 14 | 0x2E => 16 | _ => 0

/-- Bytes of a line: WIDTH × bits per pixel / 8, rounded up (R202). -/
def lineBytes (width dt : Nat) : Nat := (width * bitsPerPixel dt + 7) / 8

/-- The pixel values of a CSI-2 payload, as MIPI CSI-2 packs them (log entry 12): the high bytes of a group of pixels first,
then their low bits, the first pixel's lowest; RAW16 high byte first. -/
def unpackPixel (dt : Nat) (bs : Bytes) (i : Nat) : Nat :=
  let at_ (k : Nat) : Nat := (bs.getD k 0).toNat
  match dt with
  | 0x2A => at_ i
  | 0x2B => 4 * at_ (5 * (i / 4) + i % 4) + at_ (5 * (i / 4) + 4) / 2 ^ (2 * (i % 4)) % 4
  | 0x2C => 16 * at_ (3 * (i / 2) + i % 2) + at_ (3 * (i / 2) + 2) / 2 ^ (4 * (i % 2)) % 16
  | 0x2D =>
    let g := 7 * (i / 4)
    64 * at_ (g + i % 4) + (at_ (g + 4) + 256 * at_ (g + 5) + 65536 * at_ (g + 6)) / 2 ^ (6 * (i % 4)) % 64
  | _ => 256 * at_ (2 * i) + at_ (2 * i + 1)

/-- The head of a LINE or EMBED payload (Table 06-5). -/
def lineHead (cam : Byte) (flags : Nat) (frame : BitVec 16) (line first : Nat) : Bytes :=
  [cam, BitVec.ofNat 8 flags] ++ leBytes 2 frame.toNat ++ leBytes 2 line ++ leBytes 2 first

/-- The LINE payloads of a good line, at most 2,044 pixels each, in order (R204). -/
def linePayloads (cam : Byte) (frame : BitVec 16) (line : Nat) (px : List Nat) : List Bytes :=
  (List.range ((px.length + 2043) / 2044)).map fun k =>
    lineHead cam (if k = 0 then 0 else 1) frame line (2044 * k) ++ ((px.drop (2044 * k)).take 2044).flatMap (leBytes 2)

/-- Emits LINE parcels of a port (R204, R205). -/
def Block.lines (k : Nat) (payloads : List Bytes) (b : Block) : Block :=
  payloads.foldl (fun b pl => b.flow (0x80 + k) 0x0101 (portUnit k) pl []) b

/-- Emits one missing line (R205). -/
def Block.missingLine (k : Nat) (frame : BitVec 16) (line : Nat) (b : Block) : Block :=
  b.lines k [lineHead (b.camOf k) 2 frame line 0]

/-- Changes the open frame of a port. -/
def Block.onFrame (k : Nat) (f : Frame → Frame) (b : Block) : Block :=
  { b with ports := b.ports.modify k fun p => { p with frame := p.frame.map f } }

/-- The source stamp that a code of STAMP_SRC selects (R127). -/
def stampSource (f : Frame) (fe : Tick) (code : Nat) : Int :=
  match code with
  | 0 => f.fs
  | 1 => fe
  | 2 => f.rise
  | _ => f.fall

/-- A field of the page that a frame runs under. -/
def Frame.f (f : Frame) (off n : Nat) : Nat := memField f.page off n

/-- t_start and t_stop (R127); a frame that matched no trigger takes Frame Start for both sources (R140). -/
def Frame.exposure (f : Frame) (fe : Tick) : Int × Int :=
  let src := f.f 41 1
  let s0 := if f.slipped then (f.fs : Int) else stampSource f fe (src % 4)
  let s1 := if f.slipped then (f.fs : Int) else stampSource f fe (src / 4 % 4)
  (s0 + signedOf 32 (f.f 44 4), s1 + signedOf 32 (f.f 48 4))

/-- EXPO_INVERTED, the exposure and t_mid of R128 and R129, with the row shift of R131. -/
def midExposure (t0 t1 : Int) (nominal : Nat) (shift : Nat) : Bool × Nat × Int :=
  let e := t1 - t0
  if e < 0 then (true, 0, t0 + rneNat nominal 2 + shift) else (false, e.toNat, t0 + rneNat e.toNat 2 + shift)

/-- The row shift of a rolling shutter (R131). -/
def Frame.rowShift (f : Frame) : Nat := if f.f 40 1 = 1 then f.f 26 2 / 2 * f.f 56 4 else 0

/-- EXPO_INVERTED, the exposure and t_mid of a frame with a Frame End stamp (R127 to R131, R140). -/
def Frame.mid (f : Frame) (fe : Tick) : Bool × Nat × Int :=
  midExposure (f.exposure fe).1 (f.exposure fe).2 (f.f 52 4) f.rowShift

/-- The FRAME payload (Table 06-6). -/
def framePayload (cam : Byte) (k : Nat) (f : Frame) (t0 t1 mid : Int) (e good miss flags : Nat) (fe : Tick) : Bytes :=
  [cam, BitVec.ofNat 8 k] ++ leBytes 2 f.no.toNat ++ leBytes 4 f.gen.toNat
    ++ leBytes 8 (BitVec.ofInt 64 t0).toNat ++ leBytes 8 (BitVec.ofInt 64 t1).toNat ++ leBytes 8 (BitVec.ofInt 64 mid).toNat
    ++ leBytes 4 (min e 0xFFFFFFFF) ++ leBytes 2 good ++ leBytes 2 miss ++ leBytes 4 flags ++ leBytes 4 0
    ++ leBytes 8 f.fs ++ leBytes 8 fe

/-- What the flags of a FRAME say. -/
def frameFlags (inverted matched slip abandoned dropped count : Bool) : Nat :=
  inverted.toNat + 2 * matched.toNat + 4 * slip.toNat + 8 * abandoned.toNat + 16 * dropped.toNat + 32 * count.toNat

/-- The reference camera's frame for an epoch fixes its t_c (R145): at once for the epoch in progress, at its boundary for one to come. A
frame for an epoch that is past, or whose t_c is fixed already (R146), changes nothing. -/
def Afu.takeMid (mid : Tick) (ep now : Nat) (a : Afu) : Afu :=
  if ep = now then (if a.tcDone then a else { a with tc := mid, tcDone := true })
  else if now < ep then { a with tcNext := some mid } else a

/-- A closed frame meets its epoch (R145): the first of its camera with t_mid there is that epoch's, a later one is FRAME_EXTRA and is not
consumed. A DROPPED frame is its camera's frame for the epoch, and fixes t_c, though nothing of it is consumed (DEDUCED, log entry 91). -/
def Block.useFrame (k : Nat) (fs mid : Tick) (dropped : Bool) (b : Block) : Block :=
  let ep := b.ep.epochOf mid
  let cam := (b.camOf k).toNat
  if (b.ports.getD k {}).usedFor = some ep then (b.portCount k 15).foxForget cam fs
  else
    let isRef : Bool := memField (corePage b.cfg.active) 17 1 == k
    let b1 := { b with
      ports := b.ports.modify k fun p => { p with usedFor := some ep, doneAt := some mid }
      afu := if isRef then b.afu.takeMid mid ep b.ep.now.toNat else b.afu }
    if dropped then (if ep = b.ep.now.toNat then b1.foxDiscard cam fs else b1.foxForget cam fs)
    else Block.foxFrameDone cam fs mid { b1 with ep := { b1.ep with cameras := setBit b1.ep.cameras cam } }

/-- Closes the open frame of a port with its FRAME parcel (R207 to R210). `fe` is the Frame End stamp, none when there is none; Frame Start then
stands for it (DEDUCED, log entry 102). -/
def Block.closeFrame (k : Nat) (fe : Option Tick) (b : Block) : Block :=
  match (b.ports.getD k {}).frame with
  | none => b
  | some f =>
    let height := f.f 26 2
    let abandoned := fe.isNone
    let absent := (List.range height).filter fun i => f.lines.all fun l => l.no != i
    let filled := if abandoned then [] else absent
    let good := (f.lines.filter fun l => l.good).length
    let miss := (f.lines.filter fun l => !l.good).length + filled.length
    let dropped : Bool := decide (f.f 29 1 < miss)
    let (t0, t1) := f.exposure (fe.getD f.fs)
    let (inv, e, mid) := f.mid (fe.getD f.fs)
    let count : Bool := f.tooMany
    let payload := framePayload (b.camOf k) k f t0 t1 mid e good miss
      (frameFlags inv f.matched f.slipped abandoned dropped count) (fe.getD 0)
    let b1 := filled.foldl (fun b i => b.missingLine k f.no i) b
    let b2 := if count then b1.portCount k 8 else b1
    let b3 := if dropped then b2.portCount k 9 else b2
    let b4 := if inv then (b3.portCount k 12).diag 0x0105 (portUnit k) payload else b3
    let b5 := b4.flow (0x80 + k) 0x0102 (portUnit k) payload []
    let b6 := { b5 with ports := b5.ports.modify k fun p => { p with frame := none } }
    let b7 := if dropped || abandoned then { b6 with ep := { b6.ep with degraded := true } } else b6
    if abandoned then b7.foxDiscard (b.camOf k).toNat f.fs else b7.useFrame k f.fs mid.toNat dropped

/-! ### Inertial slots -/

/-- The INERTIAL payload of a group (R224). -/
def Block.inertialPayload (k : Nat) (g : List InSample) (b : Block) : Bytes :=
  let ch := b.port k 111 1
  let rec1 (s : InSample) : Bytes :=
    padTo 8 (leBytes 8 s.stamp.toNat ++ [s.code, s.ovr, s.flags, 0] ++ s.vals.flatMap fun v => leBytes 4 v.toNat)
  [BitVec.ofNat 8 k, BitVec.ofNat 8 (b.port k 97 1), BitVec.ofNat 8 ch, BitVec.ofNat 8 g.length]
    ++ leBytes 2 ((12 + 4 * ch + 7) / 8 * 8) ++ [0, 0] ++ ((List.range 8).map fun i => BitVec.ofNat 8 (b.mapChan k i))
    ++ g.flatMap rec1

/-- Closes a slot's open group into an INERTIAL parcel (R170, R224). -/
def Block.closeGroup (k : Nat) (b : Block) : Block :=
  let g := (b.slots.getD k {}).group
  if g.isEmpty then b
  else
    let b1 := b.flow (0x90 + k) 0x0110 (b.ctlUnit k) (b.inertialPayload k g) []
    { b1 with slots := b1.slots.modify k fun s => { s with group := [] } }

/-- The I3C slots of a bus that a set enables, with their static addresses. -/
def i3cTargets (set : List Memory) (bus : Nat) : List Nat :=
  (List.range 6).filter fun k =>
    let p := pageAt set 2 k
    memField p 96 1 == 1 && memField p 97 1 == bus && decide (memField p 99 1 < 2)

/-- RSTDAA once on a bus, then SETDASA to each enabled slot's target and, in I3C mode, to the governor's sensor (R217, R586). -/
def Block.i3cAssign (bus : Nat) (b : Block) : Block :=
  let ts := i3cTargets b.cfg.active bus
  let gov := pageAt b.cfg.active 10 0
  let skin : List Nat :=
    if memField gov 16 1 = bus && memField gov 19 1 = 0 && (pagePos b.cfg.active 10 0).isSome then [memField gov 17 1] else []
  if ts.isEmpty && skin.isEmpty then b
  else
    let addrs := (ts.map fun k => b.port k 98 1) ++ skin
    let b1 := addrs.foldl (fun b a => b.drive (.setdasa bus (BitVec.ofNat 8 a))) (b.drive (.rstdaa bus))
    { b1 with slots := b1.slots.mapIdx fun k s => if ts.contains k then { s with addressed := true } else s }

/-- A channel's raw value: VALUE_BYTES at its burst offset, in RAW_ENDIAN order, shifted right arithmetically to RAW_BITS (R220). -/
def extractValue (burst : Bytes) (off n bits : Nat) (big : Bool) : Int :=
  let raw := slice burst off n
  let v := signedOf (8 * n) (if big then ofBe raw else ofLe raw)
  v / (2 ^ (8 * n - bits) : Nat)

/-- The range code of a burst (R221). -/
def Block.rangeCode (k : Nat) (burst : Bytes) (b : Block) : Nat :=
  if b.port k 115 1 = 0 then b.port k 116 1
  else (burst.getD (b.port k 117 1) 0).toNat / 2 ^ b.port k 118 1 % 2 ^ b.port k 119 1

/-- A value clipped to a code's saturation limits, and whether it reached one (R223). -/
def clipValue (hi lo v : Int) : Int × Bool := if hi ≤ v then (hi, true) else if v ≤ lo then (lo, true) else (v, false)

/-- The values of a sample, clipped, and its OVR mask (R220, R223). -/
def Block.sampleValues (k : Nat) (code : Nat) (burst : Bytes) (b : Block) : List (BitVec 32) × Nat :=
  let hi := b.portS k (152 + 12 * code + 4)
  let lo := b.portS k (152 + 12 * code + 8)
  let vs := (List.range (b.port k 111 1)).map fun c =>
    clipValue hi lo (extractValue burst (b.port k (120 + 2 * c) 1) (b.port k 112 1) (b.port k 113 1) (b.port k 114 1 == 1))
  (vs.map fun v => BitVec.ofInt 32 v.1, (vs.zipIdx.map fun (v, c) => if v.2 then 2 ^ c else 0).sum)

/-! ### Meanings: triggers and frames -/

/-- Whether pin's trigger fires in the present epoch for port k (R137). -/
def Block.trigFires (k pin : Nat) (b : Block) : Bool :=
  b.csiOn k && b.port k 42 1 == 1 && b.port k 43 1 == pin && b.ep.now.toNat % max 1 (b.port k 77 1) == b.port k 78 1

/-- A trigger edge at its tick (R137): the pulse starts at the boundary plus the lead, and ends TRIG_WIDTH later. -/
def Block.trigEdge (pin : Fin 8) (rise : Bool) (b : Block) : Block :=
  (List.range 6).foldl (fun b k =>
    let high : Bool := b.port k 76 1 == 0
    if rise then
      if b.trigFires k pin && b.now == b.ep.start + b.port k 68 4 then
        let b1 := b.trigDrive pin high
        { b1 with ports := b1.ports.modify k fun p => { p with trigs := p.trigs ++ [⟨b.now, b.now + b.port k 72 4, false⟩] } }
      else b
    else if b.csiOn k && b.port k 43 1 == pin && ((b.ports.getD k {}).trigs.any fun t => t.fall == b.now) then
      b.trigDrive pin !high
    else b) b

/-- The latency taken from the tick of a port's packet to give its stamp: the package's constant, zero at the boundary of an OTX-120C (R126,
R625). -/
def Block.deskew (k : Fin 6) (b : Block) : Nat := if b.boot.package == .c then 0 else Config.deskew k

/-- A header's ECC: counts, and whether the packet passes (R199). Before the first Frame Start nothing is counted (R211). -/
def Block.headerEcc (k : Nat) (e : Ecc) (b : Block) : Block × Bool :=
  let counts := (b.ports.getD k {}).synced
  match e with
  | .ok => (b, true)
  | .corrected => (if counts then b.portCount k 1 else b, true)
  | .bad => (if counts then b.portCount k 2 else b, false)

/-- Whether a port takes a virtual channel: PIX_VC, or EMB_VC with embedded data captured (R200). -/
def Block.vcMapped (k vc : Nat) (b : Block) : Bool :=
  vc == b.port k 32 1 || (b.port k 35 1 % 2 == 1 && vc == b.port k 36 1)

/-- The trigger that a Frame Start stamp matches: within TRIG_TOLERANCE of the rising edge plus FS_LATENCY (R138). -/
def Block.matchTrig (k : Nat) (fs : Tick) (b : Block) : Option Trig :=
  (b.ports.getD k {}).trigs.find? fun t =>
    !t.met && decide (fs ≤ t.rise + b.port k 60 4 + b.trigTol k) && decide (t.rise + b.port k 60 4 ≤ fs + b.trigTol k)

/-- The predicted Frame Start nearest to a stamp; a free value when no trigger predicts one (log entry 5). -/
def Block.nearestPrediction (k : Nat) (fs : Tick) (b : Block) : Nat :=
  match (b.ports.getD k {}).trigs.map fun t => t.rise + b.port k 60 4 with
  | [] => b.freeNow.toNat
  | p :: ps => ps.foldl (fun x y => if max y fs - min y fs < max x fs - min x fs then y else x) p

/-- Opens a frame at a Frame Start stamp (R126, R138 to R140). -/
def Block.openFrame (k : Nat) (no : BitVec 16) (fs : Tick) (b : Block) : Block :=
  let t := b.matchTrig k fs
  let slip : Bool := b.port k 42 1 == 1 && t.isNone
  let f : Frame := { no := no, fs := fs, gen := b.cfg.gen, page := pageAt b.cfg.active 2 k, matched := t.isSome, slipped := slip,
                     rise := (t.map Trig.rise).getD fs, fall := (t.map Trig.fall).getD fs }
  let near := b.nearestPrediction k fs
  let b1 := { b with ports := b.ports.modify k fun p =>
    { p with synced := true, frame := some f, trigs := p.trigs.map fun x => if some x = t then { x with met := true } else x } }
  Block.foxOpen k f <| if slip then
    Block.drew <| (b1.portCount k 13).event 0x0006 (portUnit k)
      ([BitVec.ofNat 8 k, b.camOf k] ++ leBytes 2 no.toNat ++ leBytes 4 0 ++ leBytes 8 fs ++ leBytes 8 near)
  else b1

/-- A Frame Start short packet (R126, R199, R200, R203, R209, R211). The first one on PIX_VC after the enable is used, and so its corrected
header is counted; what comes before it is not. -/
def Block.frameStart (port : Fin 6) (p : ShortPkt) (b : Block) : Block :=
  let synced := (b.ports.getD port {}).synced
  let first : Bool := p.ecc != .bad && b.vcMapped port p.vc.toNat && p.vc.toNat == b.port port 32 1
  if !b.csiOn port || (!synced && !first) then b
  else
    let (b1, pass) := Block.headerEcc port p.ecc { b with ports := b.ports.modify port fun x => { x with synced := true } }
    if !pass then b1
    else if !b1.vcMapped port p.vc.toNat then b1.portCount port 3
    else if p.vc.toNat != b1.port port 32 1 then b1
    else
      let fs := b1.now - b1.deskew port
      let b2 := if (b1.ports.getD port {}).frame.isSome then (b1.portCount port 10).closeFrame port none else b1
      b2.openFrame port p.data fs

/-- No Frame Start matched a trigger by the predicted time plus TRIG_TOLERANCE (R141). -/
def Block.trigNoFrame (port : Fin 6) (b : Block) : Block :=
  let late (t : Trig) : Bool := !t.met && decide (t.rise + b.port port 60 4 + b.trigTol port ≤ b.now)
  if b.csiOn port && (b.ports.getD port {}).trigs.any late then
    let b1 := { b with ports := b.ports.modify port fun p => { p with trigs := p.trigs.map fun t => if late t then { t with met := true } else t } }
    let b2 := b1.portCount port 14
    { b2 with ep := { b2.ep with degraded := true } }
  else b

/-- A Frame End short packet (R126, R207 to R210). -/
def Block.frameEnd (port : Fin 6) (p : ShortPkt) (b : Block) : Block :=
  if !b.csiOn port || !(b.ports.getD port {}).synced then b
  else
    let (b1, pass) := b.headerEcc port p.ecc
    if !pass then b1
    else if !b1.vcMapped port p.vc.toNat then b1.portCount port 3
    else if p.vc.toNat != b1.port port 32 1 then b1
    else if (b1.ports.getD port {}).frame.isNone then b1.portCount port 10
    else b1.closeFrame port (some (b1.now - b1.deskew port))

/-- A Line Start or Line End short packet (R201): a non-zero Line Start field numbers the next line. -/
def Block.lineStart (port : Fin 6) (isEnd : Bool) (p : ShortPkt) (b : Block) : Block :=
  if !b.csiOn port || !(b.ports.getD port {}).synced then b
  else
    let (b1, pass) := b.headerEcc port p.ecc
    if !pass then b1
    else if !b1.vcMapped port p.vc.toNat then b1.portCount port 3
    else if isEnd || p.data = 0 || p.vc.toNat != b1.port port 32 1 then b1
    else b1.onFrame port fun f => { f with next := p.data.toNat }

/-- A pixel line of the open frame: good, or missing (R202 to R207). -/
def Block.takeLine (k : Nat) (good : Bool) (payload : Bytes) (b : Block) : Block :=
  match (b.ports.getD k {}).frame with
  | none => b
  | some f =>
    let n := f.next
    if f.f 26 2 ≤ n then b.onFrame k fun f => { f with next := n + 1, tooMany := true }
    else
      let px := (List.range (b.port k 24 2)).map (unpackPixel (b.port k 33 1) payload)
      let b1 := if good then b.lines k (linePayloads (b.camOf k) f.no n px) else b.missingLine k f.no n
      b1.onFrame k fun f => { f with next := n + 1, lines := f.lines ++ [⟨n, good⟩] }

/-- A pixel packet's line (R202, R206). -/
def Block.pixelLine (k : Nat) (p : LongPkt) (b : Block) : Block :=
  let short := p.payload.length != lineBytes (b.port k 24 2) p.dt.toNat
  let b1 := if p.crcOk then b else b.portCount k 5
  let b2 := if short then b1.portCount k 6 else b1
  let b3 := if p.overflow then b2.portCount k 7 else b2
  b3.takeLine k (p.crcOk && !short && !p.overflow) p.payload

/-- Gives one EMBED parcel to stream 7. DEDUCED (log entry 83): its STREAM is the port's of Table 06-4, its SEQ that of the stream it is written
to (R493). -/
def Block.embed (k : Nat) (payload : Bytes) (b : Block) : Block :=
  if (b.host.streams.getD 7 {}).numbers 7 then
    let p := sealParcel b.chip 0x0103 (BitVec.ofNat 8 (0x88 + k)) (b.host.streams.getD 7 {}).nextSeq (portUnit k) payload []
    (b.toStream 7 p).trace p []
  else b

/-- A captured embedded-data packet: to stream 7, or counted and discarded (R212, Table 06-5). -/
def Block.embedData (k : Nat) (p : LongPkt) (b : Block) : Block :=
  if !p.crcOk then b.portCount k 5
  else if b.port k 35 1 / 2 % 2 == 1 && (b.host.streams.getD 7 {}).isOpen then
    let no := match (b.ports.getD k {}).frame with | some f => f.no | none => 0
    let line := match (b.ports.getD k {}).frame with | some f => f.next | none => 0
    (List.range ((p.payload.length + 4087) / 4088)).foldl (fun b i =>
      b.embed k (lineHead (b.camOf k) (if i = 0 then 0 else 1) no line (4088 * i) ++ (p.payload.drop (4088 * i)).take 4088)) b
  else b.portCount k 11

/-- Any long packet: a pixel line, embedded data, or discarded with the count of R199 or R200. A header that does not pass still counts as the
line that it would have been (R203). -/
def Block.anyLong (k : Nat) (p : LongPkt) (b : Block) : Block :=
  if !b.csiOn k || !(b.ports.getD k {}).synced then b
  else
    let (b1, pass) := b.headerEcc k p.ecc
    let pixel : Bool := p.vc.toNat == b.port k 32 1 && p.dt.toNat == b.port k 33 1
    let embed : Bool := p.vc.toNat == b.port k 36 1 && p.dt == 0x12
    if !pass then (if pixel then b1.takeLine k false [] else b1)
    else if !b1.vcMapped k p.vc.toNat then b1.portCount k 3
    else if pixel then b1.pixelLine k p
    else if !embed then b1.portCount k 4
    else if b.port k 35 1 % 2 == 1 then b1.embedData k p
    else b1

/-- A CSI-2 long packet (R169, R199, R200, R202 to R206). -/
def Block.longPacket (port : Fin 6) (p : LongPkt) (b : Block) : Block := b.anyLong port.val p

/-- An embedded-data long packet (R199, R200, R212). -/
def Block.embedPacket (port : Fin 6) (p : LongPkt) (b : Block) : Block := b.anyLong port.val p

/-- A start-of-transmission or sync error (R206, Table 06-7), counted from the enable on: R211 leaves packets alone uncounted. -/
def Block.phyError (port : Fin 6) (b : Block) : Block := if b.csiOn port then b.portCount port 0 else b

/-! ### Meanings: inertial inputs -/

/-- A data-ready edge for slot k: the read it queues (R214, R216). -/
def Block.dataReady (k : Nat) (b : Block) : Block :=
  let s := b.slots.getD k {}
  let r : Read := { stamp := b.now, overrun := !s.pending.isEmpty }
  let b1 := { b with slots := b.slots.modify k fun s => { s with pending := [r] } }
  if !s.pending.isEmpty then b1.slotCount k 1 else b1

/-- An IRQ_IMU edge (R132, R214, R216, R671, R672) of a pulse of at least 8 ticks (Table 20-10): every running slot that names the pin and this edge queues a read. -/
def Block.irqEdge (pin : Fin 4) (rising : Bool) (width : Nat) (b : Block) : Block :=
  (List.range 6).foldl (fun b k =>
    if 8 ≤ width && b.slotOn k && b.port k 105 1 == pin.val && (b.port k 106 1 == 0) == rising then b.dataReady k else b) b

/-- A poll of a slot without a data-ready pin, every POLL_PERIOD ticks: each is a read (R214). -/
def Block.pollTimer (slot : Fin 6) (b : Block) : Block :=
  let s := b.slots.getD slot {}
  if b.slotOn slot && b.port slot 105 1 == 0xFF && b.port slot 136 4 != 0 && decide (s.pollNext ≤ b.now) then
    { b with slots := b.slots.modify slot fun s =>
      { s with pending := s.pending ++ [{ stamp := b.now, polled := true }], pollNext := s.pollNext + b.port slot 136 4 } }
  else b

/-- The slots of a controller with a pending read, with its tick and TARGET. -/
def Block.waitingReads (ctl : Nat) (b : Block) : List (Nat × Tick × Nat) :=
  (List.range 6).filterMap fun k =>
    match (b.slots.getD k {}).pending with
    | r :: _ => if b.slotOn k && b.port k 97 1 == ctl then some (k, r.stamp, b.port k 98 1) else none
    | [] => none

/-- The read a controller serves next: the earliest stamp, on equal stamps the lower TARGET (R215). -/
def nextRead : List (Nat × Tick × Nat) → Option Nat
  | [] => none
  | x :: xs => some (xs.foldl (fun y z => if z.2.1 < y.2.1 || (z.2.1 = y.2.1 && z.2.2 < y.2.2) then z else y) x).1

/-- What a read drives on its bus: in HDR-DDR mode the command code is CMD byte 0 alone (R213, R217). -/
def Block.readOut (k : Nat) (b : Block) : Out :=
  let cmd := leBytes 2 (b.port k 108 2)
  if 2 ≤ b.port k 97 1 && b.port k 99 1 == 1 then .hdrRead k (cmd.getD 0 0) (b.port k 110 1)
  else .busRead k (slice cmd 0 (b.port k 107 1)) (b.port k 110 1)

/-- A controller starts its next read (R213, R215, R217). -/
def Block.readStart (ctl : Fin 4) (b : Block) : Block :=
  let skin : Bool := b.pwr.skinBusy && (pagePos b.cfg.active 10 0).isSome && memField (pageAt b.cfg.active 10 0) 16 1 == ctl.val
  match (if skin then some 0 else b.ctls.getD ctl none), nextRead (b.waitingReads ctl) with
  | none, some k =>
    let b0 := if 2 ≤ ctl.val && b.port k 99 1 < 2 && !(b.slots.getD k {}).addressed then b.i3cAssign ctl else b
    Block.drive (b.readOut k) { b0 with
      ctls := b0.ctls.set ctl (some k)
      slots := b0.slots.modify k fun s => { s with reading := s.pending.head?, pending := s.pending.tail } }
  | _, _ => b

/-- The body of SENSOR_LOST and SENSOR_BACK (Table 14-12). -/
def Block.sensorBody (k run : Nat) (b : Block) : Bytes :=
  [BitVec.ofNat 8 k, BitVec.ofNat 8 (b.port k 97 1), 0, 0] ++ leBytes 4 run

/-- A read that is not acknowledged (R219). -/
def Block.readFailed (k : Nat) (b : Block) : Block :=
  let run := (b.slots.getD k {}).failRun + 1
  let lost : Bool := run == 8 && !(b.slots.getD k {}).lost
  let b1 := b.slotCount k 0
  let b2 := { b1 with slots := b1.slots.modify k fun s => { s with failRun := run, lost := s.lost || lost } }
  if lost then b2.event 0x000A (b.ctlUnit k) (b.sensorBody k run) else b2

/-- The stamp of a sample read (R132, R133). -/
def Block.readStamp (k : Nat) (r : Read) (b : Block) : Int :=
  let t := if b.port k 97 1 < 2 && b.port k 105 1 != 0xFF then r.stamp else b.now
  (t : Int) - b.portS k 140

/-- Takes a sample into the slot's group, which closes at 64 (R170, R222, R223). -/
def Block.takeSample (k : Nat) (r : Read) (burst : Bytes) (b : Block) : Block :=
  let code := b.rangeCode k burst
  if memField (pageAt b.cfg.active 2 k) (152 + 12 * code) 1 = 0 then b.slotCount k 2
  else
    let changed : Bool := match (b.slots.getD k {}).lastCode with | some c => c.toNat != code | none => false
    let (vals, ovr) := b.sampleValues k code burst
    let s : InSample := { stamp := BitVec.ofInt 64 (b.readStamp k r), code := BitVec.ofNat 8 code, ovr := BitVec.ofNat 8 ovr,
                          flags := BitVec.ofNat 8 (r.overrun.toNat + 2 * r.polled.toNat), vals := vals }
    let b1 := if changed then b.slotCount k 3 else b
    let b2 := if ovr = 0 then b1 else b1.slotCount k 4
    let b3 := { b2 with slots := b2.slots.modify k fun x =>
      { x with lastCode := some (BitVec.ofNat 8 code), group := x.group ++ [s],
               groupAt := if x.group.isEmpty then b.now else x.groupAt } }
    if 64 ≤ (b3.slots.getD k {}).group.length then b3.closeGroup k else b3

/-- A read ends (R219 to R224). -/
def Block.readDone (ctl : Fin 4) (burst : Option Bytes) (b : Block) : Block :=
  match b.ctls.getD ctl none with
  | none => b
  | some k =>
    let r := (b.slots.getD k {}).reading.getD { stamp := b.now }
    let b1 := { b with ctls := b.ctls.set ctl none, slots := b.slots.modify k fun s => { s with reading := none } }
    if !b.slotOn k then b1
    else match burst with
    | none => b1.readFailed k
    | some bs =>
      let s := b.slots.getD k {}
      let b2 := { b1 with slots := b1.slots.modify k fun s => { s with failRun := 0, lost := false } }
      let b3 := if s.lost then b2.event 0x000B (b.ctlUnit k) (b.sensorBody k s.failRun) else b2
      b3.takeSample k r bs

/-- A group closes 250,000 ticks after its first sample (R170). -/
def Block.groupTimer (slot : Fin 6) (b : Block) : Block :=
  let s := b.slots.getD slot {}
  if !s.group.isEmpty && decide (s.groupAt + 250000 ≤ b.now) then b.closeGroup slot else b

/-! ### Exec -/

/-- TRIG_EDGE. -/
def execTrigEdge (pin : Fin 8) (rise : Bool) (s : State) : Host.Outcome State Fault Refusal := s.act (Block.trigEdge pin rise)
/-- FRAME_START. -/
def execFrameStart (port : Fin 6) (p : ShortPkt) (s : State) : Host.Outcome State Fault Refusal := s.act (Block.frameStart port p)
/-- TRIG_NO_FRAME. -/
def execTrigNoFrame (port : Fin 6) (s : State) : Host.Outcome State Fault Refusal := s.act (Block.trigNoFrame port)
/-- FRAME_END. -/
def execFrameEnd (port : Fin 6) (p : ShortPkt) (s : State) : Host.Outcome State Fault Refusal := s.act (Block.frameEnd port p)
/-- LINE_START. -/
def execLineStart (port : Fin 6) (isEnd : Bool) (p : ShortPkt) (s : State) : Host.Outcome State Fault Refusal :=
  s.act (Block.lineStart port isEnd p)
/-- LONG_PACKET. -/
def execLongPacket (port : Fin 6) (p : LongPkt) (s : State) : Host.Outcome State Fault Refusal := s.act (Block.longPacket port p)
/-- EMBED_PACKET. -/
def execEmbedPacket (port : Fin 6) (p : LongPkt) (s : State) : Host.Outcome State Fault Refusal := s.act (Block.embedPacket port p)
/-- PHY_FRAMING_ERROR. -/
def execPhyFramingError (port : Fin 6) (s : State) : Host.Outcome State Fault Refusal := s.act (Block.phyError port)
/-- IRQ_IMU_EDGE. -/
def execIrqImuEdge (pin : Fin 4) (rising : Bool) (width : Nat) (s : State) : Host.Outcome State Fault Refusal :=
  s.act (Block.irqEdge pin rising width)
/-- POLL_TIMER. -/
def execPollTimer (slot : Fin 6) (s : State) : Host.Outcome State Fault Refusal := s.act (Block.pollTimer slot)
/-- SENSOR_READ_START. -/
def execSensorReadStart (ctl : Fin 4) (s : State) : Host.Outcome State Fault Refusal := s.act (Block.readStart ctl)
/-- SENSOR_READ_DONE. -/
def execSensorReadDone (ctl : Fin 4) (burst : Option Bytes) (s : State) : Host.Outcome State Fault Refusal :=
  s.act (Block.readDone ctl burst)
/-- INERTIAL_GROUP_CLOSE. -/
def execInertialGroupClose (slot : Fin 6) (s : State) : Host.Outcome State Fault Refusal := s.act (Block.groupTimer slot)

end Sys2Proof.Machine
end

