-- ==== Sys2Proof/Machine/IfcOps.lean ====
section
/-! DEFINITION. The inertial filter chain (chapter 07): rescaling, gaps, the filter, stamps and flags, threshold events, output
parcels and SYNC. -/

namespace Sys2Proof.Machine

/-! ### Page fields (Tables 07-1 and 07-2) -/

/-- A field of channel c's record in the active set. -/
def Block.chanF (b : Block) (c off n : Nat) : Nat := b.setting 3 (c / 6) (64 + 128 * (c % 6) + off) n

/-- A field of a channel's record in a set. -/
def chanIn (set : List Memory) (c off n : Nat) : Nat := memField (pageAt set 3 (c / 6)) (64 + 128 * (c % 6) + off) n

/-- Whether a set enables a channel. -/
def chanEnabled (set : List Memory) (c : Nat) : Bool := chanIn set c 0 1 == 1

/-- Single-cycle settling mode (R244). -/
def Block.settling (b : Block) (c : Nat) : Bool := b.chanF c 1 1 == 1

/-- D. -/
def Block.decim (b : Block) (c : Nat) : Nat := max 1 (b.chanF c 6 1)

/-- T, which is D in single-cycle settling mode (R244). -/
def Block.taps (b : Block) (c : Nat) : Nat := if b.settling c then b.decim c else b.chanF c 4 2

/-- The unit of channel c's group. -/
def ifcUnit (c : Nat) : BitVec 8 := BitVec.ofNat 8 (0x18 + c / 6)

/-- Changes a channel. -/
def Block.onChan (c : Nat) (f : Chan → Chan) (b : Block) : Block := { b with ifc := { b.ifc with chans := b.ifc.chans.modify c f } }

/-- Changes a group. -/
def Block.onGroup (g : Nat) (f : Group → Group) (b : Block) : Block := { b with ifc := { b.ifc with groups := b.ifc.groups.modify g f } }

/-- A channel. -/
def Block.chan (b : Block) (c : Nat) : Chan := b.ifc.chans.getD c {}

/-- Counts in one of a channel's counters (R267). -/
def Block.chanCount (c i : Nat) (b : Block) : Block :=
  (b.onChan c fun x => { x with counters := x.counters.modify i bump }).onGroup (c / 6) fun g =>
    { g with changed := g.changed || (b.chan c).counters.getD i 0 != BitVec.allOnes 32 }

/-! ### Waking (R602) -/

/-- Ticks from a wake to the resume boundary (R603). -/
def resumeDelay : Tick := 1250000

/-- A wake source acts while the engine is paused, and not after a shutdown (R604): the wake tick is taken, once, and with it the boundary
of an armed swap is known (R602, R603). -/
def Block.wakeUp (src : WakeSrc) (b : Block) : Block :=
  if b.pwr.paused && !b.pwr.shutReady && b.pwr.wake.isNone then
    { b with
      pwr := { b.pwr with wake := some (b.now, src) }
      cfg := { b.cfg with armed := b.cfg.armed.map fun a => { a with boundary := b.now + resumeDelay } } }
  else b

/-! ### Output parcels (R264 to R266) -/

/-- One record (Table 07-6). -/
def IfcRec.bytes (r : IfcRec) : Bytes :=
  leBytes 8 r.stamp.toNat ++ [r.ch, r.flags, r.code, 0] ++ leBytes 4 r.value.toNat

/-- The IFC_OUT payload of a group. -/
def Block.ifcPayload (g : Nat) (recs : List IfcRec) (b : Block) : Bytes :=
  [BitVec.ofNat 8 g, BitVec.ofNat 8 recs.length, 0, 0] ++ leBytes 4 b.cfg.gen.toNat ++ List.replicate 8 0 ++ recs.flatMap IfcRec.bytes

/-- Hands a sealed IFC_OUT parcel's records to the AFU, newest first by channel. -/
def afuTake (recs : List IfcRec) (r : InRef) (a : Afu) : Afu :=
  { a with
    outs := recs.foldl (fun os x => os.modify x.ch.toNat fun o => { o with recs := (x, r) :: o.recs }) a.outs
    arrived := r :: a.arrived }

/-- The threshold events of a group that no longer wait for a parcel: those of outputs that a stopped channel discarded name the group's newest
parcel (R234, DEDUCED, log entry 84). -/
def Block.flushEvents (g : Nat) (b : Block) : Block :=
  let x := b.ifc.groups.getD g {}
  x.events.foldl (fun b e => b.emit 2 0x0E01 (ifcUnit (6 * g)) e.2 x.last.toList) (b.onGroup g fun y => { y with inputs := [], events := [] })

/-- Whether an output that is computed or still to come names an INERTIAL parcel: an open IFC_OUT parcel's, or one whose window reaches a sample
of it. -/
def Block.ifcNeeds (r : InRef) (b : Block) : Bool :=
  (b.ifc.groups.any fun g => g.inputs.any (InRef.same r)) || (List.range 24).any fun c =>
    let x := b.chan c
    x.running && (x.hist.take (max (b.taps c) (b.decim c) + b.chanF c 7 1)).any fun i => InRef.same r i.src

/-- Releases the INERTIAL parcels from which every output is sealed (R175). -/
def Block.ifcRelease (b : Block) : Block :=
  let done := b.ifc.taken.filter fun r => !b.ifcNeeds r
  done.foldl (fun b r => b.release r) { b with ifc := { b.ifc with taken := b.ifc.taken.filter fun r => b.ifcNeeds r } }

/-- Closes a group's open IFC_OUT parcel: seals it, then the threshold events whose deciding output it holds (R264, R498). -/
def Block.closeOut (g : Nat) (b : Block) : Block :=
  let x := b.ifc.groups.getD g {}
  if x.recs.isEmpty then b.flushEvents g
  else
    let unit := ifcUnit (6 * g)
    let p := b.flowParcel (0xA0 + g) 0x0201 unit (b.ifcPayload g x.recs) x.inputs
    let b1 := b.flow (0xA0 + g) 0x0201 unit (b.ifcPayload g x.recs) x.inputs
    let b2 := { b1 with afu := afuTake x.recs p.ref b1.afu }
    let b3 := b2.onGroup g fun y => { y with recs := [], inputs := [], events := [], last := some p.ref }
    (x.events.foldl (fun b e => b.emit 2 0x0E01 unit e.2 [p.ref]) b3).ifcRelease

/-- Adds an output to its group's parcel, which closes at 255 records (R264, R265). -/
def Block.putOut (c : Nat) (r : IfcRec) (ins : List InRef) (b : Block) : Block :=
  let g := c / 6
  let b1 := b.onGroup g fun x =>
    { x with recs := x.recs ++ [r], inputs := consumed (x.inputs ++ ins), firstAt := if x.recs.isEmpty then b.now else x.firstAt }
  if 255 ≤ (b1.ifc.groups.getD g {}).recs.length then b1.closeOut g else b1

/-! ### Threshold events (R256 to R263) -/

/-- Whether a value enters (Table 07-4). -/
def evEnter (kind : Nat) (la lb v : Int) : Bool :=
  match kind with
  | 1 => decide (la < v)
  | 2 => decide (v < la)
  | 3 => decide (la ≤ v) && decide (v ≤ lb)
  | 4 => decide (v < la) || decide (lb < v)
  | _ => false

/-- Whether a value stays (Table 07-4). -/
def evStay (kind : Nat) (la lb hyst v : Int) : Bool :=
  match kind with
  | 1 => decide (la - hyst < v)
  | 2 => decide (v < la + hyst)
  | 3 => decide (la - hyst ≤ v) && decide (v ≤ lb + hyst)
  | 4 => decide (v < la + hyst) || decide (lb - hyst < v)
  | _ => false

/-- An event unit of a channel. -/
def Chan.ev (x : Chan) (u : Nat) : EvUnit := if u = 0 then x.ev0 else x.ev1

/-- Changes an event unit. -/
def Chan.setEv (x : Chan) (u : Nat) (e : EvUnit) : Chan := if u = 0 then { x with ev0 := e } else { x with ev1 := e }

/-- The body of IFC_THRESHOLD (Table 14-12, R259). -/
def evBody (c u kind : Nat) (isEnd : Bool) (e : EvUnit) (cause : Nat) (stamp value : Nat) : Bytes :=
  [BitVec.ofNat 8 c, BitVec.ofNat 8 u, BitVec.ofNat 8 kind, BitVec.ofNat 8 isEnd.toNat,
   BitVec.ofNat 8 (e.tainted.toNat + 2 * e.seam.toNat), BitVec.ofNat 8 cause] ++ leBytes 2 (min e.run 0xFFFF)
    ++ leBytes 8 stamp ++ leBytes 4 value

/-- Releases or drives the TRIG pin of an event unit (R260). -/
def Block.evPin (c u : Nat) (start : Bool) (b : Block) : Block :=
  if b.eventField c u 1 1 / 4 % 2 = 1 then
    let pin := b.eventField c u 2 1 % 8
    if start then
      let b1 := b.trigDrive pin true
      if b.eventField c u 3 1 = 1 then { b1 with ifc := { b1.ifc with pulses := b1.ifc.pulses.set pin (some (b.now + 250)) } } else b1
    else if b.eventField c u 3 1 = 0 then b.trigDrive pin false
    else b
  else b

/-- The event unit machine on one output (R258): the unit after it, whether it starts, whether it ends. -/
def evStep (kind : Nat) (la lb hyst : Int) (minDur : Nat) (v : Int) (stamp : Tick) (tainted seam : Bool) (e : EvUnit) :
    EvUnit × Bool × Bool :=
  match e.st with
  | .active => if evStay kind la lb hyst v then (e, false, false) else ({ e with st := .idle }, false, true)
  | st =>
    if !evEnter kind la lb v then ({ e with st := .idle, run := 0 }, false, false)
    else
      let fresh : Bool := st == .idle
      let e1 : EvUnit := { st := .pending, run := if fresh then 1 else e.run + 1, tFirst := if fresh then stamp else e.tFirst,
                           tainted := tainted || (!fresh && e.tainted), seam := seam || (!fresh && e.seam) }
      if max minDur 1 ≤ e1.run then ({ e1 with st := .active }, true, false) else (e1, false, false)

/-- Runs one event unit on an output of its channel (R258 to R260); fields that a swap changed do not act on outputs stamped before it (R100). -/
def Block.evRun (c u : Nat) (r : IfcRec) (b : Block) : Block :=
  let kind := b.eventField c u 0 1
  let s4 (off : Nat) : Int := signedOf 32 (b.eventField c u off 4)
  let e := (b.chan c).ev u
  if r.stamp.toNat < e.since then b
  else
  let (e1, start, fin) := evStep kind (s4 4) (s4 8) (s4 12) (b.eventField c u 16 2) r.value.toInt r.stamp.toNat
    (r.flags.getLsbD 0) (r.flags.getLsbD 1) e
  let b1 := b.onChan c fun x => x.setEv u e1
  let body := if start then evBody c u kind false e1 0 e1.tFirst r.value.toNat
              else evBody c u kind true e1 0 r.stamp.toNat r.value.toNat
  let action := b.eventField c u 1 1
  let b2 := if (start || fin) && action % 2 = 1 then
      b1.onGroup (c / 6) fun g => { g with events := g.events ++ [(ifcUnit c, b1.eventBytes 0x0050 (ifcUnit c) body)] }
    else b1
  let b3 := if start && action / 2 % 2 = 1 && b.licensed featWake then b2.wakeUp .event else b2
  if start || fin then b3.evPin c u start else b3

/-- Ends an event unit when its channel stops, is reconfigured or restarts: an ACTIVE unit emits END with the cause and releases its
pin, a PENDING one returns to idle (R262, R263). No output decides this END: its value is free (log entry 5). -/
def Block.evEnd (c u cause : Nat) (stamp : Tick) (kind action pinMode pin : Nat) (b : Block) : Block :=
  let e := (b.chan c).ev u
  let b1 := b.onChan c fun x => x.setEv u {}
  if e.st == .active then
    let b2 := if action % 2 = 1 then
        Block.drew <| b1.eventFrom 0x0050 (ifcUnit c) (ifcUnit c)
          (evBody c u kind true e cause stamp (b1.freeNow.setWidth 32).toNat) ((b1.ifc.groups.getD (c / 6) {}).last.toList)
      else b1
    if action / 4 % 2 = 1 && pinMode = 0 then b2.trigDrive (pin % 8) false else b2
  else b1

/-- Ends both event units of a channel under the fields that a set gives them. -/
def Block.evEndBoth (set : List Memory) (c cause : Nat) (stamp : Tick) (b : Block) : Block :=
  (List.range 2).foldl (fun b u =>
    let f (off : Nat) : Nat := chanIn set c (80 + 24 * u + off) 1
    b.evEnd c u cause stamp (f 0) (f 1) (f 3) (f 2)) b

/-! ### The filter (R236 to R255) -/

/-- Rescales an input (R236). -/
def rescale (x : Int) (scale : Nat) : Int := saturate 32 (rneDiv (x * scale) 65536)

/-- The history entry of an input number. -/
def Chan.inputAt (x : Chan) (n : Nat) : Option IfcIn := x.hist.find? fun i => i.n == n

/-- The data window of the output at input n (R239). -/
def Chan.window (x : Chan) (n phase t : Nat) : List IfcIn :=
  x.hist.filter fun i => decide (i.n + phase ≤ n) && decide (n < i.n + phase + t)

/-- The FIR sum at input n (R237), exact: its value over 2^q. -/
def Chan.fir (x : Chan) (n phase t : Nat) : Int :=
  ((List.range t).map fun k =>
    match x.inputAt (n - phase - k) with
    | some i => (x.coefs.getD k 0).toInt * i.v.toInt
    | none => 0).sum

/-- The stamp of the output at input n for a group delay of g / 256 input periods (R240). -/
def Chan.outStamp (x : Chan) (n g : Nat) : Tick :=
  let j := 256 * n - g
  let i := j / 256
  let u := j % 256
  let t0 := match x.inputAt i with | some a => a.stamp | none => 0
  let t1 := match x.inputAt (i + 1) with | some a => a.stamp | none => t0
  t0 + rneNat (u * (t1 - t0)) 256

/-- Whether an output falls at input n (R238). -/
def Chan.outputAt (x : Chan) (n d t phase : Nat) : Bool :=
  decide (x.n0 ≤ n) && (n - x.n0) % d == d - 1 && decide (t - 1 + phase ≤ n - x.n0)

/-- The value and saturation of the output at input n (R237, R244). -/
def Block.ifcValue (c n : Nat) (b : Block) : Int × Bool :=
  let x := b.chan c
  let d := b.decim c
  let y := if b.settling c then rneDiv (((x.window n 0 d).map fun i => i.v.toInt).sum) d
           else rneDiv (x.fir n (b.chanF c 7 1) (b.taps c)) (if b.chanF c 3 1 = 0 then 2 ^ 15 else 2 ^ 14)
  (saturate 32 y, saturate 32 y != y)

/-- RANGE_SEAM for the output with a window (R251): the seam state after it, and whether it is flagged. Each change flags ceil(T / D) outputs
from the first whose window holds it. -/
def Chan.seamStep (x : Chan) (first last t d : Nat) : Chan × Bool :=
  let hit := x.seams.any fun m => decide (first ≤ m) && decide (m ≤ last)
  let left := if hit then (t + d - 1) / d else x.seamLeft
  ({ x with seams := x.seams.filter fun m => decide (last < m), seamLeft := left - 1 }, decide (0 < left))

/-- Computes the output at input n, with its flags, record and events (R237 to R241, R251, R253, R255). -/
def Block.ifcOutput (c n : Nat) (code : BitVec 8) (b : Block) : Block :=
  let x := b.chan c
  let t := b.taps c
  let d := b.decim c
  let phase := if b.settling c then 0 else b.chanF c 7 1
  let win := x.window n phase t
  let (v, sat) := b.ifcValue c n
  let (x1, seam) := x.seamStep (n - phase + 1 - t) (n - phase) t d
  let taint := win.any IfcIn.ovr
  let g := if b.settling c then 128 * (d - 1) else x.delay.toNat
  let flags := taint.toNat + 2 * seam.toNat + 4 * (win.any IfcIn.fill).toNat + 8 * x.syncDue.toNat + 16 * sat.toNat + 32 * x.first.toNat
  let r : IfcRec := { stamp := BitVec.ofNat 64 (x.outStamp n g), ch := BitVec.ofNat 8 c, flags := BitVec.ofNat 8 flags, code := code,
                      value := BitVec.ofInt 32 v }
  let b1 := b.onChan c fun _ => { x1 with first := false, syncDue := false }
  let b2 := if sat then b1.chanCount c 3 else b1
  let b3 := if seam then b2.chanCount c 4 else b2
  let b4 := if taint then b3.chanCount c 5 else b3
  let b5 := b4.putOut c r (((win.filter fun i => !i.fill).map IfcIn.src).reverse)
  (b5.evRun c 0 r).evRun c 1 r

/-- Enters one input in a channel, and computes the output that falls at it (R236, R238, R249, R251, R252). -/
def Block.ifcEnter (c : Nat) (i : IfcIn) (b : Block) : Block :=
  let b1 := b.onChan c fun x =>
    let i := { i with n := x.count }
    let anchor : Bool := x.syncAts.any fun t => decide (t ≤ i.stamp)
    let swapped : Bool := match x.rescaleAt with | some t => decide (t ≤ i.stamp) | none => false
    let seam : Bool := swapped || (match x.code with | some k => k != i.code | none => false)
    { x with
      hist := (i :: x.hist).take 660
      count := x.count + 1
      n0 := if anchor then i.n else x.n0
      syncAts := x.syncAts.filter fun t => decide (i.stamp < t)
      syncDue := x.syncDue || anchor
      seams := if seam then x.seams ++ [i.n] else x.seams
      rescaleAt := if swapped then none else x.rescaleAt
      code := some i.code }
  let x := b1.chan c
  let n := x.count - 1
  let phase := if b1.settling c then 0 else b1.chanF c 7 1
  if x.outputAt n (b1.decim c) (b1.taps c) phase then b1.ifcOutput c n i.code else b1

/-- The scale of a range code for an input stamp (R236, R252). -/
def Block.scaleFor (c code : Nat) (stamp : Tick) (b : Block) : Nat :=
  match (b.chan c).rescaleAt with
  | some t => if stamp < t then ((b.chan c).oldScale.getD code 0).toNat else b.chanF c (16 + 4 * code) 4
  | none => b.chanF c (16 + 4 * code) 4

/-- Missing samples between two stamps of a slot at a declared rate: none unless they lie more than 1.5 periods apart (R246). -/
def missingSamples (rate d : Nat) : Nat := if 3 * 250000000 < 2 * d * rate then rneNat (d * rate) 250000000 - 1 else 0

/-- The body of IFC_RESTART (Table 14-13). -/
def restartBody (c k t0 t1 : Nat) : Bytes := [BitVec.ofNat 8 c, 0, 0, 0] ++ leBytes 4 k ++ leBytes 8 t0 ++ leBytes 8 t1

/-- A channel's history dropped; the next sample is n0 (R248). A SYNC that has not met its input, or whose SYNC_RESET no output has carried, is
still due (R249, R250). -/
def Chan.restart (x : Chan) : Chan :=
  { x with hist := [], n0 := x.count, first := true, seams := [], seamLeft := 0, code := none }

/-- Restarts a channel (R248, R262). -/
def Block.chanRestart (c : Nat) (stamp : Tick) (b : Block) : Block :=
  ((b.evEndBoth b.cfg.active c 3 stamp).onChan c Chan.restart).chanCount c 2

/-- One sample of a slot for one channel: gaps are filled or restart the channel (R236, R246 to R248). Every input, a fill too, is rescaled at its
entry from the value it repeats (R236, R247, R252). -/
def Block.ifcSample (c slot : Nat) (stamp : Tick) (code : BitVec 8) (ovr : Bool) (raw : BitVec 32) (src : InRef) (b : Block) : Block :=
  let x := b.chan c
  if !x.running then b
  else
    let rate := b.port slot 144 4
    let prev := x.prevStamp.getD stamp
    let delta := stamp - prev
    let k := if x.prevStamp.isSome then missingSamples rate delta else 0
    let enter (i : IfcIn) (b : Block) : Block :=
      b.ifcEnter c { i with v := BitVec.ofInt 32 (rescale i.raw.toInt (b.scaleFor c i.code.toNat i.stamp)) }
    let inp : IfcIn := { n := 0, stamp := stamp, raw := raw, v := 0, code := code, ovr := ovr, fill := false, src := src }
    let b1 :=
      if x.restartDue then
        Block.diag 0x0103 (ifcUnit c) (restartBody c k prev stamp) (b.onChan c fun x => { x with restartDue := false })
      else if k = 0 then b
      else if k ≤ 8 then
        let last := x.hist.head?
        (List.range k).foldl (fun b j =>
          match last with
          | some p => enter { p with stamp := prev + rneNat ((j + 1) * delta) (k + 1), fill := true } b
          | none => b) (b.chanCount c 1)
      else (b.chanRestart c stamp).diag 0x0103 (ifcUnit c) (restartBody c k prev stamp)
    enter inp (b1.onChan c fun x => { x with prevStamp := some stamp })

/-! ### Starting, stopping and SYNC -/

/-- Stops a channel (R234, R262): its history, its partial period and its outputs that no parcel has sealed are discarded. The fields of its
event units are those of the set it ran under. -/
def Block.chanStop (old : List Memory) (c : Nat) (b : Block) : Block :=
  if (b.chan c).running then
    ((b.evEndBoth old c 1 b.now).onChan c fun x => { counters := x.counters }).onGroup (c / 6) fun g =>
      { g with recs := g.recs.filter fun r => r.ch != BitVec.ofNat 8 c }
  else b

/-- Loads a channel's coefficients and delay from its set, and starts it (R233, R234). -/
def Block.chanStart (c : Nat) (b : Block) : Block :=
  if (b.chan c).running then b
  else
    let page := pageAt b.cfg.active 4 (b.chanF c 2 1)
    b.onChan c fun x => {
      counters := x.counters
      running := true
      coefs := if b.settling c then [] else (List.range (b.chanF c 4 2)).map fun k => BitVec.ofNat 16 (memField page (32 + 2 * k) 2)
      delay := BitVec.ofNat 16 (memField page 16 2) }

/-- Re-anchors the running channels whose group responds to a SYNC of a source: bit 0 the pin, bit 1 the command (R249). One that the
other source already re-anchored, under the same SYNC, is left (R144). -/
def Block.syncAnchor (bit : Nat) (merged : Bool) (stamp : Tick) (b : Block) : Block :=
  { b with ifc := { b.ifc with chans := b.ifc.chans.mapIdx fun c x =>
      let mask := b.setting 3 (c / 6) 16 1
      if x.running && mask.testBit bit && !(merged && mask.testBit (1 - bit)) then
        (match x.hist.reverse.find? fun i => decide (stamp ≤ i.stamp) with
        | some i => { x with n0 := i.n, syncDue := true }
        | none => { x with syncAts := x.syncAts ++ [stamp] })
      else x } }

/-- The IFC island restarts: every running channel restarts as under R248, and its active events end (Table 16-3). -/
def Block.ifcIslandRestart (b : Block) : Block :=
  (List.range 24).foldl (fun b c =>
    if (b.chan c).running then (b.chanRestart c b.now).onChan c fun x => { x with restartDue := true } else b) b

end Sys2Proof.Machine
end

