-- ==== Sys2Proof/Machine/Arith.lean ====
section
/-! DEFINITION. FP32 functions, vectors and quaternions (R149, R299, R309, R342). Each written operation rounds to FP32 (R12), sums from left to
right; sin, cos, the arc tangent and the exponential are the exact values rounded once (DEDUCED, log entry 88). -/

namespace Sys2Proof.Machine

/-! ### Exact values to 400 bits below the point -/

/-- 1 in fixed point. -/
def fixOne : Int := 2 ^ 400

/-- An FP32 value in fixed point. -/
def fixOf (x : BitVec 32) : Int := fp32Num x * 2 ^ 251

/-- The sum of n terms, the term after t at index k being `next k t`. -/
def series (next : Nat → Int → Int) : Nat → Nat → Int → Int
  | 0, _, _ => 0
  | n + 1, k, t => t + series next n (k + 1) (next k t)

/-- The terms of an odd or even power series of x: each is the one before times −x² over `div k`, without the sign when `alt` is false. -/
def powerTerms (x : Int) (alt : Bool) (div : Nat → Nat) (k : Nat) (t : Int) : Int :=
  (if alt then -1 else 1) * (t * x / fixOne * x / fixOne) / (div k : Int)

/-- sin x for |x| up to 7. -/
def fixSin (x : Int) : Int := series (powerTerms x true fun k => (2 * k + 2) * (2 * k + 3)) 80 0 x
/-- cos x for |x| up to 7. -/
def fixCos (x : Int) : Int := series (powerTerms x true fun k => (2 * k + 1) * (2 * k + 2)) 80 0 fixOne
/-- The arc tangent of x for |x| up to 1/5: the odd powers over their exponents. -/
def fixAtanSmall (x : Int) : Int :=
  ((List.range 100).foldl (fun (acc : Int × Int) k => (acc.1 + acc.2 / ((2 * k + 1 : Nat) : Int), -(acc.2 * x / fixOne * x / fixOne))) (0, x)).1
/-- π by Machin's formula. -/
def fixPi : Int := 16 * fixAtanSmall (fixOne / 5) - 4 * fixAtanSmall (fixOne / 239)
/-- tan(θ/2) from z = tan θ. -/
def halfTan (z : Int) : Int := z * fixOne / (fixOne + (isqrt (fixOne * fixOne + z * z).toNat : Nat))
/-- The angle of (x, y) for x and y not negative. -/
def fixAtan (y x : Int) : Int :=
  if y ≤ x then if x = 0 then 0 else 8 * fixAtanSmall (halfTan (halfTan (halfTan (y * fixOne / x))))
  else fixPi / 2 - 8 * fixAtanSmall (halfTan (halfTan (halfTan (x * fixOne / y))))
/-- exp x: the series at x / 2^7, squared seven times. -/
def fixExp (x : Int) : Int :=
  (List.range 7).foldl (fun v _ => v * v / fixOne) (series (fun k t => t * (x / 128) / fixOne / ((k + 1 : Nat) : Int)) 80 0 fixOne)

/-- sin of an FP32. -/
def fp32Sin (x : BitVec 32) : BitVec 32 := fp32Of (fixSin (fixOf x % (2 * fixPi))) (2 ^ 400)
/-- cos of an FP32. -/
def fp32Cos (x : BitVec 32) : BitVec 32 := fp32Of (fixCos (fixOf x % (2 * fixPi))) (2 ^ 400)
/-- The angle of (x, y), x and y not negative. -/
def fp32Atan (y x : BitVec 32) : BitVec 32 := fp32Of (fixAtan (fixOf y) (fixOf x)) (2 ^ 400)
/-- exp of an FP32; beyond ±128 the result is the greatest value or zero (R13). -/
def fp32Exp (x : BitVec 32) : BitVec 32 :=
  if 128 * fixOne ≤ fixOf x then 0x7F7FFFFF
  else if fixOf x ≤ -128 * fixOne then 0
  else fp32Of (fixExp (fixOf x)) (2 ^ 400)
/-- The square root of an FP32 that is not negative. -/
def fp32Root (x : BitVec 32) : BitVec 32 := fp32Sqrt (fp32Num x).toNat (2 ^ 149)
/-- The FP32 of opposite sign; zero stays. -/
def fp32Neg (x : BitVec 32) : BitVec 32 := if fp32Num x = 0 then x else x ^^^ 0x80000000
/-- 1.0. -/
def f32One : BitVec 32 := 0x3F800000
/-- An FP32 of a whole number of ticks, in seconds. -/
def secondsOf (t : Int) : BitVec 32 := fp32Of t 250000000

/-! ### Vectors and quaternions (R299) -/

/-- An FP32 vector. -/
structure V3 where
  x : BitVec 32 := 0
  y : BitVec 32 := 0
  z : BitVec 32 := 0
deriving DecidableEq, Repr

/-- An FP32 quaternion. -/
structure Q4 where
  w : BitVec 32 := f32One
  x : BitVec 32 := 0
  y : BitVec 32 := 0
  z : BitVec 32 := 0
deriving DecidableEq, Repr

def V3.add (a b : V3) : V3 := ⟨fp32Add a.x b.x, fp32Add a.y b.y, fp32Add a.z b.z⟩
def V3.sub (a b : V3) : V3 := ⟨fp32Sub a.x b.x, fp32Sub a.y b.y, fp32Sub a.z b.z⟩
def V3.scale (a : V3) (k : BitVec 32) : V3 := ⟨fp32Mul a.x k, fp32Mul a.y k, fp32Mul a.z k⟩
def V3.half (a : V3) : V3 := a.scale 0x3F000000
/-- The length of a vector. -/
def V3.norm (a : V3) : BitVec 32 := fp32Root (fp32Add (fp32Add (fp32Mul a.x a.x) (fp32Mul a.y a.y)) (fp32Mul a.z a.z))
def V3.words (a : V3) : List (BitVec 32) := [a.x, a.y, a.z]
def Q4.words (q : Q4) : List (BitVec 32) := [q.w, q.x, q.y, q.z]
/-- FP32 words as bytes. -/
def wordBytes (ws : List (BitVec 32)) : Bytes := ws.flatMap fun v => leBytes 4 v.toNat
/-- FP32 word i of a record's bytes from an offset on. -/
def wordAt (p : Bytes) (off i : Nat) : BitVec 32 := BitVec.ofNat 32 (field p (off + 4 * i) 4)
/-- The vector at an offset of a record. -/
def v3At (p : Bytes) (off : Nat) : V3 := ⟨wordAt p off 0, wordAt p off 1, wordAt p off 2⟩
/-- The quaternion at an offset of a record. -/
def q4At (p : Bytes) (off : Nat) : Q4 := ⟨wordAt p off 0, wordAt p off 1, wordAt p off 2, wordAt p off 3⟩

/-- a − b − c − d. -/
def minus3 (a b c d : BitVec 32) : BitVec 32 := fp32Sub (fp32Sub (fp32Sub a b) c) d
/-- a + b + c − d. -/
def plus2 (a b c d : BitVec 32) : BitVec 32 := fp32Sub (fp32Add (fp32Add a b) c) d

/-- The Hamilton product (R299). -/
def Q4.mul (p q : Q4) : Q4 :=
  let m := fp32Mul
  ⟨minus3 (m p.w q.w) (m p.x q.x) (m p.y q.y) (m p.z q.z), plus2 (m p.w q.x) (m p.x q.w) (m p.y q.z) (m p.z q.y),
   plus2 (m p.w q.y) (m p.y q.w) (m p.z q.x) (m p.x q.z), plus2 (m p.w q.z) (m p.z q.w) (m p.x q.y) (m p.y q.x)⟩

/-- The conjugate. -/
def Q4.conj (q : Q4) : Q4 := ⟨q.w, fp32Neg q.x, fp32Neg q.y, fp32Neg q.z⟩

/-- A quaternion divided by its norm (R302). -/
def Q4.unit (q : Q4) : Q4 :=
  let n := fp32Root (fp32Add (fp32Add (fp32Add (fp32Mul q.w q.w) (fp32Mul q.x q.x)) (fp32Mul q.y q.y)) (fp32Mul q.z q.z))
  ⟨fp32Div q.w n, fp32Div q.x n, fp32Div q.y n, fp32Div q.z n⟩

/-- The same rotation with w not negative (R299). -/
def Q4.pos (q : Q4) : Q4 := if q.w.getLsbD 31 then ⟨q.w ^^^ 0x80000000, fp32Neg q.x, fp32Neg q.y, fp32Neg q.z⟩ else q

/-- v_A = q ⊗ v ⊗ q* (R299). -/
def Q4.rot (q : Q4) (v : V3) : V3 :=
  let r := (q.mul ⟨0, v.x, v.y, v.z⟩).mul q.conj
  ⟨r.x, r.y, r.z⟩

/-- The unit quaternion of a rotation vector. -/
def expQ (r : V3) : Q4 :=
  let a := r.norm
  if fp32Num a = 0 then {}
  else
    let s := fp32Div (fp32Sin (fp32Mul a 0x3F000000)) a
    ⟨fp32Cos (fp32Mul a 0x3F000000), fp32Mul r.x s, fp32Mul r.y s, fp32Mul r.z s⟩

/-- The rotation vector of a unit quaternion. -/
def Q4.log (q : Q4) : V3 :=
  let p := q.pos
  let n := (⟨p.x, p.y, p.z⟩ : V3).norm
  if fp32Num n = 0 then {} else (⟨p.x, p.y, p.z⟩ : V3).scale (fp32Div (fp32Mul 0x40000000 (fp32Atan n p.w)) n)

/-- The rotation matrix of a quaternion, by rows: the images of the axes are its columns. -/
def Q4.matrix (q : Q4) : List (List (BitVec 32)) :=
  let c0 := q.rot ⟨f32One, 0, 0⟩
  let c1 := q.rot ⟨0, f32One, 0⟩
  let c2 := q.rot ⟨0, 0, f32One⟩
  [[c0.x, c1.x, c2.x], [c0.y, c1.y, c2.y], [c0.z, c1.z, c2.z]]

/-- The product of two matrices given by rows. -/
def matMul (a b : List (List (BitVec 32))) : List (List (BitVec 32)) :=
  a.map fun r => (List.range ((b.head?.getD []).length)).map fun j =>
    ((r.zip b).map fun p => fp32Mul p.1 (p.2.getD j 0)).foldl fp32Add 0

/-- The transpose of an n by n matrix. -/
def transpose (n : Nat) (a : List (List (BitVec 32))) : List (List (BitVec 32)) :=
  (List.range n).map fun j => a.map fun r => r.getD j 0

/-- An element of the symmetric 6 by 6 matrix whose upper triangle is stored row by row (R300). -/
def covAt (c : List (BitVec 32)) (i j : Nat) : BitVec 32 :=
  let r := min i j
  c.getD (6 * r - r * (r - 1) / 2 + (max i j - r)) 0

/-- A pose covariance whose error rotation is expressed in another frame, its rotation being M: δθ' = M δθ (R300, R315). -/
def rotateCov (m : List (List (BitVec 32))) (c : List (BitVec 32)) : List (BitVec 32) :=
  let t : List (List (BitVec 32)) := (List.range 6).map fun i => (List.range 6).map fun j =>
    if i < 3 || j < 3 then (if i = j then f32One else 0) else (m.getD (i - 3) []).getD (j - 3) 0
  let full := (List.range 6).map fun i => (List.range 6).map fun j => covAt c i j
  let r := matMul (matMul t full) (transpose 6 t)
  (List.range 6).flatMap fun i => (r.getD i []).drop i

end Sys2Proof.Machine
end

