-- ==== Sys2Proof/Machine/DenOps.lean ====
section
/-! DEFINITION. Den and the map (chapter 12): regions, map writes, records, hot and cold keyframes, the place index. -/

namespace Sys2Proof.Machine

/-! ### Regions (Table 12-1) -/

/-- DRAM_TOP. -/
def Block.dramTop (b : Block) : Nat := 0x100000000 + (if b.den.dramAbsent then 0 else b.den.usableMib.toNat * 2 ^ 20)

/-- The end of the DRAM pool. -/
def Block.poolEnd (b : Block) : Nat := b.dramTop - 2 ^ 26

/-- The region of an address, in the row order of Table 12-1 from 0; none where no memory is present (R396). -/
def Block.region (b : Block) (a : Nat) : Option Nat :=
  if a < 0x80000 then some 0
  else if a < 0x100000 then some 1
  else if a < 0x180000 then some 2
  else if a < 0x2C0000 then some 3
  else if a < 0x340000 then some 4
  else if a < 0x400000 then some 5
  else if a < 0x2000000 then some 6
  else if a < 0x100000000 || b.dramTop ≤ a then none
  else if b.poolEnd ≤ a then some 11
  else if a < 0x105000000 then some 7
  else if a < 0x126000000 then some 8
  else if a < 0x130000000 then some 9
  else some 10

/-- The SRAM bank of an address (R399). -/
def sramBank (a : Nat) : Nat := a / 64 % 64

/-- The channel of an address's DRAM offset with 4, 2 or 1 channels in use, counted among the channels in use (R406). -/
def dramChannel (inUse a : Nat) : Nat :=
  let o := a - 0x100000000
  match inUse with
  | 4 => o / 256 % 4
  | 2 => o / 256 % 2
  | _ => 0

/-- The regions that only the Ranger pairs touch (R396, R397). -/
def isProtected (r : Nat) : Bool := r == 0 || r == 1 || r == 2 || r == 4 || r == 5 || r == 11

/-- The start of the next region above an address that a range may run into. -/
def regionEdges (b : Block) : List Nat :=
  [0x80000, 0x100000, 0x180000, 0x2C0000, 0x340000, 0x400000, 0x2000000, 0x100000000, 0x105000000, 0x126000000, 0x130000000,
   b.poolEnd, b.dramTop]

/-- Whether every byte of a range is present and outside the protected regions (R428). -/
def Block.openRange (b : Block) (base len : Nat) : Bool :=
  (base :: (regionEdges b).filter fun e => decide (base < e) && decide (e < base + len)).all fun a =>
    match b.region a with
    | some r => !isProtected r
    | none => false

/-! ### Writing a stored parcel (R402, R403, R414) -/

/-- Writes bytes to Den; a write of a whole granule ends its uncorrectable error (R569). -/
def Block.denWrite (a : Nat) (bs : Bytes) (b : Block) : Block :=
  { b with den := { b.den with
      mem := memWriteBytes b.den.mem a bs
      ue := b.den.ue.filter fun g => !(decide (a ≤ 64 * g) && decide (64 * g + 64 ≤ a + bs.length)) } }

/-- TYPE of a map object (Table 12-3). -/
def mapType : MapKind → Nat
  | .kfHead => 0x0701 | .kfObs => 0x0702 | .points => 0x0703 | .edges => 0x0704 | .postings => 0x0705

/-- STREAM of a map object (Table 12-3). -/
def mapStream : MapKind → Nat
  | .kfHead => 0xE0 | .kfObs => 0xE1 | .points => 0xE2 | .edges => 0xE3 | .postings => 0xE4

/-- KIND in a guest head (Table 13-4); POSTINGS have none. -/
def mapGuestKind : MapKind → Option Nat
  | .kfHead => some 1 | .kfObs => some 2 | .points => some 3 | .edges => some 4 | .postings => none

/-- The lineage inputs of a map write: the previous version at the address, then the parcels taken in (R414). -/
def Block.mapInputs (kind : MapKind) (a : Nat) (ins : List InRef) (b : Block) : List InRef :=
  match b.storedAt a with
  | some p => if p.type == BitVec.ofNat 16 (mapType kind) then p.ref :: ins else ins
  | none => ins

/-- The parcel that the pair in control seals for a map write. -/
def Block.mapParcel (kind : MapKind) (a : Nat) (payload : Bytes) (ins : List InRef) (b : Block) : Parcel :=
  b.flowParcel (mapStream kind) (mapType kind) b.control payload (b.mapInputs kind a ins)

/-- Stores a map object without publishing it, as hot and cold moves do (R414, R423, R427). -/
def Block.storeMap (kind : MapKind) (a : Nat) (payload : Bytes) (ins : List InRef) (b : Block) : Block :=
  let p := b.mapParcel kind a payload ins
  let i := b.mapInputs kind a ins
  let b1 := { b with host := b.host.flowStep b.control (BitVec.ofNat 8 (mapStream kind)) }
  Block.trace p i (b1.denWrite a p.stored)

/-- A guest head (Table 13-4). -/
def guestHead (slot kind gen : Nat) (fragNo gid : Nat) : Bytes :=
  leBytes 1 slot ++ leBytes 1 kind ++ leBytes 2 gen ++ leBytes 4 fragNo ++ leBytes 8 gid ++ List.replicate 16 0

/-- Emits a record on stream 6 as an export; its FRAG_NO is open, hence free (log entry 5). -/
def Block.guestOut (kind : Nat) (body : Bytes) (ins : List InRef) (b : Block) : Block :=
  Block.drew (b.emit 6 0x0810 b.control (guestHead 0xFF kind 0 (b.freeNow.toNat % 2 ^ 32) 0 ++ body) ins)

/-- Whether a map object counts as one with GUEST set (R458): the head's flag, the keyframe's of an observation parcel, and every
valid record's of a points or edges parcel (log entry 13). -/
def Block.guestObject (kind : MapKind) (payload : Bytes) (b : Block) : Bool :=
  let recs (size n : Nat) : List Bytes := (List.range n).map fun i => slice payload (16 + size * i) size
  match kind with
  | .kfHead => field payload 4 4 / 2 % 2 == 1
  | .kfObs =>
    match b.map.kfs.find? fun k => k.id == field payload 0 4 with
    | some k => field (b.object (kfAddr k)) 4 4 / 2 % 2 == 1
    | none => false
  | .points =>
    let vs := (recs 64 63).filter fun r => field r 22 1 % 2 == 1
    !vs.isEmpty && vs.all fun r => field r 22 1 / 2 % 2 == 1
  | .edges =>
    let vs := (recs 80 50).filter fun r => field r 79 1 % 2 == 1
    !vs.isEmpty && vs.all fun r => field r 78 1 == 2
  | .postings => false

/-- The GUEST_ID of a member (R544). -/
def memberGid (chip : Nat) : Nat := 0x48414C4C00000000 + chip

/-- Queues one object of the map as a fragment for the collector (R545). -/
def Block.queueFrag (kind : Nat) (p : Parcel) (b : Block) : Block :=
  match b.trail.joined with
  | none => b
  | some (slot, gen) =>
    let pay := guestHead slot.toNat kind gen.toNat b.trail.nextFrag.toNat (memberGid b.trail.chip.toNat) ++ p.payload
    let f := b.flowParcel 0xFF 0x0801 b.control pay [p.ref]
    let b1 := Block.trace f [p.ref] { b with host := b.host.flowStep b.control 0xFF }
    { b1 with trail := { b1.trail with toSend := b1.trail.toSend ++ [f], nextFrag := b1.trail.nextFrag + 1 } }

/-- One map write: the stored parcel, MAP_DELTA on stream 3 (R427), GUEST_OUT on stream 6 while a slot is MERGED (R458), and a
member's fragment (R545). -/
def Block.putMap (kind : MapKind) (a : Nat) (payload : Bytes) (ins : List InRef) (b : Block) : Block :=
  let p := b.mapParcel kind a payload ins
  let b1 := b.storeMap kind a payload ins
  let b2 := b1.emit 3 0x0710 b.control (p.header ++ p.payload ++ leBytes 8 p.sealWord.toNat) [p.ref]
  match mapGuestKind kind with
  | some k =>
    if (b.host.streams.getD 6 {}).isOpen && b.guests.any (fun g => g.st == .merged) && !(b.guestObject kind payload)
    then (b2.guestOut k payload [p.ref]).queueFrag k p else b2.queueFrag k p
  | none => b2

/-! ### MAP_FULL and the pool (R417, R418) -/

/-- MAP_FULL of a kind: once per kind per session on stream 2, and DEN_STATUS.MAP_FULL. -/
def Block.mapFull (kind : Nat) (b : Block) : Block :=
  let b1 := { b with den := { b.den with mapFull := true }, map := { b.map with saidFull := setBit b.map.saidFull (kind - 1) } }
  if b.map.saidFull.getLsbD (kind - 1) then b1 else b1.event 0x0027 noUnit (leBytes 8 kind)

/-- Room in the DRAM pool for n bytes, from the first free byte upward (log entry 14). -/
def Block.poolRoom (n : Nat) (b : Block) : Option Nat := if b.map.poolNext + n ≤ b.poolEnd then some b.map.poolNext else none

/-- Takes the pool up to an address. -/
def Block.poolTake (upTo : Nat) (b : Block) : Block := { b with map := { b.map with poolNext := max b.map.poolNext upTo } }

/-! ### Keyframes -/

/-- A directory entry. -/
def Block.kf (id : Nat) (b : Block) : Option KfDir := b.map.kfs.find? fun k => k.id == id

/-- The payload of a keyframe's head. -/
def Block.kfHead (id : Nat) (b : Block) : Bytes :=
  match b.kf id with
  | some k => b.object (kfAddr k)
  | none => []

/-- The least number below a bound that is not taken. -/
def lowestFree (bound : Nat) (taken : Nat → Bool) : Option Nat := (List.range bound).find? fun i => !taken i

/-- The lowest free keyframe ID (R417). -/
def Block.freeKf (b : Block) : Option Nat :=
  let n := match lowestFree (b.map.kfs.length + 1) fun i => b.map.kfs.any fun k => k.id == i with | some i => i | none => 0
  if n < 262144 then some n else none

/-- The lowest free hot slot (R424). -/
def Block.freeHot (b : Block) : Option Nat :=
  lowestFree (min 4096 (b.map.kfs.length + 1)) fun h => b.map.kfs.any fun k => k.hot == some h

/-- Sets HOT and HOT_SLOT in a head's payload (Table 12-4). -/
def withHot (h : Option Nat) (p : Bytes) : Bytes :=
  let p := fit 256 p
  let f := field p 4 1
  slice p 0 4 ++ [BitVec.ofNat 8 (2 * (f / 2) + h.isSome.toNat)] ++ slice p 5 23 ++ leBytes 2 (h.getD 0xFFFF) ++ p.drop 30

/-- Inserts a directory entry in ID order. -/
def kfInsert (k : KfDir) : List KfDir → List KfDir
  | [] => [k]
  | x :: xs => if x.id < k.id then x :: kfInsert k xs else if x.id = k.id then k :: xs else k :: x :: xs

/-- Changes the directory. -/
def Block.setKf (k : KfDir) (b : Block) : Block := { b with map := { b.map with kfs := kfInsert k b.map.kfs } }

/-- The keyframes of the VIO window: the newest of the engine's own (R365, R456). -/
def Block.windowKfs (b : Block) : List Nat :=
  lastN b.badger.keyframes ((b.map.kfs.filter fun k => field (b.object (kfAddr k)) 120 1 == 0xFF).map KfDir.id)

/-- Whether a keyframe is an input of a running job: in the span of a pose-graph job, or an own keyframe of an alignment job. -/
def Block.kfInJob (id : Nat) (b : Block) : Bool :=
  b.badger.jobs.any fun j =>
    (match j.span with | some (lo, hi) => decide (lo ≤ id) && decide (id ≤ hi) | none => false) ||
    (match j.guest with
     | some (s, _) => (b.guests.getD s {}).pairs.any fun p => p.2 == id
     | none => false)

/-- The hot keyframe that gives up its slot: the oldest last-observed epoch outside the VIO window and the running jobs, ties to the
lower ID (R424). -/
def Block.coldest (b : Block) : Option KfDir :=
  let win := b.windowKfs
  let seen (k : KfDir) : Nat := field (b.object (kfAddr k)) 112 8
  (b.map.kfs.filter fun k => k.hot.isSome && !win.contains k.id && !b.kfInJob k.id).foldl
    (fun (best : Option KfDir) k =>
      match best with
      | none => some k
      | some x => if seen k < seen x then some k else some x) none

/-- A keyframe becomes cold: the hot copy is written back with HOT clear and the slot is freed (R423). -/
def Block.makeCold (k : KfDir) (b : Block) : Block :=
  if k.hot.isSome && !b.den.dramAbsent then
    let p := b.object (kfAddr k)
    (b.storeMap .kfHead (headAddr k.id) (withHot none p) ((b.storedAt (kfAddr k)).map Parcel.ref).toList).setKf { k with hot := none }
  else b

/-- Frees a hot slot, making a keyframe cold when none is free (R424). -/
def Block.roomHot (b : Block) : Block :=
  if b.freeHot.isSome then b
  else match b.coldest with
  | some k => b.makeCold k
  | none => b

/-- A cold keyframe becomes hot: its DRAM head is written with HOT and HOT_SLOT, and the copy in the slot (R423). -/
def Block.makeHot (k : KfDir) (b : Block) : Block :=
  if k.hot.isSome then b
  else
    let b1 := b.roomHot
    match b1.freeHot with
    | none => b1
    | some h =>
      let p := withHot (some h) (b1.object (headAddr k.id))
      let b2 := b1.storeMap .kfHead (headAddr k.id) p []
      (b2.storeMap .kfHead (hotAddr h) p ((b2.storedAt (headAddr k.id)).map Parcel.ref).toList).setKf { k with hot := some h }

/-- A new keyframe: the lowest free ID (already in the payload), the lowest free hot slot, its DRAM head and its hot copy (R417,
R423, R424). Without DRAM the hot slots are all there is (R410). -/
def Block.newKf (id : Nat) (payload : Bytes) (ins : List InRef) (b : Block) : Block :=
  let b1 := b.roomHot
  match b1.freeHot with
  | none => if b.den.dramAbsent then b1.mapFull 1
            else (b1.putMap .kfHead (headAddr id) (withHot none payload) ins).setKf { id := id, hot := none }
  | some h =>
    let p := withHot (some h) payload
    let b2 := if b.den.dramAbsent then b1 else b1.storeMap .kfHead (headAddr id) p ins
    (b2.putMap .kfHead (hotAddr h) p ins).setKf { id := id, hot := some h }

/-- The first 4 KiB granule of the pool that is free (R402, log entry 14). -/
def Block.obsRoom (n : Nat) (b : Block) : Option Nat :=
  let a := (b.map.poolNext + 4095) / 4096 * 4096
  if a + 4096 * n ≤ b.poolEnd then some a else none

/-- A head's payload with its KF_OBS address. -/
def withObs (a : Nat) (p : Bytes) : Bytes := slice p 0 104 ++ leBytes 8 a ++ p.drop 112

/-! ### Records of points and edges (R416) -/

/-- A map point's record. -/
def Block.point (s : Nat) (b : Block) : Bytes := slice (b.object (pointsAddr (s / 63))) (16 + 64 * (s % 63)) 64

/-- Whether a point record is VALID. -/
def pointValid (r : Bytes) : Bool := field r 22 1 % 2 == 1

/-- An edge's record. -/
def Block.edgeRec (e : Nat) (b : Block) : Bytes := slice (b.object (edgesAddr (e / 50))) (16 + 80 * (e % 50)) 80

/-- Whether an edge record is VALID. -/
def edgeValid (r : Bytes) : Bool := field r 79 1 % 2 == 1

/-- A payload with record i of a size replaced. -/
def setRec (size i : Nat) (r payload : Bytes) : Bytes :=
  payload.take (16 + size * i) ++ fit size r ++ payload.drop (16 + size * i + size)

/-- Writes several map-point records, each parcel once (R414). -/
def Block.putPoints (recs : List (Nat × Bytes)) (ins : List InRef) (b : Block) : Block :=
  ((recs.map fun r => r.1 / 63).eraseDups).foldl (fun b i =>
    let old := b.object (pointsAddr i)
    let base := if old.isEmpty then fit 4048 (leBytes 4 (63 * i) ++ [63]) else fit 4048 old
    let new := (recs.filter fun r => r.1 / 63 == i).foldl (fun p r => setRec 64 (r.1 % 63) r.2 p) base
    let b1 := b.putMap .points (pointsAddr i) new ins
    { b1 with map := { b1.map with ptTop := max b1.map.ptTop (63 * i + 63) } }) b

/-- Writes several edge records, each parcel once (R414). -/
def Block.putEdges (recs : List (Nat × Bytes)) (ins : List InRef) (b : Block) : Block :=
  ((recs.map fun r => r.1 / 50).eraseDups).foldl (fun b i =>
    let old := b.object (edgesAddr i)
    let base := if old.isEmpty then fit 4016 (leBytes 4 (50 * i) ++ [50]) else fit 4016 old
    let new := (recs.filter fun r => r.1 / 50 == i).foldl (fun p r => setRec 80 (r.1 % 50) r.2 p) base
    let b1 := b.putMap .edges (edgesAddr i) new ins
    { b1 with map := { b1.map with edgeTop := max b1.map.edgeTop (50 * i + 50) } }) b

/-- A point record with VALID clear. -/
def pointFreed (r : Bytes) : Bytes := slice r 0 22 ++ [BitVec.ofNat 8 (2 * (field r 22 1 / 2))] ++ r.drop 23

/-- An edge record with VALID clear. -/
def edgeFreed (r : Bytes) : Bytes := slice r 0 79 ++ [BitVec.ofNat 8 (2 * (field r 79 1 / 2))]

/-- The lowest free map-point slot that no other choice has reserved (R417). -/
def Block.freePoint (reserved : List Nat) (b : Block) : Option Nat :=
  let n := b.map.ptTop + reserved.length + 1
  match lowestFree n fun s => pointValid (b.point s) || reserved.contains s with
  | some s => if s < 8388608 then some s else none
  | none => none

/-- The lowest free edge index (R417). -/
def Block.freeEdge (b : Block) : Option Nat :=
  match lowestFree (b.map.edgeTop + 1) fun e => edgeValid (b.edgeRec e) with
  | some e => if e < 2048000 then some e else none
  | none => none

/-! ### Observations -/

/-- The KF_OBS payloads of a keyframe, from its head. -/
def Block.kfObs (id : Nat) (b : Block) : List Bytes :=
  let h := b.kfHead id
  (List.range (field h 31 1)).map fun i => b.object (field h 104 8 + 4096 * i)

/-- The 48-byte records of KF_OBS payloads. -/
def obsRecords (ps : List Bytes) : List Bytes :=
  ps.flatMap fun p => (List.range (field p 5 1)).map fun i => slice p (16 + 48 * i) 48

/-- Culls the map points of a new keyframe where no Owl slot serves use 3 (R419). -/
def Block.cullDefault (id : Nat) (b : Block) : Block :=
  let slots := ((obsRecords (b.kfObs id)).map fun r => field r 0 4).eraseDups.filter fun s => s != 0xFFFFFFFF
  let cull := slots.filter fun s =>
    let r := b.point s
    pointValid r && decide (field r 24 4 + 5 ≤ id)
      && (decide (field r 20 2 < 3) || decide ((4 * 2 ^ 149 : Int) < fp32Num (BitVec.ofNat 32 (field r 16 4))))
  b.putPoints (cull.map fun s => (s, pointFreed (b.point s))) []

/-! ### The place index (R420 to R422) -/

/-- The bucket of a descriptor: bit i is descriptor bit 16 i. -/
def bucketOf (desc : Nat) : Nat := ((List.range 16).map fun i => if desc.testBit (16 * i) then 2 ^ i else 0).sum

/-- The place samples of observation records (R420). -/
def placeSamples (recs : List Bytes) : List Nat :=
  let m := max 1 ((recs.length + 255) / 256)
  ((List.range ((recs.length + m - 1) / m)).map fun i => bucketOf (field (recs.getD (m * i) []) 16 32)).take 256

/-- The posted entries of a bucket. -/
def Block.posted (key : Nat) (b : Block) : List Nat :=
  match b.map.buckets.find? fun x => x.key == key with
  | some x => x.chain.flatMap fun a =>
      let p := b.object a
      (List.range (field p 2 1)).map fun i => field p (16 + 4 * i) 4
  | none => []

/-- The candidates of a list of samples among keyframes that pass a test, with hits and the greater sample count: the 8 of highest
similarity that reach 0.05, equal ones to the lower ID (R422). -/
def Block.candidates (samples : List Nat) (ok : Nat → Bool) (b : Block) : List (Nat × Nat × Nat) :=
  let hits := samples.flatMap b.posted
  let cand := (b.map.kfs.filter fun k => ok k.id).filterMap fun k =>
    let h := (hits.filter fun x => x == k.id).length
    let n := max 1 (max samples.length (field (b.object (kfAddr k)) 124 2))
    if n ≤ 20 * h then some (k.id, h, n) else none
  let worse (x y : Nat × Nat × Nat) : Bool := x.2.1 * y.2.2 < y.2.1 * x.2.2 || (x.2.1 * y.2.2 == y.2.1 * x.2.2 && decide (y.1 ≤ x.1))
  (sortBy (fun x y => worse y x) cand).take 8

/-- The loop candidates of a new keyframe (R422), withheld while the index is rebuilt (Table 16-4). -/
def Block.loopCandidates (id : Nat) (b : Block) : List (Nat × Nat × Nat) :=
  if b.map.rebuild || b.den.dramAbsent then []
  else
    let win := b.windowKfs
    b.candidates (placeSamples (obsRecords (b.kfObs id))) fun j => j != id && !win.contains j && decide (30 < max j id - min j id)

/-- A POSTINGS parcel becomes its bucket's newest, or a rewrite of the newest (R421). -/
def Block.postAt (key addr count : Nat) (b : Block) : Block :=
  let old := b.map.buckets.find? fun x => x.key == key
  let chain := match old with
    | some x => if x.chain.contains addr then x.chain else addr :: x.chain
    | none => [addr]
  { b with map := { b.map with
      buckets := { key := key, chain := chain, count := count } :: b.map.buckets.filter fun x => x.key != key } }

/-- A new POSTINGS parcel chained to the bucket's previous one (R421). -/
def Block.newPosting (key id prev : Nat) (ins : List InRef) (b : Block) : Block :=
  match b.poolRoom 128 with
  | some a => ((b.poolTake (a + 128)).putMap .postings a
      (fit 80 (leBytes 2 key ++ leBytes 1 1 ++ [0] ++ leBytes 8 prev ++ leBytes 4 0 ++ leBytes 4 id)) ins).postAt key a 1
  | none => b.mapFull 4

/-- Posts one sample of a keyframe: into the bucket's newest parcel, or a new one when that holds 16 entries (R420, R421). -/
def Block.postSample (key id : Nat) (ins : List InRef) (b : Block) : Block :=
  match b.map.buckets.find? fun x => x.key == key with
  | some x =>
    if x.count < 16 then
      match x.chain with
      | a :: _ =>
        let p := fit 80 (b.object a)
        let n := x.count + 1
        let p' := leBytes 2 key ++ leBytes 1 n ++ slice p 3 (13 + 4 * x.count) ++ leBytes 4 id ++ p.drop (16 + 4 * n)
        (b.putMap .postings a (fit 80 p') ins).postAt key a n
      | [] => b
    else b.newPosting key id (x.chain.headD 0) ins
  | none => b.newPosting key id 0 ins

/-! ### Losing objects (Table 16-4) -/

/-- MAP_LOSS (Table 14-12). -/
def Block.mapLoss (kind first last : Nat) (b : Block) : Block :=
  b.event 0x0016 noUnit (leBytes 4 kind ++ leBytes 4 first ++ leBytes 4 last)

/-- Frees the valid edges that a test picks. -/
def Block.freeEdges (which : Bytes → Bool) (b : Block) : Block :=
  let es := (List.range b.map.edgeTop).filter fun e => edgeValid (b.edgeRec e) && which (b.edgeRec e)
  b.putEdges (es.map fun e => (e, edgeFreed (b.edgeRec e))) []

/-- Whether an edge record has a keyframe at either end. -/
def edgeTouches (ids : List Nat) (r : Bytes) : Bool := ids.contains (field r 0 4) || ids.contains (field r 4 4)

/-- The map object at an address is lost (Table 16-4). -/
def Block.loseObject (a : Nat) (b : Block) : Block :=
  match b.region a with
  | some 3 =>
    match b.map.kfs.find? fun k => k.hot == some ((a - 0x180000) / 320) with
    | some k => Block.mapLoss 1 k.id k.id
        ({ b with map := { b.map with kfs := b.map.kfs.filter fun x => x.id != k.id } }.freeEdges (edgeTouches [k.id]))
    | none => b
  | some 7 =>
    let id := (a - 0x100000000) / 320
    match b.kf id with
    | some k => if k.hot.isSome then b else Block.mapLoss 1 id id
        ({ b with map := { b.map with kfs := b.map.kfs.filter fun x => x.id != id } }.freeEdges (edgeTouches [id]))
    | none => b
  | some 8 => let i := (a - 0x105000000) / 4096
              if 63 * i < b.map.ptTop then b.mapLoss 3 (63 * i) (63 * i + 62) else b
  | some 9 => let i := (a - 0x126000000) / 4096
              if 50 * i < b.map.edgeTop then b.mapLoss 4 (50 * i) (50 * i + 49) else b
  | some 10 =>
    match b.map.kfs.find? fun k =>
        let h := b.object (kfAddr k)
        decide (field h 104 8 ≤ a) && decide (a < field h 104 8 + 4096 * field h 31 1) && field h 104 8 != 0 with
    | some k => b.mapLoss 2 k.id k.id
    | none =>
      match b.map.buckets.find? fun x => x.chain.any fun p => decide (p ≤ a) && decide (a < p + 128) with
      | some x => Block.mapLoss 5 x.key x.key { b with map := { b.map with
          buckets := b.map.buckets.map fun y => if y.key = x.key then
            { y with chain := y.chain.filter fun p => !(decide (p ≤ a) && decide (a < p + 128)) } else y } }
      | none => b
  | _ => b

end Sys2Proof.Machine
end

