-- ==== Sys2Proof/Machine/GuestOps.lean ====
section
/-! DEFINITION. Guest slots (chapter 13): the policy page, staging, the end of a stay, the outcome of an alignment. -/

namespace Sys2Proof.Machine

/-! ### The guest policy page (Table 13-2) -/

/-- A field of the guest policy page of a set, with its default when the page is absent (R440). -/
def guestIn (set : List Memory) (off n dflt : Nat) : Nat :=
  match pagePos set 9 0 with
  | some i => memField (set.getD i []) off n
  | none => dflt

/-- A field of the active policy. -/
def Block.guestF (b : Block) (off n dflt : Nat) : Nat := guestIn b.cfg.active off n dflt

def Block.maxSlots (b : Block) : Nat := b.guestF 16 1 64
def Block.minAlignKf (b : Block) : Nat := b.guestF 17 1 3
def Block.alignAttempts (b : Block) : Nat := b.guestF 18 1 3
def Block.evictPurges (b : Block) : Bool := b.guestF 19 1 0 == 1
def Block.idleEpochs (b : Block) : Nat := b.guestF 20 2 600
def Block.mergePerEpoch (b : Block) : Nat := b.guestF 22 2 64
def Block.stageBytes (b : Block) : Nat := b.guestF 24 4 4194304
def Block.maxKf (b : Block) : Nat := b.guestF 28 4 4096
def Block.maxPoints (b : Block) : Nat := b.guestF 32 4 262144
def Block.minInliers (b : Block) : Nat := b.guestF 36 2 40
def Block.matchHamming (b : Block) : Nat := b.guestF 38 1 64
/-- ALIGN_MAX_RMS, 0.10 by default. -/
def Block.maxRms (b : Block) : BitVec 32 := BitVec.ofNat 32 (b.guestF 40 4 0x3DCCCCCD)
/-- GA_MIN_SIM, 0.10 by default. -/
def Block.minSim (b : Block) : BitVec 32 := BitVec.ofNat 32 (b.guestF 44 4 0x3DCCCCCD)

/-! ### Slots -/

/-- A guest slot. -/
def Block.guest (b : Block) (s : Nat) : Guest := b.guests.getD s {}

/-- Changes a guest slot. -/
def Block.onGuest (s : Nat) (f : Guest → Guest) (b : Block) : Block := { b with guests := b.guests.modify s f }

/-- The next generation, which skips 0 (R437). -/
def nextGen (g : BitVec 16) : BitVec 16 := if g = 0xFFFF then 1 else g + 1

/-- Whether a slot accepts fragments (Table 13-1). -/
def GuestSt.accepts (s : GuestSt) : Bool := s == .arriving || s == .aligning || s == .merged

/-- A record on stream 6 about one guest (R459, R464); its FRAG_NO is open, hence free (log entry 5). -/
def Block.guestRecord (s kind : Nat) (body : Bytes) (ins : List InRef) (b : Block) : Block :=
  let g := b.guest s
  Block.drew (b.emit 6 0x0810 b.control
    (guestHead s kind g.gen.toNat (b.freeNow.toNat % 2 ^ 32) g.gid.toNat ++ body) ins)

/-- Ends a stay (R460): EVICTING, the staging discarded, an alignment job abandoned (R462). -/
def Block.evict (s cause : Nat) (b : Block) : Block :=
  let g := b.guest s
  let b1 := b.onGuest s fun g => { g with
    st := .evicting, staged := [], bytes := 0, cause := BitVec.ofNat 8 cause, since := b.ep.now.toNat, job := none, purged := 0,
    purge := if b.evictPurges then g.kfMap.map fun k => BitVec.ofNat 32 k.2 else [] }
  { b1 with badger := { b1.badger with jobs := b1.badger.jobs.filter fun j => !(j.guest == some (s, g.gen)) } }

/-- Discards a slot's staged fragments after a memory fault in its staging (Table 16-4). They can be sent again, so its last FRAG_NO
returns to that of its last merged fragment (log entry 15). -/
def Block.dropStaging (s : Nat) (b : Block) : Block :=
  b.onGuest s fun g =>
    let merged (k : BitVec 32) : Bool := g.kfMap.any fun m => m.1 == k
    { g with staged := [], bytes := 0, lastFrag := g.mergedFrag, kfs := g.kfs.filter merged, obsKfs := g.obsKfs.filter merged }

/-! ### Alignment (R448 to R452) -/

/-- A failed attempt (R452). -/
def Block.alignFailed (s cause : Nat) (b : Block) : Block :=
  let g := b.guest s
  let n := g.attempts + 1
  let b1 := b.onGuest s fun g => { g with
    st := .arriving, attempts := n, job := none, alignAt := g.kfs.length + b.minAlignKf }
  let b2 := b1.event 0x0032 noUnit ([BitVec.ofNat 8 s, BitVec.ofNat 8 n] ++ leBytes 2 g.gen.toNat ++ [BitVec.ofNat 8 cause, 0, 0, 0]
    ++ leBytes 4 g.corrs.length)
  if b.alignAttempts ≤ n then b2.evict s 3 else b2

/-- The position of a guest map point in the staged fragments: its record's bytes. -/
def guestPoint (staged : List Parcel) (gid : Nat) : Option Bytes :=
  staged.findSome? fun p =>
    if field p.payload 1 1 == 3 then
      let body := p.payload.drop 32
      let first := field body 0 4
      let r := slice body (16 + 64 * (gid - first)) 64
      if first ≤ gid && gid < first + 63 && pointValid r then some r else none
    else none

/-! ### The similarity of a stay (R450, R455; log entry 96) -/

/-- s, q_WG and t_WG of the seven unknowns, which stand as translation, rotation vector and ln s in the order of R459. -/
def similarity (v : List (BitVec 32)) : List (BitVec 32) :=
  let w (i : Nat) : BitVec 32 := v.getD i 0
  [fp32Exp (w 6)] ++ (expQ ⟨w 3, w 4, w 5⟩).pos.words ++ [w 0, w 1, w 2]

/-- Its scale, rotation and translation. -/
def simScale (x : List (BitVec 32)) : BitVec 32 := x.getD 0 0
def simRot (x : List (BitVec 32)) : Q4 := ⟨x.getD 1 0, x.getD 2 0, x.getD 3 0, x.getD 4 0⟩
def simShift (x : List (BitVec 32)) : V3 := ⟨x.getD 5 0, x.getD 6 0, x.getD 7 0⟩

/-- A position brought from G to W (R455). -/
def simPoint (x : List (BitVec 32)) (p : V3) : V3 := (((simRot x).rot p).scale (simScale x)).add (simShift x)

/-- A symmetric 6 by 6 matrix of 21 FP16 after T·C·Tᵀ, T holding two 3 by 3 blocks on its diagonal. -/
def blockCov (a m : List (List (BitVec 32))) (c : Bytes) : Bytes :=
  let vals := (List.range 21).map fun i => fp32Of (fp16Num (field c (2 * i) 2)) (2 ^ 24)
  let at_ (k : List (List (BitVec 32))) (i j : Nat) : BitVec 32 := (k.getD i []).getD j 0
  let t : List (List (BitVec 32)) := (List.range 6).map fun i => (List.range 6).map fun j =>
    if i < 3 ∧ j < 3 then at_ a i j else if 3 ≤ i ∧ 3 ≤ j then at_ m (i - 3) (j - 3) else 0
  let full := (List.range 6).map fun i => (List.range 6).map fun j => covAt vals i j
  let r := matMul (matMul t full) (transpose 6 t)
  (List.range 6).flatMap fun i => ((r.getD i []).drop i).flatMap fun v => leBytes 2 (fp16Of (fp32Num v) (2 ^ 149))

/-- A matrix times a number. -/
def scaleMat (k : BitVec 32) (m : List (List (BitVec 32))) : List (List (BitVec 32)) := m.map fun r => r.map (fp32Mul k)

/-- A guest keyframe's pose and covariance in W: a KF_HEAD's bytes 32 to 101. -/
def simHead (x : List (BitVec 32)) (h : Bytes) : Bytes :=
  let m := (simRot x).matrix
  wordBytes ((simPoint x (v3At h 0)).words ++ ((simRot x).mul (q4At h 12)).pos.words) ++ blockCov (scaleMat (simScale x) m) m (h.drop 28)

/-- A guest map point in W: its bytes 0 to 15, the depth variance scaled by s². -/
def simMark (x : List (BitVec 32)) (r : Bytes) : Bytes :=
  wordBytes ((simPoint x (v3At r 0)).words ++ [fp32Mul (fp32Mul (simScale x) (simScale x)) (wordAt r 12 0)])

/-- A guest edge in W: its bytes 8 to 77. The relative translation scales by s, and its information by the inverse. -/
def simEdge (x : List (BitVec 32)) (r : Bytes) : Bytes :=
  let one : List (List (BitVec 32)) := [[f32One, 0, 0], [0, f32One, 0], [0, 0, f32One]]
  wordBytes ((v3At r 0).scale (simScale x)).words ++ slice r 12 16 ++ blockCov (scaleMat (fp32Div f32One (simScale x)) one) one (r.drop 28)

/-- The relative pose of the guest edge from a merged keyframe to its pair, from both heads, and its information (R455). -/
def pairEdge (h own : Bytes) : Bytes :=
  let q := (q4At h 44).conj
  wordBytes ((q.rot ((v3At own 32).sub (v3At h 32))).words ++ (q.mul (q4At own 44)).pos.words) ++ fit 42 (Config.guestInfo h own)

/-- Three FP32 values of a record as exact numbers in units of 2^-149. -/
def vec3 (r : Bytes) (off : Nat) : List Int := (List.range 3).map fun i => fp32Num (BitVec.ofNat 32 (field r (off + 4 * i) 4))

/-- The squared residual |s·R(q)·p_G + t − p_W|² of R450, exact, in units of 2^-1192. -/
def residual2 (x : List (BitVec 32)) (pg pw : List Int) : Nat :=
  let n (i : Nat) : Int := fp32Num (x.getD i 0)
  let s := n 0
  let qw := n 1; let qx := n 2; let qy := n 3; let qz := n 4
  let a := pg.getD 0 0; let b := pg.getD 1 0; let c := pg.getD 2 0
  let r0 := (qw*qw + qx*qx - qy*qy - qz*qz) * a + 2 * (qx*qy - qw*qz) * b + 2 * (qx*qz + qw*qy) * c
  let r1 := 2 * (qx*qy + qw*qz) * a + (qw*qw - qx*qx + qy*qy - qz*qz) * b + 2 * (qy*qz - qw*qx) * c
  let r2 := 2 * (qx*qz - qw*qy) * a + 2 * (qy*qz + qw*qx) * b + (qw*qw - qx*qx - qy*qy + qz*qz) * c
  let e (r : Int) (i : Nat) : Int := s * r + (n (5 + i) - pw.getD i 0) * 2 ^ 447
  ((e r0 0) * (e r0 0) + (e r1 1) * (e r1 1) + (e r2 2) * (e r2 2)).toNat

/-- The squared residuals of a slot's correspondences under a similarity. -/
def Block.alignResiduals (s : Nat) (x : List (BitVec 32)) (b : Block) : List Nat :=
  (b.guest s).corrs.map fun c => residual2 x (vec3 c.2.2 0) (vec3 (b.point c.2.1) 0)

/-- The outcome of an alignment job for a slot still ALIGNING in the generation (R451, R452, R462), under the limits of the job's set (R101);
a job with no solution gives none. `result` names its BADGER_RESULT parcel. -/
def Block.alignResult (s : Nat) (gen : BitVec 16) (limits : Nat × BitVec 32) (sol : Option (List (BitVec 32) × List (BitVec 32))) (result : List InRef)
    (b : Block) : Block :=
  let g := b.guest s
  if g.st != .aligning || g.gen != gen then b
  else match sol with
  | none => b.alignFailed s 2
  | some (v, cov) =>
    let x := similarity v
    let lim := (fp32Num limits.2).toNat
    let ins := (b.alignResiduals s x).filter fun r => r ≤ 9 * lim * lim * 2 ^ 894
    let sum := ins.sum
    let rms := fp32Sqrt sum (max 1 ins.length * 2 ^ 1192)
    if ins.length < limits.1 then b.alignFailed s 3
    else if ins.length * lim * lim * 2 ^ 894 < sum then b.alignFailed s 4
    else
      let b1 := b.onGuest s fun g => { g with
        st := .merged, job := none, xform := x, inliers := ins.length, rms := rms
        ptMap := (g.corrs.map fun c => (BitVec.ofNat 32 c.1, c.2.1)) ++ g.ptMap }
      let b2 := b1.event 0x0031 noUnit (leBytes 2 s ++ leBytes 2 g.gen.toNat ++ leBytes 4 ins.length ++ leBytes 4 rms.toNat
        ++ leBytes 4 (x.getD 0 0).toNat)
      b2.guestRecord s 6 (((List.range 8).flatMap fun i => leBytes 4 (x.getD i 0).toNat) ++ leBytes 4 rms.toNat ++ leBytes 4 ins.length
        ++ leBytes 4 ((g.pairs.head?.map Prod.snd).getD 0)
        ++ (List.range 28).flatMap fun i => leBytes 4 (cov.getD i 0).toNat) result

end Sys2Proof.Machine
end

