-- ==== Sys2Proof/Machine/BadgerOps.lean ====
section
/-! DEFINITION. The solver (chapter 11): parameters, range tables and fences, jobs and how they end. -/

namespace Sys2Proof.Machine

/-! ### Parameters (Table 11-2) and roles (Table 11-5) -/

/-- A solver parameter of the active set. -/
def Block.solver (b : Block) (off n : Nat) : Nat := memField (corePage b.cfg.active) off n

def Block.vioDeadline (b : Block) : Nat := b.solver 256 4
def Block.vioCarry (b : Block) : Bool := b.solver 260 1 == 1
def Block.pgCarry (b : Block) : Bool := b.solver 261 1 == 1
def Block.gaCarry (b : Block) : Bool := b.solver 262 1 == 1
def Block.pgDeadline (b : Block) : Nat := b.solver 264 4
def Block.gaDeadline (b : Block) : Nat := b.solver 268 4
def Block.lambda0 (b : Block) : Nat := b.solver 284 4
def Block.stillClass (b : Block) : Nat := b.solver 289 1
def Block.carryLimit (b : Block) : Nat := b.solver 296 2

/-- A solver parameter of the set that a job runs under (R101). -/
def Job.param (j : Job) (off n : Nat) : Nat := memField j.core off n

def Job.kReg (j : Job) : Nat := j.param 263 1
def Job.tauLog2 (j : Job) : Nat := j.param 272 1
def Job.resEps (j : Job) : Nat := j.param 274 2
def Job.pcgEps (j : Job) : Nat := j.param 276 2
def Job.stepMin (j : Job) : Nat := j.param 280 4
def Job.maxOuter (j : Job) : Nat := j.param 288 1
def Job.maxPcg (j : Job) : Nat := j.param 290 2

/-- The unit ID of a tile (Table 05-4). -/
def tileUnit (t : Nat) : BitVec 8 := BitVec.ofNat 8 (0x60 + t)

/-- The assembler's unit ID. -/
def assembler : BitVec 8 := 0x70

/-! ### Range tables (R369 to R372) -/

/-- The entries of a range-table section (Table 11-4) as formats. -/
def rangeEntries (sec : Bytes) : List Fmt :=
  (List.range (field sec 8 2)).map fun i =>
    { role := sec.getD (16 + 4 * i) 0, kind := sec.getD (17 + 4 * i) 0, frac := field sec (18 + 4 * i) 1, acc := field sec (19 + 4 * i) 1 }

/-- The entry of a table for a role and a kind: the matching one, or the same role with kind 0 (R369). -/
def fmtIn (t : List Fmt) (role kind : BitVec 8) : Option Fmt :=
  match t.find? fun f => f.role == role && f.kind == kind with
  | some f => some f
  | none => t.find? fun f => f.role == role && f.kind == 0

/-- A job's formats at its start: the hamper's section for its class, and the built-in table for the roles it leaves out (R369). -/
def Block.startFmts (b : Block) (cls : Nat) : List Fmt :=
  let built := rangeEntries (Config.builtinRanges (Fin.ofNat 4 cls))
  match b.boot.ranges.getD cls none with
  | some sec =>
    let own := rangeEntries sec
    own ++ built.filter fun f => own.all fun g => g.role != f.role
  | none => built

/-- The format that a block of a role and kind at a row and column has in a job now. -/
def Job.fmt (j : Job) (role kind : BitVec 8) (row col : BitVec 32) : Fmt :=
  match j.lows.find? fun l => l.1 == row && l.2.1 == col && l.2.2.role == role && l.2.2.kind == kind with
  | some l => l.2.2
  | none =>
    let f := (fmtIn j.fmts role kind).getD { role := role, kind := kind, frac := 0, acc := 0 }
    { f with role := role, kind := kind }

/-- The job after a trip: the output block's FRAC and ACC_FRAC lowered by one, the trip counted (R371, R372). -/
def Job.lowered (j : Job) (f : Fmt) (row col : BitVec 32) : Job :=
  { j with
    lows := (row, col, { f with frac := f.frac - 1, acc := f.acc - 1 }) ::
      j.lows.filter fun l => !(l.1 == row && l.2.1 == col && l.2.2.role == f.role && l.2.2.kind == f.kind)
    trips := j.trips + 1, opTrips := j.opTrips + 1 }

/-- Whether a trip raises RANGE_FAULT (R372). -/
def tripFaults (j : Job) (f : Fmt) : Bool := f.frac == 0 || decide (3 ≤ j.opTrips)

/-! ### Jobs -/

/-- A job. -/
def Block.job (n : Nat) (b : Block) : Option Job := b.badger.jobs.find? fun j => j.no == n

/-- Changes a job. -/
def Block.onJob (n : Nat) (f : Job → Job) (b : Block) : Block :=
  { b with badger := { b.badger with jobs := b.badger.jobs.map fun j => if j.no == n then f j else j } }

/-- A unit seals a parcel for the solver's own use: it draws a SEQ and is traced, but no other consumer waits for it (R363). -/
def Block.sealOnly (type : Nat) (unit : BitVec 8) (payload : Bytes) (ins : List InRef) (b : Block) : Block :=
  Block.trace (b.flowParcel 0xFF type unit payload ins) ins { b with host := b.host.flowStep unit 0xFF }

/-- Whether a job has a higher priority than another (R356): VIO, then the engine's jobs, then host jobs, each in submission order. -/
def Job.before (x y : Job) : Bool :=
  let rank (j : Job) : Nat := if j.host then 2 else if j.cls = 0 then 0 else 1
  decide (rank x < rank y) || (rank x == rank y && decide (x.no < y.no))

/-- The job of highest priority. -/
def Badger.first (x : Badger) : Option Nat :=
  (x.jobs.foldl (fun (a : Option Job) j => match a with | some k => if j.before k then some j else a | none => some j) none).map Job.no

/-- Every tile that works for no job takes up the one of highest priority. -/
def Badger.deal (x : Badger) : Badger :=
  { x with tiles := x.tiles.map fun t => match t with
    | some n => if x.jobs.any fun j => j.no == n then some n else x.first
    | none => x.first }

/-- A job is submitted: the tiles that are free take up the first of those before it, or it (R356). -/
def Badger.submit (j : Job) (x : Badger) : Badger :=
  let y := x.deal
  Badger.deal { y with jobs := y.jobs ++ [{ j with no := y.nextNo }], nextNo := y.nextNo + 1 }

/-- The PROBLEM payload that the assembler seals (Table 11-3); the Den addresses are the plan's and open (log entry 5). -/
def Block.problemPayload (j : Job) (rows landmarks blocks factors : Nat) (still : Bool) (b : Block) : Bytes :=
  [j.cls, BitVec.ofNat 8 j.pcg.toNat, BitVec.ofNat 8 j.carry.toNat, BitVec.ofNat 8 (still.toNat + 2 * j.loopApplied.toNat)]
    ++ leBytes 4 j.gen.toNat ++ leBytes 8 (j.deadline.getD 0) ++ leBytes 4 rows ++ leBytes 4 landmarks ++ leBytes 4 blocks
    ++ leBytes 4 factors ++ leBytes 8 b.freeNow.toNat ++ leBytes 8 b.drew.freeNow.toNat ++ leBytes 4 j.tag.toNat ++ List.replicate 12 0

/-- The engine's job with the assembler's PROBLEM parcel (R359), whose inputs are the parcels of the problem (R163). -/
def Block.assemble (j : Job) (rows landmarks blocks factors : Nat) (still : Bool) (b : Block) : Block :=
  let pay := b.problemPayload j rows landmarks blocks factors still
  let b1 := b.sealOnly 0x0601 assembler pay j.inputs
  let k : Job := { j with rows := rows, marks := landmarks, problem := some (b.flowParcel 0xFF 0x0601 assembler pay j.inputs) }
  Block.drew <| Block.drew { b1 with badger := b1.badger.submit k }

/-- A fresh job of a class in the present epoch (R369, R379). -/
def Block.freshJob (cls : Nat) (pcg carry : Bool) (deadline : Option Tick) (ins : List InRef) (b : Block) : Job :=
  { no := 0, cls := BitVec.ofNat 8 cls, pcg := pcg, carry := carry, deadline := deadline, owner := none,
    tag := BitVec.ofNat 32 b.ep.now.toNat, gen := b.cfg.gen, epoch := b.ep.now.toNat, fmts := b.startFmts cls, inputs := ins,
    init := [], x := [], lam := b.lambda0, core := corePage b.cfg.active }

/-- An initial estimate of n unknowns that the spec does not state, hence free (log entry 5). -/
def Block.freeVec (n : Nat) (b : Block) : List (BitVec 32) :=
  (List.range n).map fun i => (Config.freeValue (b.fresh + i)).setWidth 32

/-- The block after n free values were drawn. -/
def Block.drewN (n : Nat) (b : Block) : Block := { b with fresh := b.fresh + n }

/-! ### Outcomes (R382 to R390, Table 11-7) -/

/-- What a job's end publishes: the vector, and whether it is PARTIAL or CARRIED; none when there is no solution (Table 11-7). -/
def Job.published (j : Job) (e : JobEnd) : Option (List (BitVec 32) × Bool × Bool) :=
  match e with
  | .converged => some (j.x, false, false)
  | _ => if !j.carry then none else if 0 < j.accepted then some (j.x, true, false) else some (j.init, false, true)

/-- The status of a host job that ends without a solution (R390), and the outcome code of VIO_MISS. -/
def endStatus : JobEnd → Nat
  | .converged => stOk
  | .deadline => stMiss
  | .cap => stCap
  | .rangeFault => stRange

/-- The outcome code of VIO_MISS and LOOP_NOT_APPLIED (Table 14-12). -/
def endCode : JobEnd → Nat
  | .converged => 0 | .deadline => 1 | .cap => 2 | .rangeFault => 3

/-- An iteration count's byte; a count that does not fit has no stated value, so it is free (log entry 5). -/
def countByte (n : Nat) : BitVec 8 := if n < 256 then BitVec.ofNat 8 n else (Config.freeValue n).setWidth 8

/-- The BADGER_RESULT payloads of a vector (R387). -/
def resultPayloads (j : Job) (x : List (BitVec 32)) (partialEnd carried rf : Bool) : List Bytes :=
  let n := max 1 ((x.length + 1015) / 1016)
  (List.range n).map fun i =>
    leBytes 4 j.tag.toNat ++ [j.cls, BitVec.ofNat 8 (partialEnd.toNat + 2 * carried.toNat + 4 * rf.toNat + 8 * j.illEver.toNat
      + 16 * j.breakdown.toNat), countByte j.accepted, countByte j.decided] ++ leBytes 4 j.cost32.toNat
      ++ leBytes 4 j.gen.toNat ++ leBytes 4 i ++ leBytes 4 n ++ List.replicate 8 0
      ++ ((x.drop (1016 * i)).take 1016).flatMap fun v => leBytes 4 v.toNat

/-- Publishes a job's results: host jobs on stream 5, engine jobs on internal stream 0xD9 (R387). -/
def Block.publish (j : Job) (payloads : List Bytes) (b : Block) : Block :=
  payloads.foldl (fun b p =>
    if j.host then b.emit 5 0x0603 (tileUnit j.lastTile) p j.inputs else b.flow 0xD9 0x0603 (tileUnit j.lastTile) p j.inputs) b

/-- A state with its quaternion's scalar part not negative (R299): words 3 to 6 of the VIO vector. -/
def positiveQuat (x : List (BitVec 32)) : List (BitVec 32) :=
  if (x.getD 3 0).getLsbD 31 then x.mapIdx fun i v => if 3 ≤ i && i ≤ 6 then v ^^^ 0x80000000 else v else x

/-- The SOLUTION payload (Table 11-8). -/
def Block.solutionPayload (j : Job) (partialEnd rf : Bool) (b : Block) : Bytes :=
  let words (n : Nat) (l : List (BitVec 32)) : Bytes := (List.range n).flatMap fun i => leBytes 4 (l.getD i 0).toNat
  fit 256 (leBytes 8 j.tc.toNat ++ leBytes 8 j.epoch
    ++ leBytes 4 (partialEnd.toNat + 2 * rf.toNat + 4 * j.illEver.toNat + 8 * j.still.toNat + 16 * j.loopApplied.toNat + 32 * j.dropped.toNat)
    ++ leBytes 4 j.gen.toNat ++ leBytes 1 j.accepted ++ leBytes 1 j.decided ++ leBytes 2 j.tracks ++ leBytes 4 j.cost32.toNat
    ++ words 16 (positiveQuat j.x) ++ words 21 j.cov ++ leBytes 4 b.afu.lastKf.toNat ++ leBytes 2 (min j.trips 0xFFFF)
    ++ leBytes 2 (min j.tinyAll 0xFFFF))

/-- The newest SOLUTION parcel. -/
def Block.solution (b : Block) : Option Parcel := b.afu.sol.map SolRec.parcel

/-- The WINDOW payload (R364): its layout is open, so its bytes are free (log entry 5). -/
def Block.windowPayload (b : Block) : Bytes := leBytes 8 b.freeNow.toNat

/-- A VIO job ends (R384 to R386). -/
def Block.vioEnd (j : Job) (e : JobEnd) (b : Block) : Block :=
  let rf : Bool := e == .rangeFault
  match j.published e with
  | some (_, part, false) =>
    let unit := tileUnit j.lastTile
    let pay := b.solutionPayload j part rf
    let p := b.flowParcel 0xD8 0x0610 unit pay j.inputs
    let b1 := b.flow 0xD8 0x0610 unit pay j.inputs
    let w := b1.flowParcel 0xFF 0x0611 unit b1.windowPayload j.inputs
    let b2 := (b1.sealOnly 0x0611 unit b1.windowPayload j.inputs).drew
    let placed : Bool := !b.badger.needReloc
    { b2 with
      badger := { b2.badger with window := some w, dryEpochs := 0 }
      afu := { b2.afu with
        sol := some { parcel := p, epoch := j.epoch, age := j.age.toNat, sealedAt := b.now, cams := j.cams,
                      priors := b2.afu.usedPriors, table := BitVec.ofNat 32 (b2.setting 5 0 16 4) }
        solPrev := b2.afu.sol
        preints := [], rangeFault := rf, carried := false
        noSol := !placed
        relocDue := b2.afu.relocDue || (j.loopApplied && placed) } }
  | some (_, _, true) =>
    { b with afu := { b.afu with carried := true, rangeFault := rf } }
  | none =>
    let b1 := { b with afu := { b.afu with noSolEpoch := true } }
    b1.event 0x0022 noUnit [BitVec.ofNat 8 (endCode e), BitVec.ofNat 8 j.decided]

/-- The keyframes that a pose-graph job covers, in ID order (R426). -/
def Block.spanKfs (lo hi : Nat) (b : Block) : List Nat :=
  lastN 65536 ((b.map.kfs.filter fun k => decide (lo ≤ k.id) && decide (k.id ≤ hi)).map KfDir.id)

/-- The pose that six unknowns of a node are: position, then rotation vector (R367, log entry 97). -/
def nodePose (d : List (BitVec 32)) : Bytes :=
  wordBytes ((List.range 3).map (fun i => d.getD i 0) ++ (expQ ⟨d.getD 3 0, d.getD 4 0, d.getD 5 0⟩).pos.words)

/-- The initial estimate of a pose-graph job: the poses of its keyframes as they stand. -/
def Block.spanInit (lo hi : Nat) (b : Block) : List (BitVec 32) :=
  (b.spanKfs lo hi).flatMap fun id => let h := b.kfHead id; (v3At h 32).words ++ (q4At h 44).log.words

/-- Writes one corrected keyframe pose (R367). -/
def Block.correctKf (id : Nat) (d : List (BitVec 32)) (ins : List InRef) (b : Block) : Block :=
  match b.kf id with
  | some k =>
    let h := fit 256 (b.object (kfAddr k))
    b.putMap .kfHead (kfAddr k) (slice h 0 32 ++ fit 28 (nodePose d) ++ h.drop 60) ins
  | none => b

/-- The engine's pose-graph job ends (R367, R384): corrected poses written and the window to be re-based, or LOOP_NOT_APPLIED. A CARRIED
result is the initial estimate and applies no loop (log entry 16). -/
def Block.loopEnd (j : Job) (e : JobEnd) (b : Block) : Block :=
  let ps (x : List (BitVec 32)) (part carried : Bool) : List Bytes := resultPayloads j x part carried (e == .rangeFault)
  let (new, cand) := j.loop.getD (0, 0)
  let refused (b : Block) : Block := b.event 0x0024 noUnit (leBytes 4 new ++ leBytes 4 cand ++ leBytes 1 (endCode e))
  match j.published e with
  | some (x, part, false) =>
    let r := (b.flowParcel 0xD9 0x0603 (tileUnit j.lastTile) ((ps x part false).headD []) j.inputs).ref
    let (lo, hi) := j.span.getD (0, 0)
    let b1 := ((b.spanKfs lo hi).zipIdx).foldl (fun b (id, i) => b.correctKf id ((x.drop (6 * i)).take 6) [r])
      (b.publish j (ps x part false))
    { b1 with badger := { b1.badger with pendLoop := true } }
  | some (x, _, true) => refused (b.publish j (ps x false true))
  | none => refused b

/-- The engine's guest-alignment job ends (R387, R451); a CARRIED result is no solution of the alignment (log entry 16). -/
def Block.alignEnd (j : Job) (e : JobEnd) (b : Block) : Block :=
  let (s, gen) := j.guest.getD (0, 0)
  let ps (x : List (BitVec 32)) (part carried : Bool) : List Bytes := resultPayloads j x part carried (e == .rangeFault)
  match j.published e with
  | some (x, part, false) =>
    let r := (b.flowParcel 0xD9 0x0603 (tileUnit j.lastTile) ((ps x part false).headD []) j.inputs).ref
    (b.publish j (ps x part false)).alignResult s gen j.limits (some (x, j.cov)) [r]
  | some (x, _, true) => (b.publish j (ps x false true)).alignResult s gen j.limits none []
  | none => b.alignResult s gen j.limits none []

/-- A host job ends (R387, R390): its results, then its completion. -/
def Block.hostEnd (j : Job) (e : JobEnd) (b : Block) : Block :=
  let pub := j.published e
  let emitAll (b : Block) : Block :=
    match pub with
    | some (x, part, carried) => b.publish j (resultPayloads j x part carried (e == .rangeFault))
    | none => b
  match j.owner with
  | some r => (b.forCmd r emitAll).finish r (if pub.isSome then stOk else endStatus e) j.accepted 0 0
  | none => b

/-- A job ends at its commit point (R382, R383). -/
def Block.jobEnd (n : Nat) (e : JobEnd) (b : Block) : Block :=
  match b.job n with
  | none => b
  | some j =>
    let b1 := { b with badger := Badger.deal { b.badger with jobs := b.badger.jobs.filter fun x => x.no != n } }
    if j.host then b1.hostEnd j e
    else if j.cls = 0 then b1.vioEnd j e
    else if j.cls = 1 then b1.loopEnd j e
    else b1.alignEnd j e

/-- Every job ends as though its deadline had arrived, when no tile is live (R577). -/
def Block.jobsWithoutTiles (b : Block) : Block :=
  if b.flt.tiles = 0 then b.badger.jobs.foldl (fun b j => b.jobEnd j.no .deadline) b else b

/-- Whether the loop of an iteration has reached its stop (R379). -/
def lmStops (resEps stepMin : Nat) (grad2 g0 : Int) (maxDx : Nat) : Bool :=
  decide (grad2 * 2 ^ 32 ≤ (resEps * resEps : Nat) * g0) || decide (maxDx < stepMin)

/-- The window and its prior are discarded: VIO starts again (R385, R603). -/
def Block.dropWindow (b : Block) : Block :=
  { b with
    badger := { b.badger with window := none, vioInit := false, initFrames := [], keyframes := 0, recents := 0,
                              jobs := b.badger.jobs.filter fun j => j.host || j.cls != 0 }
    afu := { b.afu with noSol := true } }

end Sys2Proof.Machine
end

