-- ==== Sys2Proof/Machine/TrailOps.lean ====
section
/-! DEFINITION. Trails (chapter 15): the page, lanes and bundles, routes, sending, roll call, merge jobs. -/

namespace Sys2Proof.Machine

/-! ### The trails page (Table 15-1) -/

/-- A field of the trails page of a set, with its default when the page is absent (R516). -/
def trailIn (set : List Memory) (off n dflt : Nat) : Nat :=
  match pagePos set 11 0 with
  | some i => memField (set.getD i []) off n
  | none => dflt

/-- A field of the active trails page. -/
def Block.trailF (b : Block) (off n dflt : Nat) : Nat := trailIn b.cfg.active off n dflt

def Block.trailRole (b : Block) : Nat := b.trailF 16 1 0
def Block.chipBase (b : Block) : Nat := b.trailF 18 2 0
def Block.laneBundle (b : Block) (l : Nat) : Nat := b.trailF (32 + l) 1 (l / 2)
def Block.rateCap (b : Block) (l : Nat) : Nat := b.trailF (56 + l) 1 (if l = 17 then 3 else 4)
def Block.isUplink (b : Block) (k : Nat) : Bool := b.trailF (80 + k) 1 0 == 1
def Block.route (b : Block) (c : Nat) : Nat := b.trailF (2048 + 2 * c) 2 0

/-- The job tag a chip works under (R548). -/
def Block.jobTag (b : Block) : Nat := if b.trailRole = 1 then 0 else b.trailF 20 4 0

/-- Whether this chip is a collector, and whether a member (R544, R548). -/
def Block.isCollector (b : Block) : Bool := if b.trailRole = 1 then b.trail.master else b.trailRole == 2 && b.trailF 24 1 0 == 2
def Block.isMember (b : Block) : Bool := if b.trailRole = 1 then b.trail.assigned && !b.trail.master else b.trailRole == 2 && b.trailF 24 1 0 == 1

/-- The collector's chip number (R544, R548): in a cascade the master's. -/
def Block.collector (b : Block) : BitVec 12 :=
  if b.trailRole = 1 then
    (match b.trail.numbers.find? fun n => n.1 == b.trail.masterSerial with
    | some n => n.2
    | none => BitVec.ofNat 12 b.chipBase)
  else BitVec.ofNat 12 (b.trailF 26 2 0)

/-! ### Lanes and bundles (R514, R519 to R525) -/

/-- Whether a package bonds out a lane (R514); on OTX-120C the lanes whose SerDes is connected. -/
def Block.bonded (b : Block) (l : Nat) : Bool :=
  match b.boot.package with
  | .h => l < 2
  | .w => l < 18
  | .c => b.pins.trailsWired.getLsbD l

/-- The unit ID of the trail controller. -/
def trailUnit : BitVec 8 := 0x80

/-- Whether lanes train and carry traffic: ROLE other than 0, and the newest commit of a session did not leave TRAILS out (R515, R568). All
lane work stops at that commit; `lanesDown` powers the lanes down at the boundary from which the features are in force (R80, log entry 87). -/
def Block.lanesOn (b : Block) : Bool :=
  b.ready && b.trailRole != 0 && (!b.feat.everCommit || b.committed featTrails) && !b.trail.failed && !b.flt.failed.getD 10 false

/-- A lane. -/
def Block.lane (b : Block) (l : Nat) : Lane := b.trail.lanes.getD l {}

/-- Changes a lane. -/
def Block.onLane (l : Nat) (f : Lane → Lane) (b : Block) : Block := { b with trail := { b.trail with lanes := b.trail.lanes.modify l f } }

/-- A bundle. -/
def Block.bundle (b : Block) (k : Nat) : Bundle := b.trail.bundles.getD k {}

/-- Changes a bundle. -/
def Block.onBundle (k : Nat) (f : Bundle → Bundle) (b : Block) : Block :=
  { b with trail := { b.trail with bundles := b.trail.bundles.modify k f } }

/-- The bonded-out lanes of a bundle, ascending. -/
def Block.bundleLanes (b : Block) (k : Nat) : List Nat := (List.range 18).filter fun l => b.bonded l && b.laneBundle l == k

/-- Its lanes in UP. -/
def Block.liveLanes (b : Block) (k : Nat) : List Nat := (b.bundleLanes k).filter fun l => (b.lane l).st == .up

/-- The width that live lanes give: the greatest of 1, 2, 4, 8 and 16 that fits (R523). -/
def fitWidth (n : Nat) : Nat := if 16 ≤ n then 16 else if 8 ≤ n then 8 else if 4 ≤ n then 4 else if 2 ≤ n then 2 else n

/-- Whether a bundle is UP. -/
def Block.bundleUp (b : Block) (k : Nat) : Bool := !(b.liveLanes k).isEmpty

/-- The rate a lane runs at: an UP lane runs at the lowest rate of its bundle's live lanes (R523); a lane that is not UP has none (log entry
98). -/
def Block.laneRate (b : Block) (l : Nat) : BitVec 3 :=
  if (b.lane l).st == .up then
    (b.liveLanes (b.laneBundle l)).foldl (fun r i => if (b.lane i).rate.toNat < r.toNat then (b.lane i).rate else r) (b.lane l).rate
  else 0

/-- The UP local bundles, ascending. -/
def Block.upLocal (b : Block) : List Nat := (List.range 16).filter fun k => b.bundleUp k && !b.isUplink k

/-- Starts a roll call (R532 to R534): the chip is its own candidate again and nothing is settled. -/
def Block.rollStart (b : Block) : Block :=
  { b with trail := { b.trail with
    rolling := true, rollAt := b.now, rollSent := none, changedAt := b.now, settled := false, rollDone := false, master := false
    candSerial := b.boot.otp.serial, candStrap := b.boot.masterStrap, peers := [] } }

/-- Asks the far end for the width that the live lanes give, unless R525 still forbids it (R524). -/
def Block.askWidth (k : Nat) (b : Block) : Block :=
  let w := BitVec.ofNat 5 (fitWidth (b.liveLanes k).length)
  if w = (b.bundle k).width || w = 0 || b.now < (b.bundle k).noReqTill then b
  else (b.onBundle k fun x => { x with wantWidth := some w }).drive (.widthReq k w)

/-- A bundle after one of its lanes went down: it narrows at once; a local bundle starts a roll call (R523, R525, R532). -/
def Block.laneGone (k : Nat) (b : Block) : Block :=
  let n := fitWidth (b.liveLanes k).length
  let b1 := b.onBundle k fun x => { x with width := if n < x.width.toNat then BitVec.ofNat 5 n else x.width }
  if b.isUplink k then b1 else b1.rollStart

/-- A lane leaves UP for a retrain that this end starts (R521, R522). -/
def Block.retrain (l : Nat) (b : Block) : Block :=
  if (b.lane l).st == .up then
    Block.laneGone (b.laneBundle l)
      ((b.onLane l fun x => { x with st := .retraining, since := b.now, sentReq := true, leads := true }).drive (.retrain l))
  else b

/-- Every lane of a bundle retrains (R528). -/
def Block.retrainBundle (k : Nat) (b : Block) : Block := (b.liveLanes k).foldl (fun b l => b.retrain l) b

/-- Every lane is powered down (R515, R568). -/
def Block.lanesDown (b : Block) : Block :=
  { b with trail := { b.trail with
    lanes := b.trail.lanes.map fun l => { l with st := .off, sentReq := false, leads := false }
    bundles := b.trail.bundles.map fun x => { x with width := 0, wantWidth := none, nbValid := false, replay := [], wait := [], rx := [], rx1 := [] }
    rolling := false, settled := false } }

/-- The trail island restarts (Table 16-3): replay buffers are lost, the bundles retrain, a roll call runs, and merge fragments will
be sent again. -/
def Block.trailRestart (b : Block) : Block :=
  let b1 := { b with trail := { b.trail with bundles := b.trail.bundles.map fun (x : Bundle) => { x with replay := [], rx := [], rx1 := [] } } }
  ((List.range 18).foldl (fun b l => b.retrain l) b1).rollStart

/-! ### Routes (R538 to R543, R551) -/

/-- The local bundle to a chip: a neighbour's, lowest first. -/
def Block.localTo (b : Block) (d : BitVec 12) : Option Nat :=
  b.upLocal.find? fun k => (b.bundle k).nbValid && (b.bundle k).nbChip == d

/-- The detour of R551: the lowest-numbered live member with UP local bundles to both ends. -/
def Block.detour (b : Block) (d : BitVec 12) : Option Nat :=
  let via := b.trail.peers.filterMap fun p =>
    match p.chip with
    | some c => if p.nbs.contains d then (b.localTo c).map fun k => (c.toNat, k) else none
    | none => none
  match via with
  | [] => none
  | x :: xs => some (xs.foldl (fun y z => if z.1 < y.1 then z else y) x).2

/-- The path with the fewest hops in a cascade, on equal hops the lower bundle (R540). -/
def Block.cascadeTo (b : Block) (d : BitVec 12) : Option Nat :=
  let ps := (b.trail.peers.filter fun p => p.chip == some d && b.bundleUp p.bundle).map fun p => (p.hops, p.bundle)
  match ps with
  | [] => none
  | x :: xs => some (xs.foldl (fun y z => if z.1 < y.1 || (z.1 == y.1 && decide (z.2 < y.2)) then z else y) x).2

/-- Inside the campsite: the local bundle, or the detour. -/
def Block.campsiteTo (b : Block) (d : BitVec 12) : Option Nat :=
  match b.localTo d with
  | some k => some k
  | none => b.detour d

/-- The live uplinks of a ROUTE entry, in ascending bundle order (R541). -/
def Block.liveUplinks (b : Block) (mask : Nat) : List Nat :=
  ((((List.range 16).filter b.isUplink).zipIdx).filter fun (k, u) => mask.testBit u && b.bundleUp k).map Prod.fst

/-- Where a parcel for a chip leaves (R540, R541): the bundle, or why the chip is unreachable. -/
def Block.routeTo (b : Block) (src d : BitVec 12) : Except Nat Nat :=
  let opt (o : Option Nat) : Except Nat Nat := match o with | some k => .ok k | none => .error 1
  if b.trailRole = 1 then opt (b.cascadeTo d)
  else if b.trail.chip.toNat / 8 = d.toNat / 8 then opt (b.campsiteTo d)
  else
    let e := b.route (d.toNat / 8)
    if !e.testBit 15 then .error 1
    else if !e.testBit 7 then opt (b.campsiteTo (BitVec.ofNat 12 (8 * (b.trail.chip.toNat / 8) + e / 16 % 8)))
    else
      let ups := b.liveUplinks (e % 16)
      if ups.isEmpty then .error 2 else .ok (ups.getD ((src.toNat + d.toNat) % ups.length) 0)

/-- The virtual channel of a parcel (R530, Table 15-8): 1 for READ_RESP flits and for the parcels that answer or run the link. -/
def Sending.channel (x : Sending) : Nat :=
  if x.kind = 3 || [0x0901, 0x0902, 0x0904, 0x0907, 0x0909].contains x.p.type.toNat then 1 else 0

/-- The beats of a parcel: its header and payload in 32-byte units, the last filled with zeros (R18). -/
def beatsOf (p : Parcel) : List Bytes :=
  let bs := p.header ++ p.payload
  (List.range ((bs.length + 31) / 32)).map fun i => fit 32 (slice bs (32 * i) 32)

/-- The kind code of beat i of n (R17). -/
def beatKind (i n : Nat) : Nat := if n = 1 then 3 else if i = 0 then 1 else if i + 1 = n then 2 else 0

/-- The flits of a parcel: seven beats each (R18, R527). -/
def flitsOf (p : Parcel) : Nat := ((16 + p.payload.length + 31) / 32 + 6) / 7

/-- Flit i of a parcel under a FLIT_SEQ (Table 15-3). Acknowledgements travel in flits of their own. -/
def Sending.flit (x : Sending) (i : Nat) (seq : BitVec 12) : Bytes :=
  let all := beatsOf x.p
  let beats := (all.drop (7 * i)).take 7
  let last : Bool := decide (all.length ≤ 7 * i + 7)
  let kinds := ((List.range beats.length).map fun k => beatKind (7 * i + k) all.length * 4 ^ k).sum
  let body := leBytes 2 (seq.toNat + 4096 * x.kind.toNat) ++ leBytes 2 0 ++ leBytes 1 x.channel ++ leBytes 1 beats.length ++ leBytes 2 kinds
    ++ fit 224 beats.flatten ++ leBytes 8 (if last then x.p.sealWord.toNat else 0) ++ leBytes 2 x.dest.toNat ++ leBytes 2 x.src.toNat
    ++ leBytes 4 x.tag.toNat
  body ++ leBytes 4 (crc32c body).toNat ++ leBytes 4 0

/-- Numbers the flits of a parcel sent now and holds them in the replay buffer (R528). -/
def Bundle.sent (x : Sending) (now : Tick) (y : Bundle) : Bundle :=
  { y with
    txSeq := y.txSeq + BitVec.ofNat 12 (flitsOf x.p)
    replay := y.replay ++ (List.range (flitsOf x.p)).map fun i =>
      { seq := y.txSeq + BitVec.ofNat 12 i, at_ := now, bytes := x.flit i (y.txSeq + BitVec.ofNat 12 i) } }

/-- Puts a parcel's flits on a bundle. -/
def Block.putFlits (k : Nat) (x : Sending) (b : Block) : Block := (b.onBundle k (Bundle.sent x b.now)).drive (.parcel k x.dest x.p)

/-- Sends a parcel on a bundle, or keeps it while the replay buffer has no room for its flits or a parcel of its own channel waits (R527 to
R530). -/
def Block.sendOn (k : Nat) (x : Sending) (b : Block) : Block :=
  let y := b.bundle k
  if y.wait.all (fun w => w.channel != x.channel) && decide (y.replay.length + flitsOf x.p ≤ 512) then b.putFlits k x
  else b.onBundle k fun y => { y with wait := y.wait ++ [x] }

/-- Sends what waited, in order on each channel, as far as the replay buffer has room. -/
def Block.sendWaiting (k : Nat) (b : Block) : Block :=
  (b.bundle k).wait.foldl (fun b x => b.sendOn k x) (b.onBundle k fun y => { y with wait := [] })

/-- UNREACHABLE (R542): counted, and one event per destination and epoch. -/
def Block.unreachable (d : BitVec 12) (cause : Nat) (b : Block) : Block :=
  let b1 := { b with trail := { b.trail with unreach := bump b.trail.unreach, unreachSaid := d :: b.trail.unreachSaid } }
  if b.trail.unreachSaid.contains d then b1 else b1.event 0x0043 noUnit (leBytes 2 d.toNat ++ leBytes 1 cause)

/-- Sends a parcel towards a chip (R541, R542); for this chip itself it is delivered. -/
def Block.sendTo (x : Sending) (b : Block) : Block :=
  if x.dest = b.trail.chip && b.trail.assigned then { b with trail := { b.trail with inbox := b.trail.inbox ++ [x.p] } }
  else match b.routeTo x.src x.dest with
  | .ok k => b.sendOn k x
  | .error c => b.unreachable x.dest c

/-- A control parcel that the pair in control seals and sends (R549): READ_REQ in a READ_REQ flit, READ_REFUSED in a READ_RESP flit, each with
its tag (R550), any other in PARCEL flits. -/
def Block.control' (type : Nat) (d : BitVec 12) (payload : Bytes) (b : Block) : Block :=
  let p := b.flowParcel 0xFF type b.control payload []
  let kind : BitVec 4 := if type = 0x0905 then 2 else if type = 0x0907 then 3 else 1
  Block.sendTo { dest := d, src := b.trail.chip, kind := kind, tag := if kind = 1 then 0 else BitVec.ofNat 32 (field payload 8 4), p := p }
    { b with host := b.host.flowStep b.control 0xFF }

/-- A parcel of this chip's own in PARCEL flits. -/
def Block.sendOwn (d : BitVec 12) (p : Parcel) (b : Block) : Block := b.sendTo { dest := d, src := b.trail.chip, p := p }

/-- A control parcel of the trail controller on a bundle (R549). -/
def Block.linkParcel (type k : Nat) (d : BitVec 12) (payload : Bytes) (b : Block) : Block :=
  let p := b.flowParcel 0xFF type trailUnit payload []
  Block.sendOn k { dest := d, src := b.trail.chip, p := p } { b with host := b.host.flowStep trailUnit 0xFF }

/-- Takes a received parcel out of the receive buffer. -/
def Block.received (p : Parcel) (b : Block) : Block := { b with trail := { b.trail with inbox := b.trail.inbox.erase p } }

/-! ### Merge jobs (R544 to R548) -/

/-- Sends JOIN to the collector (R544). -/
def Block.sendJoin (b : Block) : Block :=
  if b.isMember && b.trail.assigned && b.lanesOn then
    let b1 := b.control' 0x0903 b.collector
      (leBytes 4 b.jobTag ++ leBytes 2 b.trail.chip.toNat ++ leBytes 2 0 ++ leBytes 8 b.boot.otp.serial.toNat)
    { b1 with trail := { b1.trail with
      joined := none, joinWait := false, joinSent := true, toSend := [], unacked := [], nextFrag := 1, sentTag := BitVec.ofNat 32 b.jobTag } }
  else b

/-- Sends queued fragments, at most 1,024 unacknowledged (R546). -/
def Block.pumpFrags (b : Block) : Block :=
  if b.trail.joined.isNone then b
  else
    let n := 1024 - b.trail.unacked.length
    let go := b.trail.toSend.take n
    go.foldl (fun b p => b.sendOwn b.collector p)
      { b with trail := { b.trail with toSend := b.trail.toSend.drop n, unacked := b.trail.unacked ++ go } }

/-- Sends again from the first unacknowledged fragment (R546). -/
def Block.resendFrags (b : Block) : Block :=
  b.trail.unacked.foldl (fun b p => b.sendOwn b.collector p) b

/-- Every object of the map as fragments, in ascending ID, each KF_HEAD before its KF_OBS (R545). -/
def Block.queueMap (b : Block) : Block :=
  let put (kind a : Nat) (b : Block) : Block := match b.storedAt a with | some p => b.queueFrag kind p | none => b
  let b1 := b.map.kfs.foldl (fun b k =>
    let h := b.object (kfAddr k)
    (List.range (field h 31 1)).foldl (fun b i => put 2 (field h 104 8 + 4096 * i) b) (put 1 (kfAddr k) b)) b
  let b2 := (List.range ((b.map.ptTop + 62) / 63)).foldl (fun b i => put 3 (pointsAddr i) b) b1
  (List.range ((b.map.edgeTop + 49) / 50)).foldl (fun b i => put 4 (edgesAddr i) b) b2

end Sys2Proof.Machine
end

