-- ==== Sys2Proof/Machine/FaultOps.lean ====
section
/-! DEFINITION. Faults (chapter 16): blame, fences, the change of Ranger pair, island restarts, memory faults and FAULT_HALT. -/

namespace Sys2Proof.Machine

/-! ### FAULT_HALT (R579, R580) -/

/-- The phases in which detections count: not before MAIN_POR is left, not in a halt (R580). -/
def Block.detects (b : Block) : Bool :=
  match b.boot.phase with
  | .ready | .bringup | .settingsLoad | .slotVerify | .romProbe => true
  | _ => false

/-- The port of a set whose page gives a TRIG pin its polarity: an enabled triggered port, else one that is disabled, whatever its ALIGN_MODE
(R137, R142, log entry 75). -/
def trigOwnerIn (set : List Memory) (pin : Nat) : Option Nat :=
  let f (k off : Nat) : Nat := memField (pageAt set 2 k) off 1
  let on (k : Nat) : Bool := f k 16 == 1 && f k 42 == 1 && f k 43 == pin
  let off (k : Nat) : Bool := (pagePos set 2 k).isSome && f k 16 != 1 && f k 43 == pin
  ((List.range 6).find? on).or ((List.range 6).reverse.find? off)

/-- The inactive level that a set gives a TRIG pin: high when the camera that it triggers takes active-low pulses (R137). -/
def trigInactiveIn (set : List Memory) (pin : Nat) : Bool :=
  match trigOwnerIn set pin with
  | some k => memField (pageAt set 2 k) 76 1 == 1
  | none => false

/-- The port that owns a TRIG pin in the active set. -/
def Block.trigOwner (b : Block) (pin : Nat) : Option Nat := trigOwnerIn b.cfg.active pin

/-- The inactive level of a TRIG pin in the active set. -/
def Block.trigInactive (b : Block) (pin : Nat) : Bool := trigInactiveIn b.cfg.active pin

/-- Every TRIG pin at the inactive level of the active set; one that no page names and nothing has driven stays at high impedance
(Table 20-5, R579, R601). -/
def Block.pinsAtRest (b : Block) : Pins :=
  { b.pins with
    trigLevel := (List.range 8).map b.trigInactive
    trigDriven := (List.range 8).map fun pin => b.pins.trigDriven.getD pin false || (b.trigOwner pin).isSome }

/-- The flash is reset in its mode and released (R47). -/
def Block.releaseFlash (b : Block) : Block :=
  if b.boot.flashDriven then
    { (b.drive .flashReset) with boot := { (b.drive .flashReset).boot with flashDriven := false } }
  else b

/-- FAULT_HALT, in the order of R579. -/
def Block.faultHalt (cause island : Nat) (b : Block) : Block :=
  let b1 := { b with
    boot := { b.boot with phase := .faultHalt, since := b.now, haltDue := true }
    flt := { b.flt with haltCause := BitVec.ofNat 4 cause, haltIsland := BitVec.ofNat 4 island,
                        clockOn := b.flt.clockOn.mapIdx fun i c => c && (i == 0 || i == 8 || i == 9) }
    pins := b.pinsAtRest
    host := { b.host with eventCause := setBit b.host.eventCause 0 } }
  let b2 := b1.journal (some b1.haltRecord)
  (b2.haltCompletions.signal 0).releaseFlash

/-! ### Fences (R558 to R562) -/

/-- The kinds of unit that can be fenced. -/
inductive Fenceable where
  | lane (l : Nat) | tile (t : Nat) | thread (t : Nat) | pair (p : Pair)
deriving DecidableEq, Repr

/-- The fenceable unit of an ID (Table 05-4). -/
def fenceable (u : BitVec 8) : Option Fenceable :=
  let n := u.toNat
  if n = 2 then some (.pair .a) else if n = 3 then some (.pair .b)
  else if 0x20 ≤ n && n < 0x28 then some (.lane (n - 0x20))
  else if 0x40 ≤ n && n < 0x60 then some (.thread (n - 0x40))
  else if 0x60 ≤ n && n < 0x70 then some (.tile (n - 0x60))
  else none

/-- Whether a unit is live. -/
def Flt.isLive (f : Flt) : Fenceable → Bool
  | .lane l => f.fox.getLsbD l
  | .tile t => f.tiles.getLsbD t
  | .thread t => f.threads.getLsbD t
  | .pair .a => f.pairA
  | .pair .b => f.pairB

/-- The live mask without a unit, and the step level that follows (R560, R572); the level never falls (R575). -/
def Flt.without (f : Flt) (u : Fenceable) : Flt :=
  let f1 := match u with
    | .lane l => { f with fox := clearBit f.fox l }
    | .tile t => { f with tiles := clearBit f.tiles t }
    | .thread t => { f with threads := clearBit f.threads t }
    | .pair .a => { f with pairA := false }
    | .pair .b => { f with pairB := false }
  { f1 with step := max f1.step f1.level }

/-- The live units of a kind. -/
def Flt.count (f : Flt) : Fenceable → Nat
  | .lane _ => popcount f.fox
  | .tile _ => popcount f.tiles
  | .thread _ => popcount f.threads
  | .pair _ => f.pairs

/-- Reports a fence: FENCE_LOG and FENCED (R560). -/
def Block.reportFence (unit cause : BitVec 8) (k : Fenceable) (b : Block) : Block :=
  let n := BitVec.ofNat 8 (b.flt.count k)
  let e : FenceEntry := { unit := unit, cause := cause, live := n, epoch := b.ep.now.setWidth 32, tick := BitVec.ofNat 64 b.now }
  let b1 := { b with flt := { b.flt with fenceLog := lastN 32 (b.flt.fenceLog ++ [e]), fenceCount := b.flt.fenceCount + 1 } }
  b1.event 0x0011 unit ([unit, cause, n, 0] ++ leBytes 4 b.flt.capacity.toNat)

/-- A fetched command restarts on the new pair when it has not reached its commit point (R502); an armed APPLY stays armed. -/
def Block.restartCmd (r : CmdRef) (c : Cmd) (b : Block) : Block :=
  if c.stage == .running && !(match b.cfg.armed with | some a => a.owner == some r | none => false) then
    (b.dropWork r).withCmd r fun c => { c with stage := .fetched, heads := false, count := 0, data := [] }
  else b

/-- Control passes to the other pair, on which a CHECK in progress starts again (R104, R502, R563). -/
def Block.switchPair (p : Pair) (cause : BitVec 8) (b : Block) : Block :=
  let b1 := (List.finRange 16).foldl (fun b q =>
    ((b.host.queues.getD q {}).cmds).foldl (fun b c => b.restartCmd ⟨q, c.id⟩ c) b) b
  { b1 with flt := { b1.flt with control := p }, cfg := { b1.cfg with checkSince := b.now } }.event 0x0012 (pairUnit p) [pairUnit p, cause]

/-- The bridges without the beats of a parcel that a fenced unit has not sent whole: its header names the producer (R559). -/
def Flt.dropBeats (unit : BitVec 8) (f : Flt) : Flt :=
  { f with bridges := f.bridges.map fun x =>
    match x.seq with
    | d :: _ => if d.data.extractLsb' 96 8 == unit then { x with seq := [] } else x
    | [] => x }

/-- Fences a live unit (R558 to R560) and re-places its work (Table 16-2). The pair that takes control seals the reports of a fence
of the pair in control. -/
def Block.fence (unit cause : BitVec 8) (k : Fenceable) (b : Block) : Block :=
  let b1 := { b with flt := (b.flt.without k).dropBeats unit, ep := { b.ep with changeAt := b.now } }
  match k with
  | .lane l => (b1.reportFence unit cause k).redoLane l
  | .tile _ => (b1.reportFence unit cause k).jobsWithoutTiles
  | .thread _ => b1.reportFence unit cause k
  | .pair p =>
    if b.flt.control = p then
      let other : Pair := match p with | .a => .b | .b => .a
      Block.switchPair other cause
        (Block.reportFence unit cause k { b1 with flt := { b1.flt with control := other } })
    else b1.reportFence unit cause k

/-! ### Island restarts (R557, R566 to R568) -/

/-- Restarts within the last 1 s, an interval shorter than 250,000,000 ticks. -/
def recent (now : Tick) (ts : List Tick) : List Tick := ts.filter fun t => now - t < 250000000

/-- What a restart loses (Table 16-3). -/
def Block.restartLoss (i : Nat) (b : Block) : Block :=
  match i with
  | 2 =>
    let b1 := (List.range 6).foldl (fun b k =>
      if (b.ports.getD k {}).frame.isSome then (b.portCount k 10).closeFrame k none else b) b
    { b1 with slots := b1.slots.map fun s => { s with pending := [], reading := none }, ctls := List.replicate 4 none }
  | 3 => b.ifcIslandRestart
  | 9 => b.linkLost
  | 10 => b.trailRestart
  | _ => b

/-- What the fourth restart within 1 s does (R568). -/
def Block.islandFailed (i : Nat) (b : Block) : Block :=
  if i = 10 then
    let b1 := b.lanesDown
    { b1 with trail := { b1.trail with failed := true } }.event 0x0014 noUnit []
  else if i = 2 || i = 3 || i = 5 || i = 7 || i = 8 || i = 9 then b.faultHalt 2 i
  else b

/-- Restarts an island, or the Badger assembler alone (R557, R566 to R568). -/
def Block.islandRestart (i : Nat) (cause unit : BitVec 8) (asmOnly : Bool) (b : Block) : Block :=
  if b.flt.failed.getD i false then b
  else
    let isl := recent b.now (b.flt.ticks.getD i [])
    let asm := recent b.now b.flt.asmTicks
    let isl1 := if asmOnly then isl else isl ++ [b.now]
    let asm1 := if asmOnly then asm ++ [b.now] else asm
    let four : Bool := if asmOnly then decide (4 ≤ asm1.length) else decide (4 ≤ isl1.length)
    let b1 := { b with
      flt := { b.flt with
        ticks := b.flt.ticks.set i isl1, asmTicks := asm1
        restarts := b.flt.restarts.modify i bump
        restarting := if asmOnly then b.flt.restarting else b.flt.restarting.set i true
        failed := if four && !asmOnly then b.flt.failed.set i true else b.flt.failed }
      badger := { b.badger with asmHeld := b.badger.asmHeld || asmOnly } }
    let n := isl1.length + (if i = 7 then asm1.length else 0)
    let b2 := b1.event 0x0013 unit (leBytes 1 i ++ [cause, BitVec.ofNat 8 asmOnly.toNat, 0] ++ leBytes 4 n)
    let b3 := if asmOnly then b2 else b2.restartLoss i
    if four then b3.islandFailed i else b3

/-! ### Blame (R555 to R557) -/

/-- The island of a singleton unit (R557). -/
def singletonIsland (u : BitVec 8) : Option Nat :=
  let n := u.toNat
  if n = 1 then some 9 else if 8 ≤ n && n ≤ 0x11 then some 2 else if 0x18 ≤ n && n ≤ 0x1B then some 3 else if n = 0x28 then some 5
  else if n = 0x70 then some 7 else if n = 0x80 then some 10 else none

/-- A detection blames a unit: a fenceable unit is fenced, another unit's island restarts (R185, R555 to R565). -/
def Block.blame (unit : BitVec 8) (cause : Nat) (b : Block) : Block :=
  if !b.detects then b
  else match fenceable unit with
  | some k =>
    if !b.flt.isLive k then b
    else match k with
    | .pair _ => if b.flt.pairs = 1 then b.faultHalt 1 0 else b.fence unit (BitVec.ofNat 8 cause) k
    | _ => b.fence unit (BitVec.ofNat 8 cause) k
  | none =>
    match singletonIsland unit with
    | some i => b.islandRestart i (BitVec.ofNat 8 cause) unit (unit == assembler)
    | none => b

/-- A bridge watchdog fault of an island (R556): the unit addressed, the pair in control, or the island as a whole; in the Badger island
a request that names no tile is one into the assembler (log entry 23). -/
def Block.bridgeFault (i : Nat) (unit : Option (BitVec 8)) (cause : Nat) (b : Block) : Block :=
  if !b.detects then b
  else if i = 1 then b.blame b.control cause
  else match unit with
  | some u => b.blame u cause
  | none => if i = 7 then b.blame assembler cause else b.islandRestart i (BitVec.ofNat 8 cause) noUnit false

/-! ### Integrity faults (R180 to R187) -/

/-- The body of INTEGRITY_FAULT (Table 14-12). -/
def integrityBody (p : Parcel) (verifier cause : BitVec 8) : Bytes :=
  [cause, verifier, p.sealer, p.producer] ++ leBytes 2 p.chip.toNat ++ leBytes 2 p.type.toNat
    ++ [p.stream, BitVec.ofNat 8 (blamedSealer p).isSome.toNat, 0, 0] ++ leBytes 4 p.seq.toNat ++ leBytes 4 p.sealCrc.toNat
    ++ leBytes 4 p.crc.toNat

/-- A verifying unit finds an integrity fault in a parcel (R182 to R187); a parcel of another chip is reported there (R554). -/
def Block.integrityFault (p : Parcel) (verifier cause : BitVec 8) (b : Block) : Block :=
  if !b.detects then b
  else
    let body := integrityBody p verifier cause
    let b1 := { b with flt := { b.flt with sealFaults := bump b.flt.sealFaults } }
    let b2 := b1.event 0x0010 (if unitExists p.sealer then p.sealer else noUnit) body
    if p.chip != b.chip then
      if b.trail.assigned && b.lanesOn then b2.control' 0x090A (p.chip.setWidth 12) body else b2
    else match blamedSealer p with
    | some u => if u.toNat ≤ 1 then b2 else b2.blame u 1
    | none => b2

/-! ### Memory faults (R569, R570) -/

/-- Adds to MEM_FAULT_LOG and emits MEMORY_FAULT (R569). -/
def Block.reportMem (a region : Nat) (b : Block) : Block :=
  let dram : Bool := decide (0x100000000 ≤ a)
  let e : MemFault := { addr := BitVec.ofNat 64 a, tick := BitVec.ofNat 64 b.now, region := BitVec.ofNat 8 region, dram := dram }
  let b1 := { b with den := { b.den with
    ue := if b.den.ue.contains (a / 64) then b.den.ue else (a / 64) :: b.den.ue
    faultLog := lastN 16 (b.den.faultLog ++ [e]), faultCount := b.den.faultCount + 1 } }
  b1.event 0x0015 noUnit (leBytes 8 a ++ leBytes 1 region ++ leBytes 1 dram.toNat)

/-- A fault in the settings region (Table 16-4): the active set's halts; a shadow page's makes the set DIRTY, and an armed APPLY is
refused. -/
def Block.settingsLost (a : Nat) (b : Block) : Block :=
  if Config.activeHalf (b.cfg.gen.getLsbD 0) == decide (a < 0x40000) then b.faultHalt 3 0
  else
    let page := a % 0x40000 / 4096
    let b1 := { b with cfg := { b.cfg with
      badPages := page :: b.cfg.badPages.erase page
      shadowState := if b.cfg.shadowState == .checking then .checking else .dirty
      armed := none } }
    match b.cfg.armed with
    | some w =>
      let b2 := { b1 with cfg := { b1.cfg with busy := false, busyBy := none } }
      (match w.owner with
      | some r => b2.finish r stCheckReq 0 0 0
      | none => b2)
    | none => b1

/-- The guest slot whose staging a pool address lies in, where the address is no map object's: which is open, hence free (log entry 5). -/
def Block.stagingSlot (b : Block) : Option Nat :=
  let ss := (List.range 64).filter fun s => !(b.guest s).staged.isEmpty
  if ss.isEmpty then none else some (ss.getD (b.freeNow.toNat % ss.length) 0)

/-- Whether a pool address lies in a map object. -/
def Block.poolObject (b : Block) (a : Nat) : Bool :=
  (b.map.kfs.any fun k =>
    let h := b.object (kfAddr k)
    decide (field h 104 8 ≤ a) && decide (a < field h 104 8 + 4096 * field h 31 1)) ||
  b.map.buckets.any fun x => x.chain.any fun p => decide (p ≤ a) && decide (a < p + 128)

/-- An uncorrectable error on a Den read at an address (R569, R570). -/
def Block.memFault (a : Nat) (b : Block) : Block :=
  if !b.detects then b
  else match b.region a with
  | none => b
  | some r =>
    let b1 := b.reportMem a r
    match r with
    | 0 => b1.settingsLost a
    | 1 | 11 => b1.blame b.control 2
    | 2 | 4 => { b1 with map := { b1.map with rebuild := true } }
    | 3 | 7 | 8 | 9 => b1.loseObject a
    | 10 =>
      if b.poolObject a then b1.loseObject a
      else (match b.stagingSlot with
        | some s => (b1.dropStaging s).drew
        | none => b1)
    | _ => b1

/-- An uncorrectable error on a parcel of the working pool that a unit reads; which granule is open, hence free (log entry 5). -/
def Block.poolFault (b : Block) : Block :=
  Block.drew (b.memFault (0x400000 + 64 * (b.freeNow.toNat % 0x70000)))

/-- The stored size of the object at an address (R402, Table 12-3). -/
def Block.objectSize (a : Nat) (b : Block) : Nat :=
  match b.region a with
  | some 3 | some 7 => 320
  | some 10 => if b.map.buckets.any fun x => x.chain.contains a then 128 else 4096
  | _ => 4096

/-- The engine reads stored objects: one with an uncorrectable error in a granule reports a memory fault and is lost (R177, R181, R569, R570). -/
def Block.readObjects (as : List Nat) (b : Block) : Block :=
  as.eraseDups.foldl (fun b a =>
    match b.den.ue.find? fun g => decide (a / 64 ≤ g) && decide (64 * g < a + b.objectSize a) with
    | some g => b.memFault (64 * g)
    | none => b) b

/-- The objects of a keyframe: its head and its KF_OBS parcels. -/
def Block.kfReads (id : Nat) (b : Block) : List Nat :=
  match b.kf id with
  | some k => let h := b.object (kfAddr k); kfAddr k :: (List.range (field h 31 1)).map fun i => field h 104 8 + 4096 * i
  | none => []

/-- The heads of a span of keyframes, and the edge parcels. -/
def Block.spanReads (lo hi : Nat) (b : Block) : List Nat :=
  ((b.map.kfs.filter fun k => decide (lo ≤ k.id) && decide (k.id ≤ hi)).map kfAddr) ++ (List.range ((b.map.edgeTop + 49) / 50)).map edgesAddr

/-- The POSTINGS parcels of the place index. -/
def Block.postReads (b : Block) : List Nat := b.map.buckets.flatMap Bucket.chain

/-- A unit takes a parcel as it sees it (R174, R180, R181): the parcel when it verifies, and the block with any fault reported. -/
def Block.verify (p : Parcel) (seen : Seen) (verifier : BitVec 8) (b : Block) : Option Parcel × Block :=
  match seen with
  | .uncorrectable => (none, b.poolFault)
  | .denied => (none, b.blame verifier 0x0A)
  | .intact =>
    match sealFault p with
    | none => (some p, b)
    | some c => (none, b.integrityFault p verifier c)
  | .altered q =>
    match sealFault q with
    | none => (some q, b)
    | some c => (none, b.integrityFault q verifier c)

/-- How a parcel reads. -/
def readAs (rs : Reads) (p : Parcel) : Seen :=
  match rs.find? fun m => m.producer == p.producer && m.stream == p.stream && m.seq == p.seq with
  | some m => m.seen
  | none => .intact

/-- A unit verifies the parcels it reads, in order (R174), up to the first that it may not consume. -/
def Block.verifyAll (reads : Reads) (unit : BitVec 8) : List Parcel → Block → Bool × Block
  | [], b => (true, b)
  | p :: ps, b =>
    match b.verify p (readAs reads p) unit with
    | (some _, b1) => Block.verifyAll reads unit ps b1
    | (none, b1) => (false, b1)

/-- The parcels that references name, of those that the engine holds. -/
def Block.heldParcels (rs : List InRef) (b : Block) : List Parcel :=
  rs.filterMap fun r => b.host.pool.find? fun p => InRef.same r p.ref

/-- A unit verifies the parcels that references name. -/
def Block.verifyRefs (rs : List InRef) (reads : Reads) (unit : BitVec 8) (b : Block) : Bool × Block :=
  b.verifyAll reads unit (b.heldParcels rs)

end Sys2Proof.Machine
end

