-- ==== Sys2Proof/Machine/Factor.lean ====
section
/-! DEFINITION. The block factorisation (R368, R371, R373 to R378): exact sums, formats, and each block operation from its input blocks. What the
spec leaves to a reader is in log entry 95. -/

namespace Sys2Proof.Machine

/-! ### Exact numbers -/

/-- A number brought to f fraction bits, rounded to nearest even (R12). -/
def Dy.at_ (x : Dy) (f : Nat) : Int := refrac x.v x.frac f
def Dy.add (x y : Dy) : Dy := ⟨x.at_ (max x.frac y.frac) + y.at_ (max x.frac y.frac), max x.frac y.frac⟩
def Dy.neg (x : Dy) : Dy := ⟨-x.v, x.frac⟩
def Dy.sub (x y : Dy) : Dy := x.add y.neg
def Dy.mul (x y : Dy) : Dy := ⟨x.v * y.v, x.frac + y.frac⟩
def Dy.lt (x y : Dy) : Bool := decide (x.at_ (max x.frac y.frac) < y.at_ (max x.frac y.frac))
def dySum (l : List Dy) : Dy := l.foldl Dy.add ⟨0, 0⟩

/-- An exact sum as an element of a format, none where a range fence trips (R371). -/
def Fmt.fit (f : Fmt) (x : Dy) : Option Int :=
  if saturate 64 (x.at_ f.acc) = x.at_ f.acc ∧ saturate 32 (x.at_ f.frac) = x.at_ f.frac then some (x.at_ f.frac) else none

/-- An exact sum over a pivot as an element of a format; a quotient by a pivot that is not above zero fits none. -/
def Fmt.fitDiv (f : Fmt) (x d : Dy) : Option Int :=
  let q := rneDiv (x.v * 2 ^ (d.frac + f.frac)) (d.v.toNat * 2 ^ x.frac)
  if 0 < d.v ∧ saturate 64 (x.at_ f.acc) = x.at_ f.acc ∧ saturate 32 q = q then some q else none

/-- Elements in order, each from those before it; none as soon as one does not fit. -/
def seqFit (n : Nat) (f : Nat → List Int → Option Int) : Option (List Int) :=
  (List.range n).foldl (fun acc r => acc.bind fun xs => (f r xs).map fun v => xs ++ [v]) (some [])

/-! ### Blocks (R360) -/

/-- A block's role, row and column. -/
abbrev Place := Nat × Nat × Nat

/-- The column of a vector segment. -/
def vecCol : Nat := 0xFFFFFFFF

/-- The place that a one-block BLOCK parcel names. -/
def keyOf (p : Parcel) : Place := (field p.payload 25 1, field p.payload 16 4, field p.payload 20 4)

/-- The BLOCK parcel of a place in a job. -/
def Job.blk (j : Job) (k : Place) : Option Parcel := (j.store.map Prod.fst).find? fun p => keyOf p == k

/-- Element i of a block or segment; zero where it is not given. -/
def Job.elem (j : Job) (k : Place) (i : Nat) : Dy :=
  match j.blk k with
  | some p => ⟨signedOf 32 (field p.payload (32 + 4 * i) 4), field p.payload 24 1⟩
  | none => ⟨0, 0⟩

/-- Element (r, c) of a block. -/
def Job.el (j : Job) (k : Place) (r c : Nat) : Dy := j.elem k (16 * r + c)

/-- The landmark groups, five to a block column (R377). -/
def Job.groups (j : Job) : Nat := (j.marks + 4) / 5

/-- The place of a block of H: landmark rows follow the n rows of the frames. -/
def Job.hKey (j : Job) (r c : Nat) : Place := (if r ≠ c then 1 else if r < j.rows then 0 else 9, r, c)
/-- The place of a block of the matrix that is factorised: the Schur accumulators for VIO (R377). -/
def Job.aKey (j : Job) (r c : Nat) : Place := if j.cls = 0 then (5, r, c) else j.hKey r c
/-- L, D, the right-hand side and the step, by block row. -/
def lKey (r c : Nat) : Place := (3, r, c)
def dKey (k : Nat) : Place := (4, k, vecCol)
def bKey (k : Nat) : Place := (2, k, vecCol)
def xKey (k : Nat) : Place := (7, k, vecCol)
/-- V⁻¹·Wᵀ of a landmark group and a frame row. -/
def gKey (g i : Nat) : Place := (9, g, i)

/-- The kind of the first row variable of a block row: a frame's velocity, biases, then pose (R378, Table 11-5). -/
def Job.kindOf (j : Job) (row : Nat) : BitVec 8 :=
  match j.cls.toNat with
  | 0 => if j.rows ≤ row then 4 else if 16 * row % 15 < 3 then 2 else if 16 * row % 15 < 9 then 3 else 1
  | 1 => 1
  | 2 => 5
  | _ => 0

/-- The format of a place now. -/
def Job.keyFmt (j : Job) (k : Place) : Fmt := j.fmt (BitVec.ofNat 8 k.1) (j.kindOf k.2.1) (BitVec.ofNat 32 k.2.1) (BitVec.ofNat 32 k.2.2)

/-- The variables of block row k. -/
def Job.width (j : Job) (k : Nat) : Nat := min 16 (j.unknowns - 16 * k)

/-! ### The order of the block operations (R373, R377) -/

/-- The operation after one. -/
def Job.succ (j : Job) : Work → Work
  | .linearise => .damp 0 0
  | .load t => if t + 1 < ((j.given.map fun p => (p.payload.length - 16) / 1040).sum) then .load (t + 1) else .factor 0
  | .damp i k => if k < i then .damp i (k + 1) else if i + 1 < j.rows then .damp (i + 1) 0
                 else if 0 < j.groups then .landmark 0 else .factor 0
  | .landmark g => .gain g 0
  | .gain g i => if i + 1 < j.rows then .gain g (i + 1) else .reduce g 0
  | .reduce g i => if i + 1 < j.rows then .reduce g (i + 1) else .schur g 0 0
  | .schur g i k => if k < i then .schur g i (k + 1) else if i + 1 < j.rows then .schur g (i + 1) 0
                    else if g + 1 < j.groups then .landmark (g + 1) else .factor 0
  | .factor k => if k + 1 < j.rows then .panel k (k + 1) else .forward 0
  | .panel k i => if i + 1 < j.rows then .panel k (i + 1) else .update k (k + 1) (k + 1)
  | .update k i l => if l < i then .update k i (l + 1) else if i + 1 < j.rows then .update k (i + 1) (k + 1) else .factor (k + 1)
  | .forward i => if i + 1 < j.rows then .forward (i + 1) else .back (j.rows - 1)
  | .back i => if 0 < i then .back (i - 1) else if 0 < j.groups then .points 0 else .solved
  | .points g => if g + 1 < j.groups then .points (g + 1) else .solved
  | .solved => .solved

/-- The blocks that an operation reads. -/
def Job.reads (j : Job) : Work → List Place
  | .damp i k => [j.hKey i k]
  | .landmark g => [j.hKey (j.rows + g) (j.rows + g)]
  | .gain g i => [j.hKey (j.rows + g) (j.rows + g), j.hKey (j.rows + g) i]
  | .reduce g i => [gKey (j.rows + g) i, bKey (j.rows + g), bKey i]
  | .schur g i k => [j.hKey (j.rows + g) i, gKey (j.rows + g) k, j.aKey i k]
  | .factor k => [j.aKey k k]
  | .panel k i => [j.aKey i k, lKey k k, dKey k]
  | .update k i l => [lKey i k, dKey k, lKey l k, j.aKey i l]
  | .forward i => bKey i :: (List.range (i + 1)).map (lKey i) ++ (List.range i).map bKey
  | .back i => bKey i :: dKey i :: ((List.range j.rows).filter fun r => decide (i ≤ r)).map (fun r => lKey r i)
      ++ ((List.range j.rows).filter fun r => decide (i < r)).map xKey
  | .points g => [j.hKey (j.rows + g) (j.rows + g), bKey (j.rows + g)] ++ (List.range j.rows).map (gKey (j.rows + g)) ++ (List.range j.rows).map xKey
  | _ => []

/-- Whether an operation has work to do: blocks that are not given are zero (R360). -/
def Job.needed (j : Job) (w : Work) : Bool :=
  let has (k : Place) : Bool := (j.blk k).isSome
  match w with
  | .damp _ _ | .gain _ _ => ((j.reads w).getLast?.map has).getD false
  | .reduce _ _ | .schur _ _ _ | .update _ _ _ =>
    match w with
    | .update k i l => has (lKey i k) && has (lKey l k)
    | _ => ((j.reads w).take 2).all has
  | .panel k i => has (j.aKey i k)
  | _ => true

/-- The next operation with work to do. -/
def Job.advance (j : Job) : Nat → Work → Work
  | 0, w => j.succ w
  | n + 1, w => if j.needed (j.succ w) then j.succ w else j.advance n (j.succ w)

/-- A bound on the operations of an iteration. -/
def Job.fuel (j : Job) : Nat := (j.rows + j.groups + 2) ^ 3

/-- max|diag(A)| over the block rows (R374). -/
def Job.maxDiag (j : Job) : Dy :=
  (List.range j.unknowns).foldl (fun (m : Dy) i =>
    let x := j.el (j.aKey (i / 16) (i / 16)) (i % 16) (i % 16)
    let a : Dy := ⟨x.v.natAbs, x.frac⟩
    if m.lt a then a else m) ⟨0, 0⟩

/-- The job at its next operation; a factorisation starts with the m of its matrix and no tiny pivot. -/
def Job.moved (j : Job) : Job :=
  let w := if j.rows = 0 then .solved else j.advance j.fuel j.work
  if w = .factor 0 then { j with work := w, m := j.maxDiag, tiny := 0, ill := false } else { j with work := w }

/-- A job's iteration starts again from its last sealed state (R570): what was computed from the iterate is lost. -/
def Job.restarted (j : Job) : Job := { j with store := [], redo := [], work := if j.cls = 3 ∧ !j.pcg then .load 0 else .linearise }

/-! ### What each operation computes -/

/-- What an operation writes, and the tiny pivots and dropped landmarks it counts. -/
structure OpOut where
  outs : List (Place × List Int) := []
  tiny : Nat := 0
  lost : Nat := 0
deriving DecidableEq, Repr

/-- One output block, or the place whose fence tripped. -/
def oneOut (k : Place) (x : Option (List Int)) : Except Place OpOut :=
  match x with
  | some vs => .ok { outs := [(k, vs)] }
  | none => .error k

/-- A 16 by 16 block, element by element. -/
def blockFit (f : Fmt) (g : Nat → Nat → Dy) : Option (List Int) := seqFit 256 fun i _ => f.fit (g (i / 16) (i % 16))

/-- λ·v (R373), λ having 16 fraction bits. -/
def Job.damped (j : Job) (v : Dy) : Dy := v.add (Dy.mul ⟨(j.lam : Nat), 16⟩ v)

/-- τm and λ_reg in the FRAC of a block (R374). -/
def Job.tau (j : Job) (m : Dy) (frac : Nat) : Dy := ⟨m.at_ frac / 2 ^ j.tauLog2, frac⟩
def Job.lamReg (j : Job) (m : Dy) (frac : Nat) : Dy := ⟨m.at_ frac / 2 ^ j.param 273 1, frac⟩

/-- Whether a pivot falls under the rule of R374: below τm, or not above zero. -/
def tinyPivot (tau p : Dy) : Bool := p.lt tau || decide (p.v ≤ 0)

/-- A scalar pivot under R374, and whether it counted as tiny. -/
def Job.pivotOf (j : Job) (frac : Nat) (p : Dy) : Dy × Nat :=
  if tinyPivot (j.tau j.m frac) p then
    let q := p.add (j.lamReg j.m frac)
    (if tinyPivot (j.tau j.m frac) q then j.lamReg j.m frac else q, 1)
  else (p, 0)

/-- Columns done of a diagonal block: D, the columns of L below the diagonal, and the tiny pivots. -/
structure Fac where
  d    : List Int := []
  l    : List (List Int) := []
  tiny : Nat := 0
deriving DecidableEq, Repr

/-- The next column of a diagonal block (R373, R374). -/
def Job.column (j : Job) (k c : Nat) (x : Fac) : Except Place Fac :=
  if j.width k ≤ c then .ok { x with d := x.d ++ [0], l := x.l ++ [List.replicate 16 0] }
  else
    let fd := j.keyFmt (dKey k)
    let fl := j.keyFmt (lKey k k)
    let ll (q r : Nat) : Dy := ⟨(x.l.getD q []).getD r 0, fl.frac⟩
    let rest (r : Nat) : Dy :=
      (j.el (j.aKey k k) r c).sub (dySum ((List.range c).map fun q => ((ll q r).mul ⟨x.d.getD q 0, fd.frac⟩).mul (ll q c)))
    let (p, n) := j.pivotOf (j.el (j.aKey k k) 0 0).frac (rest c)
    match fd.fit p with
    | none => .error (dKey k)
    | some d =>
      match seqFit 16 fun r _ => if r ≤ c ∨ j.width k ≤ r then some 0 else fl.fitDiv (rest r) ⟨d, fd.frac⟩ with
      | none => .error (lKey k k)
      | some col => .ok { d := x.d ++ [d], l := x.l ++ [col], tiny := x.tiny + n }

/-- ldlt_scalar on a diagonal block: L without its unit diagonal, and D. -/
def Job.factorOut (j : Job) (k : Nat) : Except Place OpOut :=
  match (List.range 16).foldl (fun (acc : Except Place Fac) c => acc.bind (j.column k c)) (.ok {}) with
  | .error e => .error e
  | .ok x => .ok { outs := [(lKey k k, (List.range 256).map fun i => (x.l.getD (i % 16) []).getD (i / 16) 0), (dKey k, x.d)], tiny := x.tiny }

/-- a[i][k]·inv(l[k][k]ᵀ)·inv(d[k]). -/
def Job.panelOut (j : Job) (k i : Nat) : Except Place OpOut :=
  let f := j.keyFmt (lKey i k)
  oneOut (lKey i k) (seqFit 256 fun e xs =>
    let r := e / 16
    let c := e % 16
    if j.width k ≤ c then some 0
    else
      f.fitDiv ((j.el (j.aKey i k) r c).sub (dySum ((List.range c).map fun q =>
        ((⟨xs.getD (16 * r + q) 0, f.frac⟩ : Dy).mul (j.elem (dKey k) q)).mul (j.el (lKey k k) c q)))) (j.elem (dKey k) c))

/-- C ← C − A·B on a block of the matrix (R373, R377). -/
def Job.minus (j : Job) (i l : Nat) (prod : Nat → Nat → Dy) : Except Place OpOut :=
  oneOut (j.aKey i l) (blockFit (j.keyFmt (j.aKey i l)) fun r c => (j.el (j.aKey i l) r c).sub (prod r c))

/-- The forward substitution of a block row, in place of its right-hand side. -/
def Job.forwardOut (j : Job) (i : Nat) : Except Place OpOut :=
  let f := j.keyFmt (bKey i)
  oneOut (bKey i) (seqFit 16 fun r ys =>
    f.fit (((j.elem (bKey i) r).sub (dySum ((List.range i).flatMap fun q => (List.range 16).map fun s => (j.el (lKey i q) r s).mul (j.elem (bKey q) s)))).sub
      (dySum ((List.range r).map fun s => (j.el (lKey i i) r s).mul ⟨ys.getD s 0, f.frac⟩))))

/-- The back substitution of a block row, from its last variable up. -/
def Job.backOut (j : Job) (i : Nat) : Except Place OpOut :=
  let f := j.keyFmt (xKey i)
  let below (r : Nat) : Dy := dySum (((List.range j.rows).filter fun q => decide (i < q)).flatMap fun q =>
    (List.range 16).map fun s => (j.el (lKey q i) s r).mul (j.elem (xKey q) s))
  oneOut (xKey i) ((seqFit 16 fun t xs =>
    let r := 15 - t
    if j.width i ≤ r then some 0
    else
      let inner := dySum ((List.range t).map fun s => (j.el (lKey i i) (15 - s) r).mul ⟨xs.getD s 0, f.frac⟩)
      f.fitDiv ((j.elem (bKey i) r).sub ((j.elem (dKey i) r).mul ((below r).add inner))) (j.elem (dKey i) r)).map List.reverse)

/-- A landmark's damped 3 by 3 block, in the FRAC of its group's block: element (r, c) of landmark t of group g. -/
def Job.vAt (j : Job) (g t r c : Nat) : Int :=
  let x := j.el (j.hKey (j.rows + g) (j.rows + g)) (3 * t + r) (3 * t + c)
  if r = c then (j.damped x).at_ x.frac else x.v

/-- The inverse of a landmark's block, none where a pivot falls under R374 (R376): element (r, c) over the determinant. -/
def Job.vInv (j : Job) (g t : Nat) : Option ((Nat → Nat → Int) × Int) :=
  let v := j.vAt g t
  let frac := (j.el (j.hKey (j.rows + g) (j.rows + g)) (3 * t) (3 * t)).frac
  let m : Int := max (v 0 0).natAbs (max (v 1 1).natAbs (v 2 2).natAbs)
  let tau := (j.tau ⟨m, frac⟩ frac).v
  let co (r c : Nat) : Int := v ((r + 1) % 3) ((c + 1) % 3) * v ((r + 2) % 3) ((c + 2) % 3) - v ((r + 1) % 3) ((c + 2) % 3) * v ((r + 2) % 3) ((c + 1) % 3)
  let minor := v 0 0 * v 1 1 - v 1 0 * v 1 0
  let det := v 0 0 * co 0 0 + v 0 1 * co 0 1 + v 0 2 * co 0 2
  if j.marks ≤ 5 * g + t ∨ v 0 0 < tau ∨ v 0 0 ≤ 0 ∨ minor < tau * v 0 0 ∨ minor ≤ 0 ∨ det < tau * minor ∨ det ≤ 0 then none
  else some (fun r c => co c r, det)

/-- V⁻¹ of a landmark group, with the landmarks that are left out (R376). -/
def Job.landmarkOut (j : Job) (g : Nat) : Except Place OpOut :=
  let k := j.hKey (j.rows + g) (j.rows + g)
  let f := j.keyFmt k
  let frac := (j.el k 0 0).frac
  let inv := (List.range 5).map (j.vInv g)
  match seqFit 256 fun e _ =>
      let r := e / 16
      let c := e % 16
      match inv.getD (r / 3) none with
      | some (a, det) => if r / 3 = c / 3 then f.fitDiv ⟨a (r % 3) (c % 3), 2 * frac⟩ ⟨det, 3 * frac⟩ else some 0
      | none => some 0 with
  | none => .error k
  | some vs => .ok { outs := [(k, vs)], lost := ((List.range 5).filter fun t => decide (5 * g + t < j.marks) && (inv.getD t none).isNone).length }

/-- Block t of the host's BLOCK parcels. -/
def Job.givenAt (j : Job) (t : Nat) : Option (Parcel × Nat) :=
  (j.given.flatMap fun p => (List.range ((p.payload.length - 16) / 1040)).map fun i => (p, i))[t]?

/-- What an operation computes from its blocks, or the place whose fence trips (R371). -/
def Job.run (j : Job) (w : Work) : Except Place OpOut :=
  let s16 (f : Nat → Dy) : Dy := dySum ((List.range 16).map f)
  match w with
  | .load t =>
    match j.givenAt t with
    | none => .ok {}
    | some (p, i) =>
      let x := slice p.payload (16 + 1040 * i) 1040
      let k : Place := (if field x 4 4 = vecCol then field x 9 1 else (j.hKey (field x 0 4) (field x 4 4)).1, field x 0 4, field x 4 4)
      oneOut k (seqFit (if field x 4 4 = vecCol then 16 else 256) fun e _ => (j.keyFmt k).fit ⟨signedOf 32 (field x (16 + 4 * e) 4), field x 8 1⟩)
  | .damp i l =>
    oneOut (j.aKey i l) (blockFit (j.keyFmt (j.aKey i l)) fun r c =>
      if i = l ∧ r = c then j.damped (j.el (j.hKey i l) r c) else j.el (j.hKey i l) r c)
  | .landmark g => j.landmarkOut g
  | .gain g i =>
    oneOut (gKey (j.rows + g) i) (blockFit (j.keyFmt (gKey (j.rows + g) i)) fun r c =>
      s16 fun s => (j.el (j.hKey (j.rows + g) (j.rows + g)) r s).mul (j.el (j.hKey (j.rows + g) i) s c))
  | .reduce g i =>
    oneOut (bKey i) (seqFit 16 fun c _ => (j.keyFmt (bKey i)).fit ((j.elem (bKey i) c).sub
      (s16 fun s => (j.el (gKey (j.rows + g) i) s c).mul (j.elem (bKey (j.rows + g)) s))))
  | .schur g i l => j.minus i l fun r c => s16 fun s => (j.el (j.hKey (j.rows + g) i) s r).mul (j.el (gKey (j.rows + g) l) s c)
  | .factor k => j.factorOut k
  | .panel k i => j.panelOut k i
  | .update k i l => j.minus i l fun r c => s16 fun s => ((j.el (lKey i k) r s).mul (j.elem (dKey k) s)).mul (j.el (lKey l k) c s)
  | .forward i => j.forwardOut i
  | .back i => j.backOut i
  | .points g =>
    let f := j.keyFmt (xKey (j.rows + g))
    oneOut (xKey (j.rows + g)) (seqFit 16 fun r _ => f.fit ((s16 fun s => (j.el (j.hKey (j.rows + g) (j.rows + g)) r s).mul (j.elem (bKey (j.rows + g)) s)).sub
      (dySum ((List.range j.rows).flatMap fun i => (List.range 16).map fun s => (j.el (gKey (j.rows + g) i) r s).mul (j.elem (xKey i) s)))))
  | .linearise | .solved => .ok {}

/-! ### What a solve gives -/

/-- The step of a job in FP32, in unknown order. -/
def Job.stepWords (j : Job) : List (BitVec 32) :=
  (List.range j.unknowns).map fun i => let x := j.elem (xKey (i / 16)) (i % 16); fp32Of x.v (2 ^ x.frac)

/-- max|dx| over all variables, with 24 fraction bits, rounded down (R379). -/
def Job.maxStep (j : Job) : Nat :=
  (List.range (16 * (j.rows + j.groups))).foldl (fun m i =>
    let x := j.elem (xKey (i / 16)) (i % 16)
    max m (x.v.natAbs * 2 ^ 24 / 2 ^ x.frac)) 0

/-- Element (r, c) of L below its unit diagonal, by variable. -/
def Job.lAt (j : Job) (r c : Nat) : Dy := j.el (lKey (r / 16) (c / 16)) (r % 16) (c % 16)

/-- The inverse of the trailing 6 by 6 part of L, by rows, each row from those above it. -/
def Job.lInv6 (j : Job) : List (List Dy) :=
  let at0 := j.unknowns - 6
  (List.range 6).foldl (fun (rows : List (List Dy)) r =>
    rows ++ [(List.range 6).map fun c =>
      if r < c then ⟨0, 0⟩ else if r = c then ⟨1, 0⟩
      else (dySum ((List.range r).map fun q => (j.lAt (at0 + r) (at0 + q)).mul ((rows.getD q []).getD c ⟨0, 0⟩))).neg]) []

/-- (L₆·D₆·L₆ᵀ)⁻¹ in the order of R300, each element exact and rounded once to FP32 (R378). -/
def Job.poseCov (j : Job) : List (BitVec 32) :=
  let li := j.lInv6
  let d (q : Nat) : Dy := let v := j.unknowns - 6 + q; j.elem (dKey (v / 16)) (v % 16)
  (List.range 6).flatMap fun r => ((List.range 6).filter fun c => decide (r ≤ c)).map fun c =>
    let s := (List.range 6).foldl (fun (acc : Int × Nat) q =>
      let x := ((li.getD q []).getD r ⟨0, 0⟩).mul ((li.getD q []).getD c ⟨0, 0⟩)
      let den := (d q).v.toNat * 2 ^ x.frac
      (acc.1 * den + x.v * 2 ^ (d q).frac * acc.2, acc.2 * den)) (0, 1)
    fp32Of s.1 s.2

end Sys2Proof.Machine
end

