-- ==== Sys2Proof/Machine/AfuOps.lean ====
section
/-! DEFINITION. Alignment and fusion (chapter 09, R145 to R157): pages, the common instant, bringing samples and priors to it. -/

namespace Sys2Proof.Machine

/-! ### The fusion page and the transform table (Tables 09-1 and 09-2) -/

/-- A field of the fusion page of a set, with its default (R306). -/
def fusionIn (set : List Memory) (off n dflt : Nat) : Nat :=
  match pagePos set 6 0 with
  | some i => memField (set.getD i []) off n
  | none => dflt

/-- A field of the active fusion page. -/
def Block.fusion (b : Block) (off n dflt : Nat) : Nat := fusionIn b.cfg.active off n dflt

def Block.primarySlot (b : Block) : Nat := b.fusion 16 1 0
def Block.secondarySlot (b : Block) : Nat := b.fusion 17 1 0xFF
/-- The IFC channel of axis i of the primary or the secondary slot. -/
def Block.triad (b : Block) (secondary : Bool) (i : Nat) : Nat :=
  if secondary then b.fusion (26 + i) 1 0xFF else b.fusion (20 + i) 1 i
def Block.priorGate (b : Block) : BitVec 32 := BitVec.ofNat 32 (b.fusion 88 4 0x41B3AE14)
def Block.predHoldMax (b : Block) : Nat := b.fusion 92 4 1250000
/-- Whether a prior source contributes: its PRIOR_ENABLE bit, without HOST_PRIORS none (R80). -/
def Block.priorEnabled (b : Block) (s : Nat) : Bool := b.licensed featPriors && (b.fusion 96 2 0).testBit s

/-- TIME_OFFSET of a frame of the active transform table, zero without a valid entry (R301, R303, R304). -/
def Block.timeOffset (b : Block) (frame : Nat) : Int :=
  if b.setting 5 0 (64 + 48 * frame) 1 = 1 then signedOf 32 (b.setting 5 0 (64 + 48 * frame + 36) 4) else 0

/-- TABLE_VERSION of the active set. -/
def Block.tableVersion (b : Block) : Nat := b.setting 5 0 16 4

/-- The frames of a camera, an inertial slot and a prior source. -/
def Block.camFrame (b : Block) (c : Nat) : Nat := b.fusion (32 + c) 1 c
def Block.slotFrame (b : Block) (k : Nat) : Nat := b.fusion (38 + k) 1 (6 + k)
def Block.priorFrame (b : Block) (s : Nat) : Nat := b.fusion (44 + s) 1 (12 + s)

/-- The AFU's unit ID. -/
def afuUnit : BitVec 8 := 0x28

/-! ### The common instant (R145, R146, R303) -/

/-- REF_PORT. -/
def Block.refPort (b : Block) : Nat := memField (corePage b.cfg.active) 17 1

/-- The predicted mid-exposure of the reference camera's trigger (R146); a source that only a Frame End gives is free (log entry 5). -/
def Block.predictMid (k : Nat) (b : Block) : Int :=
  let rise := b.ep.start + b.port k 68 4
  let f : Frame := { no := 0, fs := rise + b.port k 60 4, gen := 0, page := pageAt b.cfg.active 2 k, matched := true, rise := rise,
                     fall := rise + b.port k 72 4 }
  (f.mid b.freeNow.toNat).2.2

/-- Whether a receiver's frame for the epoch may still come (R145): a frame is open; in triggered mode the epoch's trigger has yet to rise or to
meet its Frame Start; in stamped mode FOX_CUTOFF has not passed (DESIGN CHOICE, log entry 86). -/
def Block.portPending (k : Nat) (b : Block) : Bool :=
  let p := b.ports.getD k {}
  b.csiOn k && (p.frame.isSome ||
    if b.port k 42 1 = 1 then
      b.ep.now.toNat % max 1 (b.port k 77 1) == b.port k 78 1 &&
        (decide (b.now ≤ b.ep.start + b.port k 68 4) || p.trigs.any fun t => !t.met)
    else decide (b.now < b.ep.start + b.foxCutoff))

/-- Fixes t_c when the reference camera gave no frame for the epoch: predicted, and the POSE DEGRADED (R146). In stamped mode with no previous
t_c the spec gives no value, so it is free (log entry 5). -/
def Block.fixTc (b : Block) : Block :=
  if b.afu.tcDone then b
  else
    let k := b.refPort
    let t : Tick := if b.port k 42 1 = 1 then (b.predictMid k).toNat
      else match b.afu.tcPrev with | some t => t + b.ep.prevLen | none => b.freeNow.toNat
    Block.drew { b with afu := { b.afu with tc := t, tcDone := true }, ep := { b.ep with degraded := true } }

/-- The common instant with the reference camera's TIME_OFFSET (R303). -/
def Block.commonInstant (b : Block) : Int :=
  b.afu.tc + b.timeOffset (b.camFrame (b.camOf (memField (corePage b.cfg.active) 17 1)).toNat)

/-! ### EXTRAPOLATION_LIMIT (R151) -/

/-- Distance of two ticks. -/
def apart (x y : Int) : Nat := (x - y).natAbs

/-- The nearest of a list of stamps. -/
def nearest (t : Int) : List Int → Option Int
  | [] => none
  | x :: xs => some (xs.foldl (fun y z => if apart z t < apart y t then z else y) x)

/-- A contribution beyond 2.0 ms of t_c is dropped with EXTRAPOLATION_LIMIT, and the POSE is DEGRADED (R151). -/
def Block.limitEvent (kind which : Nat) (near tc : Int) (b : Block) : Block :=
  Block.event 0x0007 noUnit (leBytes 1 kind ++ leBytes 1 which ++ List.replicate 6 0 ++ leBytes 8 (BitVec.ofInt 64 near).toNat
    ++ leBytes 8 (BitVec.ofInt 64 tc).toNat) { b with ep := { b.ep with degraded := true } }

/-! ### Inertial samples about t_c -/

/-- The slot whose outputs the AFU uses in the epoch (R311). -/
def Block.inertialSlot (b : Block) : Nat := if b.afu.secondary then b.secondarySlot else b.primarySlot

/-- The primary or the secondary slot. -/
def Block.slotOf (b : Block) (sec : Bool) : Nat := if sec then b.secondarySlot else b.primarySlot

/-- A record's stamp with its slot frame's TIME_OFFSET (R303). -/
def Block.recStamp (b : Block) (sec : Bool) (r : IfcRec) : Int := (r.stamp.toNat : Int) + b.timeOffset (b.slotFrame (b.slotOf sec))

/-- The records of axis i, newest first. -/
def Block.axis (b : Block) (sec : Bool) (i : Nat) : List (IfcRec × InRef) := (b.afu.outs.getD (b.triad sec i) {}).recs

/-- The two records of a list nearest to an instant, the earlier first (R147). -/
def Block.bracket (b : Block) (sec : Bool) (t : Int) (l : List (IfcRec × InRef)) : List (IfcRec × InRef) :=
  sortBy (fun x y => decide (b.recStamp sec x.1 ≤ b.recStamp sec y.1))
    ((sortBy (fun x y => decide (apart (b.recStamp sec x.1) t ≤ apart (b.recStamp sec y.1) t)) l).take 2)

/-- v0 + (v1 − v0) × w with w in FP32, rounded into the channel's S32 format (R148); outside [t0, t1] too (R150). -/
def bring (t t0 t1 v0 v1 : Int) : Int :=
  let w := fp32Div (fp32Of (t - t0) 1) (fp32Of (t1 - t0) 1)
  saturate 32 (rneDiv (v0 * 2 ^ 149 + (v1 - v0) * fp32Num w) (2 ^ 149))

/-- The value of axis i at an instant, and the outputs it rests on: an output stamped there, else the two nearest brought to it (R147, R148). With
fewer than two outputs the spec gives no value, so it is free (log entry 5). -/
def Block.axisAt (b : Block) (sec : Bool) (i : Nat) (t : Int) : Int × List (IfcRec × InRef) :=
  let l := b.axis sec i
  match l.find? fun x => b.recStamp sec x.1 == t with
  | some x => (x.1.value.toInt, [x])
  | none =>
    match b.bracket sec t l with
    | [x, y] => (bring t (b.recStamp sec x.1) (b.recStamp sec y.1) x.1.value.toInt y.1.value.toInt, [x, y])
    | l => (signedOf 32 b.freeNow.toNat, l)

/-- A transform table entry's rotation, normalised (R302), and its origin. -/
def Block.frameRot (b : Block) (frame : Nat) : Q4 := (q4At (memBytes (pageAt b.cfg.active 5 0) (64 + 48 * frame + 8) 16) 0).unit
def Block.frameOrigin (b : Block) (frame : Nat) : V3 := v3At (memBytes (pageAt b.cfg.active 5 0) (64 + 48 * frame + 24) 12) 0

/-- A sample point: the rotated gyro and accelerometer values, and whether their triads are tainted (R308, R309). -/
structure ImuPt where
  t      : Int
  gyro   : V3
  accel  : V3
  taintG : Bool
  taintA : Bool
deriving DecidableEq, Repr

/-- The six axes' values as a sample point: FP32 of the channels' formats, rotated into B (R308). -/
def Block.imuOf (b : Block) (sec : Bool) (t : Int) (vs : List (Int × List (IfcRec × InRef))) : ImuPt :=
  let q := b.frameRot (b.slotFrame (b.slotOf sec))
  let f (i : Nat) : BitVec 32 := fp32Of (vs.getD i (0, [])).1 (2 ^ b.chanF (b.triad sec i) 8 1)
  let taint (is : List Nat) : Bool := is.any fun i => (vs.getD i (0, [])).2.any fun x => x.1.flags.getLsbD 0
  { t := t, gyro := q.rot ⟨f 0, f 1, f 2⟩, accel := q.rot ⟨f 3, f 4, f 5⟩, taintG := taint [0, 1, 2], taintA := taint [3, 4, 5] }

/-- The sample point of an instant. -/
def Block.imuAt (b : Block) (sec : Bool) (t : Int) : ImuPt := b.imuOf sec t ((List.range 6).map fun i => b.axisAt sec i t)

/-- The stamps of a slot's outputs strictly between two instants, in order. -/
def Block.stampsIn (b : Block) (sec : Bool) (t0 t1 : Int) : List Int :=
  sortBy (fun x y => decide (x ≤ y)) (((List.range 6).flatMap fun i => (b.axis sec i).map fun x => b.recStamp sec x.1).filter
    fun s => decide (t0 < s) && decide (s < t1)).eraseDups

/-- The outputs of axis i that an interval's sample points use: those strictly inside it, and the two nearest to each endpoint that stands
(R309, R311). -/
def Block.used (b : Block) (sec : Bool) (i : Nat) (t0 t1 : Int) (ends : List Int) : List (IfcRec × InRef) :=
  let l := b.axis sec i
  let inside := l.filter fun x => decide (t0 < b.recStamp sec x.1) && decide (b.recStamp sec x.1 < t1)
  inside ++ ((ends.flatMap fun t => b.bracket sec t l).filter fun x => !inside.contains x).eraseDups

/-- References in order of first verification (R163, R313). -/
def Block.inOrder (b : Block) (rs : List InRef) : List InRef := b.afu.arrived.reverse.filter rs.contains

/-! ### Priors (R315 to R317) -/

/-- A prior's stamp with its frame's TIME_OFFSET. -/
def Block.priorStamp (b : Block) (s : Nat) (p : PriorRec) : Int := (p.stamp : Int) + b.timeOffset (b.priorFrame s)

/-- What a source brings to t_c (R147, R151, R315): nothing without two priors, its pair, the earlier first, with the nearest stamp, or a stamp
beyond the limit. -/
inductive PriorAt where
  | none | pair (x y : PriorRec) (near : Int) | far (near : Int)
deriving DecidableEq, Repr

/-- The pair of a source nearest to t_c. -/
def Block.priorAt (s : Nat) (tc : Int) (b : Block) : PriorAt :=
  let l := b.afu.priors.getD s []
  if !b.priorEnabled s || l.length < 2 then .none
  else
    match (sortBy (fun x y => decide (apart (b.priorStamp s x) tc ≤ apart (b.priorStamp s y) tc)) l).take 2 with
    | [x, y] =>
      if 500000 < apart (b.priorStamp s x) tc then .far (b.priorStamp s x)
      else if x.stamp ≤ y.stamp then .pair x y (b.priorStamp s x) else .pair y x (b.priorStamp s x)
    | _ => .none

/-! ### Bringing priors to the common instant (R149, R315) -/

/-- The cubic Hermite basis at s: h00, h10, h01 and h11 (R149). -/
def hermite (s : BitVec 32) : BitVec 32 × BitVec 32 × BitVec 32 × BitVec 32 :=
  let s2 := fp32Mul s s
  let s3 := fp32Mul s2 s
  let two : BitVec 32 := 0x40000000
  let three : BitVec 32 := 0x40400000
  (fp32Add (fp32Sub (fp32Mul two s3) (fp32Mul three s2)) f32One, fp32Add (fp32Sub s3 (fp32Mul two s2)) s,
   fp32Add (fp32Mul (fp32Neg two) s3) (fp32Mul three s2), fp32Sub s3 s2)

/-- x(s) of R149, coordinate by coordinate. -/
def hermiteAt (s delta : BitVec 32) (x0 u0 x1 u1 : V3) : V3 :=
  let h := hermite s
  (((x0.scale h.1).add (u0.scale (fp32Mul h.2.1 delta))).add (x1.scale h.2.2.1)).add (u1.scale (fp32Mul h.2.2.2 delta))

/-- p_WP and q_WP of a prior (Table 09-4). -/
def PriorRec.pos (p : PriorRec) : V3 := v3At p.payload 16
def PriorRec.rot (p : PriorRec) : Q4 := q4At p.payload 28
/-- Its covariance. -/
def PriorRec.cov (p : PriorRec) : List (BitVec 32) := (List.range 21).map (wordAt p.payload 68)

/-- The priors of a source next to one by stamp: its neighbours before and after, itself where there is none. -/
def besides (l : List PriorRec) (p : PriorRec) : PriorRec × PriorRec :=
  let before := l.filter fun x => x.stamp < p.stamp
  let after := l.filter fun x => p.stamp < x.stamp
  (before.foldl (fun (y : Option PriorRec) x => match y with | some z => if z.stamp < x.stamp then some x else y | none => some x) none |>.getD p,
   after.foldl (fun (y : Option PriorRec) x => match y with | some z => if x.stamp < z.stamp then some x else y | none => some x) none |>.getD p)

/-- The linear velocity at a prior, and its angular velocity against the reference rotation q0: those it carries, or the finite differences over
its neighbours (R149). -/
def PriorRec.rates (l : List PriorRec) (q0 : Q4) (p : PriorRec) : V3 × V3 :=
  if (p.payload.getD 1 0).getLsbD 0 then (v3At p.payload 44, v3At p.payload 56)
  else
    let (x, y) := besides l p
    let k := fp32Div f32One (secondsOf ((y.stamp : Int) - x.stamp))
    ((y.pos.sub x.pos).scale k, ((q0.conj.mul y.rot).log.sub (q0.conj.mul x.rot).log).scale k)

/-- A pair of priors brought to t_c (R149, R150), then into B (R315): p_WB, q_WB and the covariance. `tc` is t_c less the source's
TIME_OFFSET. -/
def Block.priorFactor (s : Nat) (tc : Int) (x y : PriorRec) (b : Block) : PriorFactor :=
  let l := b.afu.priors.getD s []
  let w := fp32Div (fp32Of (tc - x.stamp) 1) (fp32Of ((y.stamp : Int) - x.stamp) 1)
  let d := secondsOf ((y.stamp : Int) - x.stamp)
  let (u0, w0) := x.rates l x.rot
  let (u1, w1) := y.rates l x.rot
  let p := hermiteAt w d x.pos u0 y.pos u1
  let q := (x.rot.mul (expQ (hermiteAt w d {} w0 (x.rot.conj.mul y.rot).log w1))).unit
  let qB := b.frameRot (b.priorFrame s)
  let qW := (q.mul qB.conj).pos
  { source := s, pose := (p.sub (qW.rot (b.frameOrigin (b.priorFrame s)))).words ++ qW.words
    cov := rotateCov qB.matrix (Config.priorCov x.cov y.cov w) }

/-- A prior's rejection: counted, and PRIOR_REJECTED (R314, R316). -/
def Block.rejectPrior (source cause stamp : Nat) (d2 : BitVec 32) (b : Block) : Block :=
  Block.event 0x0009 noUnit (leBytes 1 source ++ leBytes 1 cause ++ List.replicate 6 0 ++ leBytes 8 stamp
    ++ leBytes 4 (if cause = 5 then d2.toNat else 0))
    { b with afu := { b.afu with rejected := bump b.afu.rejected } }

/-- The contributions of an epoch's priors. -/
structure PriorUse where
  refs    : List (Int × InRef) := []
  mask    : BitVec 16 := 0
  factors : List PriorFactor := []
deriving DecidableEq, Repr

/-- Takes the contributing priors of an epoch: the references in stamp order, the mask of sources and the factors (R315, R316, R363). `gates` gives
each source's squared Mahalanobis distance. -/
def Block.takePriors (gates : List (BitVec 4 × BitVec 32)) (b : Block) : Block × PriorUse :=
  let tc := b.commonInstant
  let r := (List.range 16).foldl (fun (acc : Block × PriorUse) s =>
    match b.priorAt s tc with
    | .none => acc
    | .far near => (acc.1.limitEvent 1 s near tc, acc.2)
    | .pair x y near =>
      let d2 := match gates.find? fun g => g.1.toNat == s with | some g => g.2 | none => 0
      if fp32Lt b.priorGate d2 then
        (acc.1.rejectPrior s 5 (if b.priorStamp s x = near then x.stamp else y.stamp) d2, acc.2)
      else (acc.1, { refs := acc.2.refs ++ [(b.priorStamp s x, x.src), (b.priorStamp s y, y.src)], mask := setBit acc.2.mask s,
                     factors := acc.2.factors ++ [b.priorFactor s (tc - b.timeOffset (b.priorFrame s)) x y] }))
    (b, {})
  (r.1, { r.2 with refs := sortBy (fun x y => decide (x.1 ≤ y.1)) r.2.refs })

/-! ### The flags of the epoch's POSE (Table 09-6) -/

/-- The flags that a record takes from the newest PREINT and from TIME_LOST (Table 09-6). -/
def Block.commonFlags (b : Block) : Nat :=
  let f := match b.afu.preint with | some p => field p.payload 18 2 | none => 0
  16 * b.thermos.timeLost.toNat + 32 * (decide (f % 4 ≠ 0)).toNat + 64 * (decide (f / 4 % 4 ≠ 0) || decide (f / 64 % 2 = 1)).toNat

/-- The flags that the next POSE carries: RELOCALISED, KEYFRAME, CALIB_CHANGED (Table 09-6). -/
def Block.dueFlags (b : Block) : Nat := 8 * b.afu.relocDue.toNat + 128 * b.afu.keyDue.toNat + 256 * b.afu.calibDue.toNat

end Sys2Proof.Machine
end

