-- ==== Sys2Proof/Machine/OwlOps.lean ====
section
/-! DEFINITION. The tree-ensemble scorer (chapter 10): slots, the front stage, traversal, link functions and results. -/

namespace Sys2Proof.Machine

/-! ### Slots (Table 10-1) -/

/-- A field of a slot's page in a set. -/
def owlIn (set : List Memory) (s off n : Nat) : Nat := memField (pageAt set 8 s) off n

/-- The model a slot would run under a set: the hamper section or the host's (Table 10-1), none when there is none. -/
def Block.modelIn (b : Block) (set : List Memory) (s : Nat) : Option Bytes :=
  if owlIn set s 19 1 = 0 then b.boot.models.getD s none else (b.owl.slots.getD s {}).host

/-- The model of a slot that is enabled in the active set and not lost (R324, R571). -/
def Block.slotModel (b : Block) (s : Nat) : Option Bytes :=
  if owlIn b.cfg.active s 16 1 = 1 && !(b.owl.slots.getD s {}).lost then b.modelIn b.cfg.active s else none

/-- The enabled slot that serves an in-engine use, while a thread is live (R347, R577). -/
def Block.useSlot (b : Block) (use : Nat) : Option Nat :=
  if b.flt.threads = 0 then none
  else (List.range 8).find? fun s => owlIn b.cfg.active s 24 1 == use && (b.slotModel s).isSome

/-- Counts in one of a slot's counters, by an amount: SAMPLES, NAN_SEEN, MISSING_USED, GATE_LATE (R354). -/
def Block.owlCount (s i n : Nat) (b : Block) : Block :=
  { b with owl := { b.owl with slots := b.owl.slots.modify s fun x => { x with counters := x.counters.modify i fun c => bumpBy c n } } }

/-- The unit ID of a thread. -/
def threadUnit (t : Nat) : BitVec 8 := BitVec.ofNat 8 (0x40 + t)

/-- The lowest live thread. -/
def Block.lowestThread (b : Block) : Nat := ((List.range 32).find? fun t => b.flt.threads.getLsbD t).getD 0

/-! ### Model header (Table 10-3) -/

def modelMode (m : Bytes) : Nat := field m 6 1
def modelDepth (m : Bytes) : Nat := field m 7 1
def modelTrees (m : Bytes) : Nat := field m 8 2
def modelRaws (m : Bytes) : Nat := field m 10 2
def modelCrosses (m : Bytes) : Nat := field m 12 2
def modelLink (m : Bytes) : Nat := field m 14 1
def modelClasses (m : Bytes) : Nat := field m 15 1
def modelLeafFrac (m : Bytes) : Nat := field m 16 1
def modelStages (m : Bytes) : Nat := field m 18 2
def modelFeature (m : Bytes) (i : Nat) : Bytes := slice m (field m 20 4 + 16 * i) 16
def modelCross (m : Bytes) (i : Nat) : Bytes := slice m (field m 24 4 + 8 * i) 8
def modelTable (m : Bytes) : Nat := field m 28 4
def modelBase (m : Bytes) : Nat := field m 32 4
def modelTree (m : Bytes) : Nat := field m 36 4
def modelLength (m : Bytes) : Nat := field m 40 4

/-! ### Front stage (R328 to R332) -/

/-- A key with what the front stage noted: whether it came from a missing value, and whether from a NaN. -/
structure Key where
  val     : Nat
  missing : Bool := false
  nan     : Bool := false
deriving DecidableEq, Repr

/-- Whether an FP16 pattern is a NaN. -/
def fp16Nan (x : Nat) : Bool := x / 1024 % 32 == 31 && x % 1024 != 0

/-- A raw field in FP32 (R12): integers with their fraction bits, FP16 and BF16 exactly, infinities and NaN kept. -/
def toFp32 (fmt : Format) (frac : Nat) (raw : Nat) : BitVec 32 :=
  match fmt with
  | .u8 => fp32Of (raw % 2 ^ 8 : Nat) (2 ^ frac)
  | .s16 => fp32Of (signedOf 16 raw) (2 ^ frac)
  | .s32 => fp32Of (signedOf 32 raw) (2 ^ frac)
  | .s64 => fp32Of (signedOf 64 raw) (2 ^ frac)
  | .fp16 =>
    let x := raw % 65536
    if fp16Finite x then fp32Of (fp16Num x) (2 ^ 24)
    else BitVec.ofNat 32 (x / 32768 * 2 ^ 31 + 0x7F800000 + (if fp16Nan x then 0x400000 else 0))
  | .bf16 => BitVec.ofNat 32 (raw % 65536 * 65536)
  | _ => BitVec.ofNat 32 raw

/-- A bypass key (Table 10-5, R332). -/
def bypassKey (fmt : Format) (raw : Nat) : Key :=
  let x := raw % 65536
  match fmt with
  | .u8 => { val := raw % 256 }
  | .s16 => { val := Nat.xor x 0x8000 }
  | .fp16 => if fp16Nan x then { val := 0xFFFF, nan := true } else { val := Nat.xor x (if x < 0x8000 then 0x8000 else 0xFFFF) }
  | _ => if fp32Nan (BitVec.ofNat 32 (x * 65536)) then { val := 0xFFFF, nan := true }
         else { val := Nat.xor x (if x < 0x8000 then 0x8000 else 0xFFFF) }

/-- An integer clamped to a key. -/
def clampKey (v : Int) : Nat := (max 0 (min v 0xFFFF)).toNat

/-- A scale key: A × x and the sum with B are each rounded to FP32 (Table 10-5). -/
def scaleKey (a x c : BitVec 32) : Nat :=
  if fp32Finite x then clampKey (rneDiv (fp32Num (fp32Add (fp32Mul a x) c)) (2 ^ 149)) else if x.getLsbD 31 then 0 else 0xFFFF

/-- The key of raw feature i (R328, R331, R332). -/
def rawKey (m : Bytes) (i : Nat) (v : Option (BitVec 64)) : Key :=
  let r := modelFeature m i
  let missing : Key := { val := field r 4 2, missing := true }
  match v with
  | none => missing
  | some w =>
    let raw := w.toNat
    let fmt := formatOf (field r 1 1)
    let x := toFp32 fmt (field r 2 1) raw
    let at_ := modelTable m + field r 8 4
    match field r 0 1 with
    | 0 => bypassKey fmt raw
    | 1 => if fp32Nan x then missing
           else { val := ((List.range (field r 6 2)).filter fun e => decide (fp32Num (BitVec.ofNat 32 (field m (at_ + 4 * e) 4)) ≤ fp32Num x)).length }
    | 2 => if fp32Nan x then missing
           else { val := scaleKey (BitVec.ofNat 32 (field r 8 4)) x (BitVec.ofNat 32 (field r 12 4)) }
    | _ =>
      let n : Int := match fmt with | .u8 => (raw % 256 : Nat) | _ => signedOf 16 raw
      if n < 0 || (field r 6 2 : Int) ≤ n then missing else { val := field m (at_ + 2 * n.toNat) 2 }

/-- The keys of a sample: the raw features', then the cross keys' (R330). -/
def sampleKeys (m : Bytes) (raw : List (Option (BitVec 64))) : List Key :=
  let ks := (List.range (modelRaws m)).map fun i => rawKey m i (raw.getD i none)
  ks ++ (List.range (modelCrosses m)).map fun i =>
    let r := modelCross m i
    let a := ks.getD (field r 0 2) { val := 0 }
    let c := ks.getD (field r 2 2) { val := 0 }
    if a.missing || c.missing || a.nan || c.nan then { val := field r 4 2 } else { val := 256 * a.val + c.val }

/-! ### Traversal (R333 to R341) -/

/-- The key a node compares. -/
def keyAt (ks : List Key) (i : Nat) : Nat := (ks.getD (i % 512) { val := 0 }).val

/-- The entry a walk of a complete tree ends at (R333, R338). -/
def walkComplete (m : Bytes) (ks : List Key) (base : Nat) : Nat → Nat → Nat
  | 0, i => i
  | d + 1, i =>
    let n := slice m (base + 8 * i) 8
    walkComplete m ks base d (if keyAt ks (field n 0 2) < field n 2 2 then 2 * i + 1 else 2 * i + 2)

/-- The leaf that a walk of a pipeline tree reaches (R333, R339): `start` is the level's first entry, `size` its nodes. -/
def walkPipeline (m : Bytes) (ks : List Key) : Nat → Nat → Nat → Nat → Nat
  | 0, _, _, _ => 0
  | d + 1, start, size, i =>
    let at_ (k : Nat) : Bytes := slice m (modelTree m + 8 * (start + k)) 8
    let n := at_ i
    let left : Bool := decide (keyAt ks (field n 0 2) < field n 2 2)
    let child := if left then field n 4 2 else field n 6 2
    if (field n 0 2).testBit (if left then 14 else 15) then child
    else
      let next := ((List.range size).map fun k => (!(field (at_ k) 0 2).testBit 14).toNat + (!(field (at_ k) 0 2).testBit 15).toNat).sum
      walkPipeline m ks d (start + size) next child

/-- The leaf value of tree t. -/
def treeValue (m : Bytes) (ks : List Key) (t : Nat) : Int :=
  if modelMode m = 0 then
    let base := modelTree m + 8 * (2 ^ (modelDepth m + 1) - 1) * t
    signedOf 32 (field m (base + 8 * walkComplete m ks base (modelDepth m) 0) 4)
  else
    let dir := slice m (modelTree m + 8 * t) 8
    signedOf 32 (field m (modelTree m + 8 * field dir 5 3 + 4 * walkPipeline m ks (field dir 0 1) (field dir 2 3) 1 0) 4)

/-- The margin of a class (R334). -/
def margin (m : Bytes) (ks : List Key) (c : Nat) : Int :=
  signedOf 32 (field m (modelBase m + 4 * c) 4)
    + (((List.range (modelTrees m)).filter fun t => t % max 1 (modelClasses m) == c).map fun t => treeValue m ks t).sum

/-! ### Results (R342 to R346) -/

/-- e to a fixed-point power, taken between −128 and 128: beyond, FP32 has reached its least or its greatest value. -/
def fixExpIn (x : Int) : Int := fixExp (max (-128 * fixOne) (min x (128 * fixOne)))

/-- A link function's exact value on FP32 margins, rounded once (R342); an FP32 above the greatest finite one saturates (R13). -/
def linkExact (link : Nat) (fs : List (BitVec 32)) (c : Nat) : BitVec 32 :=
  let m (i : Nat) : Int := fixOf (fs.getD i 0)
  match link with
  | 0 => fs.getD c 0
  | 1 => fp32Of fixOne (fixOne + fixExpIn (-(m c))).toNat
  | 2 =>
    let top := (List.range fs.length).foldl (fun a i => max a (m i)) (m 0)
    fp32Of (fixExpIn (m c - top)) ((List.range fs.length).map fun i => fixExpIn (m i - top)).sum.toNat
  | _ => fp32Exp (fs.getD c 0)

/-- An FP32 that is not negative, moved by a number of ULP less two. -/
def ulpsOff (x : BitVec 32) (n : Nat) : BitVec 32 := BitVec.ofNat 32 (min 0x7F7FFFFF (x.toNat + n - 2))

/-- The probabilities of a sample's margins: within 2 ULP of the exact value rounded once, the same for the same margins (R335, R342). -/
def linkProbs (m : Bytes) (margins : List Int) : List (BitVec 32) :=
  let fs := margins.map fun v => fp32Of v (2 ^ modelLeafFrac m)
  (List.range fs.length).map fun c =>
    if modelLink m = 0 then fs.getD c 0 else ulpsOff (linkExact (modelLink m) fs c) (Config.linkUlps (modelLink m) fs c).val

/-- The class with the greatest probability, the lowest index winning ties (R342). -/
def bestClass (ps : List (BitVec 32)) : Nat :=
  ((ps.zipIdx).foldl (fun (best : Nat × BitVec 32) p => if fp32Lt best.2 p.1 then (p.2, p.1) else best) (0, ps.headD 0)).1

/-- The record of a sample under a threshold (Table 10-8, R345). -/
def scoreSample (m : Bytes) (threshold : BitVec 32) (index : Nat) (raw : List (Option (BitVec 64))) : OwlRec :=
  let ks := sampleKeys m raw
  let ms := (List.range (max 1 (modelClasses m))).map (margin m ks)
  let ps := linkProbs m ms
  let c := bestClass ps
  { index := BitVec.ofNat 16 index
    flags := BitVec.ofNat 8 ((ks.any Key.nan).toNat + 2 * (ks.any Key.missing).toNat + 4 * (!fp32Lt (ps.getD c 0) threshold).toNat)
    cls := BitVec.ofNat 8 c
    margin := BitVec.ofInt 64 (ms.headD 0)
    probs := ps
    nans := ((ks.take (modelRaws m)).filter Key.nan).length }

/-- Whether a record passes. -/
def OwlRec.pass (r : OwlRec) : Bool := r.flags.getLsbD 2

/-- A record's bytes. -/
def OwlRec.bytes (r : OwlRec) : Bytes :=
  padTo 8 (leBytes 2 r.index.toNat ++ [r.flags, r.cls, 0, 0, 0, 0] ++ leBytes 8 r.margin.toNat ++ r.probs.flatMap fun p => leBytes 4 p.toNat)

/-- The OWL_RESULT payloads of records, each parcel closed when the next record would not fit (R344). -/
def owlPayloads (slot use gen tag : Nat) (recs : List OwlRec) : List Bytes :=
  let size := max 1 (((recs.map fun r => r.bytes.length).headD 24))
  let n := max 1 (4080 / size)
  (List.range ((recs.length + n - 1) / n)).map fun i =>
    let rs := (recs.drop (n * i)).take n
    leBytes 1 slot ++ leBytes 1 use ++ leBytes 2 rs.length ++ leBytes 4 gen ++ leBytes 4 tag ++ leBytes 4 0 ++ rs.flatMap OwlRec.bytes

/-- Counts records in their slot's counters (R332, R354): SAMPLES, each NaN on a bypass feature, MISSING_USED. -/
def Block.countRecs (s : Nat) (recs : List OwlRec) (b : Block) : Block :=
  ((b.owlCount s 0 recs.length).owlCount s 1 (recs.map OwlRec.nans).sum).owlCount s 2 ((recs.filter fun r => r.flags.getLsbD 1).length)

/-- Scores an in-engine use on a slot: its records, its OWL_RESULT parcels with a copy on stream 4 where REPORT asks for one (R344),
and the references of the parcels. -/
def Block.engineScore (s use : Nat) (samples : List Sample) (ins : List InRef) (b : Block) : Block × List OwlRec × List InRef :=
  match b.slotModel s with
  | none => (b, [], [])
  | some m =>
    let recs := (samples.zipIdx).map fun (x, i) => scoreSample m (BitVec.ofNat 32 (owlIn b.cfg.active s 28 4)) i x.raw
    let unit := threadUnit b.lowestThread
    let pays := owlPayloads s use b.cfg.gen.toNat (b.ep.now.toNat % 2 ^ 32) recs
    let r := pays.foldl (fun (acc : Block × List InRef) p =>
      let ref := (acc.1.flowParcel (0xC8 + s) 0x0502 unit p ins).ref
      let b1 := acc.1.flow (0xC8 + s) 0x0502 unit p ins
      (if (owlIn b.cfg.active s 25 1).testBit 0 then b1.emit 4 0x0502 unit p ins else b1, acc.2 ++ [ref])) (b.countRecs s recs, [])
    (r.1, recs, r.2)

/-! ### The cameras of the VIO problem -/

/-- The cameras whose tracks enter VIO: claimed by an enabled port with ROLE 1 (Table 08-1). -/
def Block.trackCams (b : Block) : List Nat :=
  (List.range 6).filter fun c => foxRole b.cfg.active c == 1 &&
    (match claimPort b.cfg.active c with | some k => b.port k 16 1 == 1 | none => false)

/-- The cameras that contribute to the epoch. -/
def Block.usedCams (b : Block) : List Nat := b.trackCams.filter fun c => (b.foxReady c).isSome

/-- The TRACK parcels of a camera's completed frame, by band (R363). -/
def Block.trackRefs (c : Nat) (b : Block) : List InRef :=
  match b.foxReady c with
  | none => []
  | some f => f.bands.flatMap Band.trk

/-- Whether a record may enter assembly: TRACKED and NEW (Table 10-9). -/
def Track.gateable (t : Track) : Bool := t.status == 0 || t.status == 1

/-- The IDs of the records of a camera that may enter assembly. -/
def gateable (ts : List Track) : List (BitVec 32) := (ts.filter Track.gateable).map Track.id

/-- The records of a camera that enter assembly. -/
def Block.gatedTracks (c : Nat) (b : Block) : List Track :=
  (b.doneTracks c).filter fun t => ((b.owl.gated.getD c none).getD []).contains t.id

/-- Whether the epoch's VIO problem ended with a solution. -/
def Block.solvedNow (b : Block) : Bool :=
  match b.afu.sol with
  | some s => field s.parcel.payload 8 8 == b.ep.now.toNat && b.badger.vioDone
  | none => false

/-! ### In-engine uses before host jobs (R347, R348, R351) -/

/-- Whether an in-engine use has its inputs, a slot to score it and a result still to give (Table 10-9). -/
def Block.useReady (b : Block) (use : Nat) : Bool :=
  (b.useSlot use).isSome && match use with
    | 1 => b.usedCams.any fun c => (b.owl.gated.getD c none).isNone
    | 2 => b.solvedNow && !b.badger.keyDone
    | 3 => b.owl.cullDue
    | 4 => b.owl.loopDue
    | _ => b.afu.preintDone && !b.owl.motionDone

/-- Whether the threads go to host jobs: live ones, in an engine that runs, with no in-engine use ready (R348, R600). -/
def Block.threadsForHost (b : Block) : Bool :=
  b.unitsRun 6 && b.flt.threads != 0 && [1, 2, 3, 4, 5].all fun u => !b.useReady u

/-- The first sample of the host job at the head of the work list enters traversal: its command is past its commit point (R351, log entry
94). -/
def Block.owlEnter (b : Block) : Block :=
  match b.owl.jobs with
  | [] => b
  | j :: js =>
    if j.entered || !b.threadsForHost then b
    else
      let b1 := { b with owl := { b.owl with jobs := { j with entered := true } :: js } }
      match j.owner with
      | some r => b1.stage r .committed
      | none => b1

/-! ### Raw features drawn from the engine (Table 10-9, log entry 93) -/

/-- A raw field of an integer format. -/
def rawInt (v : Int) : Option (BitVec 64) := some (BitVec.ofInt 64 v)
/-- A raw FP32 field. -/
def rawF32 (v : BitVec 32) : Option (BitVec 64) := some (v.setWidth 64)
/-- A raw field from the operands of a scoring, for what no state holds. -/
def openRaw (x : OwlIn) (key i : Nat) : Option (BitVec 64) :=
  match x.samples.find? fun y => y.key == key with
  | some y => y.raw.getD i none
  | none => none

/-- The seconds of the newest PREINT's interval, and its increments as FP32 words from byte 24 on. -/
def Block.preintSpan (b : Block) : BitVec 32 × Bytes :=
  match b.afu.preint with
  | some p => (secondsOf (signedOf 64 (field p.payload 8 8) - signedOf 64 (field p.payload 0 8)), p.payload)
  | none => (0, [])

/-- The mean angular rate of the newest PREINT. -/
def Block.meanRate (b : Block) : V3 := (q4At b.preintSpan.2 24).log.scale (fp32Div f32One b.preintSpan.1)
/-- The mean acceleration of the newest PREINT. -/
def Block.meanAccel (b : Block) : V3 := (v3At b.preintSpan.2 40).scale (fp32Div f32One b.preintSpan.1)

/-- The raw features of the outlier gate for the i-th record of a camera's frame. A NEW record has no prediction: its displacement is open and
free (log entry 5). -/
def Block.gateRaw (cam : Nat) (f : FoxFrame) (t : Track) (i : Nat) (b : Block) : List (Option (BitVec 64)) :=
  let old := f.base.feats.find? fun x => x.id == t.id
  let away (v : BitVec 32) (p : Int × Int → Int) (k : Nat) : Option (BitVec 64) :=
    match old, f.mid with
    | some x, some m => rawF32 (fp32Of (v.toInt - p (x.predict m.1)) 64)
    | _, _ => rawF32 ((Config.freeValue (b.fresh + 2 * i + k)).setWidth 32)
  [rawInt t.resid.toInt, rawInt t.iters.toNat, rawInt t.age.toNat, rawInt t.resp.toInt, away t.x Prod.fst 0, away t.y Prod.snd 1,
   old.bind fun x => rawInt (popcount (t.desc ^^^ x.desc)), rawInt cam, rawInt t.status.toNat,
   rawF32 (fp32Of t.y.toInt (64 * max 1 (memField (pageAt f.set 2 f.port) 26 2))), rawF32 b.meanRate.norm, rawInt (t.flags.getLsbD 1).toNat]

/-- The gate's samples: each TRACKED or NEW record of a camera's frame. -/
def Block.gateSamples (cam : Nat) (b : Block) : List Sample :=
  match b.foxReady cam with
  | none => []
  | some f => ((f.tracks.filter Track.gateable).zipIdx).map fun (t, i) => { raw := b.gateRaw cam f t i, key := t.id.toNat }

/-- The newest keyframe's head, while the map holds it and the engine made it. -/
def Block.newestKf (b : Block) : Option Bytes :=
  if b.badger.keyFeats.isEmpty then none
  else (b.map.kfs.find? fun k => k.id == b.afu.lastKf.toNat).map fun k => fit 256 (b.object (kfAddr k))

/-- The median of a list of FP32 that are not negative: the mean of the middle two of an even number; zero of none. -/
def medianOf (vs : List (BitVec 32)) : BitVec 32 :=
  let s := sortBy (fun (x y : BitVec 32) => decide (x.toNat ≤ y.toNat)) vs
  let n := s.length
  if n % 2 = 1 then s.getD (n / 2) 0 else if n = 0 then 0 else fp32Mul (fp32Add (s.getD (n / 2 - 1) 0) (s.getD (n / 2) 0)) 0x3F000000

/-- The raw features of the keyframe decision, from the epoch's SOLUTION, its tracks and the newest keyframe; with no keyframe none of its
features is tracked and nothing is measured from it. -/
def Block.keyframeRaw (b : Block) : List (Option (BitVec 64)) :=
  let s := match b.afu.sol with | some s => s.parcel.payload | none => []
  let tail := [rawInt (field s 26 2), rawInt (field s 24 1),
    rawInt (b.commonFlags + 2 * (field s 16 1 % 2) + 4 * b.ep.degraded.toNat + b.dueFlags : Nat)]
  match b.newestKf with
  | none => [rawF32 0, none, none, none, none] ++ tail
  | some h =>
    let ts := b.usedCams.flatMap fun c => (b.doneTracks c).filterMap fun t =>
      if t.status != 0 then none else (b.badger.keyFeats.find? fun k => k.cam == c && k.id == t.id).map fun k => (t, k)
    let moved (p : Track × KeyFeat) : BitVec 32 :=
      (⟨fp32Of (p.1.x.toInt - p.2.x.toInt) 64, fp32Of (p.1.y.toInt - p.2.y.toInt) 64, 0⟩ : V3).norm
    [rawF32 (fp32Of ts.length b.badger.keyFeats.length), rawInt ((b.ep.now.toNat : Int) - (field h 8 8 : Nat)),
     rawF32 ((v3At s 32).sub (v3At h 32)).norm, rawF32 ((q4At h 44).conj.mul (q4At s 44)).log.norm, rawF32 (medianOf (ts.map moved))] ++ tail

/-- The raw features of a map point for the cull, from its record (Table 12-6); the mean descriptor spread is the operand's. -/
def Block.cullRaw (x : OwlIn) (id p : Nat) (b : Block) : List (Option (BitVec 64)) :=
  let r := slice (b.object (pointsAddr (p / 63))) (16 + 64 * (p % 63)) 64
  [rawInt (field r 20 2), rawInt ((id : Int) - (field r 28 4 : Nat)), rawF32 (wordAt r 16 0), rawF32 (wordAt r 12 0), openRaw x p 4,
   rawInt (field r 22 1 / 2 % 2 : Nat)]

/-- The raw features of the motion class; the variances are the operand's. -/
def Block.motionRaw (x : OwlIn) (b : Block) : List (Option (BitVec 64)) :=
  let a := b.meanAccel
  let w := b.meanRate
  let speed := match b.afu.sol with | some s => rawF32 (v3At s.parcel.payload 60).norm | none => none
  [rawF32 a.x, rawF32 a.y, rawF32 a.z, rawF32 w.x, rawF32 w.y, rawF32 w.z, openRaw x 0 6, openRaw x 0 7, speed]

end Sys2Proof.Machine
end

