-- ==== Sys2Proof/Machine/Owl.lean ====
section
/-! DEFINITION. The commands of chapter 10: model loads, host scoring, in-engine uses, the late gate and node SRAM. -/

namespace Sys2Proof.Machine

/-! ### OWL_MODEL_LOAD (R326, R327) -/

/-- The command starts. -/
def Block.owlModelLoad (r : CmdRef) (b : Block) : Block :=
  b.begin r 0x20 (fun c => decide (c.arg 24 1 < 8)) fun c b =>
    let s := c.arg 24 1
    if owlIn b.cfg.active s 16 1 = 1 then b.finish r stSlotRun 0 0 0
    else if b.cfg.shadowState == .armed || b.cfg.shadowState == .checking then b.finish r stBusy 0 0 0
    else
      let b1 := (b.settingsBusy r).stage r .running
      { b1 with owl := { b1.owl with staging := some { owner := r, count := 0, parts := [] } } }

/-- A load ends without replacing the stored model. -/
def Block.loadFails (r : CmdRef) (status detail : Nat) (b : Block) : Block :=
  Block.settingsEnd r status detail 0 0 { b with owl := { b.owl with staging := none } }

/-- Whether the parcel heads of a load are in order (R327). -/
def modelHeadsOk (c : Cmd) (hs : List Parcel) : Bool :=
  let n := hs.length
  let len := field (hs.headD { type := 0, len := 0, stream := 0, chip := 0, seq := 0, producer := 0, payload := [], sealWord := 0 }).payload 56 4
  decide (0 < n) && c.arg 16 4 == bufferSize hs &&
    (hs.zipIdx).all fun (h, i) =>
      h.type == 0x0503 && field h.payload 0 1 == c.arg 24 1 && field h.payload 2 2 == i && field h.payload 4 2 == n
        && field h.payload 8 4 == 4080 * i
        && (if i + 1 = n then 4080 * i + (h.len.toNat - 16) == len && decide (16 ≤ h.len.toNat) else h.len == 4096)

/-- The pass over the parcel heads (R327). -/
def Block.modelHeads (r : CmdRef) (c : Cmd) (hs : List Parcel) (b : Block) : Block :=
  if modelHeadsOk c hs then
    let b1 := b.withCmd r fun c => { c with heads := true }
    { b1 with owl := { b1.owl with staging := b1.owl.staging.map fun g => { g with count := hs.length } } }
  else b.loadFails r stField 0

/-- A verified part is staged; the last one replaces the stored model and makes the shadow set DIRTY (R326, R327). -/
def Block.modelPart (r : CmdRef) (c : Cmd) (p : Parcel) (b : Block) : Block :=
  match b.owl.staging with
  | none => b
  | some g =>
    let parts := g.parts ++ [p.payload.drop 16]
    if parts.length < g.count then
      Block.withCmd r (fun c => { c with stage := .committed, count := c.count + 1 })
        { b with owl := { b.owl with staging := some { g with parts := parts } } }
    else
      Block.settingsEnd r stOk 0 0 0 { b with
        owl := { b.owl with
          staging := none
          slots := b.owl.slots.modify (c.arg 24 1) fun s => { s with host := some parts.flatten } }
        cfg := { b.cfg with shadowState := .dirty } }

/-! ### OWL_SCORE (R350 to R352) -/

/-- The command starts: its slot must be enabled with a thread live (R352, R577). -/
def Block.owlScore (r : CmdRef) (b : Block) : Block :=
  b.begin r 0x21 (fun c => decide (c.arg 24 1 < 8) && decide (1 ≤ c.arg 28 4) && decide (c.arg 28 4 ≤ 65535)) fun c b =>
    if (b.slotModel (c.arg 24 1)).isNone || b.flt.threads = 0 then b.finish r stSlotOff 0 0 0
    else b.stage r .running

/-- The pass over the heads of FEATURES parcels: the slot's record size, and the sample count (R350, R352). -/
def Block.featureHeads (r : CmdRef) (c : Cmd) (hs : List Parcel) (b : Block) : Block :=
  match b.slotModel (c.arg 24 1) with
  | none => b.finish r stSlotOff 0 0 0
  | some m =>
    let size := 32 + 8 * modelRaws m
    if (hs.any fun h => h.type != 0x0501 || field h.payload 0 1 != c.arg 24 1) || c.arg 16 4 != bufferSize hs
        || (hs.map fun h => field h.payload 2 2).sum != c.arg 28 4
        || (hs.any fun h => h.len.toNat < 16 + field h.payload 2 2 * field h.payload 4 2) then b.finish r stField 0 0 0
    else if hs.any fun h => field h.payload 4 2 != size then b.finish r stMismatch 0 0 0
    else b.withCmd r fun c => { c with heads := true }

/-- The samples of a FEATURES parcel (R350). -/
def parcelSamples (p : Parcel) (raws : Nat) : List Sample :=
  (List.range (field p.payload 2 2)).map fun i =>
    let rec_ := slice p.payload (16 + (32 + 8 * raws) * i) (32 + 8 * raws)
    { key := 0, raw := (List.range raws).map fun k =>
        if (rec_.getD (k / 8) 0).getLsbD (k % 8) then some (BitVec.ofNat 64 (field rec_ (32 + 8 * k) 8)) else none }

/-- A verified FEATURES parcel; with the last sample the job enters Owl's work list. -/
def Block.featurePart (r : CmdRef) (c : Cmd) (p : Parcel) (b : Block) : Block :=
  let s := c.arg 24 1
  match b.slotModel s with
  | none => b.finish r stSlotOff 0 0 0
  | some m =>
    let ps := c.data ++ [p]
    let samples := ps.flatMap fun q => parcelSamples q (modelRaws m)
    let b1 := b.withCmd r fun c => { c with data := ps, count := ps.length }
    if samples.length < c.arg 28 4 then b1
    else
      Block.owlEnter { b1 with owl := { b1.owl with
        nextNo := b1.owl.nextNo + 1
        jobs := b1.owl.jobs ++ [{ no := b1.owl.nextNo, owner := some r, slot := s, tag := r.id, gen := b.cfg.gen, use := owlIn b.cfg.active s 24 1,
                                  model := m, threshold := BitVec.ofNat 32 (owlIn b.cfg.active s 28 4), samples := samples,
                                  inputs := ps.map fun q => (q.ref, field q.payload 2 2) }] } }

/-- The FEATURES parcels that the samples of a list of indices came in, in order (R346). -/
def OwlJob.refsOf (j : OwlJob) (is : List Nat) : List InRef :=
  (j.inputs.foldl (fun (acc : List InRef × Nat) p =>
    (if is.any fun i => decide (acc.2 ≤ i) && decide (i < acc.2 + p.2) then acc.1 ++ [p.1] else acc.1, acc.2 + p.2)) ([], 0)).1

/-- Whether a sample of a job may complete now: any unfinished one of a complete-tree model, whose threads take its pairs independently, and
the next one of a pipeline, which a sample enters and leaves in order (R336, R337). -/
def OwlJob.mayEnd (j : OwlJob) (i : Nat) : Bool :=
  decide (i < j.samples.length) && if modelMode j.model = 0 then !j.done.contains i else i == j.done.length

/-- A sample's record joins its job's open parcel, which closes when the next would not fit or the job ends (R344). -/
def Block.owlRecord (thread : Nat) (j : OwlJob) (rec_ : OwlRec) (b : Block) : Block :=
  let recs := j.recs ++ [rec_]
  let last : Bool := j.done.length + 1 == j.samples.length
  let full : Bool := decide (4080 < (recs.length + 1) * rec_.bytes.length)
  let refs := j.refsOf (recs.map fun x => x.index.toNat)
  let b1 := b.countRecs j.slot [rec_]
  let sealAll (b : Block) : Block :=
    (owlPayloads j.slot j.use j.gen.toNat j.tag.toNat recs).foldl (fun b p => b.emit 4 0x0502 (threadUnit thread) p refs) b
  let b2 := if last || full then (match j.owner with | some r => b1.forCmd r sealAll | none => sealAll b1) else b1
  let jobs := if last then b2.owl.jobs.filter fun k => k.no != j.no
    else b2.owl.jobs.map fun k => if k.no == j.no then { k with done := rec_.index.toNat :: j.done, recs := if full then [] else recs } else k
  let b3 := { b2 with owl := { b2.owl with jobs := jobs } }
  if last then Block.owlEnter (match j.owner with | some r => b3.finish r stOk j.samples.length 0 0 | none => b3) else b3

/-- A live thread completes a sample of the host job at the head of the work list: it adds the margins, applies the link function and seals the
result (R336, R337). In-engine uses take the threads first (R348). -/
def Block.owlSampleResult (thread : Fin 32) (index : Nat) (b : Block) : Block :=
  let b := b.owlEnter
  match b.owl.jobs.head? with
  | none => b
  | some j =>
    if !j.entered || !b.threadsForHost || !b.flt.threads.getLsbD thread || !j.mayEnd index then b
    else match j.samples[index]? with
      | none => b
      | some x => b.owlRecord thread j (scoreSample j.model j.threshold index x.raw)

/-! ### In-engine uses (Table 10-9) -/

/-- A slot scores a use once a thread has verified what its features are drawn from (R174); a parcel that may not be consumed leaves the use to
be scored. -/
def Block.engineVerify (x : OwlIn) (ins : List InRef) (b : Block) : Bool × Block := b.verifyRefs ins x.reads (threadUnit b.lowestThread)

/-- The outlier gate of a camera whose LAST parcels are held (R292): the feature IDs that enter assembly. -/
def Block.gateScore (x : OwlIn) (b : Block) : Block :=
  let cam := x.cam.val
  if (b.foxReady cam).isNone || (b.owl.gated.getD cam none).isSome then b
  else
    let pass (ids : List (BitVec 32)) (refs : List InRef) (b : Block) : Block :=
      { b with owl := { b.owl with gated := b.owl.gated.set cam (some ids), gateRefs := b.owl.gateRefs ++ refs } }
    match b.useSlot 1 with
    | none => pass (gateable (b.doneTracks cam)) [] b
    | some s =>
      let ins := b.trackRefs cam ++ (b.afu.preint.map Parcel.ref).toList
      match b.engineVerify x ins with
      | (false, b1) => b1
      | (true, b1) =>
        let samples := b.gateSamples cam
        let (b2, recs, refs) := b1.engineScore s 1 samples ins
        pass (((samples.zip recs).filter fun p => p.2.pass).map fun p => BitVec.ofNat 32 p.1.key) refs (b2.drewN (2 * samples.length))

/-- The default keyframe decision (Table 10-9): feature 0 below 0.6, or feature 1 at least 30. -/
def keyframeDefault (raw : List (Option (BitVec 64))) : Bool :=
  (match raw.getD 0 none with | some v => fp32Lt (v.setWidth 32) 0x3F19999A | none => false) ||
  (match raw.getD 1 none with | some v => decide (30 ≤ (v.setWidth 32).toInt) | none => false)

/-- The observations of the newest frame: each gated record of the cameras of the problem, with its camera (Table 12-5). -/
def Block.observations (slots : List (BitVec 32)) (b : Block) : List Bytes :=
  let ts := b.usedCams.flatMap fun c => (b.gatedTracks c).map fun t => (c, t)
  (ts.zipIdx).map fun ((c, t), i) =>
    leBytes 4 (slots.getD i 0xFFFFFFFF).toNat ++ leBytes 4 t.x.toNat ++ leBytes 4 t.y.toNat ++ [BitVec.ofNat 8 c, t.orient, 0, 0]
      ++ leBytes 32 t.desc.toNat

/-- The KF_OBS payloads of a keyframe's observations, at most 84 each. -/
def obsPayloads (id : Nat) (obs : List Bytes) : List Bytes :=
  (List.range ((obs.length + 83) / 84)).map fun i =>
    let rs := (obs.drop (84 * i)).take 84
    leBytes 4 id ++ leBytes 1 i ++ leBytes 1 rs.length ++ List.replicate 10 0 ++ rs.flatten

/-- The head of a keyframe that the newest frame makes (Table 12-4), from its SOLUTION. -/
def Block.headPayload (id obs parcels addr : Nat) (samples : Nat) (b : Block) : Bytes :=
  let s := match b.solution with | some p => p.payload | none => []
  let mask := (b.usedCams.map fun c => 2 ^ c).sum
  fit 256 (leBytes 4 id ++ leBytes 4 0 ++ leBytes 8 b.ep.now.toNat ++ slice s 0 8 ++ leBytes 4 b.thermos.tbEpoch.toNat ++ leBytes 2 0xFFFF
    ++ leBytes 1 mask ++ leBytes 1 parcels ++ slice s 32 28
    ++ ((List.range 21).flatMap fun i => leBytes 2 (fp16Of (fp32Num (BitVec.ofNat 32 (field s (96 + 4 * i) 4))) (2 ^ 149)))
    ++ leBytes 2 obs ++ leBytes 8 addr ++ leBytes 8 b.ep.now.toNat ++ [0xFF, 0, 0, 0] ++ leBytes 2 samples)

/-- The newest frame becomes a keyframe (R417, R418, R420 to R424): the lowest free ID, its KF_OBS parcels and its head, its place samples
posted, and its points culled where no Owl slot serves use 3 (R419). A decision that cannot be carried out makes no keyframe. -/
def Block.makeKeyframe (slots : List (BitVec 32)) (b : Block) : Block :=
  match b.freeKf with
  | none => b.mapFull 1
  | some id =>
    let obs := b.observations slots
    let pays := if b.den.dramAbsent then [] else obsPayloads id obs
    match (if b.den.dramAbsent then some 0 else b.obsRoom pays.length) with
    | none => b.mapFull 4
    | some a =>
      let ins := (match b.solution with | some p => [p.ref] | none => []) ++ b.usedCams.flatMap b.trackRefs
      let samples := if b.den.dramAbsent then [] else placeSamples obs
      let b1 := if b.den.dramAbsent then b else b.poolTake (a + 4096 * pays.length)
      let b2 := b1.newKf id (b.headPayload id obs.length pays.length a samples.length) ins
      if (b2.kf id).isNone then b2
      else
        let b3 := (pays.zipIdx).foldl (fun b (p, i) => b.putMap .kfObs (a + 4096 * i) p ins) b2
        let b4 := samples.foldl (fun b key => b.postSample key id ins) b3
        let b5 := if (b.useSlot 3).isNone && !b.den.dramAbsent then b4.cullDefault id else b4
        let feats := b.usedCams.flatMap fun c => (b.gatedTracks c).map fun t => (⟨c, t.id, t.x, t.y⟩ : KeyFeat)
        { b5 with
          afu := { b5.afu with keyDue := true, lastKf := BitVec.ofNat 32 id }
          badger := { b5.badger with keyPending := true, keyFeats := feats }
          owl := { b5.owl with cullDue := !b.den.dramAbsent, loopDue := !(b5.loopCandidates id).isEmpty } }

/-- The parcels that the keyframe decision's features are drawn from: the SOLUTION, the tracks and the newest keyframe's head (R346). -/
def Block.keyframeIns (b : Block) : List InRef :=
  (b.solution.map Parcel.ref).toList ++ b.usedCams.flatMap b.trackRefs ++
    if b.newestKf.isNone then [] else ((b.map.kfs.find? fun k => k.id == b.afu.lastKf.toNat).bind fun k => (b.storedAt (kfAddr k)).map Parcel.ref).toList

/-- The keyframe decision is made (Table 10-9). -/
def Block.keyframeDecided (slots : List (BitVec 32)) (pass : Bool) (b : Block) : Block :=
  let b1 := { b with badger := { b.badger with keyDone := true } }
  if pass then b1.makeKeyframe slots else b1

/-- The keyframe decision, once per epoch after the VIO solution. -/
def Block.keyframeScore (x : OwlIn) (b : Block) : Block :=
  let b := b.readObjects ((b.kfReads b.afu.lastKf.toNat).take 1)
  if !b.solvedNow || b.badger.keyDone then b
  else match b.useSlot 2 with
    | none => b.keyframeDecided x.slots (keyframeDefault b.keyframeRaw)
    | some s =>
      match b.engineVerify x b.keyframeIns with
      | (false, b1) => b1
      | (true, b1) =>
        let (b2, recs, _) := b1.engineScore s 2 [{ raw := b.keyframeRaw, key := 0 }] b.keyframeIns
        b2.keyframeDecided x.slots (recs.any OwlRec.pass)

/-- The map points that the newest keyframe observes. -/
def Block.keyPoints (b : Block) : List Nat :=
  (((obsRecords (b.kfObs b.afu.lastKf.toNat)).map fun r => field r 0 4).eraseDups).filter fun p => p != 0xFFFFFFFF && pointValid (b.point p)

/-- The learned cull of each map point that a new keyframe observes; without a slot R419 applied when the keyframe was made. -/
def Block.cullScore (x : OwlIn) (b : Block) : Block :=
  match b.useSlot 3 with
  | none => b
  | some s =>
    if !b.owl.cullDue then b
    else
      let b := b.readObjects (b.kfReads b.afu.lastKf.toNat)
      let b := b.readObjects (b.keyPoints.map fun p => pointsAddr (p / 63))
      let samples : List Sample := b.keyPoints.map fun p => { raw := b.cullRaw x b.afu.lastKf.toNat p, key := p }
      let ins := ((samples.map fun y => y.key / 63).eraseDups).filterMap fun i => (b.storedAt (pointsAddr i)).map Parcel.ref
      match b.engineVerify x ins with
      | (false, b1) => b1
      | (true, b1) =>
        let (b2, recs, refs) := b1.engineScore s 3 samples ins
        let cull := ((samples.zip recs).filter fun p => p.2.pass).map fun p => p.1.key
        let b3 := b2.putPoints (cull.map fun p => (p, pointFreed (b2.point p))) refs
        { b3 with owl := { b3.owl with cullDue := false } }

/-- The references of the map objects that a pose-graph job covers. -/
def Block.spanRefs (lo hi : Nat) (b : Block) : List InRef :=
  (b.map.kfs.filter fun k => decide (lo ≤ k.id) && decide (k.id ≤ hi)).filterMap fun k => (b.storedAt (kfAddr k)).map Parcel.ref

/-- The valid edges among a span of keyframes. -/
def Block.spanEdges (lo hi : Nat) (b : Block) : Nat :=
  ((List.range b.map.edgeTop).filter fun e =>
    let r := b.edgeRec e
    edgeValid r && decide (lo ≤ field r 0 4) && decide (field r 0 4 ≤ hi) && decide (lo ≤ field r 4 4) && decide (field r 4 4 ≤ hi)).length

/-- Marks the oldest covered keyframe FIXED when the span was cut to 65,536 (R426). -/
def Block.fixOldest (lo hi : Nat) (b : Block) : Block :=
  let all := b.map.kfs.filter fun k => decide (lo ≤ k.id) && decide (k.id ≤ hi)
  if all.length ≤ 65536 then b
  else match (lastN 65536 all).head? with
  | some k =>
    let h := fit 256 (b.object (kfAddr k))
    b.putMap .kfHead (kfAddr k) (slice h 0 4 ++ [h.getD 4 0 ||| 4] ++ h.drop 5) []
  | none => b

/-- A passing loop candidate: it places a new window in the world (R385), or opens a pose-graph job (R367, R424, R426). -/
def Block.loopAccepted (new cand : Nat) (refs : List InRef) (b : Block) : Block :=
  let b0 := match b.kf cand with | some k => b.makeHot k | none => b
  if b0.badger.needReloc then
    if b0.badger.vioInit then
      { b0 with badger := { b0.badger with needReloc := false }
                afu := { b0.afu with relocDue := true, noSol := b0.badger.window.isNone } }
    else b0
  else
    let b1 := (b0.readObjects (b0.spanReads cand new)).fixOldest cand new
    let j := b1.freshJob 1 true b1.pgCarry (some (b1.now + b1.pgDeadline)) (refs ++ b1.spanRefs cand new)
    let n := (b1.spanKfs cand new).length
    (b1.assemble { j with span := some (cand, new), loop := some (new, cand), init := b1.spanInit cand new, unknowns := 6 * n }
      ((6 * n + 15) / 16) 0 0 (min 1048576 (b1.spanEdges cand new)) false).jobsWithoutTiles

/-- The raw features of a loop candidate: its similarity, separation, age and origin from the map, the others from the operand. -/
def Block.loopRaw (x : OwlIn) (new : Nat) (c : Nat × Nat × Nat) (b : Block) : List (Option (BitVec 64)) :=
  let h := b.kfHead c.1
  [openRaw x c.1 0, openRaw x c.1 1, openRaw x c.1 2, rawF32 (fp32Of c.2.1 c.2.2), rawInt ((new : Int) - (c.1 : Nat)), openRaw x c.1 5,
   rawInt ((b.ep.now.toNat : Int) - (field h 8 8 : Nat)), rawInt (field h 4 4 / 2 % 2 : Nat), openRaw x c.1 8, openRaw x c.1 9]

/-- Loop candidates of the newest keyframe: the highest passing one, ties to the lower keyframe ID; no loop closure without a slot. -/
def Block.loopScore (x : OwlIn) (b : Block) : Block :=
  match b.useSlot 4 with
  | none => b
  | some s =>
    if !b.owl.loopDue then b
    else
      let new := b.afu.lastKf.toNat
      let b := b.readObjects (b.kfReads new ++ b.postReads)
      let b := b.readObjects ((b.loopCandidates new).flatMap fun c => (b.kfReads c.1).take 1)
      let samples : List Sample := (b.loopCandidates new).map fun c => { raw := b.loopRaw x new c, key := c.1 }
      let head (id : Nat) : Option InRef := match b.kf id with | some k => (b.storedAt (kfAddr k)).map Parcel.ref | none => none
      let ins := ((samples.map Sample.key) ++ [new]).filterMap head
      match b.engineVerify x ins with
      | (false, b1) => b1
      | (true, b1) =>
        let (b2, recs, refs) := b1.engineScore s 4 samples ins
        let b3 := { b2 with owl := { b2.owl with loopDue := false } }
        let best := ((samples.zip recs).filter fun p => p.2.pass).foldl
          (fun (best : Option (Nat × BitVec 32)) p =>
            let v := p.2.probs.getD 0 0
            match best with
            | none => some (p.1.key, v)
            | some (k, w) => if fp32Lt w v || (!fp32Lt v w && decide (p.1.key < k)) then some (p.1.key, v) else some (k, w)) none
        match best with
        | some (cand, _) => b3.loopAccepted new cand refs
        | none => b3

/-- The motion class, once per epoch from the newest PREINT: the reported class when PASS is set; without a slot none ever passes (R366). -/
def Block.motionScore (x : OwlIn) (b : Block) : Block :=
  match b.useSlot 5 with
  | none => b
  | some s =>
    if !b.afu.preintDone || b.owl.motionDone then b
    else
      let ins := (b.afu.preint.map Parcel.ref).toList ++ (b.solution.map Parcel.ref).toList
      match b.engineVerify x ins with
      | (false, b1) => b1
      | (true, b1) =>
        let (b2, recs, refs) := b1.engineScore s 5 [{ raw := b.motionRaw x, key := 0 }] ins
        { b2 with owl := { b2.owl with
          motion := (recs.head?.filter OwlRec.pass).map OwlRec.cls
          motionDone := true
          gateRefs := b2.owl.gateRefs ++ refs } }

/-- The motion class that the assembler uses: class 0 with p = 0, which passes nothing, without a slot (Table 10-9). -/
def Block.motionClass (b : Block) : Option (BitVec 8) := if (b.useSlot 5).isSome then b.owl.motion else none

/-- An in-engine use is scored once its inputs are ready (R347). -/
def Block.owlEngineScore (use : OwlUse) (x : OwlIn) (b : Block) : Block :=
  if !b.unitsRun 6 then b
  else Block.owlEnter (match use with
    | .gate => b.gateScore x
    | .keyframe => b.keyframeScore x
    | .cull => b.cullScore x
    | .loop => b.loopScore x
    | .motion => b.motionScore x)

/-- The gate misses its limit: the camera's records enter ungated (R349). -/
def Block.owlGateLate (cam : Fin 6) (b : Block) : Block :=
  if b.ready && (b.foxReady cam).isSome && (b.owl.gated.getD cam none).isNone && decide (b.ep.start + b.foxCutoff + 250000 ≤ b.now) then
    let ids := gateable (b.doneTracks cam)
    let b1 := { b with owl := { b.owl with gated := b.owl.gated.set cam (some ids) } }
    let b2 := match b.useSlot 1 with | some s => b1.owlCount s 3 1 | none => b1
    Block.owlEnter (b2.event 0x0021 noUnit (leBytes 4 cam ++ leBytes 4 ids.length))
  else b

/-- An uncorrectable error in node SRAM: the slot is reloaded, or lost when the reload meets a memory fault (R571). -/
def Block.nodeUe (slot : Fin 8) (reloadOk : Bool) (b : Block) : Block :=
  if !b.detects || reloadOk then b
  else
    let b1 := b.poolFault
    let b2 := { b1 with owl := { b1.owl with
      slots := b1.owl.slots.modify slot fun s => { s with lost := true }
      jobs := b1.owl.jobs.filter fun j => j.slot != slot.val } }
    let b3 := b2.event 0x0017 noUnit (leBytes 1 slot)
    Block.owlEnter ((b1.owl.jobs.filter fun j => j.slot == slot.val).foldl (fun b j =>
      match j.owner with | some r => b.finish r stSlotOff j.done.length 0 0 | none => b) b3)

/-! ### Exec -/

/-- OWL_MODEL_LOAD. -/
def execOwlModelLoad (r : CmdRef) (s : State) : Host.Outcome State Fault Refusal := s.act (Block.owlModelLoad r)
/-- OWL_SCORE. -/
def execOwlScore (r : CmdRef) (s : State) : Host.Outcome State Fault Refusal := s.act (Block.owlScore r)
/-- OWL_ENGINE_SCORE. -/
def execOwlEngineScore (use : OwlUse) (input : OwlIn) (s : State) : Host.Outcome State Fault Refusal :=
  s.act (Block.owlEngineScore use input)
/-- OWL_SAMPLE_RESULT. -/
def execOwlSampleResult (thread : Fin 32) (index : Nat) (s : State) : Host.Outcome State Fault Refusal :=
  s.act (Block.owlSampleResult thread index)
/-- OWL_GATE_LATE. -/
def execOwlGateLate (cam : Fin 6) (s : State) : Host.Outcome State Fault Refusal := s.act (Block.owlGateLate cam)
/-- NODE_UE. -/
def execNodeUe (slot : Fin 8) (reloadOk : Bool) (s : State) : Host.Outcome State Fault Refusal := s.act (Block.nodeUe slot reloadOk)

end Sys2Proof.Machine
end

