-- ==== Sys2Proof/Machine/Badger.lean ====
section
/-! DEFINITION. The commands of chapter 11: VIO assembly, host jobs, block operations, iterations, deadlines and the VIO reset. -/

namespace Sys2Proof.Machine

/-! ### VIO_ASSEMBLY (R362 to R367) -/

/-- Whether results of a camera may still come in the epoch: of a frame in work, of the trigger's frame, or, in stamped mode, of one that starts
before FOX_CUTOFF (R145, R296, log entry 86). -/
def Block.camAwaited (c : Nat) (b : Block) : Bool :=
  ((b.foxCam c).frames.any fun f => !f.consumed && (match f.mid with | some m => m.2 == b.ep.now.toNat | none => true)) ||
    match claimPort b.cfg.active c with
    | some k => b.portPending k
    | none => false

/-- Whether every track camera's parcels are gated or released ungated, or none will come (R292, R349, R363). -/
def Block.tracksReady (b : Block) : Bool :=
  b.trackCams.all fun c => match b.foxReady c with
    | some _ => (b.owl.gated.getD c none).isSome
    | none => (b.foxCam c).dropped || !b.camAwaited c

/-- The epoch's frame counts towards initialisation, which 8 frames over 125,000,000 ticks of PREINT data complete (R362). An epoch
whose PREINT is the substitute of R312 restarts the count (log entry 18). -/
def Block.vioInitStep (b : Block) : Block :=
  if b.badger.vioInit then b
  else
    let t : Tick := b.commonInstant.toNat
    let tracked : Bool := b.usedCams.any fun c => !((b.owl.gated.getD c none).getD []).isEmpty
    let fs := if b.afu.noInertial then [] else if tracked then b.badger.initFrames ++ [t] else b.badger.initFrames
    let ok : Bool := decide (8 ≤ fs.length) && decide (fs.headD t + 125000000 ≤ t)
    { b with badger := { b.badger with vioInit := ok, initFrames := if ok then [] else fs } }

/-- The window takes in the newest frame (R365): at most 24 keyframes and 8 recent frames. -/
def Badger.takeFrame (x : Badger) : Badger :=
  { x with
    keyframes := min 24 (x.keyframes + x.keyPending.toNat)
    recents := min 8 (x.recents + 1 - x.keyPending.toNat)
    keyPending := false }

/-- The earliest measurement newly taken into the problem (R153): the t_mid of each camera frame and the stamps of the priors; the common
instant when there is none. -/
def Block.earliest (cams : List Nat) (priors : List (Int × InRef)) (b : Block) : Int :=
  let mids := cams.filterMap fun c => match b.foxReady c with
    | some f => f.mid.map fun t => (t.1 : Int) + b.timeOffset (b.camFrame c)
    | none => none
  match mids ++ priors.map Prod.fst with
  | [] => b.commonInstant
  | x :: xs => xs.foldl min x

/-- The parcels that the epoch's assembly consumes beside the priors, in order (R363): PREINT, OWL_RESULT and TRACK. -/
def Block.vioRefs (b : Block) : List InRef :=
  (b.afu.preint.map Parcel.ref).toList ++ b.owl.gateRefs ++ b.usedCams.flatMap b.trackRefs

/-- The frames of the window are 15 variables each (R378). -/
def Badger.vars (x : Badger) : Nat := 15 * (x.keyframes + x.recents)

/-- The epoch's VIO problem (R363). -/
def Block.vioProblem (x : VioIn) (b : Block) : Block :=
  let (b1, use) := b.takePriors x.gates
  let cams := b.usedCams
  let ins := b.vioRefs ++ use.refs.map Prod.snd ++ (b.badger.window.map Parcel.ref).toList
  let still : Bool := match b.motionClass with | some c => c.toNat == b.stillClass | none => false
  let loop := b.badger.pendLoop
  let b2 := { b1 with
    badger := { b1.badger.takeFrame with pendLoop := false }
    afu := { b1.afu with usedPriors := use.mask, factors := use.factors } }
  let j := { b2.freshJob 0 false b2.vioCarry (some (b2.ep.start + b2.vioDeadline)) ins with
    still := still, loopApplied := loop, tracks := min x.tracks 0xFFFF, tc := BitVec.ofInt 64 b.commonInstant,
    unknowns := b2.badger.vars, cams := BitVec.ofNat 8 ((cams.map fun c => 2 ^ c).sum),
    age := BitVec.ofInt 64 (b.earliest cams use.refs) }
  (b2.assemble j ((b2.badger.vars + 15) / 16) (min 4096 x.landmarks) x.blocks x.factors still).jobsWithoutTiles

/-- The assembler verifies what it reads, in the order in which it consumes it (R174, R363). -/
def Block.vioVerify (x : VioIn) (b : Block) : Bool × Block :=
  b.verifyAll x.reads assembler (b.afu.preint.toList ++ b.heldParcels b.vioRefs ++ b.badger.window.toList)

/-- VIO_ASSEMBLY: once per epoch, when the PREINT is sealed and the tracks are ready (R363); nothing is assembled before
initialisation (R362). The results of the cameras are then consumed (R272, R292). -/
def Block.vioAssembly (x : VioIn) (b : Block) : Block :=
  if b.ready && b.ep.running && !b.badger.vioDone && !b.badger.asmHeld && b.afu.preintDone && b.tracksReady then
    match b.vioVerify x with
    | (false, b1) => b1
    | (true, b1) =>
      let b2 := b1.vioInitStep
      let b3 := { b2 with badger := { b2.badger with vioDone := true } }
      let b4 := if b3.badger.vioInit then b3.vioProblem x else b3
      (List.range 6).foldl (fun b c => if (b.owl.gated.getD c none).isSome then b.foxConsume c else b) b4
  else b

/-! ### BADGER_JOB (R355, R361, R388) -/

/-- The engine has accepted a host job. -/
def Block.hostJob (r : CmdRef) (c : Cmd) (pcg : Bool) (ins : List InRef) (init : List (BitVec 32)) (f : Job → Job) (b : Block) : Block :=
  let dl := c.arg 28 4
  let j := b.freshJob (c.arg 24 1) pcg (c.arg 25 1 == 1) (if dl = 0 then none else some (c.order + dl)) ins
  let b1 := { b with badger := b.badger.submit (f { j with host := true, owner := some r, tag := r.id, init := init }) }
  (b1.stage r .running).jobsWithoutTiles

/-- A host pose-graph job over a span of keyframes; beyond the limits of Table 11-1 it is refused (R355). -/
def Block.hostGraph (r : CmdRef) (c : Cmd) (b : Block) : Block :=
  let lo := c.arg 32 4
  let hi := c.arg 36 4
  let b := b.readObjects (b.spanReads lo hi)
  let n := (b.map.kfs.filter fun k => decide (lo ≤ k.id) && decide (k.id ≤ hi)).length
  if 65536 < n || 1048576 < b.spanEdges lo hi then b.finish r stProblem 0 0 0
  else b.hostJob r c true (b.spanRefs lo hi) (b.spanInit lo hi) fun j => { j with span := some (lo, hi), unknowns := 6 * n }

/-- A host alignment job of a guest slot; a stay that has ended is stale (log entry 19). -/
def Block.hostAlign (r : CmdRef) (c : Cmd) (b : Block) : Block :=
  let g := b.guest (c.arg 40 1)
  if !g.st.accepts || g.gen.toNat != c.arg 42 2 then b.finish r stGuestStale 0 0 0
  else (b.drewN 7).hostJob r c false (g.staged.map Parcel.ref) (b.freeVec 7) fun j => { j with points := g.corrs.length, rows := 1, unknowns := 7 }

/-- BADGER_JOB starts. Class 3 reads its PROBLEM and BLOCK parcels first. -/
def Block.badgerJob (r : CmdRef) (b : Block) : Block :=
  b.begin r 0x30
    (fun c => decide (1 ≤ c.arg 24 1) && decide (c.arg 24 1 ≤ 3) && decide (c.arg 25 1 ≤ 1)
      && (c.arg 24 1 != 1 || (decide (c.arg 32 4 ≤ c.arg 36 4) && decide (c.arg 36 4 < 262144)))
      && (c.arg 24 1 != 2 || decide (c.arg 40 1 < 64)))
    fun c b =>
      if c.arg 25 1 = 1 ∧ c.arg 28 4 = 0 then b.finish r stProblem 0 0 0
      else match c.arg 24 1 with
      | 1 => b.hostGraph r c
      | 2 => b.hostAlign r c
      | _ => b.stage r .running

/-- The pass over the heads of a class 3 job's parcels: one PROBLEM of 64 bytes, then BLOCK parcels (R359, R361). -/
def Block.problemHeads (r : CmdRef) (c : Cmd) (hs : List Parcel) (b : Block) : Block :=
  let shape : Bool := match hs with
    | [] => false
    | h :: t => h.type == 0x0601 && h.len == 64 && t.all fun x => x.type == 0x0602
  if shape && c.arg 16 4 == bufferSize hs then b.withCmd r fun c => { c with heads := true }
  else b.finish r stField 0 0 0

/-- The blocks of a BLOCK parcel's payload (R360): row, column, FRAC, ROLE and the bytes of the elements. -/
def blocksOf (p : Bytes) : List (Nat × Nat × Nat × Nat × Bytes) :=
  (List.range ((p.length - 16) / 1040)).map fun i =>
    let x := slice p (16 + 1040 * i) 1040
    (field x 0 4, field x 4 4, field x 8 1, field x 9 1, x.drop 16)

/-- Whether a class 3 problem is refused (R355, R361). -/
def problemBad (ps : List Parcel) : Bool :=
  let h := (ps.head?.map Parcel.payload).getD []
  let n := field h 16 4
  let method := field h 1 1
  let bs := ps.tail.flatMap fun p => blocksOf p.payload
  let keys := bs.map fun x => (x.1, x.2.1)
  field h 0 1 != 3 || decide (1 < method) || (if method = 0 then decide (2048 < 16 * n) else decide (393216 < 16 * n))
    || field h 32 8 != 0 || field h 40 8 != 0
    || (ps.tail.any fun p => decide (p.payload.length < 1056) || decide (3136 < p.payload.length) || (p.payload.length - 16) % 1040 != 0)
    || (bs.any fun x => decide (n ≤ x.1) || (x.2.1 != 0xFFFFFFFF && decide (x.1 < x.2.1)) || decide (31 < x.2.2.1))
    || decide (keys.eraseDups.length < keys.length)

/-- The initial estimate of a class 3 job: its STATE vector segments, zero where none is given. -/
def problemInit (ps : List Parcel) : List (BitVec 32) :=
  let n := field ((ps.head?.map Parcel.payload).getD []) 16 4
  let bs := ps.tail.flatMap fun p => blocksOf p.payload
  (List.range n).flatMap fun i =>
    match bs.find? fun x => x.1 == i && x.2.1 == 0xFFFFFFFF && x.2.2.2.1 == 6 with
    | some x => (List.range 16).map fun k => fp32Of (signedOf 32 (field x.2.2.2.2 (4 * k) 4)) (2 ^ x.2.2.1)
    | none => List.replicate 16 0

/-- A verified parcel of a class 3 job; with the last one the problem is refused or submitted. -/
def Block.problemPart (r : CmdRef) (c : Cmd) (p : Parcel) (b : Block) : Block :=
  let ps := c.data ++ [p]
  if bufferSize ps < c.arg 16 4 then b.withCmd r fun c => { c with data := ps, count := ps.length }
  else if problemBad ps then b.finish r stProblem 0 0 0
  else
    let h := (ps.head?.map Parcel.payload).getD []
    b.hostJob r c (field h 1 1 == 1) (ps.map Parcel.ref) (problemInit ps) fun j =>
      Job.restarted { j with rows := field h 16 4, unknowns := 16 * field h 16 4, problem := ps.head?, given := ps.tail }

/-! ### BADGER_BLOCK_OP_DONE (R356, R357, R371 to R376, R391 to R393) -/

/-- Whether a job's work may proceed: before its deadline (R382), and not while the engine is paused. -/
def Block.works (j : Job) (b : Block) : Bool :=
  b.unitsRun 7 && (match j.deadline with | some d => decide (b.now < d) | none => true)

/-- A range fence trips (R371, R372). -/
def Block.trip (j : Job) (f : Fmt) (row col : BitVec 32) (b : Block) : Block :=
  let b1 := (b.onJob j.no fun j => j.lowered f row col)
  let b2 := { b1 with badger := { b1.badger with rangeTrips := bump b1.badger.rangeTrips } }
  if tripFaults j f then b2.jobEnd j.no .rangeFault else b2

/-- The BLOCK payload of one result (R360): elements 0 to 15 of a vector segment, or the 256 of a block. -/
def blockPayload (row col : BitVec 32) (f : Fmt) (vals : List Int) : Bytes :=
  fit 1056 (List.replicate 16 0 ++ leBytes 4 row.toNat ++ leBytes 4 col.toNat ++ leBytes 1 f.frac ++ [f.role] ++ List.replicate 6 0
    ++ vals.flatMap fun v => leBytes 4 (BitVec.ofInt 32 v).toNat)

/-- A tile seals a block of a job, in place of the one that stood there (R173, R357). -/
def Block.putBlock (n tile : Nat) (k : Place) (f : Fmt) (vals : List Int) (ins : List InRef) (b : Block) : Block :=
  let pay := blockPayload (BitVec.ofNat 32 k.2.1) (BitVec.ofNat 32 k.2.2) f vals
  let p := b.flowParcel 0xFF 0x0602 (tileUnit tile) pay ins
  (b.sealOnly 0x0602 (tileUnit tile) pay ins).onJob n fun (j : Job) =>
    { j with store := (p, ins) :: j.store.filter (fun x => keyOf x.1 != keyOf p), opTrips := 0, lastTile := tile }

/-- The parcels that a job's next operation reads (R174). -/
def Job.reading (j : Job) : List Parcel :=
  match j.work with
  | .linearise => j.problem.toList
  | .load t => (j.givenAt t).toList.map Prod.fst
  | w => (j.reads w).filterMap j.blk

/-- The job's next block operation completes (R373 to R377): its blocks are sealed, or a fence trips. -/
def Block.nextOp (j : Job) (tile : Nat) (b : Block) : Block :=
  match j.run j.work with
  | .error k => b.trip j (j.keyFmt k) (BitVec.ofNat 32 k.2.1) (BitVec.ofNat 32 k.2.2)
  | .ok o =>
    let ins := j.reading.map Parcel.ref
    let b1 := o.outs.foldl (fun b x => b.putBlock j.no tile x.1 (j.keyFmt x.1) x.2 ins) b
    let b2 := { b1 with badger := { b1.badger with lmDropped := bumpBy b1.badger.lmDropped o.lost } }
    b2.onJob j.no fun (j : Job) =>
      let ill : Bool := decide (j.kReg < j.tiny + o.tiny)
      Job.moved { j with tiny := j.tiny + o.tiny, tinyAll := j.tinyAll + o.tiny, ill := j.ill || ill, illEver := j.illEver || ill,
                         dropped := j.dropped || decide (0 < o.lost) }

/-- An FP32 block or segment of the linearisation enters its format (R368, R371). -/
def Block.inputOp (j : Job) (tile : Nat) (row col : BitVec 32) (vals : List (BitVec 32)) (b : Block) : Block :=
  let k : Place := if col.toNat = vecCol then bKey row.toNat else j.hKey row.toNat col.toNat
  let f := j.keyFmt k
  let n := if col.toNat = vecCol then 16 else 256
  match seqFit n fun i _ => f.fit ⟨fp32Num (vals.getD i 0), 149⟩ with
  | some vs => b.putBlock j.no tile k f vs j.inputs
  | none => b.trip j f row col

/-- A block operation's effect once its tile's residue check has passed (R357). -/
def Block.blockOp (j : Job) (tile : Nat) (op : BlockOp) (b : Block) : Block :=
  match op with
  | .input row col vals => if j.work = .linearise ∧ j.cls ≠ 3 then b.inputOp j tile row col vals else b
  | .linearised =>
    if j.work = .linearise ∧ !j.pcg then b.onJob j.no fun (j : Job) => Job.moved { j with lastTile := tile } else b
  | .next => if j.work = .linearise ∨ j.work = .solved then b else b.nextOp j tile
  | .precond p m =>
    if p < m / 2 ^ j.tauLog2 ∨ p ≤ 0 then { b with badger := { b.badger with precondReg := bump b.badger.precondReg } } else b
  | .pcg rr r0r0 pap =>
    -- the inner solve has ended where it stops (R380)
    if j.breakdown || j.maxPcg ≤ j.pcgIters then b
    else b.onJob j.no fun (j : Job) => { j with
      pcgIters := if rr * 2 ^ 32 ≤ (j.pcgEps * j.pcgEps : Nat) * r0r0 then j.maxPcg else j.pcgIters + 1
      breakdown := decide (pap ≤ 0) }

/-- The parcels that an operation reads are verified (R174, R392): an uncorrectable error loses the iteration (R570), and the operation that
produced a parcel with a seal fault is to be redone. -/
def Block.verifyOp (n tile : Nat) (ps : List Parcel) (reads : Reads) (b : Block) : Bool × Block :=
  match b.verifyAll reads (tileUnit tile) ps with
  | (true, b1) => (true, b1)
  | (false, b1) =>
    match ps.find? fun p => readAs reads p != .intact || (sealFault p).isSome with
    | none => (false, b1)
    | some p =>
      (false, b1.onJob n fun j => match readAs reads p with
        | .uncorrectable => j.restarted
        | .denied => j
        | _ => { j with redo := if j.store.any fun x => x.1 == p then j.redo ++ [p] else j.redo })

/-- The operation that produced a parcel is redone on a live tile: the same block, sealed again (R392, R357). -/
def Block.redoBlock (j : Job) (tile : Nat) (p : Parcel) (b : Block) : Block :=
  let ins := ((j.store.find? fun x => x.1 == p).map Prod.snd).getD []
  let q := b.flowParcel 0xFF 0x0602 (tileUnit tile) p.payload ins
  (b.sealOnly 0x0602 (tileUnit tile) p.payload ins).onJob j.no fun (j : Job) =>
    { j with redo := j.redo.tail, lastTile := tile, store := j.store.map fun x => if x.1 == p then (q, ins) else x }

/-- A tile completes a block operation of the job it works for: it verifies what it reads (R174, R392), fails its residue check (R393), or seals its
output. At this block boundary it goes to the job of highest priority (R356). -/
def Block.blockOpDone (n : Nat) (tile : Fin 16) (op : BlockOp) (residueOk : Bool) (reads : Reads) (b : Block) : Block :=
  let b := { b with badger := b.badger.deal }
  match b.job n with
  | none => b
  | some j =>
    if !b.works j || !b.flt.tiles.getLsbD tile || b.badger.tiles.getD tile none != some n then b
    else
      let free (b : Block) : Block := { b with badger := { b.badger with tiles := b.badger.tiles.set tile b.badger.first } }
      if !residueOk then b.blame (tileUnit tile) 7
      else match j.redo with
        | p :: _ => free (b.redoBlock j tile p)
        | [] =>
          match b.verifyOp n tile (match op with | .next | .linearised => j.reading | _ => []) reads with
          | (false, b1) => b1
          | (true, b1) => free (b1.blockOp j tile op)

/-! ### BADGER_ITERATION_DECIDE (R379, R381) -/

/-- λ after an iteration (R375, R379): × 10 after ILL_POSED, / 4 when accepted, × 4 when not, rounded and kept from 1. -/
def nextLambda (lam : Nat) (ill accepted : Bool) : Nat :=
  max 1 (min 0xFFFFFFFF (if ill then lam * 10 else if accepted then rneNat lam 4 else lam * 4))

/-- A job after an iteration's decision (R379), with whether it was accepted. -/
def Job.decide (j : Job) (d : IterIn) (c : Int) : Job × Bool :=
  let acc : Bool := d.cTry < c
  let j1 := { j with
    decided := j.decided + 1, lam := nextLambda j.lam j.ill acc, ill := false, cost := some (if acc then d.cTry else c),
    pcgIters := 0, store := [], redo := [], work := .linearise }
  (if acc then { j1 with accepted := j.accepted + 1, x := d.x, cost32 := d.cost, cov := if j.cls = 0 then j.poseCov else d.cov } else j1, acc)

/-- Whether an iteration may be decided: its solve is complete, where the job factorises (R373, R379). -/
def Job.solves (j : Job) : Bool := j.pcg || j.work == .solved

/-- An LM iteration of classes 0 to 2 (R379). -/
def Block.lmDecide (j : Job) (d : IterIn) (b : Block) : Block :=
  let c := j.cost.getD d.init.1
  let g0 := j.g0.getD d.init.2
  if j.decided = 0 ∧ g0 = 0 then (b.onJob j.no fun (j : Job) => { j with x := j.init }).jobEnd j.no .converged
  else if !j.solves then b
  else
    let (j1, acc) := j.decide d c
    let b1 := b.onJob j.no fun _ => { j1 with g0 := some g0 }
    if acc && lmStops j.resEps j.stepMin d.grad2 g0 (if j.pcg then d.maxDx else j.maxStep) then b1.jobEnd j.no .converged
    else if j.maxOuter ≤ j1.decided then b1.jobEnd j.no .cap
    else b1

/-- A class 3 job's iteration, always accepted (R381): the one factorisation and solve converges; PCG converges on the residual, and a
breakdown ends it as the cap does (log entry 20). -/
def Block.linearDecide (j : Job) (d : IterIn) (b : Block) : Block :=
  let g0 := j.g0.getD d.init.2
  let n := j.decided + 1
  let b1 := b.onJob j.no fun (j : Job) => { j with
    decided := n, accepted := j.accepted + 1, x := if j.pcg then d.x else j.stepWords, cost32 := d.cost, g0 := some g0 }
  if !j.solves then b
  else if !j.pcg then b1.jobEnd j.no .converged
  else if d.grad2 * 2 ^ 32 ≤ (j.resEps * j.resEps : Nat) * g0 then b1.jobEnd j.no .converged
  else if j.maxPcg ≤ n || j.breakdown then b1.jobEnd j.no .cap
  else b1

/-- An iteration's acceptance is decided strictly before the deadline (R382). -/
def Block.iterationDecide (n : Nat) (d : IterIn) (b : Block) : Block :=
  match b.job n with
  | none => b
  | some j => if !b.works j then b else if j.cls = 3 then b.linearDecide j d else b.lmDecide j d

/-! ### BADGER_DEADLINE and VIO_RESET -/

/-- A job's deadline tick arrives (R382). -/
def Block.badgerDeadline (n : Nat) (b : Block) : Block :=
  match b.job n with
  | none => b
  | some j =>
    match j.deadline with
    | some d => if d ≤ b.now && b.ready then b.jobEnd n .deadline else b
    | none => b

/-- CARRY_LIMIT epochs without a SOLUTION have passed (R385). -/
def Block.vioReset (b : Block) : Block :=
  if b.ready && b.badger.vioInit && decide (b.carryLimit ≤ b.badger.dryEpochs) then
    let b1 := b.dropWindow
    { b1 with badger := { b1.badger with dryEpochs := 0, needReloc := true } }.event 0x0023 noUnit (leBytes 8 b.badger.dryEpochs)
  else b

/-! ### Exec -/

/-- VIO_ASSEMBLY. -/
def execVioAssembly (input : VioIn) (s : State) : Host.Outcome State Fault Refusal := s.act (Block.vioAssembly input)
/-- BADGER_JOB. -/
def execBadgerJob (r : CmdRef) (s : State) : Host.Outcome State Fault Refusal := s.act (Block.badgerJob r)
/-- BADGER_BLOCK_OP_DONE. -/
def execBadgerBlockOpDone (job : Nat) (tile : Fin 16) (op : BlockOp) (residueOk : Bool) (reads : Reads) (s : State) :
    Host.Outcome State Fault Refusal := s.act (Block.blockOpDone job tile op residueOk reads)
/-- BADGER_ITERATION_DECIDE. -/
def execBadgerIterationDecide (job : Nat) (d : IterIn) (s : State) : Host.Outcome State Fault Refusal :=
  s.act (Block.iterationDecide job d)
/-- BADGER_DEADLINE. -/
def execBadgerDeadline (job : Nat) (s : State) : Host.Outcome State Fault Refusal := s.act (Block.badgerDeadline job)
/-- VIO_RESET. -/
def execVioReset (s : State) : Host.Outcome State Fault Refusal := s.act Block.vioReset

end Sys2Proof.Machine
end

