-- ==== Sys2Proof/Machine/Den.lean ====
section
/-! DEFINITION. The commands of chapter 12: map writes, hot and cold moves, scrubbing, calibration and the BAR4 windows. -/

namespace Sys2Proof.Machine

/-! ### MAP_WRITE (R414 to R424) -/

/-- An existing keyframe's head is written in its current place, its ID, hot flags and KF_OBS address kept (R423). A keyframe is made by its
decision, or by a merge. -/
def Block.writeHead (o : MapObj) (b : Block) : Block :=
  match b.kf o.index with
  | some k =>
    b.putMap .kfHead (kfAddr k)
      (withHot k.hot (withObs (field (b.object (kfAddr k)) 104 8) (leBytes 4 k.id ++ (fit 256 o.payload).drop 4))) (o.inputs.map Parcel.ref)
  | none => b

/-- A KF_OBS parcel of a keyframe is written at its place. -/
def Block.writeObs (o : MapObj) (b : Block) : Block :=
  let h := b.kfHead o.index
  if (b.kf o.index).isNone || b.den.dramAbsent || field h 31 1 ≤ o.sub || field h 104 8 = 0 then b
  else b.putMap .kfObs (field h 104 8 + 4096 * o.sub) o.payload (o.inputs.map Parcel.ref)

/-- The records of a payload that a write would make VALID where they are free now. -/
def newlyValid (per : Nat) (first : Nat) (was now : Nat → Bool) : List Nat :=
  ((List.range per).map fun i => first + i).filter fun s => now s && !was s

/-- Whether the newly valid numbers are the lowest free ones (R417). -/
def lowestTaken (news : List Nat) (was : Nat → Bool) : Bool :=
  news.all fun s => (List.range s).all fun t => was t || news.contains t

/-- A MAP_POINTS parcel is written (R416 to R418); new points take the lowest free slots. -/
def Block.writePoints (o : MapObj) (b : Block) : Block :=
  let p := fit 4048 (leBytes 4 (63 * o.index) ++ [63, 0, 0, 0] ++ o.payload.drop 8)
  let was (s : Nat) : Bool := pointValid (b.point s)
  let news := newlyValid 63 (63 * o.index) was fun s => pointValid (slice p (16 + 64 * (s % 63)) 64)
  if b.den.dramAbsent then b
  else if news.any fun s => decide (8388608 ≤ s) then b.mapFull 2
  else if !lowestTaken news was || 133153 ≤ o.index then b
  else
    let b1 := b.putMap .points (pointsAddr o.index) p (o.inputs.map Parcel.ref)
    { b1 with map := { b1.map with ptTop := max b1.map.ptTop (63 * o.index + 63) } }

/-- A PG_EDGES parcel is written (R416 to R418); new edges take the lowest free indexes. -/
def Block.writeEdges (o : MapObj) (b : Block) : Block :=
  let p := fit 4016 (leBytes 4 (50 * o.index) ++ [50, 0, 0, 0] ++ o.payload.drop 8)
  let was (e : Nat) : Bool := edgeValid (b.edgeRec e)
  let news := newlyValid 50 (50 * o.index) was fun e => edgeValid (slice p (16 + 80 * (e % 50)) 80)
  if b.den.dramAbsent then b
  else if news.any fun e => decide (2048000 ≤ e) then b.mapFull 3
  else if !lowestTaken news was || 40960 ≤ o.index then b
  else
    let b1 := b.putMap .edges (edgesAddr o.index) p (o.inputs.map Parcel.ref)
    { b1 with map := { b1.map with edgeTop := max b1.map.edgeTop (50 * o.index + 50) } }

/-- A place sample of a keyframe is posted (R420, R421). -/
def Block.writePosting (o : MapObj) (b : Block) : Block :=
  if b.den.dramAbsent then b
  else match (placeSamples (obsRecords (b.kfObs o.index)))[o.sub]? with
  | some key => b.postSample key o.index (o.inputs.map Parcel.ref)
  | none => b

/-- What a map write reads: the object's previous version, and what names its place. -/
def Block.writeReads (o : MapObj) (b : Block) : List Nat :=
  match o.kind with
  | .kfHead | .kfObs => b.kfReads o.index
  | .points => [pointsAddr o.index]
  | .edges => [edgesAddr o.index]
  | .postings => b.kfReads o.index ++ b.postReads

/-- MAP_WRITE: the pair in control replaces one whole map parcel (R414). -/
def Block.mapWrite (o : MapObj) (b : Block) : Block :=
  if !b.ready then b
  else
  let b := b.readObjects (b.writeReads o)
  match o.kind with
  | .kfHead => b.writeHead o
  | .kfObs => b.writeObs o
  | .points => b.writePoints o
  | .edges => b.writeEdges o
  | .postings => b.writePosting o

/-! ### HOT_COLD_MOVE (R423, R425) -/

/-- One move. -/
def Block.hotMove (m : HotMove) (b : Block) : Block :=
  let b := b.readObjects ((b.kfReads m.kf).take 1)
  match b.kf m.kf with
  | none => b
  | some k => if m.toHot then (if b.den.dramAbsent then b else b.makeHot k) else b.makeCold k

/-- HOT_COLD_MOVE: at most 64 moves between plan commits. -/
def Block.hotColdMove (ms : List HotMove) (b : Block) : Block :=
  if !b.ready then b
  else
    let go := ms.take (64 - b.map.moved)
    let b1 := go.foldl (fun b m => b.hotMove m) b
    { b1 with map := { b1.map with moved := b1.map.moved + go.length } }

/-! ### Scrubbing and calibration (R400, R401, R407, R411, R413) -/

/-- SRAM_SCRUB reads one line. -/
def Block.sramScrub (a : BitVec 40) (found : EccFind) (b : Block) : Block :=
  if !b.detects || 0x2000000 ≤ a.toNat then b
  else match found with
  | .clean => b
  | .single => { b with den := { b.den with sramCe := bump b.den.sramCe } }
  | .uncorrectable => b.memFault a.toNat

/-- DRAM_SCRUB reads one line; `link`: the error was the link's. -/
def Block.dramScrub (a : BitVec 40) (found : EccFind) (link : Bool) (b : Block) : Block :=
  if !b.ready || a.toNat < 0x100000000 || b.dramTop ≤ a.toNat then b
  else
    let b1 := { b with den := { b.den with scrubAt := b.now } }
    match found with
    | .clean => b1
    | .single =>
      if link then { b1 with den := { b1.den with linkCe := bump b1.den.linkCe } }
      else { b1 with den := { b1.den with dramCe := bump b1.den.dramCe } }
    | .uncorrectable => b1.memFault a.toNat

/-- ZQ_CALIBRATION. -/
def Block.zqCalibration (b : Block) : Block :=
  if b.ready && !b.den.dramAbsent then Block.drive .zqCal { b with den := { b.den with zqAt := b.now } } else b

/-! ### BAR4 windows (R428 to R432) -/

/-- Whether two stretches overlap. -/
def overlap (a n c m : Nat) : Bool := decide (a < c + m) && decide (c < a + n)

/-- Whether DEN_WINDOW_OPEN is accepted (R428). -/
def Block.windowOk (c : Cmd) (b : Block) : Bool :=
  let off := c.arg 32 8
  let base := c.arg 40 8
  let len := c.arg 48 8
  off % 4096 == 0 && base % 4096 == 0 && len % 4096 == 0 && len != 0 && decide (off + len ≤ 2 ^ 28)
    && b.openRange base len
    && (b.den.windows.all fun w => match w with | some w => !overlap off len w.off w.len | none => true)
    && (b.den.windows.getD (c.arg 24 1) none).isNone

/-- DEN_WINDOW_OPEN. -/
def Block.windowOpen (r : CmdRef) (b : Block) : Block :=
  b.begin r 0x60 (fun c => decide (c.arg 24 1 < 8)) fun c b =>
    if b.windowOk c then
      Block.finish r stOk 0 0 0 { b with den := { b.den with
        windows := b.den.windows.set (c.arg 24 1) (some { off := c.arg 32 8, base := c.arg 40 8, len := c.arg 48 8 }) } }
    else b.finish r stWindow 0 0 0

/-- DEN_WINDOW_CLOSE. -/
def Block.windowClose (r : CmdRef) (b : Block) : Block :=
  b.begin r 0x61 (fun c => decide (c.arg 24 1 < 8)) fun c b =>
    if (b.den.windows.getD (c.arg 24 1) none).isSome then
      Block.finish r stOk 0 0 0 { b with den := { b.den with windows := b.den.windows.set (c.arg 24 1) none } }
    else b.finish r stWindow 0 0 0

/-- The Den address that a BAR4 offset maps to. -/
def Block.bar4Addr (b : Block) (off : Nat) : Option Nat :=
  b.den.windows.findSome? fun w => match w with
    | some w => if w.off ≤ off && off < w.off + w.len then some (w.base + (off - w.off)) else none
    | none => none

/-- A host's window read meets an uncorrectable error: the fault is reported, and the reader gets a poisoned completion (R430, R569, Table
16-4). -/
def Block.hostReadFault (a : Nat) (b : Block) : Block :=
  match b.region a with
  | some r => if b.detects then b.reportMem a r else b
  | none => b

/-- BAR4_READ (R430). -/
def Block.bar4Read (off len : Nat) (b : Block) : Block :=
  if !b.link.up then b
  else
    let at_ := (List.range len).map fun i => b.bar4Addr (off + i)
    if at_.any Option.isNone then b.drive .unsupported
    else
      let addrs := at_.filterMap id
      let data := addrs.map (memRead b.den.mem)
      match addrs.find? fun a => b.den.ue.contains (a / 64) with
      | some a => (b.hostReadFault (64 * (a / 64))).drive (.poisoned data)
      | none => b.drive (.readReply data)

/-- BAR4_WRITE (R431). -/
def Block.bar4Write (b : Block) : Block :=
  if b.link.up then { b with den := { b.den with bar4Drop := bump b.den.bar4Drop } } else b

/-! ### Exec -/

/-- MAP_WRITE. -/
def execMapWrite (obj : MapObj) (s : State) : Host.Outcome State Fault Refusal := s.act (Block.mapWrite obj)
/-- HOT_COLD_MOVE. -/
def execHotColdMove (moves : List HotMove) (s : State) : Host.Outcome State Fault Refusal := s.act (Block.hotColdMove moves)
/-- SRAM_SCRUB. -/
def execSramScrub (addr : BitVec 40) (found : EccFind) (s : State) : Host.Outcome State Fault Refusal := s.act (Block.sramScrub addr found)
/-- DRAM_SCRUB. -/
def execDramScrub (addr : BitVec 40) (found : EccFind) (link : Bool) (s : State) : Host.Outcome State Fault Refusal :=
  s.act (Block.dramScrub addr found link)
/-- ZQ_CALIBRATION. -/
def execZqCalibration (s : State) : Host.Outcome State Fault Refusal := s.act Block.zqCalibration
/-- DEN_WINDOW_OPEN. -/
def execDenWindowOpen (r : CmdRef) (s : State) : Host.Outcome State Fault Refusal := s.act (Block.windowOpen r)
/-- DEN_WINDOW_CLOSE. -/
def execDenWindowClose (r : CmdRef) (s : State) : Host.Outcome State Fault Refusal := s.act (Block.windowClose r)
/-- BAR4_READ. -/
def execBar4Read (off len : Nat) (s : State) : Host.Outcome State Fault Refusal := s.act (Block.bar4Read off len)
/-- BAR4_WRITE. -/
def execBar4Write (_off : Nat) (_data : Bytes) (s : State) : Host.Outcome State Fault Refusal := s.act Block.bar4Write

end Sys2Proof.Machine
end

