-- ==== Sys2Proof/Machine/Guests.lean ====
section
/-! DEFINITION. The commands of chapter 13: opening, staging and closing a stay, alignment, merging, purging and eviction. -/

namespace Sys2Proof.Machine

/-! ### GUEST_OPEN (R443, R465) -/

/-- A guest's home chip (R465). -/
def Block.homeChip (gid : Nat) (b : Block) : Nat := b.guestF 48 2 0 + (crc32c (leBytes 8 gid)).toNat % max 1 (b.guestF 50 2 1)

/-- The slot that a GUEST_ID holds in any state but FREE. -/
def Block.guestHolding (gid : Nat) (b : Block) : Option Nat :=
  (List.range 64).find? fun s => (b.guest s).st != .free && (b.guest s).gid.toNat == gid

/-- The lowest FREE slot below MAX_SLOTS. -/
def Block.freeGuest (b : Block) : Option Nat := (List.range (min 64 b.maxSlots)).find? fun s => (b.guest s).st == .free

/-- Assigns a slot: the next generation, ARRIVING, nothing staged (R437, R443). Its counters go on. -/
def Block.assignGuest (s gid : Nat) (member : Option (BitVec 12)) (b : Block) : Block :=
  b.onGuest s fun g =>
    { st := .arriving, gen := nextGen g.gen, gid := BitVec.ofNat 64 gid, stagedAt := b.ep.now.toNat, stale := g.stale, dropped := g.dropped,
      member := member }

/-- What an open answers (R443): a refusal's status with its DETAIL and RESULT0, or the slot to assign. -/
def Block.openGuest (gid : Nat) (b : Block) : Except (Nat × Nat × Nat) Nat :=
  if b.den.dramAbsent then .error (stUnavail, 0, 0)
  else if b.homeChip gid ≠ b.trail.chip.toNat then .error (stHome, 0, b.homeChip gid)
  else match b.guestHolding gid with
  | some s => .error (stIdUsed, s, (b.guest s).gen.toNat)
  | none =>
    match b.freeGuest with
    | none => .error (stNoSlot, 0, 0)
    | some s => .ok s

/-- GUEST_OPEN. -/
def Block.guestOpen (r : CmdRef) (b : Block) : Block :=
  b.begin r 0x50 (fun _ => true) fun c b =>
    match b.openGuest (c.arg 32 8) with
    | .error (st, d, r0) => b.finish r st d r0 0
    | .ok s =>
      let b1 := b.assignGuest s (c.arg 32 8) none
      b1.finish r stOk s (b1.guest s).gen.toNat 0

/-! ### Staging (R444 to R446) -/

/-- The first refusal of a verified fragment (R445); `next`: whether its FRAG_NO must be one greater than the last (R545). -/
def Block.fragRefusal (p : Parcel) (next : Bool) (b : Block) : Option Nat :=
  let g := b.guest (field p.payload 0 1)
  let no := field p.payload 4 4
  let kind := field p.payload 1 1
  if 64 ≤ field p.payload 0 1 || !g.st.accepts || g.gen.toNat ≠ field p.payload 2 2 then some stGuestStale
  else if (if next then no ≠ g.lastFrag.toNat + 1 else no ≤ g.lastFrag.toNat) || kind < 1 || 4 < kind then some stOrder
  else if kind = 2 && !g.kfs.contains (BitVec.ofNat 32 (field p.payload 32 4)) then some stUnknownKf
  else if b.stageBytes < g.bytes + storedSize p.payload.length then some stQuota
  else none

/-- Stages a fragment. -/
def Block.stageFrag (p : Parcel) (b : Block) : Block :=
  let kind := field p.payload 1 1
  let kf := BitVec.ofNat 32 (field p.payload 32 4)
  let add (l : List (BitVec 32)) : List (BitVec 32) := if l.contains kf then l else l ++ [kf]
  b.onGuest (field p.payload 0 1) fun g => { g with
    staged := g.staged ++ [p], bytes := g.bytes + storedSize p.payload.length, lastFrag := BitVec.ofNat 32 (field p.payload 4 4)
    stagedAt := b.ep.now.toNat
    kfs := if kind = 1 then add g.kfs else g.kfs
    obsKfs := if kind = 2 then add g.obsKfs else g.obsKfs }

/-- A GUEST_STALE refusal is counted and reported (R446). -/
def Block.reportStale (p : Parcel) (b : Block) : Block :=
  let s := field p.payload 0 1
  let g := b.guest s
  Block.event 0x0030 noUnit (leBytes 1 s ++ leBytes 1 (guestCode g.st) ++ leBytes 2 (field p.payload 2 2) ++ leBytes 2 g.gen.toNat
    ++ [0, 0] ++ leBytes 4 (field p.payload 4 4)) (b.onGuest s fun g => { g with stale := bump g.stale })

/-- GUEST_FRAGMENT starts. -/
def Block.guestFragment (r : CmdRef) (b : Block) : Block :=
  b.begin r 0x51 (fun _ => true) fun c b => if c.arg 28 4 = 0 && c.arg 16 4 = 0 then b.finish r stOk 0 0 0 else b.stage r .running

/-- The heads of a GUEST_FRAGMENT's parcels: as many as its count, TYPE 0x0801, filling DATA_LEN (R481). -/
def Block.fragHeads (r : CmdRef) (c : Cmd) (hs : List Parcel) (b : Block) : Block :=
  if hs.length = c.arg 28 4 && c.arg 16 4 == bufferSize hs && hs.all (fun h => h.type == 0x0801) then
    b.withCmd r fun c => { c with heads := true }
  else b.finish r stField 0 0 0

/-- A verified fragment of a GUEST_FRAGMENT; the command ends at the first refusal or after its last (R445). -/
def Block.fragPart (r : CmdRef) (c : Cmd) (p : Parcel) (b : Block) : Block :=
  match b.fragRefusal p false with
  | some st => (if st = stGuestStale then b.reportStale p else b).finish r st c.count 0 0
  | none =>
    let b1 := b.stageFrag p
    if c.count + 1 = c.arg 28 4 then b1.finish r stOk (c.count + 1) 0 0 else b1.withCmd r fun c => { c with count := c.count + 1 }

/-! ### GUEST_CLOSE (R460, R461) -/

/-- GUEST_CLOSE. -/
def Block.guestClose (r : CmdRef) (b : Block) : Block :=
  b.begin r 0x52 (fun c => decide (c.arg 24 1 < 64)) fun c b =>
    let g := b.guest (c.arg 24 1)
    if g.gen.toNat ≠ c.arg 26 2 || !g.st.accepts then b.finish r stGuestStale 0 0 0
    else (b.evict (c.arg 24 1) 1).finish r stOk 0 0 0

/-! ### GUEST_ALIGN_START (R448 to R450, R452) -/

/-- The observation records of a staged guest keyframe, by parcel index. -/
def stagedObs (staged : List Parcel) (kf : BitVec 32) : List Bytes :=
  let ps := staged.filter fun p => field p.payload 1 1 == 2 && field p.payload 32 4 == kf.toNat
  obsRecords ((sortBy (fun (x y : Parcel) => decide (field x.payload 36 1 ≤ field y.payload 36 1)) ps).map fun p => p.payload.drop 32)

/-- The candidates of a guest keyframe in the place index (R448): no exclusion but that of guest keyframes. -/
def Block.guestCandidates (s : Nat) (kf : BitVec 32) (b : Block) : List (Nat × Nat × Nat) :=
  b.candidates (placeSamples (stagedObs (b.guest s).staged kf)) fun id => field (b.kfHead id) 4 4 / 2 % 2 == 0

/-- A kept pair: guest keyframe, own keyframe, its score. -/
structure GuestPair where
  guest : BitVec 32
  own   : Nat
  score : BitVec 32
deriving DecidableEq, Repr

/-- The pairs of a slot (R448): with an Owl slot for use 4 the highest passing candidate of each guest keyframe; without one the most
similar, of similarity at least GA_MIN_SIM. -/
def Block.alignPairs (s : Nat) (samples : List (Nat × Sample)) (b : Block) : Block × List GuestPair × List InRef :=
  let g := b.guest s
  let kfs := g.kfs.filter g.obsKfs.contains
  match b.useSlot 4 with
  | some slot =>
    let open_ (kf : BitVec 32) (id i : Nat) : Option (BitVec 64) :=
      match samples.find? fun x => BitVec.ofNat 32 x.1 == kf && x.2.key == id with | some x => x.2.raw.getD i none | none => none
    let xs : List (Nat × Sample) := kfs.flatMap fun kf => (b.guestCandidates s kf).map fun c =>
      let age := (b.ep.now.toNat : Int) - (field (b.kfHead c.1) 8 8 : Nat)
      (kf.toNat, { key := c.1, raw := (List.range 10).map fun i =>
        if i = 3 then rawF32 (fp32Of c.2.1 c.2.2) else if i = 6 then rawInt age else if i = 7 then rawInt 1 else open_ kf c.1 i })
    let (b1, recs, refs) := b.engineScore slot 4 (xs.map Prod.snd) (g.staged.map Parcel.ref)
    let scored := (xs.zip recs).filter fun p => p.2.pass
    let pairs := kfs.filterMap fun kf =>
      (scored.filter fun p => BitVec.ofNat 32 p.1.1 == kf).foldl (fun (best : Option GuestPair) p =>
        let y : GuestPair := { guest := kf, own := p.1.2.key, score := p.2.probs.getD 0 0 }
        match best with
        | none => some y
        | some x => if fp32Lt x.score y.score || (!fp32Lt y.score x.score && decide (y.own < x.own)) then some y else some x) none
    (b1, pairs, refs)
  | none =>
    let pairs := kfs.filterMap fun kf =>
      match (b.guestCandidates s kf).head? with
      | some (id, h, n) =>
        if fp32Num b.minSim * n ≤ h * 2 ^ 149 then some { guest := kf, own := id, score := fp32Of h n } else none
      | none => none
    (b, pairs, [])

/-- The own map point of the lowest descriptor distance among a candidate's, with its distance; ties to the lower slot (R449). -/
def Block.nearestPoint (desc : Nat) (slots : List Nat) (b : Block) : Option (Nat × Nat) :=
  slots.foldl (fun (best : Option (Nat × Nat)) s =>
    let d := popcount (BitVec.ofNat 256 (Nat.xor desc (field (b.point s) 32 32)))
    match best with
    | none => some (s, d)
    | some (t, e) => if d < e || (d = e && s < t) then some (s, d) else some (t, e)) none

/-- The map-point slots that observations refer to. -/
def obsSlots (recs : List Bytes) : List Nat := ((recs.map fun r => field r 0 4).filter fun s => s != 0xFFFFFFFF).eraseDups

/-- The correspondences of one pair (R449), by guest point ID. -/
def Block.pairMatches (s : Nat) (x : GuestPair) (b : Block) : List (Nat × Nat × Bytes) :=
  let g := b.guest s
  let own := (obsSlots (obsRecords (b.kfObs x.own))).filter fun t => pointValid (b.point t)
  let points := sortBy (fun i j => decide (i ≤ j)) (obsSlots (stagedObs g.staged x.guest))
  points.filterMap fun gp =>
    match guestPoint g.staged gp with
    | none => none
    | some r =>
      match b.nearestPoint (field r 32 32) own with
      | some (t, d) => if d ≤ b.matchHamming then some (gp, t, slice r 0 12) else none
      | none => none

/-- GUEST_ALIGN_START: enough staged keyframes start an attempt (R448 to R450). -/
def Block.guestAlignStart (slot : Fin 64) (samples : List (Nat × Sample)) (b : Block) : Block :=
  let s := slot.val
  let g := b.guest s
  if b.ready && g.st == .arriving && decide (b.minAlignKf ≤ (g.kfs.filter g.obsKfs.contains).length) && decide (g.alignAt ≤ g.kfs.length)
      && !b.map.rebuild && !b.den.dramAbsent then
    let (b1, pairs, refs) := b.alignPairs s samples
    let ordered := sortBy (fun x y => fp32Lt y.score x.score || (!fp32Lt x.score y.score && decide (x.guest.toNat ≤ y.guest.toNat))) pairs
    let cs := (ordered.flatMap fun x => b.pairMatches s x).take 4096
    let b2 := b1.onGuest s fun g => { g with pairs := ordered.map fun x => (x.guest.toNat, x.own), corrs := cs }
    if cs.length < 7 then b2.alignFailed s 1
    else
      let ins := refs ++ g.staged.map Parcel.ref ++ (cs.map fun c => pointsAddr (c.2.1 / 63)).eraseDups.filterMap fun a =>
        (b2.storedAt a).map Parcel.ref
      let no := b2.badger.nextNo
      let j := { b2.freshJob 2 false b2.gaCarry (some (b2.now + b2.gaDeadline)) ins with
        guest := some (s, g.gen), points := cs.length, limits := (b2.minInliers, b2.maxRms), init := b2.freeVec 7, unknowns := 7 }
      let b3 := b2.onGuest s fun g => { g with st := .aligning, job := some no }
      ((b3.drewN 7).assemble j 1 0 1 cs.length false).jobsWithoutTiles
  else b

/-! ### GUEST_MERGE (R454 to R457) -/

/-- Counts objects that a merge did not create (R457). -/
def Block.mergeDropped (s n : Nat) (b : Block) : Block := b.onGuest s fun g => { g with dropped := bumpBy g.dropped n }

/-- The map-point slots given to guest points, whose records may still be to come. -/
def Block.reservedPoints (b : Block) : List Nat := b.guests.flatMap fun g => g.ptMap.map Prod.snd

/-- The merged map points of a stay. -/
def Guest.newPoints (g : Guest) : Nat := (g.ptMap.filter fun m => g.corrs.all fun c => BitVec.ofNat 32 c.1 != m.1).length

/-- The own slot of a guest point: its match, the one it has, or the lowest free one (R417, R455, R457). -/
def Block.takePoint (s : Nat) (gp : BitVec 32) (b : Block) : Option Nat × Block :=
  let g := b.guest s
  match g.ptMap.find? fun m => m.1 == gp with
  | some m => (some m.2, b)
  | none =>
    if b.maxPoints ≤ g.newPoints then (none, b.mergeDropped s 1)
    else match b.freePoint b.reservedPoints with
    | none => (none, (b.mapFull 2).mergeDropped s 1)
    | some t => (some t, b.onGuest s fun g => { g with ptMap := g.ptMap ++ [(gp, t)] })

/-- The own keyframe of a guest keyframe. -/
def Block.ownKf (s : Nat) (gk : Nat) (b : Block) : Option Nat :=
  ((b.guest s).kfMap.find? fun m => m.1 == BitVec.ofNat 32 gk).map Prod.snd

/-- A new edge takes the lowest free index, or is not created (R417, R418). -/
def Block.addEdge (s : Nat) (rec_ : Bytes) (ins : List InRef) (b : Block) : Block :=
  match b.freeEdge with
  | some e => b.putEdges [(e, rec_)] ins
  | none => (b.mapFull 3).mergeDropped s 1

/-- Merges a KF_HEAD (R455): a keyframe with GUEST set in the slot's stay, and a guest edge to its pair. -/
def Block.mergeHead (s : Nat) (body : Bytes) (ins : List InRef) (b : Block) : Block :=
  let g := b.guest s
  let h := fit 256 body
  let gk := field h 0 4
  let pose := fit 70 (simHead g.xform (slice h 32 70))
  match b.ownKf s gk with
  | some id =>
    match b.kf id with
    | some k =>
      let old := fit 256 (b.object (kfAddr k))
      b.putMap .kfHead (kfAddr k) (slice old 0 32 ++ pose ++ old.drop 102) ins
    | none => b.mergeDropped s 1
  | none =>
    if b.maxKf ≤ g.kfMap.length then b.mergeDropped s 1
    else match b.freeKf with
    | none => (b.mapFull 1).mergeDropped s 1
    | some id =>
      match b.obsRoom (field h 31 1) with
      | none => (b.mapFull 4).mergeDropped s 1
      | some a =>
        let n := field h 102 2
        let m := max 1 ((n + 255) / 256)
        let new := leBytes 4 id ++ [h.getD 4 0 &&& 0xFC ||| 2] ++ slice h 5 3 ++ leBytes 8 b.ep.now.toNat ++ slice h 16 12 ++ leBytes 2 0xFFFF
          ++ slice h 30 2 ++ pose ++ leBytes 2 n ++ leBytes 8 a ++ leBytes 8 b.ep.now.toNat ++ leBytes 1 s ++ [0] ++ leBytes 2 g.gen.toNat
          ++ leBytes 2 (min 256 ((n + m - 1) / m))
        let b1 := (b.poolTake (a + 4096 * field h 31 1)).newKf id new ins
        let b2 := b1.onGuest s fun g => { g with kfMap := g.kfMap ++ [(BitVec.ofNat 32 gk, id)] }
        match g.pairs.find? fun p => p.1 == gk with
        | some p =>
          b2.addEdge s (fit 80 (leBytes 4 id ++ leBytes 4 p.2 ++ fit 70 (pairEdge (fit 256 new) (b2.kfHead p.2)) ++ [2, 1])) ins
        | none => b2

/-- A map-point reference of an observation at merge (R447): the own slot of a point that is merged or staged, else none. -/
def Block.mergeRef (s : Nat) (gp : BitVec 32) (b : Block) : BitVec 32 × Block :=
  if gp = 0xFFFFFFFF then (gp, b)
  else if (b.guest s).ptMap.any (fun m => m.1 == gp) || (guestPoint (b.guest s).staged gp.toNat).isSome then
    match b.takePoint s gp with
    | (some t, b1) => (BitVec.ofNat 32 t, b1)
    | (none, b1) => (0xFFFFFFFF, b1)
  else (0xFFFFFFFF, b)

/-- Merges a KF_OBS parcel: references in the own numbering, and its place samples posted (R447, R455, R456). -/
def Block.mergeObs (s : Nat) (body : Bytes) (ins : List InRef) (b : Block) : Block :=
  match b.ownKf s (field body 0 4) with
  | none => b.mergeDropped s 1
  | some id =>
    let h := b.kfHead id
    let i := field body 4 1
    if h.isEmpty || field h 31 1 ≤ i then b.mergeDropped s 1
    else
      let recs := obsRecords [body]
      let r := recs.foldl (fun (acc : Block × List Bytes) x =>
        let (t, b1) := acc.1.mergeRef s (BitVec.ofNat 32 (field x 0 4))
        (b1, acc.2 ++ [leBytes 4 t.toNat ++ x.drop 4])) (b, [])
      let b1 := r.1.putMap .kfObs (field h 104 8 + 4096 * i) (leBytes 4 id ++ slice body 4 2 ++ List.replicate 10 0 ++ r.2.flatten) ins
      let start := ((List.range i).map fun k => field (b.object (field h 104 8 + 4096 * k)) 5 1).sum
      let m := max 1 ((field h 102 2 + 255) / 256)
      (recs.zipIdx).foldl (fun b (x, k) =>
        if (start + k) % m = 0 && (start + k) / m < 256 then b.postSample (bucketOf (field x 16 32)) id ins else b) b1

/-- Merges a MAP_POINTS parcel: matched points are not duplicated (R455). A first or last keyframe outside the stay's merged ones is
none (log entry 22). -/
def Block.mergePoints (s : Nat) (body : Bytes) (ins : List InRef) (b : Block) : Block :=
  let recs := (List.range 63).map fun i => (field body 0 4 + i, slice body (16 + 64 * i) 64)
  let r := (recs.filter fun x => pointValid x.2).foldl (fun (acc : Block × List (Nat × Bytes)) x =>
    let g := acc.1.guest s
    if g.corrs.any fun c => c.1 == x.1 then acc
    else match acc.1.takePoint s (BitVec.ofNat 32 x.1) with
    | (none, b1) => (b1, acc.2)
    | (some t, b1) =>
      let kf (off : Nat) : Bytes := leBytes 4 ((b1.ownKf s (field x.2 off 4)).getD 0xFFFFFFFF)
      (b1, acc.2 ++ [(t, fit 16 (simMark g.xform (slice x.2 0 16)) ++ slice x.2 16 6 ++ [3, 0] ++ kf 24 ++ kf 28 ++ x.2.drop 32)]))
    (b, [])
  r.1.putPoints r.2 ins

/-- Merges a PG_EDGES parcel: edges among merged keyframes, of kind guest (R455). -/
def Block.mergeEdges (s : Nat) (body : Bytes) (ins : List InRef) (b : Block) : Block :=
  let recs := (List.range 50).map fun i => slice body (16 + 80 * i) 80
  (recs.filter edgeValid).foldl (fun b x =>
    match b.ownKf s (field x 0 4), b.ownKf s (field x 4 4) with
    | some i, some j =>
      b.addEdge s (fit 80 (leBytes 4 i ++ leBytes 4 j ++ fit 70 (simEdge (b.guest s).xform (slice x 8 70)) ++ [2, 1])) ins
    | _, _ => b.mergeDropped s 1) b

/-- What a merge of a fragment reads of the map: the keyframe it names, and the parcels of the points it may write. -/
def Block.mergeReads (s : Nat) (p : Parcel) (b : Block) : List Nat :=
  match field p.payload 1 1 with
  | 1 | 2 => match b.ownKf s (field p.payload 32 4) with | some id => b.kfReads id ++ b.postReads | none => []
  | 3 => ((b.guest s).ptMap.map fun m => pointsAddr (m.2 / 63)).eraseDups
  | _ => (List.range ((b.map.edgeTop + 49) / 50)).map edgesAddr

/-- Merges a slot's oldest staged fragment, which the pair in control verifies (R174), and frees its staging. An uncorrectable error discards the
slot's staged fragments (Table 16-4). -/
def Block.mergeOne (s : Nat) (reads : Reads) (b : Block) : Bool × Block :=
  match (b.guest s).staged with
  | [] => (false, b)
  | p :: _ =>
    match readAs reads p, b.verify p (readAs reads p) b.control with
    | .uncorrectable, _ => (false, ((b.reportMem (b.poolEnd - 64 * (1 + b.freeNow.toNat % 1024)) 10).dropStaging s).drew)
    | _, (none, b1) => (false, b1)
    | _, (some q, b0) =>
      let b := b0.readObjects (b0.mergeReads s q)
      let body := q.payload.drop 32
      let b1 := match field q.payload 1 1 with
        | 1 => b.mergeHead s body [q.ref]
        | 2 => b.mergeObs s body [q.ref]
        | 3 => b.mergePoints s body [q.ref]
        | _ => b.mergeEdges s body [q.ref]
      let b2 := b1.onGuest s fun g => { g with
        staged := g.staged.tail, bytes := g.bytes - storedSize p.payload.length, mergedFrag := BitVec.ofNat 32 (field p.payload 4 4)
        merges := g.merges + 1 }
      (true, { b2 with map := { b2.map with merged := b2.map.merged + 1 } })

/-- Merges up to n fragments of the lowest MERGED slots, up to one that may not be consumed. -/
def Block.mergeSome (reads : Reads) : Nat → Block → Block
  | 0, b => b
  | n + 1, b =>
    match (List.range 64).find? fun s => (b.guest s).st == .merged && !(b.guest s).staged.isEmpty with
    | some s =>
      match b.mergeOne s reads with
      | (true, b1) => b1.mergeSome reads n
      | (false, b1) => b1
    | none => b

/-- The map-point slots that a purge of keyframes clears. -/
def Block.purgePoints (ids : List Nat) (b : Block) : List Nat :=
  (List.range b.map.ptTop).filter fun t => pointValid (b.point t) && ids.contains (field (b.point t) 24 4)

/-- The edges that a purge of keyframes clears. -/
def Block.purgeEdges (ids : List Nat) (b : Block) : List Nat :=
  (List.range b.map.edgeTop).filter fun e => edgeValid (b.edgeRec e) && edgeTouches ids (b.edgeRec e)

/-- Purges a stay's objects (R463): points, then edges, within MERGE_PER_EPOCH parcels per epoch, then the keyframe IDs. Keyframes of a
running job are deferred. -/
def Block.purgeSlot (s : Nat) (b : Block) : Block :=
  let g := b.guest s
  let ids := (g.purge.map BitVec.toNat).filter fun id => !b.kfInJob id
  let room := b.mergePerEpoch - b.map.purged
  if g.st != .evicting || ids.isEmpty then b
  else
    let b := b.readObjects ((List.range ((b.map.ptTop + 62) / 63)).map pointsAddr ++ (List.range ((b.map.edgeTop + 49) / 50)).map edgesAddr)
    let pts := b.purgePoints ids
    let pp := ((pts.map fun t => t / 63).eraseDups).take room
    let pts1 := pts.filter fun t => pp.contains (t / 63)
    let es := b.purgeEdges ids
    let ep := ((es.map fun e => e / 50).eraseDups).take (room - pp.length)
    let es1 := es.filter fun e => ep.contains (e / 50)
    let b1 := (b.putPoints (pts1.map fun t => (t, pointFreed (b.point t))) []).putEdges (es1.map fun e => (e, edgeFreed (b.edgeRec e))) []
    let clear : Bool := pts1.length == pts.length && es1.length == es.length
    let gone := if clear then ids else []
    let b2 := { b1 with map := { b1.map with
      kfs := b1.map.kfs.filter fun k => !gone.contains k.id
      purged := b1.map.purged + pp.length + ep.length } }
    b2.onGuest s fun g => { g with
      purge := g.purge.filter fun id => !gone.contains id.toNat
      purged := bumpBy g.purged (pts1.length + es1.length + gone.length), since := b.ep.now.toNat }

/-- GUEST_MERGE: the epoch's merges (R454) and purges (R463). -/
def Block.guestMerge (reads : Reads) (b : Block) : Block :=
  if b.ready && !b.pwr.paused && !b.den.dramAbsent then
    (List.range 64).foldl (fun b s => b.purgeSlot s) (b.mergeSome reads (b.mergePerEpoch - b.map.merged))
  else b

/-! ### The end of a stay (R439, R460, R463, R464) -/

/-- GUEST_IDLE_EXPIRY. -/
def Block.guestIdle (slot : Fin 64) (b : Block) : Block :=
  let g := b.guest slot
  if b.ready && g.st.accepts && b.idleEpochs != 0 && decide (g.stagedAt + b.idleEpochs ≤ b.ep.now.toNat) then b.evict slot 2 else b

/-- GUEST_EVICT_COMPLETE: at a boundary after the move to EVICTING and after the last purge write. -/
def Block.guestEvicted (slot : Fin 64) (b : Block) : Block :=
  let g := b.guest slot
  if b.ready && g.st == .evicting && g.purge.isEmpty && decide (g.since < b.ep.now.toNat) then
    let b1 := b.event 0x0033 noUnit (leBytes 1 slot ++ [g.cause] ++ leBytes 2 g.gen.toNat ++ leBytes 4 g.purged.toNat)
    let b2 := b1.guestRecord slot 7 ([g.cause, 0, 0, 0] ++ leBytes 4 g.purged.toNat) []
    b2.onGuest slot fun g => { g with st := .cooling, doneAt := b.ep.now.toNat }
  else b

/-- GUEST_COOLING_END: FREE at the second boundary. -/
def Block.guestCooled (slot : Fin 64) (b : Block) : Block :=
  let g := b.guest slot
  if b.ready && g.st == .cooling && decide (g.doneAt + 2 ≤ b.ep.now.toNat) then b.onGuest slot fun g => { g with st := .free } else b

/-! ### Exec -/

/-- GUEST_OPEN. -/
def execGuestOpen (r : CmdRef) (s : State) : Host.Outcome State Fault Refusal := s.act (Block.guestOpen r)
/-- GUEST_FRAGMENT. -/
def execGuestFragment (r : CmdRef) (s : State) : Host.Outcome State Fault Refusal := s.act (Block.guestFragment r)
/-- GUEST_CLOSE. -/
def execGuestClose (r : CmdRef) (s : State) : Host.Outcome State Fault Refusal := s.act (Block.guestClose r)
/-- GUEST_ALIGN_START. -/
def execGuestAlignStart (slot : Fin 64) (samples : List (Nat × Sample)) (s : State) : Host.Outcome State Fault Refusal :=
  s.act (Block.guestAlignStart slot samples)
/-- GUEST_MERGE. -/
def execGuestMerge (reads : Reads) (s : State) : Host.Outcome State Fault Refusal := s.act (Block.guestMerge reads)
/-- GUEST_IDLE_EXPIRY. -/
def execGuestIdleExpiry (slot : Fin 64) (s : State) : Host.Outcome State Fault Refusal := s.act (Block.guestIdle slot)
/-- GUEST_EVICT_COMPLETE. -/
def execGuestEvictComplete (slot : Fin 64) (s : State) : Host.Outcome State Fault Refusal := s.act (Block.guestEvicted slot)
/-- GUEST_COOLING_END. -/
def execGuestCoolingEnd (slot : Fin 64) (s : State) : Host.Outcome State Fault Refusal := s.act (Block.guestCooled slot)

end Sys2Proof.Machine
end

