-- ==== Sys2Proof/Machine/Trail.lean ====
section
/-! DEFINITION. The commands of chapter 15: lanes, widths, flits, roll call, reads across chips and merge jobs. -/

namespace Sys2Proof.Machine

/-! ### Lanes (R519 to R522, R624) -/

/-- Starts a training attempt. -/
def Block.startTraining (l : Nat) (b : Block) : Block := b.onLane l fun x => { x with st := .training, since := b.now, sentReq := false, leads := false }

/-- LANE_TRAIN_ATTEMPT: a bonded-out lane of a bundle leaves OFF. -/
def Block.trainAttempt (l : Fin 18) (b : Block) : Block :=
  if b.lanesOn && b.bonded l && b.laneBundle l < 16 && (b.lane l).st == .off then b.startTraining l else b

/-- LANE_TRAIN_TIMEOUT: an attempt not complete within 20 ms fails; a lane that was retraining is DOWN. -/
def Block.trainTimeout (l : Fin 18) (b : Block) : Block :=
  let x := b.lane l
  if (x.st == .training || x.st == .retraining) && decide (x.since + ms 20 ≤ b.now) then
    let b1 := b.onLane l fun x => { x with st := .failed, since := b.now, trainFail := bump x.trainFail, sentReq := false, leads := false }
    if x.st == .retraining then b1.laneGone (b.laneBundle l) else b1
  else b

/-- LANE_RETRY: every 1 s while ROLE is non-zero. -/
def Block.laneRetry (l : Fin 18) (b : Block) : Block :=
  if b.lanesOn && (b.lane l).st == .failed && decide ((b.lane l).since + ms 1000 ≤ b.now) then b.startTraining l else b

/-- SYNC_HEADER_ERRORS: more than 64 within 1 ms. -/
def Block.headerErrors (l : Fin 18) (count : Nat) (b : Block) : Block := if 64 < count then b.retrain l else b

/-- LANE_LOCK_LOSS: an edge PHY's LOCK falls. -/
def Block.lockLoss (l : Fin 18) (b : Block) : Block := if b.boot.package == .c then b.retrain l else b

/-- Whether this end leads when both have sent RETRAIN_REQ (R522): the lower chip number, or the lower serial when one is unassigned. -/
def Block.leadsRetrain (k : Nat) (b : Block) : Bool :=
  let x := b.bundle k
  if b.trail.assigned && x.nbValid then decide (b.trail.chip.toNat < x.nbChip.toNat) else decide (b.boot.otp.serial.toNat < x.nbSerial.toNat)

/-- RETRAIN_REQ received. -/
def Block.retrainReq (l : Fin 18) (b : Block) : Block :=
  let x := b.lane l
  let k := b.laneBundle l
  if x.st == .up then
    (b.onLane l fun x => { x with st := .retraining, since := b.now, sentReq := false, leads := false }).laneGone k
  else if x.st == .retraining && x.sentReq then b.onLane l fun x => { x with sentReq := false, leads := b.leadsRetrain k }
  else b

/-- The lowest rate code up to a lane's cap that both masks hold is exceeded by no other: whether a rate is one both ends can run (R519). -/
def Block.rateOk (l : Nat) (rate : BitVec 3) (far : FarEnd) (b : Block) : Bool :=
  decide (1 ≤ rate.toNat) && decide (rate.toNat ≤ min 4 (b.rateCap l)) && far.rates.getLsbD (rate.toNat - 1)

/-- A number that a parcel carries. -/
def chipOf (n : Nat) : Option (BitVec 12) := if n = 0xFFFF then none else some (BitVec.ofNat 12 n)

/-- Notes that a roll call or a training set reported a serial: a direct neighbour joins the list, another's entry is only renewed (R553). -/
def heard (direct : Bool) (serial : BitVec 64) (chip : Option (BitVec 12)) (now : Tick) (l : List Neighbour) : List Neighbour :=
  let have_ := l.any fun n => n.serial == serial
  if have_ then l.map fun n => if n.serial == serial then { n with heardAt := now, chip := if chip.isSome then chip else n.chip } else n
  else if direct then l ++ [{ serial := serial, chip := chip, heardAt := now }] else l

/-- LANE_UP: an attempt has completed (R519); the lane joins its bundle by a WIDTH_REQ, and a local bundle starts a roll call (R523 to
R525, R532, R538). -/
def Block.laneUp (l : Fin 18) (rate : BitVec 3) (far : FarEnd) (b : Block) : Block :=
  let x := b.lane l
  let k := b.laneBundle l
  if b.lanesOn && (x.st == .training || x.st == .retraining) && b.rateOk l rate far then
    let b1 := b.onLane l fun x => { x with st := .up, rate := rate, since := b.now, sentReq := false, leads := false }
    let b2 := b1.onBundle k fun y => { y with
      nbSerial := far.serial, nbChip := far.chip.extractLsb' 0 12, nbValid := far.chip != 0xFFFF, width := if y.width = 0 then 1 else y.width }
    let b3 := b2.askWidth k
    if b.isUplink k then b3
    else Block.rollStart { b3 with trail := { b3.trail with nbs := heard true far.serial (chipOf far.chip.toNat) b.now b3.trail.nbs } }
  else b

/-! ### Widths (R524, R525) -/

/-- WIDTH_REQ received: adopted, or the narrower of the two when both ends have asked; never wider than the live lanes. -/
def Block.widthReqIn (k : Fin 16) (w : BitVec 5) (b : Block) : Block :=
  if !b.bundleUp k || w = 0 then b
  else
    let x := b.bundle k
    let lim := fitWidth (b.liveLanes k).length
    let a := match x.wantWidth with | some m => min (fitWidth w.toNat) m.toNat | none => min (fitWidth w.toNat) lim
    let lost : Bool := match x.wantWidth with | some m => decide (a < m.toNat) | none => false
    (b.onBundle k fun x => { x with
      width := BitVec.ofNat 5 a, wantWidth := none, noReqTill := if lost then b.now + ms 1 else x.noReqTill }).drive
        (.widthAck k (BitVec.ofNat 5 a))

/-- WIDTH_ACK received: it completes the change asked for. -/
def Block.widthAckIn (k : Fin 16) (w : BitVec 5) (b : Block) : Block :=
  if (b.bundle k).wantWidth == some w then b.onBundle k fun x => { x with width := w, wantWidth := none } else b

/-! ### Flits (R526 to R530) -/

/-- The bytes of a flit. -/
def flitBytes (f : BitVec 2048) : Bytes := (List.range 256).map fun i => f.extractLsb' (8 * i) 8

/-- Drops the flits acknowledged up to a FLIT_SEQ: those not after it, modulo 4,096. -/
def ackedBy (s : BitVec 12) (l : List HeldFlit) : List HeldFlit := l.filter fun h => 2048 ≤ (s - h.seq).toNat

/-- A cumulative acknowledgement. -/
def Block.takeAck (k : Nat) (s : BitVec 12) (b : Block) : Block :=
  (b.onBundle k fun x => { x with replay := ackedBy s x.replay, nakSeq := none, nakRun := 0 }).sendWaiting k

/-- A NAK: the sender replays from the flit after the one it names; eight in a row for one flit retrain the bundle (R528, R529). -/
def Block.takeNak (k : Nat) (s : BitVec 12) (b : Block) : Block :=
  let x := b.bundle k
  let run := if x.nakSeq == some s then x.nakRun + 1 else 1
  let b1 := b.onBundle k fun x => { x with replay := ackedBy s x.replay, nakSeq := some s, nakRun := if 8 ≤ run then 0 else run,
                                           replays := bump x.replays }
  let b2 := (b1.bundle k).replay.foldl (fun b h => b.drive (.flit k h.bytes)) b1
  if 8 ≤ run then b2.retrainBundle k else b2

/-- Sends a NAK that names the last good flit, once per gap. -/
def Block.sendNak (k : Nat) (b : Block) : Block :=
  let x := b.bundle k
  if x.gapNak then b else (b.onBundle k fun x => { x with gapNak := true }).drive (.ack k (x.rxSeq - 1) true)

/-- Sends the cumulative acknowledgement. -/
def Block.sendAck (k : Nat) (b : Block) : Block :=
  (b.onBundle k fun x => { x with unacked := 0 }).drive (.ack k ((b.bundle k).rxSeq - 1) false)

/-- The parcel of a sequence of beats and its seal word. -/
def parcelOfBeats (beats : List Bytes) (sw : BitVec 64) : Parcel :=
  let bs := beats.flatten
  let l := field bs 2 2
  { type := BitVec.ofNat 16 (field bs 0 2), len := BitVec.ofNat 16 l, stream := bs.getD 4 0, chip := BitVec.ofNat 16 (field bs 6 2),
    seq := BitVec.ofNat 32 (field bs 8 4), producer := bs.getD 12 0,
    payload := if beats.length = (16 + l + 31) / 32 then slice bs 16 l else bs.drop 16, sealWord := sw }

/-- A whole parcel has arrived: it is delivered here, or forwarded towards its chip with its kind, tag and seal unchanged (R527, R537, R541,
R543). -/
def Block.routeParcel (x : Sending) (b : Block) : Block :=
  let here : Bool := x.p.type == 0x0901 || (x.p.type == 0x0902 && field x.p.payload 0 8 == b.boot.otp.serial.toNat)
    || (b.trail.assigned && x.dest == b.trail.chip)
  if here then { b with trail := { b.trail with inbox := b.trail.inbox ++ [x.p] } }
  else if b.trail.assigned then b.sendTo x else b

/-- The beats of a good flit join those of its virtual channel. -/
def Block.takeBeats (k : Nat) (f : Bytes) (b : Block) : Block :=
  let vc1 := (f.getD 4 0).getLsbD 0
  let n := min 7 (field f 5 1)
  let kindOf (i : Nat) : Nat := field f 6 2 / 4 ^ i % 4
  let x := b.bundle k
  let fresh : Bool := kindOf 0 == 1 || kindOf 0 == 3
  let beats := (if fresh then [] else if vc1 then x.rx1 else x.rx) ++ (List.range n).map fun i => slice f (8 + 32 * i) 32
  let done : Bool := decide (0 < n) && (kindOf (n - 1) == 2 || kindOf (n - 1) == 3)
  let b1 := b.onBundle k fun x => if vc1 then { x with rx1 := if done then [] else beats } else { x with rx := if done then [] else beats }
  if done then
    b1.routeParcel { dest := BitVec.ofNat 12 (field f 240 2), src := BitVec.ofNat 12 (field f 242 2), kind := BitVec.ofNat 4 (field f 0 2 / 4096),
                     tag := BitVec.ofNat 32 (field f 244 4), p := parcelOfBeats beats (BitVec.ofNat 64 (field f 232 8)) }
  else b1

/-- FLIT_RECEIVE (R528, R529): the link CRC, the acknowledgement it carries, its place in the sequence, its beats. -/
def Block.flitReceive (k : Fin 16) (flit : BitVec 2048) (b : Block) : Block :=
  if !b.bundleUp k then b
  else
    let f := flitBytes flit
    if (crc32c (f.take 248)).toNat ≠ field f 248 4 then
      (b.onBundle k fun x => { x with crcErr := bump x.crcErr }).sendNak k
    else
      let a := field f 2 2
      let b1 := if a.testBit 12 then b.takeAck k (BitVec.ofNat 12 a) else b
      let b2 := if a.testBit 13 then b1.takeNak k (BitVec.ofNat 12 a) else b1
      let seq := BitVec.ofNat 12 (field f 0 2)
      let x := b2.bundle k
      if seq ≠ x.rxSeq then (if 2048 ≤ (seq - x.rxSeq).toNat then b2.sendAck k else b2.sendNak k)
      else
        let b3 := b2.onBundle k fun x => { x with
          rxSeq := x.rxSeq + 1, unacked := x.unacked + 1, gapNak := false, ackAt := if x.unacked = 0 then b.now else x.ackAt }
        let b4 := if 16 ≤ (b3.bundle k).unacked then b3.sendAck k else b3
        let kind := field f 0 2 / 4096
        if 1 ≤ kind && kind ≤ 3 then b4.takeBeats k f else b4

/-- NAK_RECEIVE. -/
def Block.nakReceive (k : Fin 16) (seq : BitVec 12) (b : Block) : Block := if b.bundleUp k then b.takeNak k seq else b

/-- ACK_TIMER: 1 µs since the oldest flit not acknowledged. -/
def Block.ackTimer (k : Fin 16) (b : Block) : Block :=
  let x := b.bundle k
  if b.bundleUp k && x.unacked != 0 && decide (x.ackAt + us 1 ≤ b.now) then b.sendAck k else b

/-- FLIT_ACK_TIMEOUT: a flit unacknowledged for 100 µs. -/
def Block.flitTimeout (k : Fin 16) (b : Block) : Block :=
  match (b.bundle k).replay with
  | h :: _ => if h.at_ + us 100 ≤ b.now then b.retrainBundle k else b
  | [] => b

/-! ### Roll call (R532 to R538) -/

/-- The chip number as a parcel carries it: 0xFFFF when unassigned. -/
def chipField (assigned : Bool) (c : BitVec 12) : Nat := if assigned then c.toNat else 0xFFFF

/-- The ROLL_CALL payload (Table 15-4). -/
def Block.rollPayload (b : Block) : Bytes :=
  let t := b.trail
  fit 32 (leBytes 8 b.boot.otp.serial.toNat ++ leBytes 2 (chipField t.assigned t.chip) ++ leBytes 2 b.chipBase
      ++ leBytes 1 (b.boot.masterStrap.toNat + 2 * b.trailRole + 8 * (b.boot.package == .w).toNat) ++ leBytes 1 t.settled.toNat ++ [0, 0]
      ++ leBytes 8 t.candSerial.toNat ++ leBytes 1 t.candStrap.toNat)
    ++ (List.range 16).flatMap fun k =>
      let x := b.bundle k
      leBytes 8 x.nbSerial.toNat ++ leBytes 2 (chipField x.nbValid x.nbChip) ++ leBytes 1 x.width.toNat
        ++ leBytes 1 (b.bundleUp k).toNat ++ leBytes 4 0

/-- ROLL_CALL_SEND: every 100 µs, on every UP local bundle. -/
def Block.rollSend (b : Block) : Block :=
  let due : Bool := match b.trail.rollSent with | some t => decide (t + us 100 ≤ b.now) | none => true
  if b.lanesOn && b.trail.rolling && due then
    b.upLocal.foldl (fun b k => b.linkParcel 0x0901 k (b.bundle k).nbChip b.rollPayload)
      { b with trail := { b.trail with rollSent := some b.now } }
  else b

/-- Whether one candidate ranks above another (R534). -/
def ranksAbove (strap : Bool) (serial : BitVec 64) (strap' : Bool) (serial' : BitVec 64) : Bool :=
  if strap != strap' then strap else decide (serial.toNat < serial'.toNat)

/-- Adds or updates a peer, keeping the path of fewest hops, on equal hops the lower bundle (R540). -/
def putPeer (p : Peer) (l : List Peer) : List Peer :=
  match l.find? fun q => q.serial == p.serial with
  | none => l ++ [p]
  | some q => if q.hops < p.hops || (q.hops == p.hops && decide (q.bundle < p.bundle)) then l else l.map fun x => if x.serial == p.serial then p else x

/-- What of a peer counts as the neighbour table (R534). -/
def peerKey (p : Peer) : BitVec 64 × Option (BitVec 12) × Nat × Nat := (p.serial, p.chip, p.bundle, p.hops)

/-- ROLL_CALL_RECEIVE: the candidate and the neighbour table (R534). A chip that runs none joins the roll call it hears. From an uplink only
the serial and chip numbers are taken (R538). -/
def Block.rollReceive (k : Fin 16) (p : Parcel) (b : Block) : Block :=
  match (b.received p).verify p .intact trailUnit with
  | (none, b1) => b1
  | (some _, b1) =>
    let d := p.payload
    if p.type != 0x0901 || !b1.lanesOn || !b1.bundleUp k then b1
    else if b1.isUplink k then
      b1.onBundle k fun x => { x with nbSerial := BitVec.ofNat 64 (field d 0 8), nbChip := BitVec.ofNat 12 (field d 8 2), nbValid := field d 8 2 != 0xFFFF }
    else
      let b2 := if b1.trail.rolling then b1 else b1.rollStart
      let serial := BitVec.ofNat 64 (field d 0 8)
      let chip := chipOf (field d 8 2)
      let cand := BitVec.ofNat 64 (field d 16 8)
      let candStrap := field d 24 1 % 2 == 1
      let rows := ((List.range 16).map fun i => slice d (32 + 16 * i) 16).filter fun r => field r 11 1 % 2 == 1 && field r 0 8 != 0
      let me : Peer := { serial := serial, chip := chip, strap := (d.getD 12 0).getLsbD 0, wide := (d.getD 12 0).getLsbD 3,
                         settled := (d.getD 13 0).getLsbD 0, bundle := k, hops := 1, heardAt := b.now,
                         nbs := rows.filterMap fun r => chipOf (field r 8 2) }
      let far : List Peer := (rows.filter fun r => field r 0 8 != b.boot.otp.serial.toNat).map fun r =>
        { serial := BitVec.ofNat 64 (field r 0 8), chip := chipOf (field r 8 2), strap := false, wide := false, settled := true, bundle := k,
          hops := 2, heardAt := b.now, nbs := [] }
      let t := b2.trail
      let peers := far.foldl (fun l q => putPeer q l) (putPeer me (t.peers.filter fun q => q.serial != serial || decide (q.hops < 2)))
      let better := ranksAbove candStrap cand t.candStrap t.candSerial
      let changed : Bool := better || peers.map peerKey != t.peers.map peerKey
      let b3 := b2.onBundle k fun x => { x with nbSerial := serial, nbChip := chip.getD 0, nbValid := chip.isSome }
      { b3 with trail := { b3.trail with
        peers := peers
        nbs := rows.foldl (fun l r => heard false (BitVec.ofNat 64 (field r 0 8)) (chipOf (field r 8 2)) b.now l) (heard true serial chip b.now t.nbs)
        candSerial := if better then cand else t.candSerial, candStrap := if better then candStrap else t.candStrap
        changedAt := if changed then b.now else t.changedAt, settled := t.settled && !changed } }

/-- How many chips a domain may hold (R536). -/
def Block.domainMax (b : Block) : Nat := if b.boot.package == .h then 2 else if b.trailRole = 1 then 4 else 8

/-- The number a peer held before the roll call. -/
def Block.heldNumber (p : Peer) (b : Block) : Option (BitVec 12) :=
  match p.chip with
  | some c => some c
  | none => (b.trail.numbers.find? fun n => n.1 == p.serial).map Prod.snd

/-- The numbers that a master gives its peers (R536): kept ones first, then the lowest free in hop and serial order; none beyond M. -/
def Block.numbering (b : Block) : List (Peer × Option (BitVec 12)) :=
  let base := b.chipBase
  let M := b.domainMax
  let ok (c : BitVec 12) : Bool := decide (base < c.toNat) && decide (c.toNat < base + M)
  let order := sortBy (fun (x y : Peer) => decide (x.hops < y.hops) || (x.hops == y.hops && decide (x.serial.toNat ≤ y.serial.toNat))) b.trail.peers
  let kept := order.filterMap fun p => match b.heldNumber p with | some c => if ok c then some (p.serial, c) else none | none => none
  (order.foldl (fun (acc : List (Peer × Option (BitVec 12)) × List Nat) p =>
    match kept.find? fun x => x.1 == p.serial with
    | some x => (acc.1 ++ [(p, some x.2)], acc.2)
    | none =>
      match (List.range M).find? fun i => !acc.2.contains (base + i) with
      | some i => (acc.1 ++ [(p, some (BitVec.ofNat 12 (base + i)))], (base + i) :: acc.2)
      | none => (acc.1 ++ [(p, none)], acc.2)) ([], base :: kept.map fun x => x.2.toNat)).1

/-- The exchange over the UP uplinks once this chip's domain has numbered it (R538): a ROLL_CALL parcel that carries only the serial and the
chip number (log entry 98). -/
def Block.tellUplinks (b : Block) : Block :=
  ((List.range 16).filter fun k => b.bundleUp k && b.isUplink k).foldl (fun b k =>
    b.linkParcel 0x0901 k (b.bundle k).nbChip (fit 288 (leBytes 8 b.boot.otp.serial.toNat ++ leBytes 2 (chipField b.trail.assigned b.trail.chip)))) b

/-- ROLL_CALL_DONE (R537). -/
def Block.rollDone (n : Nat) (b : Block) : Block :=
  Block.tellUplinks <| { b with trail := { b.trail with rolling := false, rollDone := true } }.event 0x0042 noUnit
    (leBytes 2 (chipField b.trail.assigned b.trail.chip) ++ leBytes 1 n ++ List.replicate 5 0 ++ leBytes 8 b.trail.masterSerial.toNat)

/-- This chip becomes master (R536, R537). -/
def Block.becomeMaster (b : Block) : Block :=
  let plan := b.numbering
  let mine := (b.boot.otp.serial, BitVec.ofNat 12 b.chipBase)
  let given : List (BitVec 64 × BitVec 12) := plan.filterMap fun x => x.2.map fun c => (x.1.serial, c)
  let kept := b.trail.numbers.filter fun (n : BitVec 64 × BitVec 12) => n.1 != mine.1 && given.all fun g => g.1 != n.1
  let b1 := { b with trail := { b.trail with
    master := true, assigned := true, chip := BitVec.ofNat 12 b.chipBase, masterSerial := b.boot.otp.serial
    numbers := mine :: given ++ kept
    peers := b.trail.peers.map fun (p : Peer) => { p with chip := match given.find? (fun (g : BitVec 64 × BitVec 12) => g.1 == p.serial) with | some g => some g.2 | none => none } } }
  let b2 := plan.foldl (fun b x =>
    match x.2 with
    | some c => b.linkParcel 0x0902 x.1.bundle c (leBytes 8 x.1.serial.toNat ++ leBytes 2 c.toNat ++ leBytes 2 b.chipBase
        ++ leBytes 2 b.domainMax ++ [0, 0] ++ leBytes 8 b.boot.otp.serial.toNat ++ leBytes 8 0)
    | none => b.event 0x0041 noUnit (leBytes 8 x.1.serial.toNat ++ leBytes 2 b.domainMax)) b1
  b2.rollDone (1 + given.length)

/-- ROLL_CALL_SETTLE: 2 ms without change (R534, R535). -/
def Block.rollSettle (b : Block) : Block :=
  if b.lanesOn && b.trail.rolling && decide (b.trail.changedAt + ms 2 ≤ b.now) then
    let b1 := { b with trail := { b.trail with settled := true } }
    let b2 := if b.boot.masterStrap && !b.trail.settled && b.trail.peers.any Peer.strap
      then b1.event 0x0040 noUnit (leBytes 8 b.boot.otp.serial.toNat ++ leBytes 8 b.trail.candSerial.toNat) else b1
    if b.trail.candSerial == b.boot.otp.serial && b.trail.peers.all Peer.settled then b2.becomeMaster else b2
  else b

/-- ASSIGN received (R536, R537). -/
def Block.assignIn (p : Parcel) (b : Block) : Block :=
  match (b.received p).verify p .intact trailUnit with
  | (none, b1) => b1
  | (some _, b1) =>
    let d := p.payload
    if p.type != 0x0902 || !b1.lanesOn || field d 0 8 != b.boot.otp.serial.toNat then b1
    else
      let c := BitVec.ofNat 12 (field d 8 2)
      let ms := BitVec.ofNat 64 (field d 16 8)
      let b2 := { b1 with trail := { b1.trail with
        chip := c, assigned := true, master := false, masterSerial := ms
        numbers := (b.boot.otp.serial, c) :: (ms, BitVec.ofNat 12 (field d 10 2)) ::
          b1.trail.numbers.filter fun n => n.1 != b.boot.otp.serial && n.1 != ms } }
      b2.rollDone (1 + (b2.trail.peers.filter fun q => q.chip.isSome).length)

/-! ### Reads across chips (R539, R550) -/

/-- Why a READ_REQ is refused, none when it is answered. -/
def Block.readRefusal (addr : Nat) (b : Block) : Option Nat :=
  let a := addr % 2 ^ 40
  let n := storedSize (memField b.den.mem (a + 2) 2)
  let ue (g : Nat) : Bool := b.den.ue.contains g
  match b.region a with
  | none => some 2
  | some r =>
    if a % 64 ≠ 0 then some 2
    else if isProtected r then some 1
    else if ue (a / 64) then some 3
    else if 4096 < memField b.den.mem (a + 2) 2 then some 4
    else if (List.range (n / 64)).any fun i => ue (a / 64 + i) then some 3
    else none

/-- READ_REQ received: READ_RESP with the stored parcel, or READ_REFUSED. -/
def Block.readReqIn (src : BitVec 12) (p : Parcel) (b : Block) : Block :=
  match (b.received p).verify p .intact trailUnit with
  | (none, b1) => b1
  | (some _, b1) =>
    let addr := field p.payload 0 8
    if p.type != 0x0905 || !b1.lanesOn || !b1.trail.assigned then b1
    else match b1.readRefusal addr with
    | none =>
      let a := addr % 2 ^ 40
      b1.sendTo { dest := src, src := b.trail.chip, kind := 3, tag := BitVec.ofNat 32 (field p.payload 8 4),
                  p := parcelOf (memBytes b.den.mem a (storedSize (memField b.den.mem (a + 2) 2))) }
    | some c =>
      let b2 := if c = 3 then b1.memFault (addr % 2 ^ 40) else b1
      b2.control' 0x0907 src (leBytes 8 addr ++ slice p.payload 8 4 ++ leBytes 1 c ++ [0, 0, 0])

/-- READ_RESP received: the requesting pair verifies the parcel. -/
def Block.readRespIn (tag : BitVec 32) (p : Parcel) (b : Block) : Block :=
  let b1 := { b with trail := { b.trail with reads := b.trail.reads.filter fun r => r.tag != tag } }
  ((b1.received p).verify p .intact b.control).2

/-- Sends a READ_REQ (R550). -/
def Block.sendRead (r : ReadWait) (b : Block) : Block :=
  b.control' 0x0905 (r.addr.extractLsb' 40 12) (leBytes 8 r.addr.toNat ++ leBytes 4 r.tag.toNat ++ leBytes 4 0)

/-- READ_REQ_TIMEOUT: sent once more after 1 ms, then refused with TIMEOUT. -/
def Block.readTimeout (tag : BitVec 32) (b : Block) : Block :=
  match b.trail.reads.find? fun r => r.tag == tag && decide (r.at_ + ms 1 ≤ b.now) with
  | none => b
  | some r =>
    let rest := b.trail.reads.filter fun x => x.tag != tag
    if r.again then { b with trail := { b.trail with reads := rest } }
    else Block.sendRead r { b with trail := { b.trail with reads := rest ++ [{ r with at_ := b.now, again := true }] } }

/-! ### Merge jobs (R544 to R547) -/

/-- A verified control parcel of a TYPE, taken by the pair in control. -/
def Block.controlIn (type : BitVec 16) (p : Parcel) (b : Block) : Option Bytes × Block :=
  match (b.received p).verify p .intact b.control with
  | (none, b1) => (none, b1)
  | (some q, b1) => if q.type == type && b1.ready && b1.trail.assigned then (some q.payload, b1) else (none, b1)

/-- JOIN received: the collector opens a slot without the home-chip test and replies (R544); with GUESTS left out no slot opens (R82). -/
def Block.joinIn (p : Parcel) (b : Block) : Block :=
  match b.controlIn 0x0903 p with
  | (none, b1) => b1
  | (some d, b1) =>
    let member := BitVec.ofNat 12 (field d 4 2)
    if !b1.isCollector || field d 0 4 != b1.jobTag then b1
    else
      let gid := memberGid member.toNat
      let reply (slot gen st : Nat) (b : Block) : Block :=
        b.control' 0x0904 member (leBytes 4 b.jobTag ++ leBytes 2 member.toNat ++ leBytes 1 slot ++ [0] ++ leBytes 2 gen ++ leBytes 2 st
          ++ leBytes 4 0)
      match (if b1.den.dramAbsent || !b1.guestsOn || (b1.guestHolding gid).isSome then none else b1.freeGuest) with
      | none => reply 0xFF 0 stNoSlot b1
      | some s =>
        let b2 := b1.assignGuest s gid (some member)
        reply s (b2.guest s).gen.toNat stOk b2

/-- Whether a parcel's job tag and member chip are this chip's. -/
def Block.myJob (d : Bytes) (b : Block) : Bool := b.isMember && field d 0 4 == b.jobTag && field d 4 2 == b.trail.chip.toNat

/-- Every stored object of the map. -/
def Block.mapReads (b : Block) : List Nat :=
  (b.map.kfs.flatMap fun k => b.kfReads k.id) ++ (List.range ((b.map.ptTop + 62) / 63)).map pointsAddr
    ++ (List.range ((b.map.edgeTop + 49) / 50)).map edgesAddr

/-- JOIN_REPLY received: the member sends its map (R545), or waits 100 epochs. -/
def Block.joinReplyIn (p : Parcel) (b : Block) : Block :=
  match b.controlIn 0x0904 p with
  | (none, b1) => b1
  | (some d, b1) =>
    if !b1.myJob d || !b1.trail.joinSent then b1
    else if field d 10 2 = stOk then
      let b2 := { b1 with trail := { b1.trail with
        joined := some (BitVec.ofNat 8 (field d 6 1), BitVec.ofNat 16 (field d 8 2)), joinSent := false, joinWait := false
        nextFrag := 1, toSend := [], unacked := [], ackEpoch := b1.ep.now.toNat } }
      ((b2.readObjects b2.mapReads).queueMap).pumpFrags
    else { b1 with trail := { b1.trail with joinSent := false, joinWait := true, joinEpoch := b1.ep.now.toNat + 100 } }

/-- JOIN_RETRY. -/
def Block.joinRetry (b : Block) : Block :=
  if b.ready && b.trail.joinWait && decide (b.trail.joinEpoch ≤ b.ep.now.toNat) then b.sendJoin else b

/-- FRAG_ACK received: acknowledged fragments are released; a refusal sends again, a stale slot joins again (R546). -/
def Block.fragAckIn (p : Parcel) (b : Block) : Block :=
  match b.controlIn 0x0909 p with
  | (none, b1) => b1
  | (some d, b1) =>
    if !b1.myJob d || b1.trail.joined != some (BitVec.ofNat 8 (field d 6 1), BitVec.ofNat 16 (field d 8 2)) then b1
    else
      let code := field d 10 2
      if code = stGuestStale then b1.sendJoin
      else
        let b2 := { b1 with trail := { b1.trail with
          unacked := b1.trail.unacked.filter fun f => decide (field d 12 4 < field f.payload 4 4), ackEpoch := b1.ep.now.toNat } }
        (if code = stOrder || code = stQuota then b2.resendFrags else b2).pumpFrags

/-- FRAG_ACK_TIMEOUT: 30 epochs without one. -/
def Block.fragAckLate (b : Block) : Block :=
  if b.ready && b.trail.joined.isSome && !b.trail.unacked.isEmpty && decide (b.trail.ackEpoch + 30 ≤ b.ep.now.toNat) then
    Block.resendFrags { b with trail := { b.trail with ackEpoch := b.ep.now.toNat } }
  else b

/-- GUEST_FRAG_RECEIVE: the collector stages a member's fragment; a refusal waits for the next FRAG_ACK (R545, R546). With GUESTS left out no
fragment is staged (R82). -/
def Block.fragIn (p : Parcel) (b : Block) : Block :=
  match b.controlIn 0x0801 p with
  | (none, b1) => b1
  | (some d, b1) =>
    if !b1.guestsOn then b1
    else match b1.fragRefusal p true with
    | none => b1.stageFrag p
    | some st =>
      let b2 := b1.onGuest (field d 0 1) fun g => { g with refusal := BitVec.ofNat 16 st }
      if st = stGuestStale then b2.reportStale p else b2

/-- LEAVE received: the collector closes the member's slot with cause HOST (R547). -/
def Block.leaveIn (p : Parcel) (b : Block) : Block :=
  match b.controlIn 0x0908 p with
  | (none, b1) => b1
  | (some d, b1) =>
    let s := field d 6 1
    let g := b1.guest s
    if s < 64 && g.st.accepts && g.gen.toNat == field d 8 2 && g.gid.toNat == memberGid (field d 4 2) then b1.evict s 1 else b1

/-! ### Failures (R553, R554) -/

/-- CHIP_LOST: a neighbour whose local bundles are all DOWN and which no roll call reports for 10 ms. -/
def Block.chipLost (serial : BitVec 64) (b : Block) : Block :=
  match b.trail.nbs.find? fun p => p.serial == serial with
  | none => b
  | some p =>
    if b.ready && !(b.upLocal.any fun k => (b.bundle k).nbSerial == serial) && decide (p.heardAt + ms 10 ≤ b.now) then
      let b1 := { b with trail := { b.trail with
        peers := b.trail.peers.filter fun q => q.serial != serial, nbs := b.trail.nbs.filter fun q => q.serial != serial } }
      b1.event 0x0044 noUnit (leBytes 2 (chipField p.chip.isSome (p.chip.getD 0)) ++ List.replicate 6 0 ++ leBytes 8 serial.toNat)
    else b

/-- SEAL_REPORT received: this chip reports the fault and blames its sealer as though its own consumer had found it (R554). -/
def Block.sealReportIn (p : Parcel) (b : Block) : Block :=
  match b.controlIn 0x090A p with
  | (none, b1) => b1
  | (some d, b1) =>
    if field d 4 2 != b1.chip.toNat then b1
    else
      let b2 := { b1 with flt := { b1.flt with sealFaults := bump b1.flt.sealFaults } }
      let sealer := d.getD 2 0
      let b3 := b2.event 0x0010 (if unitExists sealer then sealer else noUnit) (fit 24 d)
      if sealer = d.getD 3 0 && unitExists sealer && 1 < sealer.toNat then b3.blame sealer 0x0C else b3

/-! ### Exec -/

/-- LANE_TRAIN_ATTEMPT. -/
def execLaneTrainAttempt (lane : Fin 18) (s : State) : Host.Outcome State Fault Refusal := s.act (Block.trainAttempt lane)
/-- LANE_TRAIN_TIMEOUT. -/
def execLaneTrainTimeout (lane : Fin 18) (s : State) : Host.Outcome State Fault Refusal := s.act (Block.trainTimeout lane)
/-- LANE_RETRY. -/
def execLaneRetry (lane : Fin 18) (s : State) : Host.Outcome State Fault Refusal := s.act (Block.laneRetry lane)
/-- SYNC_HEADER_ERRORS. -/
def execSyncHeaderErrors (lane : Fin 18) (count : Nat) (s : State) : Host.Outcome State Fault Refusal := s.act (Block.headerErrors lane count)
/-- LANE_LOCK_LOSS. -/
def execLaneLockLoss (lane : Fin 18) (s : State) : Host.Outcome State Fault Refusal := s.act (Block.lockLoss lane)
/-- RETRAIN_REQ. -/
def execRetrainReq (lane : Fin 18) (s : State) : Host.Outcome State Fault Refusal := s.act (Block.retrainReq lane)
/-- WIDTH_REQ. -/
def execWidthReq (bundle : Fin 16) (width : BitVec 5) (s : State) : Host.Outcome State Fault Refusal := s.act (Block.widthReqIn bundle width)
/-- WIDTH_ACK. -/
def execWidthAck (bundle : Fin 16) (width : BitVec 5) (s : State) : Host.Outcome State Fault Refusal := s.act (Block.widthAckIn bundle width)
/-- FLIT_RECEIVE. -/
def execFlitReceive (bundle : Fin 16) (flit : BitVec 2048) (s : State) : Host.Outcome State Fault Refusal := s.act (Block.flitReceive bundle flit)
/-- NAK_RECEIVE. -/
def execNakReceive (bundle : Fin 16) (seq : BitVec 12) (s : State) : Host.Outcome State Fault Refusal := s.act (Block.nakReceive bundle seq)
/-- ACK_TIMER. -/
def execAckTimer (bundle : Fin 16) (s : State) : Host.Outcome State Fault Refusal := s.act (Block.ackTimer bundle)
/-- FLIT_ACK_TIMEOUT. -/
def execFlitAckTimeout (bundle : Fin 16) (s : State) : Host.Outcome State Fault Refusal := s.act (Block.flitTimeout bundle)
/-- ROLL_CALL_SEND. -/
def execRollCallSend (s : State) : Host.Outcome State Fault Refusal := s.act Block.rollSend
/-- ROLL_CALL_RECEIVE. -/
def execRollCallReceive (bundle : Fin 16) (p : Parcel) (s : State) : Host.Outcome State Fault Refusal := s.act (Block.rollReceive bundle p)
/-- ROLL_CALL_SETTLE. -/
def execRollCallSettle (s : State) : Host.Outcome State Fault Refusal := s.act Block.rollSettle
/-- ASSIGN. -/
def execAssign (p : Parcel) (s : State) : Host.Outcome State Fault Refusal := s.act (Block.assignIn p)
/-- READ_REQ. -/
def execReadReq (src : BitVec 12) (p : Parcel) (s : State) : Host.Outcome State Fault Refusal := s.act (Block.readReqIn src p)
/-- READ_RESP. -/
def execReadResp (tag : BitVec 32) (p : Parcel) (s : State) : Host.Outcome State Fault Refusal := s.act (Block.readRespIn tag p)
/-- READ_REQ_TIMEOUT. -/
def execReadReqTimeout (tag : BitVec 32) (s : State) : Host.Outcome State Fault Refusal := s.act (Block.readTimeout tag)
/-- JOIN. -/
def execJoin (p : Parcel) (s : State) : Host.Outcome State Fault Refusal := s.act (Block.joinIn p)
/-- JOIN_REPLY. -/
def execJoinReply (p : Parcel) (s : State) : Host.Outcome State Fault Refusal := s.act (Block.joinReplyIn p)
/-- JOIN_RETRY. -/
def execJoinRetry (s : State) : Host.Outcome State Fault Refusal := s.act Block.joinRetry
/-- FRAG_ACK_RECEIVE. -/
def execFragAckReceive (p : Parcel) (s : State) : Host.Outcome State Fault Refusal := s.act (Block.fragAckIn p)
/-- FRAG_ACK_TIMEOUT. -/
def execFragAckTimeout (s : State) : Host.Outcome State Fault Refusal := s.act Block.fragAckLate
/-- LEAVE. -/
def execLeave (p : Parcel) (s : State) : Host.Outcome State Fault Refusal := s.act (Block.leaveIn p)
/-- CHIP_LOST. -/
def execChipLost (serial : BitVec 64) (s : State) : Host.Outcome State Fault Refusal := s.act (Block.chipLost serial)
/-- SEAL_REPORT. -/
def execSealReport (p : Parcel) (s : State) : Host.Outcome State Fault Refusal := s.act (Block.sealReportIn p)
/-- LANE_UP. -/
def execLaneUp (lane : Fin 18) (rate : BitVec 3) (far : FarEnd) (s : State) : Host.Outcome State Fault Refusal := s.act (Block.laneUp lane rate far)
/-- GUEST_FRAG_RECEIVE. -/
def execGuestFragReceive (p : Parcel) (s : State) : Host.Outcome State Fault Refusal := s.act (Block.fragIn p)

end Sys2Proof.Machine
end

