-- ==== Sys2Proof/Machine/Fault.lean ====
section
/-! DEFINITION. The commands of chapter 16 and of the island fabric (chapter 01). -/

namespace Sys2Proof.Machine

/-! ### Bridges (R16 to R22) -/

/-- The number of the bridge from one island into another. -/
def bridgeNo (sender receiver : Island) : Nat := 11 * islandNo sender + islandNo receiver

/-- Changes one bridge. -/
def Block.onBridge (n : Nat) (f : Bridge → Bridge) (b : Block) : Block := { b with flt := { b.flt with bridges := b.flt.bridges.modify n f } }

/-- The beats of a parcel (R17 to R19): header, payload and zero fill in 32-byte beats; the seal word on the last. -/
def beatSeqOf (p : Parcel) : List Beat :=
  let bs := beatsOf p
  bs.mapIdx fun k d =>
    { data := BitVec.ofNat 256 (field d 0 32)
      sealWord := if k + 1 = bs.length then p.sealWord else 0
      kind := BitVec.ofNat 2 (beatKind k bs.length) }

/-- The parcel that a sequence of beats spells (R18, R19). Where the beats are not as many as LENGTH asks for, the payload is all that
came, which the consumer finds to be BAD_LENGTH (Table 05-5). -/
def parcelOfBeatSeq (seq : List Beat) : Parcel :=
  let bytes := seq.flatMap fun x => leBytes 32 x.data.toNat
  let l := field bytes 2 2
  let body := bytes.drop 16
  { type := BitVec.ofNat 16 (field bytes 0 2), len := BitVec.ofNat 16 l, stream := bytes.getD 4 0,
    chip := BitVec.ofNat 16 (field bytes 6 2), seq := BitVec.ofNat 32 (field bytes 8 4), producer := bytes.getD 12 0,
    payload := if seq.length = (16 + l + 31) / 32 then body.take l else body
    sealWord := match seq.getLast? with | some x => x.sealWord | none => 0
    spare := BitVec.ofNat 32 (field bytes 5 1 + 256 * field bytes 13 3) }

/-- A bridge once the receiver has taken the beat that it holds: FIRST and ONLY begin a sequence of at most 129 beats, LAST and ONLY end it
and deliver its parcel with its seal unchanged (R17 to R20); a beat outside a sequence is lost. -/
def Bridge.take (x : Bridge) : Bridge :=
  match x.beat with
  | none => x
  | some d =>
    let seq := if d.kind.getLsbD 0 then [d] else if x.seq.isEmpty || 129 ≤ x.seq.length then [] else x.seq ++ [d]
    if d.kind.getLsbD 1 && !seq.isEmpty then { x with seq := [], taken := some (parcelOfBeatSeq seq) }
    else { x with seq := seq }

/-- Whether an island may send and receive: not before MAIN_POR is left, and in FAULT_HALT only Thermos, Den and Host (R579). -/
def Block.islandUp (i : Nat) (b : Block) : Bool :=
  match b.boot.phase with
  | .thermosPor | .mainPor => false
  | .faultHalt => i == 0 || i == 8 || i == 9
  | _ => true

/-- One signal of the four-phase handshake (R16); a request restarts a gated clock (R21); a receiver in restart takes nothing (R566). -/
def Block.bridgeBeat (sender receiver : Island) (h : Handshake) (b : Block) : Block :=
  let i := islandNo receiver
  let n := bridgeNo sender receiver
  let x := b.flt.bridges.getD n {}
  if !(b.islandUp (islandNo sender) && b.islandUp i) then b
  else match h, x.phase with
  | .request beat, .idle =>
    let b1 := { b with flt := { b.flt with clockOn := b.flt.clockOn.set i (!b.tripStops i) } }
    b1.onBridge n fun x => { x with phase := .requested, beat := some beat, since := b.now }
  | .acknowledge, .requested =>
    if b.flt.restarting.getD i false || b.tripStops i then b
    else b.onBridge n fun x => { x.take with phase := .acknowledged }
  | .dropRequest, .acknowledged => b.onBridge n fun x => { x with phase := .released, beat := none }
  | .dropAcknowledge, .released => b.onBridge n fun x => { x with phase := .idle }
  | _, _ => b

/-- The island a fenceable unit lies in. -/
def fenceableIsland : Fenceable → Nat
  | .lane _ => 4
  | .thread _ => 6
  | .tile _ => 7
  | .pair _ => 1

/-- BRIDGE_WATCHDOG: a request unacknowledged for 100 µs (R22, R556). DESIGN CHOICE (log entry 76): where the fault fences a unit or changes
the pair and no island restarts, the stalled request and its beat are dropped and the bridge is idle; the spec is silent. -/
def Block.bridgeWatchdog (sender receiver : Island) (unit : Option (BitVec 8)) (b : Block) : Block :=
  let i := islandNo receiver
  let n := bridgeNo sender receiver
  let x := b.flt.bridges.getD n {}
  if x.phase == .requested && decide (x.since + us 100 ≤ b.now) && !(b.flt.restarting.getD i false) && !b.tripStops i then
    let u := unit.filter fun u => match fenceable u with | some k => fenceableIsland k == i && i != 1 | none => false
    let b1 := b.bridgeFault i u 9
    if b1.flt.restarting.getD i false || (i = 7 && b1.badger.asmHeld) then b1.onBridge n fun x => { x with since := b.now }
    else b1.onBridge n fun x => { x with phase := .idle, beat := none }
  else b

/-! ### Detections (Table 16-1) -/

/-- The unit and the cause of a detection that a command of Table 16-1 stands for: LOCAL_UE in a tile's, lane's or pair's own memory;
ECC_STORM, more than 64 corrected errors within 1 s in a tile's or lane's; UNIT_WATCHDOG, a lane, tile or thread that holds work and has
issued and sealed nothing for 50 µs; LOCKSTEP, the two cores of a pair differ (of the pair that runs boot ROM, R38 says what follows). -/
def Block.detection (b : Block) (c : Instr) : Option (BitVec 8 × Nat) :=
  match c with
  | .localUe u => (match fenceable u with | some (.thread _) => none | some _ => some (u, 3) | none => none)
  | .eccStorm u n =>
    (match fenceable u with
    | some (.lane _) => if 64 < n then some (u, 5) else none
    | some (.tile _) => if 64 < n then some (u, 5) else none
    | _ => none)
  | .unitWatchdog u =>
    (match fenceable u with
    | some (.pair _) => none
    | some k => if b.tripStops (fenceableIsland k) then none else some (u, 8)
    | none => none)
  | .lockstepMismatch p =>
    let rom : Bool := b.boot.phase == .romProbe || b.boot.phase == .slotVerify || b.boot.phase == .settingsLoad
    if rom && p == b.boot.romPair then none else some (pairUnit p, 6)
  | _ => none

/-- A detection, with those that the queue holds for the same tick (log entry 1): the units that they blame are fenced in ascending unit ID
(R561); the later commands then find their units fenced. -/
def Block.detect (c : Instr) (waiting : List Instr) (b : Block) : Block :=
  let found := (c :: waiting).filterMap b.detection
  match b.detection c with
  | none => b
  | some _ => (sortBy (fun x y => x.1.toNat ≤ y.1.toNat) found).foldl (fun b x => b.blame x.1 x.2) b

/-- ISLAND_RESTART_DONE: the island, or the Badger assembler, runs again (R566); the watchdogs of its bridges run from now. -/
def Block.restartDone (island : Island) (b : Block) : Block :=
  let i := islandNo island
  if b.flt.failed.getD i false || !b.detects then b
  else
    let b1 := { b with
      flt := { b.flt with restarting := b.flt.restarting.set i false }
      badger := { b.badger with asmHeld := b.badger.asmHeld && i != 7 } }
    b1.rearm i

/-! ### Exec -/

/-- BRIDGE_BEAT. -/
def execBridgeBeat (sender receiver : Island) (h : Handshake) (s : State) : Host.Outcome State Fault Refusal :=
  s.act (Block.bridgeBeat sender receiver h)
/-- BRIDGE_WATCHDOG. -/
def execBridgeWatchdog (sender receiver : Island) (unit : Option (BitVec 8)) (s : State) : Host.Outcome State Fault Refusal :=
  s.act (Block.bridgeWatchdog sender receiver unit)
/-- LOCKSTEP_MISMATCH. -/
def execLockstepMismatch (pair : Pair) (s : State) : Host.Outcome State Fault Refusal := s.act (Block.detect (.lockstepMismatch pair) s.pending)
/-- LOCAL_UE. -/
def execLocalUe (unit : BitVec 8) (s : State) : Host.Outcome State Fault Refusal := s.act (Block.detect (.localUe unit) s.pending)
/-- ECC_STORM. -/
def execEccStorm (unit : BitVec 8) (count : Nat) (s : State) : Host.Outcome State Fault Refusal :=
  s.act (Block.detect (.eccStorm unit count) s.pending)
/-- UNIT_WATCHDOG. -/
def execUnitWatchdog (unit : BitVec 8) (s : State) : Host.Outcome State Fault Refusal := s.act (Block.detect (.unitWatchdog unit) s.pending)
/-- ISLAND_RESTART_DONE. -/
def execIslandRestartDone (island : Island) (s : State) : Host.Outcome State Fault Refusal := s.act (Block.restartDone island)

end Sys2Proof.Machine
end

