-- ==== Sys2Proof/Machine/Ifc.lean ====
section
/-! DEFINITION. The commands of the inertial filter chain (chapter 07) and of the SYNC input (chapter 04). -/

namespace Sys2Proof.Machine

/-- The samples of an INERTIAL payload: stamp, range code, OVR mask and values (R224). -/
def inertialSamples (p : Bytes) : List (Tick × BitVec 8 × BitVec 8 × List (BitVec 32)) :=
  (List.range (field p 3 1)).map fun i =>
    let o := 16 + field p 4 2 * i
    (field p o 8, p.getD (o + 8) 0, p.getD (o + 9) 0,
      (List.range (field p 2 1)).map fun c => BitVec.ofNat 32 (field p (o + 12 + 4 * c) 4))

/-- The entries of an INERTIAL payload's map that name a channel, in ascending channel, each as (channel, entry) (R265). -/
def inertialMap (p : Bytes) : List (Nat × Nat) :=
  sortBy (fun x y => decide (x.1 ≤ y.1))
    (((List.range (min 8 (field p 2 1))).map fun i => (field p (8 + i) 1, i)).filter fun x => decide (x.1 < 24))

/-- Enters the samples of a verified INERTIAL parcel in their channels, in stamp order, each sample's in ascending channel (R232, R236,
R265). -/
def Block.ifcTake (slot : Nat) (p : Parcel) (b : Block) : Block :=
  (inertialSamples p.payload).foldl (fun b s =>
    (inertialMap p.payload).foldl (fun b (c, i) =>
      b.ifcSample c slot s.1 s.2.1 (s.2.2.1.getLsbD i) (s.2.2.2.getD i 0) p.ref) b) b

/-- IFC_INPUT: the oldest INERTIAL parcel of a slot that has not been entered. It is held until every output built from it is sealed (R175). -/
def Block.ifcInput (slot : Fin 6) (seen : Seen) (b : Block) : Block :=
  match b.host.pool.find? fun p =>
    p.type == 0x0110 && p.stream == BitVec.ofNat 8 (0x90 + slot.val) && !b.ifc.taken.any (InRef.same p.ref) with
  | none => b
  | some p =>
    if b.flt.restarting.getD 3 false || !b.ready then b
    else
      let unit := ifcUnit (min 23 (field p.payload 8 1))
      let r := b.verify p seen unit
      match r.1 with
      | some q => ((Block.ifcTake slot q { r.2 with ifc := { r.2.ifc with taken := p.ref :: r.2.ifc.taken } })).ifcRelease
      | none => r.2.release p.ref

/-- TRIG_PULSE_END: an event pulse has lasted 250 ticks (R260). -/
def Block.trigPulseEnd (pin : Fin 8) (b : Block) : Block :=
  match b.ifc.pulses.getD pin none with
  | some t =>
    if t ≤ b.now then { (b.trigDrive pin false) with ifc := { b.ifc with pulses := b.ifc.pulses.set pin none } } else b
  | none => b

/-- IFC_OUT_CLOSE: 62,500 ticks after the parcel's first record (R264). -/
def Block.ifcOutTimer (group : Fin 4) (b : Block) : Block :=
  let x := b.ifc.groups.getD group {}
  if !x.recs.isEmpty && decide (x.firstAt + 62500 ≤ b.now) then b.closeOut group else b

/-! ### SYNC (R143, R144, R249, R602) -/

/-- A SYNC wakes a paused engine whose governor page sets WAKE_ON_SYNC (R602). -/
def Block.syncWake (b : Block) : Block := if b.setting 10 0 48 1 = 1 then b.wakeUp .sync else b

/-- A SYNC from a source (bit 0 the pin, bit 1 the command) with its stamp: one within 250 ticks of a SYNC from the other source is the same
SYNC, at the earlier stamp (R144). The answer is its stamp. -/
def Block.syncFrom (bit : Nat) (stamp : Tick) (b : Block) : Block × Tick :=
  let fresh (b : Block) : Block :=
    (Block.syncAnchor bit false stamp { b with tim := { b.tim with syncPend := some (stamp, BitVec.ofNat 8 bit) } }).syncWake
  match b.tim.syncPend with
  | some (t, src) =>
    if stamp < t + 250 && t < stamp + 250 && src.toNat + bit == 1 then
      let t1 := min t stamp
      ((Block.syncAnchor bit true t1 { b with tim := { b.tim with syncPend := some (t1, 2) } }).syncWake, t1)
    else (fresh b.syncEmit, stamp)
  | none => (fresh b, stamp)

/-- The synchroniser's latency, in ticks (R143). -/
def syncLatency : Tick := 3

/-- The stamp of a SYNC edge: the tick at which it leaves the synchroniser, less the synchroniser's latency (R143). DEDUCED (log entry 85): the
command is the edge at the pad, which leaves the synchroniser that latency later. -/
def Block.syncStamp (b : Block) : Tick := (b.now + syncLatency) - syncLatency

/-- SYNC_EDGE: a rising edge of a pulse of a width at the pad; too short a pulse is ignored, and an edge too close to the last accepted one is
ignored and counted (R143, R144, R671). -/
def Block.syncEdge (width : Nat) (b : Block) : Block :=
  if !b.ready || width < 8 then b
  else
    let stamp := b.syncStamp
    let close : Bool := match b.tim.lastSync with | some t => decide (stamp < t + 250) | none => false
    if close then { b with tim := { b.tim with syncCount := bump b.tim.syncCount } }
    else (Block.syncFrom 0 stamp { b with tim := { b.tim with lastSync := some stamp } }).1

/-- The SYNC command: RESULT0 is the SYNC's stamp (Table 14-6). -/
def Block.syncCmd (r : CmdRef) (b : Block) : Block :=
  b.begin r 0x05 (fun _ => true) fun _ b =>
    let x := b.syncFrom 1 b.now
    x.1.finish r stOk 0 x.2 0

/-- COEF_LOAD_REFUSED: a load addressed to a running channel (R235). -/
def Block.coefRefused (ch : Fin 24) (set : BitVec 8) (b : Block) : Block :=
  if (b.chan ch).running then
    Block.diag 0x0104 (ifcUnit ch) [BitVec.ofNat 8 ch.val, set]
      (Block.chanCount ch 0 { b with ifc := { b.ifc with coefBusy := setBit b.ifc.coefBusy ch } })
  else b

/-! ### Exec -/

/-- IFC_INPUT. -/
def execIfcInput (slot : Fin 6) (seen : Seen) (s : State) : Host.Outcome State Fault Refusal := s.act (Block.ifcInput slot seen)
/-- TRIG_PULSE_END. -/
def execTrigPulseEnd (pin : Fin 8) (s : State) : Host.Outcome State Fault Refusal := s.act (Block.trigPulseEnd pin)
/-- IFC_OUT_CLOSE. -/
def execIfcOutClose (group : Fin 4) (s : State) : Host.Outcome State Fault Refusal := s.act (Block.ifcOutTimer group)
/-- SYNC_EDGE. -/
def execSyncEdge (width : Nat) (s : State) : Host.Outcome State Fault Refusal := s.act (Block.syncEdge width)
/-- SYNC. -/
def execSync (r : CmdRef) (s : State) : Host.Outcome State Fault Refusal := s.act (Block.syncCmd r)
/-- COEF_LOAD_REFUSED. -/
def execCoefLoadRefused (ch : Fin 24) (set : BitVec 8) (s : State) : Host.Outcome State Fault Refusal := s.act (Block.coefRefused ch set)

end Sys2Proof.Machine
end

