-- ==== Sys2Proof/Machine/Fox.lean ====
section
/-! DEFINITION. The commands of the Fox lanes (chapter 08): the band pipeline of R277 to R291. -/

namespace Sys2Proof.Machine

/-! ### Level 0 and the pyramid (R277, R278). A missing row, and one outside the band's read region, has no pixels. -/

/-- A pixel of a level. -/
def Image.px (m : Image) (x y : Nat) : Option (BitVec 16) := (m.getD y []).getD x none

/-- The rounded mean of four pixels (R12). -/
def mean4 (a b c d : Option (BitVec 16)) : Option (BitVec 16) :=
  match a, b, c, d with
  | some a, some b, some c, some d => some (BitVec.ofNat 16 (rneNat (a.toNat + b.toNat + c.toNat + d.toNat) 4))
  | _, _, _, _ => none

/-- Whether a LINE parcel is one of the frame's: sealed between its Frame Start and its end (R204). -/
def FoxFrame.holds (f : FoxFrame) (p : Parcel) : Bool :=
  p.type == 0x0101 && p.stream == BitVec.ofNat 8 (0x80 + f.port) && decide ((p.seq - f.first).toNat < 2 ^ 31)
    && (match f.last with | some e => decide ((p.seq - f.first).toNat < (e - f.first).toNat) | none => true)

/-- The LINE parcels of a line of a frame, in order (R204). -/
def Block.lineParcels (f : FoxFrame) (line : Nat) (b : Block) : List Parcel :=
  b.host.pool.filter fun p => f.holds p && field p.payload 4 2 == line

/-- Whether a line has arrived, good or missing. -/
def Block.lineHere (f : FoxFrame) (line : Nat) (b : Block) : Bool := f.lost.contains line || !(b.lineParcels f line).isEmpty

/-- The pixels of a line shifted up to 16 bits; none when the line is missing (R277, R278). -/
def Block.rawRow (f : FoxFrame) (line : Nat) (b : Block) : List (Option (BitVec 16)) :=
  let ps := b.lineParcels f line
  if f.lost.contains line || ps.any (fun p => (p.payload.getD 1 0).getLsbD 1) then []
  else ps.flatMap fun p => (List.range ((p.payload.length - 8) / 2)).map fun i =>
    some (BitVec.ofNat 16 (field p.payload (8 + 2 * i) 2 * 2 ^ (16 - bitsPerPixel (b.port f.port 33 1))))

/-- A row of the 2×2 bin of two rows. -/
def binRow (w : Nat) (r0 r1 : List (Option (BitVec 16))) : List (Option (BitVec 16)) :=
  if r0.isEmpty || r1.isEmpty then []
  else (List.range ((w + 1) / 2)).map fun x =>
    let x1 := min (2 * x + 1) (w - 1)
    mean4 (r0.getD (2 * x) none) (r0.getD x1 none) (r1.getD (2 * x) none) (r1.getD x1 none)

/-- The next level of a level of a width and a height, indices clamped to its last row and column (R277). -/
def nextLevel (w h : Nat) (m : Image) : Image :=
  (List.range ((h + 1) / 2)).map fun y => binRow w (m.getD (2 * y) []) (m.getD (min (2 * y + 1) (h - 1)) [])

/-- The four levels from level 0. -/
def pyramid (w h : Nat) (m0 : Image) : List Image :=
  let m1 := nextLevel w h m0
  let m2 := nextLevel ((w + 1) / 2) ((h + 1) / 2) m1
  [m0, m1, m2, nextLevel ((w + 3) / 4) ((h + 3) / 4) m2]

/-- What a band works with: its camera, its bin shift, the frame's level-0 size, its own level-0 rows and those of its read region. -/
structure BandGeo where
  cam : Nat
  sh  : Nat
  w   : Nat
  h   : Nat
  lo  : Nat
  hi  : Nat
  rlo : Nat
  rhi : Nat
deriving DecidableEq, Repr

/-- The geometry of a band; with BAYER 1 a level-0 row comes from two lines (R277). -/
def Block.bandGeo (cam : Nat) (f : FoxFrame) (x : Band) (b : Block) : BandGeo :=
  let sh := if foxBayer b.cfg.active cam then 1 else 0
  { cam := cam, sh := sh, w := b.port f.port 24 2 / 2 ^ sh, h := b.port f.port 26 2 / 2 ^ sh,
    lo := x.ownLo / 2 ^ sh, hi := x.ownHi / 2 ^ sh
    rlo := (x.readLo b.marginLines + 2 ^ sh - 1) / 2 ^ sh, rhi := x.readHi b.marginLines (b.port f.port 26 2) / 2 ^ sh }

/-- The levels over a band's read region. -/
def Block.bandLevels (f : FoxFrame) (x : Band) (g : BandGeo) (b : Block) : List Image :=
  let lo := x.readLo b.marginLines
  let hi := x.readHi b.marginLines (b.port f.port 26 2)
  let raw (line : Nat) : List (Option (BitVec 16)) := if lo ≤ line && line < hi then b.rawRow f line else []
  let m0 : Image := (List.range g.h).map fun y =>
    if g.sh = 0 then raw y else binRow (b.port f.port 24 2) (raw (2 * y)) (raw (2 * y + 1))
  pyramid g.w g.h m0

/-! ### Response (R277) -/

/-- The pixels of a square about a point, row by row; none when one is missing or outside the image. -/
def Image.square (m : Image) (r x y : Nat) : Option (List Nat) :=
  if x < r || y < r then none
  else
    let ps := (List.range (2 * r + 1)).flatMap fun j => (List.range (2 * r + 1)).map fun i => m.px (x + i - r) (y + j - r)
    if ps.all Option.isSome then some (ps.map fun p => (p.getD 0).toNat) else none

/-- The Sobel gradients at column i and row j of a square of side 7. -/
def sobel (q : List Nat) (i j : Nat) : Int × Int :=
  let v (di dj : Nat) : Int := q.getD (7 * (j + dj - 1) + (i + di - 1)) 0
  ((v 2 0 + 2 * v 2 1 + v 2 2) - (v 0 0 + 2 * v 0 1 + v 0 2), (v 0 2 + 2 * v 1 2 + v 2 2) - (v 0 0 + 2 * v 1 0 + v 2 0))

/-- The structure tensor over 5×5 from a square of side 7: the sums of gx², gx·gy and gy². -/
def tensor (q : List Nat) : Int × Int × Int :=
  ((List.range 5).flatMap fun j => (List.range 5).map fun i => sobel q (i + 1) (j + 1)).foldl
    (fun a g => (a.1 + g.1 * g.1, a.2.1 + g.1 * g.2, a.2.2 + g.2 * g.2)) (0, 0, 0)

/-- Harris or Shi-Tomasi from a tensor, rounded to S32 (R277). -/
def cornerOf (shi : Bool) (k : Nat) (t : Int × Int × Int) : Int :=
  let det := t.1 * t.2.2 - t.2.1 * t.2.1
  let tr := t.1 + t.2.2
  saturate 32 (if shi then rneDiv (tr - isqrt (tr * tr - 4 * det).toNat) 2 else rneDiv (det * 65536 - k * (tr * tr)) 65536)

/-- The response at a level-0 pixel. -/
def response (shi : Bool) (k : Nat) (m : Image) (x y : Nat) : Option Int := (m.square 3 x y).map fun q => cornerOf shi k (tensor q)

/-! ### Description (R287, R288) -/

/-- 2^96 times the tangents of (2j + 1)π/32, rounded down. -/
def octantTans : List Nat :=
  [7803292911439369609539829154, 24033600347005648703692677138, 42348335144793359434606074931, 65020872611783049687817191814,
   96539795349488243539522513098, 148225466572053364202070259937, 261180249515497422446836566619, 804417033504491033185276457602]

/-- round(atan2(m01, m10) × 32 / 2π) mod 32, and 0 when both are zero (R287). -/
def orientation (m10 m01 : Int) : Nat :=
  let s := (octantTans.filter fun t => m10.natAbs * t < m01.natAbs * 2 ^ 96).length
  if m10 = 0 && m01 = 0 then 0
  else if 0 ≤ m10 && 0 ≤ m01 then s
  else if m10 < 0 && 0 ≤ m01 then 16 - s
  else if m10 < 0 then 16 + s
  else (32 - s) % 32

/-- cos(2πk/32) with 14 fraction bits. -/
def cos14 (k : Nat) : Int :=
  let quarter : List Int := [16384, 16069, 15137, 13623, 11585, 9102, 6270, 3196, 0]
  let k := k % 32
  if k ≤ 8 then quarter.getD k 0 else if k ≤ 16 then -(quarter.getD (16 - k) 0)
  else if k ≤ 24 then -(quarter.getD (k - 16) 0) else quarter.getD (32 - k) 0

/-- A pattern point rotated by k/32 turn, to whole pixels (R287). -/
def rotate (k : Nat) (p : Int × Int) : Int × Int :=
  let c := cos14 k
  let s := cos14 (k + 24)
  (rneDiv (p.1 * c - p.2 * s) 16384, rneDiv (p.1 * s + p.2 * c) 16384)

/-- One step of the pattern's generator (R288). -/
def patternNext (s : Nat) : Nat := (s * 1103515245 + 12345) % 2 ^ 31

/-- The points of the built-in pattern: n more tries from a state; 692 tries give the 512 points (R288). -/
def patternGo : Nat → Nat → List (Int × Int)
  | 0, _ => []
  | n + 1, s =>
    let s1 := patternNext s
    let s2 := patternNext s1
    let dx : Int := (s1 / 65536 % 27 : Nat) - 13
    let dy : Int := (s2 / 65536 % 27 : Nat) - 13
    if dx * dx + dy * dy ≤ 169 then (dx, dy) :: patternGo n s2 else patternGo n s2

/-- The pattern: p0, q0, p1, q1, … (Table 08-1, R288). -/
def Block.pattern (b : Block) : List (Int × Int) :=
  if b.foxF 128 1 0 = 0 then patternGo 692 0x2F1B
  else (List.range 512).map fun i => (signedOf 8 (b.foxF (256 + 2 * i) 1 0), signedOf 8 (b.foxF (257 + 2 * i) 1 0))

/-- A value of the 31×31 support at an offset from its centre. -/
def supportAt (q : List Nat) (dx dy : Int) : Nat := q.getD (31 * (dy + 15).toNat + (dx + 15).toNat) 0

/-- S: the 5×5 box mean at an offset (R287). -/
def boxMean (q : List Nat) (p : Int × Int) : Nat :=
  rneNat (((List.range 5).flatMap fun j => (List.range 5).map fun i => supportAt q (p.1 + i - 2) (p.2 + j - 2)).sum) 25

/-- Orientation and descriptor at a pixel, none when the 31×31 support is not all there (R278, R287). -/
def describe (pat : List (Int × Int)) (m : Image) (x y : Nat) : Option (Nat × BitVec 256) :=
  (m.square 15 x y).map fun q =>
    let disc := ((List.range 31).flatMap fun j => (List.range 31).map fun i => ((i : Int) - 15, (j : Int) - 15)).filter
      fun d => d.1 * d.1 + d.2 * d.2 ≤ 225
    let m10 : Int := (disc.map fun d => d.1 * (supportAt q d.1 d.2 : Int)).sum
    let m01 : Int := (disc.map fun d => d.2 * (supportAt q d.1 d.2 : Int)).sum
    let k := orientation m10 m01
    let bits := (List.range 256).map fun i =>
      if boxMean q (rotate k (pat.getD (2 * i) (0, 0))) < boxMean q (rotate k (pat.getD (2 * i + 1) (0, 0))) then 2 ^ i else 0
    (k, BitVec.ofNat 256 bits.sum)

/-! ### Tracking (R283 to R286) -/

/-- Whether a position lies in the image. -/
def BandGeo.inside (g : BandGeo) (p : Int × Int) : Bool :=
  decide (0 ≤ p.1) && decide (p.1 ≤ 64 * (g.w - 1 : Nat)) && decide (0 ≤ p.2) && decide (p.2 ≤ 64 * (g.h - 1 : Nat))

/-- Whether a predicted position lies in the band's own rows; one above or below the image goes to the first or last band. -/
def BandGeo.owns (g : BandGeo) (p : Int × Int) : Bool :=
  let row := min (p.2 / 64).toNat (g.h - 1)
  decide (g.lo ≤ row) && decide (row < g.hi)

/-- The nearest pixel of a position in 1/64 pixel (R12). -/
def pixelOf (v : BitVec 32) : Nat := (rneDiv v.toInt 64).toNat

/-- The record of a slot without a track. -/
def Feature.lostAt (f : Feature) (p : Int × Int) (status : Nat) : Track :=
  { id := f.id, x := BitVec.ofInt 32 p.1, y := BitVec.ofInt 32 p.2, resp := f.resp, age := f.age, status := BitVec.ofNat 8 status,
    flags := 0, resid := 0, iters := 0, orient := f.orient, desc := f.desc }

/-- A 9×9 window about a position with 16 fraction bits: it leaves the image or the rows allowed, it touches a missing pixel, or its values with 12
fraction bits (R278, R285, R286). -/
inductive LkWin where
  | edge | missing | vals (vs : List Int)
deriving DecidableEq, Repr

/-- The window of a level of width w at a position, inside rows lo to hi: bilinear, the weights in 64ths of a pixel, to the nearest (R12). -/
def lkWindow (m : Image) (w lo hi : Nat) (p : Int × Int) : LkWin :=
  let (x, y) := (rneDiv p.1 1024, rneDiv p.2 1024)
  let (ix, iy) := (x / 64, y / 64)
  let (a, c) := ((x % 64).toNat, (y % 64).toNat)
  let (rx, ry) := (if a = 0 then 0 else 1, if c = 0 then 0 else 1)
  if ix < 4 || iy < lo + 4 || (w : Int) ≤ ix + 4 + rx || (hi : Int) ≤ iy + 4 + ry then .edge
  else
    let px (i j : Int) : Option Nat := (m.px i.toNat j.toNat).map BitVec.toNat
    let at_ (i j : Int) : Option Int :=
      match px i j, px (i + rx) j, px i (j + ry), px (i + rx) (j + ry) with
      | some p00, some p10, some p01, some p11 =>
        some ((64 - a) * (64 - c) * p00 + a * (64 - c) * p10 + (64 - a) * c * p01 + a * c * p11 : Nat)
      | _, _, _, _ => none
    let vs := (List.range 9).flatMap fun j => (List.range 9).map fun i => at_ (ix - 4 + (i : Int)) (iy - 4 + (j : Int))
    if vs.all Option.isSome then .vals (vs.map fun v => v.getD 0) else .missing

/-- What Lucas-Kanade tracking of one feature gives (R285, R286). -/
structure LkOut where
  pos    : Int × Int           -- 16 fraction bits of the level that it reached
  level  : Nat := 0            -- the last level it worked on
  iters  : Nat := 0            -- iterations there
  slow   : Bool := false       -- the last update there was 1/16 pixel or more
  fails  : Option LkWin := none
  resid  : Nat := 0
deriving DecidableEq, Repr

/-- The squared length of an update. -/
def sqLen (d : Int × Int) : Int := d.1 * d.1 + d.2 * d.2

/-- The iterations of one level: n at most, until an update is shorter than 1/128 pixel. -/
def lkIterate (upd : List Int → Int × Int) (win : Int × Int → LkWin) : Nat → LkOut → LkOut
  | 0, o => o
  | n + 1, o =>
    match win o.pos with
    | .vals vs =>
      let d := upd vs
      let o1 := { o with pos := (o.pos.1 + d.1, o.pos.2 + d.2), iters := o.iters + 1, slow := decide (4096 * 4096 ≤ sqLen d) }
      if sqLen d < 512 * 512 then o1 else lkIterate upd win n o1
    | e => { o with fails := some e }

/-- The rows of a level that a band may read. -/
def BandGeo.rows (g : BandGeo) (level : Nat) : Nat × Nat := (g.rlo / 2 ^ level, (g.rhi + 2 ^ level - 1) / 2 ^ level)

/-- The width and the height of a level. -/
def BandGeo.size (g : BandGeo) (level : Nat) : Nat × Nat := ((g.w + 2 ^ level - 1) / 2 ^ level, (g.h + 2 ^ level - 1) / 2 ^ level)

/-- The levels from 3 down to 0: each starts where the one above ended, at twice the coordinates (R285, DEDUCED, log entry 92). `r` is the reference
position at level 0 with 16 fraction bits. -/
def lkLevels (g : BandGeo) (ref cur : List Image) (r : Int × Int) (most : Nat) : Nat → LkOut → LkOut
  | 0, o => o
  | n + 1, o =>
    let m := ref.getD n []
    let rp := (rneDiv r.1 (2 ^ n), rneDiv r.2 (2 ^ n))
    let start : LkOut := { o with level := n, iters := 0, slow := false }
    match lkWindow m (g.size n).1 0 (g.size n).2 rp with
    | .vals rv =>
      let win := lkWindow (cur.getD n []) (g.size n).1 (g.rows n).1 (g.rows n).2
      let o1 := lkIterate (Config.lkUpdate m rp) win most start
      if o1.fails.isSome then o1
      else match n with
      | 0 =>
        (match win o1.pos with
        | .vals cv => { o1 with resid := rneNat ((((rv.zip cv).map fun p => (p.1 - p.2).natAbs)).sum) (81 * 4096) }
        | e => { o1 with fails := some e })
      | _ + 1 => lkLevels g ref cur r most n { o1 with pos := (2 * o1.pos.1, 2 * o1.pos.2) }
    | e => { start with fails := some e }

/-- Forward pyramidal Lucas-Kanade from a reference position to a prediction, both in 1/64 pixel (R285). -/
def lkTrack (g : BandGeo) (ref cur : List Image) (r p : Int × Int) (most : Nat) : LkOut :=
  lkLevels g ref cur (1024 * r.1, 1024 * r.2) most 4 { pos := (rneDiv (1024 * p.1) 8, rneDiv (1024 * p.2) 8) }

/-- The status of a track, in the order of R286. -/
def LkOut.status (o : LkOut) (maxResid : Nat) : Nat :=
  match o.fails with
  | some .edge => 4
  | some _ => 5
  | none => if o.slow then 2 else if maxResid < o.resid then 3 else 0

/-- Tracks one slot (R283 to R286), and describes it anew when every epoch asks for it (R287); with the last level that it worked on, none when it
did no work. -/
def Block.trackSlot (cam : Nat) (base : FoxBase) (g : BandGeo) (cur : List Image) (mid : Tick) (f : Feature) (b : Block) : Track × Option Nat :=
  let p := f.predict mid
  if base.toEnd.contains f.slot then (f.lostAt (f.x.toInt, f.y.toInt) 6, none)
  else if !g.inside p then (f.lostAt p 4, none)
  else
    let o := lkTrack g base.img cur (f.x.toInt, f.y.toInt) p (b.foxF 19 1 10)
    let status := o.status (b.foxF 20 2 6144)
    let scale : Int := 2 ^ o.level
    let x := BitVec.ofInt 32 (rneDiv (o.pos.1 * scale) 1024)
    let y := BitVec.ofInt 32 (rneDiv (o.pos.2 * scale) 1024)
    let d := if status = 0 && b.foxF (32 + 16 * cam + 5) 1 0 = 1 then describe b.pattern (cur.getD 0 []) (pixelOf x) (pixelOf y)
             else none
    ({ id := f.id, x := x, y := y, resp := f.resp, age := if status = 0 then bump f.age else f.age, status := BitVec.ofNat 8 status,
       flags := BitVec.ofNat 8 d.isSome.toNat, resid := BitVec.ofNat 16 (min o.resid 0xFFFF)
       iters := BitVec.ofNat 8 (if o.level = 0 then o.iters else 0),
       orient := (d.map fun d => BitVec.ofNat 8 d.1).getD f.orient, desc := (d.map Prod.snd).getD f.desc }, some o.level)

/-! ### Detection (R279 to R282) -/

/-- The quotas of a frame's bands: F slots over the bands' own lines (R281). -/
def bandQuotas (free total : Nat) (hs : List Nat) : List Nat :=
  let base := hs.map fun h => free * h / max 1 total
  let left := free - base.sum
  base.zipIdx.map fun (q, i) => if i < left then q + 1 else q

/-- The free slots that a band may use (R281). -/
def FoxFrame.run (cam : Nat) (f : FoxFrame) (i : Nat) : List Nat :=
  let free := f.free cam
  let qs := bandQuotas free.length ((f.bands.map fun x => x.ownHi - x.ownLo).sum) (f.bands.map fun x => x.ownHi - x.ownLo)
  (free.drop (qs.take i).sum).take (qs.getD i 0)

/-- Whether a response at a pixel beats its 7×7 neighbourhood, an earlier pixel winning a tie (R279). -/
def isPeak (resp : Nat → Nat → Option Int) (x y : Nat) (r : Int) : Bool :=
  (List.range 7).all fun j => (List.range 7).all fun i =>
    match resp (x + i - 3) (y + j - 3) with
    | none => true
    | some o => if j < 3 || (j = 3 && i < 3) then decide (o < r) else decide (o ≤ r)

/-- Whether a pixel lies within MIN_SPACING of a position in 1/64 pixel, in both x and y. -/
def within (n x y : Nat) (p : Int × Int) : Bool :=
  decide (((x : Int) * 64 - p.1).natAbs ≤ 64 * n) && decide (((y : Int) * 64 - p.2).natAbs ≤ 64 * n)

/-- The corner candidates of a band in descending response (R278 to R280). `near` are the positions of the tracked features. -/
def Block.corners (g : BandGeo) (m : Image) (near : List (Int × Int)) (b : Block) : List (Nat × Nat × Int) :=
  let resp := response (b.foxF (32 + 16 * g.cam + 4) 1 1 == 1) (b.foxF (32 + 16 * g.cam + 6) 2 2621) m
  let least := b.foxF (32 + 16 * g.cam + 8) 4 65536
  let found := (List.range (g.hi - g.lo)).flatMap fun j => (List.range g.w).filterMap fun x =>
    let y := g.lo + j
    if 16 ≤ x && x + 16 < g.w && 16 ≤ y && y + 16 < g.h then
      match resp x y with
      | some r =>
        if (least : Int) ≤ r && isPeak resp x y r && (m.square 15 x y).isSome && !(near.any (within (b.foxF 22 1 8) x y))
        then some (x, y, r) else none
      | none => none
    else none
  sortBy (fun p q => decide (q.2.2 ≤ p.2.2)) found

/-- Takes candidates while slots and cells last: the pixels with their slots (R280, R282). `cells` are the cells that features hold. -/
def takeCorners (size most : Nat) : List (Nat × Nat × Int) → List Nat → List (Nat × Nat) → List (Nat × Nat × Int × Nat)
  | [], _, _ => []
  | _, [], _ => []
  | (x, y, r) :: cs, s :: ss, cells =>
    let cell := (x / size, y / size)
    if (cells.filter fun c => c == cell).length < most then (x, y, r, s) :: takeCorners size most cs ss (cell :: cells)
    else takeCorners size most cs (s :: ss) cells

/-- FEATURE_ID of a new feature (R282). -/
def featureId (epoch slot : Nat) : BitVec 32 := BitVec.ofNat 32 (epoch % 2 ^ 22 * 2 ^ 10 + slot)

/-- The record of a new feature. -/
def Block.newTrack (epoch : Nat) (m : Image) (c : Nat × Nat × Int × Nat) (b : Block) : Track :=
  let d := (describe b.pattern m c.1 c.2.1).getD (0, 0)
  { id := featureId epoch c.2.2.2, x := BitVec.ofNat 32 (64 * c.1), y := BitVec.ofNat 32 (64 * c.2.1),
    resp := BitVec.ofInt 32 c.2.2.1, age := 0, status := 1, flags := 1, resid := 0, iters := 0,
    orient := BitVec.ofNat 8 d.1, desc := d.2 }

/-! ### Records (R289 to R291) -/

/-- One TRACK record (Table 08-4). -/
def Track.bytes (t : Track) : Bytes :=
  leBytes 4 t.id.toNat ++ leBytes 4 t.x.toNat ++ leBytes 4 t.y.toNat ++ leBytes 4 t.resp.toNat ++ leBytes 2 t.age.toNat
    ++ [t.status, t.flags] ++ leBytes 2 t.resid.toNat ++ [t.iters, t.orient] ++ List.replicate 8 0 ++ leBytes 32 t.desc.toNat

/-- The TRACK payloads of a band: at most 63 records each, the last flagged LAST (R291). -/
def Block.trackPayloads (cam : Nat) (f : FoxFrame) (x : Band) (ts : List Track) (b : Block) : List Bytes :=
  let n := max 1 ((ts.length + 62) / 63)
  (List.range n).map fun k =>
    let part := (ts.drop (63 * k)).take 63
    leBytes 1 cam ++ leBytes 1 x.index ++ leBytes 1 f.bands.length ++ leBytes 1 k ++ leBytes 1 part.length
      ++ leBytes 1 (if k + 1 = n then 1 else 0) ++ leBytes 2 f.no.toNat ++ leBytes 4 b.cfg.gen.toNat ++ List.replicate 4 0
      ++ part.flatMap Track.bytes

/-- The PYRAMID payloads of one row of a level (Table 08-3), with the index of their first pixel. -/
def pyramidPayloads (cam level row : Nat) (no : BitVec 16) (r : List (Option (BitVec 16))) : List (Nat × Bytes) :=
  let head (missing first : Nat) : Bytes := leBytes 1 cam ++ leBytes 1 (level + 128 * missing) ++ leBytes 2 row ++ leBytes 2 no.toNat ++ leBytes 2 first
  if r.isEmpty || r.any Option.isNone then [(0, head 1 0)]
  else (List.range ((r.length + 2043) / 2044)).map fun k =>
    (2044 * k, head 0 (2044 * k) ++ ((r.drop (2044 * k)).take 2044).flatMap fun p => leBytes 2 (p.getD 0).toNat)

/-- The own rows of a level: their numbers and pixels (R289). -/
def BandGeo.ownRows (g : BandGeo) (level : Nat) (m : Image) : List (Nat × List (Option (BitVec 16))) :=
  let lo := g.lo / 2 ^ level
  let hi := (g.hi + 2 ^ level - 1) / 2 ^ level
  (List.range (hi - lo)).map fun i => (lo + i, m.getD (lo + i) [])

/-- t_mid of a Fox frame: from its FRAME parcel, or as its open frame's sources give it; none while it rests on a Frame End still to come. -/
def Block.foxMid (f : FoxFrame) (b : Block) : Option Tick :=
  match f.mid with
  | some m => some m.1
  | none =>
    match (b.ports.getD f.port {}).frame with
    | some fr =>
      let src := fr.f 41 1
      if fr.fs == f.fs && (fr.slipped || (src % 4 != 1 && src / 4 % 4 != 1)) then some (fr.mid fr.fs).2.2.toNat else none
    | none => none

/-- The results of a band. -/
structure BandOut where
  levels : List Image
  tracks : List Track
  reads  : List PyrRef        -- the reference frame's parcels, in the order of first read
deriving DecidableEq, Repr

/-- The reference parcels that tracking a slot reads, down to a level: level by level from 3, row by row (R290, DEDUCED, log entry 92). -/
def FoxBase.readsOf (base : FoxBase) (f : Feature) (deepest : Nat) : List PyrRef :=
  (((List.range 4).filter fun l => deepest ≤ l).reverse).flatMap fun l =>
    let y := rneDiv (1024 * f.y.toInt) (2 ^ l)
    let x := rneDiv (1024 * f.x.toInt) (2 ^ l)
    let near (c v : Int) (before after : Int) : Bool := decide (v / 65536 - before ≤ c) && decide (c ≤ v / 65536 + after)
    base.refs.filter fun r => r.level == l && near r.row y 4 5 && decide ((r.first : Int) ≤ x / 65536 + 5) && decide (x / 65536 - 4 < r.first + 2044)

/-- What a band computes: its own rows by level, its records in slot order, and the reference parcels it read. It rests on the band's inputs and
the set alone (R268): the survivors of R279 and R280 are those of the slots predicted into this band (DEDUCED, log entry 92). -/
def Block.bandWork (cam : Nat) (f : FoxFrame) (x : Band) (mid : Tick) (b : Block) : BandOut :=
  let g := b.bandGeo cam f x
  let levels := b.bandLevels f x g
  let m0 := levels.getD 0 []
  let epoch := b.ep.epochOf mid
  let mine := f.base.feats.filter fun s => g.owns (s.predict mid)
  let old : Nat := match f.base.epoch with | some e => if e + 1 < epoch then 2 else 0 | none => 0
  let done := mine.map fun s => (s, b.trackSlot cam f.base g levels mid s)
  let tracked := done.map fun d => d.2.1
  let alive := tracked.filter fun t => t.status == 0
  let near := (mine.map fun s => s.predict mid) ++ alive.map fun t => (t.x.toInt, t.y.toInt)
  let size := b.foxF 23 1 32
  let taken := takeCorners size (b.foxF 24 1 4) (b.corners g m0 near) (f.run cam x.index)
    (alive.map fun t => (pixelOf t.x / size, pixelOf t.y / size))
  let all := (tracked ++ taken.map fun n => b.newTrack epoch m0 n).map fun t => { t with flags := t.flags ||| BitVec.ofNat 8 old }
  { levels := levels.zipIdx.map fun (m, l) => (g.ownRows l m).map Prod.snd
    tracks := sortBy (fun s t => decide ((s.id.extractLsb' 0 10).toNat ≤ (t.id.extractLsb' 0 10).toNat)) all
    reads := (done.flatMap fun d => match d.2.2 with | some l => f.base.readsOf d.1 l | none => []).eraseDups }

/-! ### FOX_BAND_START, FOX_BAND_SEAL, FOX_CUTOFF -/

/-- Whether a lane can work. -/
def Block.laneOk (lane : Nat) (b : Block) : Bool := b.unitsRun 4 && b.flt.fox.getLsbD lane

/-- Changes a band of a camera's frame. -/
def Block.onBand (cam : Nat) (fs : Tick) (index : Nat) (g : Band → Band) (b : Block) : Block :=
  b.onFoxFrame cam fs fun f => { f with bands := f.bands.map fun x => if x.index == index then g x else x }

/-- The unsealed bands of a lane: its cameras in the order that the plan gives, its frames and bands in ascending order (R275). -/
def Block.laneBands (lane : Nat) (b : Block) : List (Nat × FoxFrame × Band) :=
  ((b.ep.plan.order.map Fin.val ++ List.range 6).eraseDups).flatMap fun cam =>
    (b.foxCam cam).frames.flatMap fun f => (f.bands.filter fun x => x.lane == lane && !x.isSealed).map fun x => (cam, f, x)

/-- A lane starts its next band whose first read line has arrived (R276, R277). -/
def Block.bandStart (lane : Fin 8) (b : Block) : Block :=
  let mine := b.laneBands lane
  if !b.laneOk lane || mine.any (fun m => m.2.2.started) then b
  else match mine.find? fun m => (b.under m.2.1).lineHere m.2.1 (m.2.2.readLo (b.under m.2.1).marginLines) with
  | none => b
  | some (cam, f, x) => b.onBand cam f.fs x.index fun y => { y with started := true, startAt := b.now }

/-- The lines that a band reads. -/
def Block.readLines (f : FoxFrame) (x : Band) (b : Block) : List Nat :=
  let lo := x.readLo (b.under f).marginLines
  (List.range (x.readHi (b.under f).marginLines ((b.under f).port f.port 26 2) - lo)).map fun i => lo + i

/-- Whether every line that a band reads has arrived. -/
def Block.bandReady (f : FoxFrame) (x : Band) (b : Block) : Bool := (b.readLines f x).all fun i => b.lineHere f i

/-- A lane verifies a band's LINE parcels; a line with a parcel that is not consumed is missing (R174, R570). -/
def Block.verifyLines (lane cam : Nat) (f : FoxFrame) (x : Band) (reads : Reads) (b : Block) : Block :=
  (b.readLines f x).foldl (fun b i =>
    (b.lineParcels f i).foldl (fun b p =>
      let r := b.verify p (readAs reads p) (BitVec.ofNat 8 (0x20 + lane))
      if r.1.isSome then r.2 else r.2.onFoxFrame cam f.fs fun f => { f with lost := if f.lost.contains i then f.lost else i :: f.lost }) b) b

/-- Seals a band's PYRAMID and TRACK parcels from one list of inputs (R289 to R291), under the frame's set (R101), and keeps its results. -/
def Block.bandSealed (lane cam : Nat) (f : FoxFrame) (x : Band) (w : BandOut) (b : Block) : Block :=
  let unit := BitVec.ofNat 8 (0x20 + lane)
  let g := (b.under f).bandGeo cam f x
  let lines := (b.readLines f x).flatMap fun i => if f.lost.contains i then [] else (b.lineParcels f i).map Parcel.ref
  let ins := lines ++ w.reads.map PyrRef.ref
  let rows := w.levels.zipIdx.flatMap fun (m, l) => m.zipIdx.flatMap fun (r, i) =>
    (pyramidPayloads cam l (g.lo / 2 ^ l + i) f.no r).map fun p => (l, g.lo / 2 ^ l + i, p)
  let (b1, pyr) := rows.foldl (fun (acc : Block × List PyrRef) (l, row, first, p) =>
    (acc.1.flow (0xB8 + cam) 0x0301 unit p ins,
     acc.2 ++ [{ level := l, row := row, first := first, ref := (acc.1.flowParcel (0xB8 + cam) 0x0301 unit p ins).ref }])) (b, [])
  let (b2, trk) := (((b.under f).trackPayloads cam f x w.tracks)).foldl (fun (acc : Block × List InRef) p =>
    (acc.1.flow (0xB0 + cam) 0x0302 unit p ins, acc.2 ++ [(acc.1.flowParcel (0xB0 + cam) 0x0302 unit p ins).ref])) (b1, [])
  b2.onBand cam f.fs x.index fun y =>
    { y with isSealed := true, started := false, levels := w.levels, tracks := w.tracks, pyr := pyr, trk := trk }

/-- A lane seals the band that it works on, once every line it reads has arrived and t_mid is known (R284). It verifies the LINE parcels and the
reference parcels that it read; with one of those not consumed the band starts again (R174, Table 16-4). -/
def Block.bandSeal (lane : Fin 8) (reads : Reads) (b : Block) : Block :=
  match (b.laneBands lane).find? fun m => m.2.2.started with
  | none => b
  | some (cam, f0, x) =>
    if !b.laneOk lane || !b.bandReady f0 x then b
    else match b.foxMid f0 with
    | none => b
    | some mid =>
      let b1 := b.verifyLines lane cam f0 x reads
      match (b1.foxCam cam).frames.find? fun f => f.fs == f0.fs with
      | none => b1
      | some f =>
        if !b1.laneOk lane then b1
        else
          let w := (b1.under f).bandWork cam f x mid
          let (ok, b2) := b1.verifyRefs (w.reads.map PyrRef.ref) reads (BitVec.ofNat 8 (0x20 + lane.val))
          if !ok then b2.onBand cam f.fs x.index fun y => { y with started := false }
          else if !b2.laneOk lane then b2
          else b2.bandSealed lane cam f x w

/-- FOX_CUTOFF: the cameras with an unsealed band of a frame that started by then are dropped (R296). -/
def Block.foxCutoffDue (b : Block) : Block :=
  if !b.ready || !b.ep.running || b.pwr.paused || b.now < b.ep.start + b.foxCutoff then b
  else (List.range 6).foldl (fun b cam =>
    ((b.foxCam cam).frames.filter fun f => !f.whole && decide (f.fs ≤ b.ep.start + b.foxCutoff)).foldl (fun b f => b.foxDrop cam 2 f) b) b

/-! ### Exec -/

/-- FOX_BAND_START. -/
def execFoxBandStart (lane : Fin 8) (s : State) : Host.Outcome State Fault Refusal := s.act (Block.bandStart lane)
/-- FOX_BAND_SEAL. -/
def execFoxBandSeal (lane : Fin 8) (reads : Reads) (s : State) : Host.Outcome State Fault Refusal := s.act (Block.bandSeal lane reads)
/-- FOX_CUTOFF. -/
def execFoxCutoff (s : State) : Host.Outcome State Fault Refusal := s.act Block.foxCutoffDue

end Sys2Proof.Machine
end

