-- ==== Sys2Proof/Machine/Afu.lean ====
section
/-! DEFINITION. The commands of alignment and fusion (chapter 09): PREINT_BUILD, PRIOR, POSE_ASSEMBLY and PRED_EMIT. -/

namespace Sys2Proof.Machine

/-! ### Verification (R174) -/

/-- The AFU verifies the IFC_OUT parcels whose outputs it holds for the axes of a slot; the outputs of one that it may not consume are dropped
(R174, R180, R181). -/
def Block.verifyOutputs (sec : Bool) (reads : Reads) (b : Block) : Block :=
  let rs := ((List.range 6).flatMap fun i => (b.axis sec i).map Prod.snd).eraseDups
  (b.heldParcels rs).foldl (fun b p =>
    match b.verify p (readAs reads p) afuUnit with
    | (some _, b1) => b1
    | (none, b1) => { b1 with afu := { b1.afu with
        outs := b1.afu.outs.map fun o => { o with recs := o.recs.filter fun x => !InRef.same x.2 p.ref } } }) b

/-- The AFU verifies a SOLUTION that it holds: the record when it may be consumed. -/
def Block.verifySol (o : Option SolRec) (reads : Reads) (b : Block) : Option SolRec × Block :=
  match o with
  | none => (none, b)
  | some s =>
    match b.verify s.parcel (readAs reads s.parcel) afuUnit with
    | (some _, b1) => (some s, b1)
    | (none, b1) => (none, b1)

/-- The AFU verifies the two newest SOLUTIONs; one that it may not consume is none (R174, log entry 99). -/
def Block.verifySols (reads : Reads) (b : Block) : Block :=
  let p := b.verifySol b.afu.solPrev reads
  let s := p.2.verifySol b.afu.sol reads
  { s.2 with afu := { s.2.afu with sol := if s.1.isSome then s.1 else p.1, solPrev := if s.1.isSome then p.1 else none } }

/-! ### PREINT (R308 to R313) -/

/-- Whether the AFU works. -/
def Block.afuOn (b : Block) : Bool := b.ready && b.ep.running && !b.pwr.paused && !(b.flt.restarting.getD 5 false)

/-- The previous epoch's common instant, if there was one. -/
def Block.prevInstant (b : Block) : Option Int := b.afu.tcPrev.map fun t => b.commonInstant - b.afu.tc + t

/-- The distance and the stamp of the output nearest to an instant on the worst axis of a slot; none where an axis has no output (R147, R151). -/
def Block.endpoint (sec : Bool) (t : Int) (b : Block) : Option (Nat × Int) :=
  let ds := (List.range 6).map fun i => (nearest t ((b.axis sec i).map fun x => b.recStamp sec x.1)).map fun s => (apart s t, s)
  if ds.all Option.isSome then
    some (ds.foldl (fun y d => match d with | some z => if y.1 < z.1 then z else y | none => y) (0, t))
  else none

/-- Whether an endpoint lies within 2.0 ms of its instant (R151). -/
def endpointOk (e : Option (Nat × Int)) : Bool := match e with | some x => decide (x.1 ≤ 500000) | none => false

/-- Reports an endpoint beyond the limit (R151, R311); with no output at all the nearest stamp is free (log entry 5). -/
def Block.endpointLost (e : Option (Nat × Int)) (t : Int) (b : Block) : Block :=
  match e with
  | some x => b.limitEvent 0 b.inertialSlot x.2 t
  | none => (b.limitEvent 0 b.inertialSlot b.freeNow.toInt t).drew

/-- The flags of a PREINT from the outputs it uses, by axis (Table 09-3, R308, R254). -/
def preintFlags (us : List (Nat × List (IfcRec × InRef))) (secondary short : Bool) : Nat :=
  let any (axes : Nat → Bool) (bit : Nat) : Bool := us.any fun u => axes u.1 && u.2.any fun x => x.1.flags.getLsbD bit
  (any (fun i => decide (i < 3)) 0).toNat + 2 * (any (fun i => decide (3 ≤ i)) 0).toNat + 4 * (any (fun _ => true) 1).toNat
    + 8 * (any (fun _ => true) 2).toNat + 16 * secondary.toNat + 32 * short.toNat

/-- The noise of a step: gyro and accelerometer variances, each multiplied by TAINT_INFLATE where its triad is tainted (R310), and the walks
(Table 09-2). -/
def Block.stepNoise (b : Block) (taintG taintA : Bool) : List (BitVec 32) :=
  let f (off dflt : Nat) : BitVec 32 := BitVec.ofNat 32 (b.fusion off 4 dflt)
  let var (n : BitVec 32) (taint : Bool) : BitVec 32 := if taint then fp32Mul (fp32Mul n n) (f 84 0x42C80000) else fp32Mul n n
  [var (f 64 0x3951B717) taintG, var (f 68 0x3B03126F) taintA, f 72 0x37A7C5AC, f 76 0x3B449BA6]

/-- The noise of R312: the gyro and accelerometer noise themselves multiplied by TAINT_INFLATE. -/
def Block.heldNoise (b : Block) : List (BitVec 32) :=
  let f (off dflt : Nat) : BitVec 32 := BitVec.ofNat 32 (b.fusion off 4 dflt)
  let var (n : BitVec 32) : BitVec 32 := fp32Mul (fp32Mul n (f 84 0x42C80000)) (fp32Mul n (f 84 0x42C80000))
  [var (f 64 0x3951B717), var (f 68 0x3B03126F), f 72 0x37A7C5AC, f 76 0x3B449BA6]

/-- GRAVITY. -/
def Block.gravity (b : Block) : BitVec 32 := BitVec.ofNat 32 (b.fusion 80 4 0x411CE80A)

/-- A preintegration (R309). -/
structure Preint where
  dr  : Q4 := {}
  dv  : V3 := {}
  dp  : V3 := {}
  jac : List (BitVec 32) := List.replicate 45 0
  cov : List (BitVec 32) := List.replicate 45 0
deriving DecidableEq, Repr

/-- One step of R309 between consecutive sample points. -/
def Preint.step (bg ba : V3) (noise : Bool → Bool → List (BitVec 32)) (x : Preint) (p q : ImuPt) : Preint :=
  let dt := secondsOf (q.t - p.t)
  let w := ((p.gyro.add q.gyro).half).sub bg
  let a := ((p.accel.add q.accel).half).sub ba
  let ra := x.dr.rot a
  let args := x.dr.words ++ w.words ++ a.words ++ [dt]
  { dr := x.dr.mul (expQ (w.scale dt))
    dv := x.dv.add (ra.scale dt)
    dp := (x.dp.add (x.dv.scale dt)).add ((ra.scale (fp32Mul dt dt)).half)
    jac := Config.jacStep x.jac args
    cov := Config.covStep x.cov args (noise (p.taintG || q.taintG) (p.taintA || q.taintA)) }

/-- The steps over a list of sample points. -/
def Preint.run (bg ba : V3) (noise : Bool → Bool → List (BitVec 32)) : List ImuPt → Preint → Preint
  | p :: q :: ps, x => Preint.run bg ba noise (q :: ps) (x.step bg ba noise p q)
  | _, x => x

/-- The newest SOLUTION sealed at or before an instant, with the one before it. -/
def Block.solAt (t : Int) (b : Block) : Option SolRec :=
  match b.afu.sol with
  | some s => if (s.sealedAt : Int) ≤ t then some s else b.afu.solPrev.filter fun p => decide ((p.sealedAt : Int) ≤ t)
  | none => none

/-- The biases of a solution, zero without one (R320). -/
def biasOf (s : Option SolRec) : Bytes := match s with | some s => fit 24 (slice s.parcel.payload 72 24) | none => List.replicate 24 0

/-- The PREINT payload (Table 09-3); words that are no FP32 words of their interval are given as bytes. -/
def Block.preintPayload (t0 t1 : Int) (steps flags : Nat) (bias : Bytes) (x : Preint) (b : Block) : Bytes :=
  leBytes 8 (BitVec.ofInt 64 t0).toNat ++ leBytes 8 (BitVec.ofInt 64 t1).toNat ++ leBytes 2 (min steps 0xFFFF) ++ leBytes 2 flags
    ++ leBytes 1 b.inertialSlot ++ [0, 0, 0] ++ wordBytes (x.dr.pos.words ++ x.dv.words ++ x.dp.words) ++ bias
    ++ wordBytes ((List.range 45).map fun i => x.jac.getD i 0) ++ wordBytes ((List.range 45).map fun i => x.cov.getD i 0)

/-- Seals the epoch's PREINT (R313). -/
def Block.sealPreint (payload : Bytes) (ins : List InRef) (b : Block) : Block :=
  let p := b.flowParcel 0xC0 0x0410 afuUnit payload ins
  let b1 := (b.flow 0xC0 0x0410 afuUnit payload ins).release p.ref
  { b1 with afu := { b1.afu with preint := some p, preintDone := true, preints := b1.afu.preints ++ [p] } }

/-- The epoch's PREINT from the slot in use (R309, R311); the first epoch has no interval. An endpoint beyond R151 is dropped: it is no sample
point, and the steps run between those that stand (DEDUCED, log entry 89). -/
def Block.preintFrom (b : Block) : Block :=
  let sec := b.afu.secondary
  let t1 := b.commonInstant
  let t0 := b.prevInstant.getD t1
  let e0 := b.endpoint sec t0
  let e1 := b.endpoint sec t1
  let short : Bool := !endpointOk e1 || (b.prevInstant.isSome && !endpointOk e0)
  let b1 := if !endpointOk e1 then b.endpointLost e1 t1
    else if b.prevInstant.isSome && !endpointOk e0 then b.endpointLost e0 t1
    else b
  let b2 := if b.afu.switched || short then { b1 with ep := { b1.ep with degraded := true } } else b1
  let head : List Int := if b.prevInstant.isSome && endpointOk e0 then [t0] else []
  let tail : List Int := if endpointOk e1 then [t1] else []
  let pts := (head ++ b.stampsIn sec t0 t1 ++ tail.filter fun t => decide (t0 < t)).map (b.imuAt sec)
  let us := (List.range 6).map fun i => (i, b.used sec i t0 t1 (head ++ tail))
  let bias := biasOf (b.solAt t0)
  b2.sealPreint (b2.preintPayload t0 t1 (pts.length - 1) (preintFlags us sec short) bias
      (Preint.run (v3At bias 0) (v3At bias 12) b.stepNoise pts {}))
    (b.inOrder (us.flatMap fun u => u.2.map Prod.snd))

/-- The angular velocity of the slot in use at an instant, in B, less a solution's gyro bias. -/
def Block.gyroAt (sec : Bool) (t : Int) (bias : Bytes) (b : Block) : List (BitVec 32) :=
  ((b.imuAt sec t).gyro.sub (v3At bias 0)).words

/-- A SOLUTION's t_c. -/
def SolRec.tc (s : SolRec) : Int := signedOf 64 (field s.parcel.payload 0 8)

/-- The angular velocity that a SOLUTION's POSE gives, or will give. -/
def Block.omegaOf (s : SolRec) (b : Block) : List (BitVec 32) :=
  if s.posed then s.omega else b.gyroAt b.afu.secondary s.tc (biasOf (some s))

/-- The time between outputs of the primary triad when its last one came: of the two newest of its first axis. With fewer than two the spec gives
no spacing, so it is free (log entry 5). -/
def Block.lastSpacing (b : Block) : Int :=
  match b.axis false 0 with
  | x :: y :: _ => max 1 (b.recStamp false x.1 - b.recStamp false y.1)
  | _ => max 1 (b.freeNow.toNat : Int)

/-- The points of R312's covariance: the interval at the last output spacing, at the held rates. -/
def heldPoints (t0 t1 step : Int) (gyro accel : V3) : List ImuPt :=
  let n := ((t1 - t0 + step - 1) / step).toNat
  (List.range (n + 1)).map fun (k : Nat) =>
    { t := min t1 (t0 + (k : Int) * step), gyro := gyro, accel := accel, taintG := true, taintA := true }

/-- ΔR, Δv and Δp of R312: the body turns at the held rate, and moves at the held velocity, so that its accelerometer answers gravity alone. -/
def Block.heldMotion (s : SolRec) (t0 t1 : Int) (b : Block) : Preint :=
  let p := s.parcel.payload
  let om := b.omegaOf s
  let w : V3 := ⟨om.getD 0 0, om.getD 1 0, om.getD 2 0⟩
  let dt := secondsOf (t1 - t0)
  let r0 := ((q4At p 44).mul (expQ (w.scale (secondsOf (t0 - s.tc))))).conj
  let up := r0.rot ⟨0, 0, b.gravity⟩
  { dr := expQ (w.scale dt), dv := up.scale dt, dp := (up.scale (fp32Mul dt dt)).half
    cov := (Preint.run {} {} (fun _ _ => b.heldNoise) (heldPoints t0 t1 b.lastSpacing w up) {}).cov }

/-- The substitute of R312; its one input is the SOLUTION whose values it holds. With no SOLUTION yet the spec gives no held values, so its ten
words are free (log entry 5). -/
def Block.preintHeld (b : Block) : Block :=
  let t1 := b.commonInstant
  let t0 := b.prevInstant.getD t1
  let b1 := { b with ep := { b.ep with degraded := true } }
  match b.afu.sol with
  | some s => b1.sealPreint (b1.preintPayload t0 t1 0 64 (biasOf (some s)) (b.heldMotion s t0 t1)) [s.parcel.ref]
  | none =>
    let v (i : Nat) : V3 := ⟨(b.freeVec 10).getD i 0, (b.freeVec 10).getD (i + 1) 0, (b.freeVec 10).getD (i + 2) 0⟩
    Block.drewN 10 <| b1.sealPreint (b1.preintPayload t0 t1 0 64 (biasOf none)
      { dr := ⟨(b.freeVec 10).getD 9 0, (v 0).x, (v 0).y, (v 0).z⟩, dv := v 3, dp := v 6 }) []

/-- PREINT_BUILD: once per epoch, when t_c is known; a reference frame that may still come is waited for (R145, R146). -/
def Block.preintBuild (reads : Reads) (b : Block) : Block :=
  if !b.afuOn || b.afu.preintDone || (!b.afu.tcDone && b.portPending b.refPort) then b
  else
    let b1 := b.fixTc
    Block.drew (if b1.afu.noInertial then (b1.verifySols reads).preintHeld else (b1.verifyOutputs b1.afu.secondary reads).preintFrom)

/-! ### PRIOR (R135, R314, R315) -/

/-- One row of the FP32 Cholesky factor after the rows above it; none when its pivot is not positive (R314). -/
def choleskyRow (c : List (BitVec 32)) (above : List (List (BitVec 32))) (i : Nat) : Option (List (BitVec 32)) :=
  let dot (x y : List (BitVec 32)) (s : BitVec 32) : BitVec 32 := (x.zip y).foldl (fun a p => fp32Sub a (fp32Mul p.1 p.2)) s
  let row := (above.zipIdx).foldl (fun (row : List (BitVec 32)) (l, j) =>
    row ++ [fp32Div (dot row (l.take j) (covAt c i j)) (l.getD j 0)]) []
  let d := dot row row (covAt c i i)
  if 0 < fp32Num d then some (row ++ [fp32Sqrt (fp32Num d).toNat (2 ^ 149)]) else none

/-- Whether a covariance is positive definite by an FP32 Cholesky factorisation (R314). -/
def posDef (c : List (BitVec 32)) : Bool :=
  ((List.range 6).foldl (fun (acc : Option (List (List (BitVec 32)))) i =>
    acc.bind fun rows => (choleskyRow c rows i).map fun r => rows ++ [r]) (some [])).isSome

/-- Whether a quaternion's norm differs from 1 by more than 10^-3 (R314). -/
def normBad (q : List (BitVec 32)) : Bool :=
  let n2 : Int := (q.map fun x => fp32Num x * fp32Num x).sum
  decide (1001 ^ 2 * 2 ^ 298 < n2 * 10 ^ 6) || decide (n2 * 10 ^ 6 < 999 ^ 2 * 2 ^ 298)

/-- The cause of a prior's rejection in the order of R314; 0 when it is accepted. -/
def Block.priorCause (p : Bytes) (b : Block) : Nat :=
  let s := field p 0 1
  let vals := (List.range 34).map fun i => BitVec.ofNat 32 (field p (16 + 4 * i) 4)
  let newest := (b.afu.priors.getD s []).head?.map PriorRec.stamp
  if 16 ≤ s || !b.priorEnabled s then 1
  else if vals.any (fun v => !fp32Finite v) || normBad (slice' vals 3 4) then 2
  else if !posDef (vals.drop 13) then 3
  else match newest with
  | some t => if field p 8 8 ≤ t then 4 else 0
  | none => 0
where
  /-- A stretch of a list. -/
  slice' (l : List (BitVec 32)) (i n : Nat) : List (BitVec 32) := (l.drop i).take n

/-- The AFU takes a verified prior: the answer is the rejection cause of the completion, 0xFF for R135. -/
def Block.takePrior (p : Parcel) (b : Block) : Block × Nat :=
  let pl := p.payload
  if field pl 4 4 ≠ b.thermos.tbEpoch.toNat then
    (Block.event 0x0008 noUnit (slice pl 0 1 ++ [0, 0, 0] ++ slice pl 4 4 ++ slice pl 8 8)
      { b with afu := { b.afu with dropEpoch := bump b.afu.dropEpoch } }, 0xFF)
  else
    let c := b.priorCause pl
    if c ≠ 0 then (b.rejectPrior (field pl 0 1) c (field pl 8 8) 0, c)
    else
      let r : PriorRec := { stamp := field pl 8 8, payload := pl, src := p.ref, at_ := b.now }
      ({ b with afu := { b.afu with priors := b.afu.priors.modify (field pl 0 1) fun l => (r :: l).take 8 } }, 0)

/-- PRIOR starts: it reads its one parcel. -/
def Block.prior (r : CmdRef) (b : Block) : Block := b.begin r 0x40 (fun _ => true) fun _ b => b.stage r .running

/-- The buffer of a PRIOR command holds one PRIOR parcel of 160 bytes (R314, R481). -/
def Block.priorHeads (r : CmdRef) (c : Cmd) (hs : List Parcel) (b : Block) : Block :=
  match hs with
  | [h] => if h.type == 0x0401 && h.len == 160 && c.arg 16 4 == bufferSize hs then b.withCmd r fun c => { c with heads := true }
           else b.finish r stField 0 0 0
  | _ => b.finish r stField 0 0 0

/-- The verified parcel of a PRIOR command (Table 14-6). -/
def Block.priorPart (r : CmdRef) (_c : Cmd) (p : Parcel) (b : Block) : Block :=
  let x := b.takePrior p
  x.1.finish r stOk x.2 0 0

/-! ### POSE and PRED (R318 to R323) -/

/-- The kinematics and covariance of a record: 76 bytes, then 21 FP32 (Table 09-5). -/
structure Kin where
  state : Bytes
  cov   : List (BitVec 32)
deriving DecidableEq, Repr

/-- R320. -/
def kinNone : Kin :=
  { state := List.replicate 12 0 ++ leBytes 4 0x3F800000 ++ List.replicate 60 0
    cov := (List.range 21).map fun i => if [0, 6, 11, 15, 18, 20].contains i then 0x477FE000 else 0 }

/-- A POSE or PRED payload (Table 09-5, R319). -/
def Block.recordPayload (t : Int) (age flags gen : Nat) (k : Kin) (base : Nat) (s : Option SolRec) (reloc table : Nat) (b : Block) : Bytes :=
  let p := match s with | some s => s.parcel.payload | none => []
  fit 256 (leBytes 8 (BitVec.ofInt 64 t).toNat ++ leBytes 4 b.thermos.tbEpoch.toNat ++ leBytes 4 (min age 0xFFFFFFFF)
    ++ leBytes 8 (b.ep.epochOf t.toNat) ++ leBytes 4 flags ++ leBytes 4 gen ++ k.state
    ++ (k.cov.flatMap fun c => leBytes 2 (fp16Of (fp32Num c) (2 ^ 149))) ++ [0, 0] ++ leBytes 4 base
    ++ leBytes 1 (field p 24 1) ++ [(s.map SolRec.cams).getD 0] ++ leBytes 2 (field p 26 2)
    ++ leBytes 2 ((s.map SolRec.priors).getD 0).toNat ++ leBytes 2 reloc ++ leBytes 4 b.afu.lastKf.toNat ++ leBytes 4 table
    ++ leBytes 4 (field p 28 4))

/-- Seals a POSE and updates the mirror (R28, R513). -/
def Block.sealPose (payload : Bytes) (ins : List InRef) (b : Block) : Block :=
  let p := b.streamParcel 0 0x0420 afuUnit payload ins
  let b1 := b.emit 0 0x0420 afuUnit payload ins
  { b1 with afu := { b1.afu with posed := true, mirror := some p, mirrorPrev := b1.afu.mirror, mirrorNo := b1.afu.mirrorNo + 1 } }

/-- Position, velocity and attitude of B in W. -/
structure Motion where
  p : V3
  v : V3
  q : Q4
deriving DecidableEq, Repr

/-- A solution's motion. -/
def SolRec.motion (s : SolRec) : Motion :=
  { p := v3At s.parcel.payload 32, q := (q4At s.parcel.payload 44).pos, v := v3At s.parcel.payload 60 }

/-- A motion after an interval of preintegrated data, gravity g pulling along −z of W (R309, R322, R384). -/
def Motion.over (g : BitVec 32) (m : Motion) (dt : BitVec 32) (x : Preint) : Motion :=
  let fall : V3 := ⟨0, 0, fp32Neg g⟩
  { p := ((m.p.add (m.v.scale dt)).add ((fall.scale (fp32Mul dt dt)).half)).add (m.q.rot x.dp)
    v := (m.v.add (fall.scale dt)).add (m.q.rot x.dv)
    q := (m.q.mul x.dr).unit.pos }

/-- The kinematics that a record publishes. -/
def Motion.kin (m : Motion) (omega : List (BitVec 32)) (bias : Bytes) (cov : List (BitVec 32)) : Kin :=
  { state := fit 76 (wordBytes (m.p.words ++ m.q.words ++ m.v.words ++ (List.range 3).map fun i => omega.getD i 0) ++ fit 24 bias), cov := cov }

/-- A SOLUTION's pose covariance. -/
def SolRec.cov (s : SolRec) : List (BitVec 32) := (List.range 21).map (wordAt s.parcel.payload 96)

/-- The increments that a PREINT parcel holds. -/
def preintOf (p : Bytes) : Preint :=
  { dr := q4At p 24, dv := v3At p 40, dp := v3At p 52, cov := (List.range 45).map (wordAt p 268) }

/-- The angular velocity of a POSE: the gyro at t_c less the solution's bias, or the held one (R312). -/
def Block.poseOmega (s : SolRec) (b : Block) : List (BitVec 32) :=
  if b.afu.noInertial then b.omegaOf s else b.gyroAt b.afu.secondary b.commonInstant (biasOf (some s))

/-- The state that a SOLUTION publishes; its angular velocity at t_c is the AFU's (DEDUCED, log entry 90). -/
def Block.solvedKin (s : SolRec) (b : Block) : Kin := s.motion.kin (b.poseOmega s) (biasOf (some s)) s.cov

/-- A solution propagated over PREINT parcels (R384). -/
def Block.carriedKin (s : SolRec) (b : Block) : Kin :=
  let r := b.afu.preints.foldl (fun (acc : Motion × List (BitVec 32)) p =>
    let x := preintOf p.payload
    (acc.1.over b.gravity (secondsOf (signedOf 64 (field p.payload 8 8) - signedOf 64 (field p.payload 0 8))) x,
     Config.poseCov acc.2 x.cov)) (s.motion, s.cov)
  r.1.kin (b.poseOmega s) (biasOf (some s)) r.2

/-- A POSE without an estimate (R320). -/
def Block.poseNone (b : Block) : Block :=
  let t := b.commonInstant
  let flags := b.commonFlags + 4 * b.ep.degraded.toNat + 256 * b.afu.calibDue.toNat + 512
  let seq := (b.host.streams.getD 0 {}).nextSeq.toNat
  let pay := b.recordPayload t 0xFFFFFFFF flags b.cfg.gen.toNat kinNone seq none b.afu.reloc.toNat b.tableVersion
  let b1 := b.sealPose pay []
  { b1 with afu := { b1.afu with calibDue := false } }

/-- A POSE that publishes the epoch's SOLUTION (R152, R153, R323). -/
def Block.poseSolved (s : SolRec) (b : Block) : Block :=
  let t := b.commonInstant
  let flags := b.commonFlags + 2 * (field s.parcel.payload 16 1 % 2) + 4 * b.ep.degraded.toNat + b.dueFlags
  let seq := (b.host.streams.getD 0 {}).nextSeq.toNat
  let reloc := if b.afu.relocDue then b.afu.reloc + 1 else b.afu.reloc
  let pay := b.recordPayload t (t - s.age).toNat flags (field s.parcel.payload 20 4) (b.solvedKin s) seq (some s) reloc.toNat s.table.toNat
  let b1 := b.sealPose pay [s.parcel.ref]
  let s1 := { s with reloc := reloc, flags := BitVec.ofNat 32 b.dueFlags, posed := true, omega := b.poseOmega s }
  { b1 with afu := { b1.afu with sol := some s1, reloc := reloc, relocDue := false, keyDue := false, calibDue := false } }

/-- A CARRIED POSE: the newest SOLUTION propagated over the PREINTs since (R154, R323, R384). -/
def Block.poseCarried (s : SolRec) (b : Block) : Block :=
  let t := b.commonInstant
  let flags := b.commonFlags + 1 + 4 * b.ep.degraded.toNat + 256 * b.afu.calibDue.toNat
  let seq := (b.host.streams.getD 0 {}).nextSeq.toNat
  let pay := b.recordPayload t (t - s.age).toNat flags (field s.parcel.payload 20 4) (b.carriedKin s) seq (some s) s.reloc.toNat
    s.table.toNat
  let b1 := b.sealPose pay (s.parcel.ref :: b.afu.preints.map Parcel.ref)
  { b1 with afu := { b1.afu with calibDue := false } }

/-- Assembles the epoch's POSE by the outcome of its VIO job (R28, R320, R384). Over PREINT parcels that may not be consumed nothing is carried
(log entry 99). -/
def Block.assemblePose (reads : Reads) (b : Block) : Block :=
  let b1 := b.fixTc.verifySols reads
  match b1.afu.sol with
  | none => b1.poseNone
  | some s =>
    if b1.afu.noSol || b1.afu.noSolEpoch then b1.poseNone
    else if s.epoch = b1.ep.now.toNat then b1.poseSolved s
    else
      let v := b1.verifyAll reads afuUnit b1.afu.preints
      if v.1 then v.2.poseCarried s else v.2.poseNone

/-- Whether the epoch's VIO job has ended, or none will: it is past its assembly with no job left, or its deadline has passed. -/
def Block.vioOver (b : Block) : Bool :=
  !(b.badger.jobs.any fun j => !j.host && j.cls == 0) && (b.badger.vioDone || decide (b.ep.start + b.vioDeadline ≤ b.now))

/-- POSE_ASSEMBLY: once per epoch, after the VIO job's outcome and, with a solution, the keyframe decision (R28, Table 09-6). -/
def Block.poseAssembly (reads : Reads) (b : Block) : Block :=
  if b.afuOn && !b.afu.posed && b.vioOver && (!b.solvedNow || b.badger.keyDone) then b.assemblePose reads else b

/-- The newest SOLUTION sealed before a tick (R321). -/
def Block.solBefore (t : Tick) (b : Block) : Option SolRec :=
  if b.afu.noSol then none
  else match b.afu.sol with
  | some s => if s.sealedAt < t then some s else b.afu.solPrev.filter fun p => decide (p.sealedAt < t)
  | none => none

/-- Marks a SOLUTION as one whose flags a PRED has carried (R321). -/
def tellSol (s : SolRec) (o : Option SolRec) : Option SolRec := o.map fun x => if x.parcel == s.parcel then { x with told := true } else x

/-- The newest output of each axis of the primary slot, as a point held at an instant (R322). With no output the spec gives no rate to hold: the
value is free (log entry 5). -/
def Block.heldPoint (t : Int) (b : Block) : ImuPt :=
  b.imuOf false t ((List.range 6).map fun i =>
    match (b.axis false i).head? with
    | some x => (x.1.value.toInt, [])
    | none => (signedOf 32 b.freeNow.toNat, []))

/-- The sample points of a PRED: the solution's t_c, the primary slot's outputs after it up to t_valid, and the last rate and acceleration held to
t_valid (R322). Where no output lies within the limit of R151 about the solution's t_c, the newest values hold from there. -/
def Block.predPoints (t0 t : Int) (b : Block) : List ImuPt :=
  let first := if endpointOk (b.endpoint false t0) then b.imuAt false t0 else b.heldPoint t0
  let run := first :: (b.stampsIn false t0 (t + 1)).map (b.imuAt false)
  let last := run.getLastD first
  if last.t < t then run ++ [{ last with t := t }] else run

/-- Emits the PRED of a tick from a SOLUTION (R321 to R323). -/
def Block.predFrom (s : SolRec) (t : Tick) (b : Block) : Block :=
  let us := ((List.range 6).flatMap fun i => (b.axis false i).filter fun x =>
    decide (s.tc < b.recStamp false x.1) && decide (b.recStamp false x.1 ≤ t))
  let newest := us.foldl (fun m x => max m (b.recStamp false x.1)) s.tc
  let hold : Bool := decide ((b.predHoldMax : Int) < t - newest)
  let own := if s.posed then s.flags.toNat else b.dueFlags
  let flags := b.commonFlags + 2 * (field s.parcel.payload 16 1 % 2) + 4 * hold.toNat + (if s.told then 0 else own) + 1024 * hold.toNat
  let reloc := if s.posed then s.reloc else if b.afu.relocDue then b.afu.reloc + 1 else b.afu.reloc
  let bias := biasOf (some s)
  let pts := b.predPoints s.tc t
  let x := Preint.run (v3At bias 0) (v3At bias 12) b.stepNoise pts {}
  let k := (s.motion.over b.gravity (secondsOf (t - s.tc)) x).kin
    ((pts.getLastD (b.heldPoint t)).gyro.sub (v3At bias 0)).words bias (Config.poseCov s.cov x.cov)
  let pay := b.recordPayload t ((t : Int) - s.age).toNat flags (field s.parcel.payload 20 4) k (s.epoch % 2 ^ 32) (some s) reloc.toNat
    s.table.toNat
  let b1 := (b.emit 1 0x0421 afuUnit pay (s.parcel.ref :: b.inOrder (us.map Prod.snd))).drew
  { b1 with afu := { b1.afu with sol := tellSol s b1.afu.sol, solPrev := tellSol s b1.afu.solPrev } }

/-- Emits a PRED without an estimate (R320). -/
def Block.predNone (t : Tick) (b : Block) : Block :=
  let seq := (b.host.streams.getD 1 {}).nextSeq.toNat
  b.emit 1 0x0421 afuUnit
    (b.recordPayload t 0xFFFFFFFF (b.commonFlags + 512) b.cfg.gen.toNat kinNone seq none b.afu.reloc.toNat b.tableVersion) []

/-- PRED_EMIT: the PRED of the newest multiple of 250,000 ticks, within 100 µs of it, once (R321). -/
def Block.predEmit (reads : Reads) (b : Block) : Block :=
  let t := b.now / 250000 * 250000
  if b.afuOn && decide (b.now ≤ t + 25000) && decide (b.afu.predAt < t) then
    let b1 := Block.verifyOutputs false reads (Block.verifySols reads { b with afu := { b.afu with predAt := t } })
    match b1.solBefore t with
    | some s => b1.predFrom s t
    | none => b1.predNone t
  else b

/-! ### Exec -/

/-- PREINT_BUILD. -/
def execPreintBuild (reads : Reads) (s : State) : Host.Outcome State Fault Refusal := s.act (Block.preintBuild reads)
/-- PRIOR. -/
def execPrior (r : CmdRef) (s : State) : Host.Outcome State Fault Refusal := s.act (Block.prior r)
/-- POSE_ASSEMBLY. -/
def execPoseAssembly (reads : Reads) (s : State) : Host.Outcome State Fault Refusal := s.act (Block.poseAssembly reads)
/-- PRED_EMIT. -/
def execPredEmit (reads : Reads) (s : State) : Host.Outcome State Fault Refusal := s.act (Block.predEmit reads)

end Sys2Proof.Machine
end

