-- ==== Sys2Proof/Machine/HostLink.lean ====
section
/-! DEFINITION. The commands of the host link (chapter 14): doorbells, fetching, completions, streams, aborts, interrupts and the
sideband. -/

namespace Sys2Proof.Machine

/-- Changes a queue. -/
def Block.onQueue (q : Nat) (f : Queue → Queue) (b : Block) : Block := { b with host := { b.host with queues := b.host.queues.modify q f } }

/-- A queue. -/
def Block.queue (q : Nat) (b : Block) : Queue := b.host.queues.getD q {}

/-- Changes a stream. -/
def Block.onStream (st : Nat) (f : Stream → Stream) (b : Block) : Block := { b with host := { b.host with streams := b.host.streams.modify st f } }

/-- A stream. -/
def Block.stream (st : Nat) (b : Block) : Stream := b.host.streams.getD st {}

/-! ### Doorbells (R470, R472 to R474, R492) -/

/-- DOORBELL_ERR of a queue becomes 1 and fetching from it stops (R473, Table 19-5). -/
def Block.bellError (q : Nat) (b : Block) : Block :=
  let b1 := b.onQueue q fun x => { x with bellErr := true }
  if (b.queue q).bellErr then b1 else b1.cause 2

/-- SQ_TAIL of an enabled queue. -/
def Block.sqTail (q : Fin 16) (value : BitVec 32) (b : Block) : Block :=
  let x := b.queue q
  if !x.enabled || x.bellErr then b
  else if x.sqSize.toNat ≤ value.toNat then b.bellError q
  else if value.toNat = x.sqTail then b
  else b.onQueue q fun x => { x with sqTail := value.toNat, bells := x.bells ++ [(value.toNat, b.now)] }

/-- CQ_HEAD of an enabled queue. -/
def Block.cqHead (q : Fin 16) (value : BitVec 32) (b : Block) : Block :=
  let x := b.queue q
  if !x.enabled || x.bellErr then b
  else if x.cqSize.toNat ≤ value.toNat then b.bellError q
  else b.onQueue q fun x => { x with cqHead := value.toNat }

/-- STREAM_HEAD of an open stream (R492). -/
def Block.streamHead (st : Fin 8) (value : BitVec 32) (b : Block) : Block :=
  let s := b.stream st
  if !s.isOpen then b
  else if s.slots.toNat < (s.tail - value).toNat then
    let b1 := b.onStream st fun s => { s with bellErr := true }
    if s.bellErr then b1 else b1.cause 3
  else b.onStream st fun s => { s with head := value }

/-- Whether an access to BAR2 is one of the doorbells of Table 14-3. -/
def isDoorbell (off size : Nat) : Bool :=
  size == 4 && decide (off < 0xC000) && (off % 0x800 == 0 || (decide (off < 0x8000) && off % 0x800 == 4))

/-- Any other write to BAR2 is ignored and counted (R470). -/
def Block.badBell (off size : Nat) (b : Block) : Block :=
  if isDoorbell off size then b else { b with host := { b.host with badBell := bump b.host.badBell } }

/-! ### Fetching and completing (R472 to R480) -/

/-- Commands of a queue that are completed and not yet consumed. -/
def Queue.unread (x : Queue) : Nat := (x.cqTail + x.cqSize.toNat - x.cqHead) % max 1 x.cqSize.toNat

/-- Whether a queue may fetch its next entry (R472 to R474, R505). -/
def Queue.mayFetch (x : Queue) : Bool :=
  x.enabled && !x.held && !x.bellErr && x.sqHead != x.sqTail && decide (x.cmds.length + x.unread + 1 < x.cqSize.toNat)

/-- The opcodes of Table 14-6. -/
def knownOp (op : Nat) : Bool :=
  [0x01, 0x02, 0x03, 0x04, 0x05, 0x10, 0x11, 0x12, 0x13, 0x14, 0x20, 0x21, 0x30, 0x40, 0x50, 0x51, 0x52, 0x60, 0x61].contains op

/-- A fetched entry: one of no known opcode has ended (R484). -/
def fetchedCmd (entry : BitVec 512) (order : Tick) : Cmd :=
  let op := entry.extractLsb' 0 8
  { id := entry.extractLsb' 32 32, op := op, entry := entry, order := order,
    stage := if knownOp op.toNat then .fetched else .finished
    status := if knownOp op.toNat then 0 else BitVec.ofNat 16 stOpcode }

/-- A queue after it has fetched its next entry. -/
def Queue.fetch (entry : BitVec 512) (now : Tick) (x : Queue) : Queue :=
  let head := (x.sqHead + 1) % x.sqSize.toNat
  { x with
    sqHead := head
    cmds := x.cmds ++ [fetchedCmd entry (match x.bells with | t :: _ => t.2 | [] => now)]
    bells := match x.bells with | t :: ts => if t.1 = head then ts else t :: ts | [] => [] }

/-- COMMAND_FETCH. -/
def Block.commandFetch (q : Fin 16) (entry : BitVec 512) (b : Block) : Block :=
  if b.ready && b.link.live && (b.queue q).mayFetch then b.onQueue q (Queue.fetch entry b.now) else b

/-- The command whose completion a queue may write now: its first, ended, with its parcels written or named by a GAP (R478, R480). -/
def Block.completable (q : Nat) (b : Block) : Option Cmd :=
  match (b.queue q).cmds with
  | c :: _ => if c.stage == .finished && c.outs.all (fun o => b.host.settled o.1 o.2) then some c else none
  | [] => none

/-- COMPLETION_WRITE. -/
def Block.completionWrite (q : Fin 16) (b : Block) : Block :=
  let x := b.queue q
  if b.ready && b.link.live && x.enabled && !x.held then
    match b.completable q with
    | some c => b.writeCompletion q c
    | none => b
  else b

/-- Writes the completions that a queue holds, at most n (R506). -/
def Block.heldCompletions (q : Fin 16) : Nat → Block → Block
  | 0, b => b
  | n + 1, b =>
    match b.completable q with
    | some c => (b.writeCompletion q c).heldCompletions q n
    | none => b

/-! ### NOP, STREAM_OPEN, STREAM_CLOSE -/

/-- NOP. -/
def Block.nop (r : CmdRef) (b : Block) : Block := b.begin r 0x01 (fun _ => true) fun _ b => b.finish r stOk 0 0 0

/-- Whether a number is a power of two from lo to hi. -/
def powerWithin (lo hi n : Nat) : Bool := decide (lo ≤ n) && decide (n ≤ hi) && n == 2 ^ Nat.log2 n

/-- The journal's readout at the first opening of stream 2 in a power-up: JOURNAL_RECORD or JOURNAL_EMPTY, the brown-out log, and
the halt record (R581, R613). -/
def Block.journalReadout (b : Block) : Block :=
  let slot := journalNewest b.thermos.journalUe b.thermos.journal
  let (b1, halt) := match slot with
    | some n =>
      let ps := journalParcels b.thermos.journal n
      (b.eventFrom 0x001B noUnit b.control ps.1.stored [ps.1.ref], ps.2)
    | none => (b.event 0x001C noUnit [], none)
  let count := b.thermos.brownCount.toNat
  let fromN := max b.thermos.brownRead.toNat (count - 32)
  let b2 := (List.range (count - fromN)).foldl (fun b i =>
    b.event 0x001D noUnit (memBytes b.thermos.journal (0xF800 + 64 * ((fromN + i) % 32)) 64)) b1
  let b3 := { b2 with thermos := { b2.thermos with brownRead := b2.thermos.brownCount } }
  match b3.boot.haltDue, halt with
  | true, some h =>
    let b4 := b3.eventFrom 0x001A noUnit b3.control h.stored [h.ref]
    { b4 with boot := { b4.boot with haltDue := false } }
  | _, _ => b3

/-- What waited for the opening of stream 2 (R409, R581, R613). -/
def Block.streamTwoOpened (b : Block) : Block :=
  let b1 := if b.boot.stream2Opened then b else { b.journalReadout with boot := { b.journalReadout.boot with stream2Opened := true } }
  if b1.den.degradedDue then
    Block.event 0x0025 noUnit ([b1.den.populated.setWidth 8, b1.den.trained.setWidth 8, b1.den.channels.setWidth 8, 0]
      ++ leBytes 2 b1.den.usableMib.toNat) { b1 with den := { b1.den with degradedDue := false } }
  else b1

/-- A stream as STREAM_OPEN leaves it: held while the link is lost (R489, R490, R505). -/
def Stream.opened (c : Cmd) (live : Bool) (s : Stream) : Stream :=
  { s with
    isOpen := true, held := !live, base := BitVec.ofNat 64 (c.arg 32 8), tailAddr := BitVec.ofNat 64 (c.arg 40 8)
    slots := BitVec.ofNat 32 (c.arg 28 4), coalCount := BitVec.ofNat 8 (c.arg 26 1), coalUs := BitVec.ofNat 16 (c.arg 48 2)
    tail := 0, head := 0, out := [], gap := none, unsig := 0 }

/-- STREAM_OPEN: RESULT0 is the first SEQ that will be written (R489, R496). `ue` marks the journal slots in which the readout of the journal
finds an uncorrectable error (R612). -/
def Block.streamOpen (r : CmdRef) (ue : BitVec 2) (b : Block) : Block :=
  b.begin r 0x02 (fun c => decide (c.arg 24 1 < 8) && decide (1 ≤ c.arg 26 1)) fun c b =>
    let st := c.arg 24 1
    let s := b.stream st
    if s.isOpen then b.finish r stStream 0 0 0
    else if c.arg 32 8 % 4096 ≠ 0 || !powerWithin 16 65536 (c.arg 28 4) || c.arg 40 8 % 8 ≠ 0 then b.finish r stRing 0 0 0
    else
      Block.finish r stOk 0 s.nextSeq.toNat 0
        (b.forCmd r fun b =>
          let b1 := b.onStream st (Stream.opened c b.link.live)
          if st = 2 then
            Block.streamTwoOpened { b1 with thermos := { b1.thermos with
              journalUe := if b1.boot.stream2Opened then b1.thermos.journalUe else b1.thermos.journalUe ||| ue } }
          else b1)

/-- STREAM_CLOSE: RESULT0 is the SEQ of the last parcel written (R496). -/
def Block.streamClose (r : CmdRef) (b : Block) : Block :=
  b.begin r 0x03 (fun c => decide (c.arg 24 1 < 8)) fun c b =>
    let s := b.stream (c.arg 24 1)
    if !s.isOpen then b.finish r stStream 0 0 0
    else (b.onStream (c.arg 24 1) Stream.shut).finish r stOk 0 s.lastSeq.toNat 0

/-! ### ABORT (R485 to R488) -/

/-- Ends the first unexecuted ABORT of a CMD_ID. -/
def endAbort (id : BitVec 32) (status : Nat) : List Cmd → List Cmd
  | [] => []
  | c :: cs =>
    if c.id == id && c.op == 0x04 && c.stage == .fetched then
      { c with stage := .finished, status := BitVec.ofNat 16 status } :: cs
    else c :: endAbort id status cs

/-- ABORT, executed as soon as it is fetched (R485, R486). -/
def Block.abort (r : CmdRef) (b : Block) : Block :=
  match (b.queue r.q).cmds.find? fun c => c.id == r.id && c.op == 0x04 && c.stage == .fetched with
  | none => b
  | some c =>
    let fin (status : Nat) (b : Block) : Block := b.onQueue r.q fun x => { x with cmds := endAbort r.id status x.cmds }
    if !b.ready then b
    else if !c.fieldsOk fun c => decide (c.arg 24 1 < 16) then fin stField b
    else
      let t : CmdRef := ⟨Fin.ofNat 16 (c.arg 24 1), BitVec.ofNat 32 (c.arg 28 4)⟩
      match (b.queue t.q).cmds.find? fun c => c.id == t.id with
      | none => fin stNothing b
      | some x => if x.op == 0x04 || b.pastCommit t x then fin stNothing b else fin stOk (b.abortCmd t).owlEnter

/-! ### Streams (R488 to R496, R506) -/

/-- Writes a parcel into the next slot of a ring, then the tail record (R490). -/
def Block.putSlot (st : Nat) (p : Parcel) (b : Block) : Block :=
  let s := b.stream st
  let addr := s.base + BitVec.ofNat 64 (s.tail.toNat % max 1 s.slots.toNat * slotSize st)
  let b1 := (b.drive (.memWrite addr p.stored)).drive (.memWrite s.tailAddr (leBytes 4 (s.tail + 1).toNat ++ leBytes 4 p.seq.toNat))
  (b1.onStream st fun s => { s with tail := s.tail + 1, lastSeq := p.seq, written := true }).streamSignal st

/-- The cause code of a GAP (R495). -/
def gapCode : GapCause → Nat
  | .ringFull => 1 | .link => 2 | .egress => 3

/-- Writes the GAP for a stream's missing SEQs (R495). -/
def Block.putGap (st : Nat) (b : Block) : Block :=
  match (b.stream st).gap with
  | none => b
  | some (f, l, c) =>
    let p := sealParcel b.chip 0x0F01 (BitVec.ofNat 8 st) f b.control
      (leBytes 4 f.toNat ++ leBytes 4 l.toNat ++ leBytes 4 (l - f + 1).toNat ++ leBytes 1 (gapCode c) ++ [0, 0, 0]) []
    (b.onStream st fun s => { s with gap := none }).putSlot st p

/-- The host link's unit ID. -/
def hostLinkUnit : BitVec 8 := 0x01

/-- Writes a checked parcel: when too few slots are free, counting the GAP's own, it joins the missing SEQs (R491, R495). -/
def Block.putParcel (st : Nat) (p : Parcel) (b : Block) : Block :=
  let s := b.stream st
  if s.free < 2 + s.gap.isSome.toNat then b.onStream st (Stream.miss p.seq .ringFull)
  else (b.putGap st).putSlot st p

/-- STREAM_PARCEL_WRITE: the host link checks the oldest sealed parcel (R178, R188) and writes it. -/
def Block.parcelWrite (st : Fin 8) (seen : Seen) (b : Block) : Block :=
  let s := b.stream st
  match s.out with
  | [] => b
  | p :: ps =>
    if !b.ready || !b.link.live || !s.isOpen || s.held then b
    else
      let b1 := b.onStream st fun s => { s with out := ps }
      match b1.verify p seen hostLinkUnit with
      | (some _, b2) => b2.putParcel st p
      | (none, b2) => b2.onStream st fun s => if s.isOpen then s.miss p.seq .egress else s

/-- STREAM_CTRL.RESUME: a held stream first writes the GAP, which needs one free slot (R506). -/
def Block.streamResume (st : Fin 8) (b : Block) : Block :=
  let s := b.stream st
  if b.ready && s.isOpen && s.held && b.link.live then
    let b1 := b.onStream st fun s => { s with held := false }
    if 1 ≤ s.free then b1.putGap st else b1
  else b

/-- STREAM_CTRL.RESET: an open stream closes without writing anything further (R507, R654). -/
def Block.streamReset (st : Fin 8) (b : Block) : Block :=
  if b.ready && (b.stream st).isOpen then b.onStream st Stream.shut else b

/-! ### Queue control (R471, R506, R507, R653) -/

/-- Whether a queue's configuration lets it be enabled (R471). -/
def Block.queueOk (x : Queue) (b : Block) : Bool :=
  b.feat.done && x.sqBase.toNat % 4096 == 0 && x.cqBase.toNat % 4096 == 0 && powerWithin 2 4096 x.sqSize.toNat
    && powerWithin x.sqSize.toNat 4096 x.cqSize.toNat

/-- Q_CTRL.ENABLE written 1. -/
def Block.qEnable (q : Fin 16) (b : Block) : Block :=
  let x := b.queue q
  if x.enabled || !b.ready then b
  else if b.queueOk x then
    b.onQueue q fun x => { x with
      enabled := true, configErr := false, bellErr := false, held := !b.link.live, sqHead := 0, sqTail := 0, cqHead := 0, cqTail := 0,
      phase := true, cmds := [], bells := [], unsig := 0 }
  else
    let b1 := b.onQueue q fun x => { x with configErr := true }
    if x.configErr then b1 else b1.cause 2

/-- Q_CTRL.ENABLE written 0. -/
def Block.qDisable (q : Fin 16) (b : Block) : Block := if b.ready then (b.queueOff q).owlEnter else b

/-- Q_CTRL.RESUME: a held queue first writes its held completions in order (R506). -/
def Block.qResume (q : Fin 16) (b : Block) : Block :=
  let x := b.queue q
  if b.ready && x.enabled && x.held && b.link.live then
    (b.onQueue q fun x => { x with held := false }).heldCompletions q x.cmds.length
  else b

/-! ### Interrupts (R508) -/

/-- Whether a coalescing time has run out. -/
def coalDue (unsig : Nat) (unsigAt now : Tick) (usec : Nat) : Bool := decide (0 < unsig) && decide (unsigAt + us usec ≤ now)

/-- The streams of a vector whose coalescing time has run out (Table 14-8). -/
def Block.dueStreams (v : Nat) (b : Block) : List Nat :=
  (List.range 8).filter fun st =>
    let s := b.stream st
    b.streamVector st == v && coalDue s.unsig s.unsigAt b.now s.coalUs.toNat

/-- MSIX_COALESCE_TIMER. -/
def Block.coalesceTimer (v : Fin 32) (b : Block) : Block :=
  let q := v.val - 1
  let x := b.queue q
  if 1 ≤ v.val && v.val ≤ 16 then
    if coalDue x.unsig x.unsigAt b.now x.coalUs.toNat then (b.onQueue q fun x => { x with unsig := 0 }).signal v else b
  else
    let ss := b.dueStreams v
    if ss.isEmpty then b else (ss.foldl (fun b st => b.onStream st fun s => { s with unsig := 0 }) b).signal v

/-! ### Sideband (R510 to R513, R675) -/

/-- The status block (Table 14-10) with a count of mirror updates. -/
def Block.statusBlock (updates : BitVec 32) (b : Block) : Bytes :=
  let body := leBytes 2 1 ++ leBytes 1 (phaseCode b.boot.phase) ++ leBytes 1 (helloCode b.feat.state)
    ++ [b.boot.causeA, b.boot.causeB] ++ leBytes 3 b.flt.capacity.toNat
    ++ leBytes 1 (b.link.up.toNat + 2 * b.thermos.timeLost.toNat + 4 * b.den.dramAbsent.toNat + 8 * b.boot.custKeyBlank.toNat
      + 16 * b.pwr.paused.toNat) ++ [0, 0]
    ++ leBytes 4 b.thermos.tbEpoch.toNat ++ leBytes 8 b.now ++ leBytes 8 b.ep.now.toNat ++ leBytes 4 updates.toNat
    ++ leBytes 4 b.flt.sealFaults.toNat
  let body := fit 60 body
  body ++ leBytes 4 (crc32c body).toNat

/-- The pose mirror's bytes: header, payload and seal. -/
def mirrorBytes (m : Option Parcel) : Bytes :=
  match m with
  | some p => fit 280 (p.header ++ p.payload ++ leBytes 8 p.sealWord.toNat)
  | none => List.replicate 280 0

/-- The copy that a transaction latches (R512); during an exit from L1.2 the mirror may be the one before the latest, a free choice
(R675, log entry 5). -/
def Block.sidebandCopy (b : Block) : Bytes :=
  let old : Bool := b.link.pm == .l12exit && b.freeNow.getLsbD 0
  let m := if !b.committed featMirror then none else if old then b.afu.mirrorPrev else b.afu.mirror
  fit 1024 (b.statusBlock (if old then b.afu.mirrorNo - 1 else b.afu.mirrorNo) ++ mirrorBytes m)

/-- SIDEBAND_READ of a count of bytes; any other command byte returns zeros (R511). -/
def Block.sidebandRead (command : Byte) (addr : BitVec 16) (count : Nat) (b : Block) : Block :=
  if b.boot.phase == .thermosPor then b
  else if command = 0x0B then
    let m := b.sidebandCopy
    (b.drive (.sideband ((List.range count).map fun i => m.getD ((addr.toNat + i) % 1024) 0))).drew
  else b.drive (.sideband (List.replicate count 0))

/-! ### Exec -/

/-- SQ_TAIL_DOORBELL. -/
def execSqTailDoorbell (q : Fin 16) (value : BitVec 32) (s : State) : Host.Outcome State Fault Refusal := s.act (Block.sqTail q value)
/-- CQ_HEAD_DOORBELL. -/
def execCqHeadDoorbell (q : Fin 16) (value : BitVec 32) (s : State) : Host.Outcome State Fault Refusal := s.act (Block.cqHead q value)
/-- STREAM_HEAD_DOORBELL. -/
def execStreamHeadDoorbell (st : Fin 8) (value : BitVec 32) (s : State) : Host.Outcome State Fault Refusal :=
  s.act (Block.streamHead st value)
/-- BAD_DOORBELL. -/
def execBadDoorbell (off size : Nat) (s : State) : Host.Outcome State Fault Refusal := s.act (Block.badBell off size)
/-- COMMAND_FETCH. -/
def execCommandFetch (q : Fin 16) (entry : BitVec 512) (s : State) : Host.Outcome State Fault Refusal := s.act (Block.commandFetch q entry)
/-- COMPLETION_WRITE. -/
def execCompletionWrite (q : Fin 16) (s : State) : Host.Outcome State Fault Refusal := s.act (Block.completionWrite q)
/-- NOP. -/
def execNop (r : CmdRef) (s : State) : Host.Outcome State Fault Refusal := s.act (Block.nop r)
/-- STREAM_OPEN. -/
def execStreamOpen (r : CmdRef) (journalUe : BitVec 2) (s : State) : Host.Outcome State Fault Refusal := s.act (Block.streamOpen r journalUe)
/-- STREAM_CLOSE. -/
def execStreamClose (r : CmdRef) (s : State) : Host.Outcome State Fault Refusal := s.act (Block.streamClose r)
/-- ABORT. -/
def execAbort (r : CmdRef) (s : State) : Host.Outcome State Fault Refusal := s.act (Block.abort r)
/-- STREAM_PARCEL_WRITE. -/
def execStreamParcelWrite (st : Fin 8) (seen : Seen) (s : State) : Host.Outcome State Fault Refusal := s.act (Block.parcelWrite st seen)
/-- MSIX_COALESCE_TIMER. -/
def execMsixCoalesceTimer (vector : Fin 32) (s : State) : Host.Outcome State Fault Refusal := s.act (Block.coalesceTimer vector)
/-- Q_ENABLE. -/
def execQEnable (q : Fin 16) (s : State) : Host.Outcome State Fault Refusal := s.act (Block.qEnable q)
/-- Q_DISABLE. -/
def execQDisable (q : Fin 16) (s : State) : Host.Outcome State Fault Refusal := s.act (Block.qDisable q)
/-- Q_RESUME. -/
def execQResume (q : Fin 16) (s : State) : Host.Outcome State Fault Refusal := s.act (Block.qResume q)
/-- STREAM_RESUME. -/
def execStreamResume (st : Fin 8) (s : State) : Host.Outcome State Fault Refusal := s.act (Block.streamResume st)
/-- STREAM_RESET. -/
def execStreamReset (st : Fin 8) (s : State) : Host.Outcome State Fault Refusal := s.act (Block.streamReset st)
/-- SIDEBAND_READ. -/
def execSidebandRead (command : Byte) (addr : BitVec 16) (count : Nat) (s : State) : Host.Outcome State Fault Refusal :=
  s.act (Block.sidebandRead command addr count)

end Sys2Proof.Machine
end

