-- ==== Sys2Proof/Machine/CheckOps.lean ====
section
/-! DEFINITION. What CHECK tests (R105 to R110, Table 03-7), with the rules that the page chapters give it. Of several failures it
reports the first in page position, then byte offset, then byte offset of the model field (R325), then code (log entry 24). -/

namespace Sys2Proof.Machine

/-- A set to test, and what it is tested against: the active set (none at SETTINGS_LOAD, where no unit runs), the features of R110, the
package, the lanes an integrator connects, and the Owl models of the hamper and of the host. -/
structure CheckIn where
  set     : List Memory
  active  : Option (List Memory)
  feats   : BitVec 128
  package : Package
  wired   : BitVec 18
  hamper  : List (Option Bytes)
  host    : List (Option Bytes)

/-- A failure: position, byte offset, model byte offset, code. -/
structure Finding where
  page  : Nat
  field : Nat
  moff  : Nat
  code  : Nat
deriving DecidableEq, Repr

/-- The order of failures (R108). -/
def Finding.key (f : Finding) : Nat := ((f.page * 2 ^ 12 + f.field) * 2 ^ 32 + f.moff) * 2 ^ 8 + f.code

/-- The offset that MODEL_ERR_OFFSET holds when no model field failed. -/
def noModelErr : Nat := 0xFFFFFFFF

/-- Failures of one page. -/
def onPage (pos : Nat) (l : List (Nat × Nat)) : List Finding := l.map fun (off, code) => ⟨pos, off, noModelErr, code⟩

/-- A failure under a condition. -/
def fails (bad : Bool) (off code : Nat) : List (Nat × Nat) := if bad then [(off, code)] else []

/-- FIELD_RANGE unless a value lies between two. -/
def rangeOf (off v lo hi : Nat) : List (Nat × Nat) := fails (decide (v < lo) || decide (hi < v)) off 7

/-- FIELD_RANGE unless a value lies between two or is 0xFF. -/
def rangeOrNone (off v lo hi : Nat) : List (Nat × Nat) := if v = 0xFF then [] else rangeOf off v lo hi

/-- A field of a page of the set. -/
def CheckIn.f (c : CheckIn) (t k off n : Nat) : Nat := memField (pageAt c.set t k) off n
/-- A signed 32-bit field of a page of the set. -/
def CheckIn.s (c : CheckIn) (t k off : Nat) : Int := signedOf 32 (c.f t k off 4)
/-- Whether the set holds a page. -/
def CheckIn.has (c : CheckIn) (t k : Nat) : Bool := (pagePos c.set t k).isSome
/-- The position of a page. -/
def CheckIn.pos (c : CheckIn) (t k : Nat) : Nat := (pagePos c.set t k).getD 0
/-- Whether R110's features hold a bit. -/
def CheckIn.feat (c : CheckIn) (i : Nat) : Bool := c.feats.getLsbD i
/-- A rule of the page of a type and instance, when the set holds it. -/
def CheckIn.on (c : CheckIn) (t k : Nat) (l : List (Nat × Nat)) : List Finding := if c.has t k then onPage (c.pos t k) l else []

/-! ### Headers and reserved fields (Tables 03-1 and 03-2) -/

/-- The defined bits of a byte of an event unit (Table 07-5). -/
def eventBits (a : Nat) : Nat := if a = 1 then 7 else if a < 18 then 0xFF else 0

/-- The defined bits of a byte of an IFC channel record (Table 07-1). -/
def channelBits (a : Nat) : Nat :=
  if a ≤ 8 then 0xFF else if a < 16 then 0 else if a < 80 then 0xFF else if a < 104 then eventBits (a - 80) else eventBits (a - 104)

/-- The defined bits of a body byte, by page type (R84 and the page tables). -/
def bodyBits (t a : Nat) : Nat :=
  let all (b : Bool) : Nat := if b then 0xFF else 0
  match t with
  | 1 => all (a ≤ 18 || a = 20 || a = 21 || (256 ≤ a && a ≤ 277) || (280 ≤ a && a ≤ 297))
  | 2 =>
    if a = 35 then 3 else if a = 41 then 0x0F
    else all (a ≤ 18 || (20 ≤ a && a ≤ 29) || (32 ≤ a && a ≤ 36) || (40 ≤ a && a ≤ 78) || (96 ≤ a && a ≤ 147)
      || (152 ≤ a && a < 344 && ((a - 152) % 12 = 0 || 4 ≤ (a - 152) % 12)))
  | 3 => if a = 16 then 3 else if a < 64 || 832 ≤ a then 0 else channelBits ((a - 64) % 128)
  | 4 => all (a ≤ 17 || (32 ≤ a && a < 800))
  | 5 => all (a ≤ 19 || (64 ≤ a && a < 1600 && ((a - 64) % 48 = 0 || (4 ≤ (a - 64) % 48 && (a - 64) % 48 < 40))))
  | 6 => all (a ≤ 17 || (20 ≤ a && a ≤ 59) || (64 ≤ a && a ≤ 97))
  | 7 => all (a ≤ 24 || (28 ≤ a && a ≤ 31) || (32 ≤ a && a < 128 && (a - 32) % 16 < 12) || a = 128 || (256 ≤ a && a < 1280))
  | 8 => if a = 25 then 1 else all (a ≤ 24 || (28 ≤ a && a ≤ 31))
  | 9 => all (a ≤ 38 || (40 ≤ a && a ≤ 51))
  | 10 => all (a ≤ 38 || (40 ≤ a && a ≤ 48) || (52 ≤ a && a ≤ 55))
  | _ =>
    if 2048 ≤ a && a < 3072 then (if a % 2 = 1 then 0x80 else 0xFF)
    else all (a = 16 || (18 ≤ a && a ≤ 24) || a = 26 || a = 27 || (32 ≤ a && a ≤ 49) || (56 ≤ a && a ≤ 73) || (80 ≤ a && a ≤ 95))

/-- The defined bits of a page byte. -/
def definedBits (t a : Nat) : Nat := if a < 6 then 0xFF else if a < 16 then 0 else bodyBits t a

/-- The greatest INSTANCE of a page type (Table 03-2). -/
def maxInstance (t : Nat) : Nat :=
  match t with
  | 2 => 5 | 3 => 3 | 4 => 23 | 8 => 7 | _ => 0

/-- What the header and the reserved fields of the page at a position fail (codes 0x01 to 0x05). Of the reserved bytes the first that is not
zero is named (DEDUCED, log entry 24). An empty position is not tested; of two
pages of one type and INSTANCE the later is the duplicate. -/
def CheckIn.header (c : CheckIn) (pos : Nat) : List (Nat × Nat) :=
  let p := c.set.getD pos []
  let t := memField p 0 2
  if t = 0 then []
  else if 11 < t then [(0, 1)]
  else
    fails (memField p 2 2 != 1) 2 2 ++ fails (memField p 4 1 != pos) 4 3
      ++ fails (decide (maxInstance t < memField p 5 1) || pagePos c.set t (memField p 5 1) != some pos) 5 5
      ++ (match p.find? fun (a, v) => (v &&& ~~~(BitVec.ofNat 8 (definedBits t a))) != 0 with
          | some (a, _) => [(a, 4)]
          | none => [])

/-! ### The engine core (R32, R121, R122, R358) -/

/-- EPOCH_RATE_HZ of the set, at least 1. -/
def CheckIn.rate (c : CheckIn) : Nat := max 1 (memField (corePage c.set) 16 1)

/-- The shortest epoch at the set's rate (R123). -/
def CheckIn.epoch (c : CheckIn) : Nat := 250000000 / c.rate

/-- What the engine-core page fails. -/
def CheckIn.core (c : CheckIn) : List (Nat × Nat) :=
  let v (off n : Nat) : Nat := memField (corePage c.set) off n
  rangeOf 16 (v 16 1) 30 240 ++ fails (decide (120 < v 16 1) && !c.feat featRate240) 16 0xC
    ++ rangeOf 17 (v 17 1) 0 5 ++ fails (decide (v 17 1 ≤ 5) && !(c.has 2 (v 17 1) && c.f 2 (v 17 1) 16 1 == 1)) 17 9
    ++ rangeOf 18 (v 18 1) 0 2 ++ rangeOf 20 (v 20 2) 0 1000
    ++ fails (decide (c.epoch ≤ v 256 4)) 256 0xB
    ++ rangeOf 260 (v 260 1) 0 1 ++ rangeOf 261 (v 261 1) 0 1 ++ rangeOf 262 (v 262 1) 0 1
    ++ fails (v 264 4 == 0) 264 7 ++ fails (v 268 4 == 0) 268 7
    ++ rangeOf 272 (v 272 1) 8 30 ++ rangeOf 273 (v 273 1) 4 29 ++ fails (decide (v 272 1 ≤ v 273 1)) 273 7
    ++ fails (v 284 4 == 0) 284 7 ++ rangeOf 288 (v 288 1) 1 16 ++ rangeOrNone 289 (v 289 1) 0 15
    ++ rangeOf 290 (v 290 2) 1 256 ++ fails (v 296 2 == 0) 296 7

/-! ### Sensor ports (R195 to R229, R679) -/

/-- Bits per pixel of a pixel data type (Table 06-2); 0 for one it does not list. -/
def pixelBits (dt : Nat) : Nat :=
  match dt with
  | 0x2A => 8 | 0x2B => 10 | 0x2C => 12 | 0x2D => 14 | 0x2E => 16 | _ => 0

/-- The enabled receivers, and the enabled inertial slots, in order of page position. -/
def CheckIn.rx (c : CheckIn) : List Nat :=
  sortBy (fun i j => decide (c.pos 2 i ≤ c.pos 2 j)) ((List.range 6).filter fun k => c.has 2 k && c.f 2 k 16 1 == 1)
def CheckIn.slots (c : CheckIn) : List Nat :=
  sortBy (fun i j => decide (c.pos 2 i ≤ c.pos 2 j)) ((List.range 6).filter fun k => c.has 2 k && c.f 2 k 96 1 == 1)

/-- The greatest LANE_RATE of a port (Table 06-3). -/
def maxLaneRate (k : Nat) (cphy : Bool) : Nat := if cphy && 4 ≤ k then 6000000 else 4500000

/-- What an enabled receiver fails (Table 06-1, R137, R197, R198, R226). A receiver's own rates against its link name LANE_RATE (log entry 24). -/
def CheckIn.receiver (c : CheckIn) (k : Nat) : List (Nat × Nat) :=
  let v (off n : Nat) : Nat := c.f 2 k off n
  let cphy := v 17 1 == 1
  let vc := if v 28 1 = 0 then 3 else 15
  rangeOf 17 (v 17 1) 0 1 ++ rangeOf 18 (v 18 1) 1 (if cphy then 3 else 4) ++ rangeOf 20 (v 20 4) 80000 (maxLaneRate k cphy)
    ++ rangeOf 24 (v 24 2) 1 4088 ++ rangeOf 26 (v 26 2) 1 4096 ++ rangeOf 28 (v 28 1) 0 1 ++ fails (cphy && v 28 1 == 0) 28 7
    ++ rangeOf 32 (v 32 1) 0 vc ++ fails (pixelBits (v 33 1) == 0) 33 7
    ++ rangeOf 36 (v 36 1) 0 (if (v 35 1).testBit 0 then vc else 15) ++ rangeOf 40 (v 40 1) 0 1 ++ rangeOf 42 (v 42 1) 0 1
    ++ rangeOrNone 43 (v 43 1) 0 7 ++ rangeOf 68 (v 68 4) 0 c.epoch ++ fails (v 72 4 == 0) 72 7 ++ rangeOf 76 (v 76 1) 0 1
    ++ rangeOf 77 (v 77 1) 1 8 ++ fails (decide (max 1 (v 77 1) ≤ v 78 1)) 78 7
    ++ fails (decide (9 * (v 18 1 * v 20 4 * 1000) * max 1 (v 77 1) * (if cphy then 16 else 1)
        < 10 * (v 24 2 * v 26 2 * pixelBits (v 33 1) * c.rate) * (if cphy then 7 else 1))) 20 0xD

/-- The greatest BUS_CLOCK of an I3C bus mode (Table 06-1, R679). -/
def maxClock (mode : Nat) : Nat := match mode with | 0 => 12500000 | 1 => 10000000 | _ => 1000000

/-- What an enabled inertial slot fails (Table 06-1, R214, R220, R679). -/
def CheckIn.slot (c : CheckIn) (k : Nat) : List (Nat × Nat) :=
  let v (off n : Nat) : Nat := c.f 2 k off n
  let spi := decide (v 97 1 < 2)
  rangeOf 97 (v 97 1) 0 3 ++ rangeOf 98 (v 98 1) 0 (if spi then 1 else 127)
    ++ (if spi then rangeOf 100 (v 100 4) 1 25000000 ++ fails (v 104 1 != 0 && v 104 1 != 3) 104 7
        else rangeOf 99 (v 99 1) 0 2 ++ rangeOf 100 (v 100 4) 1 (maxClock (v 99 1)))
    ++ rangeOrNone 105 (v 105 1) 0 3 ++ fails (v 105 1 == 0xFF && v 136 4 == 0) 105 7 ++ rangeOf 106 (v 106 1) 0 1
    ++ rangeOf 107 (v 107 1) 1 2 ++ rangeOf 110 (v 110 1) 1 32 ++ rangeOf 111 (v 111 1) 1 8 ++ rangeOf 112 (v 112 1) 2 4
    ++ rangeOf 113 (v 113 1) 8 (8 * v 112 1) ++ rangeOf 114 (v 114 1) 0 1 ++ rangeOf 115 (v 115 1) 0 1
    ++ rangeOf 116 (v 116 1) 0 15 ++ fails (decide (v 110 1 ≤ v 117 1)) 117 7 ++ rangeOf 118 (v 118 1) 0 7 ++ rangeOf 119 (v 119 1) 1 4
    ++ ((List.range 8).flatMap fun i =>
        rangeOrNone (121 + 2 * i) (v (121 + 2 * i) 1) 0 23
          ++ fails (decide (i < v 111 1) && v (121 + 2 * i) 1 != 0xFF && decide (v 110 1 < v (120 + 2 * i) 1 + v 112 1)) (120 + 2 * i) 7)
    ++ rangeOf 144 (v 144 4) 1 32000
    ++ ((List.range 16).flatMap fun i => rangeOf (152 + 12 * i) (v (152 + 12 * i) 1) 0 1)

/-- The IFC channels a slot maps, with the offsets of their fields. -/
def CheckIn.maps (c : CheckIn) (k : Nat) : List (Nat × Nat) :=
  ((List.range (min 8 (c.f 2 k 111 1))).map fun i => (c.f 2 k (121 + 2 * i) 1, 121 + 2 * i)).filter fun m => decide (m.1 < 24)

/-- The enabled slot that maps an IFC channel. -/
def CheckIn.slotOf (c : CheckIn) (ch : Nat) : Option Nat := c.slots.find? fun k => (c.maps k).any fun m => m.1 == ch

/-- R227 over the receivers in order: the ports at whose page the load stands above a limit. -/
def CheckIn.portLoad (c : CheckIn) : List Nat :=
  let step (acc : Nat × Nat × List Nat) (k : Nat) : Nat × Nat × List Nat :=
    -- pixels and bits per second, over the 840 that every FRAME_DIV divides
    let px := c.f 2 k 24 2 * c.f 2 k 26 2 * c.rate * 840 / max 1 (c.f 2 k 77 1)
    let pix := acc.1 + px
    let bits := acc.2.1 + px * pixelBits (c.f 2 k 33 1)
    (pix, bits, if 40000000000 * 840 < bits || 1600000000 * 840 < pix then acc.2.2 ++ [k] else acc.2.2)
  (c.rx.foldl step (0, 0, [])).2.2

/-- R229 over the slots of a controller in order: the slots at whose page its load stands above 0.8. -/
def CheckIn.busLoad (c : CheckIn) (bus : Nat) : List Nat :=
  let step (acc : (Nat × Nat) × List Nat) (k : Nat) : (Nat × Nat) × List Nat :=
    let clk := max 1 (c.f 2 k 100 4)
    let n := c.f 2 k 144 4 * ((c.f 2 k 107 1 + c.f 2 k 110 1) * 80000000 + clk)
    let d := clk * 10000000
    let sum := (acc.1.1 * d + n * acc.1.2, acc.1.2 * d)
    (sum, if 4 * sum.2 < 5 * sum.1 then acc.2 ++ [k] else acc.2)
  ((c.slots.filter fun k => c.f 2 k 97 1 == bus).foldl step ((0, 1), [])).2

/-- The fields of a trigger (R137). -/
def CheckIn.trig (c : CheckIn) (k : Nat) : List Nat :=
  [c.f 2 k 68 4, c.f 2 k 72 4, c.f 2 k 76 1, c.f 2 k 77 1, c.f 2 k 78 1]

/-- What the port pages fail among themselves (R218, R227 to R229, and two receivers that time one TRIG pin differently). DEDUCED (log entry
24): of a sum over pages the field named is WIDTH (R227) or DECLARED_RATE (R229) of the page that crosses the limit. -/
def CheckIn.portCross (c : CheckIn) (k : Nat) : List (Nat × Nat) :=
  let others (l : List Nat) : List Nat := l.filter (· != k)
  let rx := c.rx.contains k
  let sl := c.slots.contains k
  let bus := c.f 2 k 97 1
  fails (rx && (others c.rx).any fun j => c.f 2 j 34 1 == c.f 2 k 34 1) 34 0xE
    ++ fails (rx && decide (c.f 2 k 43 1 < 8) && (others c.rx).any fun j => c.f 2 j 43 1 == c.f 2 k 43 1 && c.trig j != c.trig k) 43 0xE
    ++ fails (rx && c.portLoad.contains k) 24 0xD
    ++ fails (sl && (others c.slots).any fun j => c.f 2 j 97 1 == bus && c.f 2 j 98 1 == c.f 2 k 98 1) 98 0xE
    ++ fails (sl && decide (2 ≤ bus) && (others c.slots).any fun j => c.f 2 j 97 1 == bus && c.f 2 j 99 1 != c.f 2 k 99 1) 99 0xE
    ++ (if sl then (c.maps k).flatMap fun (ch, off) => fails ((others c.slots).any fun j => (c.maps j).any fun m => m.1 == ch) off 0xE else [])
    ++ fails (sl && (c.busLoad bus).contains k) 144 0xD

/-- What a sensor-port page fails. The fields of a receiver or slot that is disabled are not tested but for its enable and CAMERA_ID (log
entry 78). -/
def CheckIn.port (c : CheckIn) (k : Nat) : List (Nat × Nat) :=
  rangeOf 16 (c.f 2 k 16 1) 0 1 ++ rangeOf 34 (c.f 2 k 34 1) 0 5 ++ rangeOf 96 (c.f 2 k 96 1) 0 1
    ++ (if c.f 2 k 16 1 = 1 then c.receiver k else []) ++ (if c.f 2 k 96 1 = 1 then c.slot k else []) ++ c.portCross k

/-! ### The inertial filter chain (R233, R242 to R245, R257, R261) -/

/-- A field of an IFC channel's record. -/
def CheckIn.ch (c : CheckIn) (i off n : Nat) : Nat := c.f 3 (i / 6) (64 + 128 * (i % 6) + off) n
/-- Whether an IFC channel is enabled. -/
def CheckIn.chOn (c : CheckIn) (i : Nat) : Bool := c.has 3 (i / 6) && c.ch i 0 1 == 1
/-- Whether an event unit is on: its channel enabled and its KIND not Off. -/
def CheckIn.evOn (c : CheckIn) (i u : Nat) : Bool := c.chOn i && c.ch i (80 + 24 * u) 1 != 0
/-- Whether an event unit drives a TRIG pin. -/
def CheckIn.evDrives (c : CheckIn) (i u : Nat) : Bool := c.evOn i u && (c.ch i (81 + 24 * u) 1).testBit 2

/-- What an event unit fails, offsets within the channel record. A window whose levels are out of order names LEVEL_B, one that HYST is too
wide for names HYST (R257, log entry 24). -/
def CheckIn.event (c : CheckIn) (i u : Nat) : List (Nat × Nat) :=
  let o := 80 + 24 * u
  let v (off n : Nat) : Nat := c.ch i (o + off) n
  let lo := signedOf 32 (v 4 4)
  let hi := signedOf 32 (v 8 4)
  let hyst := signedOf 32 (v 12 4)
  let pin := v 2 1
  -- a negative HYST fails whatever KIND and ENABLE hold (R257)
  fails (decide (hyst < 0)) (o + 12) 7 ++
  (if v 0 1 = 0 || !c.chOn i then []
   else
    rangeOf o (v 0 1) 0 4
      ++ (if 3 ≤ v 0 1 then fails (decide (hi ≤ lo)) (o + 8) 7 ++ fails (decide (hi - lo < 2 * hyst)) (o + 12) 7 else [])
      ++ fails ((v 1 1).testBit 1 && !c.feat featWake) (o + 1) 0xC
      ++ (if (v 1 1).testBit 2 then
            rangeOf (o + 2) pin 0 7 ++ rangeOf (o + 3) (v 3 1) 0 1
              ++ fails (c.rx.any (fun k => decide (pin < 8) && c.f 2 k 43 1 == pin)
                  || (List.range 24).any fun j => (List.range 2).any fun w =>
                      (j != i || w != u) && c.evDrives j w && c.ch j (82 + 24 * w) 1 == pin) (o + 2) 0xE
          else []))

/-- What an IFC channel fails, offsets within its record. Of a disabled channel only ENABLE, COMMON_FRAC (R10) and each HYST (R257) are tested
(log entry 78). -/
def CheckIn.channel (c : CheckIn) (i : Nat) : List (Nat × Nat) :=
  let v (off n : Nat) : Nat := c.ch i off n
  let t := v 4 2
  let d := v 6 1
  rangeOf 0 (v 0 1) 0 1 ++ fails (decide (31 < v 8 1)) 8 8 ++ c.event i 0 ++ c.event i 1 ++
  (if v 0 1 ≠ 1 then []
   else
    rangeOf 1 (v 1 1) 0 1 ++ rangeOf 2 (v 2 1) 0 23 ++ rangeOf 3 (v 3 1) 0 1 ++ rangeOf 6 d 1 64
      ++ (if v 1 1 = 1 then fails (d == 1) 6 7 ++ fails (decide (45 < d)) 6 0xD ++ fails (v 7 1 != 0) 7 7
          else
            rangeOf 4 t 1 384 ++ fails (decide (2048 < t * d)) 4 0xD ++ fails (decide (v 2 1 ≤ 23) && !c.has 4 (v 2 1)) 2 9
              ++ fails (c.has 4 (v 2 1) && decide ((t - 1) * 256 < c.f 4 (v 2 1) 16 2)) 2 0xE)
      ++ (match c.slotOf i with
          | none => [(0, 9)]
          | some k =>
            fails (decide (8000 * d < c.f 2 k 144 4)) 6 0xD
              ++ (List.range 16).flatMap fun r => fails (c.f 2 k (152 + 12 * r) 1 == 1 && v (16 + 4 * r) 4 == 0) (16 + 4 * r) 0xE))

/-- What an IFC channel-group page fails. -/
def CheckIn.group (c : CheckIn) (g : Nat) : List (Nat × Nat) :=
  (List.range 6).flatMap fun i => (c.channel (6 * g + i)).map fun (off, code) => (64 + 128 * i + off, code)

/-! ### The transform table and the fusion page (R302, R304, R307) -/

/-- Whether a quaternion's norm differs from 1 by at most 2^−16 (R302). -/
def unitNorm (q : List (BitVec 32)) : Bool :=
  let n := (q.map fun x => (fp32Num x).natAbs ^ 2).sum
  decide ((2 ^ 16 - 1) ^ 2 * 2 ^ 266 ≤ n) && decide (n ≤ (2 ^ 16 + 1) ^ 2 * 2 ^ 266)

/-- What the transform table page fails. -/
def CheckIn.transforms (c : CheckIn) : List (Nat × Nat) :=
  (List.range 32).flatMap fun i =>
    let o := 64 + 48 * i
    let w (j : Nat) : BitVec 32 := BitVec.ofNat 32 (c.f 5 0 (o + 8 + 4 * j) 4)
    rangeOf o (c.f 5 0 o 1) 0 1 ++
    (if c.f 5 0 o 1 = 1 then
      ((List.range 7).flatMap fun j => fails (!fp32Finite (w j)) (o + 8 + 4 * j) 7)
        ++ fails ((List.range 4).all (fun j => fp32Finite (w j)) && !unitNorm ((List.range 4).map w)) (o + 8) 7
     else [])

/-- Whether a frame is valid (R304). -/
def CheckIn.frameOk (c : CheckIn) (f : Nat) : Bool := c.has 5 0 && decide (f < 32) && c.f 5 0 (64 + 48 * f) 1 == 1

/-- A fusion field of the set (R306). -/
def CheckIn.fu (c : CheckIn) (off n dflt : Nat) : Nat := fusionIn c.set off n dflt

/-- The receivers that claim a camera through CAMERA_ID, enabled or not (R270). -/
def CheckIn.claims (c : CheckIn) (cam : Nat) : List Nat := (List.range 6).filter fun k => c.has 2 k && c.f 2 k 34 1 == cam

/-- A missing reference of the fusion page: reported there, or without that page at the sensor-port page concerned, or, of a slot that has no
page either, at the engine core (DEDUCED, log entry 24). -/
def CheckIn.fusionRef (c : CheckIn) (off k koff : Nat) : List Finding :=
  if c.has 6 0 then onPage (c.pos 6 0) [(off, 9)] else if c.has 2 k then onPage (c.pos 2 k) [(koff, 9)] else onPage 0 [(0, 9)]

/-- What cameras fail (R304, R307): an enabled receiver's camera without a valid frame; without a transform table, any claimed camera with
a ROLE. -/
def CheckIn.fusionCams (c : CheckIn) : List Finding :=
  (List.range 6).flatMap fun cam =>
    let on := (c.claims cam).filter fun k => c.rx.contains k
    let all := if c.has 5 0 || foxRole c.set cam = 0 then on else on ++ c.claims cam
    match all with
    | [] => []
    | k :: _ => if c.frameOk (c.fu (32 + cam) 1 cam) then [] else c.fusionRef (32 + cam) k 34

/-- What the primary or the secondary slot fails (R304, R307). -/
def CheckIn.fusionSlot (c : CheckIn) (at_ slot triads : Nat) (dflt : Nat → Nat) : List Finding :=
  if 5 < slot then []
  else if !c.slots.contains slot then c.fusionRef at_ slot 96
  else
    (if c.frameOk (c.fu (38 + slot) 1 (6 + slot)) then [] else c.fusionRef (38 + slot) slot 96)
      ++ (List.range 6).flatMap fun i =>
        let ch := c.fu (triads + i) 1 (dflt i)
        if ch < 24 && c.chOn ch then [] else c.fusionRef (triads + i) slot 96

/-- What the fusion page's own fields fail (Table 09-2, R307). -/
def CheckIn.fusionFields (c : CheckIn) : List (Nat × Nat) :=
  let v (off n : Nat) : Nat := c.f 6 0 off n
  let inflate := BitVec.ofNat 32 (v 84 4)
  rangeOf 16 (v 16 1) 0 5 ++ rangeOrNone 17 (v 17 1) 0 5
    ++ ((List.range 6).flatMap fun i => rangeOf (20 + i) (v (20 + i) 1) 0 23 ++ rangeOrNone (26 + i) (v (26 + i) 1) 0 23)
    ++ ((List.range 28).flatMap fun i => rangeOf (32 + i) (v (32 + i) 1) 0 31)
    ++ fails (fp32Nan inflate || decide (fp32Num inflate < fp32One)) 84 7
    ++ fails (v 96 2 != 0 && !c.feat featPriors) 96 0xC
    ++ (List.range 16).flatMap fun s => fails ((v 96 2).testBit s && !c.frameOk (v (44 + s) 1)) (44 + s) 9

/-- What alignment and fusion fail. -/
def CheckIn.fusion (c : CheckIn) : List Finding :=
  c.on 5 0 c.transforms ++ c.on 6 0 c.fusionFields ++ c.fusionCams ++ c.fusionSlot 16 (c.fu 16 1 0) 20 id
    ++ c.fusionSlot 17 (c.fu 17 1 0xFF) 26 fun _ => 0xFF

/-! ### Fox (R270) -/

/-- The cameras at which the sum of MAX_FEATURES stands above 4096. -/
def CheckIn.foxOver (c : CheckIn) : List Nat :=
  ((List.range 6).foldl (fun (acc : Nat × List Nat) cam =>
    let n := acc.1 + (if foxRole c.set cam = 0 then 0 else foxMax c.set cam)
    (n, if 4096 < n && foxRole c.set cam != 0 then acc.2 ++ [cam] else acc.2)) (0, [])).2

/-- What a camera record of the Fox page fails, offsets within the record. -/
def CheckIn.foxCam (c : CheckIn) (cam : Nat) : List (Nat × Nat) :=
  let v (off n : Nat) : Nat := c.f 7 0 (32 + 16 * cam + off) n
  rangeOf 0 (v 0 1) 0 2 ++ fails (v 0 1 != 0 && (c.claims cam).isEmpty) 0 9 ++ rangeOf 1 (v 1 1) 0 1
    ++ fails (v 1 1 == 1 && (c.claims cam).any fun k => c.f 2 k 24 2 % 2 == 1 || c.f 2 k 26 2 % 2 == 1) 1 0xE
    ++ rangeOf 2 (v 2 2) 0 1024 ++ fails (c.foxOver.contains cam) 2 0xD ++ rangeOf 4 (v 4 1) 0 1 ++ rangeOf 5 (v 5 1) 0 1

/-- What the Fox page fails. -/
def CheckIn.foxFields (c : CheckIn) : List (Nat × Nat) :=
  let v (off n : Nat) : Nat := c.f 7 0 off n
  let sq (off : Nat) : Int := signedOf 8 (v off 1) ^ 2
  rangeOf 16 (v 16 2) 32 4096 ++ fails (v 16 2 % 16 != 0) 16 7 ++ rangeOf 18 (v 18 1) 16 64 ++ fails (v 18 1 % 8 != 0) 18 7
    ++ rangeOf 19 (v 19 1) 1 16 ++ rangeOf 22 (v 22 1) 4 32 ++ fails (v 23 1 != 16 && v 23 1 != 32 && v 23 1 != 64) 23 7
    ++ rangeOf 24 (v 24 1) 1 16 ++ rangeOf 128 (v 128 1) 0 1
    ++ ((List.range 6).flatMap fun cam => (c.foxCam cam).map fun (off, code) => (32 + 16 * cam + off, code))
    ++ (if v 128 1 = 1 then (List.range 512).flatMap fun i => fails (decide (169 < sq (256 + 2 * i) + sq (257 + 2 * i))) (256 + 2 * i) 7 else [])

/-- What Fox fails; the default FOX_CUTOFF of an absent page is held against the engine-core deadline. -/
def CheckIn.fox (c : CheckIn) : List Finding :=
  c.on 7 0 c.foxFields ++
    (if foxIn c.set 28 4 1250000 < memField (corePage c.set) 256 4 then []
     else if c.has 7 0 then onPage (c.pos 7 0) [(28, 0xE)] else onPage 0 [(256, 0xE)])

/-! ### Owl models (R324, R325, Tables 10-2 to 10-6) -/

/-- What a model header's own fields fail, as (model byte offset, code). -/
def modelHeader (m : Bytes) : List (Nat × Nat) :=
  let pipe := modelMode m == 1
  fails (field m 0 4 != 0x4F574C31) 0 7 ++ fails (field m 4 2 != 1) 4 7 ++ rangeOf 6 (modelMode m) 0 1
    ++ rangeOf 7 (modelDepth m) 1 (if pipe then 20 else 8) ++ rangeOf 8 (modelTrees m) 1 (if pipe then 49152 else 1024)
    ++ rangeOf 10 (modelRaws m) 1 256 ++ fails (decide (256 < modelCrosses m) || decide (512 < modelRaws m + modelCrosses m)) 12 7
    ++ rangeOf 14 (modelLink m) 0 3 ++ rangeOf 15 (modelClasses m) 1 (if modelLink m = 2 then 16 else 1)
    ++ fails (decide (31 < modelLeafFrac m)) 16 8 ++ fails (!pipe && modelStages m != 0) 18 7
    ++ fails (modelLength m % 8 != 0 || decide (modelLength m < 64) || decide (m.length < modelLength m)) 40 7

/-- The entries of a complete tree (R338). -/
def treeEntries (m : Bytes) : Nat := 2 ^ (modelDepth m + 1) - 1

/-- What a model's offsets fail: every area lies after the header and within MODEL_LENGTH. -/
def modelAreas (m : Bytes) : List (Nat × Nat) :=
  let trees := if modelMode m = 1 then 8 * modelTrees m else 8 * modelTrees m * treeEntries m
  [(20, field m 20 4, 16 * modelRaws m), (24, field m 24 4, 8 * modelCrosses m), (28, modelTable m, 0), (32, modelBase m, 4 * modelClasses m),
   (36, modelTree m, trees)].flatMap fun (h, off, size) => fails (decide (off < 64) || decide (modelLength m < off + size)) h 7

/-- The input formats an encoding allows (Table 10-5). -/
def formatAllowed (enc fmt : Nat) : Bool :=
  match enc with
  | 0 => fmt == 0 || fmt == 1 || fmt == 4 || fmt == 5
  | 3 => fmt == 0 || fmt == 1
  | _ => decide (fmt ≤ 6)

/-- The first edge that is not finite or not above the one before it (R329). -/
def badEdge (m : Bytes) (start n : Nat) : Option Nat :=
  let e (i : Nat) : BitVec 32 := BitVec.ofNat 32 (field m (start + 4 * i) 4)
  (List.range n).find? fun i => !fp32Finite (e i) || (i != 0 && !fp32Lt (e (i - 1)) (e i))

/-- What feature record i fails (Table 10-4, R329). -/
def featureFails (m : Bytes) (i : Nat) : List (Nat × Nat) :=
  let o := field m 20 4 + 16 * i
  let r := modelFeature m i
  let n := field r 6 2
  let start := modelTable m + field r 8 4
  let a := BitVec.ofNat 32 (field r 8 4)
  let pb := BitVec.ofNat 32 (field r 12 4)
  rangeOf o (field r 0 1) 0 3 ++ fails (decide (field r 0 1 ≤ 3) && !formatAllowed (field r 0 1) (field r 1 1)) (o + 1) 7
    ++ fails (decide (field r 1 1 ≤ 3) && decide ((formatOf (field r 1 1)).maxFrac < field r 2 1)) (o + 2) 8
    ++ fails (!(field r 3 1).testBit 0) (o + 3) 7
    ++ (match field r 0 1 with
        | 1 =>
          rangeOf (o + 6) n 1 255 ++ (if modelLength m < start + 4 * n then [(o + 8, 7)]
            else match badEdge m start n with | some e => [(start + 4 * e, 7)] | none => [])
        | 2 => fails (!fp32Finite a || decide (fp32Num a ≤ 0)) (o + 8) 7 ++ fails (!fp32Finite pb) (o + 12) 7
        | 3 => rangeOf (o + 6) n 1 256 ++ fails (decide (modelLength m < start + 2 * n)) (o + 8) 7
        | _ => [])

/-- What cross record i fails (R330). -/
def crossFails (m : Bytes) (i : Nat) : List (Nat × Nat) :=
  let o := field m 24 4 + 8 * i
  let r := modelCross m i
  let bad (k : Nat) : Bool := decide (modelRaws m ≤ k) || field (modelFeature m k) 0 1 != 1
  fails (bad (field r 0 2)) o 7 ++ fails (bad (field r 2 2)) (o + 2) 7 ++ fails (!(field r 6 1).testBit 0) (o + 6) 7

/-- What a complete-tree model's nodes fail: a key index that names no key. -/
def completeFails (m : Bytes) : List (Nat × Nat) :=
  (List.range (modelTrees m)).flatMap fun t => (List.range (2 ^ modelDepth m - 1)).flatMap fun i =>
    let o := modelTree m + 8 * (treeEntries m * t + i)
    fails (decide (modelRaws m + modelCrosses m ≤ field m o 2 % 512)) o 7

/-- The levels of a pipeline tree from entry `first` with `cnt` nodes (R339, R341): what they fail, their nodes, and one past the highest
leaf. `dir` is the offset of the tree's directory entry, `last` its first leaf entry. -/
def levelFails (m : Bytes) (dir last : Nat) : Nat → Nat → Nat → List (Nat × Nat) × Nat × Nat
  | 0, _, _ => ([], 0, 0)
  | d + 1, first, cnt =>
    if cnt = 0 then ([], 0, 0)
    else if last < first + cnt then ([(dir + 2, 7)], 0, 0)
    else
      let o (i : Nat) : Nat := modelTree m + 8 * (first + i)
      let kids (i : Nat) : List (Bool × Nat) := [((field m (o i) 2).testBit 14, field m (o i + 4) 2), ((field m (o i) 2).testBit 15, field m (o i + 6) 2)]
      let ks := (List.range cnt).flatMap kids
      let here := (List.range cnt).flatMap fun i =>
        fails (decide (modelRaws m + modelCrosses m ≤ field m (o i) 2 % 512) || (d == 0 && (kids i).any fun k => !k.1)) (o i) 7
      let next := (ks.filter fun k => !k.1).foldl (fun n k => max n (k.2 + 1)) 0
      let leaves := (ks.filter fun k => k.1).foldl (fun n k => max n (k.2 + 1)) 0
      let r := levelFails m dir last d (first + cnt) (if d = 0 then 0 else next)
      (here ++ r.1, cnt + r.2.1, max leaves r.2.2)

/-- One past the last entry of tree t, whose leaves start at an entry: where the next tree's nodes start, or the model's end (R339). -/
def pipeEnd (m : Bytes) (leaf : Nat) : Nat :=
  (((List.range (modelTrees m)).map fun u => field m (modelTree m + 8 * u + 2) 3).filter fun n => decide (leaf ≤ n)).foldl min
    ((modelLength m - modelTree m) / 8)

/-- What tree t of a pipeline model fails, its nodes, and its leaves (R339, R341). DEDUCED (log entry 80): a level holds as many nodes as the
level above names, all levels lie before the tree's first leaf, and its leaves lie before the next tree's nodes. -/
def pipeTree (m : Bytes) (t : Nat) : List (Nat × Nat) × Nat × Nat :=
  let dir := modelTree m + 8 * t
  let first := field m (dir + 2) 3
  let leaf := field m (dir + 5) 3
  let ents := pipeEnd m leaf
  if field m dir 1 = 0 || modelDepth m < field m dir 1 then ([(dir, 7)], 0, 0)
  else if first < modelTrees m || leaf ≤ first || (modelLength m - modelTree m) / 8 < leaf then ([(dir + 2, 7)], 0, 0)
  else
    let r := levelFails m dir leaf (field m dir 1) first 1
    (r.1 ++ fails (decide (ents < leaf + (r.2.2 + 1) / 2)) (dir + 5) 7, r.2.1, r.2.2)

/-- What a pipeline model's trees fail. -/
def pipeFails (m : Bytes) : List (Nat × Nat) :=
  let depths := (List.range (modelTrees m)).map fun t => field m (modelTree m + 8 * t) 1
  ((List.range (modelTrees m)).flatMap fun t => (pipeTree m t).1)
    ++ fails (decide (depths.sum ≠ modelStages m)) 18 7 ++ fails (decide (depths.foldl max 0 ≠ modelDepth m)) 7 7

/-- What a model image fails by itself (Table 10-2). -/
def modelFails (m : Bytes) : List (Nat × Nat) :=
  match modelHeader m with
  | x :: l => x :: l
  | [] =>
    match modelAreas m with
    | x :: l => x :: l
    | [] =>
      ((List.range (modelRaws m)).flatMap (featureFails m)) ++ ((List.range (modelCrosses m)).flatMap (crossFails m))
        ++ (if modelMode m = 1 then pipeFails m else completeFails m)

/-- The node SRAM entries a model takes (R340). -/
def modelSram (m : Bytes) : Nat :=
  if modelMode m = 1 then
    modelTrees m + ((List.range (modelTrees m)).map fun t => let r := pipeTree m t; r.2.1 + (r.2.2 + 1) / 2).sum
  else min 3 (2 ^ modelDepth m - 1) * modelTrees m

/-- The raw feature formats of an in-engine use (Table 10-9). -/
def useFormats (use : Nat) : List Nat :=
  match use with
  | 1 => [2, 0, 2, 2, 6, 6, 1, 0, 0, 6, 6, 0]
  | 2 => [6, 2, 6, 6, 6, 2, 0, 2]
  | 3 => [2, 2, 6, 6, 1, 0]
  | 4 => [2, 6, 4, 6, 2, 6, 2, 0, 2, 2]
  | 5 => [6, 6, 6, 6, 6, 6, 6, 6, 6]
  | _ => []

/-- What a model fails for a use (Table 10-9). -/
def useFails (m : Bytes) (use : Nat) : List (Nat × Nat) :=
  let fs := useFormats use
  if use = 0 || 5 < use then []
  else
    fails (modelRaws m != fs.length) 10 0xE
      ++ fails (if use = 5 then modelLink m != 2 else modelLink m != 0 && modelLink m != 1) 14 0xE
      ++ fails (if use = 5 then modelClasses m < 2 else modelClasses m != 1) 15 0xE
      ++ (fs.zipIdx).flatMap fun (f, i) => fails (decide (i < modelRaws m) && field (modelFeature m i) 1 1 != f) (field m 20 4 + 16 * i + 1) 0xE

/-- A slot's field. -/
def CheckIn.owlF (c : CheckIn) (s off n : Nat) : Nat := c.f 8 s off n
/-- The enabled slots in order of page position. -/
def CheckIn.owlOn (c : CheckIn) : List Nat :=
  sortBy (fun i j => decide (c.pos 8 i ≤ c.pos 8 j)) ((List.range 8).filter fun s => c.has 8 s && c.owlF s 16 1 == 1)
/-- A slot's model: a hamper section, or the host's. -/
def CheckIn.model (c : CheckIn) (s : Nat) : Option Bytes := if c.owlF s 19 1 = 0 then c.hamper.getD s none else c.host.getD s none

/-- The slots at whose page the node SRAM demand stands above its limit (R340). -/
def CheckIn.owlOver (c : CheckIn) : List Nat :=
  (c.owlOn.foldl (fun (acc : Nat × List Nat) s =>
    let n := acc.1 + (match c.model s with | some m => if (modelFails m).isEmpty then modelSram m else 0 | none => 0)
    (n, if 262144 < n then acc.2 ++ [s] else acc.2)) (0, [])).2

/-- What an enabled slot's model fails, as (model byte offset, code). -/
def CheckIn.owlModel (c : CheckIn) (s : Nat) : List (Nat × Nat) :=
  match c.model s with
  | none => [(noModelErr, 9)]
  | some m =>
    match modelFails m with
    | x :: l => x :: l
    | [] =>
      fails (modelMode m != c.owlF s 17 1) 6 0xE ++ fails (modelDepth m != c.owlF s 18 1) 7 0xE
        ++ fails (modelMode m == 1 && decide (c.owlF s 22 2 < modelStages m)) 18 0xD ++ fails (c.owlOver.contains s) 8 0xD
        ++ useFails m (c.owlF s 24 1)

/-- What an enabled slot's own fields fail (Tables 10-1 and 10-2). -/
def CheckIn.owlFields (c : CheckIn) (s : Nat) : List (Nat × Nat) :=
  let v (off n : Nat) : Nat := c.owlF s off n
  let pipe := v 17 1 == 1
  let others := c.owlOn.filter (· != s)
  rangeOf 17 (v 17 1) 0 1 ++ rangeOf 18 (v 18 1) 1 (if pipe then 20 else 8) ++ rangeOf 19 (v 19 1) 0 1 ++ rangeOf 24 (v 24 1) 0 5
    ++ (if pipe then
          rangeOf 20 (v 20 2) 0 49151 ++ rangeOf 22 (v 22 2) 1 49152 ++ fails (decide (49152 < v 20 2 + v 22 2)) 22 0xD
            ++ fails (others.any fun o => c.owlF o 17 1 == 1 && decide (c.owlF o 20 2 < v 20 2 + v 22 2)
                && decide (v 20 2 < c.owlF o 20 2 + c.owlF o 22 2)) 20 0xE
        else [])
    ++ fails (v 24 1 != 0 && others.any fun o => c.owlF o 24 1 == v 24 1) 24 0xE

/-- What the Owl slot pages fail; a model's failure is reported at MODEL_SRC (R325). -/
def CheckIn.owl (c : CheckIn) : List Finding :=
  (List.range 8).flatMap fun s =>
    c.on 8 s (rangeOf 16 (c.owlF s 16 1) 0 1) ++
      (if c.owlOn.contains s then
        onPage (c.pos 8 s) (c.owlFields s)
          ++ (if c.owlF s 19 1 ≤ 1 then (c.owlModel s).map fun (moff, code) => (⟨c.pos 8 s, 19, moff, code⟩ : Finding) else [])
       else [])

/-! ### Guests, the governor and the trails (R441, R585, R517) -/

/-- What the guest policy page fails (Table 13-2, R441); its need of GUESTS is reported at PAGE_TYPE. -/
def CheckIn.guest (c : CheckIn) : List (Nat × Nat) :=
  let v (off n : Nat) : Nat := c.f 9 0 off n
  let rms := BitVec.ofNat 32 (v 40 4)
  let sim := BitVec.ofNat 32 (v 44 4)
  fails (!c.feat featGuests) 0 0xC ++ rangeOf 16 (v 16 1) 1 64 ++ rangeOf 17 (v 17 1) 1 16 ++ rangeOf 18 (v 18 1) 1 8 ++ rangeOf 19 (v 19 1) 0 1
    ++ rangeOf 22 (v 22 2) 1 256 ++ rangeOf 24 (v 24 4) 65536 67108864 ++ fails (v 24 4 % 4096 != 0) 24 7 ++ rangeOf 28 (v 28 4) 1 65536
    ++ rangeOf 32 (v 32 4) 1 2097152 ++ rangeOf 36 (v 36 2) 7 4096 ++ rangeOf 38 (v 38 1) 1 128
    ++ fails (fp32Nan rms || decide (fp32Num rms ≤ 0)) 40 7
    ++ fails (fp32Nan sim || decide (fp32Num sim < fp32Num 0x3D4CCCCD) || decide (fp32One < fp32Num sim)) 44 7
    ++ rangeOf 48 (v 48 2) 0 4095 ++ rangeOf 50 (v 50 2) 1 4096 ++ fails (decide (4096 < v 48 2 + v 50 2)) 50 7

/-- What the governor page fails (Table 17-3, R585). -/
def CheckIn.governor (c : CheckIn) : List (Nat × Nat) :=
  let v (off n : Nat) : Nat := c.f 10 0 off n
  let bus := v 16 1
  fails (bus != 2 && bus != 3 && bus != 0xFF) 16 7
    ++ fails ((bus == 2 || bus == 3) && c.slots.any fun k => c.f 2 k 97 1 == bus && c.f 2 k 99 1 != v 19 1) 16 0xE
    ++ rangeOf 17 (v 17 1) 0 127 ++ fails (v 19 1 != 0 && v 19 1 != 2) 19 7 ++ rangeOf 20 (v 20 2) 10 1000 ++ rangeOf 22 (v 22 2) 100 10000
    ++ fails (decide (signedOf 16 (v 26 2) ≤ signedOf 16 (v 24 2))) 26 7 ++ rangeOf 30 (v 30 2) 100 6500 ++ rangeOf 32 (v 32 2) 50 (v 30 2)
    ++ rangeOf 34 (v 34 2) 1 250 ++ rangeOf 36 (v 36 2) 100 60000 ++ rangeOf 38 (v 38 1) 70 105
    ++ ((List.range 4).flatMap fun i =>
        rangeOf (40 + i) (v (40 + i) 1) 0 5 ++ rangeOf (44 + i) (v (44 + i) 1) 0 5 ++ fails (decide (v (44 + i) 1 < v (40 + i) 1)) (40 + i) 7)
    ++ rangeOf 48 (v 48 1) 0 1 ++ rangeOf 52 (v 52 4) 1 (if v 19 1 = 0 then 12500000 else 1000000)

/-- Whether the package bonds out a lane (R514). -/
def CheckIn.bonded (c : CheckIn) (l : Nat) : Bool :=
  match c.package with
  | .h => decide (l < 2)
  | .w => decide (l < 18)
  | .c => c.wired.getLsbD l

/-- What the trails page fails (Table 15-1, R517). -/
def CheckIn.trails (c : CheckIn) : List (Nat × Nat) :=
  let v (off n : Nat) : Nat := c.f 11 0 off n
  let role := v 16 1
  let lanes (k : Nat) : List Nat := (List.range 18).filter fun l => v (32 + l) 1 == k
  let ups (k : Nat) : Nat := (((List.range (k + 1)).filter fun j => v (80 + j) 1 == 1).map fun j => (lanes j).length).sum
  rangeOf 16 role 0 2 ++ fails (role == 2 && c.package == .h) 16 7 ++ fails (role != 0 && !c.feat featTrails) 16 0xC
    ++ rangeOf 18 (v 18 2) 0 4095 ++ fails (role == 2 && v 18 2 % 8 != 0) 18 7 ++ rangeOf 24 (v 24 1) 0 2 ++ rangeOf 26 (v 26 2) 0 4095
    ++ ((List.range 18).flatMap fun l =>
        rangeOrNone (32 + l) (v (32 + l) 1) 0 15 ++ fails (v (32 + l) 1 != 0xFF && !c.bonded l) (32 + l) 7
          ++ rangeOf (56 + l) (v (56 + l) 1) 1 4 ++ fails (c.package == .w && l == 17 && v (56 + l) 1 == 4) (56 + l) 7)
    ++ ((List.range 16).flatMap fun k =>
        (match lanes k with
         | [] => []
         | l :: r => fails (!([1, 2, 4, 8, 16].contains (r.length + 1))) (32 + l) 7)
          ++ rangeOf (80 + k) (v (80 + k) 1) 0 1 ++ fails (v (80 + k) 1 == 1 && (role != 2 || decide (4 < ups k))) (80 + k) 7)
    ++ (if role = 2 then [] else (List.range 512).flatMap fun r => fails ((v (2048 + 2 * r) 2).testBit 15) (2048 + 2 * r) 7)

/-! ### Stop-only fields (R105 to R107, Table 03-6) -/

/-- STOP_ONLY_RUNNING at each field whose value the two pages give differently. -/
def differ (p a : Memory) (base : Nat) (fs : List (Nat × Nat)) : List (Nat × Nat) :=
  fs.flatMap fun (off, n) => fails (memField p (base + off) n != memField a (base + off) n) (base + off) 0xA

/-- What the set changes of units that run in the active set (R105, R106). DESIGN CHOICE (log entry 79): a trails bundle, which has no enable
field, runs while ROLE is not 0 and a lane is assigned to it in the active set, and a set without a trails page gives it that page's defaults;
a port's virtual-channel map is PIX_VC and EMB_VC; a channel keeps its page's own values when the set holds no page for its group. -/
def CheckIn.stopOnly (c : CheckIn) (a : List Memory) : List Finding :=
  let pg (t k : Nat) : Memory := pageAt c.set t k
  let was (t k off n : Nat) : Nat := memField (pageAt a t k) off n
  let chs := (List.range 24).filter fun i => was 3 (i / 6) (64 + 128 * (i % 6)) 1 == 1
  let sets := chs.map fun i => was 3 (i / 6) (64 + 128 * (i % 6) + 2) 1
  ((List.range 6).flatMap fun k =>
      if was 2 k 16 1 = 1 then c.on 2 k (differ (pg 2 k) (pageAt a 2 k) 0 [(17, 1), (18, 1), (20, 4), (32, 1), (36, 1)]) else [])
    ++ (chs.flatMap fun i => c.on 3 (i / 6) (differ (pg 3 (i / 6)) (pageAt a 3 (i / 6)) (64 + 128 * (i % 6))
          [(1, 1), (2, 1), (3, 1), (4, 2), (6, 1), (7, 1)]))
    ++ ((List.range 24).flatMap fun n =>
      if sets.contains n && (pagePos a 4 n).isSome then
        c.on 4 n (differ (pg 4 n) (pageAt a 4 n) 0 ((16, 2) :: (List.range 384).map fun j => (32 + 2 * j, 2)))
      else [])
    ++ ((List.range 8).flatMap fun s =>
      if was 8 s 16 1 = 1 then c.on 8 s (differ (pg 8 s) (pageAt a 8 s) 0 [(17, 1), (18, 1), (19, 1), (20, 2), (22, 2)]) else [])
    ++ (if was 11 0 16 1 = 0 then []
        else
          let run (k : Nat) : Bool := k != 0xFF && (List.range 18).any fun l => trailIn a (32 + l) 1 (l / 2) == k
          (List.range 18).flatMap fun l =>
            if run (trailIn a (32 + l) 1 (l / 2)) || run (trailIn c.set (32 + l) 1 (l / 2)) then
              [(32 + l, l / 2), (56 + l, if l = 17 then 3 else 4)].flatMap fun (off, dflt) =>
                if trailIn c.set off 1 dflt = trailIn a off 1 dflt then []
                else if c.has 11 0 then onPage (c.pos 11 0) [(off, 0xA)] else onPage 0 [(0, 0xA)]
            else [])

/-! ### The whole test -/

/-- Every failure of a set. -/
def CheckIn.findings (c : CheckIn) : List Finding :=
  (if memField (corePage c.set) 0 2 = 1 then onPage 0 c.core else [⟨0, 0, noModelErr, 6⟩])
    ++ ((List.range 64).flatMap fun pos => onPage pos (c.header pos))
    ++ ((List.range 6).flatMap fun k => c.on 2 k (c.port k)) ++ ((List.range 4).flatMap fun g => c.on 3 g (c.group g))
    ++ c.fusion ++ c.fox ++ c.owl ++ c.on 9 0 c.guest ++ c.on 10 0 c.governor ++ c.on 11 0 c.trails
    ++ (match c.active with | some a => c.stopOnly a | none => [])

/-- The first failure (R108). -/
def CheckIn.first (c : CheckIn) : Option Finding :=
  c.findings.foldl (fun (best : Option Finding) f =>
    match best with
    | some g => if f.key < g.key then some f else best
    | none => some f) none

/-- The needs of a set (R80, Table 03-7): RATE_240, WAKE_ON_EVENT, HOST_PRIORS, TRAILS and GUESTS, as feature bits. -/
def setNeeds (set : List Memory) : BitVec 128 :=
  let wake := (List.range 24).any fun i => chanIn set i 0 1 == 1 &&
    (List.range 2).any fun u => chanIn set i (80 + 24 * u) 1 != 0 && (chanIn set i (81 + 24 * u) 1).testBit 1
  let bits := [(featRate240, decide (120 < memField (corePage set) 16 1)), (featWake, wake), (featPriors, fusionIn set 96 2 0 != 0),
    (featTrails, trailIn set 16 1 0 != 0), (featGuests, (pagePos set 9 0).isSome)]
  bits.foldl (fun n (i, on) => if on then setBit n i else n) 0

/-- What a host-issued CHECK tests: the shadow set against the active set and the committed features (R108, R110). -/
def Block.checkIn (b : Block) : CheckIn :=
  { set := b.cfg.shadow, active := some b.cfg.active, feats := b.feat.committed, package := b.boot.package, wired := b.pins.trailsWired
    hamper := b.boot.models, host := b.owl.slots.map OwlSlot.host }

end Sys2Proof.Machine
end

