-- ==== Sys2Proof/Machine/Settings.lean ====
section
/-! DEFINITION. The settings commands (chapter 03): SETTINGS_READ, SHADOW_WRITE, CHECK, APPLY and SYNC_SHADOW. -/

namespace Sys2Proof.Machine

/-- Whether a first position and a count name pages of a set (R89). -/
def pagesOk (c : Cmd) : Bool := decide (1 ≤ c.arg 26 1) && decide (c.arg 25 1 + c.arg 26 1 ≤ 64)

/-- SETTINGS_READ: whole pages of a set go to host memory, each 4096 bytes, in position order (R89). DESIGN CHOICE (log entry 82): its
DATA_LEN is the pages' 4096 × count bytes, and another is refused with INVALID_FIELD. -/
def Block.settingsRead (r : CmdRef) (b : Block) : Block :=
  if !b.link.live then b
  else
    b.begin r 0x10 (fun c => decide (c.arg 24 1 ≤ 1) && pagesOk c && c.arg 16 4 == 4096 * c.arg 26 1) fun c b =>
      let set := if c.arg 24 1 = 0 then b.cfg.active else b.cfg.shadow
      let b1 := (List.range (c.arg 26 1)).foldl (fun (b : Block) i =>
        b.drive (.memWrite (BitVec.ofNat 64 (c.arg 8 8 + 4096 * i)) (memBytes (set.getD (c.arg 25 1 + i) []) 0 4096))) b
      b1.finish r stOk 0 0 0

/-- SHADOW_WRITE starts (R89, R90, R93, Table 03-5). -/
def Block.shadowWrite (r : CmdRef) (b : Block) : Block :=
  b.begin r 0x11 (fun c => pagesOk c && c.arg 16 4 == 4160 * c.arg 26 1) fun _ b =>
    match b.cfg.shadowState with
    | .armed | .checking => b.finish r stBusy 0 0 0
    | .stale => b.finish r stStale 0 0 0
    | _ => (b.settingsBusy r).stage r .running

/-- The pass over the headers of a SHADOW_WRITE's parcels (R90). -/
def Block.pageHeads (r : CmdRef) (c : Cmd) (hs : List Parcel) (b : Block) : Block :=
  if hs.length = c.arg 26 1 && hs.all fun h => h.type == 0x0B01 && h.len == 4096 then b.withCmd r fun c => { c with heads := true }
  else b.settingsEnd r stField 0 0 0

/-- A verified PAGE parcel replaces its shadow page (R90, R91, R95); the command ends with the last. -/
def Block.pagePart (r : CmdRef) (c : Cmd) (p : Parcel) (b : Block) : Block :=
  let pos := c.arg 25 1 + c.count
  let b1 := { b with cfg := { b.cfg with
    shadow := b.cfg.shadow.set pos (memOf p.payload)
    shadowState := .dirty
    badPages := b.cfg.badPages.filter (· != pos) } }
  if c.count + 1 = c.arg 26 1 then b1.settingsEnd r stOk (c.count + 1) 0 0
  else b1.withCmd r fun c => { c with stage := .committed, count := c.count + 1 }

/-- CHECK starts (R94, Table 03-5). -/
def Block.check (r : CmdRef) (b : Block) : Block :=
  b.begin r 0x12 (fun _ => true) fun _ b =>
    match b.cfg.shadowState with
    | .armed | .checking => b.finish r stBusy 0 0 0
    | s =>
      let b1 := (b.settingsBusy r).stage r .committed
      { b1 with cfg := { b1.cfg with before := s, shadowState := .checking, checkSince := b.now } }

/-- What CHECK finds. A shadow page lost to a memory fault fails it (Table 16-4); the reason and offset that it then gives are open, hence
free (log entry 5). -/
def Block.checkFinds (b : Block) : Option Finding :=
  match b.cfg.badPages with
  | [] => b.checkIn.first
  | p :: ps => some ⟨ps.foldl min p, b.freeNow.toNat % 4096, noModelErr, 1 + b.freeNow.toNat / 4096 % 14⟩

/-- CHECK_COMPLETE: PASS or FAIL, CHECK_RESULT and the completion (R94, R108, R325). -/
def Block.checkComplete (b : Block) : Block :=
  if b.cfg.shadowState == .checking && b.ready then
    let f := b.checkFinds
    let b1 := if b.cfg.badPages.isEmpty then b else b.drew
    let res : CheckResult := match f with
      | none => { pass := true }
      | some f => { pass := false, reason := BitVec.ofNat 8 f.code, page := BitVec.ofNat 6 f.page, field := BitVec.ofNat 12 f.field }
    let b2 := { b1 with cfg := { b1.cfg with
      shadowState := if f.isNone then .pass else .fail
      result := res
      modelErr := BitVec.ofNat 32 (match f with | some f => f.moff | none => noModelErr)
      busy := false, busyBy := none } }
    match b.cfg.busyBy with
    | some r => b2.finish r (if f.isNone then stOk else stCheckFail) (res.reason.toNat + 256 * res.page.toNat) res.field.toNat 0
    | none => b2
  else b

/-- Ticks before its boundary at which an APPLY commits (R96). -/
def applyLead : Tick := 50000

/-- A boundary that no wake has fixed yet. -/
def farBoundary : Tick := 2 ^ 64

/-- The epoch whose start an APPLY armed now swaps at, and its boundary (R96); while the engine is paused, the resume boundary (R601). -/
def Block.applyAt (b : Block) : Nat × Tick :=
  let n := b.ep.now.toNat
  if b.pwr.paused then
    match b.pwr.wake with
    | none => (n + 1, farBoundary)
    | some (t, _) => if b.now + applyLead ≤ t + resumeDelay then (n + 1, t + resumeDelay)
                     else (n + 2, t + resumeDelay + 250000000 / max 1 b.ep.rate)
  else if b.now + applyLead ≤ b.ep.nextBoundary then (n + 1, b.ep.nextBoundary)
  else (n + 2, b.ep.boundary (n + 2))

/-- APPLY arms a swap (R87, R96, Table 03-5). -/
def Block.apply (r : CmdRef) (b : Block) : Block :=
  b.begin r 0x13 (fun _ => true) fun _ b =>
    match b.cfg.shadowState with
    | .pass =>
      let a := b.applyAt
      let b1 := b.stage r .running
      { b1 with cfg := { b1.cfg with shadowState := .armed, armed := some { epoch := a.1, boundary := a.2, at_ := b.now, owner := some r } } }
    | .armed => b.finish r stPending 0 0 0
    | _ => b.finish r stCheckReq 0 0 0

/-- SYNC_SHADOW copies the active set over the shadow set (Table 03-5). -/
def Block.syncShadow (r : CmdRef) (b : Block) : Block :=
  b.begin r 0x14 (fun _ => true) fun _ b =>
    match b.cfg.shadowState with
    | .armed | .checking => b.finish r stBusy 0 0 0
    | _ => Block.finish r stOk 0 0 0 { b with cfg := { b.cfg with shadow := b.cfg.active, shadowState := .clean, badPages := [] } }

/-! ### The swap (R98, R99) -/

/-- The swap of the two sets at a boundary; APPLY completes, with the SETTINGS_APPLIED event it waits for. -/
def Block.swapSets (epoch : Nat) (b : Block) : Block :=
  match b.cfg.armed with
  | none => b
  | some a =>
    let gen := b.cfg.gen + 1
    let b1 := { b with cfg := { b.cfg with
      active := b.cfg.shadow, shadow := b.cfg.active, shadowState := .stale, gen := gen
      lastSwap := BitVec.ofNat 64 epoch, armed := none } }
    let say (b : Block) : Block := b.event 0x0001 noUnit (leBytes 8 epoch ++ leBytes 4 gen.toNat)
    match a.owner with
    | some r => (b1.forCmd r say).finish r stOk 0 epoch gen.toNat
    | none => say b1

/-! ### Exec -/

/-- SETTINGS_READ. -/
def execSettingsRead (r : CmdRef) (s : State) : Host.Outcome State Fault Refusal := s.act (Block.settingsRead r)
/-- SHADOW_WRITE. -/
def execShadowWrite (r : CmdRef) (s : State) : Host.Outcome State Fault Refusal := s.act (Block.shadowWrite r)
/-- CHECK. -/
def execCheck (r : CmdRef) (s : State) : Host.Outcome State Fault Refusal := s.act (Block.check r)
/-- CHECK_COMPLETE. -/
def execCheckComplete (s : State) : Host.Outcome State Fault Refusal := s.act Block.checkComplete
/-- APPLY. -/
def execApply (r : CmdRef) (s : State) : Host.Outcome State Fault Refusal := s.act (Block.apply r)
/-- SYNC_SHADOW. -/
def execSyncShadow (r : CmdRef) (s : State) : Host.Outcome State Fault Refusal := s.act (Block.syncShadow r)

end Sys2Proof.Machine
end

