-- ==== Sys2Proof/Machine/Dma.lean ====
section
/-! DEFINITION. DMA_READ_COMPLETION: what a command does with the parcels of its data buffer (R171, R172, R482, R483). -/

namespace Sys2Proof.Machine

/-- Whether a command is reading its data buffer. -/
def Block.reading (r : CmdRef) (c : Cmd) (b : Block) : Bool :=
  b.ready && (c.stage == .running || c.stage == .committed) && !(b.pwr.paused && waitsInPause c.op.toNat)
    && (c.op == 0x11 || c.op == 0x20 || c.op == 0x21 || (c.op == 0x30 && c.arg 24 1 == 3) || c.op == 0x40 || c.op == 0x51)
    && !(b.owl.jobs.any fun j => j.owner == some r) && !(b.badger.jobs.any fun j => j.owner == some r)

/-- The unit that verifies a command's parcels: the AFU a prior's, the assembler a job's, the pair in control the others. -/
def Block.dmaVerifier (c : Cmd) (b : Block) : BitVec 8 :=
  if c.op = 0x40 then afuUnit else if c.op = 0x30 then assembler else b.control

/-- A command that a data parcel stopped: what it did before that parcel stands (R482, R483). -/
def Block.dataFails (r : CmdRef) (c : Cmd) (status : Nat) (b : Block) : Block :=
  if c.op = 0x11 then b.settingsEnd r status c.count 0 0
  else if c.op = 0x20 then b.loadFails r status c.count
  else b.finish r status c.count 0 0

/-- The pass over the parcel heads of a command's buffer. -/
def Block.dataHeads (r : CmdRef) (c : Cmd) (hs : List Parcel) (b : Block) : Block :=
  if c.op = 0x11 then b.pageHeads r c hs
  else if c.op = 0x20 then b.modelHeads r c hs
  else if c.op = 0x21 then b.featureHeads r c hs
  else if c.op = 0x30 then b.problemHeads r c hs
  else if c.op = 0x40 then b.priorHeads r c hs
  else b.fragHeads r c hs

/-- A verified parcel of a command's buffer. -/
def Block.dataPart (r : CmdRef) (c : Cmd) (p : Parcel) (b : Block) : Block :=
  if c.op = 0x11 then b.pagePart r c p
  else if c.op = 0x20 then b.modelPart r c p
  else if c.op = 0x21 then b.featurePart r c p
  else if c.op = 0x30 then b.problemPart r c p
  else if c.op = 0x40 then b.priorPart r c p
  else b.fragPart r c p

/-- DMA_READ_COMPLETION. -/
def Block.dmaRead (r : CmdRef) (d : DmaData) (b : Block) : Block :=
  match (b.host.queues.getD r.q {}).cmds.find? fun c => c.id == r.id && b.reading r c with
  | none => b
  | some c =>
    match d with
    | .failed => b.dataFails r c stData
    | .headers hs => if c.heads then b else b.dataHeads r c hs
    | .parcel p =>
      if !c.heads then b
      else match b.hostFault p with
      | none => b.dataPart r c (b.hostSealed p)
      | some cause => (b.integrityFault (b.hostSealed p) (b.dmaVerifier c) cause).dataFails r c stSeal

/-! ### Exec -/

/-- DMA_READ_COMPLETION. -/
def execDmaReadCompletion (r : CmdRef) (d : DmaData) (s : State) : Host.Outcome State Fault Refusal := s.act (Block.dmaRead r d)

end Sys2Proof.Machine
end

