-- ==== Sys2Proof/Machine/GovOps.lean ====
section
/-! DEFINITION. The thermal governor (chapter 17): its page, its inputs, the budget, the raises of R591, the burst envelope, P-points and
their voltages. -/

namespace Sys2Proof.Machine

/-! ### The governor page (Table 17-3) -/

/-- A governor field of a set, with its default when the page is absent (R584). -/
def govIn (set : List Memory) (off n dflt : Nat) : Nat :=
  match pagePos set 10 0 with
  | some i => memField (set.getD i []) off n
  | none => dflt

/-- The governor page of a set. -/
def govPageIn (set : List Memory) : Option Memory := (pagePos set 10 0).map fun i => set.getD i []

/-- A governor field in force: the page's at the newest plan commit, since a swap applies from the first plan committed after it (R584). -/
def Block.gov (b : Block) (off n dflt : Nat) : Nat :=
  match b.pwr.govPage with
  | some m => memField m off n
  | none => dflt

def Block.skinBus (b : Block) : Nat := b.gov 16 1 0xFF
/-- SKIN_STALE_MS in ticks. -/
def Block.skinStaleAge (b : Block) : Tick := ms (b.gov 22 2 2000)
/-- SKIN_PERIOD_MS in ticks. -/
def Block.skinPeriod (b : Block) : Tick := ms (b.gov 20 2 100)
def Block.skinLimit (b : Block) : Int := signedOf 16 (b.gov 24 2 10496)
def Block.skinMax (b : Block) : Int := signedOf 16 (b.gov 26 2 11520)
def Block.burstMargin (b : Block) : Nat := b.gov 28 2 512
def Block.throttleFloor (b : Block) : Nat := b.gov 32 2 150
/-- BURST_MAX_MS in ticks. -/
def Block.burstMax (b : Block) : Tick := ms (b.gov 34 2 250)
/-- BURST_COOLDOWN_MS in ticks. -/
def Block.burstCooldown (b : Block) : Tick := ms (b.gov 36 2 1000)
/-- DIE_LIMIT in 1/256 °C. -/
def Block.dieLimit (b : Block) : Int := 256 * b.gov 38 1 100

/-! ### P-points -/

/-- Whether the supplies and the clocks of the islands are the integrator's, behind the hooks of chapter 18. -/
def Block.hooked (b : Block) : Bool := b.boot.package == Package.c

/-- The islands with P-points (R583). -/
def dvfsAll : List Dvfs := [.boot, .fox, .owl, .badger]

/-- Their island numbers. -/
def dvfsIsland : Dvfs → Nat
  | .boot => 1 | .fox => 4 | .owl => 6 | .badger => 7

/-- Their place in the governor page (Table 17-3). -/
def dvfsIndex : Dvfs → Nat
  | .boot => 0 | .fox => 1 | .owl => 2 | .badger => 3

/-- An island's P-point. -/
def ppGet (p : PPoints) : Dvfs → Fin 6
  | .boot => p.boot | .fox => p.fox | .owl => p.owl | .badger => p.badger

/-- P-points with one island's changed. -/
def ppSet (p : PPoints) (i : Dvfs) (v : Fin 6) : PPoints :=
  match i with
  | .boot => { p with boot := v }
  | .fox => { p with fox := v }
  | .owl => { p with owl := v }
  | .badger => { p with badger := v }

/-- P-points from a function of the island. -/
def ppOf (f : Dvfs → Fin 6) : PPoints := ⟨f .boot, f .fox, f .owl, f .badger⟩

/-- A P-point number. -/
def pPoint (n : Nat) : Fin 6 := Fin.ofNat 6 (min n 5)

/-- The fastest point that the governor may plan for an island: its CEILING, P3 while the die is hot (R596), P2 while DRAM is hot (R598), P5
for Fox, Owl and Badger after a trip (R597). -/
def Block.ceilingOf (b : Block) (i : Dvfs) : Fin 6 :=
  let c := max (b.gov (40 + dvfsIndex i) 1 0) (max (if b.pwr.dieHot then 3 else 0) (if b.den.hot then 2 else 0))
  pPoint (if b.pwr.tripped && i != .boot then 5 else c)

/-- An island's floor, under its caps (R591). -/
def Block.floorOf (b : Block) (i : Dvfs) : Fin 6 := max (pPoint (b.gov (44 + dvfsIndex i) 1 5)) (b.ceilingOf i)

/-- The island of a projection's critical path, below its ceiling, whose one-step raise saves the most time per mW; of those that tie, the
first of Badger, Fox, Owl and Boot/Ranger (R591). -/
def bestRaise (ceil pp : PPoints) (p : Projection) : Option Raise :=
  let may : List Raise := [Dvfs.badger, .fox, .owl, .boot].filterMap fun i =>
    p.raises.find? fun r => r.island == i && decide (ppGet ceil i < ppGet pp i)
  let better (x y : Raise) : Bool := decide (y.saves * (x.mw.toNat - p.mw.toNat) < x.saves * (y.mw.toNat - p.mw.toNat))
  may.foldl (fun best r => match best with | some x => if better r x then some r else some x | none => some r) none

/-- The raises of R591, one step at a time: until VIO ends 0.5 ms before its deadline and the jobs advance as planned, or no island may be
raised, or the raise would exceed the budget. Where no projection follows a raise, nothing is late after it. -/
def raiseSteps (ceil : PPoints) (budget : Nat) (pp : PPoints) (p : Projection) : List Projection → PPoints × Projection
  | [] =>
    if !(p.vioLate || p.behind) then (pp, p)
    else match bestRaise ceil pp p with
    | some r => if budget < r.mw.toNat then (pp, p) else (ppSet pp r.island (pPoint ((ppGet pp r.island).val - 1)), ⟨r.mw, false, false, false, []⟩)
    | none => (pp, p)
  | q :: qs =>
    if !(p.vioLate || p.behind) then (pp, p)
    else match bestRaise ceil pp p with
    | some r =>
      if budget < r.mw.toNat then (pp, p) else raiseSteps ceil budget (ppSet pp r.island (pPoint ((ppGet pp r.island).val - 1))) q qs
    | none => (pp, p)

/-- Why a projection under the sustained budget asks for a burst (R593). -/
def burstReason (p : Projection) : BurstWhy := if p.vioLate then .vio else if p.jobLate then .job else .none

/-! ### Inputs (R587 to R590) -/

/-- SUSTAINED_MW as it is clamped (R587). -/
def Block.clampSustained (v : Nat) (b : Block) : BitVec 16 :=
  BitVec.ofNat 16 (max 100 (min v (if b.boot.package == .h then 2000 else 6500)))

/-- BURST_MW as it is clamped (R587). -/
def Block.clampBurst (v : Nat) (b : Block) : BitVec 16 := BitVec.ofNat 16 (min v (if b.boot.package == .h then 1800 else 6500))

/-- Where the skin temperature comes from (R588), in the coding of GOV_STATUS.SKIN_SOURCE. -/
def Block.skinFrom (b : Block) : BitVec 2 :=
  if b.committed featSkin then 2 else if b.skinBus = 0xFF then 0 else 1

/-- Why the skin input is LOST now (R589): 0 when it is not. -/
def Block.skinLostCause (b : Block) : Nat :=
  match b.skinFrom.toNat with
  | 2 => (match b.pwr.skinAt with
    | some t => if t + b.skinStaleAge < b.now then 3 else 0
    | none => 0)
  | 1 => if 8 ≤ b.pwr.sensorFails then 2 else 0
  | _ => 1

/-- The skin input becomes LOST, once (R589). -/
def Block.skinCheck (b : Block) : Block :=
  let c := b.skinLostCause
  if c ≠ 0 && !b.pwr.skinLost then
    { b with pwr := { b.pwr with skinLost := true } }.event 0x0051 noUnit (leBytes 1 c)
  else b

/-- A valid skin value arrives from the source in use: SKIN_BACK when the input was LOST (R589). -/
def Block.skinBack (source : Nat) (value : BitVec 16) (b : Block) : Block :=
  if b.pwr.skinLost && b.skinFrom.toNat == source && b.skinLostCause == 0 then
    { b with pwr := { b.pwr with skinLost := false } }.event 0x0052 noUnit (leBytes 1 source ++ [0] ++ leBytes 2 value.toNat)
  else b

/-- The skin temperature that the governor uses: the newest value latched (R588); none while the input is LOST or no value has come. -/
def Block.skinT (b : Block) : Option (BitVec 16) :=
  if b.pwr.skinLost then none
  else match b.skinFrom.toNat with
  | 2 => if b.pwr.skinAt.isSome then some b.pwr.skin else none
  | 1 => b.pwr.sensor
  | _ => none

/-- The thermal budget of R590, whole mW rounded down. -/
def Block.thermalAt (t : Int) (b : Block) : Int :=
  let s : Int := b.pwr.useSustained.toNat
  if t ≤ b.skinLimit then s
  else if b.skinMax ≤ t then b.throttleFloor
  else (s * (b.skinMax - b.skinLimit) - (s - b.throttleFloor) * (t - b.skinLimit)) / (b.skinMax - b.skinLimit)

/-- The governor starts a plan: the governor page of the active set and the budget of GOV_BUDGET come into force (R584, R587); until the first
write, SUSTAINED_MW is the page's SUSTAINED_DEFAULT_MW. -/
def Block.govLatch (b : Block) : Block :=
  let b1 := { b with pwr := { b.pwr with govPage := govPageIn b.cfg.active } }
  let s := if b.pwr.budgetSet then b.pwr.sustained else b1.clampSustained (b1.gov 30 2 480)
  { b1 with pwr := { b1.pwr with sustained := s, useSustained := s, useBurst := b1.pwr.burstMw } }

/-- The governor computes the thermal budget when it starts a plan; without a temperature it holds the last, which is SUSTAINED_MW when none
was ever computed (R589, R590). THROTTLE tells when it falls below SUSTAINED_MW and when it recovers. -/
def Block.thermalStep (b : Block) : Block :=
  let th : BitVec 16 := match b.skinT with
    | some t => BitVec.ofInt 16 (b.thermalAt t.toInt)
    | none => if b.pwr.thermalSet then b.pwr.thermal else b.pwr.useSustained
  let low : Bool := decide (th.toNat < b.pwr.useSustained.toNat)
  let skin := (b.skinT.getD b.pwr.skinUsed)
  let b1 := { b with pwr := { b.pwr with
    thermal := th, thermalSet := b.pwr.thermalSet || b.skinT.isSome, throttled := low, skinUsed := skin, skinSource := b.skinFrom } }
  if low != b.pwr.throttled then
    b1.event 0x0053 noUnit (leBytes 1 low.toNat ++ [0] ++ leBytes 2 th.toNat ++ leBytes 2 skin.toNat)
  else b1

/-- The epoch's budget outside a burst (R590). -/
def Block.sustainedBudget (b : Block) : Nat := min b.pwr.useSustained.toNat b.pwr.thermal.toNat

/-- Whether every condition of R593 for a burst holds at a tick. -/
def Block.burstOk (t : Tick) (b : Block) : Bool :=
  b.committed featBurst && decide (b.sustainedBudget < b.pwr.useBurst.toNat) && !b.pwr.skinLost
    && (match b.skinT with | some x => decide (x.toInt ≤ b.skinLimit - b.burstMargin) | none => false)
    && (match b.pwr.burst with | .cooldown u => decide (u ≤ t) | _ => true)
    && b.pwr.dieTemps.all fun d => match d with | some x => decide (x.toInt < b.dieLimit) | none => true

/-! ### Plans (R24, R275, R276, R591) -/

/-- The boundary that comes next: while paused, the resume boundary once a wake has fixed it (R603). -/
def Block.upcoming (b : Block) : Option Tick :=
  if b.pwr.paused then b.pwr.wake.map fun w => w.1 + resumeDelay
  else if b.ep.running then some b.ep.nextBoundary else none

/-- The set that the next epoch runs under, as far as it is known: the shadow set when a swap is armed for it. -/
def Block.planSet (b : Block) : List Memory :=
  match b.cfg.armed with
  | some a => if a.epoch = b.ep.now.toNat + 1 then b.cfg.shadow else b.cfg.active
  | none => b.cfg.active

/-- The lane lists of a plan: those that the firmware brings, on live lanes; by the rule of R276 once a unit has been fenced. -/
def Block.planLanes (x : PlanIn) (p : Fin 6) (b : Block) : List (List (Fin 8)) :=
  if b.flt.fenceCount = 0 then (List.range 6).map fun c => ((x.lanes.getD c []).filter fun l => b.flt.fox.getLsbD l.val).take 4
  else fallbackLanes b.planSet (b.ep.now.toNat + 1) b.flt.fox p

/-- The plan that the firmware commits (R591, R593). -/
def Block.planOf (x : PlanIn) (b : Block) : Plan :=
  let ceil := ppOf b.ceilingOf
  let p0 := x.steps.headD ⟨0, false, false, false, []⟩
  let low := raiseSteps ceil b.sustainedBudget (ppOf b.floorOf) p0 x.steps.tail
  let why := burstReason low.2
  let grant := why != .none && b.burstOk b.now
  let top := if grant then raiseSteps ceil b.pwr.useBurst.toNat (ppOf b.floorOf) p0 x.steps.tail else low
  { lanes := b.planLanes x top.1.fox, order := if b.flt.fenceCount = 0 then x.order else [0, 1, 2, 3, 4, 5]
    pp := top.1, mw := top.2.mw, lowPp := low.1, lowMw := low.2.mw, burst := grant, why := why, made := b.now }

/-- The epoch's journal commit: once, after its POSE (R611). -/
def Block.journalOnce (b : Block) : Block :=
  if b.afu.posed && !b.ep.journaled && !b.pwr.paused then
    let b1 := b.journal none
    { b1 with ep := { b1.ep with journaled := true } }
  else b

/-- PLAN_COMMIT: no later than 0.5 ms before the boundary that the plan is for (R24); the journal commits before it (R611). -/
def Block.planCommit (x : PlanIn) (b : Block) : Block :=
  match b.upcoming with
  | some t =>
    if b.ready && decide (b.now + 125000 ≤ t) then
      let b1 := b.journalOnce.govLatch.skinCheck.thermalStep
      { b1 with ep := { b1.ep with next := some (b1.planOf x) }, map := { b1.map with moved := 0 } }
    else b
  | none => b

/-! ### The burst envelope (R593 to R595) -/

/-- A burst ends at a boundary: BURST_END with its span, and the cooldown (R594). -/
def Block.burstEnd (cause : Nat) (t since : Tick) (b : Block) : Block :=
  { b with pwr := { b.pwr with burst := .cooldown (t + b.burstCooldown) } }.event 0x0055 noUnit
    (leBytes 1 cause ++ List.replicate 7 0 ++ leBytes 8 (t - since))

/-- The reason codes of BURST_START. -/
def burstCode : BurstWhy → Nat
  | .none => 0 | .vio => 1 | .job => 2

/-- A boundary starts, continues or ends a burst; `len` is the length of the epoch that it starts. -/
def Block.burstStep (t len : Tick) (p : Plan) (b : Block) : Block :=
  match b.pwr.burst with
  | .active s =>
    if p.why == .none then b.burstEnd 1 t s
    else if !p.burst || !b.burstOk t then b.burstEnd 2 t s
    else if b.burstMax < t + len - s then b.burstEnd 3 t s
    else b
  | _ =>
    if p.burst && b.burstOk t && decide (len ≤ b.burstMax) then
      { b with pwr := { b.pwr with burst := .active t } }.event 0x0054 noUnit (leBytes 2 b.pwr.useBurst.toNat ++ leBytes 1 (burstCode p.why))
    else b

/-- Whether a burst runs. -/
def Burst.isActive : Burst → Bool
  | .active _ => true
  | _ => false

/-- GOV_STATUS (Table 19-8) at a tick. -/
def Block.govWord (t : Tick) (b : Block) : BitVec 128 :=
  let burst : Nat × Nat := match b.pwr.burst with
    | .idle => (0, 0)
    | .active _ => (1, 0)
    | .cooldown u => if t < u then (2, (u - t) / 250000) else (0, 0)
  let pp := b.pwr.pp
  BitVec.ofNat 128 (b.pwr.planned.toNat + b.pwr.thermal.toNat * 2 ^ 16 + b.pwr.skinUsed.toNat * 2 ^ 32 + b.pwr.skinSource.toNat * 2 ^ 48
    + b.pwr.skinLost.toNat * 2 ^ 50 + burst.1 * 2 ^ 52 + burst.2 * 2 ^ 64 + pp.boot.val * 2 ^ 96 + pp.fox.val * 2 ^ 104
    + pp.owl.val * 2 ^ 112 + pp.badger.val * 2 ^ 120)

/-! ### Moving P-points (R27, R627, R629) -/

/-- The body of CLOCK_LATE and VOLTAGE_LATE. -/
def lateBody (i : Dvfs) (wanted delivered : Fin 6) : Bytes := leBytes 1 (dvfsIsland i) ++ leBytes 1 wanted.val ++ leBytes 1 delivered.val

/-- Starts or stops an island's clock. -/
def Block.clock (i : Nat) (on : Bool) (b : Block) : Block := { b with flt := { b.flt with clockOn := b.flt.clockOn.set i on } }

/-- One island goes to its P-point at a boundary. A raise needs the voltage that was asked for settled, and no lower than the point's:
otherwise the island stays at the old point, with VOLTAGE_LATE (R629); a voltage raised for a burst that is then declined serves the lower
raise. On OTX-120C the clock stays gated until HB_PACK matches (R627); the on-die generator delivers at once. -/
def Block.movePoint (t : Tick) (q : PPoints) (i : Dvfs) (b : Block) : Block :=
  let w := ppGet q i
  let p := ppGet b.pwr.pp i
  if w = p then b
  else if w < p && (w < ppGet b.pwr.vreq i || ppGet b.pwr.vack i != ppGet b.pwr.vreq i) then
    Block.event 0x005C noUnit (lateBody i w p) { b with pwr := { b.pwr with volt := ppSet b.pwr.volt i (ppGet b.pwr.vack i) } }
  else
    let b1 := { b with pwr := { b.pwr with
      pp := ppSet b.pwr.pp i w
      preq := ppSet b.pwr.preq i w
      pack := if b.hooked then b.pwr.pack else ppSet b.pwr.pack i w
      packSince := if b.hooked then b.pwr.packSince.set (dvfsIndex i) (some t) else b.pwr.packSince } }
    if b.hooked then b1.clock (dvfsIsland i) false else b1

/-- Every island goes to its P-point. -/
def Block.movePoints (t : Tick) (q : PPoints) (b : Block) : Block := dvfsAll.foldl (fun b i => b.movePoint t q i) b

/-- P5 for Fox, Owl and Badger at the boundary after a thermal trip, whose clocks restart (R597). -/
def Block.tripPoints (q : PPoints) (b : Block) : PPoints := if b.pwr.tripped then { q with fox := 5, owl := 5, badger := 5 } else q

/-- The clocks that a trip stopped run again, and with them the watchdogs of their bridges. -/
def Block.untrip (b : Block) : Block :=
  if b.pwr.tripped then
    let b1 := (((b.clock 4 true).clock 6 true).clock 7 true).rearm 4 |>.rearm 6 |>.rearm 7
    { b1 with pwr := { b1.pwr with tripped := false } }
  else b

/-- The P-points of the next boundary as the plan stands. -/
def Block.nextPoints (b : Block) : PPoints :=
  let p := b.ep.next.getD b.ep.plan
  b.tripPoints (if p.burst then p.pp else p.lowPp)

/-- VOLTAGE_RAISE: in the last 100 µs before the boundary, an island that moves to a higher point gets its voltage, still at the old
frequency (R23, R27, R629). On-die regulators settle within the window; on OTX-120C the boundary brings what HB_VACK shows. -/
def Block.voltageRaise (i : Dvfs) (b : Block) : Block :=
  match b.upcoming with
  | some t =>
    let w := ppGet b.nextPoints i
    if b.ready && decide (b.now < t) && decide (t ≤ b.now + 25000) && decide (w < ppGet b.pwr.pp i) then
      { b with pwr := { b.pwr with
        vreq := ppSet b.pwr.vreq i w, volt := ppSet b.pwr.volt i w
        vack := if b.hooked then b.pwr.vack else ppSet b.pwr.vack i w } }
    else b
  | none => b

/-- VOLTAGE_LOWER: within 100 µs after the boundary, once HB_PACK shows the lower point (R27, R629). -/
def Block.voltageLower (i : Dvfs) (b : Block) : Block :=
  let p := ppGet b.pwr.pp i
  if b.ready && decide (b.now ≤ b.ep.start + 25000) && decide (ppGet b.pwr.vreq i < p) && ppGet b.pwr.pack i == p then
    { b with pwr := { b.pwr with
      vreq := ppSet b.pwr.vreq i p, volt := ppSet b.pwr.volt i p
      vack := if b.hooked then b.pwr.vack else ppSet b.pwr.vack i p } }
  else b

end Sys2Proof.Machine
end

