-- ==== Sys2Proof/Machine/Epoch.lean ====
section
/-! DEFINITION. Epoch boundaries: the end of an epoch, the pause entry, the swap, features, the rate, the plan, and the commands
EPOCH_BOUNDARY, PLAN_COMMIT, VOLTAGE_RAISE and VOLTAGE_LOWER (chapters 01, 03, 04, 16 and 17). -/

namespace Sys2Proof.Machine

/-! ### The end of an epoch -/

/-- PORT_COUNTERS of a receiver and of an inertial slot whose counters changed (R230). -/
def Block.portRecords (k : Nat) (b : Block) : Block :=
  let rec1 (unit : Nat) (source : BitVec 8) (cs : List (BitVec 32)) (b : Block) : Block :=
    b.diag 0x0101 source (leBytes 1 k ++ leBytes 1 unit ++ List.replicate 6 0 ++ cs.flatMap fun c => leBytes 4 c.toNat)
  let p := b.ports.getD k {}
  let s := b.slots.getD k {}
  let b1 := if p.changed then rec1 0 (portUnit k) p.counters b else b
  let b2 := if s.changed then rec1 1 (b.ctlUnit k) s.counters b1 else b1
  { b2 with
    ports := b2.ports.modify k fun p => { p with changed := false }
    slots := b2.slots.modify k fun s => { s with changed := false } }

/-- IFC_COUNTERS of a group whose counters changed (R267). -/
def Block.ifcRecords (g : Nat) (b : Block) : Block :=
  if (b.ifc.groups.getD g {}).changed then
    let body := leBytes 1 g ++ List.replicate 7 0
      ++ (List.range 6).flatMap fun i => (b.chan (6 * g + i)).counters.flatMap fun c => leBytes 4 c.toNat
    (b.diag 0x0102 (ifcUnit (6 * g)) body).onGroup g fun x => { x with changed := false }
  else b

/-- The records about the epoch that ends. -/
def Block.counterRecords (b : Block) : Block :=
  (List.range 4).foldl (fun b g => b.ifcRecords g) ((List.range 6).foldl (fun b k => b.portRecords k) b)

/-- The epoch ends: its POSE is sealed at the latest now (R28), its counter records are emitted, and an epoch that brought no SOLUTION counts
towards CARRY_LIMIT (R385). -/
def Block.endEpoch (b : Block) : Block :=
  let b1 := if b.afu.posed then b else b.assemblePose []
  let solved : Bool := match b1.afu.sol with | some s => s.epoch == b1.ep.now.toNat | none => false
  let b2 := b1.counterRecords
  { b2 with badger := { b2.badger with dryEpochs := if b2.badger.vioInit && !solved then b2.badger.dryEpochs + 1 else b2.badger.dryEpochs } }

/-! ### Pause (R600, R601, R604) -/

/-- Whether a job holds Badger tiles or Owl threads. -/
def Block.jobsHold (b : Block) : Bool :=
  (b.badger.jobs.any fun j => b.badger.tiles.any fun t => t == some j.no) || b.owl.jobs.any fun j => j.entered

/-- Whether the paused condition starts at a boundary (R600). -/
def Block.pauseDue (t : Tick) (b : Block) : Bool :=
  match b.pwr.pauseReq with
  | some r => !b.jobsHold || decide (r + 62500000 ≤ t)
  | none => false

/-- Powers islands down: the clock stops and the isolation holds, then the supply request falls (R630). -/
def Block.islandsDown (is : List Nat) (b : Block) : Block :=
  is.foldl (fun b i => { (b.clock i false) with pwr := { b.pwr with iso := b.pwr.iso.set i true, pwrReq := b.pwr.pwrReq.set i false } }) b

/-- Whether a hooked island's supply, or Den's retention, still keeps it isolated (R630). -/
def Block.awaits (i : Nat) (b : Block) : Bool := b.hooked && (!(b.pwr.pwrAck.getD i false) || (i == 8 && b.pwr.retAckDen))

/-- Asks for islands' supplies (R630). On the packages whose supplies are on the die they answer at once. -/
def Block.islandsUp (is : List Nat) (b : Block) : Block :=
  is.foldl (fun b i =>
    let b1 := { b with pwr := { b.pwr with pwrReq := b.pwr.pwrReq.set i true, pwrSince := b.pwr.pwrSince.set i b.now } }
    if b.awaits i then b1
    else { (b1.clock i true) with pwr := { b1.pwr with pwrAck := b1.pwr.pwrAck.set i true, iso := b1.pwr.iso.set i false } }) b

/-- Every open frame closes as ABANDONED: its receiver stops (R210, R601). -/
def Block.closeFrames (ks : List Nat) (b : Block) : Block :=
  ks.foldl (fun (b : Block) k =>
    let b1 := b.closeFrame k none
    { b1 with ports := b1.ports.modify k fun p => { p with synced := false, frame := none, trigs := [] } }) b

/-- The end of a shutdown in the paused engine: the journal commits, DRAM goes to deep sleep, and SHUTDOWN_READY is set (R604). -/
def Block.shutEnd (b : Block) : Block :=
  let b1 := b.journal none
  { b1 with pwr := { b1.pwr with shutReady := true, dram := .deepSleep } }

/-- Entry to the paused condition at a boundary, which then starts no epoch (R600, R601); a SHUTDOWN then ends with a commit of its own (R604,
R611). The time base at a resume goes on from the length of the epoch that ends here (R146). An armed swap waits for the resume boundary. -/
def Block.enterPause (t : Tick) (b : Block) : Block :=
  let b1 := match b.pwr.burst with
    | .active s => b.burstEnd 4 t s
    | _ => b
  let b2 := b1.closeFrames (List.range 6)
  let b3 := Block.islandsDown [4, 5, 6, 7] { b2.clock 8 false with
    pwr := { b2.pwr with paused := true, pauseReq := none, wake := none, retDen := true, dram := .selfRefresh, standbyOff := true,
                             retAckDen := b2.pwr.retAckDen || !b2.hooked, iso := b2.pwr.iso.set 8 true }
    pins := b2.pinsAtRest
    badger := { b2.badger with tiles := b2.badger.tiles.map fun _ => none }
    cfg := { b2.cfg with armed := b2.cfg.armed.map fun a => { a with epoch := b2.ep.now.toNat + 1, boundary := farBoundary } }
    ep := { b2.ep with next := none, prevLen := t - b2.ep.start } }
  let b4 := Block.journal none (b3.event 0x0059 noUnit (leBytes 1 b.pwr.shutdown.toNat))
  if b.pwr.shutdown then b4.shutEnd else b4

/-! ### The swap (R25, R98 to R107) -/

/-- Receivers that the new set disables (R211). -/
def stopping (old new : List Memory) : List Nat :=
  (List.range 6).filter fun k => memField (pageAt old 2 k) 16 1 == 1 && memField (pageAt new 2 k) 16 1 != 1

/-- Inertial slots whose fields a swap changes (R225). -/
def slotsChanged (old new : List Memory) : List Nat :=
  (List.range 6).filter fun k => memBytes (pageAt old 2 k) 96 416 != memBytes (pageAt new 2 k) 96 416

/-- Whether a set enables an inertial slot. -/
def slotEnabled (set : List Memory) (k : Nat) : Bool := memField (pageAt set 2 k) 96 1 == 1

/-- A running event unit whose fields the swap changes returns to idle, and its new fields act on outputs stamped from the boundary on (R100,
R263). -/
def Block.reconfigure (new : List Memory) (t : Tick) (c : Nat) (b : Block) : Block :=
  let fields (set : List Memory) (u : Nat) : List Nat := (List.range 24).map fun i => chanIn set c (80 + 24 * u + i) 1
  if (b.chan c).running && chanEnabled new c then
    (List.range 2).foldl (fun (b : Block) u =>
      let o := fields b.cfg.active u
      if o = fields new u then b
      else (b.evEnd c u 2 t (o.getD 0 0) (o.getD 1 0) (o.getD 3 0) (o.getD 2 0)).onChan c
        fun x => x.setEv u { x.ev u with since := t }) b
  else b

/-- A change of RANGE_SCALE or COMMON_FRAC of a running channel waits for its first input of the epoch (R252). -/
def Block.rescaleLater (new : List Memory) (t : Tick) (c : Nat) (b : Block) : Block :=
  let scale (set : List Memory) : List Nat := chanIn set c 8 1 :: (List.range 16).map fun i => chanIn set c (16 + 4 * i) 4
  let old := scale b.cfg.active
  if (b.chan c).running && chanEnabled new c && old != scale new then
    b.onChan c fun x => { x with rescaleAt := some t, oldScale := old.tail.map (BitVec.ofNat 32) }
  else b

/-- What stops under the old set, at the boundary (R211, R225, R234, R262, R263). The open IFC_OUT parcels close, so that each names the set
that its records were computed under (R264, DEDUCED, log entry 84). -/
def Block.stopUnits (new : List Memory) (t : Tick) (b : Block) : Block :=
  let old := b.cfg.active
  let b1 := b.closeFrames (stopping old new)
  let b2 := (slotsChanged old new).foldl (fun b k => b.closeGroup k) b1
  let b3 := (List.range 24).foldl (fun b c =>
    if chanEnabled new c then (b.reconfigure new t c).rescaleLater new t c else b.chanStop old c) b2
  -- what is left of an open IFC_OUT parcel was computed under the old ACTIVE_GEN (R264)
  (List.range 4).foldl (fun b g => b.closeOut g) b3

/-- Under a new active set each TRIG pin of a triggered camera is driven to its inactive level, but one whose camera's pulse is still
running (R137, R142, Table 20-5, log entry 75). A pin that only the set before gave a camera goes to the level that its page there gives. -/
def Block.restPins (old : List Memory) (b : Block) : Block :=
  (List.range 8).foldl (fun b pin =>
    match trigOwnerIn b.cfg.active pin with
    | some k =>
      if b.port k 16 1 == 1 && (b.ports.getD k {}).trigs.any (fun t => decide (b.now ≤ t.fall)) then b
      else b.trigDrive pin (b.trigInactive pin)
    | none => if (trigOwnerIn old pin).isSome then b.trigDrive pin (trigInactiveIn old pin) else b) b

/-- The first tick from t on of a grid from a tick (R214). -/
def pollGrid (from_ period t : Tick) : Tick := from_ + (t - from_ + max 1 period - 1) / max 1 period * period

/-- Inertial slots that start, stop or change, and the addresses of the I3C buses (R214, R217, R586). -/
def Block.startSlots (old : List Memory) (t : Tick) (b : Block) : Block :=
  let ks := slotsChanged old b.cfg.active
  let fresh := ks.filter fun k => !slotEnabled old k && slotEnabled b.cfg.active k
  let anew (k : Nat) (s : Slot) : Slot :=
    if slotEnabled b.cfg.active k && slotEnabled old k then
      -- the polls stay on the grid of the boundary that enabled the slot (R214)
      { s with pollNext := pollGrid s.pollFrom (b.port k 136 4) t }
    else { counters := s.counters, changed := s.changed, pollFrom := t, pollNext := t }
  let b1 := ks.foldl (fun (b : Block) k => { b with slots := b.slots.modify k (anew k) }) b
  let g (off n dflt : Nat) : Nat := govIn b.cfg.active off n dflt
  let govChanged : Bool := govPageIn old != govPageIn b.cfg.active
  let due (bus : Nat) : Bool := (fresh.any fun k => b.port k 97 1 == bus && decide (b.port k 99 1 < 2))
    || (govChanged && g 16 1 0xFF == bus && g 19 1 2 == 0)
  [2, 3].foldl (fun b bus => if due bus then b.i3cAssign bus else b) b1

/-- Fox under the new set (R283): slots that a lower MAX_FEATURES ends; every slot when ROLE leaves 1; every slot free when it becomes 1. -/
def Block.foxSwap (old : List Memory) (b : Block) : Block :=
  (List.range 6).foldl (fun b cam =>
    let r0 := foxRole old cam
    let r1 := foxRole b.cfg.active cam
    let slots := (b.foxCam cam).base.feats.map Feature.slot
    let on (c : FoxCam) (f : FoxBase → FoxBase) : FoxCam := { c with base := f c.base }
    b.onCam cam fun c => on c fun c =>
      if r0 = 1 && r1 = 1 then
        (if foxMax b.cfg.active cam < foxMax old cam then { c with toEnd := slots.filter fun s => foxMax b.cfg.active cam ≤ s } else c)
      else if r0 = 1 then (if r1 = 0 then { c with feats := [], toEnd := [] } else { c with toEnd := slots })
      else if r1 = 1 then { c with feats := [], toEnd := [] }
      else c) b

/-- Owl slots that the swap disables end their uncommitted host jobs (R352). -/
def Block.owlSwap (old : List Memory) (b : Block) : Block :=
  let off (s : Nat) : Bool := memField (pageAt old 8 s) 16 1 == 1 && memField (pageAt b.cfg.active 8 s) 16 1 != 1
  (b.owl.jobs.filter fun j => off j.slot).foldl (fun (b : Block) j =>
    match j.owner with
    | some r =>
      (match b.cmd r with
      | some c => if b.pastCommit r c then b else (b.dropWork r).finish r stSlotOff 0 0 0
      | none => b)
    | none => b) b

/-- A member whose job changes leaves it (R547): this is sent under the old set. -/
def Block.leaveJob (new : List Memory) (b : Block) : Block :=
  let job (set : List Memory) : List Nat := [trailIn set 16 1 0, trailIn set 20 4 0, trailIn set 24 1 0]
  match b.trail.joined with
  | some (s, g) =>
    if b.isMember && job b.cfg.active != job new then
      let b1 := b.control' 0x0908 b.collector
        (leBytes 4 b.jobTag ++ leBytes 2 b.trail.chip.toNat ++ [s, 0] ++ leBytes 2 g.toNat ++ List.replicate 6 0)
      { b1 with trail := { b1.trail with joined := none, joinSent := false, joinWait := false, toSend := [], unacked := [] } }
    else b
  | none => b

/-- The trails under the new set (R515, R518). -/
def Block.trailSwap (old : List Memory) (b : Block) : Block :=
  let role := b.trailRole
  if role = trailIn old 16 1 0 && b.chipBase = trailIn old 18 2 0 then b
  else if role = 0 then b.lanesDown
  else b.rollStart

/-- Every occupied guest slot is evicted, cause DISABLED (R80, R460). -/
def Block.evictAll (b : Block) : Block :=
  (List.range 64).foldl (fun b s => if (b.guest s).st.accepts then b.evict s 4 else b) b

/-- The armed swap at the boundary that starts epoch n (R25, R98 to R100). -/
def Block.swapAt (n : Nat) (t : Tick) (b : Block) : Block :=
  let old := b.cfg.active
  let new := b.cfg.shadow
  let b1 := (b.stopUnits new t).leaveJob new
  let b2 := ((b1.swapSets n).restPins old).startSlots old t
  let b3 := (List.range 24).foldl (fun b c => if chanEnabled new c then b.chanStart c else b) b2
  let b4 := (b3.foxSwap old).owlSwap old
  let b5 := if (pagePos old 9 0).isSome && (pagePos new 9 0).isNone then b4.evictAll else b4
  let b6 := b5.trailSwap old
  let on (k : Nat) (p : Port) : Port :=
    if memField (pageAt old 2 k) 16 1 != 1 && memField (pageAt new 2 k) 16 1 == 1 then { p with synced := false, frame := none, trigs := [] } else p
  { b6 with
    afu := { b6.afu with calibDue := b6.afu.calibDue || memField (pageAt old 5 0) 16 4 != memField (pageAt new 5 0) 16 4 }
    ports := b6.ports.mapIdx on }

/-- The cameras of a set's enabled receivers, with their ports. -/
def enabledCams (set : List Memory) : List (Nat × Nat) :=
  ((List.range 6).filter fun k => memField (pageAt set 2 k) 16 1 == 1).map fun k => (memField (pageAt set 2 k) 34 1, k)

/-- What a swap changes that a plan rests on, as the cause mask of PLAN_FALLBACK: the epoch rate, the enabled cameras, the camera-to-port
mapping (R26). -/
def planMask (old new : List Memory) : Nat :=
  let o := enabledCams old
  let w := enabledCams new
  let cams (l : List (Nat × Nat)) : List Nat := (List.range 256).filter fun c => l.any fun x => x.1 == c
  let moved : Bool := (cams o).any fun c =>
    (cams w).contains c && (o.filter fun x => x.1 == c) != w.filter fun x => x.1 == c
  (memField (corePage old) 16 1 != memField (corePage new) 16 1).toNat + 2 * (cams o != cams w).toNat + 4 * moved.toNat

/-! ### Features and the rate (R80, R573 to R575) -/

/-- The cap that RATE_240 puts on the rate (R573). -/
def Block.rateCapHz (b : Block) : Nat :=
  if (if b.feat.everCommit then b.feat.inForce else b.offerValue).getLsbD featRate240 then 240 else 120

/-- The effective rate of R573 at a step level. -/
def Block.rateAt (k : Fin 3) (b : Block) : Nat := max 30 (min (memField (corePage b.cfg.active) 16 1) b.rateCapHz / 2 ^ k.val)

/-- The newest commit takes effect at the first boundary whose plan was committed after it (R80, R515). -/
def Block.applyFeatures (made : Tick) (b : Block) : Block :=
  if b.feat.everCommit && !b.feat.applied && decide (b.feat.commitTick ≤ made) then
    let left := setNeeds b.cfg.active &&& ~~~b.feat.committed
    let b1 := { b with feat := { b.feat with inForce := b.feat.committed, applied := true } }
    let b2 := if left = 0 then b1 else b1.event 0x0019 noUnit (leBytes 16 left.toNat)
    let b3 := if left.getLsbD featPriors then { b2 with afu := { b2.afu with priors := List.replicate 16 [] } } else b2
    let b4 := if left.getLsbD featGuests then b3.evictAll else b3
    if left.getLsbD featTrails then b4.lanesDown else b4
  else b

/-- The effective rate at the boundary that starts epoch n (R124, R573 to R575); `cap` is the cap before. -/
def Block.stepRate (n : Nat) (t made : Tick) (cap : Nat) (b : Block) : Block :=
  let k := if b.ep.changeAt ≤ made then b.flt.step else b.ep.k
  let f := b.rateAt k
  let told : Bool := k != b.ep.k || b.rateCapHz != cap
  let b1 := { b with ep := { b.ep with
    k := k, rate := f
    base := if f = b.ep.rate then b.ep.base else t
    n := if f = b.ep.rate then b.ep.n else n } }
  if f != b.ep.rate && told then
    b1.event 0x0018 noUnit (leBytes 1 b.ep.rate ++ leBytes 1 f ++ leBytes 1 k.val ++ leBytes 1 (if k != b.ep.k then 0 else 1)
      ++ leBytes 1 (popcount b.flt.fox) ++ leBytes 1 (popcount b.flt.tiles))
  else b1

/-- On a resume the base moves to the boundary whatever the rate (R603). -/
def Block.rebase (n : Nat) (t : Tick) (b : Block) : Block := { b with ep := { b.ep with base := t, n := n } }

/-! ### The start of an epoch -/

/-- The AFU's choice of inertial slot for the epoch (R311, R312). -/
def Block.chooseInertial (b : Block) : Block :=
  let bad (k : Nat) : Bool := (b.slots.getD k {}).lost
  let usable : Bool := decide (b.secondarySlot < 6) && slotEnabled b.cfg.active b.secondarySlot && !bad b.secondarySlot
  let second : Bool := bad b.primarySlot && usable
  { b with afu := { b.afu with
    secondary := second, switched := second && !b.afu.secondary, noInertial := bad b.primarySlot && !usable } }

/-- Each DRAM device's temperature mode register (R412, R598). -/
def Block.readDram (ds : List DramTemp) (b : Block) : Block :=
  let us := ds.filter fun d => b.den.channels.getLsbD d.channel.toNat
  let b1 := us.foldl (fun (b : Block) d =>
    let b1 := { b with den := { b.den with refresh := b.den.refresh.set d.channel.toNat d.value } }
    if d.hot then b1.event 0x0026 noUnit (leBytes 1 d.channel.toNat ++ leBytes 1 d.rank.toNat ++ [d.value]) else b1) b
  if ds.isEmpty then b1 else { b1 with den := { b1.den with hot := us.any DramTemp.hot } }

/-- The hottest die temperature (DIE_TEMP). -/
def hottestOf (ts : List (Option (BitVec 16))) : BitVec 16 :=
  match ts.filterMap id with
  | [] => 0
  | x :: xs => xs.foldl (fun a y => if a.toInt < y.toInt then y else a) x

/-- What an epoch starts with: none of its POSE, PREINT, VIO job, decisions and records exists (R28, R145, R363). -/
def Block.freshEpoch (n : Nat) (t len : Tick) (p : Plan) (mw : BitVec 16) (b : Block) : Block :=
  let tcPrev := if b.afu.tcDone then some b.afu.tc else b.afu.tcPrev
  { b with
    ep := { b.ep with now := BitVec.ofNat 64 n, start := t, prevLen := len, plan := p, next := none, degraded := false, cameras := 0, journaled := false }
    ports := b.ports.map fun (p : Port) => { p with trigs := p.trigs.filter fun x => !x.met || decide (t < x.fall) }
    -- the frames whose results belong to an epoch that is past are gone (R271)
    fox := { b.fox with cams := b.fox.cams.map fun (c : FoxCam) =>
      { c with dropped := false, frames := c.frames.filter fun f => !f.consumed && (match f.mid with | some m => decide (n ≤ m.2) | none => true) } }
    afu := { b.afu with
      tcPrev := tcPrev, tc := b.afu.tcNext.getD b.afu.tc, tcDone := b.afu.tcNext.isSome, tcNext := none, preintDone := false, posed := false, carried := false, noSolEpoch := false }
    owl := { b.owl with gated := List.replicate 6 none, gateRefs := [], motion := none, motionDone := false }
    badger := { b.badger with vioDone := false, keyDone := false }
    map := { b.map with merged := 0, purged := 0 }
    trail := { b.trail with unreachSaid := [] }
    pwr := { b.pwr with planned := mw, hottest := hottestOf b.pwr.dieTemps } }

/-- FRAG_ACK to each member of a collector's merge job (R546). -/
def Block.fragAcks (b : Block) : Block :=
  if b.isCollector && b.trail.assigned && b.lanesOn then
    (List.range 64).foldl (fun b s =>
      let g := b.guest s
      match g.member with
      | some c =>
        if g.st.accepts || g.refusal != 0 then
          (b.control' 0x0909 c (leBytes 4 b.jobTag ++ leBytes 2 c.toNat ++ leBytes 1 s ++ [0] ++ leBytes 2 g.gen.toNat ++ leBytes 2 g.refusal.toNat
            ++ leBytes 4 g.lastFrag.toNat)).onGuest s fun g => { g with refusal := 0 }
        else b
      | none => b) b
  else b

/-- A member that has no place in its job asks for one, and sends what its buffer admits (R544, R546). -/
def Block.memberTurn (b : Block) : Block :=
  let b1 := if b.trail.joined.isNone && !b.trail.joinWait && !b.trail.joinSent then b.sendJoin else b
  b1.pumpFrags

/-- The parcels of the pool that no unit can still take: those of the frames and jobs of past epochs, of the types that one epoch
consumes (R175). -/
def sweepTypes : List (BitVec 16) := [0x0101, 0x0102, 0x0301, 0x0302, 0x0502, 0x0603, 0x0610]

/-- The pool without the parcels that are no longer an input of a frame, a reference frame, a solution or an unfinished job. -/
def Block.sweep (b : Block) : Block :=
  let refs := (b.fox.cams.flatMap fun c => c.base.refs ++ c.frames.flatMap fun f => f.base.refs ++ f.bands.flatMap Band.pyr).map PyrRef.ref
  let sols := [b.afu.sol, b.afu.solPrev].filterMap id
  let working : Bool := b.fox.cams.any (fun c => !c.frames.isEmpty) || b.ports.any fun p => p.frame.isSome
  let kept (p : Parcel) : Bool :=
    !sweepTypes.contains p.type || (working && (p.type == 0x0101 || p.type == 0x0102 || p.type == 0x0301))
      || refs.any (InRef.same p.ref) || (sols.any fun s => InRef.same s.parcel.ref p.ref)
      || (b.badger.jobs.any fun j => j.inputs.any (InRef.same p.ref)) || b.owl.jobs.any fun j => j.inputs.any fun i => InRef.same i.1 p.ref
  { b with host := { b.host with pool := b.host.pool.filter kept } }

/-- The fallback plan of R26 for epoch n: every island at its previous P-point, the lanes by R276. DESIGN CHOICE (log entry 77): of the plan
that it replaces it keeps the burst request and its reason only while a burst runs (R595), so that no burst starts, and its power is the
estimate in force; the spec gives it P-points and lanes alone. -/
def Block.fallbackPlan (n : Nat) (plan : Plan) (b : Block) : Plan :=
  let running := b.pwr.burst.isActive
  { plan with
    lanes := fallbackLanes b.cfg.active n b.flt.fox b.pwr.pp.fox, order := [0, 1, 2, 3, 4, 5], pp := b.pwr.pp, lowPp := b.pwr.pp
    mw := b.pwr.planned, lowMw := b.pwr.planned
    burst := plan.burst && running, why := if running then plan.why else .none }

/-- Epoch n starts at a boundary, in the order of R25: the swap, the P-points, the plan. `resume`: it is the resume boundary (R603). -/
def Block.startEpoch (n : Nat) (t : Tick) (dram : List DramTemp) (vack : PPoints) (resume : Bool) (b : Block) : Block :=
  let len := if resume then b.ep.prevLen else t - b.ep.start
  let b0 := { b with ep := { b.ep with now := BitVec.ofNat 64 n }, pwr := { b.pwr with vack := if b.hooked then vack else b.pwr.vack } }
  let b1 := if b.ep.next.isNone then b0.diag 0x0106 noUnit (leBytes 8 n) else b0
  let plan := b.ep.next.getD b.ep.plan
  let arm := b.cfg.armed.filter fun a => a.epoch == n
  let b2 := if arm.isSome then b1.swapAt n t else b1
  let b3 := (b2.applyFeatures plan.made).stepRate n t plan.made b.rateCapHz
  let b4 := if resume then b3.rebase n t else b3
  let mask := if arm.isSome then planMask b.cfg.active b4.cfg.active else 0
  let fall : Bool := mask != 0 && (match arm with | some a => decide (plan.made < a.at_) | none => false)
  let plan1 := if fall then b4.fallbackPlan n plan else plan
  let b5 := if fall then b4.diag 0x0107 noUnit (leBytes 8 n ++ leBytes 1 mask) else b4
  let b6 := b5.burstStep t (b5.ep.boundary (n + 1) - t) plan1
  let top := b6.pwr.burst.isActive
  let b7 := (b6.movePoints t (b6.tripPoints (if top then plan1.pp else plan1.lowPp))).untrip
  let b8 := (b7.readDram dram).chooseInertial.freshEpoch n t len plan1 (if top then plan1.mw else plan1.lowMw)
  let b9 := { b8 with cfg := { b8.cfg with armed := b8.cfg.armed.map fun (a : Armed) => { a with boundary := b8.ep.boundary a.epoch } } }
  { b9 with pwr := { b9.pwr with govStatus := b9.govWord t } }.sweep.fragAcks.memberTurn.owlEnter

/-- EPOCH_BOUNDARY: the boundary's tick has come. -/
def Block.epochBoundary (dram : List DramTemp) (vack : PPoints) (b : Block) : Block :=
  let t := b.ep.nextBoundary
  if b.ready && b.ep.running && !b.pwr.paused && decide (t ≤ b.now) then
    let b1 := b.endEpoch
    if b1.pauseDue t then b1.enterPause t
    else b1.startEpoch (b.ep.now.toNat + 1) t dram vack false
  else b

/-! ### Exec -/

/-- EPOCH_BOUNDARY. -/
def execEpochBoundary (dram : List DramTemp) (vack : PPoints) (s : State) : Host.Outcome State Fault Refusal :=
  s.act (Block.epochBoundary dram vack)
/-- PLAN_COMMIT. -/
def execPlanCommit (p : PlanIn) (s : State) : Host.Outcome State Fault Refusal := s.act (Block.planCommit p)
/-- VOLTAGE_RAISE. -/
def execVoltageRaise (i : Dvfs) (s : State) : Host.Outcome State Fault Refusal := s.act (Block.voltageRaise i)
/-- VOLTAGE_LOWER. -/
def execVoltageLower (i : Dvfs) (s : State) : Host.Outcome State Fault Refusal := s.act (Block.voltageLower i)

end Sys2Proof.Machine
end

