-- ==== Sys2Proof/Machine/Time.lean ====
section
/-! DEFINITION. TIME_LOST, PTM dialogues and the reads that latch (chapter 04, R640, R641, R651). -/

namespace Sys2Proof.Machine

/-! ### TIME_LOST (R156, R157) -/

/-- TIME_LOST after an increment of TB_EPOCH, or after the counter did not answer (R637): set, and told with the new TB_EPOCH. -/
def Block.timeLost (cause : Nat) (b : Block) : Block :=
  { b with thermos := { b.thermos with timeLost := true, lostCause := BitVec.ofNat 8 cause } }.event 0x0003 noUnit
    (leBytes 4 b.thermos.tbEpoch.toNat ++ leBytes 1 cause)

/-- TIME_LOST clears: by a PTM dialogue (cause 1) or by LOST_ACK (cause 2). -/
def Block.timeRegained (cause : Nat) (b : Block) : Block :=
  if b.thermos.timeLost then
    { b with thermos := { b.thermos with timeLost := false } }.event 0x0004 noUnit (leBytes 1 cause)
  else b

/-- LOST_ACK: TIME_CTRL written with bit 0 set. -/
def Block.lostAck (value : BitVec 32) (b : Block) : Block :=
  if b.ready && value.getLsbD 0 then b.timeRegained 2 else b

/-! ### PTM (R117 to R120, R676) -/

/-- PTM_INTERVAL in ticks; 0 selects 100 ms (R117). -/
def Block.ptmInterval (b : Block) : Tick :=
  let n := memField (corePage b.cfg.active) 20 2
  ms (if n = 0 then 100 else n)

/-- Whether dialogues run (R117). -/
def Block.ptmOn (b : Block) : Bool := b.ready && b.link.up && b.link.ptm

/-- A dialogue starts: the request leaves, and the engine keeps its own TB of that instant (R119). -/
def Block.ptmStart (b : Block) : Block :=
  Block.drive .ptmRequest { b with tim := { b.tim with busy := true, deferred := false, reqAt := b.now } }

/-- PTM_DIALOGUE_DUE: in L0 the dialogue starts; otherwise it waits for L0 (R118). -/
def Block.ptmDue (b : Block) : Block :=
  if b.ptmOn && decide (b.tim.due ≤ b.now) && !b.tim.busy then
    let b1 := { b with tim := { b.tim with due := b.now + b.ptmInterval } }
    if b.link.pm == .l0 then b1.ptmStart else { b1 with tim := { b1.tim with deferred := true } }
  else b

/-- PTM_DEFERRED_RUN. -/
def Block.ptmDeferred (b : Block) : Block :=
  if b.ptmOn && b.tim.deferred && b.link.pm == .l0 && !b.tim.busy then b.ptmStart else b

/-- The host PTM time at the request instant, as the PCIe Base Specification defines it for a requester: the responder's time at the request's
arrival less the one-way flight, which is half of the round trip less the responder's own delay (R119; PRESUMED, log entry 100). `sent` and `got`
are ticks of 4 ns; the responder's stamps are nanoseconds. -/
def ptmHostTime (master : BitVec 64) (delay : BitVec 32) (sent got : Tick) : BitVec 64 :=
  master - BitVec.ofInt 64 ((4 * ((got : Int) - sent) - delay.toNat) / 2)

/-- PTM_DIALOGUE_COMPLETE, with the responder's time at the request's arrival and its delay; the pair's TB is one tick late at 2.5 GT/s
(R676). -/
def Block.ptmComplete (master : BitVec 64) (delay : BitVec 32) (b : Block) : Block :=
  if b.tim.busy then
    let hostTime := ptmHostTime master delay b.tim.reqAt b.now
    let tb := BitVec.ofNat 64 b.tim.reqAt + (if b.link.speed = 0 then 1 else 0)
    let b1 := { b with tim := { b.tim with
      busy := false, pairHost := hostTime, pairTb := tb, pairEpoch := b.thermos.tbEpoch, valid := true } }
    (b1.event 0x0002 noUnit (leBytes 8 hostTime.toNat ++ leBytes 8 tb.toNat ++ leBytes 4 b.thermos.tbEpoch.toNat
      ++ leBytes 1 (b.link.speed.val + 1))).timeRegained 1
  else b

/-- PTM_DIALOGUE_FAIL. -/
def Block.ptmFail (b : Block) : Block :=
  if b.tim.busy then { b with tim := { b.tim with busy := false, failCount := bump b.tim.failCount } } else b

/-! ### Exec -/

/-- PTM_DIALOGUE_DUE. -/
def execPtmDialogueDue (s : State) : Host.Outcome State Fault Refusal := s.act Block.ptmDue
/-- PTM_DEFERRED_RUN. -/
def execPtmDeferredRun (s : State) : Host.Outcome State Fault Refusal := s.act Block.ptmDeferred
/-- PTM_DIALOGUE_COMPLETE. -/
def execPtmDialogueComplete (master : BitVec 64) (delay : BitVec 32) (s : State) : Host.Outcome State Fault Refusal :=
  s.act (Block.ptmComplete master delay)
/-- PTM_DIALOGUE_FAIL. -/
def execPtmDialogueFail (s : State) : Host.Outcome State Fault Refusal := s.act Block.ptmFail
/-- LOST_ACK. -/
def execLostAck (value : BitVec 32) (s : State) : Host.Outcome State Fault Refusal := s.act (Block.lostAck value)

end Sys2Proof.Machine
end

