-- ==== Sys2Proof/Machine/Feature.lean ====
section
/-! DEFINITION. Feature negotiation and the link's sessions (chapter 02, R466 to R469, R646). -/

namespace Sys2Proof.Machine

/-- A commit of a feature set (R73, R75, R80). Occupied guest slots go at once when it leaves GUESTS out and the active set has no guest page;
with one, at the boundary of R80. -/
def Block.commitSet (set : BitVec 128) (h : Hello) (b : Block) : Block :=
  let b1 := Block.hello h { b with feat := { b.feat with
    committed := set, everCommit := true, commitTick := b.now, applied := false, timer := none } }
  if set.getLsbD featGuests || (pagePos b1.cfg.active 9 0).isSome then b1 else b1.evictAll

/-- FEAT_ACCEPT_WRITE: ignored before READY and after a commit (R70, R77); it ends a refusal (R646). The reserved bits 19 to 127 stay zero (R6,
R82). -/
def Block.acceptWrite (word : Fin 4) (value : BitVec 32) (b : Block) : Block :=
  if !b.ready || b.feat.done then b
  else
    let old := (b.feat.accept >>> (32 * word.val)).setWidth 32
    let b1 := { b with feat := { b.feat with
      accept := (b.feat.accept ^^^ ((old ^^^ value).setWidth 128 <<< (32 * word.val))) &&& capabilities } }
    if b1.feat.state == .refused then b1.hello .waiting else b1

/-- HELLO_DONE (R72 to R77). -/
def Block.helloDone (value : BitVec 32) (b : Block) : Block :=
  if !b.ready || !value.getLsbD 0 then b
  else if b.feat.done then
    (if b.feat.late then b else Block.cause 1 { b with feat := { b.feat with late := true } })
  else if b.feat.accept &&& ~~~b.feat.offer = 0 then b.commitSet b.feat.accept .committed
  else b.hello .refused

/-- Whether a command writes 1 to HELLO_DONE (Table 19-3). -/
def writesHello : Instr → Bool
  | .helloDone v => v.getLsbD 0
  | .registerWrite (.bar0 0x120 _ v) => v.getLsbD 0
  | _ => false

/-- HELLO_TIMER_EXPIRY: the baseline, or the limited offer of R79, is committed (R75); a HELLO_DONE that the queue holds for the same tick
takes effect in its place (R76, log entry 1). -/
def Block.helloExpiry (waiting : List Instr) (b : Block) : Block :=
  if waiting.any writesHello then b else
  match b.feat.timer with
  | some t =>
    if b.ready && !b.feat.done && decide (t ≤ b.now) then
      b.commitSet (if b.feat.limited then b.feat.offer else baseline &&& b.feat.offer) .baseline
    else b
  | none => b

/-- LINK_UP, at a speed and with the bits that the host has set in configuration space (R78). -/
def Block.linkUp (speed : Fin 4) (bme msix ptm : Bool) (b : Block) : Block :=
  if b.link.up || b.boot.phase == .thermosPor then b
  else
    Block.sessionStart { b with
      link := { b.link with up := true, pm := .l0, speed := speed, bme := bme, msixOn := msix, ptm := ptm }
      tim := { b.tim with due := b.now, deferred := false } }

/-- LINK_DOWN. -/
def Block.linkDown (b : Block) : Block := if b.link.up then b.linkLost else b

/-- BUS_MASTER_ENABLE_CLEAR: as under link loss, but that the session goes on (R468). -/
def Block.busMasterOff (b : Block) : Block := if b.link.bme then { b.hold with link := { b.link with bme := false } } else b

/-- FLR: the function's configuration returns to its defaults, and a new session starts (R469, log entry 4). -/
def Block.flr (b : Block) : Block :=
  if b.link.up then
    let b1 := b.flrEffect.owlEnter
    Block.sessionStart { b1 with
      link := { b1.link with bme := false, ptm := false, msixOn := false, msix := List.replicate 32 {}, pba := 0 }
      tim := { b1.tim with busy := false, deferred := false } }
  else b

/-! ### Exec -/

/-- FEAT_ACCEPT_WRITE. -/
def execFeatAcceptWrite (word : Fin 4) (value : BitVec 32) (s : State) : Host.Outcome State Fault Refusal := s.act (Block.acceptWrite word value)
/-- HELLO_DONE. -/
def execHelloDone (value : BitVec 32) (s : State) : Host.Outcome State Fault Refusal := s.act (Block.helloDone value)
/-- HELLO_TIMER_EXPIRY. -/
def execHelloTimerExpiry (s : State) : Host.Outcome State Fault Refusal := s.act (Block.helloExpiry s.pending)
/-- LINK_UP. -/
def execLinkUp (speed : Fin 4) (bme msix ptm : Bool) (s : State) : Host.Outcome State Fault Refusal := s.act (Block.linkUp speed bme msix ptm)
/-- LINK_DOWN. -/
def execLinkDown (s : State) : Host.Outcome State Fault Refusal := s.act Block.linkDown
/-- BUS_MASTER_ENABLE_CLEAR. -/
def execBusMasterEnableClear (s : State) : Host.Outcome State Fault Refusal := s.act Block.busMasterOff
/-- FLR. -/
def execFlr (s : State) : Host.Outcome State Fault Refusal := s.act Block.flr

end Sys2Proof.Machine
end

