-- ==== Sys2Proof/Machine/Power.lean ====
section
/-! DEFINITION. The governor's inputs, heat, pause, shutdown and the journal (chapter 17). -/

namespace Sys2Proof.Machine

/-! ### Budget and skin (R585 to R589, R652) -/

/-- GOV_BUDGET_WRITE: each field clamped; the first plan committed after it uses them (R587). -/
def Block.budgetWrite (value : BitVec 32) (b : Block) : Block :=
  if b.ready then
    { b with pwr := { b.pwr with
      budgetSet := true, sustained := b.clampSustained (value.extractLsb' 0 16).toNat, burstMw := b.clampBurst (value.extractLsb' 16 16).toNat } }
  else b

/-- GOV_SKIN_WRITE: the value takes the tick of the write (R652). -/
def Block.skinWrite (value : BitVec 32) (b : Block) : Block :=
  if b.ready then
    let v := value.extractLsb' 0 16
    Block.skinBack 2 v { b with pwr := { b.pwr with skin := v, skinAt := some b.now } }
  else b

/-- SKIN_READ_DUE: the controller reads the sensor when no inertial read runs or waits (R585); none while the engine is paused. -/
def Block.skinReadDue (b : Block) : Block :=
  let bus := b.skinBus
  if b.ready && !b.pwr.paused && !(b.flt.restarting.getD 2 false) && (bus == 2 || bus == 3) && !b.pwr.skinBusy
      && decide (b.pwr.skinDue ≤ b.now) && (b.ctls.getD bus none).isNone && (b.waitingReads bus).isEmpty then
    Block.drive (.skinRead bus (BitVec.ofNat 8 (b.gov 17 1 0)) (BitVec.ofNat 8 (b.gov 18 1 0))) { b with pwr := { b.pwr with
      skinBusy := true, skinDue := b.pwr.skinDue + max 1 b.skinPeriod * ((b.now - b.pwr.skinDue) / max 1 b.skinPeriod + 1) } }
  else b

/-- SKIN_READ_DONE, with the value read, or none when the read was not acknowledged (R586, R589). -/
def Block.skinReadDone (value : Option (BitVec 16)) (b : Block) : Block :=
  if !b.pwr.skinBusy then b
  else match value with
  | some v => Block.skinBack 1 v { b with pwr := { b.pwr with skinBusy := false, sensor := some v, sensorAt := b.now, sensorFails := 0 } }
  | none =>
    let b1 := { b with pwr := { b.pwr with skinBusy := false, sensorFails := b.pwr.sensorFails + 1 } }
    if b1.skinFrom = 1 then b1.skinCheck else b1

/-- SKIN_STALE: the host's value is older than SKIN_STALE_MS (R589). -/
def Block.skinStale (b : Block) : Block := if b.ready && b.skinLostCause == 3 then b.skinCheck else b

/-- COOLDOWN_END (R594). -/
def Block.cooldownEnd (b : Block) : Block :=
  match b.pwr.burst with
  | .cooldown u => if u ≤ b.now then { b with pwr := { b.pwr with burst := .idle } } else b
  | _ => b

/-! ### The die (R596, R597) -/

/-- The body of DIE_HOT, DIE_COOL and THERMAL_TRIP. -/
def dieBody (sensor : Nat) (temp : BitVec 16) : Bytes := leBytes 1 sensor ++ [0] ++ leBytes 2 temp.toNat

/-- The lowest sensor that reads the hottest temperature. -/
def hottestSensor (ts : List (Option (BitVec 16))) : Nat :=
  (ts.findIdx? fun t => t == some (hottestOf ts)).getD 0

/-- DIE_TEMP_SAMPLE: 16 bits for each sensor whose bit of the mask is set (Table 18-4). -/
def Block.dieSample (temps : BitVec 128) (valid : BitVec 8) (b : Block) : Block :=
  let ts := (List.range 8).map fun i => if valid.getLsbD i then some (temps.extractLsb' (16 * i) 16) else b.pwr.dieTemps.getD i none
  let b1 := { b with pwr := { b.pwr with dieTemps := ts } }
  if !b.ready then b1
  else
    let top := hottestOf ts
    let any : Bool := ts.any Option.isSome
    if !b1.pwr.dieHot && any && decide (b1.dieLimit ≤ top.toInt) then
      { b1 with pwr := { b1.pwr with dieHot := true } }.event 0x0056 noUnit (dieBody (hottestSensor ts) top)
    else if b1.pwr.dieHot && decide (top.toInt < b1.dieLimit - 2560) then
      { b1 with pwr := { b1.pwr with dieHot := false } }.event 0x0057 noUnit (dieBody (hottestSensor ts) top)
    else b1

/-- THERMAL_TRIP: at 115 °C the Fox, Owl and Badger clocks stop (R597). -/
def Block.thermalTrip (sensor : Fin 8) (temp : BitVec 16) (b : Block) : Block :=
  if b.ready && decide (115 * 256 ≤ temp.toInt) && !b.pwr.tripped then
    let b1 := ((b.clock 4 false).clock 6 false).clock 7 false
    { b1 with pwr := { b1.pwr with tripped := true } }.event 0x0058 noUnit (dieBody sensor.val temp)
  else b

/-! ### Pause and shutdown (R600 to R604, R649) -/

/-- A request for the paused condition, from now when none is pending (R600). -/
def Block.askPause (b : Block) : Block :=
  if (b.pwr.paused && b.pwr.wake.isNone) || b.pwr.pauseReq.isSome then b
  else { b with pwr := { b.pwr with pauseReq := some b.now } }

/-- PAUSE_REQUEST: POWER_CTRL.PAUSE written 1. -/
def Block.pauseRequest (b : Block) : Block :=
  if b.ready && !b.pwr.shutdown then { b.askPause with pwr := { b.askPause.pwr with pauseBit := true } } else b

/-- PAUSE_CLEAR: POWER_CTRL.PAUSE written 0 cancels a request, or wakes the engine (R600, R602). -/
def Block.pauseClear (b : Block) : Block :=
  if b.ready && !b.pwr.shutdown then
    Block.wakeUp .host { b with pwr := { b.pwr with pauseBit := false, pauseReq := none } }
  else b

/-- SHUTDOWN: POWER_CTRL.SHUTDOWN written 1; in an engine that is paused already, the journal commit comes at once (R604). -/
def Block.shutDown (b : Block) : Block :=
  if b.ready && !b.pwr.shutdown then
    let b1 := { b with pwr := { b.pwr with shutdown := true } }
    if b.pwr.paused && b.pwr.wake.isNone then b1.shutEnd else b1.askPause
  else b

/-- The source codes of RESUMED. -/
def wakeCode : WakeSrc → Nat
  | .host => 1 | .event => 2 | .sync => 3

/-- Den leaves retention at the resume (R601, R630). Behind the hooks of OTX-120C its retention ends once its supply is there, and its
isolation once the arrays answer. -/
def Block.denWakes (b : Block) : Block :=
  if b.hooked then { b with pwr := { b.pwr with retDen := b.pwr.retDen && !(b.pwr.pwrAck.getD 8 false) } }
  else { b with pwr := { b.pwr with retDen := false, retAckDen := false } }

/-- RESUME_BOUNDARY: 1,250,000 ticks after the wake, epochs go on and the VIO window is discarded (R603). -/
def Block.resume (b : Block) : Block :=
  match b.pwr.wake with
  | none => b
  | some (w, src) =>
    let t := w + resumeDelay
    if b.ready && b.pwr.paused && !b.pwr.shutReady && decide (t ≤ b.now) then
      let b1 := (Block.islandsUp [4, 5, 6, 7, 8] { b with pwr := { b.pwr with
        paused := false, wake := none, dram := .active, standbyOff := false } }).denWakes
      let b2 := b1.dropWindow
      let b3 := { b2 with badger := { b2.badger with
        needReloc := true, dryEpochs := 0 } }
      (b3.startEpoch (b.ep.now.toNat + 1) t [] b.pwr.vack true).event 0x005A noUnit (leBytes 8 w ++ leBytes 1 (wakeCode src))
    else b

/-- JOURNAL_COMMIT: once per epoch, after the epoch's POSE (R611). -/
def Block.journalCommit (b : Block) : Block := if b.ready && b.ep.running then b.journalOnce else b

/-! ### Exec -/

/-- SKIN_READ_DUE. -/
def execSkinReadDue (s : State) : Host.Outcome State Fault Refusal := s.act Block.skinReadDue
/-- SKIN_READ_DONE. -/
def execSkinReadDone (value : Option (BitVec 16)) (s : State) : Host.Outcome State Fault Refusal := s.act (Block.skinReadDone value)
/-- SKIN_STALE. -/
def execSkinStale (s : State) : Host.Outcome State Fault Refusal := s.act Block.skinStale
/-- GOV_BUDGET_WRITE. -/
def execGovBudgetWrite (value : BitVec 32) (s : State) : Host.Outcome State Fault Refusal := s.act (Block.budgetWrite value)
/-- GOV_SKIN_WRITE. -/
def execGovSkinWrite (value : BitVec 32) (s : State) : Host.Outcome State Fault Refusal := s.act (Block.skinWrite value)
/-- COOLDOWN_END. -/
def execCooldownEnd (s : State) : Host.Outcome State Fault Refusal := s.act Block.cooldownEnd
/-- DIE_TEMP_SAMPLE. -/
def execDieTempSample (temps : BitVec 128) (valid : BitVec 8) (s : State) : Host.Outcome State Fault Refusal :=
  s.act (Block.dieSample temps valid)
/-- THERMAL_TRIP. -/
def execThermalTrip (sensor : Fin 8) (temp : BitVec 16) (s : State) : Host.Outcome State Fault Refusal := s.act (Block.thermalTrip sensor temp)
/-- PAUSE_REQUEST. -/
def execPauseRequest (s : State) : Host.Outcome State Fault Refusal := s.act Block.pauseRequest
/-- PAUSE_CLEAR. -/
def execPauseClear (s : State) : Host.Outcome State Fault Refusal := s.act Block.pauseClear
/-- RESUME_BOUNDARY. -/
def execResumeBoundary (s : State) : Host.Outcome State Fault Refusal := s.act Block.resume
/-- SHUTDOWN. -/
def execShutdown (s : State) : Host.Outcome State Fault Refusal := s.act Block.shutDown
/-- JOURNAL_COMMIT. -/
def execJournalCommit (s : State) : Host.Outcome State Fault Refusal := s.act Block.journalCommit

end Sys2Proof.Machine
end

