-- ==== Sys2Proof/Machine/BootOps.lean ====
section
/-! DEFINITION. Reset, the halts of boot and the validity tests of a hamper slot (chapter 02). -/

namespace Sys2Proof.Machine

/-! ### Reset (R36, R115, R644) -/

/-- The block after a main POR, in a phase: every field at its reset value, but the Thermos domain, the wiring of the part, the journal's
halt record that still waits, and, for a soft reset, the PCIe link and configuration space (R647). -/
def Block.cleared (phase : BootPhase) (keepLink : Bool) (b : Block) : Block :=
  let z := State.reset.toBlock
  { z with
    thermos := b.thermos
    boot := { z.boot with package := b.boot.package, phase := phase, since := b.now, haltDue := b.boot.haltDue }
    pins := { z.pins with
      resetN := b.pins.resetN, resetFellAt := b.pins.resetFellAt, brownAt := b.pins.brownAt, rails := b.pins.rails
      testEn := b.pins.testEn, master := b.pins.master, bootSrcPin := b.pins.bootSrcPin, trailsWired := b.pins.trailsWired }
    link := if keepLink then b.link else z.link
    host := { z.host with out := b.host.out }
    fresh := b.fresh }

/-- The entry to MAIN_POR. -/
def Block.mainPor (keepLink : Bool) (b : Block) : Block := b.cleared .mainPor keepLink

/-- Whether the engine has left THERMOS_POR. -/
def Block.awake (b : Block) : Bool := b.boot.phase != .thermosPor

/-! ### Halting at boot (R45, R47, R63, R636) -/

/-- HALTED_NOBOOT, with both causes as they stand. -/
def Block.haltNoBoot (b : Block) : Block := (b.enter .haltedNoboot).releaseFlash

/-- HALTED_NOBOOT with one cause in both slot fields. -/
def Block.haltBoth (cause : BitVec 8) (b : Block) : Block :=
  Block.haltNoBoot { b with boot := { b.boot with causeA := cause, causeB := cause } }

/-- What a slot loaded is discarded (R68); CHECK_RESULT and OWL_STATUS stand (R650). -/
def Block.discardLoad (b : Block) : Block :=
  { b with
    cfg := { result := b.cfg.result, modelErr := b.cfg.modelErr }
    boot := { b.boot with
      policy := BitVec.allOnes 128, models := List.replicate 8 none, ranges := List.replicate 4 none, trySvn := 0, tryVersion := 0 } }

/-- The slot that is tried fails with a cause (R60 to R64): the next one is tried, or none is left. -/
def Block.slotFails (cause : BitVec 8) (b : Block) : Block :=
  let s : SlotId := b.boot.trying.getD .a
  let causeA := if s = SlotId.a then cause else b.boot.causeA
  let causeB := if s = SlotId.b then cause else b.boot.causeB
  let b1 := b.discardLoad
  let b2 := { b1 with boot := { b1.boot with causeA := causeA, causeB := causeB } }
  match b.boot.order with
  | [] => { b2 with boot := { b2.boot with trying := none } }.haltNoBoot
  | n :: ns =>
    let b3 := if b2.boot.phase == .slotVerify then b2 else b2.enter .slotVerify
    { b3 with boot := { b3.boot with trying := some n, order := ns, since := b.now } }

/-! ### OTP (R635, R636) -/

/-- The words that the block reads at the entry to ROM_PROBE (Table 18-8). -/
def otpWords : List Nat := [0, 1, 2] ++ (List.range 10).map (4 + ·) ++ (List.range 48).map (0x10 + ·)

/-- Whether every word has been answered. -/
def Otp.complete (o : Otp) : Bool := otpWords.all fun w => o.readMask.contains (BitVec.ofNat 10 w)

/-- A wide field with one of its 32-bit words replaced. -/
def setWord {w : Nat} (x : BitVec w) (i : Nat) (v : BitVec 32) : BitVec w :=
  x ^^^ (((x >>> (32 * i)).setWidth 32 ^^^ v).setWidth w <<< (32 * i))

/-- An answered word. -/
def Otp.take (word : BitVec 10) (v : BitVec 32) (o : Otp) : Otp :=
  let n := word.toNat
  let o1 : Otp :=
    if n < 2 then { o with serial := setWord o.serial n v }
    else if n = 2 then { o with keyRevoke := v.extractLsb' 0 4 }
    else if 4 ≤ n && n < 12 then { o with custKeyHash := setWord o.custKeyHash (n - 4) v }
    else if n = 12 || n = 13 then { o with rollback := setWord o.rollback (n - 12) v }
    else if 0x10 ≤ n && n < 0x40 then { o with energy := o.energy.set (n - 0x10) v }
    else o
  { o1 with readMask := word :: o.readMask }

/-- ROM_PROBE begins on a Ranger pair: OTP is read, and the boot storage is asked for its density where it takes the place of the flash
(R635, R638). -/
def Block.romProbe (b : Block) : Block :=
  let b1 := if b.boot.phase == .romProbe then { b with boot := { b.boot with since := b.now } } else b.enter .romProbe
  let b2 := { b1 with boot := { b1.boot with otp := {}, otpSince := b.now } }
  let b3 := otpWords.foldl (fun b w => b.drive (.otpRead (BitVec.ofNat 10 w))) b2
  if b3.boot.bootSrc then b3.drive .bootInfo else b3

/-- ROM_PROBE is left when the flash is identified and OTP has been read; the slots' order is not known before their headers are (R61). -/
def Block.probed (b : Block) : Block :=
  if b.boot.phase == .romProbe && b.boot.flashMode != .none && b.boot.otp.complete then
    let b1 := b.enter .slotVerify
    { b1 with boot := { b1.boot with
      order := [.a, .b], headersRead := false, trying := none, custKeyBlank := b.boot.otp.custKeyHash == 0 } }
  else b

/-- The mode of R44. -/
def bestMode (octal quad single : Bool) : FlashMode := if octal then .octal else if quad then .quad else if single then .single else .none

/-- Whether a density is one that the engine supports (R46). -/
def densityOk (n : Nat) : Bool := decide (16 * 2 ^ 20 ≤ n) && decide (n ≤ 512 * 2 ^ 20)

/-! ### The slot's bytes -/

/-- How a slot's bytes are read: n bytes at an offset from its start. -/
abbrev SlotRead := Nat → Nat → Bytes

/-- n bytes of the flash at an offset; where no segment holds them, erased flash. -/
def flashBytes (f : FlashImage) (off n : Nat) : Bytes :=
  let s := match f.find? fun s => decide (s.1 ≤ off) && decide (off < s.1 + s.2.length) with
    | some s => slice s.2 (off - s.1) n
    | none => []
  s ++ List.replicate (n - s.length) 0xFF

/-- Where a slot starts in the storage (R46). -/
def Block.slotBase (s : SlotId) (b : Block) : Nat := match s with | .a => 0 | .b => b.boot.density / 2

/-- A slot's bytes, from where it starts: as the flash gives them, or as HC_BOOT_D has delivered them (R46, R638). -/
def Block.slotRead (s : SlotId) (f : FlashImage) (b : Block) : SlotRead :=
  if b.boot.bootSrc then fun off n => memBytes b.boot.bootStore (b.slotBase s + off) n
  else fun off n => flashBytes f (b.slotBase s + off) n

/-- Requests n bytes of the storage: a read of the flash in the mode found, or READs on HC_BOOT_Q of at most 128 units of 32 bytes (R44, R638). -/
def Block.askBytes (off n : Nat) (b : Block) : Block :=
  if b.boot.bootSrc then
    let first := off / 32
    let units := (off + n + 31) / 32 - first
    (List.range ((units + 127) / 128)).foldl (fun b i => b.drive (.bootRead (32 * (first + 128 * i)) (min 128 (units - 128 * i)))) b
  else b.drive (.flashRead b.boot.flashMode off n)

/-- A little-endian field of a slot. -/
def slotField (rd : SlotRead) (off n : Nat) : Nat := ofLe (rd off n)

/-! ### The tests of Table 02-5 -/

/-- A section-table entry (Table 02-3). -/
structure SectionEntry where
  type   : Nat
  signer : Nat
  index  : Nat
  off    : Nat
  len    : Nat
  digest : Bytes
  raw    : Bytes
deriving DecidableEq, Repr

/-- The section table. -/
def slotSections (rd : SlotRead) : List SectionEntry :=
  (List.range (slotField rd 13 1)).map fun i =>
    let e := rd (64 + 48 * i) 48
    { type := field e 0 2, signer := field e 2 1, index := field e 3 1, off := field e 4 4, len := field e 8 4
      digest := slice e 16 32, raw := e }

/-- Whether the header keeps the rules of Table 02-2, MAGIC and SVN apart. -/
def headerOk (rd : SlotRead) (density : Nat) : Bool :=
  slotField rd 4 2 == 1 && slotField rd 6 2 == 64 && decide (1 ≤ slotField rd 13 1) && decide (slotField rd 13 1 ≤ 32)
    && slotField rd 16 4 % 4096 == 0 && decide (slotField rd 16 4 ≤ density / 2) && slotField rd 20 4 == 64
    && (rd 14 2).all (· == 0) && (rd 32 32).all (· == 0)

/-- Whether a section keeps the rules of its type (Tables 02-3 and 02-4), the counts apart; of an Owl model's format, its header and the multiple
of 8 bytes (Table 10-3, log entry 66). -/
def SectionEntry.ruleOk (e : SectionEntry) : Bool :=
  let pages : Bool := e.len % 4096 == 0 && decide (e.len ≤ 64 * 4096)
  e.len != 0 && e.off % 4096 == 0 &&
    match e.type with
    | 0x0001 => e.signer == 0 && e.index == 0 && decide (e.len ≤ 2 ^ 20)
    | 0x0010 => e.signer == 1 && e.index == 0 && pages
    | 0x0020 => e.signer == 1 && decide (e.index < 8) && decide (64 ≤ e.len) && e.len % 8 == 0
    | 0x0030 => e.signer == 1 && decide (e.index < 4)
    | 0x0040 => e.signer == 1 && decide (e.index < 64) && pages
    | 0x0050 => e.signer == 1 && decide (e.index < 64) && pages
    | 0x0060 => e.signer == 1 && e.index == 0 && e.len == 16
    | _ => false

/-- The most sections of a type. -/
def sectionMost : Nat → Nat
  | 0x0020 => 8 | 0x0030 => 4 | 0x0050 => 24 | _ => 1

/-- The settings pages that a section fills (R52). -/
def SectionEntry.pagesOf (e : SectionEntry) : List Nat :=
  if e.type = 0x0010 || e.type = 0x0040 || e.type = 0x0050 then (List.range (e.len / 4096)).map (e.index + ·) else []

/-- Whether intervals lie apart. -/
def spansApart : List (Nat × Nat) → Bool
  | [] => true
  | x :: xs => (xs.all fun y => decide (x.1 + x.2 ≤ y.1) || decide (y.1 + y.2 ≤ x.1)) && spansApart xs

/-- Whether a slot keeps R51, R52 and the rules of Table 02-4. -/
def layoutOk (rd : SlotRead) : Bool :=
  let es := slotSections rd
  let total := slotField rd 16 4
  let parts := [(0, 64), (64, 48 * es.length), (slotField rd 24 4, 136), (slotField rd 28 4, 136)] ++ es.map fun e => (e.off, e.len)
  let pages : List Nat := es.flatMap SectionEntry.pagesOf
  let keyed : List (Nat × Nat) := (es.filter fun e => e.type == 0x0020 || e.type == 0x0030).map fun e => (e.type, e.index)
  (parts.all fun p => decide (p.1 + p.2 ≤ total)) && spansApart parts && es.all SectionEntry.ruleOk
    && (es.all fun e => decide ((es.filter fun x => x.type == e.type).length ≤ sectionMost e.type))
    && decide (List.Nodup keyed) && decide (List.Nodup pages) && pages.all fun p => decide (p < 64)

/-- Whether a signature block's signature verifies over a digest (R55, R56). -/
def signatureOk (block : Bytes) (digest : Bytes) : Bool :=
  ecdsaOk (ofBe (slice block 8 32)) (ofBe (slice block 40 32)) (ofBe (slice block 72 32)) (ofBe (slice block 104 32)) digest

/-- The Ngarain key and signature (R57). -/
def ngarainOk (rd : SlotRead) (o : Otp) : Bool :=
  let block := rd (slotField rd 24 4) 136
  let kid := field block 0 4
  decide (kid < 4) && !o.keyRevoke.getLsbD kid
    && sha256 (slice block 8 64) == leBytes 32 (Config.romKeyHash (Fin.ofNat 4 kid)).toNat
    && signatureOk block (sha256 ((slotSections rd).filter (·.signer == 0) |>.flatMap SectionEntry.raw))

/-- The customer key and signature (R58, R59). -/
def customerOk (rd : SlotRead) (o : Otp) : Bool :=
  let block := rd (slotField rd 28 4) 136
  (o.custKeyHash == 0 || (field block 0 4 == 0 && sha256 (slice block 8 64) == leBytes 32 o.custKeyHash.toNat))
    && signatureOk block (sha256 (rd 0 (64 + 48 * slotField rd 13 1)))

/-- Whether a range-table section keeps R370. -/
def rangeTableOk (e : SectionEntry) (bs : Bytes) : Bool :=
  let n := field bs 8 2
  let es := (List.range n).map fun i => slice bs (16 + 4 * i) 4
  field bs 0 4 == 0x42475254 && field bs 4 2 == 1 && field bs 6 1 == e.index && field bs 7 1 == 0 && decide (1 ≤ n) && decide (n ≤ 64)
    && (slice bs 10 6).all (· == 0) && decide (16 + 4 * n ≤ bs.length)
    && (es.all fun x => decide (field x 0 1 ≤ 9) && decide (field x 1 1 ≤ 5) && decide (field x 2 1 ≤ 31) && decide (field x 3 1 ≤ 63))
    && decide (es.map fun x => (field x 0 1, field x 1 1)).Nodup

/-- Whether a firmware section keeps R53 and R54. -/
def firmwareOk (len : Nat) (h : Bytes) : Bool :=
  field h 0 4 == 0x46574844 && field h 4 2 == 1 && field h 6 2 == 0 && (slice h 8 8).any (· == 0xB0)
    && decide (field h 20 4 + field h 24 4 ≤ len) && decide (field h 28 4 < field h 24 4) && (slice h 32 32).all (· == 0)

/-- The first test of Table 02-5 that a slot fails, in the table's order, up to FIRMWARE_INCOMPATIBLE (R60, R67, R370). -/
def slotCause (rd : SlotRead) (density : Nat) (o : Otp) : Option (BitVec 8) :=
  let es := slotSections rd
  if slotField rd 0 4 ≠ 0x484D5052 then some 0x02
  else if !headerOk rd density then some 0x03
  else if slotField rd 12 1 < popcount o.rollback || 64 < slotField rd 12 1 then some 0x04
  else if !layoutOk rd then some 0x09
  else if es.any fun e => e.type == 0x0030 && !rangeTableOk e (rd e.off e.len) then some 0x09
  else if !(es.any (·.type == 0x0001)) || !(es.any (·.type == 0x0010)) then some 0x08
  else if !ngarainOk rd o then some 0x05
  else if !customerOk rd o then some 0x06
  else if es.any fun e => sha256 (rd e.off e.len) != e.digest then some 0x07
  else if es.any fun e => e.type == 0x0001 && !firmwareOk e.len (rd e.off 64) then some 0x0C
  else none

/-- A list up to the first entry that a test holds of, that entry included. -/
def takeThrough {α : Type} (p : α → Bool) : List α → List α
  | [] => []
  | x :: xs => x :: (if p x then [] else takeThrough p xs)

/-- What is read of a slot after its header, as (offset, length), when its tests end with a cause: the table and the range tables, each
signature block, and the sections in table order up to the first whose digest differs (R60, R67). -/
def slotReads (rd : SlotRead) (cause : Option (BitVec 8)) : List (Nat × Nat) :=
  let es := slotSections rd
  let n : Nat := match cause with | some 0x02 => 0 | some 0x03 => 0 | some 0x04 => 0 | some 0x09 => 1 | some 0x08 => 1 | some 0x05 => 2 | some 0x06 => 3 | _ => 4
  let parts : List (List (Nat × Nat)) :=
    [(64, 48 * es.length) :: (es.filter (·.type == 0x0030)).map fun e => (e.off, e.len), [(slotField rd 24 4, 136)], [(slotField rd 28 4, 136)],
     (takeThrough (fun e => sha256 (rd e.off e.len) != e.digest) es).map fun e => (e.off, e.len)]
  (parts.take n).flatten

/-! ### SETTINGS_LOAD (R52, R69, R85, R86) -/

/-- The settings pages that a slot's sections fill. -/
def slotPages (rd : SlotRead) : List Memory :=
  (slotSections rd).foldl (fun set e =>
    (List.range e.pagesOf.length).foldl (fun (set : List Memory) i => set.set (e.index + i) (memOf (rd (e.off + 4096 * i) 4096))) set)
    (List.replicate 64 [])

/-- The content of the section of a type and index. -/
def slotSection (rd : SlotRead) (type index : Nat) : Option Bytes :=
  ((slotSections rd).find? fun e => e.type == type && e.index == index).map fun e => rd e.off e.len

/-- The feature policy of a slot (R69). -/
def slotPolicy (rd : SlotRead) : BitVec 128 :=
  match slotSection rd 0x0060 0 with | some bs => BitVec.ofNat 128 (ofLe bs) | none => BitVec.allOnes 128

/-- The Owl models of a slot. -/
def slotModels (rd : SlotRead) : List (Option Bytes) := (List.range 8).map fun i => slotSection rd 0x0020 i

/-- What CHECK sees of a slot's settings, against the offer that its policy leaves (R69, R86). -/
def Block.loadCheck (rd : SlotRead) (b : Block) : CheckIn :=
  { set := slotPages rd, active := none, feats := capabilities &&& slotPolicy rd
    package := b.boot.package, wired := b.pins.trailsWired, hamper := slotModels rd, host := List.replicate 8 none }

/-- The active set is filled from a valid slot, checked against the R69 offer, and copied to the shadow set (R86, R110, R650). -/
def Block.settingsLoad (rd : SlotRead) (b : Block) : Block :=
  let b1 := b.enter .settingsLoad
  let b2 := { b1 with boot := { b1.boot with
    policy := slotPolicy rd, models := slotModels rd, ranges := (List.range 4).map fun i => slotSection rd 0x0030 i
    trySvn := BitVec.ofNat 8 (slotField rd 12 1), tryVersion := BitVec.ofNat 32 (slotField rd 8 4) } }
  match (b.loadCheck rd).first with
  | none => { b2 with cfg := { active := slotPages rd, shadow := slotPages rd, result := { pass := true } } }
  | some f => Block.slotFails 0x0A { b2 with cfg := { b2.cfg with
      result := { pass := false, reason := BitVec.ofNat 8 f.code, page := BitVec.ofNat 6 f.page, field := BitVec.ofNat 12 f.field }
      modelErr := BitVec.ofNat 32 f.moff } }

end Sys2Proof.Machine
end

