-- ==== Sys2Proof/Machine/ThermosCmds.lean ====
section
/-! DEFINITION. The commands of the Thermos domain: its supply, its clock, cold resets and the monotonic counter (chapters 04, 17, 18). -/

namespace Sys2Proof.Machine

/-! ### The time base's source (R111 to R113) -/

/-- The source that TB counts: the PLL while main supplies the domain and the reference runs, otherwise the crystal. -/
def Thermos.sourced (t : Thermos) : Thermos := { t with tbSource := if t.refRuns && !t.onVbk then .pll else .crystal }

/-- TB_SOURCE_CHANGE: the 38.4 MHz reference stops or restarts. -/
def Block.refChange (running : Bool) (b : Block) : Block :=
  { b with thermos := Thermos.sourced { b.thermos with refRuns := running } }

/-- The event kinds of the brown-out log (R609, log entry 9). -/
def logBrownout := 1
def logToVbk := 2
def logToVaon := 3
def logArbitration := 4
def logCrystal := 5

/-- Adds an entry to the brown-out log. -/
def Block.logBrown (kind outcome : Nat) (b : Block) : Block :=
  { b with thermos := b.thermos.brown kind b.pins.rails.toNat outcome }

/-- THERMOS_SOURCE_SWITCH (R605). -/
def Block.sourceSwitch (toVbk : Bool) (b : Block) : Block :=
  if b.thermos.onVbk = toVbk then b
  else Block.logBrown (if toVbk then logToVbk else logToVaon) 0
    { b with thermos := Thermos.sourced { b.thermos with onVbk := toVbk } }

/-! ### TB_EPOCH (R114, R157, R637) -/

/-- TB_EPOCH increments, in the counter on the part; on OTX-120C the block's register moves on and INCREMENT goes to the counter. -/
def Block.epochUp (cause : Nat) (b : Block) : Block :=
  let b1 := { b with thermos := { b.thermos with tbEpoch := b.thermos.tbEpoch + 1 } }
  let b2 := if b.hooked then
      Block.drive .nvIncrement { b1 with thermos := { b1.thermos with nv := .incrementing, nvSince := b.now } }
    else b1
  b2.timeLost cause

/-- A cold Thermos POR: TB starts again from zero, TB_EPOCH increments, and the engine is in THERMOS_POR (R35, R114, R608). The journal and
the brown-out log stand. On OTX-120C this is the assertion of HB_TPOR_N; the increment follows its release (R633). -/
def Block.coldPor (b : Block) : Block :=
  let b0 := { b with thermos := Thermos.sourced { b.thermos with tb := 0, tbFrac := 0, nv := .idle } }
  let b1 := b0.cleared .thermosPor false
  if b.hooked then b1 else b1.epochUp 1

/-- COLD_THERMOS_POR. -/
def Block.coldThermosPor (b : Block) : Block := b.coldPor

/-- TPOR_RELEASE: on OTX-120C, TB starts from zero and TB_EPOCH is read from its counter, to be incremented (R633, R637). -/
def Block.tporRelease (b : Block) : Block :=
  if b.hooked && !b.awake then
    Block.drive .nvRead { b with
      thermos := { b.thermos with tb := 0, tbFrac := 0, nv := .reading, nvSince := 0 }
      boot := { b.boot with since := 0 } }
  else b

/-- The value of an answer of the counter: one that carries ERR gives none, so it is free (log entry 5). -/
def Block.nvValue (value : BitVec 32) (err : Bool) (b : Block) : BitVec 32 × Block :=
  if err then (b.freeNow.setWidth 32, b.drew) else (value, b)

/-- NV_COUNTER_RESPONSE (R637). -/
def Block.nvResponse (value : BitVec 32) (err : Bool) (b : Block) : Block :=
  let r := b.nvValue value err
  match b.thermos.nv with
  | .idle => b
  | .reading => Block.epochUp 1 { r.2 with thermos := { r.2.thermos with tbEpoch := r.1 } }
  | .incrementing => { r.2 with thermos := { r.2.thermos with tbEpoch := r.1, nv := .idle } }

/-- NV_COUNTER_TIMEOUT: no answer within 20 ms (R637). -/
def Block.nvTimeout (b : Block) : Block :=
  if b.thermos.nv != .idle && decide (b.thermos.nvSince + ms 20 ≤ b.now) then
    Block.timeLost 3 { b with thermos := { b.thermos with tbEpoch := 0xFFFFFFFF, nv := .idle } }
  else b

/-! ### The supply's race and the crystal (R114, R605, R607) -/

/-- Whether the VAON rise came first: in an earlier 1 µs sample than the VBK fall. -/
def vaonFirst : Option Nat → Option Nat → Bool
  | some _, none => true
  | some a, some f => decide (a < f)
  | none, _ => false

/-- THERMOS_ARBITRATION, with the 1 µs samples of the first VAON rise and the first VBK fall. -/
def Block.arbitrate (vaonRise vbkFall : Option Nat) (b : Block) : Block :=
  if !b.thermos.onVbk || (vaonRise.isNone && vbkFall.isNone) then b
  else if vaonFirst vaonRise vbkFall then (b.logBrown logArbitration 1).sourceSwitch false
  else (b.logBrown logArbitration 0).coldPor

/-- CRYSTAL_STOP: TB holds where the crystal is its source, and on VBK alone TB_EPOCH increments (R112, R114). -/
def Block.crystalStop (b : Block) : Block :=
  if b.thermos.xtalStopped then b
  else
    let b1 := Block.logBrown logCrystal 0 { b with thermos := { b.thermos with xtalStopped := true } }
    if b.thermos.onVbk then b1.epochUp 2 else b1

/-- CRYSTAL_RESTART. -/
def Block.crystalRestart (b : Block) : Block := { b with thermos := { b.thermos with xtalStopped := false } }

/-- THERMOS_POR_EXIT: 2 ms after the supply came back (Table 02-1). -/
def Block.thermosExit (b : Block) : Block :=
  if !b.awake && decide (b.boot.since + ms 2 ≤ b.now) then { b with boot := { b.boot with phase := .mainPor, since := b.now } } else b

/-! ### Exec -/

/-- THERMOS_POR_EXIT. -/
def execThermosPorExit (s : State) : Host.Outcome State Fault Refusal := s.act Block.thermosExit
/-- COLD_THERMOS_POR. -/
def execColdThermosPor (s : State) : Host.Outcome State Fault Refusal := s.act Block.coldThermosPor
/-- THERMOS_SOURCE_SWITCH. -/
def execThermosSourceSwitch (toVbk : Bool) (s : State) : Host.Outcome State Fault Refusal := s.act (Block.sourceSwitch toVbk)
/-- THERMOS_ARBITRATION. -/
def execThermosArbitration (vaonRise vbkFall : Option Nat) (s : State) : Host.Outcome State Fault Refusal :=
  s.act (Block.arbitrate vaonRise vbkFall)
/-- CRYSTAL_STOP. -/
def execCrystalStop (s : State) : Host.Outcome State Fault Refusal := s.act Block.crystalStop
/-- CRYSTAL_RESTART. -/
def execCrystalRestart (s : State) : Host.Outcome State Fault Refusal := s.act Block.crystalRestart
/-- TPOR_RELEASE. -/
def execTporRelease (s : State) : Host.Outcome State Fault Refusal := s.act Block.tporRelease
/-- NV_COUNTER_RESPONSE. -/
def execNvCounterResponse (value : BitVec 32) (err : Bool) (s : State) : Host.Outcome State Fault Refusal := s.act (Block.nvResponse value err)
/-- NV_COUNTER_TIMEOUT. -/
def execNvCounterTimeout (s : State) : Host.Outcome State Fault Refusal := s.act Block.nvTimeout
/-- TB_SOURCE_CHANGE. -/
def execTbSourceChange (refRunning : Bool) (s : State) : Host.Outcome State Fault Refusal := s.act (Block.refChange refRunning)

end Sys2Proof.Machine
end

