-- ==== Sys2Proof/Machine/BootCmds.lean ====
section
/-! DEFINITION. The commands of boot: from the main reset to READY (chapters 02, 12, 17, 18 and 20). -/

namespace Sys2Proof.Machine

/-! ### MAIN_POR (R36, R634, R660, R661, R667 to R669) -/

/-- MAIN_BROWNOUT: logged while RESET_N is high, or in the tick in which it fell (R668, R669). -/
def Block.mainBrownout (rails : BitVec 8) (b : Block) : Block :=
  if !(b.pins.resetN || b.pins.resetFellAt == some b.now) then b
  else
    let b1 := Block.logBrown logBrownout 0 { b with pins := { b.pins with rails := rails, brownAt := some b.now } }
    if b1.awake then b1.mainPor false else b1

/-- RESET_N_FALL. -/
def Block.resetFall (b : Block) : Block :=
  let b1 := { b with pins := { b.pins with resetN := false, resetFellAt := some b.now } }
  if b1.awake then b1.mainPor false else b1

/-- MAIN_POR_RELEASE, with what the SFDP read of R43 finds: the straps are sampled, supplies requested, and boot ROM starts on Ranger A. -/
def Block.mainRelease (probe : FlashProbe) (b : Block) : Block :=
  if b.boot.phase == .mainPor && !b.pins.testEn && decide (b.boot.since + ms 1 ≤ b.now) then
    let src : Bool := b.hooked && b.pins.bootSrcPin
    let b1 := { b with
      pins := { b.pins with resetN := true, rails := 0 }
      thermos := Thermos.sourced { b.thermos with refRuns := true }
      boot := { b.boot with releasedAt := b.now, masterStrap := b.pins.master, bootSrc := src, flashDriven := !src } }
    let b2 := ((b1.islandsUp [1, 2, 8, 9]).clock 0 true).romProbe
    if src then b2
    else let b2 := b2.drive .flashProbe; match probe with
    | .sfdp octal quad single density =>
      { b2 with boot := { b2.boot with
        flashMode := if densityOk density then bestMode octal quad single else .none, density := density } }
    | _ => b2.haltBoth 0x01
  else b

/-- SOFT_RESET: keyed, it acts as a pulse of RESET_N that keeps the link; a new session starts at once (R42, R647). -/
def Block.softReset (value : BitVec 32) (b : Block) : Block :=
  if !b.awake then b
  else if value.getLsbD 16 && value.extractLsb' 0 16 = 0xC3A5 then b.mainPor true
  else b.badReg

/-! ### ROM_PROBE (R34, R45, R635, R636, R638) -/

/-- ROM_PROBE_TIMEOUT: the flash is not identified within 20 ms. -/
def Block.probeTimeout (b : Block) : Block :=
  if b.boot.phase == .romProbe && b.boot.flashMode == .none && decide (b.boot.since + ms 20 ≤ b.now) then b.haltBoth 0x01 else b

/-- OTP_RESPONSE to a READ. -/
def Block.otpResponse (word : BitVec 10) (value : BitVec 32) (err : Bool) (b : Block) : Block :=
  if b.boot.phase == .romProbe && otpWords.contains word.toNat && !b.boot.otp.readMask.contains word then
    if err then b.haltBoth 0x0D
    else Block.probed { b with boot := { b.boot with otp := b.boot.otp.take word value } }
  else b

/-- The rollback count's rise stops (R636). -/
def Block.rollFails (b : Block) : Block :=
  let bit := (List.range 64).find? fun i => !b.boot.otp.rollback.getLsbD i
  { b with boot := { b.boot with rollBusy := false } }.event 0x005D noUnit
    (leBytes 1 (bit.getD 63) ++ leBytes 1 (popcount b.boot.otp.rollback))

/-- OTP_TIMEOUT: no answer within 20 ms, at boot (R636); during the rise of the rollback count it stops the rise. -/
def Block.otpTimeout (b : Block) : Block :=
  if b.boot.phase == .romProbe && !b.boot.otp.complete && decide (b.boot.otpSince + ms 20 ≤ b.now) then b.haltBoth 0x0D
  else if b.ready && b.boot.rollBusy && decide (b.boot.otpSince + ms 20 ≤ b.now) then b.rollFails
  else b

/-- BOOT_RESPONSE: a beat on HC_BOOT_D. Data with ERR is taken as all ones (R638). -/
def Block.bootResponse (beat : BootBeat) (b : Block) : Block :=
  if !b.boot.bootSrc then b
  else match beat with
  | .info density err =>
    let d := if err then 0xFFFFFFFF else density.toNat
    if b.boot.phase == .romProbe && b.boot.flashMode == .none then
      (if densityOk d then Block.probed { b with boot := { b.boot with flashMode := .hcBoot, density := d } } else b.haltBoth 0x01)
    else b
  | .read offset data err =>
    if b.boot.phase == .slotVerify then
      let bytes : Bytes := if err then List.replicate 32 0xFF else leBytes 32 data.toNat
      { b with boot := { b.boot with bootStore := memWriteBytes b.boot.bootStore offset bytes } }
    else b

/-! ### SLOT_VERIFY and SETTINGS_LOAD (R60 to R68, R86) -/

/-- The order of the slots, once both headers are read (R61): a header can be read when its MAGIC is right. -/
def slotOrder (ra rb : SlotRead) : List SlotId :=
  let good (rd : SlotRead) : Bool := slotField rd 0 4 == 0x484D5052
  if good ra && good rb && decide (slotField ra 8 4 < slotField rb 8 4) then [.b, .a] else [.a, .b]

/-- SLOT_ATTEMPT, with what the flash holds: both headers are read first (R61); the slot in turn is read up to its first failing test, and
fails with that cause, or its settings are loaded (R60, R62, R67). -/
def Block.slotAttempt (f : FlashImage) (b : Block) : Block :=
  if b.boot.phase != .slotVerify then b
  else
    let rd (s : SlotId) : SlotRead := b.slotRead s f
    let order := if b.boot.trying.isSome then b.boot.order else slotOrder (rd .a) (rd .b)
    let s := b.boot.trying.getD (order.headD .a)
    let cause := slotCause (rd s) b.boot.density b.boot.otp
    let b1 := if b.boot.headersRead then b else (b.askBytes (b.slotBase .a) 64).askBytes (b.slotBase .b) 64
    let b2 := (slotReads (rd s) cause).foldl (fun b x => b.askBytes (b.slotBase s + x.1) x.2) b1
    let b3 := { b2 with boot := { b2.boot with
      headersRead := true, trying := some s, order := if b.boot.trying.isSome then b.boot.order else order.tail } }
    match cause with
    | some c => b3.slotFails c
    | none => b3.settingsLoad (rd s)

/-- SLOT_VERIFY_TIMEOUT: 25 s for a slot (Table 02-1). -/
def Block.slotTimeout (b : Block) : Block :=
  if b.boot.phase == .slotVerify && decide (b.boot.since + ms 25000 ≤ b.now) then
    Block.slotFails 0x0B (if b.boot.trying.isSome then b else { b with boot := { b.boot with trying := some .a, order := [.b] } })
  else b

/-- SETTINGS_LOAD_TIMEOUT: 50 ms (Table 02-1). -/
def Block.loadTimeout (b : Block) : Block :=
  if b.boot.phase == .settingsLoad && decide (b.boot.since + ms 50 ≤ b.now) then b.slotFails 0x0A else b

/-- BOOT_LOCKSTEP_MISMATCH: boot ROM starts again on Ranger B, which knows the flash that was found; if B mismatches too, or is fenced, no pair
is left and the engine halts (R38, R564). DEDUCED (log entry 68): boot ROM runs up to SETTINGS_LOAD, and the restart resets the flash in its
mode, which R47 asks for at the ends of boot alone. -/
def Block.bootMismatch (b : Block) : Block :=
  match b.boot.phase with
  | .romProbe | .slotVerify | .settingsLoad =>
    if b.boot.romPair = .b || !b.flt.pairB then b.faultHalt 1 0
    else
      let b1 := Block.fence (pairUnit .a) 6 (.pair .a) b.discardLoad
      let b2 := if b1.boot.flashDriven then b1.drive .flashReset else b1
      Block.romProbe { b2 with boot := { b2.boot with
        romPair := .b, romMismatchA := true, causeA := 0, causeB := 0, trying := none, bootStore := []
        flashMode := if b.boot.bootSrc then .none else b.boot.flashMode } }
  | _ => b

/-! ### BRINGUP (R39, R217, R408 to R410, R634) -/

/-- The DRAM channels a package has. -/
def packageChannels (p : Package) : BitVec 4 := match p with | .h => 3 | _ => 15

/-- BRINGUP_START, with the DRAM channels that are populated. -/
def Block.bringupStart (populated : BitVec 4) (b : Block) : Block :=
  if b.boot.phase == .settingsLoad then
    let b1 := (b.enter .bringup).islandsUp [3, 4, 5, 6, 7, 10]
    let pop := populated &&& packageChannels b.boot.package
    [2, 3].foldl (fun b bus => b.i3cAssign bus) { b1 with
      pwr := { b1.pwr with govPage := govPageIn b1.cfg.active }
      pins := { b1.pins with dramResetN := true }
      den := { b1.den with populated := pop, dramAbsent := pop == 0 }
      boot := { b1.boot with dramDone := pop == 0, order := [], trying := none
                             hamperSlot := b.boot.trying.getD .a } }
  else b

/-- A unit's self-test is over. -/
def Flt.tested (k : Fenceable) (f : Flt) : Flt :=
  match k with
  | .lane l => { f with foxDone := setBit f.foxDone l }
  | .tile t => { f with tilesDone := setBit f.tilesDone t }
  | .thread t => { f with threadsDone := setBit f.threadsDone t }
  | .pair _ => f

/-- Whether a unit's self-test is over. -/
def Flt.isTested (f : Flt) : Fenceable → Bool
  | .lane l => f.foxDone.getLsbD l
  | .tile t => f.tilesDone.getLsbD t
  | .thread t => f.threadsDone.getLsbD t
  | .pair _ => true

/-- UNIT_SELF_TEST_DONE: a unit that fails is fenced, cause SELF_TEST. -/
def Block.selfTest (unit : BitVec 8) (ok : Bool) (b : Block) : Block :=
  match fenceable unit with
  | some k =>
    if b.boot.phase == .bringup && !b.flt.isTested k then
      let b1 := { b with flt := b.flt.tested k }
      if ok then b1 else b1.blame unit 0x0B
    else b
  | none => b

/-- The units that BRINGUP tests, in ascending unit ID. -/
def testedUnits : List Nat := (List.range 8).map (0x20 + ·) ++ (List.range 32).map (0x40 + ·) ++ (List.range 16).map (0x60 + ·)

/-- BRINGUP_TIMEOUT: the units that have not finished within 50 ms are fenced. -/
def Block.bringupTimeout (b : Block) : Block :=
  if b.boot.phase == .bringup && decide (b.boot.since + ms 50 ≤ b.now) then
    testedUnits.foldl (fun b u => b.selfTest (BitVec.ofNat 8 u) false) b
  else b

/-- The channels in use (R409): all that are populated when all are trained, else the lowest trained ones in the largest power of two. -/
def channelsUsed (populated trained : BitVec 4) : BitVec 4 :=
  let t := populated &&& trained
  if t = populated then t
  else
    let n := if popcount t = 3 then 2 else popcount t
    (((List.range 4).filter t.getLsbD).take n).foldl setBit 0

/-- The outcome of training (R405, R409, R410). -/
def Block.dramTrained (trained : BitVec 4) (mib : Nat) (b : Block) : Block :=
  let ch := channelsUsed b.den.populated trained
  let usable := popcount ch * mib * 7 / 8
  let absent : Bool := decide (usable < 1792)
  { b with
    boot := { b.boot with dramDone := true }
    den := { b.den with
      trained := trained &&& b.den.populated
      channels := if absent then 0 else ch
      usableMib := if absent then 0 else BitVec.ofNat 16 usable
      dramAbsent := absent
      degradedDue := !absent && (trained &&& b.den.populated) != b.den.populated } }

/-- DRAM_TRAINING_DONE: every populated channel has passed or failed. -/
def Block.trainingDone (trained : BitVec 4) (mib : Nat) (b : Block) : Block :=
  if b.boot.phase == .bringup && !b.boot.dramDone then b.dramTrained trained mib else b

/-- DRAM_TRAINING_TIMEOUT: a channel that has not passed within 40 ms has failed (R408). -/
def Block.trainingTimeout (trained : BitVec 4) (mib : Nat) (b : Block) : Block :=
  if b.boot.phase == .bringup && !b.boot.dramDone && decide (b.boot.since + ms 40 ≤ b.now) then b.dramTrained trained mib else b

/-! ### READY (R40, R47, R66, R71, R124, R493, R578) -/

/-- Programs the next bit of the rollback thermometer while the count is below the booted slot's SVN (R66). -/
def Block.rollStep (b : Block) : Block :=
  match (List.range 64).find? fun i => !b.boot.otp.rollback.getLsbD i with
  | some bit =>
    if popcount b.boot.otp.rollback < b.boot.rollTarget then
      Block.drive (.otpProgram bit) { b with boot := { b.boot with rollBusy := true, otpSince := b.now } }
    else { b with boot := { b.boot with rollBusy := false } }
  | none => { b with boot := { b.boot with rollBusy := false } }

/-- OTP_PROGRAM_RESPONSE, with the bit that the readback shows (R66, R635, R636). -/
def Block.programResponse (err readback : Bool) (b : Block) : Block :=
  if b.ready && b.boot.rollBusy then
    if err || !readback then b.rollFails
    else match (List.range 64).find? fun i => !b.boot.otp.rollback.getLsbD i with
    | some bit => Block.rollStep { b with boot := { b.boot with otp := { b.boot.otp with rollback := setBit b.boot.otp.rollback bit } } }
    | none => { b with boot := { b.boot with rollBusy := false } }
  else b

/-- Whether every unit has passed its self-test or been fenced, and every island has started. -/
def Block.broughtUp (b : Block) : Bool :=
  (testedUnits.all fun u => match fenceable (BitVec.ofNat 8 u) with | some k => b.flt.isTested k || !b.flt.isLive k | none => true) && b.boot.dramDone
    && (decide (b.boot.since + ms 50 ≤ b.now) || (List.range 10).all fun i => !(b.pwr.iso.getD (i + 1) true))

/-- The units of the active set start (R105, R214, R231, R268). -/
def Block.startUnits (b : Block) : Block :=
  let b1 := (List.range 24).foldl (fun b c => if chanEnabled b.cfg.active c then b.chanStart c else b) b
  let b2 := b1.restPins []
  { b2 with slots := b2.slots.map fun s => { s with pollFrom := b.now, pollNext := b.now } }

/-- What READY publishes of the boot (Tables 19-3 and 19-5). -/
def Boot.published (now : Tick) (o : Boot) : Boot :=
  { o with
    booted := true, bootedSlot := o.hamperSlot, svn := o.trySvn, versionCounter := o.tryVersion
    bootUs := BitVec.ofNat 32 ((now - o.releasedAt) / 250), rollTarget := o.trySvn.toNat }

/-- READY_ENTRY: epoch 0 starts, at the rate that the live capacity gives, under the fallback plan at the P-points in force. -/
def Block.readyEntry (b : Block) : Block :=
  if b.boot.phase == .bringup && b.broughtUp then
    let b1 := (b.enter .ready).releaseFlash
    let t := b.now
    let b2 := { b1 with
      boot := b1.boot.published t
      flt := { b1.flt with capOn := true, step := max b1.flt.step b1.flt.level }
      pwr := { b1.govLatch.pwr with thermal := b1.govLatch.pwr.sustained, skinDue := t }
      tim := { b1.tim with due := t }
      den := { b1.den with zqAt := t, scrubAt := t } }
    let k := b2.flt.step
    let plan : Plan := { lanes := fallbackLanes b2.cfg.active 0 b2.flt.fox b2.pwr.pp.fox, pp := b2.pwr.pp, lowPp := b2.pwr.pp
                         mw := b2.freeNow.setWidth 16, lowMw := b2.freeNow.setWidth 16, made := t }
    let b3 := Block.drew { b2 with ep := { b2.ep with running := true, base := t, n := 0, k := k, rate := b2.rateAt k } }
    let b4 := (b3.startUnits.chooseInertial).freshEpoch 0 t (b3.ep.boundary 1 - t) plan plan.mw
    let b5 := if b4.link.up then b4.sessionStart else b4
    let b6 := if b5.trailRole ≠ 0 then b5.rollStart else b5
    Block.rollStep { b6 with pwr := { b6.pwr with govStatus := b6.govWord t } }.memberTurn
  else b

/-! ### Exec -/

/-- MAIN_BROWNOUT. -/
def execMainBrownout (rails : BitVec 8) (s : State) : Host.Outcome State Fault Refusal := s.act (Block.mainBrownout rails)
/-- MAIN_POR_RELEASE. -/
def execMainPorRelease (probe : FlashProbe) (s : State) : Host.Outcome State Fault Refusal := s.act (Block.mainRelease probe)
/-- RESET_N_FALL. -/
def execResetNFall (s : State) : Host.Outcome State Fault Refusal := s.act Block.resetFall
/-- ROM_PROBE_TIMEOUT. -/
def execRomProbeTimeout (s : State) : Host.Outcome State Fault Refusal := s.act Block.probeTimeout
/-- OTP_RESPONSE. -/
def execOtpResponse (word : BitVec 10) (value : BitVec 32) (err : Bool) (s : State) : Host.Outcome State Fault Refusal :=
  s.act (Block.otpResponse word value err)
/-- OTP_TIMEOUT. -/
def execOtpTimeout (s : State) : Host.Outcome State Fault Refusal := s.act Block.otpTimeout
/-- BOOT_RESPONSE. -/
def execBootResponse (beat : BootBeat) (s : State) : Host.Outcome State Fault Refusal := s.act (Block.bootResponse beat)
/-- SLOT_ATTEMPT. -/
def execSlotAttempt (flash : FlashImage) (s : State) : Host.Outcome State Fault Refusal := s.act (Block.slotAttempt flash)
/-- SLOT_VERIFY_TIMEOUT. -/
def execSlotVerifyTimeout (s : State) : Host.Outcome State Fault Refusal := s.act Block.slotTimeout
/-- SETTINGS_LOAD_TIMEOUT. -/
def execSettingsLoadTimeout (s : State) : Host.Outcome State Fault Refusal := s.act Block.loadTimeout
/-- BRINGUP_START. -/
def execBringupStart (populated : BitVec 4) (s : State) : Host.Outcome State Fault Refusal := s.act (Block.bringupStart populated)
/-- UNIT_SELF_TEST_DONE. -/
def execUnitSelfTestDone (unit : BitVec 8) (ok : Bool) (s : State) : Host.Outcome State Fault Refusal := s.act (Block.selfTest unit ok)
/-- BRINGUP_TIMEOUT. -/
def execBringupTimeout (s : State) : Host.Outcome State Fault Refusal := s.act Block.bringupTimeout
/-- DRAM_TRAINING_DONE. -/
def execDramTrainingDone (trained : BitVec 4) (mibPerChannel : Nat) (s : State) : Host.Outcome State Fault Refusal :=
  s.act (Block.trainingDone trained mibPerChannel)
/-- DRAM_TRAINING_TIMEOUT. -/
def execDramTrainingTimeout (trained : BitVec 4) (mibPerChannel : Nat) (s : State) : Host.Outcome State Fault Refusal :=
  s.act (Block.trainingTimeout trained mibPerChannel)
/-- READY_ENTRY. -/
def execReadyEntry (s : State) : Host.Outcome State Fault Refusal := s.act Block.readyEntry
/-- OTP_PROGRAM_RESPONSE. -/
def execOtpProgramResponse (err readback : Bool) (s : State) : Host.Outcome State Fault Refusal := s.act (Block.programResponse err readback)
/-- BOOT_LOCKSTEP_MISMATCH. -/
def execBootLockstepMismatch (s : State) : Host.Outcome State Fault Refusal := s.act Block.bootMismatch
/-- SOFT_RESET. -/
def execSoftReset (value : BitVec 32) (s : State) : Host.Outcome State Fault Refusal := s.act (Block.softReset value)

end Sys2Proof.Machine
end

