-- ==== Sys2Proof/Machine/Edge.lean ====
section
/-! DEFINITION. The block's edge (chapter 18): the beats that come in, a partner that does not answer, and the hooks through which an
OTX-120C is clocked and supplied. On the packaged parts nothing crosses this edge, and the commands change nothing. -/

namespace Sys2Proof.Machine

/-! ### Channels (Table 18-3, numbered as EDGE_STATUS numbers them) -/

/-- The island of a channel; none for the monotonic counter's, which belong to the Thermos domain. -/
def edgeIsland (ch : Nat) : Option Nat :=
  if ch < 6 then some 2 else if ch < 10 then some 9 else if ch < 46 then some 10
  else if ch = 50 || ch = 51 then none else some 1

/-- Whether a channel carries beats into the block. -/
def edgeIn (ch : Nat) : Bool :=
  decide (ch < 6) || ch == 8 || ch == 9 || (decide (28 ≤ ch) && decide (ch < 46)) || ch == 47 || ch == 49 || ch == 51 || ch == 52

/-- Whether a channel runs: its island is not isolated (R617). -/
def Block.edgeRuns (ch : Nat) (b : Block) : Bool :=
  b.hooked && (match edgeIsland ch with
    | some i => !(b.pwr.iso.getD i true)
    | none => true)

/-- Whether a beat's kind keeps the FIRST … LAST order (R17, R620). -/
def edgeOrder (inSeq : Bool) (kind : BitVec 2) : Bool := kind.getLsbD 0 != inSeq

/-- A channel takes a beat, or discards the sequence that it belongs to (R620). A LAST or ONLY beat completes its sequence, which goes to
the island. -/
def EdgeCh.take (beat : Beat) (early : Bool) (e : EdgeCh) : EdgeCh :=
  if early || !edgeOrder e.inSeq beat.kind then { e with beats := [], inSeq := false, proto := bump e.proto }
  else if beat.kind.getLsbD 1 then { e with beats := [], inSeq := false }
  else { e with beats := e.beats ++ [beat], inSeq := true }

/-- EDGE_BEAT_IN, with whether REQ fell before ACK had risen; a CSI beat also brings PHY_ERR (R623). -/
def Block.edgeBeat (ch : Fin 53) (beat : Beat) (early : Bool) (b : Block) : Block :=
  if edgeIn ch && b.edgeRuns ch then
    let b1 := { b with edge := b.edge.modify ch (EdgeCh.take beat early) }
    if h : ch.val < 6 then (if beat.sealWord.getLsbD 10 then b1.phyError ⟨ch.val, h⟩ else b1) else b1
  else b

/-- A trail lane whose partner is absent goes to FAILED; an attempt in progress has failed (R520, R621). -/
def Block.laneAbsent (l : Nat) (b : Block) : Block :=
  let x := b.lane l
  let goes (fails : Bool) : Block := b.onLane l fun x => { x with
    st := .failed, since := b.now, sentReq := false, leads := false, trainFail := if fails then bump x.trainFail else x.trainFail }
  match x.st with
  | .up => (goes false).laneGone (b.laneBundle l)
  | .training => goes true
  | .retraining => (goes true).laneGone (b.laneBundle l)
  | _ => b

/-- EDGE_STALL: no acknowledge for 100 µs; the partner counts as absent (R621). -/
def Block.edgeStall (ch : Fin 53) (b : Block) : Block :=
  if !edgeIn ch && b.edgeRuns ch then
    let b1 := { b with edge := b.edge.modify ch fun e => { e with stall := bump e.stall } }
    if ch.val < 8 then (if b1.link.up then b1.linkLost else b1)
    else if ch.val < 28 then b1.laneAbsent (ch.val - 10)
    else if ch.val = 46 then (if b1.boot.bootSrc && b1.boot.phase == .romProbe then b1.haltBoth 0x01 else b1)
    else if ch.val = 48 then
      (if b1.boot.phase == .romProbe then b1.haltBoth 0x0D else if b1.ready && b1.boot.rollBusy then b1.rollFails else b1)
    else b1
  else b

/-! ### Clocks and voltages (R627, R628) -/

/-- Whether nothing else keeps a powered island's clock stopped: a halt (R579), a trip (R597), or a P-point that is still to come (R627). -/
def Block.clockFree (i : Nat) (b : Block) : Bool :=
  !(b.pwr.iso.getD i true) && !b.tripStops i && (b.boot.phase != .faultHalt || i == 8 || i == 9)
    && dvfsAll.all fun d => dvfsIsland d != i || (b.pwr.packSince.getD (dvfsIndex d) none).isNone

/-- An island's clock starts again, unless something else stops it. -/
def Block.clockAgain (i : Nat) (b : Block) : Block := if b.clockFree i then b.clock i true else b

/-- PACK_MATCH: HB_PACK equals HB_PREQ. -/
def Block.packMatch (i : Dvfs) (b : Block) : Block :=
  if b.hooked && (b.pwr.packSince.getD (dvfsIndex i) none).isSome then
    Block.clockAgain (dvfsIsland i) { b with pwr := { b.pwr with
      pack := ppSet b.pwr.pack i (ppGet b.pwr.preq i), packSince := b.pwr.packSince.set (dvfsIndex i) none } }
  else b

/-- PACK_TIMEOUT: after 50 µs the island runs the epoch at the point that is delivered, with CLOCK_LATE. -/
def Block.packTimeout (i : Dvfs) (delivered : Fin 6) (b : Block) : Block :=
  match b.pwr.packSince.getD (dvfsIndex i) none with
  | some t =>
    if b.hooked && decide (t + us 50 ≤ b.now) && delivered != ppGet b.pwr.preq i then
      let b1 := { b with pwr := { b.pwr with
        preq := ppSet b.pwr.preq i delivered, pack := ppSet b.pwr.pack i delivered, pp := ppSet b.pwr.pp i delivered
        packSince := b.pwr.packSince.set (dvfsIndex i) none } }
      (b1.clockAgain (dvfsIsland i)).event 0x005B noUnit (lateBody i (ppGet b.pwr.preq i) delivered)
    else b
  | none => b

/-! ### Power-island hooks (R630 to R632) -/

/-- An island leaves isolation and its clock starts. -/
def Block.islandOn (i : Nat) (b : Block) : Block := Block.clockAgain i { b with pwr := { b.pwr with iso := b.pwr.iso.set i false } }

/-- Whether an island's hooks exist and its supply is asked for without being there. -/
def Block.supplyAsked (i : Nat) (b : Block) : Bool :=
  b.hooked && i != 0 && b.pwr.pwrReq.getD i false && !(b.pwr.pwrAck.getD i false)

/-- PWR_ACK_RISE: Den leaves retention before its isolation ends. -/
def Block.ackRise (island : Island) (b : Block) : Block :=
  let i := islandNo island
  if b.supplyAsked i then
    let b1 := { b with pwr := { b.pwr with pwrAck := b.pwr.pwrAck.set i true } }
    if i == 8 && b1.pwr.retDen then
      let b2 := { b1 with pwr := { b1.pwr with retDen := false } }
      if b2.pwr.retAckDen then b2 else b2.islandOn 8
    else b1.islandOn i
  else b

/-- RET_ACK_DEN. -/
def Block.retAck (level : Bool) (b : Block) : Block :=
  if b.hooked && b.pwr.retAckDen != level then
    let b1 := { b with pwr := { b.pwr with retAckDen := level } }
    if level then (if b1.pwr.retDen then { b1 with pwr := { b1.pwr with pwrReq := b1.pwr.pwrReq.set 8 false } } else b1)
    else if !b1.pwr.retDen && b1.pwr.pwrReq.getD 8 false && b1.pwr.pwrAck.getD 8 false then b1.islandOn 8
    else b1
  else b

/-- PWR_ACK_FALL: while the supply is asked for it is a bridge watchdog fault of the island. -/
def Block.ackFall (island : Island) (b : Block) : Block :=
  let i := islandNo island
  if b.hooked && i != 0 && b.pwr.pwrAck.getD i false then
    let b1 := { b with pwr := { b.pwr with pwrAck := b.pwr.pwrAck.set i false } }
    if b.pwr.pwrReq.getD i false then b1.bridgeFault i none 9 else b1
  else b

/-- PWR_ACK_TIMEOUT: the island has failed; in BRINGUP the limits of R39 and Table 02-1 apply instead. -/
def Block.ackTimeout (island : Island) (b : Block) : Block :=
  let i := islandNo island
  if b.detects && b.supplyAsked i && decide (b.pwr.pwrSince.getD i 0 + ms 10 ≤ b.now) && b.boot.phase != .bringup
      && !(b.flt.failed.getD i false) then
    let b1 := { b with flt := { b.flt with failed := b.flt.failed.set i true } }
    if i = 10 then b1.islandFailed 10 else b1.faultHalt 2 i
  else b

/-! ### Exec -/

/-- EDGE_BEAT_IN. -/
def execEdgeBeatIn (ch : Fin 53) (beat : Beat) (early : Bool) (s : State) : Host.Outcome State Fault Refusal :=
  s.act (Block.edgeBeat ch beat early)
/-- EDGE_STALL. -/
def execEdgeStall (ch : Fin 53) (s : State) : Host.Outcome State Fault Refusal := s.act (Block.edgeStall ch)
/-- PACK_MATCH. -/
def execPackMatch (i : Dvfs) (s : State) : Host.Outcome State Fault Refusal := s.act (Block.packMatch i)
/-- PACK_TIMEOUT. -/
def execPackTimeout (i : Dvfs) (delivered : Fin 6) (s : State) : Host.Outcome State Fault Refusal := s.act (Block.packTimeout i delivered)
/-- PWR_ACK_RISE. -/
def execPwrAckRise (island : Island) (s : State) : Host.Outcome State Fault Refusal := s.act (Block.ackRise island)
/-- RET_ACK_DEN. -/
def execRetAckDen (level : Bool) (s : State) : Host.Outcome State Fault Refusal := s.act (Block.retAck level)
/-- PWR_ACK_FALL. -/
def execPwrAckFall (island : Island) (s : State) : Host.Outcome State Fault Refusal := s.act (Block.ackFall island)
/-- PWR_ACK_TIMEOUT. -/
def execPwrAckTimeout (island : Island) (s : State) : Host.Outcome State Fault Refusal := s.act (Block.ackTimeout island)

end Sys2Proof.Machine
end

