-- ==== Sys2Proof/Machine/Register.lean ====
section
/-! DEFINITION. The BAR0 registers (chapter 19): what each reads, and what a write to it does. -/

namespace Sys2Proof.Machine

/-! ### Access (Table 19-1, Tables 19-3 to 19-13) -/

/-- How a register takes a write; none for an offset that the chapter does not list. `soft` is SOFT_RESET. -/
inductive RegAccess where
  | none | ro | rw | clr | w1c | soft
deriving DecidableEq, Repr

/-- Whether an offset lies in a block of n bytes. -/
def inBlock (base n off : Nat) : Bool := decide (base ≤ off) && decide (off < base + n)

/-- The registers below 0x1000. -/
def lowAccess (off : Nat) : RegAccess :=
  if off = 0x210 then .soft
  else if off = 0x230 || off = 0x734 then .w1c
  else if inBlock 0x110 20 off || off = 0x220 || off = 0x410 || inBlock 0x600 8 off then .rw
  else if inBlock 0x508 8 off || inBlock 0x540 44 off || off = 0x704 || inBlock 0x710 12 off || off = 0x720 || inBlock 0x740 12 off then .clr
  else if inBlock 0 32 off || inBlock 0x100 16 off || off = 0x124 || inBlock 0x130 16 off || inBlock 0x200 12 off || inBlock 0x300 24 off
      || inBlock 0x400 16 off || inBlock 0x418 12 off || inBlock 0x440 24 off || inBlock 0x500 8 off || inBlock 0x510 8 off
      || inBlock 0x608 20 off || off = 0x700 || off = 0x730 then .ro
  else .none

/-- A queue's registers (Table 19-10). -/
def queueAccess (r : Nat) : RegAccess := if r < 0x20 then .rw else if r = 0x20 then .w1c else if r = 0x24 then .ro else .none

/-- A stream's registers (Table 19-11). -/
def streamAccess (r : Nat) : RegAccess := if r = 0 then .rw else if r = 4 then .w1c else if r < 0x18 then .ro else .none

/-- The counters and trail tables (Table 19-12). -/
def counterAccess (off : Nat) : RegAccess :=
  if off < 0x2300 then (if off % 0x80 < 0x54 then .clr else .none)
  else if off < 0x2400 then .none
  else if off < 0x2700 then (if off % 0x20 < 0x18 then .clr else .none)
  else if off < 0x2800 then .none
  else if off < 0x2880 then .clr
  else if off < 0x2900 then .none
  else if off < 0x3100 then
    (match off % 0x20 / 4 with | 0 => .ro | 1 => .clr | 2 => .clr | 4 => .ro | 5 => .ro | _ => .none)
  else if off < 0x31D4 then .clr
  else if off < 0x3200 then .none
  else if off < 0x3400 then
    (match off % 0x20 / 4 with | 0 => .ro | 1 => .clr | 2 => .clr | 3 => .ro | 4 => .ro | 5 => .ro | _ => .none)
  else if off < 0x3448 then .clr
  else if off = 0x3484 then .clr
  else if inBlock 0x3480 16 off then .ro
  else .none

/-- How the register at an aligned offset takes a write. -/
def regAccess (off : Nat) : RegAccess :=
  if off < 0x1000 then lowAccess off
  else if off < 0x1400 then queueAccess (off % 0x40)
  else if off < 0x1500 then streamAccess (off % 0x20)
  else if inBlock 0x2000 0x1490 off then counterAccess off
  else if inBlock 0x3800 0x400 off then .ro
  else .none

/-! ### Values -/

/-- The value of a 64-bit register, by its offset; none where no 64-bit register begins. The PTM block is read from its latch (R651). -/
def Block.wide (off : Nat) (b : Block) : Option (BitVec 64) :=
  match off with
  | 0x10 => some b.boot.otp.serial
  | 0x300 => some (BitVec.ofNat 64 (shadowCode b.cfg.shadowState + b.cfg.gen.toNat * 2 ^ 32))
  | 0x308 => some b.cfg.lastSwap
  | 0x310 => some (BitVec.ofNat 64 (b.cfg.result.pass.toNat + b.cfg.result.reason.toNat * 2 ^ 8 + b.cfg.result.page.toNat * 2 ^ 16
      + b.cfg.result.field.toNat * 2 ^ 32))
  | 0x400 => some b.thermos.tb
  | 0x418 => some b.ep.now
  | 0x700 => some (BitVec.ofNat 64 (b.den.channels.toNat + b.den.dramAbsent.toNat * 2 ^ 4 + b.den.mapFull.toNat * 2 ^ 5
      + b.den.usableMib.toNat * 2 ^ 16 + b.den.bar4Drop.toNat * 2 ^ 32))
  | 0x3488 => some b.trail.masterSerial
  | _ =>
    if inBlock 0x1000 0x400 off && off % 0x40 == 0 then some (b.queue ((off - 0x1000) / 0x40)).sqBase
    else if inBlock 0x1000 0x400 off && off % 0x40 == 8 then some (b.queue ((off - 0x1000) / 0x40)).cqBase
    else if inBlock 0x2900 0x800 off && off % 0x20 == 0x10 then some (b.guest ((off - 0x2900) / 0x20)).gid
    else if inBlock 0x3200 0x200 off && off % 0x20 == 0x10 then some (b.bundle ((off - 0x3200) / 0x20)).nbSerial
    else none

/-- One 32-bit word of a wide value. -/
def wordOf {w : Nat} (x : BitVec w) (i : Nat) : Nat := (x.extractLsb' (32 * i) 32).toNat

/-- The narrow registers below 0x1000. -/
def Block.lowReg (off : Nat) (b : Block) : Nat :=
  match off with
  | 0x00 => 0x00010120
  | 0x04 => 0xB0 + packageCode b.boot.package * 2 ^ 8 + Config.romVersion.toNat * 2 ^ 16
  | 0x08 => b.boot.svn.toNat + (if b.boot.bootedSlot = .b then 2 ^ 8 else 0)
  | 0x0C => b.boot.versionCounter.toNat
  | 0x18 => b.trail.chip.toNat + b.trail.assigned.toNat * 2 ^ 15 + b.trail.master.toNat * 2 ^ 16
  | 0x1C => b.boot.masterStrap.toNat + 2 * b.boot.bootSrc.toNat
  | 0x124 => helloCode b.feat.state + b.feat.late.toNat * 2 ^ 8
  | 0x200 => b.statusWord
  | 0x204 => b.bootStatusWord
  | 0x208 => b.boot.bootUs.toNat
  | 0x220 => b.pwr.pauseBit.toNat + 2 * b.pwr.shutdown.toNat
  | 0x230 => b.host.eventCause.toNat
  | 0x408 => b.thermos.tbEpoch.toNat
  | 0x40C => b.thermos.timeLost.toNat
  | 0x420 => b.ep.rate % 256 + memField (corePage b.cfg.active) 16 1 * 2 ^ 8
  | 0x500 => b.flt.capacity.toNat
  | 0x504 => b.flt.haltCause.toNat + b.flt.haltIsland.toNat * 2 ^ 4
  | 0x508 => b.flt.sealFaults.toNat
  | 0x50C => b.flt.traceDrop.toNat
  | 0x510 => b.flt.fenceCount.toNat
  | 0x514 => b.den.faultCount.toNat
  | 0x600 => b.pwr.sustained.toNat + b.pwr.burstMw.toNat * 2 ^ 16
  | 0x604 => b.pwr.skin.toNat
  | 0x618 => b.pwr.hottest.toNat
  | 0x710 => b.den.sramCe.toNat
  | 0x714 => b.den.dramCe.toNat
  | 0x718 => b.den.linkCe.toNat
  | 0x720 => b.host.badBell.toNat + b.host.badReg.toNat * 2 ^ 16
  | 0x730 => b.cfg.modelErr.toNat
  | 0x734 => b.ifc.coefBusy.toNat
  | 0x740 => b.badger.rangeTrips.toNat
  | 0x744 => b.badger.lmDropped.toNat
  | 0x748 => b.badger.precondReg.toNat
  | _ =>
    if inBlock 0x100 16 off then wordOf b.feat.offer ((off - 0x100) / 4)
    else if inBlock 0x110 16 off then wordOf b.feat.accept ((off - 0x110) / 4)
    else if inBlock 0x130 16 off then wordOf b.feat.committed ((off - 0x130) / 4)
    else if inBlock 0x540 44 off then (b.flt.restarts.getD ((off - 0x540) / 4) 0).toNat
    else if inBlock 0x608 16 off then wordOf b.pwr.govStatus ((off - 0x608) / 4)
    else 0

/-- A queue's narrow registers (Table 19-10). -/
def Queue.reg (r : Nat) (x : Queue) : Nat :=
  match r with
  | 0x10 => x.sqSize.toNat
  | 0x14 => x.cqSize.toNat
  | 0x18 => x.coalCount.toNat + x.coalUs.toNat * 2 ^ 16
  | 0x1C => x.enabled.toNat
  | 0x20 => x.configErr.toNat + 2 * x.bellErr.toNat + 4 * x.held.toNat
  | 0x24 => x.sqHead + x.cqTail * 2 ^ 16
  | _ => 0

/-- A stream's registers (Table 19-11). -/
def Stream.reg (r : Nat) (s : Stream) : Nat :=
  match r with
  | 0x04 => s.isOpen.toNat + 2 * s.held.toNat + 4 * s.bellErr.toNat
  | 0x08 => s.tail.toNat
  | 0x0C => s.head.toNat
  | 0x10 => s.lastSeq.toNat
  | 0x14 => s.slots.toNat
  | _ => 0

/-- A lane's word. On OTX-120H the entries beyond the bonded lanes read zero (R655). -/
def Block.laneReg (l : Nat) (b : Block) : Nat :=
  if b.boot.package == .h && !b.bonded l then 0
  else
    let x := b.lane l
    laneCode x.st + (b.laneRate l).toNat * 2 ^ 3 + (if b.laneBundle l < 16 then b.laneBundle l * 2 ^ 8 else 2 ^ 12) + x.trainFail.toNat * 2 ^ 16

/-- A bundle's narrow words; as for lanes on OTX-120H (R655). -/
def Block.bundleReg (k r : Nat) (b : Block) : Nat :=
  let x := b.bundle k
  if b.boot.package == .h && (b.bundleLanes k).isEmpty then 0
  else match r with
  | 0x00 => x.width.toNat + (b.bundleUp k).toNat * 2 ^ 8 + (b.isUplink k).toNat * 2 ^ 9
  | 0x04 => x.crcErr.toNat
  | 0x08 => x.replays.toNat
  | 0x0C => x.nbChip.toNat + x.nbValid.toNat * 2 ^ 15
  | _ => 0

/-- The counters and trail tables (Table 19-12); EDGE_STATUS is zero on a packaged part (R655). -/
def Block.counterReg (off : Nat) (b : Block) : Nat :=
  let nth (cs : List (BitVec 32)) (i : Nat) : Nat := (cs.getD i 0).toNat
  if off < 0x2300 then
    let k := (off - 0x2000) / 0x80
    let i := off % 0x80 / 4
    if i < 16 then nth (b.ports.getD k {}).counters i else nth (b.slots.getD k {}).counters (i - 16)
  else if inBlock 0x2400 0x300 off then nth (b.ifc.chans.getD ((off - 0x2400) / 0x20) {}).counters (off % 0x20 / 4)
  else if inBlock 0x2800 0x80 off then nth (b.owl.slots.getD ((off - 0x2800) / 0x10) {}).counters (off % 0x10 / 4)
  else if inBlock 0x2900 0x800 off then
    let g := b.guest ((off - 0x2900) / 0x20)
    (match off % 0x20 with
    | 0x00 => guestCode g.st + g.gen.toNat * 2 ^ 16
    | 0x04 => g.stale.toNat
    | 0x08 => g.dropped.toNat
    | _ => 0)
  else if inBlock 0x3100 0xD4 off then
    let e := b.edge.getD ((off - 0x3100) / 4) {}
    if b.hooked then e.proto.toNat + e.stall.toNat * 2 ^ 16 else 0
  else if inBlock 0x3200 0x200 off then b.bundleReg ((off - 0x3200) / 0x20) (off % 0x20)
  else if inBlock 0x3400 0x48 off then b.laneReg ((off - 0x3400) / 4)
  else if off = 0x3480 then b.trail.rollDone.toNat + 2 * b.trail.failed.toNat
  else if off = 0x3484 then b.trail.unreach.toNat
  else 0

/-- The entry of a log of `size` entries at an index, its newest entry last in the list (R656). -/
def logEntry {α : Type} (log : List α) (count : BitVec 32) (size i : Nat) : Option α :=
  let back := (count - 1 - BitVec.ofNat 32 i).toNat % size
  if back < log.length then log[log.length - 1 - back]? else none

/-- The logs (Table 19-13). -/
def Block.logReg (off : Nat) (b : Block) : Nat :=
  if off < 0x3A00 then
    (match logEntry b.flt.fenceLog b.flt.fenceCount 32 ((off - 0x3800) / 16) with
    | some e => field (fenceBytes e) (off % 16) 4
    | none => 0)
  else
    (match logEntry b.den.faultLog b.den.faultCount 16 ((off - 0x3A00) / 32) with
    | some e => field (memFaultBytes e) (off % 32) 4
    | none => 0)

/-- A word of the MSI-X table (Table 19-2). -/
def MsixEntry.word (i : Nat) (m : MsixEntry) : Nat :=
  match i with
  | 0 => wordOf m.addr 0
  | 1 => wordOf m.addr 1
  | 2 => m.data.toNat
  | _ => m.mask.toNat

/-- The 32-bit word that an aligned offset reads, latches apart. -/
def Block.reg32 (off : Nat) (b : Block) : BitVec 32 :=
  match b.wide off, (if 4 ≤ off then b.wide (off - 4) else none) with
  | some v, _ => v.setWidth 32
  | none, some v => v.extractLsb' 32 32
  | none, none =>
    BitVec.ofNat 32 (
      if off < 0x1000 then b.lowReg off
      else if off < 0x1400 then (b.queue ((off - 0x1000) / 0x40)).reg (off % 0x40)
      else if off < 0x1500 then (b.stream ((off - 0x1400) / 0x20)).reg (off % 0x20)
      else if inBlock 0x2000 0x1490 off then b.counterReg off
      else if inBlock 0x3800 0x400 off then b.logReg off
      else if inBlock 0xE000 0x200 off then (b.link.msix.getD ((off - 0xE000) / 16) {}).word (off % 16 / 4)
      else if off = 0xF000 then b.link.pba.toNat
      else 0)

/-! ### Reads that latch (R116, R641, R651) -/

/-- The whole PTM correlation block is latched (R651). -/
def Block.ptmLatch (b : Block) : Block :=
  let t := b.tim
  { b with tim := { t with latch := BitVec.ofNat 192 (t.pairHost.toNat + t.pairTb.toNat * 2 ^ 64 + t.pairEpoch.toNat * 2 ^ 128
    + t.valid.toNat * 2 ^ 160 + t.failCount.toNat * 2 ^ 176) } }

/-- The upper half of a 64-bit register goes to its holding copy (R641). -/
def HostLink.hold (off : Nat) (v : BitVec 32) (h : HostLink) : HostLink :=
  { h with latch := (off, v) :: h.latch.filter fun e => e.1 != off }

/-- The holding copy of an upper half. -/
def HostLink.held (off : Nat) (h : HostLink) : BitVec 32 :=
  match h.latch.find? fun e => e.1 == off with
  | some e => e.2
  | none => 0

/-- What a 4-byte read of an aligned offset returns, and the block after it. -/
def Block.readWord (off : Nat) (b : Block) : BitVec 32 × Block :=
  if inBlock 0x440 24 off then
    let b1 := if off = 0x440 then b.ptmLatch else b
    (BitVec.ofNat 32 (wordOf b1.tim.latch ((off - 0x440) / 4)), b1)
  else
    match b.wide off, (if 4 ≤ off then b.wide (off - 4) else none) with
    | some v, _ => (v.setWidth 32, { b with host := b.host.hold (off + 4) (v.extractLsb' 32 32) })
    | none, some _ => (b.host.held off, b)
    | none, none => (b.reg32 off, b)

/-- LOWER_HALF_READ: a 4-byte read; a misaligned one completes with zeros (R640). -/
def Block.read4 (off : Nat) (b : Block) : Block :=
  if !b.awake then b
  else if off % 4 ≠ 0 then b.drive (.readReply (leBytes 4 0))
  else (b.readWord off).2.drive (.readReply (leBytes 4 (b.readWord off).1.toNat))

/-- PTM_CORR_READ of 4 or 8 bytes at 0x0440; of another size it completes with zeros (R640). -/
def Block.readPtm (size : Nat) (b : Block) : Block :=
  if !b.awake then b
  else if size = 4 || size = 8 then
    b.ptmLatch.drive (.readReply ((leBytes 8 b.ptmLatch.tim.latch.toNat).take size))
  else b.drive (.readReply (List.replicate size 0))

/-! ### CLR and W1C (R643, R645) -/

/-- Clears a counter of a receiver or an inertial slot; its record has changed where the counter did (R230). -/
def Block.clearPort (k i : Nat) (b : Block) : Block :=
  if i < 16 then { b with ports := b.ports.modify k fun p =>
    { p with counters := p.counters.set i 0, changed := p.changed || p.counters.getD i 0 != 0 } }
  else { b with slots := b.slots.modify k fun s =>
    { s with counters := s.counters.set (i - 16) 0, changed := s.changed || s.counters.getD (i - 16) 0 != 0 } }

/-- Clears a register of access CLR among the counters and trail tables. -/
def Block.clearCounter (off : Nat) (b : Block) : Block :=
  if off < 0x2300 then b.clearPort ((off - 0x2000) / 0x80) (off % 0x80 / 4)
  else if off < 0x2700 then
    let c := (off - 0x2400) / 0x20
    (b.onChan c fun x => { x with counters := x.counters.set (off % 0x20 / 4) 0 }).onGroup (c / 6) fun g =>
      { g with changed := g.changed || (b.chan c).counters.getD (off % 0x20 / 4) 0 != 0 }
  else if off < 0x2880 then
    { b with owl := { b.owl with slots := b.owl.slots.modify ((off - 0x2800) / 0x10) fun s =>
      { s with counters := s.counters.set (off % 0x10 / 4) 0 } } }
  else if off < 0x3100 then
    { b with guests := b.guests.modify ((off - 0x2900) / 0x20) fun (g : Guest) =>
      if off % 0x20 = 4 then { g with stale := 0 } else { g with dropped := 0 } }
  else if off < 0x3200 then { b with edge := b.edge.modify ((off - 0x3100) / 4) fun e => { e with proto := 0, stall := 0 } }
  else if off < 0x3400 then
    b.onBundle ((off - 0x3200) / 0x20) fun (x : Bundle) => if off % 0x20 = 4 then { x with crcErr := 0 } else { x with replays := 0 }
  else if off < 0x3448 then b.onLane ((off - 0x3400) / 4) fun x => { x with trainFail := 0 }
  else { b with trail := { b.trail with unreach := 0 } }

/-- Clears a register of access CLR below 0x1000. -/
def Block.clearLow (off : Nat) (b : Block) : Block :=
  match off with
  | 0x508 => { b with flt := { b.flt with sealFaults := 0 } }
  | 0x50C => { b with flt := { b.flt with traceDrop := 0 } }
  | 0x704 => { b with den := { b.den with bar4Drop := 0 } }
  | 0x710 => { b with den := { b.den with sramCe := 0 } }
  | 0x714 => { b with den := { b.den with dramCe := 0 } }
  | 0x718 => { b with den := { b.den with linkCe := 0 } }
  | 0x720 => { b with host := { b.host with badBell := 0, badReg := 0 } }
  | 0x740 => { b with badger := { b.badger with rangeTrips := 0 } }
  | 0x744 => { b with badger := { b.badger with lmDropped := 0 } }
  | 0x748 => { b with badger := { b.badger with precondReg := 0 } }
  | _ => { b with flt := { b.flt with restarts := b.flt.restarts.set ((off - 0x540) / 4) 0 } }

/-- The bits of a register of access W1C that are written 1 become 0. -/
def Block.clearBits (off : Nat) (value : BitVec 32) (b : Block) : Block :=
  if off = 0x230 then { b with host := { b.host with eventCause := b.host.eventCause &&& ~~~(value.setWidth 4) } }
  else if off = 0x734 then { b with ifc := { b.ifc with coefBusy := b.ifc.coefBusy &&& ~~~(value.setWidth 24) } }
  else if off < 0x1400 then b.onQueue ((off - 0x1000) / 0x40) fun x => { x with configErr := x.configErr && !value.getLsbD 0 }
  else b.onStream ((off - 0x1400) / 0x20) fun s => { s with bellErr := s.bellErr && !value.getLsbD 2 }

/-- CLEAR_WRITE: in every state from MAIN_POR onward (R645). -/
def Block.clearWrite (off : Nat) (value : BitVec 32) (b : Block) : Block :=
  if !b.awake || off % 4 ≠ 0 then b
  else match regAccess off with
  | .clr => if off < 0x1000 then b.clearLow off else b.clearCounter off
  | .w1c => b.clearBits off value
  | _ => b

/-! ### REGISTER_WRITE (R640, R645, R647, R649, R653, R654) -/

/-- A queue's configuration registers (Table 19-10). -/
def Queue.config (r : Nat) (v : BitVec 32) (x : Queue) : Queue :=
  match r with
  | 0x00 => { x with sqBase := setWord x.sqBase 0 v }
  | 0x04 => { x with sqBase := setWord x.sqBase 1 v }
  | 0x08 => { x with cqBase := setWord x.cqBase 0 v }
  | 0x0C => { x with cqBase := setWord x.cqBase 1 v }
  | 0x10 => { x with sqSize := v.setWidth 13 }
  | 0x14 => { x with cqSize := v.setWidth 13 }
  | 0x18 => { x with coalCount := v.setWidth 8, coalUs := v.extractLsb' 16 16 }
  | _ => x

/-- Q_CTRL: a write that clears ENABLE acts as the disable alone (R653). -/
def Block.queueCtrl (q : Fin 16) (v : BitVec 32) (b : Block) : Block :=
  if !v.getLsbD 0 then b.qDisable q
  else
    let b1 := b.qEnable q
    if v.getLsbD 1 then b1.qResume q else b1

/-- STREAM_CTRL: RESET goes before RESUME (R654). -/
def Block.streamCtrl (st : Fin 8) (v : BitVec 32) (b : Block) : Block :=
  if v.getLsbD 1 then b.streamReset st else if v.getLsbD 0 then b.streamResume st else b

/-- POWER_CTRL: SHUTDOWN goes before PAUSE (R649). -/
def Block.powerCtrl (v : BitVec 32) (b : Block) : Block :=
  if v.getLsbD 1 then b.shutDown else if v.getLsbD 0 then b.pauseRequest else b.pauseClear

/-- Whether a word of a write is ignored and counted: at no register (R640), to an enabled queue's configuration (R653), or a SOFT_RESET
without its key (R647). -/
def Block.wordBad (off : Nat) (v : BitVec 32) (b : Block) : Bool :=
  match regAccess off with
  | .none => true
  | .soft => !(v.getLsbD 16 && v.extractLsb' 0 16 == 0xC3A5)
  | .rw => b.ready && inBlock 0x1000 0x400 off && decide (off % 0x40 < 0x1C) && (b.queue ((off - 0x1000) / 0x40)).enabled
  | _ => false

/-- What one word written to a register of access RW, WO or W1S does; each acts in READY only. -/
def Block.wordWrite (off : Nat) (v : BitVec 32) (b : Block) : Block :=
  match regAccess off with
  | .soft => if b.wordBad off v then b else b.softReset v
  | .rw =>
    if !b.ready || b.wordBad off v then b
    else if off < 0x120 then b.acceptWrite (Fin.ofNat 4 ((off - 0x110) / 4)) v
    else if off = 0x120 then b.helloDone v
    else if off = 0x220 then b.powerCtrl v
    else if off = 0x410 then b.lostAck v
    else if off = 0x600 then b.budgetWrite v
    else if off = 0x604 then b.skinWrite v
    else if off < 0x1400 then
      let q := (off - 0x1000) / 0x40
      if off % 0x40 = 0x1C then b.queueCtrl (Fin.ofNat 16 q) v else b.onQueue q (Queue.config (off % 0x40) v)
    else b.streamCtrl (Fin.ofNat 8 ((off - 0x1400) / 0x20)) v
  | _ => b

/-- A word written to the MSI-X table. -/
def MsixEntry.put (i : Nat) (v : BitVec 32) (m : MsixEntry) : MsixEntry :=
  match i with
  | 0 => { m with addr := setWord m.addr 0 v }
  | 1 => { m with addr := setWord m.addr 1 v }
  | 2 => { m with data := v }
  | _ => { m with mask := v.getLsbD 0 }

/-- A write to the MSI-X table: a vector that is unmasked with its bit pending is sent (R509). -/
def Block.msixWrite (off : Nat) (v : BitVec 32) (b : Block) : Block :=
  let k := (off - 0xE000) / 16
  let b1 := { b with link := { b.link with msix := b.link.msix.modify k (MsixEntry.put (off % 16 / 4) v) } }
  if b1.link.pba.getLsbD k && !(b1.link.msix.getD k {}).mask && b1.link.live && b1.link.msixOn then
    { b1 with link := { b1.link with pba := clearBit b1.link.pba k } }.drive (.msix k)
  else b1

/-- The words of an access. -/
def accessWords (off size : Nat) (value : BitVec 64) : List (Nat × BitVec 32) :=
  if size = 8 then [(off, value.setWidth 32), (off + 4, value.extractLsb' 32 32)] else [(off, value.setWidth 32)]

/-- A write to BAR0: its clears come first (R643), then one count if any of it is ignored and counted, then the rest. -/
def Block.bar0Write (off size : Nat) (value : BitVec 64) (b : Block) : Block :=
  let aligned : Bool := (size = 4 || size = 8) && off % size == 0
  let ws := accessWords off size value
  if inBlock 0xE000 0x200 off then (if aligned then ws.foldl (fun b w => b.msixWrite w.1 w.2) b else b)
  else if inBlock 0xF000 8 off then b
  else if !aligned then b.badReg
  else
    let b1 := ws.foldl (fun b w => b.clearWrite w.1 w.2) b
    let b2 := if ws.any fun w => b.wordBad w.1 w.2 then b1.badReg else b1
    ws.foldl (fun b w => b.wordWrite w.1 w.2) b2

/-- PTM Enable in configuration space: a first dialogue is due when it is set (R117). -/
def Block.ptmControl (on : Bool) (b : Block) : Block :=
  { b with
    link := { b.link with ptm := on }
    tim := { b.tim with due := if on && !b.link.ptm then b.now else b.tim.due, deferred := b.tim.deferred && on } }

/-- The link power states by their codes. -/
def pmOf (code : BitVec 3) : LinkPm :=
  match code.toNat with
  | 0 => .l0 | 1 => .l1 | 2 => .l11 | 3 => .l12 | _ => .l12exit

/-- REGISTER_WRITE: a write to BAR0 or to one of the configuration fields that the spec names. Configuration space is reached while the link
is up. -/
def Block.registerWrite (w : RegWrite) (b : Block) : Block :=
  if !b.awake then b
  else match w with
  | .bar0 off size value => b.bar0Write off size value
  | .busMaster on =>
    if !b.link.up then b else if on then { b with link := { b.link with bme := true } } else b.busMasterOff
  | .ptmControl on => if b.link.up then b.ptmControl on else b
  | .msixControl on => if b.link.up then { b with link := { b.link with msixOn := on } } else b
  | .linkPm code => if b.link.up then { b with link := { b.link with pm := pmOf code } } else b

/-! ### Configuration space (R657, Table 19-14) -/

/-- The capabilities that the endpoint presents. -/
inductive PciCap where
  | powerManagement | pciExpressEndpoint | msix
  | aer | deviceSerialNumber | secondaryPciExpress | physicalLayer16 | laneMargining | l1PmSubstates | ptmRequester
deriving DecidableEq, Repr

/-- A base address register: its number, its size in bytes, and whether it is prefetchable; each is 64 bits wide. -/
structure PciBar where
  bar          : Nat
  size         : Nat
  prefetchable : Bool
deriving DecidableEq, Repr

/-- The values of configuration space. -/
structure PciConfig where
  vendor          : BitVec 16
  device          : BitVec 16
  revision        : BitVec 8
  classCode       : BitVec 24
  subsystemVendor : BitVec 16
  subsystem       : BitVec 16
  bars            : List PciBar
  msixVectors     : Nat
  msixTable       : Nat
  msixPba         : Nat
  serial          : BitVec 64
  caps            : List PciCap
deriving DecidableEq, Repr

/-- The device ID of an order code. -/
def Package.device : Package → BitVec 16
  | .h => 0x0120 | .w => 0x0121 | .c => 0x0122

/-- What configuration space presents. -/
def Block.pciConfig (b : Block) : PciConfig :=
  { vendor := 0x1F4B, device := b.boot.package.device, revision := 0xB0, classCode := 0x118000
    subsystemVendor := 0x1F4B, subsystem := b.boot.package.device
    bars := [⟨0, 0x10000, false⟩, ⟨2, 0x10000, false⟩, ⟨4, 0x10000000, true⟩]
    msixVectors := 32, msixTable := 0xE000, msixPba := 0xF000, serial := b.boot.otp.serial
    caps := [.powerManagement, .pciExpressEndpoint, .msix, .aer, .deviceSerialNumber, .secondaryPciExpress, .physicalLayer16,
             .laneMargining, .l1PmSubstates, .ptmRequester] }

/-! ### Exec -/

/-- LOWER_HALF_READ. -/
def execLowerHalfRead (off : Nat) (s : State) : Host.Outcome State Fault Refusal := s.act (Block.read4 off)
/-- PTM_CORR_READ. -/
def execPtmCorrRead (size : Nat) (s : State) : Host.Outcome State Fault Refusal := s.act (Block.readPtm size)
/-- CLEAR_WRITE. -/
def execClearWrite (off : Nat) (value : BitVec 32) (s : State) : Host.Outcome State Fault Refusal := s.act (Block.clearWrite off value)
/-- REGISTER_WRITE. -/
def execRegisterWrite (w : RegWrite) (s : State) : Host.Outcome State Fault Refusal := s.act (Block.registerWrite w)

end Sys2Proof.Machine
end

