-- ==== Sys2Proof/Machine/Dispatch.lean ====
section
/-! DEFINITION. The dispatch: one arm per command. -/

namespace Sys2Proof.Machine

/-- What a command does to everything but the queue. -/
def exec (i : Instr) (s : State) : Host.Outcome State Fault Refusal :=
  match i with
  | .thermosPorExit => Sys2Proof.Machine.execThermosPorExit s
  | .coldThermosPor => Sys2Proof.Machine.execColdThermosPor s
  | .thermosSourceSwitch toVbk => Sys2Proof.Machine.execThermosSourceSwitch toVbk s
  | .thermosArbitration vaonRise vbkFall => Sys2Proof.Machine.execThermosArbitration vaonRise vbkFall s
  | .crystalStop => Sys2Proof.Machine.execCrystalStop s
  | .crystalRestart => Sys2Proof.Machine.execCrystalRestart s
  | .tporRelease => Sys2Proof.Machine.execTporRelease s
  | .mainBrownout rails => Sys2Proof.Machine.execMainBrownout rails s
  | .mainPorRelease probe => Sys2Proof.Machine.execMainPorRelease probe s
  | .resetNFall => Sys2Proof.Machine.execResetNFall s
  | .romProbeTimeout => Sys2Proof.Machine.execRomProbeTimeout s
  | .otpResponse word value err => Sys2Proof.Machine.execOtpResponse word value err s
  | .otpTimeout => Sys2Proof.Machine.execOtpTimeout s
  | .bootResponse beat => Sys2Proof.Machine.execBootResponse beat s
  | .slotAttempt flash => Sys2Proof.Machine.execSlotAttempt flash s
  | .slotVerifyTimeout => Sys2Proof.Machine.execSlotVerifyTimeout s
  | .settingsLoadTimeout => Sys2Proof.Machine.execSettingsLoadTimeout s
  | .bringupStart populated => Sys2Proof.Machine.execBringupStart populated s
  | .unitSelfTestDone unit ok => Sys2Proof.Machine.execUnitSelfTestDone unit ok s
  | .bringupTimeout => Sys2Proof.Machine.execBringupTimeout s
  | .dramTrainingDone trained mibPerChannel => Sys2Proof.Machine.execDramTrainingDone trained mibPerChannel s
  | .dramTrainingTimeout trained mibPerChannel => Sys2Proof.Machine.execDramTrainingTimeout trained mibPerChannel s
  | .readyEntry => Sys2Proof.Machine.execReadyEntry s
  | .otpProgramResponse err readback => Sys2Proof.Machine.execOtpProgramResponse err readback s
  | .bootLockstepMismatch => Sys2Proof.Machine.execBootLockstepMismatch s
  | .softReset value => Sys2Proof.Machine.execSoftReset value s
  | .nvCounterResponse value err => Sys2Proof.Machine.execNvCounterResponse value err s
  | .nvCounterTimeout => Sys2Proof.Machine.execNvCounterTimeout s
  | .featAcceptWrite word value => Sys2Proof.Machine.execFeatAcceptWrite word value s
  | .helloDone value => Sys2Proof.Machine.execHelloDone value s
  | .helloTimerExpiry => Sys2Proof.Machine.execHelloTimerExpiry s
  | .linkUp speed bme msix ptm => Sys2Proof.Machine.execLinkUp speed bme msix ptm s
  | .linkDown => Sys2Proof.Machine.execLinkDown s
  | .busMasterEnableClear => Sys2Proof.Machine.execBusMasterEnableClear s
  | .flr => Sys2Proof.Machine.execFlr s
  | .settingsRead r => Sys2Proof.Machine.execSettingsRead r s
  | .shadowWrite r => Sys2Proof.Machine.execShadowWrite r s
  | .check r => Sys2Proof.Machine.execCheck r s
  | .checkComplete => Sys2Proof.Machine.execCheckComplete s
  | .apply r => Sys2Proof.Machine.execApply r s
  | .syncShadow r => Sys2Proof.Machine.execSyncShadow r s
  | .epochBoundary dram vack => Sys2Proof.Machine.execEpochBoundary dram vack s
  | .planCommit p => Sys2Proof.Machine.execPlanCommit p s
  | .voltageRaise isl => Sys2Proof.Machine.execVoltageRaise isl s
  | .voltageLower isl => Sys2Proof.Machine.execVoltageLower isl s
  | .ptmDialogueDue => Sys2Proof.Machine.execPtmDialogueDue s
  | .ptmDeferredRun => Sys2Proof.Machine.execPtmDeferredRun s
  | .ptmDialogueComplete master delay => Sys2Proof.Machine.execPtmDialogueComplete master delay s
  | .ptmDialogueFail => Sys2Proof.Machine.execPtmDialogueFail s
  | .lostAck value => Sys2Proof.Machine.execLostAck value s
  | .lowerHalfRead off => Sys2Proof.Machine.execLowerHalfRead off s
  | .ptmCorrRead size => Sys2Proof.Machine.execPtmCorrRead size s
  | .trigEdge pin rise => Sys2Proof.Machine.execTrigEdge pin rise s
  | .frameStart port p => Sys2Proof.Machine.execFrameStart port p s
  | .trigNoFrame port => Sys2Proof.Machine.execTrigNoFrame port s
  | .frameEnd port p => Sys2Proof.Machine.execFrameEnd port p s
  | .lineStart port isEnd p => Sys2Proof.Machine.execLineStart port isEnd p s
  | .longPacket port p => Sys2Proof.Machine.execLongPacket port p s
  | .embedPacket port p => Sys2Proof.Machine.execEmbedPacket port p s
  | .phyFramingError port => Sys2Proof.Machine.execPhyFramingError port s
  | .irqImuEdge pin rising width => Sys2Proof.Machine.execIrqImuEdge pin rising width s
  | .pollTimer slot => Sys2Proof.Machine.execPollTimer slot s
  | .sensorReadStart ctl => Sys2Proof.Machine.execSensorReadStart ctl s
  | .sensorReadDone ctl burst => Sys2Proof.Machine.execSensorReadDone ctl burst s
  | .inertialGroupClose slot => Sys2Proof.Machine.execInertialGroupClose slot s
  | .skinReadDue => Sys2Proof.Machine.execSkinReadDue s
  | .skinReadDone value => Sys2Proof.Machine.execSkinReadDone value s
  | .skinStale => Sys2Proof.Machine.execSkinStale s
  | .ifcInput slot seen => Sys2Proof.Machine.execIfcInput slot seen s
  | .trigPulseEnd pin => Sys2Proof.Machine.execTrigPulseEnd pin s
  | .ifcOutClose group => Sys2Proof.Machine.execIfcOutClose group s
  | .syncEdge width => Sys2Proof.Machine.execSyncEdge width s
  | .sync r => Sys2Proof.Machine.execSync r s
  | .coefLoadRefused ch set => Sys2Proof.Machine.execCoefLoadRefused ch set s
  | .foxBandStart lane => Sys2Proof.Machine.execFoxBandStart lane s
  | .foxBandSeal lane reads => Sys2Proof.Machine.execFoxBandSeal lane reads s
  | .foxCutoff => Sys2Proof.Machine.execFoxCutoff s
  | .preintBuild reads => Sys2Proof.Machine.execPreintBuild reads s
  | .prior r => Sys2Proof.Machine.execPrior r s
  | .poseAssembly reads => Sys2Proof.Machine.execPoseAssembly reads s
  | .predEmit reads => Sys2Proof.Machine.execPredEmit reads s
  | .owlModelLoad r => Sys2Proof.Machine.execOwlModelLoad r s
  | .owlScore r => Sys2Proof.Machine.execOwlScore r s
  | .owlEngineScore use input => Sys2Proof.Machine.execOwlEngineScore use input s
  | .owlSampleResult thread index => Sys2Proof.Machine.execOwlSampleResult thread index s
  | .owlGateLate cam => Sys2Proof.Machine.execOwlGateLate cam s
  | .nodeUe slot reloadOk => Sys2Proof.Machine.execNodeUe slot reloadOk s
  | .vioAssembly input => Sys2Proof.Machine.execVioAssembly input s
  | .badgerJob r => Sys2Proof.Machine.execBadgerJob r s
  | .badgerBlockOpDone job tile op residueOk reads => Sys2Proof.Machine.execBadgerBlockOpDone job tile op residueOk reads s
  | .badgerIterationDecide job d => Sys2Proof.Machine.execBadgerIterationDecide job d s
  | .badgerDeadline job => Sys2Proof.Machine.execBadgerDeadline job s
  | .vioReset => Sys2Proof.Machine.execVioReset s
  | .mapWrite obj => Sys2Proof.Machine.execMapWrite obj s
  | .hotColdMove moves => Sys2Proof.Machine.execHotColdMove moves s
  | .sramScrub addr found => Sys2Proof.Machine.execSramScrub addr found s
  | .dramScrub addr found link => Sys2Proof.Machine.execDramScrub addr found link s
  | .zqCalibration => Sys2Proof.Machine.execZqCalibration s
  | .denWindowOpen r => Sys2Proof.Machine.execDenWindowOpen r s
  | .denWindowClose r => Sys2Proof.Machine.execDenWindowClose r s
  | .bar4Read off len => Sys2Proof.Machine.execBar4Read off len s
  | .bar4Write off data => Sys2Proof.Machine.execBar4Write off data s
  | .guestOpen r => Sys2Proof.Machine.execGuestOpen r s
  | .guestFragment r => Sys2Proof.Machine.execGuestFragment r s
  | .guestClose r => Sys2Proof.Machine.execGuestClose r s
  | .guestAlignStart slot scores => Sys2Proof.Machine.execGuestAlignStart slot scores s
  | .guestMerge reads => Sys2Proof.Machine.execGuestMerge reads s
  | .guestIdleExpiry slot => Sys2Proof.Machine.execGuestIdleExpiry slot s
  | .guestEvictComplete slot => Sys2Proof.Machine.execGuestEvictComplete slot s
  | .guestCoolingEnd slot => Sys2Proof.Machine.execGuestCoolingEnd slot s
  | .sqTailDoorbell q value => Sys2Proof.Machine.execSqTailDoorbell q value s
  | .cqHeadDoorbell q value => Sys2Proof.Machine.execCqHeadDoorbell q value s
  | .streamHeadDoorbell st value => Sys2Proof.Machine.execStreamHeadDoorbell st value s
  | .badDoorbell off size => Sys2Proof.Machine.execBadDoorbell off size s
  | .commandFetch q entry => Sys2Proof.Machine.execCommandFetch q entry s
  | .completionWrite q => Sys2Proof.Machine.execCompletionWrite q s
  | .nop r => Sys2Proof.Machine.execNop r s
  | .streamOpen r journalUe => Sys2Proof.Machine.execStreamOpen r journalUe s
  | .streamClose r => Sys2Proof.Machine.execStreamClose r s
  | .abort r => Sys2Proof.Machine.execAbort r s
  | .streamParcelWrite st seen => Sys2Proof.Machine.execStreamParcelWrite st seen s
  | .msixCoalesceTimer vector => Sys2Proof.Machine.execMsixCoalesceTimer vector s
  | .qEnable q => Sys2Proof.Machine.execQEnable q s
  | .qDisable q => Sys2Proof.Machine.execQDisable q s
  | .qResume q => Sys2Proof.Machine.execQResume q s
  | .streamResume st => Sys2Proof.Machine.execStreamResume st s
  | .streamReset st => Sys2Proof.Machine.execStreamReset st s
  | .sidebandRead command addr count => Sys2Proof.Machine.execSidebandRead command addr count s
  | .laneTrainAttempt lane => Sys2Proof.Machine.execLaneTrainAttempt lane s
  | .laneTrainTimeout lane => Sys2Proof.Machine.execLaneTrainTimeout lane s
  | .laneRetry lane => Sys2Proof.Machine.execLaneRetry lane s
  | .syncHeaderErrors lane count => Sys2Proof.Machine.execSyncHeaderErrors lane count s
  | .laneLockLoss lane => Sys2Proof.Machine.execLaneLockLoss lane s
  | .retrainReq lane => Sys2Proof.Machine.execRetrainReq lane s
  | .widthReq bundle width => Sys2Proof.Machine.execWidthReq bundle width s
  | .widthAck bundle width => Sys2Proof.Machine.execWidthAck bundle width s
  | .flitReceive bundle flit => Sys2Proof.Machine.execFlitReceive bundle flit s
  | .nakReceive bundle seq => Sys2Proof.Machine.execNakReceive bundle seq s
  | .ackTimer bundle => Sys2Proof.Machine.execAckTimer bundle s
  | .flitAckTimeout bundle => Sys2Proof.Machine.execFlitAckTimeout bundle s
  | .rollCallSend => Sys2Proof.Machine.execRollCallSend s
  | .rollCallReceive bundle p => Sys2Proof.Machine.execRollCallReceive bundle p s
  | .rollCallSettle => Sys2Proof.Machine.execRollCallSettle s
  | .assign p => Sys2Proof.Machine.execAssign p s
  | .readReq src p => Sys2Proof.Machine.execReadReq src p s
  | .readResp tag p => Sys2Proof.Machine.execReadResp tag p s
  | .readReqTimeout tag => Sys2Proof.Machine.execReadReqTimeout tag s
  | .join p => Sys2Proof.Machine.execJoin p s
  | .joinReply p => Sys2Proof.Machine.execJoinReply p s
  | .joinRetry => Sys2Proof.Machine.execJoinRetry s
  | .fragAckReceive p => Sys2Proof.Machine.execFragAckReceive p s
  | .fragAckTimeout => Sys2Proof.Machine.execFragAckTimeout s
  | .leave p => Sys2Proof.Machine.execLeave p s
  | .chipLost serial => Sys2Proof.Machine.execChipLost serial s
  | .sealReport p => Sys2Proof.Machine.execSealReport p s
  | .bridgeBeat sender receiver h => Sys2Proof.Machine.execBridgeBeat sender receiver h s
  | .bridgeWatchdog sender receiver unit => Sys2Proof.Machine.execBridgeWatchdog sender receiver unit s
  | .lockstepMismatch pair => Sys2Proof.Machine.execLockstepMismatch pair s
  | .localUe unit => Sys2Proof.Machine.execLocalUe unit s
  | .eccStorm unit count => Sys2Proof.Machine.execEccStorm unit count s
  | .unitWatchdog unit => Sys2Proof.Machine.execUnitWatchdog unit s
  | .islandRestartDone island => Sys2Proof.Machine.execIslandRestartDone island s
  | .govBudgetWrite value => Sys2Proof.Machine.execGovBudgetWrite value s
  | .govSkinWrite value => Sys2Proof.Machine.execGovSkinWrite value s
  | .cooldownEnd => Sys2Proof.Machine.execCooldownEnd s
  | .dieTempSample temps valid => Sys2Proof.Machine.execDieTempSample temps valid s
  | .thermalTrip sensor temp => Sys2Proof.Machine.execThermalTrip sensor temp s
  | .pauseRequest => Sys2Proof.Machine.execPauseRequest s
  | .pauseClear => Sys2Proof.Machine.execPauseClear s
  | .resumeBoundary => Sys2Proof.Machine.execResumeBoundary s
  | .shutdown => Sys2Proof.Machine.execShutdown s
  | .journalCommit => Sys2Proof.Machine.execJournalCommit s
  | .edgeBeatIn ch beat early => Sys2Proof.Machine.execEdgeBeatIn ch beat early s
  | .edgeStall ch => Sys2Proof.Machine.execEdgeStall ch s
  | .packMatch isl => Sys2Proof.Machine.execPackMatch isl s
  | .packTimeout isl delivered => Sys2Proof.Machine.execPackTimeout isl delivered s
  | .pwrAckRise island => Sys2Proof.Machine.execPwrAckRise island s
  | .retAckDen level => Sys2Proof.Machine.execRetAckDen level s
  | .pwrAckFall island => Sys2Proof.Machine.execPwrAckFall island s
  | .pwrAckTimeout island => Sys2Proof.Machine.execPwrAckTimeout island s
  | .clearWrite off value => Sys2Proof.Machine.execClearWrite off value s
  | .registerWrite w => Sys2Proof.Machine.execRegisterWrite w s
  | .dmaReadCompletion r d => Sys2Proof.Machine.execDmaReadCompletion r d s
  | .laneUp lane rate far => Sys2Proof.Machine.execLaneUp lane rate far s
  | .guestFragReceive p => Sys2Proof.Machine.execGuestFragReceive p s
  | .tbSourceChange refRunning => Sys2Proof.Machine.execTbSourceChange refRunning s

end Sys2Proof.Machine
end

