-- ==== Sys2Proof/Safety.lean ====
section
/-! DEFINITION. What a safe step is, and the terms that the statements use: a command that completes, an event that is told, and what
the invariants say. -/

namespace Sys2Proof.Machine

/-- A step that answers a next state. The block has no stop of its own; a fault or a refusal would be the model's. -/
def Safe (s : State) : Prop := ∃ t, step s = .next t

/-- A command completes: `exec` answers a next state, the queue stands, and P holds of the block. -/
def Completes (c : Instr) (s : State) (P : Block → Prop) : Prop :=
  ∃ t : State, exec c s = .next t ∧ t.pending = s.pending ∧ P t.toBlock

/-- The host link and the drop count are those of b once the event of a code is emitted in it. -/
def Tells (code : Nat) (source : BitVec 8) (body : Bytes) (b t : Block) : Prop :=
  t.host = (b.event code source body).host ∧ t.flt = (b.event code source body).flt

/-- What a SYNC at the present tick, from a source (bit 0 the pin, bit 1 the command), leaves of the channels (R249): a running channel whose
group answers the source, and whose inputs are all older, is to be re-anchored at its next input, and no channel that does not answer
changes. -/
def Block.syncAnchored (b : Block) (bit : Nat) (x : Ifc) : Prop :=
  ∀ c : Fin 24, c.val < b.ifc.chans.length →
    ((b.chan c).running = false ∨ (b.setting 3 (c / 6) 16 1).testBit bit = false → x.chans.getD c {} = b.chan c)
      ∧ ((b.chan c).running = true → (b.setting 3 (c / 6) 16 1).testBit bit = true → (∀ i ∈ (b.chan c).hist, i.stamp < b.now) →
        x.chans.getD c {} = { b.chan c with syncAts := (b.chan c).syncAts ++ [b.now] })

/-- Every memory of the block is in its canonical form. -/
def Block.canonical (b : Block) : Prop :=
  Memory.wf b.thermos.journal ∧ Memory.wf b.boot.bootStore ∧ Memory.wf b.den.mem
    ∧ (∀ p ∈ b.cfg.active, Memory.wf p) ∧ ∀ p ∈ b.cfg.shadow, Memory.wf p

/-- Every register file and table of the block has the length that the spec gives it. -/
def Block.shaped (b : Block) : Prop :=
  b.cfg.active.length = 64 ∧ b.cfg.shadow.length = 64
    ∧ b.host.queues.length = 16 ∧ b.host.streams.length = 8 ∧ b.link.msix.length = 32
    ∧ b.ports.length = 6 ∧ b.slots.length = 6 ∧ b.ifc.chans.length = 24 ∧ b.fox.cams.length = 6 ∧ b.owl.slots.length = 8
    ∧ b.guests.length = 64 ∧ b.den.windows.length = 8 ∧ b.edge.length = 53
    ∧ b.trail.lanes.length = 18 ∧ b.trail.bundles.length = 16
    ∧ b.flt.restarts.length = 11 ∧ b.flt.restarting.length = 11 ∧ b.flt.failed.length = 11 ∧ b.flt.clockOn.length = 11
    ∧ b.pwr.packSince.length = 4 ∧ b.pwr.pwrAck.length = 11 ∧ b.pwr.iso.length = 11

/-- The invariant of the block: memories in canonical form, tables of their lengths. -/
def Block.Inv (b : Block) : Prop := b.canonical ∧ b.shaped

/-- A value that SOFT_RESET acts on (R647). -/
def softKey (v : BitVec 32) : Prop := v.getLsbD 16 = true ∧ v.extractLsb' 0 16 = 0xC3A5

/-- The commands that reset the block: RESET_N, a loss of main or of all power, and a host soft reset. -/
def Resets (c : Instr) : Prop :=
  c = .resetNFall ∨ (∃ r, c = .mainBrownout r) ∨ c = .coldThermosPor ∨ (∃ a f, c = .thermosArbitration a f)
    ∨ (∃ v, c = .softReset v ∧ softKey v) ∨ ∃ n v, c = .registerWrite (.bar0 0x210 n v) ∧ softKey (v.setWidth 32)

end Sys2Proof.Machine
end

