-- ==== Sys2Proof/Certificates/Slice0/Obligations.lean ====
section
/-! DEFINITION. The statements for the provers. -/

open Sys2Proof Sys2Proof.Machine

/-- A step runs the command at the front of the queue. For every command c, queue cs and state s, step of s with c in front of cs is
exec of c at s with the queue cs. (Clauses that rest on the model's own choices or readings: log entry 1.) (00_scope.md) -/
def Obligations.StepRunsFront : Prop :=
  ∀ (c : Instr) (cs : List Instr) (s : State),
    step { s with pending := c :: cs } = exec c { s with pending := cs }

/-- The crystal's advance of the time base, tick by tick and over 256 periods. An idle step advances TB by what its source adds. While
the domain runs from VBK or the reference is stopped the source is the crystal, each advance of which adds 7629 ticks plus the
carry of an 8-bit accumulator that gains 101; 256 advances add exactly 1,953,125 ticks. (That an idle step is one advance is the
model's choice, log entry 10.) (04_time.md) -/
def Obligations.IdleTick : Prop :=
  (∀ t : Thermos, (t.onVbk = true ∨ t.refRuns = false) → t.sourced = { t with tbSource := .crystal })
  ∧ (∀ t : Thermos, t.tbSource = .crystal → t.xtalStopped = false →
      t.advance = { t with tb := t.tb + 7629 + BitVec.ofNat 64 ((t.tbFrac.toNat + 101) / 256), tbFrac := t.tbFrac + 101 })
  ∧ (∀ t : Thermos, t.tbSource = .crystal → t.xtalStopped = false →
      Nat.repeat Thermos.advance 256 t = { t with tb := t.tb + 1953125 })
  ∧ (∀ s : State, s.pending = [] → s.tim.syncPend = none → step s = .next { s with thermos := s.thermos.advance })

/-- The Thermos domain's exit from reset, its supply, its clock source and its crystal. THERMOS_POR_EXIT enters MAIN_POR once 2 ms are
over and changes nothing before; TB_SOURCE_CHANGE and THERMOS_SOURCE_SWITCH choose the source of TB and change nothing of TB, the
switch being logged; CRYSTAL_STOP on main supply is logged and holds TB; CRYSTAL_RESTART ends the hold. Nothing else of the block
changes. (Clauses that rest on the model's own choices or readings: log entries 10 and 65.) (04_time.md, 17_power.md,
02_waking.md) -/
def Obligations.ThermosClocks : Prop :=
  ∀ s : State,
    (s.boot.phase = .thermosPor → s.boot.since + 500000 ≤ s.now →
      exec .thermosPorExit s = .next { s with boot := { s.boot with phase := .mainPor, since := s.now } })
    ∧ (s.boot.phase ≠ .thermosPor ∨ s.now < s.boot.since + 500000 → exec .thermosPorExit s = .next s)
    ∧ (∀ r : Bool, exec (.tbSourceChange r) s = .next { s with
        thermos := { s.thermos with refRuns := r, tbSource := if r && !s.thermos.onVbk then .pll else .crystal } })
    ∧ (∀ v : Bool, s.thermos.onVbk ≠ v → exec (.thermosSourceSwitch v) s = .next { s with
        thermos := Thermos.brown (if v then 2 else 3) s.pins.rails.toNat 0
          { s.thermos with onVbk := v, tbSource := if s.thermos.refRuns && !v then .pll else .crystal } })
    ∧ (∀ v : Bool, s.thermos.onVbk = v → exec (.thermosSourceSwitch v) s = .next s)
    ∧ (s.thermos.xtalStopped = false → s.thermos.onVbk = false → exec .crystalStop s = .next { s with
        thermos := Thermos.brown 5 s.pins.rails.toNat 0 { s.thermos with xtalStopped := true } })
    ∧ (s.thermos.xtalStopped = true → exec .crystalStop s = .next s)
    ∧ exec .crystalRestart s = .next { s with thermos := { s.thermos with xtalStopped := false } }

/-- A cold Thermos POR, the arbitration that causes one, its release behind the hooks, and the counter's answers. COLD_THERMOS_POR,
and THERMOS_ARBITRATION on VBK in which the VBK fall came first, start TB from zero, increment TB_EPOCH (on OTX-120H and W), set
TIME_LOST and put the engine in THERMOS_POR with every register outside the Thermos domain at reset; the journal stands. An
arbitration that VAON wins switches back and keeps TB and TB_EPOCH. A crystal that stops on VBK increments TB_EPOCH and keeps TB.
TPOR_RELEASE on OTX-120C starts TB from zero and reads the counter. While the counter is read, NV_COUNTER_RESPONSE sets TB_EPOCH
to the value read and one, sets TIME_LOST and sends INCREMENT; the answer of an INCREMENT sets TB_EPOCH to its value.
NV_COUNTER_TIMEOUT after 20 ms makes TB_EPOCH read 0xFFFFFFFF and sets TIME_LOST as after an increment. An answer with ERR gives a
free value (log entry 5). (Clauses that rest on the model's own choices or readings: log entries 5, 62, 63 and 65.) (04_time.md,
17_power.md, 18_block_edge.md) -/
def Obligations.ColdPorAndCounter : Prop :=
  (∀ s : State,
      (s.boot.package ≠ .c → Completes .coldThermosPor s fun t =>
        t.thermos.tb = 0 ∧ t.thermos.tbEpoch = s.thermos.tbEpoch + 1 ∧ t.thermos.timeLost = true ∧ t.thermos.lostCause = 1
          ∧ t.thermos.journal = s.thermos.journal ∧ t.thermos.brownCount = s.thermos.brownCount
          ∧ t.boot.phase = .thermosPor ∧ t.boot.package = s.boot.package ∧ t.link = {} ∧ t.feat = {} ∧ t.cfg = {} ∧ t.den = {})
      ∧ (s.boot.package = .c → Completes .coldThermosPor s fun t =>
        t.thermos.tb = 0 ∧ t.thermos.tbEpoch = s.thermos.tbEpoch ∧ t.thermos.nv = .idle ∧ t.boot.phase = .thermosPor ∧ t.cfg = {})
      ∧ (∀ f : Nat, s.thermos.onVbk = true → s.boot.package ≠ .c →
        Completes (.thermosArbitration none (some f)) s fun t =>
          t.thermos.tb = 0 ∧ t.thermos.tbEpoch = s.thermos.tbEpoch + 1 ∧ t.boot.phase = .thermosPor
            ∧ t.thermos.brownCount = s.thermos.brownCount + 1)
      ∧ (∀ a f : Nat, a < f → s.thermos.onVbk = true → Completes (.thermosArbitration (some a) (some f)) s fun t =>
          t = { s.toBlock with thermos := t.thermos } ∧ t.thermos.onVbk = false ∧ t.thermos.tb = s.thermos.tb
            ∧ t.thermos.tbEpoch = s.thermos.tbEpoch ∧ t.thermos.brownCount = s.thermos.brownCount + 2)
      ∧ (s.thermos.xtalStopped = false → s.thermos.onVbk = true → s.boot.package ≠ .c → Completes .crystalStop s fun t =>
          t.thermos.tb = s.thermos.tb ∧ t.thermos.tbEpoch = s.thermos.tbEpoch + 1 ∧ t.thermos.xtalStopped = true
            ∧ t.thermos.timeLost = true ∧ t.thermos.lostCause = 2
            ∧ t = { s.toBlock with thermos := t.thermos, host := t.host, flt := t.flt })
      ∧ (s.boot.package = .c → s.boot.phase = .thermosPor → Completes .tporRelease s fun t =>
          t.thermos = { s.thermos with tb := 0, tbFrac := 0, nv := .reading, nvSince := 0 }
            ∧ t.host.out = s.host.out ++ [.nvRead] ∧ t.boot = { s.boot with since := 0 }
            ∧ t = { s.toBlock with thermos := t.thermos, host := t.host, boot := t.boot }))
  ∧ (∀ s : State,
      (∀ v : BitVec 32, s.thermos.nv = .reading → s.boot.package = .c → Completes (.nvCounterResponse v false) s fun t =>
        t.thermos = { s.thermos with tbEpoch := v + 1, nv := .incrementing, nvSince := s.now, timeLost := true, lostCause := 1 })
      ∧ (∀ v : BitVec 32, s.thermos.nv = .incrementing → exec (.nvCounterResponse v false) s = .next { s with
          thermos := { s.thermos with tbEpoch := v, nv := .idle } })
      ∧ (∀ v : BitVec 32, s.thermos.nv = .incrementing → exec (.nvCounterResponse v true) s = .next { s with
          thermos := { s.thermos with tbEpoch := (Config.freeValue s.fresh).setWidth 32, nv := .idle }, fresh := s.fresh + 1 })
      ∧ (s.thermos.nv ≠ .idle → s.thermos.nvSince + 5000000 ≤ s.now → Completes .nvCounterTimeout s fun t =>
          t.thermos = { s.thermos with tbEpoch := 0xFFFFFFFF, nv := .idle, timeLost := true, lostCause := 3 }
            ∧ t = { s.toBlock with thermos := t.thermos, host := t.host, flt := t.flt })
      ∧ (s.thermos.nv = .idle ∨ s.now < s.thermos.nvSince + 5000000 → exec .nvCounterTimeout s = .next s))

/-- RESET_N, a brown-out and a soft reset are one main POR. Outside THERMOS_POR, RESET_N_FALL, MAIN_BROWNOUT while RESET_N is high and
SOFT_RESET with its key and bit 16 set enter MAIN_POR at the present tick with every register at its reset value but the Thermos
domain, and the link for the soft reset alone; a brown-out is logged. Each resets from every phase, HALTED_NOBOOT and FAULT_HALT
among them. SOFT_RESET without the key changes nothing but the count of bad register writes. (Clauses that rest on the model's own
choices or readings: log entries 3, 64 and 65.) (02_waking.md, 20_package.md, 19_registers.md) -/
def Obligations.MainResets : Prop :=
  ∀ s : State, s.boot.phase ≠ .thermosPor →
    (Completes .resetNFall s fun t =>
      t.boot.phase = .mainPor ∧ t.boot.since = s.now ∧ t.thermos = s.thermos ∧ t.pins.resetN = false
        ∧ t.pins.resetFellAt = some s.now ∧ t.link = {} ∧ t.feat = {} ∧ t.cfg = {} ∧ t.ep = {} ∧ t.den = {} ∧ t.map = {} ∧ t.flt = {}
        ∧ t.pwr = {} ∧ t.trail = {} ∧ t.guests = List.replicate 64 {} ∧ t.host = { out := s.host.out })
    ∧ (∀ r : BitVec 8, s.pins.resetN = true → Completes (.mainBrownout r) s fun t =>
      t.boot.phase = .mainPor ∧ t.boot.since = s.now ∧ t.pins.rails = r ∧ t.pins.brownAt = some s.now
        ∧ t.thermos = Thermos.brown 1 r.toNat 0 s.thermos ∧ t.link = {} ∧ t.feat = {} ∧ t.cfg = {} ∧ t.den = {} ∧ t.flt = {})
    ∧ (∀ v : BitVec 32, v.getLsbD 16 = true → v.extractLsb' 0 16 = 0xC3A5 → Completes (.softReset v) s fun t =>
      t.boot.phase = .mainPor ∧ t.boot.since = s.now ∧ t.thermos = s.thermos ∧ t.link = s.link ∧ t.feat = {} ∧ t.cfg = {}
        ∧ t.ep = {} ∧ t.den = {} ∧ t.flt = {} ∧ t.host = { out := s.host.out })
    ∧ (∀ v : BitVec 32, ¬(v.getLsbD 16 = true ∧ v.extractLsb' 0 16 = 0xC3A5) → exec (.softReset v) s = .next { s with
        host := { s.host with badReg := bump s.host.badReg } })

/-- The flash probe and the one-time memory. MAIN_POR_RELEASE, 1 ms or more into MAIN_POR with TEST_EN low, enters ROM_PROBE, and
HALTED_NOBOOT with cause 0x01 for both slots where the probe finds no flash. In ROM_PROBE, ROM_PROBE_TIMEOUT after 20 ms does the
same, an OTP answer with an error and OTP_TIMEOUT after 20 ms halt with cause 0x0D, a good answer fills its word; a boot storage
that reports a density the engine does not support halts with cause 0x01. (Clauses that rest on the model's own choices or
readings: log entry 66.) (02_waking.md, 18_block_edge.md) -/
def Obligations.RomProbe : Prop :=
  ∀ s : State,
    (s.boot.phase = .mainPor → s.pins.testEn = false → s.boot.since + 250000 ≤ s.now → s.boot.package ≠ .c →
      Completes (.mainPorRelease .absent) s fun t =>
        t.boot.phase = .haltedNoboot ∧ t.boot.causeA = 0x01 ∧ t.boot.causeB = 0x01 ∧ t.pins.resetN = true
          ∧ t.boot.masterStrap = s.pins.master ∧ t.boot.releasedAt = s.now)
    ∧ (∀ d : Nat, s.boot.phase = .mainPor → s.pins.testEn = false → s.boot.since + 250000 ≤ s.now → s.boot.package ≠ .c →
      16777216 ≤ d → d ≤ 536870912 → Completes (.mainPorRelease (.sfdp false true false d)) s fun t =>
        t.boot.phase = .romProbe ∧ t.boot.flashMode = .quad ∧ t.boot.density = d ∧ t.boot.otp = {} ∧ t.boot.otpSince = s.now)
    ∧ (s.boot.phase = .romProbe →
      (s.boot.flashMode = .none → s.boot.since + 5000000 ≤ s.now → Completes .romProbeTimeout s fun t =>
        t.boot.phase = .haltedNoboot ∧ t.boot.causeA = 0x01 ∧ t.boot.causeB = 0x01)
      ∧ (∀ (w : BitVec 10) (v : BitVec 32), w ∈ s.boot.otp.readMask → exec (.otpResponse w v true) s = .next s)
      ∧ (∀ v : BitVec 32, 2#10 ∉ s.boot.otp.readMask → Completes (.otpResponse 2 v true) s fun t =>
        t.boot.phase = .haltedNoboot ∧ t.boot.causeA = 0x0D ∧ t.boot.causeB = 0x0D)
      ∧ (∀ v : BitVec 32, s.boot.flashMode = .none → 2#10 ∉ s.boot.otp.readMask → exec (.otpResponse 2 v false) s = .next { s with
          boot := { s.boot with otp := { s.boot.otp with keyRevoke := v.extractLsb' 0 4, readMask := 2 :: s.boot.otp.readMask } } })
      ∧ (s.boot.otp.complete = false → s.boot.otpSince + 5000000 ≤ s.now → Completes .otpTimeout s fun t =>
        t.boot.phase = .haltedNoboot ∧ t.boot.causeA = 0x0D ∧ t.boot.causeB = 0x0D)
      ∧ (∀ d : BitVec 32, s.boot.bootSrc = true → s.boot.flashMode = .none → d.toNat < 16777216 →
        Completes (.bootResponse (.info d false)) s fun t => t.boot.phase = .haltedNoboot ∧ t.boot.causeA = 0x01 ∧ t.boot.causeB = 0x01))
    ∧ (∀ (o : Nat) (d : BitVec 256), s.boot.phase = .slotVerify → s.boot.bootSrc = true →
        exec (.bootResponse (.read o d false)) s = .next { s with
          boot := { s.boot with bootStore := memWriteBytes s.boot.bootStore o (leBytes 32 d.toNat) } })

/-- A hamper slot that passes is loaded, one that fails gives way to the other, and the last to HALTED_NOBOOT. SLOT_ATTEMPT on a slot
that passes every test of Table 02-5, and whose settings break no rule of CHECK, enters SETTINGS_LOAD with the slot's pages as the
active set and the shadow set, CHECK_RESULT a pass and the slot's SVN and version; on one that fails a test it records that test's
cause (0x02 for a wrong MAGIC) and the other slot is tried next; the flash is asked for both headers once. SLOT_VERIFY_TIMEOUT after 25 s records 0x0B and
SETTINGS_LOAD_TIMEOUT after 50 ms records 0x0A; with no slot left the engine is in HALTED_NOBOOT. BOOT_LOCKSTEP_MISMATCH on pair A
starts boot again on a live pair B in ROM_PROBE with pair A fenced, and with no pair left enters FAULT_HALT. (Clauses that rest on
the model's own choices or readings: log entries 66, 67 and 68.) (02_waking.md, 19_registers.md) -/
def Obligations.SlotFailures : Prop :=
  ∀ s : State,
    (∀ (f : FlashImage) (n : SlotId), s.boot.phase = .slotVerify → s.boot.bootSrc = false → s.boot.trying = some .a → s.boot.order = [n] →
      slotField (s.slotRead .a f) 0 4 ≠ 0x484D5052 → Completes (.slotAttempt f) s fun t =>
        t.boot.phase = .slotVerify ∧ t.boot.causeA = 0x02 ∧ t.boot.causeB = s.boot.causeB ∧ t.boot.trying = some n ∧ t.boot.order = []
          ∧ t.boot.since = s.now ∧ t.thermos = s.thermos ∧ t.host = { s.host with out := s.host.out ++ (if s.boot.headersRead then [] else
            [.flashRead s.boot.flashMode (s.slotBase .a) 64, .flashRead s.boot.flashMode (s.slotBase .b) 64]) })
    ∧ (∀ (f : FlashImage) (n : SlotId), s.boot.phase = .slotVerify → s.boot.trying = some n → Completes (.slotAttempt f) s fun t =>
        (slotCause (s.slotRead n f) s.boot.density s.boot.otp = none → (s.loadCheck (s.slotRead n f)).first = none →
          t.boot.phase = .settingsLoad ∧ t.boot.since = s.now ∧ t.boot.trying = some n ∧ t.boot.order = s.boot.order
            ∧ t.cfg = { active := slotPages (s.slotRead n f), shadow := slotPages (s.slotRead n f), result := { pass := true } }
            ∧ t.boot.policy = slotPolicy (s.slotRead n f) ∧ t.boot.models = slotModels (s.slotRead n f)
            ∧ t.boot.trySvn = BitVec.ofNat 8 (slotField (s.slotRead n f) 12 1) ∧ t.boot.tryVersion = BitVec.ofNat 32 (slotField (s.slotRead n f) 8 4)
            ∧ t.boot.causeA = s.boot.causeA ∧ t.boot.causeB = s.boot.causeB ∧ t.thermos = s.thermos ∧ t.flt = s.flt ∧ t.den = s.den)
        ∧ (∀ c : BitVec 8, slotCause (s.slotRead n f) s.boot.density s.boot.otp = some c →
          t.boot.causeA = (if n = .a then c else s.boot.causeA) ∧ t.boot.causeB = (if n = .b then c else s.boot.causeB)
            ∧ (s.boot.order = [] → t.boot.phase = .haltedNoboot ∧ t.boot.trying = none)
            ∧ (∀ m : SlotId, s.boot.order = [m] → t.boot.phase = .slotVerify ∧ t.boot.trying = some m ∧ t.boot.order = [])))
    ∧ (s.boot.phase = .slotVerify → s.boot.since + 6250000000 ≤ s.now → s.boot.trying = some .b → s.boot.order = [] →
      Completes .slotVerifyTimeout s fun t =>
        t.boot.phase = .haltedNoboot ∧ t.boot.causeB = 0x0B ∧ t.boot.causeA = s.boot.causeA ∧ t.boot.trying = none)
    ∧ (s.boot.phase = .settingsLoad → s.boot.since + 12500000 ≤ s.now → s.boot.trying = some .b → s.boot.order = [.a] →
      Completes .settingsLoadTimeout s fun t =>
        t.boot.phase = .slotVerify ∧ t.boot.causeB = 0x0A ∧ t.boot.trying = some .a ∧ t.boot.models = List.replicate 8 none
          ∧ t.cfg.active = List.replicate 64 [])
    ∧ (s.boot.phase = .slotVerify → s.boot.romPair = .a → s.flt.control = .a → s.flt.pairB = true → Completes .bootLockstepMismatch s fun t =>
        t.boot.phase = .romProbe ∧ t.boot.romPair = .b ∧ t.boot.romMismatchA = true ∧ t.flt.pairA = false ∧ t.boot.causeA = 0
          ∧ t.boot.causeB = 0 ∧ t.boot.otp = {} ∧ t.boot.since = s.now)
    ∧ (s.boot.phase = .slotVerify → (s.boot.romPair = .b ∨ s.flt.pairB = false) → Completes .bootLockstepMismatch s fun t =>
        t.boot.phase = .faultHalt ∧ t.flt.haltCause = 1 ∧ t.boot.haltDue = true ∧ t.boot.since = s.now)

/-- Bring-up fences what fails, and READY publishes the booted slot. BRINGUP_START enters BRINGUP with the populated channels of the
package. A unit's self-test that passes is noted; a lane that fails is fenced with cause SELF_TEST. BRINGUP_TIMEOUT after 50 ms
leaves no unit untested. DRAM_TRAINING_DONE, and DRAM_TRAINING_TIMEOUT after 40 ms, fix the channels in use, which are trained and
populated ones, a power of two of them unless all are trained, and none where less than 1792 MiB would be usable. READY_ENTRY from
a bring-up that is over enters READY, publishes the booted slot and its versions, shows CAPACITY and starts epochs, the first
based at the present tick. OTP_PROGRAM_RESPONSE whose readback shows the bit sets that bit of the thermometer and ends the rise
when the count reaches the booted slot's SVN; one with an error ends it without a bit. (Clauses that rest on the model's own
choices or readings: log entries 5 and 69.) (02_waking.md, 12_den.md, 16_faults.md, 04_time.md, 19_registers.md) -/
def Obligations.BringupAndReady : Prop :=
  (∀ s : State,
      (∀ p : BitVec 4, s.boot.phase = .settingsLoad → s.boot.package = .h → Completes (.bringupStart p) s fun t =>
        t.boot.phase = .bringup ∧ t.boot.since = s.now ∧ t.den.populated = p &&& 3 ∧ t.pins.dramResetN = true
          ∧ t.boot.hamperSlot = s.boot.trying.getD .a ∧ t.den.mem = s.den.mem ∧ t.cfg = s.cfg)
      ∧ (s.boot.phase = .bringup →
        (∀ l : Fin 8, s.flt.foxDone.getLsbD l = false → exec (.unitSelfTestDone (BitVec.ofNat 8 (0x20 + l)) true) s = .next { s with
            flt := { s.flt with foxDone := setBit s.flt.foxDone l } })
        ∧ (∀ l : Fin 8, s.flt.foxDone.getLsbD l = false → s.flt.fox.getLsbD l = true →
          Completes (.unitSelfTestDone (BitVec.ofNat 8 (0x20 + l)) false) s fun t =>
            t.flt.fox = clearBit s.flt.fox l ∧ t.flt.tiles = s.flt.tiles ∧ t.flt.threads = s.flt.threads
              ∧ t.flt.fenceCount = s.flt.fenceCount + 1)
        ∧ (s.boot.since + 12500000 ≤ s.now → Completes .bringupTimeout s fun t =>
          t.boot.phase = .bringup ∧ ∀ u ∈ testedUnits, ∀ k, fenceable (BitVec.ofNat 8 u) = some k → t.flt.isTested k = true)
        ∧ (∀ (tr : BitVec 4) (m : Nat), s.boot.dramDone = false →
          let trained (t : Block) : Prop :=
            t = { s.toBlock with boot := t.boot, den := t.den } ∧ t.boot = { s.boot with dramDone := true }
              ∧ t.den.trained = tr &&& s.den.populated ∧ t.den.channels &&& ~~~(tr &&& s.den.populated) = 0
              ∧ (tr &&& s.den.populated = s.den.populated ∨ popcount t.den.channels ∈ [0, 1, 2, 4])
              ∧ (t.den.dramAbsent = true ↔ popcount (channelsUsed s.den.populated tr) * m * 7 / 8 < 1792)
              ∧ (t.den.dramAbsent = true → t.den.channels = 0 ∧ t.den.usableMib = 0) ∧ t.den.mem = s.den.mem
          Completes (.dramTrainingDone tr m) s trained
            ∧ (s.boot.since + 10000000 ≤ s.now → Completes (.dramTrainingTimeout tr m) s trained))))
  ∧ (∀ s : State,
      (s.boot.phase = .bringup → s.broughtUp = true → Completes .readyEntry s fun t =>
        t.boot.phase = .ready ∧ t.boot.booted = true ∧ t.boot.bootedSlot = s.boot.hamperSlot ∧ t.boot.svn = s.boot.trySvn
          ∧ t.boot.versionCounter = s.boot.tryVersion ∧ t.flt.capOn = true ∧ t.ep.running = true ∧ t.ep.base = s.now ∧ t.ep.now = 0
          ∧ t.cfg.gen = s.cfg.gen ∧ t.thermos.tb = s.thermos.tb ∧ t.thermos.tbEpoch = s.thermos.tbEpoch)
      ∧ (s.boot.phase = .ready → s.boot.rollBusy = true → s.boot.otp.rollback = 0 → s.boot.rollTarget = 1 →
        exec (.otpProgramResponse false true) s = .next { s with
          boot := { s.boot with rollBusy := false, otp := { s.boot.otp with rollback := 1 } } })
      ∧ (s.boot.phase = .ready → s.boot.rollBusy = true → Completes (.otpProgramResponse true true) s fun t =>
          t.boot = { s.boot with rollBusy := false } ∧ t.thermos = s.thermos ∧ t.den = s.den)
      ∧ (s.boot.phase = .ready → s.boot.rollBusy = false → ∀ e r : Bool, exec (.otpProgramResponse e r) s = .next s))

/-- FEAT_ACCEPT, HELLO_DONE and the HELLO timer. In READY and before a commit, FEAT_ACCEPT_WRITE replaces one word of FEAT_ACCEPT, but
for the reserved bits, which stay zero, and ends a refusal; HELLO_DONE commits FEAT_ACCEPT when it is a subset of FEAT_OFFER and
otherwise refuses and commits nothing; the timer commits the baseline AND FEAT_OFFER, or the limited offer of R79, and gives way
to a HELLO_DONE of the same tick. After a commit both writes are ignored, but for LATE. (Clauses that rest on the model's own
choices or readings: log entries 1, 59 and 60.) (02_waking.md, 19_registers.md) -/
def Obligations.FeatureCommit : Prop :=
  ∀ s : State, s.boot.phase = .ready →
    (s.feat.done = false →
      (∀ (w : Fin 4) (v : BitVec 32), Completes (.featAcceptWrite w v) s fun t =>
        (∀ w' : Fin 4, t.feat.accept.extractLsb' (32 * w') 32 =
            (if w' = w then v else s.feat.accept.extractLsb' (32 * w') 32) &&& (0x7FFFF : BitVec 128).extractLsb' (32 * w') 32)
          ∧ t.feat.state = (if s.feat.state = .refused then .waiting else s.feat.state)
          ∧ t.feat = { s.feat with accept := t.feat.accept, state := t.feat.state }
          ∧ t = { s.toBlock with feat := t.feat, host := t.host, link := t.link })
      ∧ (∀ v : BitVec 32, v.getLsbD 0 = true → s.feat.accept &&& ~~~s.feat.offer = 0 → s.feat.accept.getLsbD 5 = true →
        Completes (.helloDone v) s fun t =>
          t.feat = { s.feat with committed := s.feat.accept, state := .committed, everCommit := true, commitTick := s.now, applied := false
                                 timer := none }
            ∧ t = { s.toBlock with feat := t.feat, host := t.host, link := t.link })
      ∧ (∀ v : BitVec 32, v.getLsbD 0 = true → s.feat.accept &&& ~~~s.feat.offer ≠ 0 → Completes (.helloDone v) s fun t =>
        t.feat = { s.feat with state := .refused } ∧ t = { s.toBlock with feat := t.feat, host := t.host, link := t.link })
      ∧ (∀ u : Tick, s.feat.timer = some u → u ≤ s.now → s.pending.any writesHello = false → Completes .helloTimerExpiry s fun t =>
        t.feat.committed = (if s.feat.limited then s.feat.offer else 0x18002 &&& s.feat.offer) ∧ t.feat.state = .baseline
          ∧ t.feat.timer = none ∧ t.feat.everCommit = true)
      ∧ (s.pending.any writesHello = true → exec .helloTimerExpiry s = .next s))
    ∧ (s.feat.done = true →
      (∀ (w : Fin 4) (v : BitVec 32), exec (.featAcceptWrite w v) s = .next s)
      ∧ (∀ v : BitVec 32, v.getLsbD 0 = true → Completes (.helloDone v) s fun t =>
        t.feat = { s.feat with late := true } ∧ t = { s.toBlock with feat := t.feat, host := t.host, link := t.link })
      ∧ exec .helloTimerExpiry s = .next s)

/-- The link's ups and downs, Bus Master Enable, and the Function Level Reset. LINK_UP starts a session in READY with its offer, its
timer 500 ms on and FEAT_ACCEPT zero; LINK_DOWN and BUS_MASTER_ENABLE_CLEAR hold every enabled queue and open stream and keep
their configuration, LINK_DOWN also ending the session and the windows; FLR disables every queue, closes every stream and window
and starts a new session, and leaves the active set, the map and the epochs. (Clauses that rest on the model's own choices or
readings: log entry 48.) (02_waking.md, 14_host_link.md, 19_registers.md) -/
def Obligations.LinkAndSessions : Prop :=
  ∀ s : State,
    (∀ (v : Fin 4) (bme msix ptm : Bool), s.boot.phase = .ready → s.link.up = false → (s.host.streams.any Stream.isOpen) = false →
      Completes (.linkUp v bme msix ptm) s fun t =>
        t.link.up = true ∧ t.link.pm = .l0 ∧ t.link.speed = v ∧ t.link.bme = bme ∧ t.link.msixOn = msix ∧ t.link.ptm = ptm
          ∧ t.feat.accept = 0 ∧ t.feat.late = false ∧ t.feat.offer = capabilities &&& s.boot.policy ∧ t.feat.state = .waiting
          ∧ t.feat.timer = some (s.now + 125000000) ∧ t.feat.committed = s.feat.committed
          ∧ t.tim = { s.tim with due := s.now, deferred := false } ∧ t.map = { s.map with saidFull := 0 }
          ∧ t.host.queues = s.host.queues ∧ t.host.streams = s.host.streams
          ∧ t = { s.toBlock with link := t.link, feat := t.feat, tim := t.tim, map := t.map, host := t.host })
    ∧ (∀ (v : Fin 4) (bme msix ptm : Bool), s.link.up = true → exec (.linkUp v bme msix ptm) s = .next s)
    ∧ (s.link.up = false → exec .linkDown s = .next s)
    ∧ (s.link.up = true → Completes .linkDown s fun t =>
        t.link = { s.link with up := false, pm := .l0 } ∧ t.feat = { s.feat with timer := none }
          ∧ t.den = { s.den with windows := List.replicate 8 none } ∧ t.tim.busy = false
          ∧ (∀ q < 16, t.host.queues.getD q {} = { s.host.queues.getD q {} with
              held := (s.host.queues.getD q {}).held || (s.host.queues.getD q {}).enabled })
          ∧ (∀ x ∈ t.host.streams, x.isOpen = true → x.held = true ∧ x.out = [])
          ∧ t = { s.toBlock with link := t.link, feat := t.feat, den := t.den, tim := t.tim, host := t.host })
    ∧ (s.link.bme = true → Completes .busMasterEnableClear s fun t =>
        t.link = { s.link with bme := false }
          ∧ (∀ q ∈ t.host.queues, q.enabled = true → q.held = true) ∧ (∀ x ∈ t.host.streams, x.isOpen = true → x.held = true ∧ x.out = [])
          ∧ t = { s.toBlock with link := t.link, host := t.host })
    ∧ (s.link.up = true → s.host.queues.length = 16 → Completes .flr s fun t =>
        (∀ q ∈ t.host.queues, q.enabled = false ∧ q.cmds = []) ∧ (∀ x ∈ t.host.streams, x.isOpen = false ∧ x.out = [])
          ∧ t.den = { s.den with windows := List.replicate 8 none } ∧ t.link.up = true ∧ t.link.bme = false ∧ t.feat.accept = 0
          ∧ t.cfg.active = s.cfg.active ∧ t.cfg.shadow = s.cfg.shadow ∧ t.cfg.gen = s.cfg.gen ∧ t.map.kfs = s.map.kfs ∧ t.ep = s.ep)

/-- The settings commands in the shadow set's states, and the end of a CHECK. In its turn and with good operands, SETTINGS_READ writes
whole pages of the set it names to host memory; SHADOW_WRITE starts, or ends BUSY while armed or checking and STALE on a stale
set; CHECK starts, or ends BUSY; APPLY arms a swap on PASS, ends PENDING while one is armed and CHECK_REQUIRED otherwise;
SYNC_SHADOW copies the active set over the shadow set, or ends BUSY. Only the settings and the command change. CHECK_COMPLETE
while a CHECK runs sets PASS and clears CHECK_RESULT's reason when no rule is broken, and otherwise sets FAIL with the first
finding's page, offset and reason; it ends the command with OK or CHECK_FAILED, and changes neither set. (Clauses that rest on the
model's own choices or readings: log entries 17, 50 and 59.) (03_settings_sets.md, 14_host_link.md, 19_registers.md) -/
def Obligations.SettingsCommands : Prop :=
  (∀ (s : State) (r : CmdRef) (c : Cmd),
      (s.starting r 0x10 = some c → s.link.live = true → (c.arg 24 1 = 0 ∨ c.arg 24 1 = 1) →
        c.fieldsOk (fun c => decide (c.arg 24 1 ≤ 1) && pagesOk c && c.arg 16 4 == 4096 * c.arg 26 1) = true → c.feature = none →
        Completes (.settingsRead r) s fun t =>
          let set := if c.arg 24 1 = 0 then s.cfg.active else s.cfg.shadow
          let page (i : Nat) : Out := .memWrite (BitVec.ofNat 64 (c.arg 8 8 + 4096 * i)) (memBytes (set.getD (c.arg 25 1 + i) []) 0 4096)
          t = Block.finish r 0 0 0 0 { s.toBlock with host := { s.host with out := s.host.out ++ (List.range (c.arg 26 1)).map page } })
      ∧ (s.committed 10 = true → c.feature = some 10 →
        (s.starting r 0x11 = some c → c.fieldsOk (fun c => pagesOk c && c.arg 16 4 == 4160 * c.arg 26 1) = true →
          (s.cfg.shadowState = .armed ∨ s.cfg.shadowState = .checking → exec (.shadowWrite r) s = .next { s with toBlock := Block.finish r 0x12 0 0 0 s.toBlock })
          ∧ (s.cfg.shadowState = .stale → exec (.shadowWrite r) s = .next { s with toBlock := Block.finish r 0x11 0 0 0 s.toBlock })
          ∧ (s.cfg.shadowState ∉ [Shadow.armed, .checking, .stale] → Completes (.shadowWrite r) s fun t =>
            t.cfg = { s.cfg with busy := true, busyBy := some r } ∧ t.host = (s.toBlock.stage r .running).host
              ∧ t = { s.toBlock with cfg := t.cfg, host := t.host }))
        ∧ (s.starting r 0x12 = some c → c.fieldsOk (fun _ => true) = true →
          (s.cfg.shadowState = .armed ∨ s.cfg.shadowState = .checking → exec (.check r) s = .next { s with toBlock := Block.finish r 0x12 0 0 0 s.toBlock })
          ∧ (s.cfg.shadowState ≠ .armed → s.cfg.shadowState ≠ .checking → Completes (.check r) s fun t =>
            t.cfg = { s.cfg with busy := true, busyBy := some r, before := s.cfg.shadowState, shadowState := .checking, checkSince := s.now }
              ∧ t.host = (s.toBlock.stage r .committed).host ∧ t = { s.toBlock with cfg := t.cfg, host := t.host }))
        ∧ (s.starting r 0x13 = some c → c.fieldsOk (fun _ => true) = true →
          (s.cfg.shadowState = .pass → s.pwr.paused = false → Completes (.apply r) s fun t =>
            t.cfg = { s.cfg with shadowState := .armed, armed := some (
                if s.now + 50000 ≤ s.ep.nextBoundary then ⟨s.ep.now.toNat + 1, s.ep.nextBoundary, s.now, some r⟩
                else ⟨s.ep.now.toNat + 2, s.ep.boundary (s.ep.now.toNat + 2), s.now, some r⟩) }
              ∧ t.host = (s.toBlock.stage r .running).host ∧ t = { s.toBlock with cfg := t.cfg, host := t.host })
          ∧ (s.cfg.shadowState = .armed → exec (.apply r) s = .next { s with toBlock := Block.finish r 0x13 0 0 0 s.toBlock })
          ∧ (s.cfg.shadowState ≠ .pass → s.cfg.shadowState ≠ .armed → exec (.apply r) s = .next { s with toBlock := Block.finish r 0x10 0 0 0 s.toBlock }))
        ∧ (s.starting r 0x14 = some c → c.fieldsOk (fun _ => true) = true →
          (s.cfg.shadowState = .armed ∨ s.cfg.shadowState = .checking → exec (.syncShadow r) s = .next { s with toBlock := Block.finish r 0x12 0 0 0 s.toBlock })
          ∧ (s.cfg.shadowState ≠ .armed → s.cfg.shadowState ≠ .checking → exec (.syncShadow r) s =
            .next { s with toBlock := Block.finish r 0 0 0 0 { s.toBlock with
              cfg := { s.cfg with shadow := s.cfg.active, shadowState := .clean, badPages := [] } } }))))
  ∧ (∀ (s : State) (r : CmdRef), s.cfg.shadowState = .checking → s.boot.phase = .ready → s.cfg.badPages = [] → s.cfg.busyBy = some r →
      (s.checkIn.first = none → exec .checkComplete s = .next { s with toBlock := Block.finish r 0 0 0 0 { s.toBlock with
          cfg := { s.cfg with shadowState := .pass, result := ⟨true, 0, 0, 0⟩, modelErr := BitVec.ofNat 32 noModelErr, busy := false, busyBy := none } } })
      ∧ (∀ f : Finding, s.checkIn.first = some f → Completes .checkComplete s fun t =>
          t.cfg = { s.cfg with shadowState := .fail, busy := false, busyBy := none, modelErr := BitVec.ofNat 32 f.moff
                               result := ⟨false, BitVec.ofNat 8 f.code, BitVec.ofNat 6 f.page, BitVec.ofNat 12 f.field⟩ }
            ∧ t.host = (s.toBlock.finish r 0x14 ((BitVec.ofNat 8 f.code).toNat + 256 * (BitVec.ofNat 6 f.page).toNat) (BitVec.ofNat 12 f.field).toNat 0).host
            ∧ t = { s.toBlock with cfg := t.cfg, host := t.host }))

/-- Ending a command ends that command alone. Ending a fetched command gives the earliest uncompleted command of its queue with its
CMD_ID the stage finished and the status, and changes no other command, no other queue and nothing else of the block; a command
that is out of turn, or whose reserved bytes or operands are bad, has no other effect. (Clauses that rest on the model's own
choices or readings: log entry 17.) (14_host_link.md) -/
def Obligations.CommandsEnd : Prop :=
  (∀ (b : Block) (r : CmdRef) (c : Cmd) (st d r0 r1 : Nat), b.cmd r = some c → r.q < b.host.queues.length →
    ∃ pre post : List Cmd, (b.host.queues.getD r.q {}).cmds = pre ++ c :: post
      ∧ (∀ x ∈ pre, ¬(x.id = r.id ∧ x.stage ≠ .finished))
      ∧ ((b.finish r st d r0 r1).host.queues.getD r.q {}) = { b.host.queues.getD r.q {} with
          cmds := pre ++ { c with stage := .finished, status := BitVec.ofNat 16 st, detail := BitVec.ofNat 32 d
                                  result0 := BitVec.ofNat 64 r0, result1 := BitVec.ofNat 64 r1, data := [] } :: post }
      ∧ (∀ q : Nat, q ≠ r.q → (b.finish r st d r0 r1).host.queues.getD q {} = b.host.queues.getD q {})
      ∧ b.finish r st d r0 r1 = { b with host := { b.host with queues := (b.finish r st d r0 r1).host.queues } })
  ∧ (∀ (s : State) (r : CmdRef),
      (s.starting r 0x14 = none → exec (.syncShadow r) s = .next s) ∧ (s.starting r 0x12 = none → exec (.check r) s = .next s)
      ∧ (s.starting r 0x13 = none → exec (.apply r) s = .next s) ∧ (s.starting r 0x11 = none → exec (.shadowWrite r) s = .next s))
  ∧ (∀ (s : State) (r : CmdRef) (c : Cmd), s.starting r 0x14 = some c → c.fieldsOk (fun _ => true) = false →
      exec (.syncShadow r) s = .next { s with toBlock := Block.finish r 0x04 0 0 0 s.toBlock })

/-- The plan of the next epoch, and the voltages around its boundary. PLAN_COMMIT no later than 0.5 ms before the boundary sets the
next epoch's plan, committing the journal if it has not since the POSE, and later changes nothing; a plan asks for a burst only
where its projection is late. The raises of R591 are none where nothing is late or the best one would exceed the budget, and never
pass an island's ceiling. VOLTAGE_RAISE in the last 100 µs requests the higher voltage of the plan and puts it in force, and
VOLTAGE_LOWER within 100 µs after the boundary the lower one; outside those windows neither does anything. (Clauses that rest on
the model's own choices or readings: log entries 25, 26 and 30.) (01_one_frame.md, 17_power.md) -/
def Obligations.PlansAndVoltages : Prop :=
  (∀ (s : State) (p : PlanIn) (u : Tick), s.boot.phase = .ready → s.upcoming = some u →
    (s.now + 125000 ≤ u → Completes (.planCommit p) s fun t =>
      (∃ q : Plan, t.ep = { s.ep with next := some q, journaled := s.ep.journaled || (s.afu.posed && !s.pwr.paused) } ∧ q.made = s.now
          ∧ (q.why = .none → q.burst = false ∧ q.pp = q.lowPp ∧ q.mw = q.lowMw))
        ∧ t.map = { s.map with moved := 0 } ∧ t.cfg = s.cfg ∧ t.den = s.den ∧ t.pwr.pp = s.pwr.pp
        ∧ t.thermos = { s.thermos with journal := t.thermos.journal, journalUe := t.thermos.journalUe }
        ∧ (s.afu.posed = false ∨ s.ep.journaled = true → t.thermos = s.thermos))
    ∧ (u < s.now + 125000 → exec (.planCommit p) s = .next s))
  ∧ (∀ (ceil : PPoints) (budget : Nat) (pp : PPoints) (p : Projection) (rs : List Projection),
      (p.vioLate = false → p.behind = false → raiseSteps ceil budget pp p rs = (pp, p))
      ∧ (∀ r : Raise, bestRaise ceil pp p = some r → budget < r.mw.toNat → raiseSteps ceil budget pp p rs = (pp, p))
      ∧ ((∀ q ∈ rs, q.mw.toNat ≤ budget) → (raiseSteps ceil budget pp p rs).2 = p ∨ (raiseSteps ceil budget pp p rs).2.mw.toNat ≤ budget)
      ∧ ∀ i : Dvfs, ppGet ceil i ≤ ppGet pp i →
          ppGet ceil i ≤ ppGet (raiseSteps ceil budget pp p rs).1 i ∧ ppGet (raiseSteps ceil budget pp p rs).1 i ≤ ppGet pp i)
  ∧ (∀ (s : State) (i : Dvfs) (u : Tick), s.boot.phase = .ready → s.upcoming = some u → s.boot.package ≠ .c →
      (s.now < u → u ≤ s.now + 25000 → ppGet s.nextPoints i < ppGet s.pwr.pp i → exec (.voltageRaise i) s = .next { s with
        pwr := { s.pwr with vreq := ppSet s.pwr.vreq i (ppGet s.nextPoints i), vack := ppSet s.pwr.vack i (ppGet s.nextPoints i)
                            volt := ppSet s.pwr.volt i (ppGet s.nextPoints i) } })
      ∧ (s.now + 25000 < u ∨ u ≤ s.now → exec (.voltageRaise i) s = .next s)
      ∧ (s.now ≤ s.ep.start + 25000 → ppGet s.pwr.vreq i < ppGet s.pwr.pp i → ppGet s.pwr.pack i = ppGet s.pwr.pp i →
        exec (.voltageLower i) s = .next { s with pwr := { s.pwr with
          vreq := ppSet s.pwr.vreq i (ppGet s.pwr.pp i), vack := ppSet s.pwr.vack i (ppGet s.pwr.pp i), volt := ppSet s.pwr.volt i (ppGet s.pwr.pp i) } })
      ∧ (s.ep.start + 25000 < s.now → exec (.voltageLower i) s = .next s))

/-- An epoch boundary counts the epoch, swaps an armed set, and enters a pause that is due. EPOCH_BOUNDARY changes nothing before its
boundary. At it, with the epoch's POSE sealed: with no pause requested the epoch count rises by one, the epoch starts at the
boundary's tick under the plan committed for it, and when no swap is armed the settings stand; a pause request that no job holds
up pauses the engine without starting an epoch. (Clauses that rest on the model's own choices or readings: log entries 28 and 32.)
(01_one_frame.md, 03_settings_sets.md, 17_power.md) -/
def Obligations.EpochBoundary : Prop :=
  ∀ (s : State) (ds : List DramTemp) (v : PPoints), s.boot.phase = .ready → s.ep.running = true → s.pwr.paused = false →
    (s.now < s.ep.nextBoundary → exec (.epochBoundary ds v) s = .next s)
    ∧ (s.ep.nextBoundary ≤ s.now → s.afu.posed = true →
      (s.pwr.pauseReq = none → s.cfg.armed = none → Completes (.epochBoundary ds v) s fun t =>
        t.ep.now = BitVec.ofNat 64 (s.ep.now.toNat + 1) ∧ t.ep.start = s.ep.nextBoundary ∧ t.ep.next = none ∧ t.ep.plan = s.ep.next.getD s.ep.plan
          ∧ t.afu.posed = false ∧ t.afu.tcDone = s.afu.tcNext.isSome ∧ t.afu.tc = s.afu.tcNext.getD s.afu.tc ∧ t.badger.vioDone = false ∧ t.pwr.paused = false ∧ t.boot.phase = .ready
          ∧ t.cfg.active = s.cfg.active ∧ t.cfg.shadow = s.cfg.shadow ∧ t.cfg.gen = s.cfg.gen ∧ t.thermos = s.thermos)
      ∧ (∀ u : Tick, s.pwr.pauseReq = some u → (s.jobsHold = false ∨ u + 62500000 ≤ s.ep.nextBoundary) →
        Completes (.epochBoundary ds v) s fun t =>
          t.pwr.paused = true ∧ t.pwr.pauseReq = none ∧ t.ep.now = s.ep.now ∧ t.ep.next = none ∧ t.pwr.retDen = true
            ∧ t.cfg.active = s.cfg.active ∧ t.cfg.gen = s.cfg.gen ∧ t.pwr.shutReady = (s.pwr.shutReady || s.pwr.shutdown)
            ∧ t.thermos = { s.thermos with journal := t.thermos.journal, journalUe := t.thermos.journalUe }))

/-- The swap of the settings sets. At the swap the shadow set becomes active and the previous active set the shadow set, in state
STALE, and ACTIVE_GEN goes up by one; a boundary makes the swap when one is armed for its epoch. ACTIVE_GEN is zero at READY.
(R98) -/
def Obligations.SwapOfSets : Prop :=
  (∀ (b : Block) (n : Nat) (a : Armed), b.cfg.armed = some a →
    (b.swapSets n).cfg = { b.cfg with active := b.cfg.shadow, shadow := b.cfg.active, shadowState := .stale, gen := b.cfg.gen + 1
                                      lastSwap := BitVec.ofNat 64 n, armed := none })
  ∧ (∀ (s : State) (ds : List DramTemp) (v : PPoints) (a : Armed), s.boot.phase = .ready → s.ep.running = true → s.pwr.paused = false →
      s.ep.nextBoundary ≤ s.now → s.afu.posed = true → s.pwr.pauseReq = none → s.owl.jobs = [] →
      s.cfg.armed = some a → a.epoch = s.ep.now.toNat + 1 → Completes (.epochBoundary ds v) s fun t =>
        t.cfg.active = s.cfg.shadow ∧ t.cfg.shadow = s.cfg.active ∧ t.cfg.shadowState = .stale ∧ t.cfg.gen = s.cfg.gen + 1
          ∧ t.cfg.armed = none)
  ∧ (∀ s : State, s.boot.phase = .bringup → s.broughtUp = true → s.cfg.gen = 0 → Completes .readyEntry s fun t => t.cfg.gen = 0)
  ∧ (∀ (b : Block) (rd : SlotRead), (b.settingsLoad rd).cfg.gen = 0)

/-- PTM dialogues and LOST_ACK. With PTM on, PTM_DIALOGUE_DUE requests a dialogue in L0, keeping the TB of that tick, and defers it
outside; PTM_DEFERRED_RUN runs a deferred one in L0; a dialogue that completes makes the pair of the host's time at the request
and that TB valid, with the TB one tick late at 2.5 GT/s, and ends TIME_LOST; one that fails is counted and keeps the pair.
LOST_ACK with bit 0 ends TIME_LOST. (Clauses that rest on the model's own choices or readings: log entries 38 and 100.)
(04_time.md, 21_known_limits.md) -/
def Obligations.PtmDialogues : Prop :=
  ∀ s : State,
    (s.boot.phase = .ready → s.link.up = true → s.link.ptm = true → s.tim.busy = false →
      (s.tim.due ≤ s.now → s.link.pm = .l0 → exec .ptmDialogueDue s = .next { s with
        tim := { s.tim with due := s.now + s.ptmInterval, busy := true, deferred := false, reqAt := s.now }
        host := { s.host with out := s.host.out ++ [.ptmRequest] } })
      ∧ (s.tim.due ≤ s.now → s.link.pm ≠ .l0 → exec .ptmDialogueDue s = .next { s with
        tim := { s.tim with due := s.now + s.ptmInterval, deferred := true } })
      ∧ (s.now < s.tim.due → exec .ptmDialogueDue s = .next s)
      ∧ (s.tim.deferred = true → s.link.pm = .l0 → exec .ptmDeferredRun s = .next { s with
        tim := { s.tim with busy := true, deferred := false, reqAt := s.now }, host := { s.host with out := s.host.out ++ [.ptmRequest] } }))
    ∧ (∀ (m : BitVec 64) (d : BitVec 32), s.tim.busy = true → Completes (.ptmDialogueComplete m d) s fun t =>
        t.tim = { s.tim with busy := false, valid := true, pairHost := ptmHostTime m d s.tim.reqAt s.now, pairEpoch := s.thermos.tbEpoch
                             pairTb := BitVec.ofNat 64 s.tim.reqAt + (if s.link.speed = 0 then 1 else 0) }
          ∧ t.thermos = { s.thermos with timeLost := false }
          ∧ t = { s.toBlock with tim := t.tim, thermos := t.thermos, host := t.host, flt := t.flt })
    ∧ (s.tim.busy = true → exec .ptmDialogueFail s = .next { s with tim := { s.tim with busy := false, failCount := bump s.tim.failCount } })
    ∧ (s.tim.busy = false → exec .ptmDialogueFail s = .next s ∧ ∀ m d, exec (.ptmDialogueComplete m d) s = .next s)
    ∧ (∀ v : BitVec 32, s.boot.phase = .ready → v.getLsbD 0 = true → s.thermos.timeLost = true → Completes (.lostAck v) s fun t =>
        t.thermos = { s.thermos with timeLost := false } ∧ Tells 0x0004 0xFF [2] { s.toBlock with thermos := t.thermos } t
          ∧ t = { s.toBlock with thermos := t.thermos, host := t.host, flt := t.flt })
    ∧ (∀ v : BitVec 32, v.getLsbD 0 = false → exec (.lostAck v) s = .next s)

/-- The PTM correlation block reads as one. A read of 4 or 8 bytes at 0x0440 latches the pair, its epoch, VALID and FAIL_COUNT as they
stand in one tick; reads of 0x0444 to 0x0457 return the latched copy and change none of it, whatever a dialogue has done since. A
lower-half read of a 64-bit register holds its upper half, which the next read of that half returns. (R651) -/
def Obligations.LatchedReads : Prop :=
  ∀ s : State, s.boot.phase ≠ .thermosPor →
    (∀ n : Nat, n = 4 ∨ n = 8 → Completes (.ptmCorrRead n) s fun t =>
      t.tim.latch.extractLsb' 0 64 = s.tim.pairHost ∧ t.tim.latch.extractLsb' 64 64 = s.tim.pairTb
        ∧ t.tim.latch.extractLsb' 128 32 = s.tim.pairEpoch ∧ t.tim.latch.getLsbD 160 = s.tim.valid
        ∧ t.tim.latch.extractLsb' 176 16 = s.tim.failCount ∧ t.tim = { s.tim with latch := t.tim.latch }
        ∧ t.host.out = s.host.out ++ [.readReply ((leBytes 8 t.tim.latch.toNat).take n)]
        ∧ t = { s.toBlock with tim := t.tim, host := t.host })
    ∧ (Completes (.lowerHalfRead 0x440) s fun t => t.tim.latch.extractLsb' 0 64 = s.tim.pairHost
        ∧ t.host.out = s.host.out ++ [.readReply (leBytes 4 (s.tim.pairHost.extractLsb' 0 32).toNat)])
    ∧ (∀ i : Fin 6, i ≠ 0 → exec (.lowerHalfRead (0x440 + 4 * i)) s = .next { s with host := { s.host with
        out := s.host.out ++ [.readReply (leBytes 4 (s.tim.latch.extractLsb' (32 * i) 32).toNat)] } })
    ∧ (∀ (m : BitVec 64) (d : BitVec 32), Completes (.ptmDialogueComplete m d) s fun t => t.tim.latch = s.tim.latch)
    ∧ (∀ (m : BitVec 64) (d : BitVec 32), s.tim.busy = true → ∃ u : State, exec (.ptmDialogueComplete m d) s = .next u ∧
        Completes (.ptmCorrRead 8) u fun t => t.tim.latch.extractLsb' 0 64 = ptmHostTime m d s.tim.reqAt s.now)
    ∧ (Completes (.lowerHalfRead 0x400) s fun t => t.host.held 0x404 = s.thermos.tb.extractLsb' 32 32
        ∧ t.host.out = s.host.out ++ [.readReply (leBytes 4 (s.thermos.tb.extractLsb' 0 32).toNat)])
    ∧ (exec (.lowerHalfRead 0x404) s = .next { s with host := { s.host with
        out := s.host.out ++ [.readReply (leBytes 4 (s.host.held 0x404).toNat)] } })

/-- GOV_BUDGET and GOV_SKIN. A write to GOV_BUDGET stores both fields clamped, and a read returns them; a write to GOV_SKIN stamps its
value with the present tick, and with SKIN_FROM_HOST committed the input counts as stale when that stamp is more than
SKIN_STALE_MS old. Nothing else of the power state changes. (R652) -/
def Obligations.BudgetAndSkin : Prop :=
  ∀ s : State, s.boot.phase = .ready →
    (∀ v : BitVec 32, Completes (.govBudgetWrite v) s fun t =>
      t = { s.toBlock with pwr := { s.pwr with
        budgetSet := true
        sustained := BitVec.ofNat 16 (max 100 (min (v.toNat % 65536) (if s.boot.package = .h then 2000 else 6500)))
        burstMw := BitVec.ofNat 16 (min (v.toNat / 65536) (if s.boot.package = .h then 1800 else 6500)) } }
        ∧ t.reg32 0x600 = BitVec.ofNat 32 (t.pwr.sustained.toNat + t.pwr.burstMw.toNat * 65536))
    ∧ (∀ v : BitVec 32, Completes (.govSkinWrite v) s fun t =>
        t.pwr.skin = v.setWidth 16 ∧ t.pwr.skinAt = some s.now ∧ t.pwr.sustained = s.pwr.sustained ∧ t.pwr.burstMw = s.pwr.burstMw
          ∧ t.pwr = { s.pwr with skin := t.pwr.skin, skinAt := t.pwr.skinAt, skinLost := t.pwr.skinLost }
          ∧ t = { s.toBlock with pwr := t.pwr, host := t.host, flt := t.flt })
    ∧ (∀ u : Tick, s.feat.committed.getLsbD 14 = true → s.pwr.skinAt = some u →
        (s.skinLostCause = 3 ↔ u + s.skinStaleAge < s.now))
    ∧ (s.skinLostCause = 3 → s.pwr.skinLost = false → Completes .skinStale s fun t =>
        t.pwr = { s.pwr with skinLost := true } ∧ Tells 0x0051 0xFF [3] { s.toBlock with pwr := t.pwr } t
          ∧ t = { s.toBlock with pwr := t.pwr, host := t.host, flt := t.flt })

/-- The skin sensor, the die and the burst's cooldown. SKIN_READ_DUE reads the sensor when its bus is free; SKIN_READ_DONE takes the
value with the present tick, or counts a failure; COOLDOWN_END ends a cooldown that is over; DIE_TEMP_SAMPLE keeps the sensors'
newest readings and latches DIE_HOT at DIE_LIMIT; THERMAL_TRIP at 115 °C stops the clocks of Fox, Owl and Badger alone. (Clauses
that rest on the model's own choices or readings: log entries 31 and 61.) (17_power.md) -/
def Obligations.HeatAndSensors : Prop :=
  ∀ s : State,
    (s.boot.phase = .ready → s.pwr.paused = false → s.flt.restarting.getD 2 false = false → (s.skinBus = 2 ∨ s.skinBus = 3) →
      s.pwr.skinBusy = false → s.pwr.skinDue ≤ s.now → s.ctls.getD s.skinBus none = none → s.waitingReads s.skinBus = [] →
      exec .skinReadDue s = .next { s with
        pwr := { s.pwr with skinBusy := true, skinDue := s.pwr.skinDue + max 1 s.skinPeriod * ((s.now - s.pwr.skinDue) / max 1 s.skinPeriod + 1) }
        host := { s.host with out := s.host.out ++ [.skinRead s.skinBus (BitVec.ofNat 8 (s.gov 17 1 0)) (BitVec.ofNat 8 (s.gov 18 1 0))] } })
    ∧ (s.pwr.skinBusy = true → (∀ v : BitVec 16, Completes (.skinReadDone (some v)) s fun t =>
          t.pwr.sensor = some v ∧ t.pwr.sensorAt = s.now ∧ t.pwr.sensorFails = 0 ∧ t.pwr.skinBusy = false
            ∧ t = { s.toBlock with pwr := t.pwr, host := t.host, flt := t.flt })
        ∧ Completes (.skinReadDone none) s fun t => t.pwr.sensor = s.pwr.sensor ∧ t.pwr.sensorFails = s.pwr.sensorFails + 1
            ∧ t.pwr.skinBusy = false ∧ t = { s.toBlock with pwr := t.pwr, host := t.host, flt := t.flt })
    ∧ (∀ v, s.pwr.skinBusy = false → exec (.skinReadDone v) s = .next s)
    ∧ (∀ u : Tick, s.pwr.burst = .cooldown u → (u ≤ s.now → exec .cooldownEnd s = .next { s with pwr := { s.pwr with burst := .idle } })
        ∧ (s.now < u → exec .cooldownEnd s = .next s))
    ∧ (∀ (ts : BitVec 128) (v : BitVec 8), Completes (.dieTempSample ts v) s fun t =>
        (∀ i < 8, t.pwr.dieTemps.getD i none = if v.getLsbD i then some (ts.extractLsb' (16 * i) 16) else s.pwr.dieTemps.getD i none)
          ∧ t.pwr = { s.pwr with dieTemps := t.pwr.dieTemps, dieHot := t.pwr.dieHot }
          ∧ (s.boot.phase = .ready → v = 1 → s.dieLimit ≤ (ts.extractLsb' 0 16).toInt → s.pwr.dieTemps = List.replicate 8 none → t.pwr.dieHot = true)
          ∧ t = { s.toBlock with pwr := t.pwr, host := t.host, flt := t.flt })
    ∧ (∀ (k : Fin 8) (c : BitVec 16), s.boot.phase = .ready → 29440 ≤ c.toInt → s.pwr.tripped = false → Completes (.thermalTrip k c) s fun t =>
        t.pwr = { s.pwr with tripped := true } ∧ t.flt.clockOn = ((s.flt.clockOn.set 4 false).set 6 false).set 7 false
          ∧ t.flt.fox = s.flt.fox ∧ t = { s.toBlock with pwr := t.pwr, flt := t.flt, host := t.host })
    ∧ (∀ (k : Fin 8) (c : BitVec 16), c.toInt < 29440 → exec (.thermalTrip k c) s = .next s)

/-- Pause, resume, shutdown and the journal. PAUSE_REQUEST asks for a pause and PAUSE_CLEAR cancels it; both do nothing once SHUTDOWN
is set. SHUTDOWN in a paused engine commits the journal and shows SHUTDOWN_READY, and in a running one asks for a pause.
RESUME_BOUNDARY, 1,250,000 ticks after the wake, starts the next epoch and discards the VIO window. JOURNAL_COMMIT commits once in
an epoch, after its POSE. (Clauses that rest on the model's own choices or readings: log entries 32 and 33.) (17_power.md,
19_registers.md) -/
def Obligations.PauseAndShutdown : Prop :=
  ∀ s : State, s.boot.phase = .ready →
    (s.pwr.shutdown = false →
      (s.pwr.paused = false → s.pwr.pauseReq = none →
        exec .pauseRequest s = .next { s with pwr := { s.pwr with pauseReq := some s.now, pauseBit := true } })
      ∧ (s.pwr.paused = false → exec .pauseClear s = .next { s with pwr := { s.pwr with pauseBit := false, pauseReq := none } })
      ∧ (s.pwr.paused = true → s.pwr.wake = none → s.pwr.shutReady = false → Completes .pauseClear s fun t =>
          t.pwr.wake = some (s.now, .host) ∧ t.pwr.paused = true ∧ t.ep.now = s.ep.now)
      ∧ (s.pwr.paused = false → s.pwr.pauseReq = none →
        exec .shutdown s = .next { s with pwr := { s.pwr with shutdown := true, pauseReq := some s.now } })
      ∧ (s.pwr.paused = true → s.pwr.wake = none → Completes .shutdown s fun t =>
          t.pwr = { s.pwr with shutdown := true, shutReady := true, dram := .deepSleep }
            ∧ t.thermos = { s.thermos with journal := t.thermos.journal, journalUe := t.thermos.journalUe }
            ∧ t = { s.toBlock with pwr := t.pwr, thermos := t.thermos, host := t.host }))
    ∧ (s.pwr.shutdown = true → exec .pauseRequest s = .next s ∧ exec .pauseClear s = .next s ∧ exec .shutdown s = .next s)
    ∧ (∀ (w : Tick) (src : WakeSrc), s.pwr.wake = some (w, src) → s.pwr.paused = true → s.pwr.shutReady = false →
        (w + 1250000 ≤ s.now → s.cfg.armed = none → Completes .resumeBoundary s fun t =>
          t.pwr.paused = false ∧ t.pwr.wake = none ∧ t.ep.now = BitVec.ofNat 64 (s.ep.now.toNat + 1) ∧ t.ep.start = w + 1250000
            ∧ t.badger.needReloc = true ∧ t.cfg.active = s.cfg.active)
        ∧ (s.now < w + 1250000 → exec .resumeBoundary s = .next s))
    ∧ (s.ep.running = true → s.pwr.paused = false → s.afu.posed = true → s.ep.journaled = false → Completes .journalCommit s fun t =>
        t.ep = { s.ep with journaled := true } ∧ t.thermos = { s.thermos with journal := t.thermos.journal, journalUe := t.thermos.journalUe }
          ∧ t = { s.toBlock with ep := t.ep, thermos := t.thermos, host := t.host })
    ∧ (s.ep.journaled = true → exec .journalCommit s = .next s)

/-- What a write to a register clears, keeps and is counted for. A write to a register of access CLR makes its counter zero, one to
EVENT_CAUSE clears the bits written 1, and one to a read-only register does nothing. An aligned write where no register is, and a
misaligned write, change nothing but the count of bad accesses; while ENABLE is 1 a write to a queue's configuration is ignored
and counted, otherwise it is taken. In configuration space, PTM Enable, MSI-X Enable, Bus Master Enable and the link power state
take their values. (Clauses that rest on the model's own choices or readings: log entries 37, 60 and 70.) (19_registers.md) -/
def Obligations.ClearAndRegisterWrites : Prop :=
  ∀ s : State, s.boot.phase ≠ .thermosPor →
    (∀ v, exec (.clearWrite 0x720 v) s = .next { s with host := { s.host with badBell := 0, badReg := 0 } })
    ∧ (∀ v : BitVec 32, exec (.clearWrite 0x230 v) s = .next { s with host := { s.host with eventCause := s.host.eventCause &&& ~~~(v.setWidth 4) } })
    ∧ (∀ (k : Fin 6) (i : Fin 16) v, exec (.clearWrite (0x2000 + 0x80 * k + 4 * i) v) s = .next { s with
        ports := s.ports.modify k fun p => { p with counters := p.counters.set i 0, changed := p.changed || p.counters.getD i 0 != 0 } })
    ∧ (∀ v, exec (.clearWrite 0x400 v) s = .next s)
    ∧ (∀ (v : BitVec 64), exec (.registerWrite (.bar0 0x1500 4 v)) s = .next { s with host := { s.host with badReg := bump s.host.badReg } })
    ∧ (∀ (o : Nat) (v : BitVec 64), o % 4 ≠ 0 → o < 0xE000 → exec (.registerWrite (.bar0 o 4 v)) s = .next { s with
        host := { s.host with badReg := bump s.host.badReg } })
    ∧ (∀ v : BitVec 64, exec (.registerWrite (.bar0 0x508 4 v)) s = .next { s with flt := { s.flt with sealFaults := 0 } })
    ∧ (s.boot.phase = .ready → ∀ (q : Fin 16) (v : BitVec 64), (s.host.queues.getD q {}).enabled = true →
        exec (.registerWrite (.bar0 (0x1010 + 0x40 * q) 4 v)) s = .next { s with host := { s.host with badReg := bump s.host.badReg } })
    ∧ (s.boot.phase = .ready → ∀ (q : Fin 16) (v : BitVec 64), (s.host.queues.getD q {}).enabled = false →
        exec (.registerWrite (.bar0 (0x1010 + 0x40 * q) 4 v)) s = .next { s with host := { s.host with
          queues := s.host.queues.modify q fun x => { x with sqSize := v.setWidth 13 } } })
    ∧ (s.link.up = true →
      (∀ v, exec (.registerWrite (.msixControl v)) s = .next { s with link := { s.link with msixOn := v } })
      ∧ exec (.registerWrite (.busMaster true)) s = .next { s with link := { s.link with bme := true } }
      ∧ exec (.registerWrite (.ptmControl false)) s = .next { s with link := { s.link with ptm := false }, tim := { s.tim with deferred := false } }
      ∧ exec (.registerWrite (.linkPm 1)) s = .next { s with link := { s.link with pm := .l1 } })

/-- The exposure midpoint. The midpoint of a frame with a positive exposure lies half the exposure, rounded to nearest even, after
t_start and before the row shift; one whose stop is its start has exposure 0, its midpoint at t_start and no flag; one whose stop
is before its start is inverted, with exposure 0 and its midpoint half the nominal exposure after t_start. (R129) -/
def Obligations.ExposureMidpoint : Prop :=
  (∀ (t0 t1 : Int) (nominal shift : Nat), t0 ≤ t1 → midExposure t0 t1 nominal shift = (false, (t1 - t0).toNat, t0 + rneNat (t1 - t0).toNat 2 + shift))
  ∧ (∀ (t0 t1 : Int) (nominal shift : Nat), t1 < t0 → midExposure t0 t1 nominal shift = (true, 0, t0 + rneNat nominal 2 + shift))
  ∧ (∀ (t : Int) (nominal : Nat), midExposure t t nominal 0 = (false, 0, t))
  ∧ (∀ n : Nat, (rneNat n 2 = n / 2 ∨ rneNat n 2 = n / 2 + 1) ∧ (n % 4 = 1 → rneNat n 2 = n / 2) ∧ (n % 4 = 3 → rneNat n 2 = n / 2 + 1)
      ∧ (n % 2 = 0 → rneNat n 2 = n / 2))

/-- Trigger edges, Frame Start, and a trigger that no frame follows. A rising trigger edge drives its pin to the active level of the
one port whose trigger fires at this tick, and records the pulse; an edge that is no port's changes nothing. A Frame Start on a
running port without an open frame opens one at its stamp, under the generation and the page in force; one with a bad header is
only counted. TRIG_NO_FRAME counts the missed trigger, keeps its pulse and degrades the epoch; PHY_FRAMING_ERROR only counts, from
the enable on. (04_time.md, 06_sensor_ports.md) -/
def Obligations.TriggersAndStarts : Prop :=
  ∀ s : State,
    (∀ (pin : Fin 8) (k : Nat), k < 6 → (∀ j < 6, s.trigFires j pin = decide (j = k)) → s.now = s.ep.start + s.port k 68 4 →
      exec (.trigEdge pin true) s = .next { s with
        pins := { s.pins with trigLevel := s.pins.trigLevel.set pin (s.port k 76 1 == 0), trigDriven := s.pins.trigDriven.set pin true }
        ports := s.ports.modify k fun p => { p with trigs := p.trigs ++ [⟨s.now, s.now + s.port k 72 4, false⟩] } })
    ∧ (∀ (pin : Fin 8), (∀ j < 6, s.trigFires j pin = false) → exec (.trigEdge pin true) s = .next s)
    ∧ (∀ (k : Fin 6) (p : ShortPkt), s.ports.length = 6 → s.csiOn k = true → p.ecc = .ok → p.vc.toNat = s.port k 32 1 →
      (s.ports.getD k {}).frame = none → (s.ports.getD k {}).trigs = [] → s.port k 42 1 ≠ 1 → Completes (.frameStart k p) s fun t =>
        (t.ports.getD k {}) = { s.ports.getD k {} with synced := true, frame := some {
            no := p.data, fs := s.now - s.deskew k, gen := s.cfg.gen, page := pageAt s.cfg.active 2 k
            rise := s.now - s.deskew k, fall := s.now - s.deskew k } }
          ∧ (∀ j : Nat, j ≠ k → t.ports.getD j {} = s.ports.getD j {})
          ∧ t = { s.toBlock with ports := t.ports, fox := t.fox, ep := t.ep, host := t.host, flt := t.flt })
    ∧ (∀ k : Fin 6, s.boot.package = .c → s.deskew k = 0)
    ∧ (∀ (k : Fin 6) (p : ShortPkt), s.csiOn k = true → (s.ports.getD k {}).synced = true → p.ecc = .bad →
      exec (.frameStart k p) s = .next { s with ports := s.ports.modify k fun x => { x with
        counters := x.counters.modify 2 bump, changed := x.changed || x.counters.getD 2 0 != BitVec.allOnes 32 } })
    ∧ (∀ (k : Fin 6) (p : ShortPkt), s.csiOn k = false → exec (.frameStart k p) s = .next s)
    ∧ (∀ (k : Fin 6) (u : Trig), s.csiOn k = true → (s.ports.getD k {}).trigs = [u] → u.met = false → u.rise + s.port k 60 4 + s.trigTol k ≤ s.now →
      exec (.trigNoFrame k) s = .next { s with
        ports := s.ports.modify k fun x => { x with
          trigs := [{ u with met := true }], counters := x.counters.modify 14 bump, changed := x.changed || x.counters.getD 14 0 != BitVec.allOnes 32 }
        ep := { s.ep with degraded := true } })
    ∧ (∀ (k : Fin 6), s.csiOn k = true → exec (.phyFramingError k) s = .next { s with ports := s.ports.modify k fun x => { x with
        counters := x.counters.modify 0 bump, changed := x.changed || x.counters.getD 0 0 != BitVec.allOnes 32 } })
    ∧ (∀ (k : Fin 6), s.csiOn k = false → exec (.phyFramingError k) s = .next s ∧ exec (.trigNoFrame k) s = .next s)

/-- The lines of an open frame, embedded data, and Frame End. A Line Start numbers the next line; a pixel packet whose header, length
and CRC are good adds one good line to the open frame and counts nothing, one whose CRC fails adds a missing line and counts it,
and one at or beyond the height adds none. An embedded-data packet that is captured whole gives stream 7 one EMBED parcel of its
port, with the stream's next SEQ; one for no open stream 7 is counted. Frame End closes the open frame, and one without an open
frame is counted. (Clauses that rest on the model's own choices or readings: log entries 12, 41 and 83.) (06_sensor_ports.md) -/
def Obligations.LinesOfAFrame : Prop :=
  ∀ (s : State) (k : Fin 6), s.csiOn k = true → (s.ports.getD k {}).synced = true → s.ports.length = 6 →
    (∀ (p : ShortPkt) (f : Frame), p.ecc = .ok → p.vc.toNat = s.port k 32 1 → p.data ≠ 0 → (s.ports.getD k {}).frame = some f →
      exec (.lineStart k false p) s = .next { s with ports := s.ports.modify k fun x => { x with frame := some { f with next := p.data.toNat } } })
    ∧ (∀ (p : ShortPkt), p.ecc = .ok → p.vc.toNat = s.port k 32 1 → exec (.lineStart k true p) s = .next s)
    ∧ (∀ (p : LongPkt) (f : Frame), p.ecc = .ok → p.vc.toNat = s.port k 32 1 → p.dt.toNat = s.port k 33 1 → (s.ports.getD k {}).frame = some f →
      (f.next < f.f 26 2 → p.payload.length = lineBytes (s.port k 24 2) p.dt.toNat → p.overflow = false →
        (p.crcOk = true → Completes (.longPacket k p) s fun t =>
          t.ports = s.ports.modify k (fun x => { x with frame := some { f with next := f.next + 1, lines := f.lines ++ [⟨f.next, true⟩] } })
            ∧ t.host = (s.toBlock.lines k (linePayloads (s.camOf k) f.no f.next
                ((List.range (s.port k 24 2)).map (unpackPixel (s.port k 33 1) p.payload)))).host
            ∧ t = { s.toBlock with ports := t.ports, host := t.host, flt := t.flt })
        ∧ (p.crcOk = false → Completes (.longPacket k p) s fun t =>
          t.ports = s.ports.modify k (fun x => { x with
              frame := some { f with next := f.next + 1, lines := f.lines ++ [⟨f.next, false⟩] }
              counters := x.counters.modify 5 bump, changed := x.changed || x.counters.getD 5 0 != BitVec.allOnes 32 })
            ∧ t.host = (s.toBlock.missingLine k f.no f.next).host
            ∧ t = { s.toBlock with ports := t.ports, host := t.host, flt := t.flt }))
      ∧ (f.f 26 2 ≤ f.next → p.payload.length = lineBytes (s.port k 24 2) p.dt.toNat → p.overflow = false → p.crcOk = true →
        exec (.longPacket k p) s = .next { s with
          ports := s.ports.modify k fun x => { x with frame := some { f with next := f.next + 1, tooMany := true } } }))
    ∧ (∀ (p : LongPkt), p.ecc = .ok → p.crcOk = true → p.vc.toNat = s.port k 36 1 → s.port k 35 1 % 2 = 1 → p.dt = 0x12 → s.port k 33 1 ≠ 0x12 →
        ((s.host.streams.getD 7 {}).isOpen = false → exec (.embedPacket k p) s = .next { s with ports := s.ports.modify k fun x => { x with
          counters := x.counters.modify 11 bump, changed := x.changed || x.counters.getD 11 0 != BitVec.allOnes 32 } })
        ∧ (∀ f : Frame, (s.host.streams.getD 7 {}).isOpen = true → s.port k 35 1 = 3 → 0 < p.payload.length → p.payload.length ≤ 4088 →
          (s.ports.getD k {}).frame = some f → Completes (.embedPacket k p) s fun t =>
            (t.host.streams.getD 7 {}) = Stream.take (sealParcel s.chip 0x0103 (BitVec.ofNat 8 (0x88 + k)) (s.host.streams.getD 7 {}).nextSeq
                (portUnit k) (lineHead (s.camOf k) 0 f.no f.next 0 ++ p.payload) []) (s.host.streams.getD 7 {})
              ∧ (∀ j : Nat, j ≠ 7 → t.host.streams.getD j {} = s.host.streams.getD j {})
              ∧ t = { s.toBlock with host := { s.host with streams := t.host.streams } }))
    ∧ (∀ (p : ShortPkt), p.ecc = .ok → p.vc.toNat = s.port k 32 1 → (s.ports.getD k {}).frame = none → exec (.frameEnd k p) s = .next { s with
          ports := s.ports.modify k fun x => { x with
            counters := x.counters.modify 10 bump, changed := x.changed || x.counters.getD 10 0 != BitVec.allOnes 32 } })
    ∧ (∀ (p : ShortPkt) (f : Frame), p.ecc = .ok → p.vc.toNat = s.port k 32 1 → (s.ports.getD k {}).frame = some f →
        Completes (.frameEnd k p) s fun t => (t.ports.getD k {}).frame = none ∧ t.cfg = s.cfg ∧ t.slots = s.slots ∧ t.thermos = s.thermos)

/-- Inertial reads, from the data-ready edge to the group. An IRQ_IMU pulse of at least 8 ticks queues a read, at its tick, on the
slots that name its pin and edge, and a shorter one does nothing; POLL_TIMER queues a polled read; SENSOR_READ_START starts the
earliest waiting read of a free controller; SENSOR_READ_DONE without an answer counts a failure, and with one ends the
controller's read; a group closes 1 ms after its first sample into one INERTIAL parcel. (06_sensor_ports.md, 04_time.md) -/
def Obligations.InertialReads : Prop :=
  ∀ s : State,
    (∀ (pin : Fin 4) (rising : Bool) (w : Nat), w < 8 → exec (.irqImuEdge pin rising w) s = .next s)
    ∧ (∀ (pin : Fin 4) (rising : Bool) (w k : Nat), 8 ≤ w → k < 6 → (s.slots.getD k {}).pending = [] →
      (∀ j < 6, (s.slotOn j && s.port j 105 1 == pin.val && (s.port j 106 1 == 0) == rising) = decide (j = k)) →
      exec (.irqImuEdge pin rising w) s = .next { s with slots := s.slots.modify k fun x => { x with pending := [{ stamp := s.now }] } })
    ∧ (∀ k : Fin 6, s.slotOn k = true → s.port k 105 1 = 0xFF → s.port k 136 4 ≠ 0 → (s.slots.getD k {}).pollNext ≤ s.now →
      Completes (.pollTimer k) s fun t =>
        t.slots = s.slots.modify k (fun x => { x with pending := x.pending ++ [{ stamp := s.now, polled := true }], pollNext := x.pollNext + s.port k 136 4 })
          ∧ t = { s.toBlock with slots := t.slots })
    ∧ (∀ (c : Fin 4) (k : Nat), c.val < 2 → s.pwr.skinBusy = false → s.ctls.getD c none = none → nextRead (s.waitingReads c) = some k →
      exec (.sensorReadStart c) s = .next { s with
        ctls := s.ctls.set c (some k), slots := s.slots.modify k fun x => { x with reading := x.pending.head?, pending := x.pending.tail }
        host := { s.host with out := s.host.out ++ [.busRead k (slice (leBytes 2 (s.port k 108 2)) 0 (s.port k 107 1)) (s.port k 110 1)] } })
    ∧ (∀ (c : Fin 4) (k : Nat), s.ctls.getD c none = some k → k < 6 → s.slots.length = 6 → s.slotOn k = true → (s.slots.getD k {}).failRun < 7 →
      Completes (.sensorReadDone c none) s fun t =>
        t.ctls = s.ctls.set c none ∧ t.slots = s.slots.modify k (fun x => { x with
            reading := none, failRun := x.failRun + 1, counters := x.counters.modify 0 bump, changed := x.changed || x.counters.getD 0 0 != BitVec.allOnes 32 })
          ∧ t = { s.toBlock with ctls := t.ctls, slots := t.slots })
    ∧ (∀ (c : Fin 4) (k : Nat) (bs : Bytes), s.ctls.getD c none = some k → k < 6 → s.slots.length = 6 → s.slotOn k = true →
      memField (pageAt s.cfg.active 2 k) (152 + 12 * s.rangeCode k bs) 1 ≠ 0 → (s.slots.getD k {}).group = [] →
      Completes (.sensorReadDone c (some bs)) s fun t =>
        t.ctls = s.ctls.set c none ∧ (t.slots.getD k {}).group.length = 1 ∧ (t.slots.getD k {}).groupAt = s.now ∧ (t.slots.getD k {}).failRun = 0
          ∧ (t.slots.getD k {}).lost = false ∧ (t.slots.getD k {}).reading = none
          ∧ (t.slots.getD k {}).lastCode = some (BitVec.ofNat 8 (s.rangeCode k bs))
          ∧ t = { s.toBlock with ctls := t.ctls, slots := t.slots, host := t.host, flt := t.flt })
    ∧ (∀ k : Fin 6, (s.slots.getD k {}).group ≠ [] → (s.slots.getD k {}).groupAt + 250000 ≤ s.now → Completes (.inertialGroupClose k) s fun t =>
        t.slots = s.slots.modify k (fun x => { x with group := [] })
          ∧ t.host.pool = s.host.pool ++ [s.flowParcel (0x90 + k) 0x0110 (s.ctlUnit k) (s.inertialPayload k (s.slots.getD k {}).group) []]
          ∧ t = { s.toBlock with slots := t.slots, host := t.host, flt := t.flt })
    ∧ (∀ k : Fin 6, s.now < (s.slots.getD k {}).groupAt + 250000 → exec (.inertialGroupClose k) s = .next s)

/-- Inputs, outputs and SYNC of the inertial filter chain. IFC_INPUT enters the samples of the oldest INERTIAL parcel of its slot that
has not been entered, in its channels and no other state than theirs and what their outputs and events reach, and waits while the
island restarts; an event pulse ends at its tick; IFC_OUT_CLOSE seals a group's open parcel 62,500 ticks after its first record; a
load to a running channel is refused, counted and shown as busy. A SYNC pulse shorter than 8 ticks is ignored, one within 250
ticks of the last accepted edge is ignored and counted, and another is accepted at its tick; the SYNC command ends with its stamp.
Either re-anchors the running channels whose group answers its source, from their next input, and no others. (Clauses that rest on
the model's own choices or readings: log entries 39, 40, 84 and 85.) (07_inertial_chain.md, 04_time.md) -/
def Obligations.FilterChain : Prop :=
  ∀ s : State,
    (∀ (k : Fin 6) (p : Parcel), s.boot.phase = .ready → s.flt.restarting.getD 3 false = false → sealFault p = none →
      s.host.pool.find? (fun q => q.type == 0x0110 && q.stream == BitVec.ofNat 8 (0x90 + k.val) && !s.ifc.taken.any (InRef.same q.ref)) = some p →
      Completes (.ifcInput k .intact) s fun t =>
        t = (Block.ifcTake k p { s.toBlock with ifc := { s.ifc with taken := p.ref :: s.ifc.taken } }).ifcRelease
          ∧ t = { s.toBlock with
              pins := t.pins, cfg := { s.cfg with armed := t.cfg.armed }, pwr := { s.pwr with wake := t.pwr.wake }
              ifc := t.ifc, afu := t.afu, host := t.host, flt := t.flt, fresh := t.fresh })
    ∧ (∀ (k : Fin 6) (x : Seen), s.flt.restarting.getD 3 false = true → exec (.ifcInput k x) s = .next s)
    ∧ (∀ (pin : Fin 8) (u : Tick), s.ifc.pulses.getD pin none = some u → u ≤ s.now → exec (.trigPulseEnd pin) s = .next { s with
        pins := { s.pins with trigLevel := s.pins.trigLevel.set pin false, trigDriven := s.pins.trigDriven.set pin true }
        ifc := { s.ifc with pulses := s.ifc.pulses.set pin none } })
    ∧ (∀ (pin : Fin 8) (u : Tick), s.ifc.pulses.getD pin none = some u → s.now < u → exec (.trigPulseEnd pin) s = .next s)
    ∧ (∀ (g : Fin 4), s.ifc.groups.length = 4 → (s.ifc.groups.getD g {}).recs ≠ [] → (s.ifc.groups.getD g {}).firstAt + 62500 ≤ s.now →
      Completes (.ifcOutClose g) s fun t =>
        (t.ifc.groups.getD g {}).recs = [] ∧ (t.ifc.groups.getD g {}).inputs = [] ∧ (t.ifc.groups.getD g {}).events = []
          ∧ (t.ifc.groups.getD g {}).last = some (s.flowParcel (0xA0 + g) 0x0201 (ifcUnit (6 * g)) (s.ifcPayload g (s.ifc.groups.getD g {}).recs)
              (s.ifc.groups.getD g {}).inputs).ref
          ∧ t.afu = afuTake (s.ifc.groups.getD g {}).recs (s.flowParcel (0xA0 + g) 0x0201 (ifcUnit (6 * g))
              (s.ifcPayload g (s.ifc.groups.getD g {}).recs) (s.ifc.groups.getD g {}).inputs).ref s.afu
          ∧ (∀ j : Nat, j ≠ g.val → t.ifc.groups.getD j {} = s.ifc.groups.getD j {})
          ∧ t = { s.toBlock with
              ifc := { s.ifc with groups := t.ifc.groups, taken := t.ifc.taken }, afu := t.afu, host := t.host, flt := t.flt })
    ∧ (∀ (g : Fin 4), s.now < (s.ifc.groups.getD g {}).firstAt + 62500 → exec (.ifcOutClose g) s = .next s)
    ∧ (∀ (c : Fin 24) (x : BitVec 8), (s.chan c).running = true → Completes (.coefLoadRefused c x) s fun t =>
        t.ifc.coefBusy = setBit s.ifc.coefBusy c
          ∧ t.ifc.chans = s.ifc.chans.modify c (fun y => { y with counters := y.counters.modify 0 bump })
          ∧ t.ifc.groups = s.ifc.groups.modify (c / 6) (fun g => { g with
              changed := g.changed || (s.chan c).counters.getD 0 0 != BitVec.allOnes 32 })
          ∧ t = { s.toBlock with
              ifc := { s.ifc with coefBusy := t.ifc.coefBusy, chans := t.ifc.chans, groups := t.ifc.groups }, host := t.host, flt := t.flt })
    ∧ (∀ (c : Fin 24) (x : BitVec 8), (s.chan c).running = false → exec (.coefLoadRefused c x) s = .next s)
    ∧ (∀ w : Nat, w < 8 → exec (.syncEdge w) s = .next s)
    ∧ (∀ (w : Nat) (u : Tick), 8 ≤ w → s.boot.phase = .ready → s.tim.lastSync = some u → s.now < u + 250 →
        exec (.syncEdge w) s = .next { s with tim := { s.tim with syncCount := bump s.tim.syncCount } })
    ∧ (∀ w : Nat, 8 ≤ w → s.boot.phase = .ready → (∀ u : Tick, s.tim.lastSync = some u → u + 250 ≤ s.now) → s.tim.syncPend = none →
        s.pwr.paused = false → Completes (.syncEdge w) s fun t =>
          t.tim = { s.tim with lastSync := some s.now, syncPend := some (s.now, 0) }
            ∧ s.syncAnchored 0 t.ifc ∧ t = { s.toBlock with tim := t.tim, ifc := { s.ifc with chans := t.ifc.chans } })
    ∧ (∀ (r : CmdRef) (c : Cmd), s.starting r 0x05 = some c → c.fieldsOk (fun _ => true) = true → c.feature = none → s.tim.syncPend = none →
        s.pwr.paused = false → Completes (.sync r) s fun t =>
          t.tim = { s.tim with syncPend := some (s.now, 1) } ∧ t.host = (s.toBlock.finish r 0 0 s.now 0).host
            ∧ s.syncAnchored 1 t.ifc ∧ t = { s.toBlock with tim := t.tim, ifc := { s.ifc with chans := t.ifc.chans }, host := t.host })

/-- A Fox lane starts and seals its bands, and the cut-off drops what is late. FOX_BAND_START starts the lane's first band whose first
read line has arrived, and does nothing on a lane that cannot work. FOX_BAND_SEAL of a band whose lines are there, whose t_mid is
known and whose inputs verify seals every TRACK payload of the band under the lane's unit, marks that band sealed with its results
and no other, and draws no free value; before its lines are there it does nothing. FOX_CUTOFF before its tick, or with every band
sealed, drops nothing; the one camera with an unsealed band is dropped with its frame, told of, and degrades the epoch. (Clauses
that rest on the model's own choices or readings: log entries 42, 88 and 92.) (08_fox_lanes.md) -/
def Obligations.FoxLanes : Prop :=
  ∀ s : State,
    (∀ (l : Fin 8) (x : Reads), s.laneOk l = false → exec (.foxBandStart l) s = .next s ∧ exec (.foxBandSeal l x) s = .next s)
    ∧ (∀ (l : Fin 8) (cam : Nat) (f : FoxFrame) (x : Band), s.laneOk l = true → (s.laneBands l).any (fun m => m.2.2.started) = false →
      (s.laneBands l).find? (fun m => (s.toBlock.under m.2.1).lineHere m.2.1 (m.2.2.readLo (s.toBlock.under m.2.1).marginLines)) = some (cam, f, x) →
      Completes (.foxBandStart l) s fun t =>
        t.fox = (Block.onBand cam f.fs x.index (fun y => { y with started := true, startAt := s.now }) s.toBlock).fox
          ∧ t = { s.toBlock with fox := t.fox })
    ∧ (∀ (l : Fin 8) (cam : Nat) (f : FoxFrame) (x : Band) (mid : Tick), s.laneOk l = true →
      (s.laneBands l).find? (fun m => m.2.2.started) = some (cam, f, x) → s.bandReady f x = true → s.foxMid f = some mid →
      (s.foxCam cam).frames.find? (fun g => g.fs == f.fs) = some f → (∀ p ∈ s.host.pool, sealFault p = none) →
      Completes (.foxBandSeal l []) s fun t =>
        (∀ pl ∈ (s.toBlock.under f).trackPayloads cam f x ((s.toBlock.under f).bandWork cam f x mid).tracks,
          ∃ p ∈ t.host.pool, p.type = 0x0302 ∧ p.payload = pl ∧ p.producer = BitVec.ofNat 8 (0x20 + l.val) ∧ p.stream = BitVec.ofNat 8 (0xB0 + cam))
          ∧ (∃ (pyr : List PyrRef) (trk : List InRef),
              trk.length = ((s.toBlock.under f).trackPayloads cam f x ((s.toBlock.under f).bandWork cam f x mid).tracks).length
                ∧ t.fox = (Block.onBand cam f.fs x.index (fun y => { y with
                    isSealed := true, started := false, levels := ((s.toBlock.under f).bandWork cam f x mid).levels
                    tracks := ((s.toBlock.under f).bandWork cam f x mid).tracks, pyr := pyr, trk := trk }) s.toBlock).fox)
          ∧ t = { s.toBlock with fox := t.fox, host := t.host, flt := { s.flt with traceDrop := t.flt.traceDrop } })
    ∧ (∀ (l : Fin 8) (cam : Nat) (f : FoxFrame) (x : Band) (rs : Reads), (s.laneBands l).find? (fun m => m.2.2.started) = some (cam, f, x) →
      s.bandReady f x = false → exec (.foxBandSeal l rs) s = .next s)
    ∧ (s.now < s.ep.start + s.foxCutoff → exec .foxCutoff s = .next s)
    ∧ ((∀ cam < 6, ∀ f ∈ (s.foxCam cam).frames, f.whole = true) → exec .foxCutoff s = .next s)
    ∧ (∀ (cam : Nat) (f : FoxFrame), cam < 6 → s.boot.phase = .ready → s.ep.running = true → s.pwr.paused = false →
      s.ep.start + s.foxCutoff ≤ s.now → (∀ j < 6, j ≠ cam → (s.foxCam j).frames = []) → (s.foxCam cam).frames = [f] → f.whole = false →
      f.fs ≤ s.ep.start + s.foxCutoff → Completes .foxCutoff s fun t =>
        (t.foxCam cam) = { s.foxCam cam with frames := [], dropped := true } ∧ (∀ j : Nat, j ≠ cam → t.foxCam j = s.foxCam j)
          ∧ t.ep = { s.ep with degraded := true } ∧ Tells 0x0020 noUnit ([BitVec.ofNat 8 cam, 2] ++ leBytes 2 f.no.toNat) s.toBlock t
          ∧ t = { s.toBlock with fox := t.fox, ep := t.ep, host := t.host, flt := t.flt })

/-- PREINT, POSE and PRED. Once in an epoch whose common instant is fixed, PREINT_BUILD seals a PREINT of the alignment unit that ends
at the common instant, under NO_INERTIAL data the substitute of no step that degrades the epoch; while a reference frame may come it
waits. POSE_ASSEMBLY of an epoch whose VIO job is over seals one POSE with stream 0's next SEQ and puts it in the mirror; with a
SOLUTION of the epoch it holds that solution's position, and with no estimate its flags say so. PRED_EMIT seals one PRED within
100 µs of a multiple of 250,000 ticks, and nothing later or twice. Each does nothing when its work of the epoch is done. (Clauses
that rest on the model's own choices or readings: log entries 5, 6, 43, 44, 86, 89 and 90.) (09_alignment_fusion.md,
14_host_link.md) -/
def Obligations.AlignmentUnit : Prop :=
  ∀ s : State,
    (s.afuOn = true → s.afu.tcDone = true → s.afu.preintDone = false → (∀ p ∈ s.host.pool, sealFault p = none) →
      (s.afu.sol = none → s.afu.solPrev = none) → (∀ x : SolRec, s.afu.sol = some x ∨ s.afu.solPrev = some x → sealFault x.parcel = none) →
      Completes (.preintBuild []) s fun t =>
        (∃ p : Parcel, t.afu = { s.afu with preint := some p, preintDone := true, preints := s.afu.preints ++ [p] }
            ∧ p.type = 0x0410 ∧ p.producer = 0x28 ∧ p.stream = 0xC0 ∧ p.payload.length = 448
            ∧ field p.payload 8 8 = (BitVec.ofInt 64 s.commonInstant).toNat
            ∧ (s.afu.noInertial = true → field p.payload 16 2 = 0 ∧ field p.payload 18 2 = 64))
          ∧ (s.afu.noInertial = true → t.ep.degraded = true)
          ∧ t = { s.toBlock with
              ep := { s.ep with degraded := t.ep.degraded }, afu := t.afu, host := t.host
              flt := { s.flt with traceDrop := t.flt.traceDrop }, fresh := t.fresh })
    ∧ (∀ rs : Reads, s.afu.preintDone = true → exec (.preintBuild rs) s = .next s)
    ∧ (∀ rs : Reads, s.afu.tcDone = false → s.portPending s.refPort = true → exec (.preintBuild rs) s = .next s)
    ∧ (s.afuOn = true → s.afu.tcDone = true → s.afu.posed = false → s.vioOver = true → s.afu.sol = none → s.afu.solPrev = none →
      s.solvedNow = false → s.host.streams.length = 8 → Completes (.poseAssembly []) s fun t =>
        (t.host.streams.getD 0 {}).nextSeq = (s.host.streams.getD 0 {}).nextSeq + 1
          ∧ (∃ p : Parcel, t.afu = { s.afu with
                posed := true, mirror := some p, mirrorPrev := s.afu.mirror, mirrorNo := s.afu.mirrorNo + 1, calibDue := false }
            ∧ p.type = 0x0420 ∧ p.producer = 0x28 ∧ p.seq = (s.host.streams.getD 0 {}).nextSeq ∧ p.payload.length = 256
            ∧ field p.payload 24 4 / 512 % 2 = 1)
          ∧ t = { s.toBlock with afu := t.afu, host := t.host, flt := { s.flt with traceDrop := t.flt.traceDrop } })
    ∧ (∀ x : SolRec, s.afuOn = true → s.afu.tcDone = true → s.afu.posed = false → s.vioOver = true → s.afu.sol = some x → s.afu.solPrev = none →
      sealFault x.parcel = none → x.epoch = s.ep.now.toNat → s.afu.noSol = false → s.afu.noSolEpoch = false → s.badger.keyDone = true →
      s.host.streams.length = 8 → Completes (.poseAssembly []) s fun t =>
        (t.host.streams.getD 0 {}).nextSeq = (s.host.streams.getD 0 {}).nextSeq + 1
          ∧ (∃ p : Parcel, t.afu.mirror = some p ∧ p.type = 0x0420 ∧ p.producer = 0x28 ∧ p.seq = (s.host.streams.getD 0 {}).nextSeq
            ∧ p.payload.length = 256 ∧ field p.payload 24 4 / 512 % 2 = 0 ∧ field p.payload 24 4 % 2 = 0
            ∧ (∀ i < 3, field p.payload (32 + 4 * i) 4 = field x.parcel.payload (32 + 4 * i) 4))
          ∧ t.afu.posed = true ∧ t.afu.mirrorNo = s.afu.mirrorNo + 1 ∧ t.afu.calibDue = false ∧ t.afu.relocDue = false ∧ t.afu.keyDue = false
          ∧ t = { s.toBlock with afu := t.afu, host := t.host, flt := { s.flt with traceDrop := t.flt.traceDrop } })
    ∧ (∀ rs : Reads, s.afu.posed = true → exec (.poseAssembly rs) s = .next s)
    ∧ (s.afuOn = true → s.now % 250000 ≤ 25000 → s.afu.predAt < s.now / 250000 * 250000 → s.afu.solPrev = none →
      (∀ p ∈ s.host.pool, sealFault p = none) → s.host.streams.length = 8 →
      (s.afu.sol = none → Completes (.predEmit []) s fun t =>
        t.afu = { s.afu with predAt := s.now / 250000 * 250000 } ∧ (t.host.streams.getD 1 {}).nextSeq = (s.host.streams.getD 1 {}).nextSeq + 1
          ∧ t = { s.toBlock with afu := t.afu, host := t.host, flt := { s.flt with traceDrop := t.flt.traceDrop } })
      ∧ (∀ x : SolRec, s.afu.sol = some x → sealFault x.parcel = none → x.sealedAt < s.now / 250000 * 250000 → s.afu.noSol = false →
        Completes (.predEmit []) s fun t =>
          t.afu = { s.afu with predAt := s.now / 250000 * 250000, sol := some { x with told := true } }
            ∧ (t.host.streams.getD 1 {}).nextSeq = (s.host.streams.getD 1 {}).nextSeq + 1
            ∧ t = { s.toBlock with afu := t.afu, host := t.host, flt := { s.flt with traceDrop := t.flt.traceDrop }, fresh := s.fresh + 1 }))
    ∧ (∀ rs : Reads, 25000 < s.now % 250000 → exec (.predEmit rs) s = .next s)
    ∧ (∀ rs : Reads, s.now / 250000 * 250000 ≤ s.afu.predAt → exec (.predEmit rs) s = .next s)

/-- A PRIOR command and the parcels that its buffer brings. PRIOR starts; its buffer's one verified parcel is dropped and counted when
its TB_EPOCH is not the present one, rejected and counted when R314 rejects it, and otherwise becomes the newest of its source;
the command ends OK with the cause. A buffer that cannot be read ends it DATA_ERROR, and a parcel that fails its seal SEAL_ERROR
with the fault counted; a completion for a command that reads nothing is ignored. PRIOR changes nothing else. (Clauses that rest
on the model's own choices or readings: log entries 17 and 44.) (09_alignment_fusion.md, 14_host_link.md, 04_time.md) -/
def Obligations.PriorsAndParcels : Prop :=
  ∀ (s : State) (r : CmdRef) (c : Cmd),
    (s.starting r 0x40 = some c → c.fieldsOk (fun _ => true) = true → c.feature = some 7 → s.committed 7 = true →
      exec (.prior r) s = .next { s with toBlock := s.toBlock.stage r .running })
    ∧ (s.starting r 0x40 = some c → c.fieldsOk (fun _ => true) = true → c.feature = some 7 → s.committed 7 = false →
      exec (.prior r) s = .next { s with toBlock := s.toBlock.finish r 0x05 0 0 0 })
    ∧ ((s.host.queues.getD r.q {}).cmds.find? (fun c => c.id == r.id && s.reading r c) = none → ∀ d, exec (.dmaReadCompletion r d) s = .next s)
    ∧ ((s.host.queues.getD r.q {}).cmds.find? (fun c => c.id == r.id && s.reading r c) = some c → c.op = 0x40 → c.heads = true →
      (exec (.dmaReadCompletion r .failed) s = .next { s with toBlock := s.toBlock.finish r 0x07 c.count 0 0 })
      ∧ (∀ p : Parcel, s.hostFault p = none →
        (field (s.hostSealed p).payload 4 4 ≠ s.thermos.tbEpoch.toNat → Completes (.dmaReadCompletion r (.parcel p)) s fun t =>
          t.afu = { s.afu with dropEpoch := bump s.afu.dropEpoch } ∧ t.den = s.den ∧ t.cfg = s.cfg ∧ t.thermos = s.thermos)
        ∧ (field (s.hostSealed p).payload 4 4 = s.thermos.tbEpoch.toNat → s.priorCause (s.hostSealed p).payload = 0 →
          Completes (.dmaReadCompletion r (.parcel p)) s fun t =>
            t = Block.finish r 0 0 0 0 { s.toBlock with afu := { s.afu with priors := s.afu.priors.modify (field (s.hostSealed p).payload 0 1) fun l =>
              (PriorRec.mk (field (s.hostSealed p).payload 8 8) (s.hostSealed p).payload (s.hostSealed p).ref s.now :: l).take 8 } })
        ∧ (field (s.hostSealed p).payload 4 4 = s.thermos.tbEpoch.toNat → s.priorCause (s.hostSealed p).payload ≠ 0 →
          Completes (.dmaReadCompletion r (.parcel p)) s fun t => t.afu = { s.afu with rejected := bump s.afu.rejected } ∧ t.den = s.den)))

/-- Owl's loads, scores and losses. OWL_MODEL_LOAD to an enabled slot ends SLOT_RUNNING, in an armed or checking shadow state BUSY,
and otherwise starts its staging; OWL_SCORE needs a slot with a model and a live thread. A sample that a live thread completes, of
the job at the head of the list, joins its job's records, and the last ends the job; a dead thread does nothing, and while an
in-engine use is ready no host sample completes. Without a slot for them, the gate lets every gateable record in, the motion class
is none, and the keyframe decision is the default one; with one, the motion class is that of the slot's model. A camera's gate that
is late lets its records in; a slot whose reload fails is lost with its jobs. (Clauses that rest on the model's own choices or
readings: log entries 6, 58, 93 and 94.) (10_owl.md, 14_host_link.md) -/
def Obligations.OwlScoring : Prop :=
  ∀ (s : State) (r : CmdRef) (c : Cmd),
    (s.starting r 0x20 = some c → c.fieldsOk (fun c => decide (c.arg 24 1 < 8)) = true → c.feature = some 8 → s.committed 8 = true →
      (owlIn s.cfg.active (c.arg 24 1) 16 1 = 1 → exec (.owlModelLoad r) s = .next { s with toBlock := s.toBlock.finish r 0x20 0 0 0 })
      ∧ (owlIn s.cfg.active (c.arg 24 1) 16 1 ≠ 1 → s.cfg.shadowState ≠ .armed → s.cfg.shadowState ≠ .checking → Completes (.owlModelLoad r) s fun t =>
        t.owl = { s.owl with staging := some ⟨r, 0, []⟩ } ∧ t.cfg = { s.cfg with busy := true, busyBy := some r }
          ∧ t.host = (s.toBlock.stage r .running).host ∧ t = { s.toBlock with owl := t.owl, cfg := t.cfg, host := t.host }))
    ∧ (s.starting r 0x21 = some c → c.fieldsOk (fun c => decide (c.arg 24 1 < 8) && decide (1 ≤ c.arg 28 4) && decide (c.arg 28 4 ≤ 65535)) = true →
      c.feature = some 8 → s.committed 8 = true →
      ((s.slotModel (c.arg 24 1)).isNone = true → exec (.owlScore r) s = .next { s with toBlock := s.toBlock.finish r 0x21 0 0 0 })
      ∧ ((s.slotModel (c.arg 24 1)).isSome = true → s.flt.threads ≠ 0 → Completes (.owlScore r) s fun t =>
        t.host = (s.toBlock.stage r .running).host ∧ t = { s.toBlock with host := t.host }))
    ∧ (∀ (th : Fin 32) (i : Nat) (j : OwlJob) (js : List OwlJob), s.owl.jobs = j :: js → j.entered = true →
      (s.flt.threads.getLsbD th = false ∨ s.threadsForHost = false → exec (.owlSampleResult th i) s = .next s)
      ∧ (∀ x : Sample, s.flt.threads.getLsbD th = true → s.threadsForHost = true → j.mayEnd i = true → j.samples[i]? = some x →
        (j.done.length + 1 = j.samples.length → Completes (.owlSampleResult th i) s fun t =>
          t.owl.jobs.map OwlJob.no = (js.filter (fun k => k.no != j.no)).map OwlJob.no
            ∧ t = { s.toBlock with owl := { s.owl with jobs := t.owl.jobs, slots := t.owl.slots }, host := t.host, flt := { s.flt with traceDrop := t.flt.traceDrop } })
        ∧ (j.done.length + 1 ≠ j.samples.length → (j.recs.length + 2) * (scoreSample j.model j.threshold i x.raw).bytes.length ≤ 4080 →
          (∀ k ∈ js, k.no ≠ j.no) → Completes (.owlSampleResult th i) s fun t =>
            t.owl.jobs = { j with done := (BitVec.ofNat 16 i).toNat :: j.done, recs := j.recs ++ [scoreSample j.model j.threshold i x.raw] } :: js
              ∧ t = { s.toBlock with owl := { s.owl with jobs := t.owl.jobs, slots := t.owl.slots } })))
    ∧ (s.unitsRun 6 = true → s.owl.jobs = [] → ∀ x : OwlIn,
      (s.useSlot 5 = none → s.motionClass = none ∧ exec (.owlEngineScore .motion x) s = .next s)
      ∧ (∀ (n : Nat) (m : Bytes), s.useSlot 5 = some n → s.slotModel n = some m → s.afu.preintDone = true → s.owl.motionDone = false → x.reads = [] →
        (∀ p ∈ s.host.pool, sealFault p = none) → Completes (.owlEngineScore .motion x) s fun t =>
          t.owl.motionDone = true
            ∧ t.owl.motion = (some (scoreSample m (BitVec.ofNat 32 (owlIn s.cfg.active n 28 4)) 0 (s.motionRaw x)) |>.filter OwlRec.pass).map OwlRec.cls
            ∧ t = { s.toBlock with owl := t.owl, host := t.host, flt := { s.flt with traceDrop := t.flt.traceDrop } })
      ∧ (s.useSlot 3 = none → exec (.owlEngineScore .cull x) s = .next s)
      ∧ (s.useSlot 4 = none → exec (.owlEngineScore .loop x) s = .next s)
      ∧ (s.useSlot 1 = none → (s.foxReady x.cam).isSome = true → s.owl.gated.getD x.cam none = none → Completes (.owlEngineScore .gate x) s fun t =>
        t.owl = { s.owl with gated := s.owl.gated.set x.cam (some (gateable (s.doneTracks x.cam))) } ∧ t = { s.toBlock with owl := t.owl })
      ∧ (s.useSlot 2 = none → s.solvedNow = true → s.badger.keyDone = false → s.den.ue = [] → keyframeDefault s.keyframeRaw = false →
        exec (.owlEngineScore .keyframe x) s = .next { s with badger := { s.badger with keyDone := true } }))
    ∧ (∀ cam : Fin 6, s.boot.phase = .ready → (s.foxReady cam).isSome = true → s.owl.gated.getD cam none = none → s.useSlot 1 = none →
      s.owl.jobs = [] → s.ep.start + s.foxCutoff + 250000 ≤ s.now → Completes (.owlGateLate cam) s fun t =>
        t.owl = { s.owl with gated := s.owl.gated.set cam (some (gateable (s.doneTracks cam))) }
          ∧ Tells 0x0021 noUnit (leBytes 4 cam ++ leBytes 4 (gateable (s.doneTracks cam)).length) s.toBlock t
          ∧ t = { s.toBlock with owl := t.owl, host := t.host, flt := t.flt })
    ∧ (∀ cam : Fin 6, s.now < s.ep.start + s.foxCutoff + 250000 → exec (.owlGateLate cam) s = .next s)
    ∧ (∀ n : Fin 8, exec (.nodeUe n true) s = .next s)
    ∧ (∀ n : Fin 8, s.detects = true → Completes (.nodeUe n false) s fun t =>
        (∀ x, t.owl.slots[n.val]? = some x → x.lost = true) ∧ ∀ j ∈ t.owl.jobs, j.slot ≠ n)

/-- A VIO job is assembled once in an epoch, and CARRY_LIMIT dry epochs reset VIO. VIO_ASSEMBLY with its inputs verified and its tracks
ready assembles the epoch and waits for them before: before initialisation it notes the epoch alone, after it one engine job of class 0 stands in
the queue with the deadline of the epoch and the epoch's number. It does nothing twice in an epoch. VIO_RESET after CARRY_LIMIT
epochs without a SOLUTION discards the window and starts initialisation again, and before that does nothing. (Clauses that rest on
the model's own choices or readings: log entries 5, 6, 18 and 56.) (11_badger.md, 01_one_frame.md) -/
def Obligations.VioProblems : Prop :=
  ∀ (s : State) (x : VioIn),
    (s.badger.vioDone = true ∨ s.afu.preintDone = false ∨ s.tracksReady = false → exec (.vioAssembly x) s = .next s)
    ∧ (s.boot.phase = .ready → s.ep.running = true → s.badger.vioDone = false → s.badger.asmHeld = false → s.afu.preintDone = true →
      s.tracksReady = true → (∀ p : Parcel, s.afu.preint = some p ∨ s.badger.window = some p ∨ p ∈ s.host.pool → sealFault p = none) → x.reads = [] →
      (s.badger.vioInit = false → s.badger.initFrames.length < 7 → Completes (.vioAssembly x) s fun t =>
        t.badger = { s.badger with vioDone := true, initFrames := t.badger.initFrames }
          ∧ t = { s.toBlock with badger := t.badger, fox := t.fox })
      ∧ (s.badger.vioInit = true → s.flt.tiles ≠ 0 → Completes (.vioAssembly x) s fun t =>
        t.badger.vioDone = true
          ∧ (∃ j : Job, t.badger.jobs = s.badger.jobs ++ [j] ∧ j.cls = 0 ∧ j.no = s.badger.nextNo ∧ j.host = false ∧ j.epoch = s.ep.now.toNat
            ∧ j.deadline = some (s.ep.start + s.vioDeadline) ∧ j.carry = s.vioCarry ∧ j.gen = s.cfg.gen)
          ∧ t.badger.keyframes ≤ 24 ∧ t.badger.recents ≤ 8 ∧ t = { s.toBlock with
              badger := t.badger, afu := t.afu, ep := { s.ep with degraded := t.ep.degraded }, fox := t.fox, host := t.host, flt := t.flt
              fresh := t.fresh }))
    ∧ (s.boot.phase = .ready → s.badger.vioInit = true → s.carryLimit ≤ s.badger.dryEpochs → Completes .vioReset s fun t =>
        t.badger.window = none ∧ t.badger.vioInit = false ∧ t.badger.dryEpochs = 0 ∧ t.badger.needReloc = true ∧ t.badger.keyframes = 0
          ∧ t.badger.jobs = s.badger.jobs.filter (fun j => j.host || j.cls != 0) ∧ t.afu = { s.afu with noSol := true }
          ∧ t = { s.toBlock with badger := t.badger, afu := t.afu, host := t.host, flt := t.flt })
    ∧ (s.badger.dryEpochs < s.carryLimit → exec .vioReset s = .next s)

/-- A host job is refused, stale or runs; its deadline ends it. BADGER_JOB in its turn with good operands reads a class 3 job's
parcels, ends a strict job without a deadline JOB_REFUSED (log entry 19) and an alignment of a slot whose stay has ended STALE.
BADGER_DEADLINE before the tick does nothing, and at the tick of a host job that may carry nothing ends the job and its command
with DEADLINE_MISS. (Clauses that rest on the model's own choices or readings: log entries 19 and 20.) (11_badger.md,
14_host_link.md) -/
def Obligations.JobsOfBadger : Prop :=
  ∀ (s : State) (r : CmdRef) (c : Cmd),
    (s.starting r 0x30 = some c → c.feature = some 9 → s.committed 9 = true →
      c.fieldsOk (fun c => decide (1 ≤ c.arg 24 1) && decide (c.arg 24 1 ≤ 3) && decide (c.arg 25 1 ≤ 1)
        && (c.arg 24 1 != 1 || (decide (c.arg 32 4 ≤ c.arg 36 4) && decide (c.arg 36 4 < 262144)))
        && (c.arg 24 1 != 2 || decide (c.arg 40 1 < 64))) = true →
      (c.arg 25 1 = 1 → c.arg 28 4 = 0 → exec (.badgerJob r) s = .next { s with toBlock := s.toBlock.finish r 0x33 0 0 0 })
      ∧ (c.arg 24 1 = 3 → c.arg 25 1 = 0 → Completes (.badgerJob r) s fun t =>
        t.host = (s.toBlock.stage r .running).host ∧ t = { s.toBlock with host := t.host })
      ∧ (c.arg 24 1 = 2 → c.arg 25 1 = 0 → (s.guest (c.arg 40 1)).gen.toNat ≠ c.arg 42 2 →
        exec (.badgerJob r) s = .next { s with toBlock := s.toBlock.finish r 0x44 0 0 0 })
      ∧ (c.arg 24 1 = 1 → c.arg 25 1 = 0 → s.map.kfs = [] → s.map.edgeTop = 0 → s.flt.tiles ≠ 0 → Completes (.badgerJob r) s fun t =>
        (∃ j : Job, t.badger.jobs = s.badger.jobs ++ [j] ∧ j.cls = 1 ∧ j.host = true ∧ j.owner = some r ∧ j.tag = r.id ∧ j.no = s.badger.nextNo
            ∧ j.carry = false ∧ (c.arg 28 4 = 0 → j.deadline = none) ∧ (c.arg 28 4 ≠ 0 → j.deadline = some (c.order + c.arg 28 4)))
          ∧ t.host = (s.toBlock.stage r .running).host ∧ t = { s.toBlock with badger := t.badger, host := t.host }))
    ∧ (∀ (n : Nat) (j : Job) (d : Tick), s.job n = some j → j.deadline = some d →
      (s.now < d → exec (.badgerDeadline n) s = .next s)
      ∧ (d ≤ s.now → s.boot.phase = .ready → j.host = true → j.carry = false → j.owner = some r → Completes (.badgerDeadline n) s fun t =>
        t.badger = Badger.deal { s.badger with jobs := s.badger.jobs.filter fun x => x.no != n }
          ∧ t = { s.toBlock with badger := t.badger, host := t.host }
          ∧ (∀ k : Cmd, s.cmd r = some k → (t.host.queues.getD r.q {}).cmds.any (fun x => x.id == r.id && x.stage == .finished && x.status == 0x30) = true)))
    ∧ (∀ n : Nat, s.job n = none → exec (.badgerDeadline n) s = .next s)

/-- A block operation, its pivots and fences, and the decision of an iteration. A block operation on a tile that is not live, or of a
job that waits or is past its deadline, has no effect. The next operation of the job that the tile works for seals the blocks that
it computes under the tile's unit and counts the landmarks it drops; one that trips a fence is counted, lowers that block's format
and seals nothing. A pivot that is not tiny stands; a tiny one counts, and gains lambda_reg or becomes it. An iteration whose solve
is not complete is not decided; one that lowers the cost is accepted, takes its iterate and divides lambda by 4, one that does not
keeps the iterate and multiplies lambda by 4, and ILL_POSED multiplies it by 10; lambda never falls below 1 step of its format.
(Clauses that rest on the model's own choices or readings: log entries 6, 16, 20, 56, 95 and 101.) (11_badger.md) -/
def Obligations.TilesAndIterations : Prop :=
  ∀ (s : State) (n : Nat) (j : Job), s.job n = some j →
    (∀ (tile : Fin 16) (op : BlockOp) (ok : Bool) (x : Reads), s.works j = false ∨ s.flt.tiles.getLsbD tile = false →
      exec (.badgerBlockOpDone n tile op ok x) s = .next { s with badger := s.badger.deal })
    ∧ (∀ tile : Fin 16, s.works j = true → s.flt.tiles.getLsbD tile = true → s.badger.deal.tiles.getD tile none = some n → j.redo = [] →
      (j.work ≠ .linearise → j.work ≠ .solved → (∀ p ∈ j.reading, sealFault p = none) →
        (∀ o : OpOut, j.run j.work = .ok o → Completes (.badgerBlockOpDone n tile .next true []) s fun t =>
          (∃ k : Job, t.job n = some k ∧ k.x = j.x ∧ k.lam = j.lam ∧ k.accepted = j.accepted ∧ k.trips = j.trips ∧ k.tinyAll = j.tinyAll + o.tiny
              ∧ ∀ x, o.outs.getLast? = some x → ∃ m ∈ k.store, m.2 = j.reading.map Parcel.ref ∧ m.1.producer = tileUnit tile ∧ m.1.type = 0x0602
                  ∧ m.1.payload = blockPayload (BitVec.ofNat 32 x.1.2.1) (BitVec.ofNat 32 x.1.2.2) (j.keyFmt x.1) x.2)
            ∧ t = { s.toBlock with
                badger := { s.badger with jobs := t.badger.jobs, tiles := t.badger.tiles, lmDropped := bumpBy s.badger.lmDropped o.lost }
                host := t.host, flt := { s.flt with traceDrop := t.flt.traceDrop } })
        ∧ (∀ k : Place, j.run j.work = .error k → tripFaults j (j.keyFmt k) = false → Completes (.badgerBlockOpDone n tile .next true []) s fun t =>
          t.job n = some (j.lowered (j.keyFmt k) (BitVec.ofNat 32 k.2.1) (BitVec.ofNat 32 k.2.2))
            ∧ t = { s.toBlock with
                badger := { s.badger with jobs := t.badger.jobs, tiles := t.badger.tiles, rangeTrips := bump s.badger.rangeTrips } }))
      ∧ (j.work = .linearise → j.pcg = false → (∀ p ∈ j.reading, sealFault p = none) → Completes (.badgerBlockOpDone n tile .linearised true []) s fun t =>
          t.job n = some (Job.moved { j with lastTile := tile })
            ∧ t = { s.toBlock with badger := { s.badger with jobs := t.badger.jobs, tiles := t.badger.tiles } }))
    ∧ (∀ (frac : Nat) (p : Dy),
        (tinyPivot (j.tau j.m frac) p = false → j.pivotOf frac p = (p, 0))
        ∧ (tinyPivot (j.tau j.m frac) p = true → (j.pivotOf frac p).2 = 1
          ∧ (j.pivotOf frac p).1 = if tinyPivot (j.tau j.m frac) (p.add (j.lamReg j.m frac)) then j.lamReg j.m frac else p.add (j.lamReg j.m frac)))
    ∧ (s.works j = true → ∀ (d : IterIn) (c : Int), j.cls ≠ 3 → j.cost = some c → j.decided ≠ 0 →
        (j.solves = false → exec (.badgerIterationDecide n d) s = .next s)
        ∧ (j.solves = true → j.decided + 1 < j.maxOuter →
          (c ≤ d.cTry → Completes (.badgerIterationDecide n d) s fun t =>
            (∃ k : Job, t.job n = some k ∧ k.x = j.x ∧ k.cost = some c ∧ k.accepted = j.accepted ∧ k.decided = j.decided + 1
              ∧ k.lam = nextLambda j.lam j.ill false ∧ k.store = [] ∧ k.work = .linearise)
              ∧ t = { s.toBlock with badger := { s.badger with jobs := t.badger.jobs } })
          ∧ (d.cTry < c → lmStops j.resEps j.stepMin d.grad2 (j.g0.getD d.init.2) (if j.pcg then d.maxDx else j.maxStep) = false →
            Completes (.badgerIterationDecide n d) s fun t =>
              (∃ k : Job, t.job n = some k ∧ k.x = d.x ∧ k.cost = some d.cTry ∧ k.accepted = j.accepted + 1 ∧ k.decided = j.decided + 1
                ∧ k.lam = nextLambda j.lam j.ill true ∧ k.store = [] ∧ k.work = .linearise)
                ∧ t = { s.toBlock with badger := { s.badger with jobs := t.badger.jobs } })))
    ∧ (∀ (l : Nat) (ill acc : Bool), 1 ≤ nextLambda l ill acc ∧ nextLambda l ill acc < 2 ^ 32
        ∧ (l * 10 < 2 ^ 32 → 1 ≤ l → nextLambda l true acc = l * 10) ∧ (l * 4 < 2 ^ 32 → 1 ≤ l → nextLambda l false false = l * 4))

/-- A map write stores one parcel and leaves every other byte of Den. MAP_WRITE of an existing keyframe's head stores the parcel that
the pair in control seals at the keyframe's current address, of a KF_OBS, points or edges parcel at the address of its number, and
of a posting into an empty bucket at the first free byte of the pool; every byte outside the stored parcel reads as before, and
settings, time and jobs stand, where nothing it reads has an uncorrectable error. It does nothing outside READY or for a keyframe
that does not exist. (Clauses that rest on the model's own choices or readings: log entries 2, 13, 14 and 21.) (12_den.md) -/
def Obligations.MapWrites : Prop :=
  ∀ (s : State) (o : MapObj), Memory.wf s.den.mem = true →
    let ins := o.inputs.map Parcel.ref
    let wrote (t : Block) (p : Parcel) (a : Nat) : Prop :=
      memBytes t.den.mem a p.stored.length = p.stored ∧ (∀ x : Nat, x < a ∨ a + p.stored.length ≤ x → memRead t.den.mem x = memRead s.den.mem x)
        ∧ t = { s.toBlock with den := { s.den with mem := t.den.mem, ue := t.den.ue }, map := t.map, host := t.host, flt := t.flt, trail := t.trail, fresh := t.fresh }
    (s.boot.phase ≠ .ready → exec (.mapWrite o) s = .next s)
    ∧ (s.kf o.index = none → (o.kind = .kfHead ∨ o.kind = .kfObs) → exec (.mapWrite o) s = .next s)
    ∧ (s.boot.phase = .ready → s.den.ue = [] →
      (∀ k : KfDir, o.kind = .kfHead → s.kf o.index = some k → Completes (.mapWrite o) s fun t =>
        ∃ pay : Bytes, pay.length = 256 ∧ field pay 0 4 = k.id % 2 ^ 32 ∧ field pay 4 1 % 2 = k.hot.isSome.toNat
          ∧ (∀ i < 256, 112 ≤ i → pay.getD i 0 = o.payload.getD i 0)
          ∧ (s.mapParcel .kfHead (kfAddr k) pay ins).stored.length = 320 ∧ wrote t (s.mapParcel .kfHead (kfAddr k) pay ins) (kfAddr k))
      ∧ (s.den.dramAbsent = false →
        (∀ h : Bytes, o.kind = .kfObs → (s.kf o.index).isSome = true → s.kfHead o.index = h → o.sub < field h 31 1 → field h 104 8 ≠ 0 →
          Completes (.mapWrite o) s fun t => wrote t (s.mapParcel .kfObs (field h 104 8 + 4096 * o.sub) o.payload ins) (field h 104 8 + 4096 * o.sub))
        ∧ (o.kind = .points → o.index < 133152 → o.payload = List.replicate 4048 0 → Completes (.mapWrite o) s fun t =>
          wrote t (s.mapParcel .points (pointsAddr o.index) (leBytes 4 (63 * o.index) ++ [63, 0, 0, 0] ++ List.replicate 4040 0) ins) (pointsAddr o.index)
            ∧ t.map.ptTop = max s.map.ptTop (63 * o.index + 63))
        ∧ (o.kind = .edges → o.index < 40960 → o.payload = List.replicate 4016 0 → Completes (.mapWrite o) s fun t =>
          wrote t (s.mapParcel .edges (edgesAddr o.index) (leBytes 4 (50 * o.index) ++ [50, 0, 0, 0] ++ List.replicate 4008 0) ins) (edgesAddr o.index)
            ∧ t.map.edgeTop = max s.map.edgeTop (50 * o.index + 50))
        ∧ (∀ key : Nat, o.kind = .postings → (placeSamples (obsRecords (s.kfObs o.index)))[o.sub]? = some key →
          (s.map.buckets.find? fun x => x.key == key) = none → s.map.poolNext + 128 ≤ s.poolEnd → Completes (.mapWrite o) s fun t =>
          wrote t (s.mapParcel .postings s.map.poolNext (leBytes 2 key ++ [1, 0] ++ List.replicate 12 0 ++ leBytes 4 o.index ++ List.replicate 60 0) ins)
              s.map.poolNext
            ∧ t.map.buckets.find? (fun x => x.key == key) = some ⟨key, [s.map.poolNext], 1⟩)))

/-- A keyframe goes cold, and what the scrubbers and the calibration leave. HOT_COLD_MOVE of a hot keyframe to cold writes its head,
HOT clear, at its own place in DRAM, frees the slot and leaves every byte outside that head; moves of keyframes that do not exist
change only the count of moves. SRAM_SCRUB and DRAM_SCRUB of a clean line change no counter, a corrected error counts one in
SRAM_CE, DRAM_CE or LINK_CE. ZQ_CALIBRATION drives one step and notes its tick, and nothing without DRAM. (Clauses that rest on
the model's own choices or readings: log entries 14 and 53.) (12_den.md, 16_faults.md) -/
def Obligations.HotMovesAndScrubs : Prop :=
  ∀ s : State,
    (∀ ms : List HotMove, s.boot.phase = .ready → s.map.moved ≤ 64 → (∀ m ∈ ms, s.kf m.kf = none) → exec (.hotColdMove ms) s = .next { s with
        map := { s.map with moved := s.map.moved + min (64 - s.map.moved) ms.length } })
    ∧ (∀ (id h : Nat), s.boot.phase = .ready → s.map.moved < 64 → s.kf id = some ⟨id, some h⟩ → s.den.dramAbsent = false → Memory.wf s.den.mem = true → s.den.ue = [] →
      Completes (.hotColdMove [⟨id, false⟩]) s fun t =>
        t.kf id = some ⟨id, none⟩ ∧ t.map.moved = s.map.moved + 1
          ∧ (∀ p : Parcel, p = s.mapParcel .kfHead (headAddr id) (withHot none (s.object (hotAddr h))) ((s.storedAt (hotAddr h)).map Parcel.ref).toList →
            memBytes t.den.mem (headAddr id) p.stored.length = p.stored ∧ p.stored.length = 320)
          ∧ (∀ x : Nat, x < headAddr id ∨ headAddr id + 320 ≤ x → memRead t.den.mem x = memRead s.den.mem x)
          ∧ t = { s.toBlock with den := { s.den with mem := t.den.mem, ue := t.den.ue }, map := { s.map with kfs := t.map.kfs, moved := t.map.moved }
                                 host := t.host, flt := t.flt })
    ∧ (∀ (ms : List HotMove), s.boot.phase ≠ .ready → exec (.hotColdMove ms) s = .next s)
    ∧ (∀ a : BitVec 40, exec (.sramScrub a .clean) s = .next s)
    ∧ (∀ a : BitVec 40, s.detects = true → a.toNat < 0x2000000 → exec (.sramScrub a .single) s = .next { s with
        den := { s.den with sramCe := bump s.den.sramCe } })
    ∧ (∀ a : BitVec 40, s.boot.phase = .ready → 0x100000000 ≤ a.toNat → a.toNat < s.dramTop →
      (∀ l, exec (.dramScrub a .clean l) s = .next { s with den := { s.den with scrubAt := s.now } })
      ∧ exec (.dramScrub a .single true) s = .next { s with den := { s.den with scrubAt := s.now, linkCe := bump s.den.linkCe } }
      ∧ exec (.dramScrub a .single false) s = .next { s with den := { s.den with scrubAt := s.now, dramCe := bump s.den.dramCe } })
    ∧ (∀ (a : BitVec 40) (f : EccFind) l, s.dramTop ≤ a.toNat → exec (.dramScrub a f l) s = .next s)
    ∧ (s.boot.phase = .ready → s.den.dramAbsent = false → exec .zqCalibration s = .next { s with
        den := { s.den with zqAt := s.now }, host := { s.host with out := s.host.out ++ [.zqCal] } })
    ∧ (s.den.dramAbsent = true → exec .zqCalibration s = .next s)

/-- BAR4: windows, reads, and writes that are dropped. Every memory write to BAR4 is counted in BAR4_WRITES_DROPPED and changes
nothing else, memory least of all. DEN_WINDOW_OPEN opens a free window over memory outside the protected regions and otherwise
ends WINDOW_REFUSED, DEN_WINDOW_CLOSE closes an open one; a read inside a window answers the bytes of Den it maps to and one that
leaves every window Unsupported Request, and neither changes Den. (R431) -/
def Obligations.Bar4Windows : Prop :=
  ∀ (s : State),
    (∀ (o : Nat) (d : Bytes), s.link.up = true → exec (.bar4Write o d) s = .next { s with den := { s.den with bar4Drop := bump s.den.bar4Drop } })
    ∧ (∀ (o : Nat) (d : Bytes), Completes (.bar4Write o d) s fun t => t.den.mem = s.den.mem)
    ∧ (∀ (r : CmdRef) (c : Cmd), c.fieldsOk (fun c => decide (c.arg 24 1 < 8)) = true → c.feature = some 11 → s.committed 11 = true →
      (s.starting r 0x60 = some c →
        (s.windowOk c = true → exec (.denWindowOpen r) s = .next { s with toBlock := Block.finish r 0 0 0 0 { s.toBlock with
            den := { s.den with windows := s.den.windows.set (c.arg 24 1) (some ⟨c.arg 32 8, c.arg 40 8, c.arg 48 8⟩) } } })
        ∧ (s.windowOk c = false → exec (.denWindowOpen r) s = .next { s with toBlock := Block.finish r 0x50 0 0 0 s.toBlock })
        ∧ (s.windowOk c = true → c.arg 32 8 + c.arg 48 8 ≤ 2 ^ 28 ∧ 0 < c.arg 48 8 ∧ (∃ q, s.region (c.arg 40 8) = some q ∧ isProtected q = false)))
      ∧ (s.starting r 0x61 = some c →
        (s.den.windows.getD (c.arg 24 1) none ≠ none → exec (.denWindowClose r) s = .next { s with toBlock := Block.finish r 0 0 0 0 { s.toBlock with
            den := { s.den with windows := s.den.windows.set (c.arg 24 1) none } } })
        ∧ (s.den.windows.getD (c.arg 24 1) none = none → exec (.denWindowClose r) s = .next { s with toBlock := Block.finish r 0x50 0 0 0 s.toBlock })))
    ∧ (∀ (off n a : Nat), s.link.up = true → (∀ i < n, s.bar4Addr (off + i) = some (a + i) ∧ (a + i) / 64 ∉ s.den.ue) →
      exec (.bar4Read off n) s = .next { s with host := { s.host with
        out := s.host.out ++ [.readReply (memBytes s.den.mem a n)] } })
    ∧ (∀ (off n i : Nat), s.link.up = true → i < n → s.bar4Addr (off + i) = none → exec (.bar4Read off n) s = .next { s with
        host := { s.host with out := s.host.out ++ [.unsupported] } })

/-- Opening, feeding and closing a stay. GUEST_OPEN of a GUEST_ID at home that holds no slot assigns the lowest free one, ARRIVING in
the next generation with nothing staged, and answers slot and generation; a guest of another chip ends NOT_HOME, one that holds a
slot ID_IN_USE, and no free slot NO_SLOT. A fragment that nothing refuses is staged in its slot. GUEST_CLOSE with the slot's
generation ends the stay, with another it ends GUEST_STALE. A generation is never 0. (Clauses that rest on the model's own choices
or readings: log entries 15, 17 and 57.) (13_guests.md, 14_host_link.md) -/
def Obligations.GuestCommands : Prop :=
  (∀ (s : State) (r : CmdRef) (c : Cmd), c.feature = some 5 → s.committed 5 = true → c.fieldsOk (fun _ => true) = true →
    (s.starting r 0x50 = some c →
      (s.den.dramAbsent = true → exec (.guestOpen r) s = .next { s with toBlock := s.toBlock.finish r 0x43 0 0 0 })
      ∧ (s.den.dramAbsent = false →
        (s.homeChip (c.arg 32 8) ≠ s.trail.chip.toNat → exec (.guestOpen r) s = .next { s with toBlock := s.toBlock.finish r 0x42 0 (s.homeChip (c.arg 32 8)) 0 })
        ∧ (s.homeChip (c.arg 32 8) = s.trail.chip.toNat →
          (∀ g : Nat, s.guestHolding (c.arg 32 8) = some g → exec (.guestOpen r) s = .next { s with toBlock := s.toBlock.finish r 0x41 g (s.guest g).gen.toNat 0 })
          ∧ (s.guestHolding (c.arg 32 8) = none → s.freeGuest = none → exec (.guestOpen r) s = .next { s with toBlock := s.toBlock.finish r 0x40 0 0 0 })
          ∧ (∀ g : Nat, s.guestHolding (c.arg 32 8) = none → s.freeGuest = some g → s.guests.length = 64 → Completes (.guestOpen r) s fun t =>
            g < 64 ∧ (s.guest g).st = .free ∧ (∀ f < g, (s.guest f).st ≠ .free)
              ∧ (t.guest g).st = .arriving ∧ (t.guest g).gen = nextGen (s.guest g).gen ∧ (t.guest g).gid = BitVec.ofNat 64 (c.arg 32 8)
              ∧ (t.guest g).staged = [] ∧ (t.guest g).lastFrag = 0 ∧ (∀ f : Nat, f ≠ g → t.guest f = s.guest f)
              ∧ t.host = (s.toBlock.finish r 0 g (nextGen (s.guest g).gen).toNat 0).host ∧ t = { s.toBlock with guests := t.guests, host := t.host }))))
    ∧ (s.starting r 0x51 = some c →
      (c.arg 28 4 = 0 → c.arg 16 4 = 0 → exec (.guestFragment r) s = .next { s with toBlock := s.toBlock.finish r 0 0 0 0 })
      ∧ (c.arg 28 4 ≠ 0 → exec (.guestFragment r) s = .next { s with toBlock := s.toBlock.stage r .running })))
  ∧ (∀ (s : State) (r : CmdRef) (c : Cmd) (p : Parcel), (s.host.queues.getD r.q {}).cmds.find? (fun c => c.id == r.id && s.reading r c) = some c →
      c.op = 0x51 → c.heads = true → s.hostFault p = none → s.fragRefusal (s.hostSealed p) false = none → s.guests.length = 64 →
      Completes (.dmaReadCompletion r (.parcel p)) s fun t =>
        (t.guest (field (s.hostSealed p).payload 0 1)).staged = (s.guest (field (s.hostSealed p).payload 0 1)).staged ++ [s.hostSealed p]
          ∧ (t.guest (field (s.hostSealed p).payload 0 1)).lastFrag = BitVec.ofNat 32 (field (s.hostSealed p).payload 4 4)
          ∧ t = { s.toBlock with guests := t.guests, host := t.host })
  ∧ (∀ (s : State) (r : CmdRef) (c : Cmd), c.feature = some 5 → s.committed 5 = true → c.fieldsOk (fun c => decide (c.arg 24 1 < 64)) = true →
    s.starting r 0x52 = some c →
      ((s.guest (c.arg 24 1)).gen.toNat ≠ c.arg 26 2 → exec (.guestClose r) s = .next { s with toBlock := s.toBlock.finish r 0x44 0 0 0 })
      ∧ ((s.guest (c.arg 24 1)).gen.toNat = c.arg 26 2 → (s.guest (c.arg 24 1)).st.accepts = true → s.guests.length = 64 →
        Completes (.guestClose r) s fun t =>
          (t.guest (c.arg 24 1)).st = .evicting ∧ (t.guest (c.arg 24 1)).staged = [] ∧ (t.guest (c.arg 24 1)).cause = 1
            ∧ (∀ f : Nat, f ≠ c.arg 24 1 → t.guest f = s.guest f)
            ∧ t.badger.jobs = s.badger.jobs.filter (fun j => !(j.guest == some (c.arg 24 1, (s.guest (c.arg 24 1)).gen)))
            ∧ t = { s.toBlock with guests := t.guests, badger := { s.badger with jobs := t.badger.jobs }, host := t.host }))
  ∧ (∀ g : BitVec 16, nextGen g ≠ 0 ∧ (g ≠ 0xFFFF → nextGen g = g + 1))

/-- A stay from its alignment to its slot's release. GUEST_ALIGN_START of an ARRIVING slot with enough keyframes starts a class 2 job
and ALIGNING when 7 correspondences are found, and otherwise counts a failed attempt. GUEST_MERGE takes the one staged fragment of
a MERGED slot out of its staging and counts the merge, and purges an evicting stay's keyframes. GUEST_IDLE_EXPIRY evicts a slot
nothing was staged in for IDLE_EPOCHS; the eviction completes in a later epoch than its last purge, and the slot is FREE two
boundaries on, its generation kept. (Clauses that rest on the model's own choices or readings: log entries 6, 22 and 57.)
(13_guests.md) -/
def Obligations.GuestStays : Prop :=
  ∀ (s : State) (k : Fin 64), s.boot.phase = .ready → s.guests.length = 64 →
    (∀ (xs : List (Nat × Sample)), (s.guest k).st = .arriving → s.minAlignKf ≤ ((s.guest k).kfs.filter (s.guest k).obsKfs.contains).length →
      (s.guest k).alignAt ≤ (s.guest k).kfs.length → s.map.rebuild = false → s.den.dramAbsent = false → s.useSlot 4 = none →
      let ps := sortBy (fun x y => fp32Lt y.score x.score || (!fp32Lt x.score y.score && decide (x.guest.toNat ≤ y.guest.toNat))) (s.alignPairs k xs).2.1
      let cs := (ps.flatMap fun x => s.pairMatches k x).take 4096
      (7 ≤ cs.length → s.flt.tiles ≠ 0 → Completes (.guestAlignStart k xs) s fun t =>
        t.guest k = { s.guest k with st := .aligning, job := some s.badger.nextNo, pairs := ps.map fun x => (x.guest.toNat, x.own), corrs := cs }
          ∧ (∃ j : Job, t.badger.jobs = s.badger.jobs ++ [j] ∧ j.cls = 2 ∧ j.host = false ∧ j.guest = some (k.val, (s.guest k).gen)
            ∧ j.points = cs.length ∧ j.deadline = some (s.now + s.gaDeadline) ∧ j.no = s.badger.nextNo)
          ∧ t.cfg = s.cfg ∧ t.den = s.den ∧ t.map = s.map ∧ t.thermos = s.thermos)
      ∧ (cs.length < 7 → (s.guest k).attempts + 1 < s.alignAttempts → Completes (.guestAlignStart k xs) s fun t =>
        (t.guest k).st = .arriving ∧ (t.guest k).attempts = (s.guest k).attempts + 1 ∧ (t.guest k).staged = (s.guest k).staged
          ∧ (t.guest k).alignAt = (s.guest k).kfs.length + s.minAlignKf ∧ t.badger = s.badger ∧ t.den = s.den ∧ t.map = s.map))
    ∧ ((s.guest k).st ≠ .arriving → ∀ xs, exec (.guestAlignStart k xs) s = .next s)
    ∧ (s.pwr.paused = false → s.den.dramAbsent = false →
      (∀ p : Parcel, (s.guest k).st = .merged → (s.guest k).staged = [p] → sealFault p = none → s.den.ue = [] → s.map.merged < s.mergePerEpoch →
        (∀ f : Fin 64, (f ≠ k → (s.guest f).staged = []) ∧ (s.guest f).st ≠ .evicting) → Completes (.guestMerge []) s fun t =>
          (t.guest k).staged = [] ∧ (t.guest k).merges = (s.guest k).merges + 1 ∧ t.map.merged = s.map.merged + 1
            ∧ (t.guest k).mergedFrag = BitVec.ofNat 32 (field p.payload 4 4) ∧ (t.guest k).st = .merged
            ∧ t.cfg = s.cfg ∧ t.ep = s.ep ∧ t.badger = s.badger ∧ t.thermos = s.thermos)
      ∧ ((s.guest k).st = .evicting → (∀ f : Fin 64, (s.guest f).staged = [] ∧ (f ≠ k → (s.guest f).st ≠ .evicting)) → s.badger.jobs = [] →
        s.map.ptTop = 0 → s.map.edgeTop = 0 → (s.guest k).purge ≠ [] → Completes (.guestMerge []) s fun t =>
          (t.guest k).purge = [] ∧ t.map.kfs = s.map.kfs.filter (fun x => !((s.guest k).purge.map BitVec.toNat).contains x.id)
            ∧ (t.guest k).since = s.ep.now.toNat ∧ t.den = s.den ∧ t = { s.toBlock with guests := t.guests, map := { s.map with kfs := t.map.kfs } }))
    ∧ ((s.guest k).st.accepts = true →
      (s.idleEpochs ≠ 0 → (s.guest k).stagedAt + s.idleEpochs ≤ s.ep.now.toNat → Completes (.guestIdleExpiry k) s fun t =>
        (t.guest k).st = .evicting ∧ (t.guest k).cause = 2 ∧ (t.guest k).staged = [] ∧ (t.guest k).gen = (s.guest k).gen
          ∧ t = { s.toBlock with guests := t.guests, badger := { s.badger with jobs := t.badger.jobs } })
      ∧ (s.idleEpochs = 0 ∨ s.ep.now.toNat < (s.guest k).stagedAt + s.idleEpochs → exec (.guestIdleExpiry k) s = .next s))
    ∧ ((s.guest k).st = .evicting → (s.guest k).purge = [] →
      ((s.guest k).since < s.ep.now.toNat → Completes (.guestEvictComplete k) s fun t =>
        t.guests = s.guests.modify k (fun g => { g with st := .cooling, doneAt := s.ep.now.toNat })
          ∧ t = { s.toBlock with guests := t.guests, host := t.host, flt := t.flt, fresh := t.fresh })
      ∧ (s.ep.now.toNat ≤ (s.guest k).since → exec (.guestEvictComplete k) s = .next s))
    ∧ ((s.guest k).st = .cooling →
      ((s.guest k).doneAt + 2 ≤ s.ep.now.toNat → exec (.guestCoolingEnd k) s = .next { s with
        guests := s.guests.modify k fun g => { g with st := .free } })
      ∧ (s.ep.now.toNat < (s.guest k).doneAt + 2 → exec (.guestCoolingEnd k) s = .next s))

/-- The doorbells, the coalescing timer and the sideband. SQ_TAIL_DOORBELL and CQ_HEAD_DOORBELL of an enabled queue take a value below
the queue's size; a value at or above it sets DOORBELL_ERR, after which the queue takes no doorbell; a disabled queue takes none.
STREAM_HEAD_DOORBELL of an open stream takes a head that the tail is at most SLOT_COUNT beyond, and any other sets DOORBELL_ERR. A
write that is no doorbell is counted and changes nothing else. MSIX_COALESCE_TIMER of a queue's vector whose time has run out
clears the count and signals the vector, and before that does nothing. SIDEBAND_READ returns a latched copy of 1 KiB: the status
block with its version and CRC, then the pose mirror, wrapping at the end, from any address; any other command byte returns zeros;
neither changes anything else, and in THERMOS_POR nothing happens. (Clauses that rest on the model's own choices or readings: log
entries 5, 45 and 47.) (14_host_link.md, 19_registers.md) -/
def Obligations.DoorbellsTimersSideband : Prop :=
  (∀ s : State,
      (∀ (q : Fin 16) (v : BitVec 32), q < s.host.queues.length →
        ((s.queue q).enabled = false ∨ (s.queue q).bellErr = true → exec (.sqTailDoorbell q v) s = .next s ∧ exec (.cqHeadDoorbell q v) s = .next s)
        ∧ ((s.queue q).enabled = true → (s.queue q).bellErr = false →
          (v.toNat < (s.queue q).sqSize.toNat → v.toNat ≠ (s.queue q).sqTail → exec (.sqTailDoorbell q v) s = .next { s with host := { s.host with
              queues := s.host.queues.modify q fun x => { x with sqTail := v.toNat, bells := x.bells ++ [(v.toNat, s.now)] } } })
          ∧ (v.toNat < (s.queue q).cqSize.toNat → exec (.cqHeadDoorbell q v) s = .next { s with host := { s.host with
              queues := s.host.queues.modify q fun x => { x with cqHead := v.toNat } } })
          ∧ (∀ c : Instr, (c = .sqTailDoorbell q v ∧ (s.queue q).sqSize.toNat ≤ v.toNat) ∨ (c = .cqHeadDoorbell q v ∧ (s.queue q).cqSize.toNat ≤ v.toNat) →
            Completes c s fun t =>
              t.host.queues = s.host.queues.modify q (fun x => { x with bellErr := true }) ∧ t.host.eventCause.getLsbD 2 = true
                ∧ (t.queue q).mayFetch = false ∧ t = { s.toBlock with host := t.host, link := t.link })))
      ∧ (∀ (k : Fin 8) (v : BitVec 32), (s.stream k).isOpen = true →
        ((s.stream k).tail - v).toNat ≤ (s.stream k).slots.toNat → exec (.streamHeadDoorbell k v) s = .next { s with host := { s.host with
            streams := s.host.streams.modify k fun x => { x with head := v } } })
      ∧ (∀ (k : Fin 8) (v : BitVec 32), (s.stream k).isOpen = true → (s.stream k).bellErr = false →
        (s.stream k).slots.toNat < ((s.stream k).tail - v).toNat → Completes (.streamHeadDoorbell k v) s fun t =>
          t.host.streams = s.host.streams.modify k (fun x => { x with bellErr := true }) ∧ t.host.eventCause.getLsbD 3 = true
            ∧ t = { s.toBlock with host := t.host, link := t.link })
      ∧ (∀ (k : Fin 8) (v : BitVec 32), (s.stream k).isOpen = false → exec (.streamHeadDoorbell k v) s = .next s)
      ∧ (∀ o n : Nat, n ≠ 4 ∨ 0xC000 ≤ o ∨ o % 4 ≠ 0 → exec (.badDoorbell o n) s = .next { s with
          host := { s.host with badBell := bump s.host.badBell } }))
  ∧ (∀ s : State,
      (∀ q : Fin 16, 0 < (s.queue q).unsig → q < s.host.queues.length →
        ((s.queue q).unsigAt + us (s.queue q).coalUs.toNat ≤ s.now → ∀ v : Fin 32, v.val = q.val + 1 → Completes (.msixCoalesceTimer v) s fun t =>
          (t.queue q) = { s.queue q with unsig := 0 } ∧ (∀ p : Nat, p ≠ q → t.queue p = s.queue p)
            ∧ (s.link.live = true → s.link.msixOn = true → (s.link.msix.getD v {}).mask = false → t.host.out = s.host.out ++ [.msix v])
            ∧ t = { s.toBlock with host := t.host, link := t.link })
        ∧ (s.now < (s.queue q).unsigAt + us (s.queue q).coalUs.toNat → ∀ v : Fin 32, v.val = q.val + 1 → exec (.msixCoalesceTimer v) s = .next s))
      ∧ (s.boot.phase ≠ .thermosPor →
        (∀ (a : BitVec 16) (n : Nat), exec (.sidebandRead 0x0B a n) s = .next { s with fresh := s.fresh + 1, host := { s.host with
            out := s.host.out ++ [.sideband ((List.range n).map fun i => s.sidebandCopy.getD ((a.toNat + i) % 1024) 0)] } })
        ∧ (∀ (c : Byte) (a : BitVec 16) (n : Nat), c ≠ 0x0B → exec (.sidebandRead c a n) s = .next { s with host := { s.host with
            out := s.host.out ++ [.sideband (List.replicate n 0)] } }))
      ∧ (s.boot.phase = .thermosPor → ∀ c a n, exec (.sidebandRead c a n) s = .next s)
      ∧ (s.sidebandCopy.length = 1024 ∧ field s.sidebandCopy 0 2 = 1 ∧ field s.sidebandCopy 2 1 = phaseCode s.boot.phase
          ∧ field s.sidebandCopy 16 8 = s.now ∧ field s.sidebandCopy 24 8 = s.ep.now.toNat
          ∧ field s.sidebandCopy 60 4 = (crc32c (s.sidebandCopy.take 60)).toNat)
      ∧ (s.committed featMirror = false → s.sidebandCopy.drop 64 = List.replicate 960 0))

/-- A command is fetched, aborted or run, and completed in order. COMMAND_FETCH of a queue with an unfetched entry and room for its
completion takes the entry to the end of its commands; NOP ends OK; ABORT of a command short of its commit point ends it ABORTED
and itself OK, and of one that does not exist NOTHING_TO_ABORT; COMPLETION_WRITE writes the oldest ended command's 32 bytes and
removes it, and nothing while the oldest has not ended. A pair never holds more than CQ_SIZE - 1 commands after a fetch. (Clauses
that rest on the model's own choices or readings: log entries 11, 46 and 48.) (14_host_link.md) -/
def Obligations.FetchAndComplete : Prop :=
  ∀ s : State,
    (∀ (q : Fin 16) (e : BitVec 512), q < s.host.queues.length →
      (s.boot.phase = .ready → s.link.live = true → (s.queue q).mayFetch = true → Completes (.commandFetch q e) s fun t =>
        (∃ c : Cmd, (t.queue q).cmds = (s.queue q).cmds ++ [c] ∧ c.id = e.extractLsb' 32 32 ∧ c.op = e.extractLsb' 0 8 ∧ c.entry = e
            ∧ (c.stage = .fetched ∨ (c.stage = .finished ∧ c.status = 3)))
          ∧ (t.queue q).sqHead = ((s.queue q).sqHead + 1) % (s.queue q).sqSize.toNat ∧ (t.queue q).sqTail = (s.queue q).sqTail
          ∧ (t.queue q).cmds.length + (t.queue q).unread < (s.queue q).cqSize.toNat
          ∧ (∀ p : Nat, p ≠ q → t.queue p = s.queue p) ∧ t = { s.toBlock with host := { s.host with queues := t.host.queues } })
      ∧ ((s.queue q).sqHead = (s.queue q).sqTail → exec (.commandFetch q e) s = .next s)
      ∧ (s.boot.phase = .ready → s.link.live = true → (s.queue q).enabled = true → (s.queue q).held = false →
        (∀ (c : Cmd) (cs : List Cmd), (s.queue q).cmds = c :: cs →
          (c.stage = .finished → c.outs = [] → Completes (.completionWrite q) s fun t =>
            (∃ ms : List Out, t.host.out = s.host.out ++ .memWrite (BitVec.ofNat 64 ((s.queue q).cqBase.toNat + 32 * (s.queue q).cqTail))
                (completionBytes q (s.queue q) c) :: ms)
              ∧ (t.queue q).cmds = cs ∧ (completionBytes q (s.queue q) c).length = 32
              ∧ (t.queue q).cqTail = (if (s.queue q).cqTail + 1 = (s.queue q).cqSize.toNat then 0 else (s.queue q).cqTail + 1)
              ∧ (t.queue q).phase = (if (s.queue q).cqTail + 1 = (s.queue q).cqSize.toNat then !(s.queue q).phase else (s.queue q).phase)
              ∧ (∀ p : Nat, p ≠ q → t.queue p = s.queue p) ∧ t = { s.toBlock with host := t.host, link := t.link })
          ∧ (c.stage ≠ .finished → exec (.completionWrite q) s = .next s))))
    ∧ (∀ (r : CmdRef) (c : Cmd), s.starting r 0x01 = some c → c.fieldsOk (fun _ => true) = true → c.feature = none →
        exec (.nop r) s = .next { s with toBlock := s.toBlock.finish r 0 0 0 0 })
    ∧ (∀ (r : CmdRef) (c : Cmd), s.boot.phase = .ready →
      (s.queue r.q).cmds.find? (fun c => c.id == r.id && c.op == 0x04 && c.stage == .fetched) = some c →
      c.fieldsOk (fun c => decide (c.arg 24 1 < 16)) = true →
      let u : CmdRef := ⟨Fin.ofNat 16 (c.arg 24 1), BitVec.ofNat 32 (c.arg 28 4)⟩
      ((s.queue u.q).cmds.find? (fun x => x.id == u.id) = none → exec (.abort r) s = .next { s with host := { s.host with
          queues := s.host.queues.modify r.q fun x => { x with cmds := endAbort r.id 2 x.cmds } } })
      ∧ (∀ x : Cmd, (s.queue u.q).cmds.find? (fun x => x.id == u.id) = some x → x.op ≠ 0x04 → s.pastCommit u x = false →
        (∀ j ∈ s.owl.jobs, j.entered = false → j.owner = some u) → Completes (.abort r) s fun t =>
          t.host.queues = (s.host.queues.modify u.q fun y => { y with cmds := cmdModify u.id (fun z => { z with
              stage := .finished, status := 1, detail := 0, result0 := 0, result1 := 0, data := [] }) y.cmds }).modify r.q
                (fun y => { y with cmds := endAbort r.id 0 y.cmds })
            ∧ (∀ j ∈ t.owl.jobs, j.owner ≠ some u) ∧ (∀ j ∈ t.badger.jobs, j.owner ≠ some u)
            ∧ t = { s.toBlock with host := t.host, cfg := t.cfg, owl := t.owl, badger := t.badger }))

/-- A stream opens, writes its parcels behind the host's head, and closes. STREAM_OPEN of a closed stream with a good ring opens it
empty and answers its next SEQ, and otherwise ends STREAM_STATE or RING_CONFIG; the first opening of stream 2 reads the journal and
the brown-out log out; STREAM_CLOSE closes an open one.
STREAM_PARCEL_WRITE with two free slots writes the oldest parcel whole into the next slot and then the tail record; with fewer it
writes nothing and the SEQ joins the gap; one that fails the check joins it too. STREAM_RESUME of a held stream on a live link
ends the hold and writes the gap first. (Clauses that rest on the model's own choices or readings: log entries 45, 46 and 48.)
(14_host_link.md) -/
def Obligations.StreamsOpenAndWrite : Prop :=
  ∀ s : State, s.host.streams.length = 8 →
    (∀ (r : CmdRef) (ue : BitVec 2) (c : Cmd) (k : Fin 8), s.starting r 0x02 = some c → c.arg 24 1 = k.val →
      c.fieldsOk (fun c => decide (c.arg 24 1 < 8) && decide (1 ≤ c.arg 26 1)) = true → (∀ f, c.feature = some f → s.committed f = true) →
      ((s.stream k).isOpen = true → exec (.streamOpen r ue) s = .next { s with toBlock := s.toBlock.finish r 0x08 0 0 0 })
      ∧ ((s.stream k).isOpen = false →
        (c.arg 32 8 % 4096 ≠ 0 → exec (.streamOpen r ue) s = .next { s with toBlock := s.toBlock.finish r 0x09 0 0 0 })
        ∧ (k = 2 → c.arg 32 8 % 4096 = 0 → powerWithin 16 65536 (c.arg 28 4) = true → c.arg 40 8 % 8 = 0 → Completes (.streamOpen r ue) s fun t =>
          (t.stream 2).isOpen = true ∧ t.boot.stream2Opened = true ∧ (s.boot.stream2Opened = true → t.thermos = s.thermos ∧ t.boot = s.boot)
            ∧ (s.boot.stream2Opened = false → t.thermos.brownRead = s.thermos.brownCount ∧ t.thermos.journalUe = s.thermos.journalUe ||| ue)
            ∧ (∀ j : Nat, j ≠ 2 → j ≠ 7 → t.stream j = s.stream j)
            ∧ t = { s.toBlock with
                host := t.host, flt := t.flt, den := { s.den with degradedDue := false }
                thermos := { s.thermos with brownRead := t.thermos.brownRead, journalUe := t.thermos.journalUe }
                boot := { s.boot with stream2Opened := true, haltDue := t.boot.haltDue } })
        ∧ (k ≠ 2 → c.arg 32 8 % 4096 = 0 → powerWithin 16 65536 (c.arg 28 4) = true → c.arg 40 8 % 8 = 0 → Completes (.streamOpen r ue) s fun t =>
          t.stream k = Stream.opened c s.link.live (s.stream k) ∧ (t.stream k).isOpen = true ∧ (t.stream k).nextSeq = (s.stream k).nextSeq
            ∧ (t.stream k).tail = 0 ∧ (t.stream k).out = [] ∧ (∀ j : Nat, j ≠ k → t.stream j = s.stream j)
            ∧ t.host.queues = (s.toBlock.finish r 0 0 (s.stream k).nextSeq.toNat 0).host.queues ∧ t = { s.toBlock with host := t.host })))
    ∧ (∀ (r : CmdRef) (c : Cmd), s.starting r 0x03 = some c → c.fieldsOk (fun c => decide (c.arg 24 1 < 8)) = true → c.feature = none →
      ((s.stream (c.arg 24 1)).isOpen = false → exec (.streamClose r) s = .next { s with toBlock := s.toBlock.finish r 0x08 0 0 0 })
      ∧ ((s.stream (c.arg 24 1)).isOpen = true → Completes (.streamClose r) s fun t =>
        t = Block.finish r 0 0 (s.stream (c.arg 24 1)).lastSeq.toNat 0 { s.toBlock with host := { s.host with
          streams := s.host.streams.modify (c.arg 24 1) Stream.shut } }))
    ∧ (∀ (k : Fin 8) (p : Parcel) (ps : List Parcel), s.boot.phase = .ready → s.link.live = true → (s.stream k).isOpen = true → (s.stream k).held = false →
      (s.stream k).out = p :: ps → sealFault p = none →
      (2 ≤ (s.stream k).free → (s.stream k).gap = none → Completes (.streamParcelWrite k .intact) s fun t =>
        (∃ ms : List Out, t.host.out = s.host.out ++ [.memWrite ((s.stream k).base + BitVec.ofNat 64 ((s.stream k).tail.toNat % max 1 (s.stream k).slots.toNat * slotSize k)) p.stored
            , .memWrite (s.stream k).tailAddr (leBytes 4 ((s.stream k).tail + 1).toNat ++ leBytes 4 p.seq.toNat)] ++ ms)
          ∧ (t.stream k).tail = (s.stream k).tail + 1 ∧ (t.stream k).lastSeq = p.seq ∧ (t.stream k).out = ps ∧ (t.stream k).gap = none
          ∧ (∀ j : Nat, j ≠ k → t.stream j = s.stream j) ∧ t = { s.toBlock with host := t.host, link := t.link })
      ∧ ((s.stream k).free < 2 → exec (.streamParcelWrite k .intact) s = .next { s with host := { s.host with
          streams := s.host.streams.modify k fun x => Stream.miss p.seq .ringFull { x with out := ps } } })
      ∧ (∀ g, (s.stream k).gap = some g → (s.stream k).free = 2 → Completes (.streamParcelWrite k .intact) s fun t =>
          (t.stream k).tail = (s.stream k).tail ∧ t.host.out = s.host.out ∧ (t.stream k).gap = some (g.1, p.seq, g.2.2)))
    ∧ (∀ k : Fin 8, (s.stream k).out = [] → ∀ x, exec (.streamParcelWrite k x) s = .next s)
    ∧ (∀ k : Fin 8, s.boot.phase = .ready → (s.stream k).isOpen = true → (s.stream k).held = true → s.link.live = true →
      ((s.stream k).gap = none → exec (.streamResume k) s = .next { s with host := { s.host with
          streams := s.host.streams.modify k fun x => { x with held := false } } })
      ∧ (∀ (f l : BitVec 32) (c : GapCause), (s.stream k).gap = some (f, l, c) → 1 ≤ (s.stream k).free → Completes (.streamResume k) s fun t =>
        (t.stream k).held = false ∧ (t.stream k).gap = none ∧ (t.stream k).tail = (s.stream k).tail + 1 ∧ (t.stream k).lastSeq = f
          ∧ (t.stream k).nextSeq = (s.stream k).nextSeq ∧ t = { s.toBlock with host := t.host, link := t.link }))

/-- Q_CTRL and the configuration of a queue. While ENABLE is 1, a write to any configuration register of the queue changes nothing but
BAD_REG_ACCESS (one of 8 bytes counts once, log entry 70), a write of ENABLE 1 does nothing, and a RESUME does nothing unless the
queue is held; a write that clears ENABLE and sets RESUME is the disable: it drops the queue's commands and writes nothing.
Q_ENABLE of a good configuration starts the queue empty, of a bad one sets CONFIG_ERR; Q_RESUME of a held queue with no ended
command ends the hold. (19_registers.md) -/
def Obligations.QueueControl : Prop :=
  ∀ (s : State) (q : Fin 16), s.boot.phase = .ready → q < s.host.queues.length →
    ((s.queue q).enabled = true →
      (∀ (o : Nat) (v : BitVec 64), o ∈ [0x00, 0x04, 0x08, 0x0C, 0x10, 0x14, 0x18] → exec (.registerWrite (.bar0 (0x1000 + 0x40 * q + o) 4 v)) s = .next { s with
          host := { s.host with badReg := bump s.host.badReg } })
      ∧ (∀ (o : Nat) (v : BitVec 64), o ∈ [0x00, 0x08, 0x10] → exec (.registerWrite (.bar0 (0x1000 + 0x40 * q + o) 8 v)) s = .next { s with
          host := { s.host with badReg := bump s.host.badReg } })
      ∧ exec (.registerWrite (.bar0 (0x1000 + 0x40 * q + 0x1C) 4 1)) s = .next s
      ∧ exec (.qEnable q) s = .next s
      ∧ ((s.queue q).held = false → exec (.qResume q) s = .next s ∧ exec (.registerWrite (.bar0 (0x1000 + 0x40 * q + 0x1C) 4 3)) s = .next s)
      ∧ ((s.queue q).held = true → s.link.live = true → (∀ c ∈ (s.queue q).cmds, c.stage ≠ .finished) → exec (.qResume q) s = .next { s with
          host := { s.host with queues := s.host.queues.modify q fun x => { x with held := false } } }))
    ∧ ((s.queue q).enabled = false → exec (.qResume q) s = .next s)
    ∧ (exec (.registerWrite (.bar0 (0x1000 + 0x40 * q + 0x1C) 4 2)) s = exec (.qDisable q) s)
    ∧ (Completes (.qDisable q) s fun t =>
        (t.queue q).enabled = false ∧ (t.queue q).cmds = [] ∧ (t.queue q).sqBase = (s.queue q).sqBase
          ∧ ((∀ j ∈ s.owl.jobs, j.entered = false → ∀ u : CmdRef, j.owner = some u → u.q = q) → ∀ p : Nat, p ≠ q → t.queue p = s.queue p)
          ∧ t.host.out = s.host.out ∧ t.host.streams = s.host.streams
          ∧ t = { s.toBlock with host := t.host, cfg := t.cfg, owl := t.owl, badger := t.badger })
    ∧ ((s.queue q).enabled = false →
      (s.queueOk (s.queue q) = true → Completes (.qEnable q) s fun t =>
        t.queue q = { s.queue q with enabled := true, configErr := false, bellErr := false, held := !s.link.live, sqHead := 0, sqTail := 0
                                     cqHead := 0, cqTail := 0, phase := true, cmds := [], bells := [], unsig := 0 }
          ∧ (∀ p : Nat, p ≠ q → t.queue p = s.queue p) ∧ t = { s.toBlock with host := { s.host with queues := t.host.queues } })
      ∧ (s.queueOk (s.queue q) = false → Completes (.qEnable q) s fun t =>
        t.queue q = { s.queue q with configErr := true } ∧ t.host.eventCause.getLsbD 2 = (s.host.eventCause.getLsbD 2 || !(s.queue q).configErr)
          ∧ t = { s.toBlock with host := t.host, link := t.link }))

/-- STREAM_CTRL's RESET goes before RESUME. A write of STREAM_CTRL that sets RESET and RESUME acts as RESET alone, which closes an
open stream, drops what it had to write and keeps its SEQ counter; RESET or RESUME of a stream that is not open does nothing.
(R654) -/
def Obligations.StreamControl : Prop :=
  ∀ (s : State) (k : Fin 8), s.boot.phase = .ready →
    (exec (.registerWrite (.bar0 (0x1400 + 0x20 * k) 4 3)) s = exec (.streamReset k) s)
    ∧ (exec (.registerWrite (.bar0 (0x1400 + 0x20 * k) 4 2)) s = exec (.streamReset k) s)
    ∧ ((s.stream k).isOpen = true → exec (.streamReset k) s = .next { s with host := { s.host with streams := s.host.streams.modify k Stream.shut } })
    ∧ ((s.stream k).isOpen = false → exec (.streamReset k) s = .next s ∧ exec (.streamResume k) s = .next s
      ∧ ∀ v : BitVec 64, exec (.registerWrite (.bar0 (0x1400 + 0x20 * k) 4 v)) s = .next s)
    ∧ (∀ x : Stream, (Stream.shut x).isOpen = false ∧ (Stream.shut x).out = [] ∧ (Stream.shut x).gap = none ∧ (Stream.shut x).nextSeq = x.nextSeq
        ∧ (Stream.shut x).lastSeq = x.lastSeq)

/-- A bit of EVENT_CAUSE signals vector 0 once until it is cleared. Setting a bit of EVENT_CAUSE that is 0 signals MSI-X vector 0: a
message when it is enabled and unmasked, its pending bit when it is masked; setting one that is 1 changes nothing. The host's
write of 1 clears a bit, after which setting it signals again. (R648) -/
def Obligations.EventCause : Prop :=
  (∀ (b : Block) (i : Fin 4),
    (b.host.eventCause.getLsbD i = true → b.cause i = b)
    ∧ (b.host.eventCause.getLsbD i = false →
      (b.cause i).host.eventCause = setBit b.host.eventCause i ∧ (b.cause i).host.eventCause.getLsbD i = true
        ∧ (b.link.live = true → b.link.msixOn = true → (b.link.msix.getD 0 {}).mask = false → (b.cause i).host.out = b.host.out ++ [.msix 0])
        ∧ (b.link.live = true → b.link.msixOn = true → (b.link.msix.getD 0 {}).mask = true →
          (b.cause i).host.out = b.host.out ∧ (b.cause i).link.pba.getLsbD 0 = true)
        ∧ b.cause i = { b with host := { b.host with eventCause := (b.cause i).host.eventCause, out := (b.cause i).host.out }
                               link := { b.link with pba := (b.cause i).link.pba } }))
  ∧ (∀ (s : State) (i : Fin 4), s.boot.phase ≠ .thermosPor → Completes (.clearWrite 0x230 (BitVec.ofNat 32 (2 ^ i.val))) s fun t =>
      t.host.eventCause.getLsbD i = false ∧ (∀ j : Fin 4, j ≠ i → t.host.eventCause.getLsbD j = s.host.eventCause.getLsbD j) ∧ t.host.out = s.host.out)

/-- An event is one sealed parcel on stream 2, and a seal that passes. Emitting an event while stream 2 is open and not held appends
one parcel of TYPE 0x0E01 to the stream, with its next SEQ, sealed by the pair in control and whole; while it is closed nothing
happens. Every parcel that a unit seals has an intact seal word, names its sealer, and has ORIGIN exactly when it has no inputs. A
closed stream 2 to 7 numbers nothing, and streams 0 and 1 number every parcel. (Clauses that rest on the model's own choices or
readings: log entry 8.) (14_host_link.md, 05_parcels_seals_lineage.md) -/
def Obligations.EventsAndTraces : Prop :=
  (∀ (b : Block) (code : Nat) (src : BitVec 8) (body : Bytes), b.host.streams.length = 8 → body.length ≤ 4000 →
    ((b.host.streams.getD 2 {}).isOpen = false → b.event code src body = b)
    ∧ ((b.host.streams.getD 2 {}).isOpen = true → (b.host.streams.getD 2 {}).held = false → ∃ p : Parcel,
      ((b.event code src body).host.streams.getD 2 {}) = { b.host.streams.getD 2 {} with
          nextSeq := (b.host.streams.getD 2 {}).nextSeq + 1, out := (b.host.streams.getD 2 {}).out ++ [p] }
        ∧ p.type = 0x0E01 ∧ p.seq = (b.host.streams.getD 2 {}).nextSeq ∧ p.producer = b.control ∧ p.stream = 2 ∧ sealFault p = none
        ∧ (∀ j : Nat, j ≠ 2 → (b.event code src body).host.streams.getD j {} = b.host.streams.getD j {})
        ∧ b.event code src body = { b with host := { b.host with streams := (b.event code src body).host.streams } }))
  ∧ (∀ (chip type : BitVec 16) (st : BitVec 8) (seq : BitVec 32) (u : BitVec 8) (pay : Bytes) (ins : List InRef), pay.length ≤ 4096 →
      let p := sealParcel chip type st seq u pay ins
      sealFault p = none ∧ p.sealer = u ∧ p.sealCrc = p.crc ∧ p.lineage = lineageOf (consumed ins) ∧ p.payload = pay
        ∧ (p.sealWord.getLsbD 61 = true ↔ ins = []) ∧ p.sealWord.getLsbD 60 = false)
  ∧ (∀ (b : Block) (k : Fin 8) (type : BitVec 16) (u : BitVec 8) (pay : Bytes) (ins : List InRef),
      (2 ≤ k.val → (b.host.streams.getD k {}).isOpen = false → b.emit k type u pay ins = b)
      ∧ (k.val < 2 → b.host.streams.length = 8 →
        ((b.emit k type u pay ins).host.streams.getD k {}).nextSeq = (b.host.streams.getD k {}).nextSeq + 1))

/-- The life of a trail lane. A bonded-out lane of a bundle leaves OFF for training, a failed one retries a second later, an attempt
that is not over in 20 ms fails and is counted. More than 64 header errors, or a lost lock on OTX-120C, sends a lane that is UP to
RETRAINING with a RETRAIN_REQ; a RETRAIN_REQ received does so without one, and settles who leads when both have asked. LANE_UP at
a rate that both ends can run brings the lane UP and names the bundle's neighbour. Other lanes stand. (Clauses that rest on the
model's own choices or readings: log entries 54 and 71.) (15_trails.md) -/
def Obligations.TrailLanes : Prop :=
  ∀ (s : State) (l : Fin 18), s.trail.lanes.length = 18 → s.trail.bundles.length = 16 →
    (s.lanesOn = true → s.bonded l = true → s.laneBundle l < 16 → (s.lane l).st = .off → exec (.laneTrainAttempt l) s = .next { s with
        trail := { s.trail with lanes := s.trail.lanes.modify l fun x => { x with st := .training, since := s.now, sentReq := false, leads := false } } })
    ∧ ((s.lane l).st ≠ .off → exec (.laneTrainAttempt l) s = .next s)
    ∧ (s.lanesOn = true → (s.lane l).st = .failed →
      ((s.lane l).since + 250000000 ≤ s.now → exec (.laneRetry l) s = .next { s with
        trail := { s.trail with lanes := s.trail.lanes.modify l fun x => { x with st := .training, since := s.now, sentReq := false, leads := false } } })
      ∧ (s.now < (s.lane l).since + 250000000 → exec (.laneRetry l) s = .next s))
    ∧ ((s.lane l).since + 5000000 ≤ s.now →
      ((s.lane l).st = .training → exec (.laneTrainTimeout l) s = .next { s with trail := { s.trail with lanes := s.trail.lanes.modify l fun x =>
          { x with st := .failed, since := s.now, trainFail := bump x.trainFail, sentReq := false, leads := false } } })
      ∧ ((s.lane l).st = .retraining → Completes (.laneTrainTimeout l) s fun t =>
        (t.lane l).st = .failed ∧ (t.lane l).trainFail = bump (s.lane l).trainFail ∧ (∀ j : Nat, j ≠ l → t.lane j = s.lane j)
          ∧ t = { s.toBlock with trail := t.trail }))
    ∧ (s.now < (s.lane l).since + 5000000 → exec (.laneTrainTimeout l) s = .next s)
    ∧ ((s.lane l).st = .up →
      let retrains (t : Block) : Prop := (t.lane l).st = .retraining ∧ (t.lane l).sentReq = true ∧ (∀ j : Nat, j ≠ l → t.lane j = s.lane j)
        ∧ t.host.out = s.host.out ++ [.retrain l] ∧ (s.isUplink (s.laneBundle l) = false → t.trail.rolling = true ∧ t.trail.rollDone = false)
        ∧ (s.laneBundle l < 16 → (t.bundle (s.laneBundle l)).width.toNat ≤ (s.bundle (s.laneBundle l)).width.toNat)
        ∧ t = { s.toBlock with trail := t.trail, host := { s.host with out := t.host.out } }
      (∀ n : Nat, 64 < n → Completes (.syncHeaderErrors l n) s retrains)
        ∧ (s.boot.package = .c → Completes (.laneLockLoss l) s retrains))
    ∧ (∀ n : Nat, n ≤ 64 → exec (.syncHeaderErrors l n) s = .next s)
    ∧ (s.boot.package ≠ .c → exec (.laneLockLoss l) s = .next s)
    ∧ ((s.lane l).st = .up → Completes (.retrainReq l) s fun t =>
        (t.lane l).st = .retraining ∧ (t.lane l).sentReq = false ∧ (t.lane l).leads = false ∧ (∀ j : Nat, j ≠ l → t.lane j = s.lane j)
          ∧ t = { s.toBlock with trail := t.trail })
    ∧ ((s.lane l).st = .retraining → (s.lane l).sentReq = true → exec (.retrainReq l) s = .next { s with trail := { s.trail with
        lanes := s.trail.lanes.modify l fun x => { x with sentReq := false, leads := s.leadsRetrain (s.laneBundle l) } } })
    ∧ ((s.lane l).st = .off ∨ (s.lane l).st = .training ∨ (s.lane l).st = .failed → exec (.retrainReq l) s = .next s)
    ∧ (∀ (r : BitVec 3) (far : FarEnd), s.lanesOn = true → (s.lane l).st = .training ∨ (s.lane l).st = .retraining → s.laneBundle l < 16 →
      (s.rateOk l r far = true → Completes (.laneUp l r far) s fun t =>
        (t.lane l).st = .up ∧ (t.lane l).rate = r ∧ (t.lane l).since = s.now ∧ (∀ j : Nat, j ≠ l → t.lane j = s.lane j)
          ∧ (t.bundle (s.laneBundle l)).nbSerial = far.serial ∧ (t.bundle (s.laneBundle l)).width ≠ 0
          ∧ (s.isUplink (s.laneBundle l) = false → t.trail.rolling = true)
          ∧ t = { s.toBlock with trail := t.trail, host := { s.host with out := t.host.out } })
      ∧ (s.rateOk l r far = false → exec (.laneUp l r far) s = .next s))

/-- Flits in their sequence, and the width both ends agree on. On an UP bundle a flit with a bad link CRC is counted and not taken,
and a NAK names the last good one, once per gap; the expected flit is counted and the next one expected, any other is not taken.
ACK_TIMER acknowledges 1 us after the oldest unacknowledged flit; NAK_RECEIVE replays what follows the flit it names; a flit
unacknowledged for 100 us retrains the bundle. WIDTH_REQ is answered with a width that the live lanes give, WIDTH_ACK completes
the width asked for. (Clauses that rest on the model's own choices or readings: log entry 54.) (15_trails.md) -/
def Obligations.FlitsAndWidths : Prop :=
  ∀ (s : State) (k : Fin 16), s.trail.bundles.length = 16 → s.trail.lanes.length = 18 →
    (∀ w : BitVec 5, s.bundleUp k = true → w ≠ 0 → (s.bundle k).wantWidth = none → Completes (.widthReq k w) s fun t =>
      (t.bundle k).width = BitVec.ofNat 5 (min (fitWidth w.toNat) (fitWidth (s.liveLanes k).length)) ∧ (t.bundle k).width.toNat ≤ (s.liveLanes k).length
        ∧ t.host.out = s.host.out ++ [.widthAck k (t.bundle k).width] ∧ (∀ j : Nat, j ≠ k → t.bundle j = s.bundle j) ∧ t.trail.lanes = s.trail.lanes
        ∧ t = { s.toBlock with trail := t.trail, host := { s.host with out := t.host.out } })
    ∧ (∀ w : BitVec 5, s.bundleUp k = false → exec (.widthReq k w) s = .next s)
    ∧ (∀ w : BitVec 5, (s.bundle k).wantWidth = some w → exec (.widthAck k w) s = .next { s with trail := { s.trail with
        bundles := s.trail.bundles.modify k fun x => { x with width := w, wantWidth := none } } })
    ∧ (∀ w : BitVec 5, (s.bundle k).wantWidth ≠ some w → exec (.widthAck k w) s = .next s)
    ∧ (∀ f : BitVec 2048, s.bundleUp k = true →
      ((crc32c ((flitBytes f).take 248)).toNat ≠ field (flitBytes f) 248 4 → Completes (.flitReceive k f) s fun t =>
        t.bundle k = { s.bundle k with crcErr := bump (s.bundle k).crcErr, gapNak := true }
          ∧ t.host.out = (if (s.bundle k).gapNak then s.host.out else s.host.out ++ [.ack k ((s.bundle k).rxSeq - 1) true])
          ∧ (∀ j : Nat, j ≠ k → t.bundle j = s.bundle j) ∧ t = { s.toBlock with trail := t.trail, host := { s.host with out := t.host.out } })
      ∧ ((crc32c ((flitBytes f).take 248)).toNat = field (flitBytes f) 248 4 → (field (flitBytes f) 2 2).testBit 12 = false →
        (field (flitBytes f) 2 2).testBit 13 = false →
        (BitVec.ofNat 12 (field (flitBytes f) 0 2) = (s.bundle k).rxSeq → field (flitBytes f) 0 2 / 4096 = 0 → (s.bundle k).unacked < 15 →
          exec (.flitReceive k f) s = .next { s with trail := { s.trail with bundles := s.trail.bundles.modify k fun x => { x with
            rxSeq := x.rxSeq + 1, unacked := x.unacked + 1, gapNak := false, ackAt := if x.unacked = 0 then s.now else x.ackAt } } })
        ∧ (BitVec.ofNat 12 (field (flitBytes f) 0 2) ≠ (s.bundle k).rxSeq → Completes (.flitReceive k f) s fun t =>
          (t.bundle k).rxSeq = (s.bundle k).rxSeq ∧ (t.bundle k).rx = (s.bundle k).rx ∧ t.trail.inbox = s.trail.inbox
            ∧ t = { s.toBlock with trail := t.trail, host := { s.host with out := t.host.out } })))
    ∧ (∀ f : BitVec 2048, s.bundleUp k = false → exec (.flitReceive k f) s = .next s)
    ∧ (∀ q : BitVec 12, s.bundleUp k = true → (s.bundle k).nakRun < 7 → Completes (.nakReceive k q) s fun t =>
        (t.bundle k).replay = ackedBy q (s.bundle k).replay ∧ (t.bundle k).replays = bump (s.bundle k).replays
          ∧ t.host.out = s.host.out ++ (ackedBy q (s.bundle k).replay).map (fun h => .flit k h.bytes) ∧ t.trail.lanes = s.trail.lanes
          ∧ (∀ j : Nat, j ≠ k → t.bundle j = s.bundle j) ∧ t = { s.toBlock with trail := t.trail, host := { s.host with out := t.host.out } })
    ∧ (s.bundleUp k = true → (s.bundle k).unacked ≠ 0 →
      ((s.bundle k).ackAt + 250 ≤ s.now → exec (.ackTimer k) s = .next { s with
          trail := { s.trail with bundles := s.trail.bundles.modify k fun x => { x with unacked := 0 } }
          host := { s.host with out := s.host.out ++ [.ack k ((s.bundle k).rxSeq - 1) false] } })
      ∧ (s.now < (s.bundle k).ackAt + 250 → exec (.ackTimer k) s = .next s))
    ∧ (∀ (h : HeldFlit) (hs : List HeldFlit), (s.bundle k).replay = h :: hs →
      (h.at_ + 25000 ≤ s.now → Completes (.flitAckTimeout k) s fun t =>
        (∀ l ∈ s.liveLanes k, (t.lane l).st = .retraining) ∧ (∀ l : Nat, l ∉ s.liveLanes k → t.lane l = s.lane l)
          ∧ t = { s.toBlock with trail := t.trail, host := { s.host with out := t.host.out } })
      ∧ (s.now < h.at_ + 25000 → exec (.flitAckTimeout k) s = .next s))
    ∧ ((s.bundle k).replay = [] → exec (.flitAckTimeout k) s = .next s)

/-- Roll call, chips that are lost, and reads from another chip. In a roll call ROLL_CALL_SEND sends one ROLL_CALL per UP local bundle
each 100 us; ROLL_CALL_RECEIVE notes the neighbour and keeps the higher-ranking candidate, ranking being a strict total order, and
from an uplink takes the serial and chip numbers alone; after 2 ms without a change ROLL_CALL_SETTLE makes the candidate with no peer the master with the domain's base number, and
settles another chip. ASSIGN to this chip's serial gives it its number. CHIP_LOST drops a neighbour unheard for 10 ms and reports
it, and before does nothing. READ_REQ of a stored parcel in memory that is present and not protected sends that parcel to its
asker; one of a protected region sends READ_REFUSED with cause 1. READ_RESP ends its wait; READ_REQ_TIMEOUT after 1 ms asks once
more, and the second time ends the wait. None of them changes Den. (Clauses that rest on the model's own choices or readings: log
entries 54, 55 and 98.) (15_trails.md) -/
def Obligations.RollCallsAndReads : Prop :=
  (∀ s : State, s.trail.bundles.length = 16 →
      (s.lanesOn = true → s.trail.rolling = true →
        (∀ k : Nat, (∀ u, s.trail.rollSent = some u → u + 25000 ≤ s.now) → s.upLocal = [k] → (s.bundle k).wait = [] → (s.bundle k).replay = [] →
          Completes .rollCallSend s fun t =>
            (∃ p : Parcel, t.host.out = s.host.out ++ [.parcel k (s.bundle k).nbChip p] ∧ p.type = 0x0901 ∧ p.payload = s.rollPayload ∧ p.producer = 0x80)
              ∧ t.trail.rollSent = some s.now ∧ t = { s.toBlock with trail := t.trail, host := t.host })
        ∧ (∀ u, s.trail.rollSent = some u → s.now < u + 25000 → exec .rollCallSend s = .next s)
        ∧ (s.trail.changedAt + 500000 ≤ s.now →
          (s.trail.candSerial = s.boot.otp.serial → s.trail.peers = [] → Completes .rollCallSettle s fun t =>
            t.trail.master = true ∧ t.trail.assigned = true ∧ t.trail.chip = BitVec.ofNat 12 s.chipBase ∧ t.trail.masterSerial = s.boot.otp.serial
              ∧ t.trail.rolling = false ∧ t.trail.rollDone = true
              ∧ ((∀ k < 16, s.bundleUp k = true → s.isUplink k = false) →
                Tells 0x0042 0xFF (leBytes 2 (BitVec.ofNat 12 s.chipBase).toNat ++ [1, 0, 0, 0, 0, 0] ++ leBytes 8 s.boot.otp.serial.toNat)
                  { s.toBlock with trail := t.trail } t)
              ∧ t = { s.toBlock with trail := t.trail, host := t.host, flt := t.flt })
          ∧ (s.trail.candSerial ≠ s.boot.otp.serial → s.boot.masterStrap = false → exec .rollCallSettle s = .next { s with
              trail := { s.trail with settled := true } }))
        ∧ (s.now < s.trail.changedAt + 500000 → exec .rollCallSettle s = .next s)
        ∧ (∀ (k : Fin 16) (p : Parcel), s.bundleUp k = true → s.isUplink k = false → sealFault p = none → p.type = 0x0901 →
          Completes (.rollCallReceive k p) s fun t =>
            (t.bundle k).nbSerial = BitVec.ofNat 64 (field p.payload 0 8) ∧ ((t.bundle k).nbValid = true ↔ field p.payload 8 2 ≠ 0xFFFF)
              ∧ (∃ q ∈ t.trail.peers, q.serial = BitVec.ofNat 64 (field p.payload 0 8))
              ∧ (t.trail.candStrap, t.trail.candSerial) = (if ranksAbove (field p.payload 24 1 % 2 == 1) (BitVec.ofNat 64 (field p.payload 16 8)) s.trail.candStrap s.trail.candSerial
                  then (field p.payload 24 1 % 2 == 1, BitVec.ofNat 64 (field p.payload 16 8)) else (s.trail.candStrap, s.trail.candSerial))
              ∧ (∃ n ∈ t.trail.nbs, n.serial = BitVec.ofNat 64 (field p.payload 0 8) ∧ n.heardAt = s.now)
              ∧ (∀ j : Nat, j ≠ k → t.bundle j = s.bundle j) ∧ t = { s.toBlock with trail := t.trail }))
      ∧ (∀ (k : Fin 16) (p : Parcel), s.lanesOn = true → s.bundleUp k = true → s.isUplink k = true → sealFault p = none → p.type = 0x0901 →
          exec (.rollCallReceive k p) s = .next { s with trail := { s.trail with
            inbox := s.trail.inbox.erase p
            bundles := s.trail.bundles.modify k fun x => { x with
              nbSerial := BitVec.ofNat 64 (field p.payload 0 8), nbChip := BitVec.ofNat 12 (field p.payload 8 2), nbValid := field p.payload 8 2 != 0xFFFF } } })
      ∧ (∀ (a b : Bool) (x y : BitVec 64), ¬ranksAbove a x a x = true ∧ (ranksAbove a x b y = true → ranksAbove b y a x = false)
          ∧ (x ≠ y → ranksAbove a x b y = true ∨ ranksAbove b y a x = true))
      ∧ (∀ p : Parcel, s.lanesOn = true → sealFault p = none → p.type = 0x0902 →
        (field p.payload 0 8 = s.boot.otp.serial.toNat → Completes (.assign p) s fun t =>
          t.trail.chip = BitVec.ofNat 12 (field p.payload 8 2) ∧ t.trail.assigned = true ∧ t.trail.master = false
            ∧ t.trail.masterSerial = BitVec.ofNat 64 (field p.payload 16 8) ∧ t.trail.rolling = false ∧ t.trail.rollDone = true
            ∧ t = { s.toBlock with trail := t.trail, host := t.host, flt := t.flt })
        ∧ (field p.payload 0 8 ≠ s.boot.otp.serial.toNat → exec (.assign p) s = .next { s with trail := { s.trail with inbox := s.trail.inbox.erase p } }))
      ∧ (∀ (n : BitVec 64) (q : Neighbour), s.boot.phase = .ready → s.trail.nbs.find? (fun p => p.serial == n) = some q →
        (∀ k ∈ s.upLocal, (s.bundle k).nbSerial ≠ n) →
        (q.heardAt + 2500000 ≤ s.now → Completes (.chipLost n) s fun t =>
          t.trail = { s.trail with peers := s.trail.peers.filter (fun p => p.serial != n), nbs := s.trail.nbs.filter fun p => p.serial != n }
            ∧ Tells 0x0044 0xFF (leBytes 2 (chipField q.chip.isSome (q.chip.getD 0)) ++ List.replicate 6 0 ++ leBytes 8 n.toNat)
                { s.toBlock with trail := t.trail } t ∧ t = { s.toBlock with trail := t.trail, host := t.host, flt := t.flt })
        ∧ (s.now < q.heardAt + 2500000 → exec (.chipLost n) s = .next s))
      ∧ (∀ n : BitVec 64, s.trail.nbs.find? (fun p => p.serial == n) = none → exec (.chipLost n) s = .next s))
  ∧ (∀ s : State, s.trail.bundles.length = 16 →
      (∀ (a : BitVec 12) (p : Parcel) (k : Nat), sealFault p = none → p.type = 0x0905 → s.lanesOn = true → s.trail.assigned = true → a ≠ s.trail.chip →
        s.routeTo s.trail.chip a = .ok k → k < 16 → (s.bundle k).wait = [] → (s.bundle k).replay = [] →
        let x := field p.payload 0 8 % 2 ^ 40
        (s.readRefusal (field p.payload 0 8) = none → Completes (.readReq a p) s fun t =>
          t.host.out = s.host.out ++ [.parcel k a (parcelOf (memBytes s.den.mem x (storedSize (memField s.den.mem (x + 2) 2))))]
            ∧ t = { s.toBlock with trail := t.trail, host := t.host })
        ∧ (∀ r, s.region x = some r → isProtected r = true → x % 64 = 0 → Completes (.readReq a p) s fun t =>
          (∃ q : Parcel, t.host.out = s.host.out ++ [.parcel k a q] ∧ q.type = 0x0907
            ∧ q.payload = leBytes 8 (field p.payload 0 8) ++ slice p.payload 8 4 ++ [1, 0, 0, 0])
            ∧ t = { s.toBlock with trail := t.trail, host := t.host }))
      ∧ (∀ (tag : BitVec 32) (p : Parcel), sealFault p = none → exec (.readResp tag p) s = .next { s with trail := { s.trail with
          reads := s.trail.reads.filter fun r => r.tag != tag, inbox := s.trail.inbox.erase p } })
      ∧ (∀ (tag : BitVec 32), s.trail.reads.find? (fun r => r.tag == tag && decide (r.at_ + 250000 ≤ s.now)) = none →
          exec (.readReqTimeout tag) s = .next s)
      ∧ (∀ (tag : BitVec 32) (r : ReadWait), s.trail.reads.find? (fun r => r.tag == tag && decide (r.at_ + 250000 ≤ s.now)) = some r →
        (r.again = true → exec (.readReqTimeout tag) s = .next { s with trail := { s.trail with reads := s.trail.reads.filter fun x => x.tag != tag } })
        ∧ (r.again = false → Completes (.readReqTimeout tag) s fun t =>
          t.trail.reads = s.trail.reads.filter (fun x => x.tag != tag) ++ [{ r with at_ := s.now, again := true }]
            ∧ t = { s.toBlock with trail := t.trail, host := t.host, flt := t.flt })))

/-- Merge jobs between a member and its collector. JOIN at the collector assigns the lowest free slot to the member while GUESTS is
committed; JOIN_REPLY gives the member its slot and generation, or has it wait 100 epochs, after which JOIN_RETRY asks again;
FRAG_ACK releases the fragments it names and 30 epochs without one send the rest again; a fragment that nothing refuses is staged,
none with GUESTS left out; LEAVE of the member's stay evicts its slot, and a SEAL_REPORT about this chip counts an integrity fault
here and tells the host. (Clauses that rest on the
model's own choices or readings: log entry 54.) (15_trails.md, 13_guests.md) -/
def Obligations.MergeJobs : Prop :=
  ∀ (s : State) (p : Parcel), sealFault p = none → s.boot.phase = .ready → s.trail.assigned = true → s.guests.length = 64 →
    let d := p.payload
    let took : Block := { s.toBlock with trail := { s.trail with inbox := s.trail.inbox.erase p } }
    (∀ g : Nat, p.type = 0x0903 → s.isCollector = true → field d 0 4 = s.jobTag → s.den.dramAbsent = false → s.guestsOn = true → s.freeGuest = some g →
      s.guestHolding (memberGid (BitVec.ofNat 12 (field d 4 2)).toNat) = none → Completes (.join p) s fun t =>
        (t.guest g).st = .arriving ∧ (t.guest g).gen = nextGen (s.guest g).gen ∧ (t.guest g).member = some (BitVec.ofNat 12 (field d 4 2))
          ∧ (∀ f : Nat, f ≠ g → t.guest f = s.guest f) ∧ t = { s.toBlock with guests := t.guests, trail := t.trail, host := t.host, flt := t.flt })
    ∧ (p.type = 0x0903 → s.isCollector = false → exec (.join p) s = .next { s with toBlock := took })
    ∧ (p.type = 0x0904 → s.myJob d = true → s.trail.joinSent = true →
      (field d 10 2 = 0 → s.map.kfs = [] → s.map.ptTop = 0 → s.map.edgeTop = 0 → exec (.joinReply p) s = .next { s with toBlock := { took with
        trail := { took.trail with joined := some (BitVec.ofNat 8 (field d 6 1), BitVec.ofNat 16 (field d 8 2)), joinSent := false, joinWait := false
                                   nextFrag := 1, toSend := [], unacked := [], ackEpoch := s.ep.now.toNat } } })
      ∧ (field d 10 2 ≠ 0 → exec (.joinReply p) s = .next { s with toBlock := { took with
        trail := { took.trail with joinSent := false, joinWait := true, joinEpoch := s.ep.now.toNat + 100 } } }))
    ∧ (s.trail.joinWait = true → s.isMember = true → s.lanesOn = true →
      (s.trail.joinEpoch ≤ s.ep.now.toNat → Completes .joinRetry s fun t =>
        t.trail.joined = none ∧ t.trail.joinWait = false ∧ t.trail.joinSent = true ∧ t.trail.nextFrag = 1 ∧ t.trail.toSend = []
          ∧ t = { s.toBlock with trail := t.trail, host := t.host, flt := t.flt })
      ∧ (s.ep.now.toNat < s.trail.joinEpoch → exec .joinRetry s = .next s))
    ∧ (p.type = 0x0909 → s.myJob d = true → s.trail.joined = some (BitVec.ofNat 8 (field d 6 1), BitVec.ofNat 16 (field d 8 2)) → field d 10 2 = 0 →
      s.trail.toSend = [] → exec (.fragAckReceive p) s = .next { s with toBlock := { took with trail := { took.trail with
        unacked := s.trail.unacked.filter fun f => decide (field d 12 4 < field f.payload 4 4), ackEpoch := s.ep.now.toNat } } })
    ∧ (s.trail.joined.isSome = true → s.trail.unacked ≠ [] →
      (s.trail.ackEpoch + 30 ≤ s.ep.now.toNat → Completes .fragAckTimeout s fun t =>
        t.trail.ackEpoch = s.ep.now.toNat ∧ t.trail.unacked = s.trail.unacked ∧ t = { s.toBlock with trail := t.trail, host := t.host, flt := t.flt })
      ∧ (s.ep.now.toNat < s.trail.ackEpoch + 30 → exec .fragAckTimeout s = .next s))
    ∧ (p.type = 0x0801 → s.guestsOn = false → exec (.guestFragReceive p) s = .next { s with toBlock := took })
    ∧ (p.type = 0x0801 → s.guestsOn = true → s.fragRefusal p true = none → Completes (.guestFragReceive p) s fun t =>
        (t.guest (field d 0 1)).staged = (s.guest (field d 0 1)).staged ++ [p] ∧ (t.guest (field d 0 1)).lastFrag = BitVec.ofNat 32 (field d 4 4)
          ∧ (∀ f : Nat, f ≠ field d 0 1 → t.guest f = s.guest f) ∧ t = { took with guests := t.guests })
    ∧ (p.type = 0x0908 → field d 6 1 < 64 → (s.guest (field d 6 1)).st.accepts = true → (s.guest (field d 6 1)).gen.toNat = field d 8 2 →
      (s.guest (field d 6 1)).gid.toNat = memberGid (field d 4 2) → Completes (.leave p) s fun t =>
        (t.guest (field d 6 1)).st = .evicting ∧ (t.guest (field d 6 1)).cause = 1 ∧ (t.guest (field d 6 1)).staged = []
          ∧ t = { took with guests := t.guests, badger := { s.badger with jobs := t.badger.jobs } })
    ∧ (p.type = 0x090A →
      (field d 4 2 ≠ s.chip.toNat → exec (.sealReport p) s = .next { s with toBlock := took })
      ∧ (field d 4 2 = s.chip.toNat → unitExists (d.getD 2 0) = false → Completes (.sealReport p) s fun t =>
        t.flt.sealFaults = bump s.flt.sealFaults
          ∧ Tells 0x0010 0xFF (fit 24 d) { took with flt := { s.flt with sealFaults := bump s.flt.sealFaults } } t
          ∧ t = { took with host := t.host, flt := t.flt }))

/-- The four phases of a crossing, what crosses, its watchdog, and the end of a restart. Between two islands that are up a crossing goes
request, acknowledge, request dropped, acknowledge dropped, and a signal out of that order changes nothing; a request starts the
receiver's clock and its acknowledgement takes the beat, unless the receiver restarts. The beats of a parcel, at most 129, carry it
across whole, with its seal. BRIDGE_WATCHDOG before 100 us does nothing; after it a request into Fox, Owl or Den that names no unit
restarts the island, which is counted and told; one that names a live lane or thread fences it, and the bridge is idle; one into the
AFU for the fourth time in a second halts the engine. ISLAND_RESTART_DONE ends a restart. (Clauses that rest on the model's own
choices or readings: log entries 23, 52 and 76.) (01_one_frame.md, 16_faults.md) -/
def Obligations.Bridges : Prop :=
  (∀ p : Parcel, p.payload.length = p.len.toNat → p.payload.length ≤ 4096 →
      (beatSeqOf p).length ≤ 129 ∧ parcelOfBeatSeq (beatSeqOf p) = p
        ∧ (beatSeqOf p).foldl (fun (x : Bridge) d => Bridge.take { x with beat := some d }) ({} : Bridge)
            = ({ beat := (beatSeqOf p).getLast?, taken := some p } : Bridge))
  ∧ (∀ (s : State) (o i : Island), s.islandUp (islandNo o) = true → s.islandUp (islandNo i) = true →
    let n := bridgeNo o i
    let x := s.flt.bridges.getD n {}
    (∀ d : Beat, x.phase = .idle → exec (.bridgeBeat o i (.request d)) s = .next { s with flt := { s.flt with
        clockOn := s.flt.clockOn.set (islandNo i) (!s.tripStops (islandNo i))
        bridges := s.flt.bridges.modify n fun y => { y with phase := .requested, beat := some d, since := s.now } } })
    ∧ (x.phase = .requested →
      (s.flt.restarting.getD (islandNo i) false = false → s.tripStops (islandNo i) = false → exec (.bridgeBeat o i .acknowledge) s = .next { s with flt := { s.flt with
        bridges := s.flt.bridges.modify n fun y => { y.take with phase := .acknowledged } } })
      ∧ (s.flt.restarting.getD (islandNo i) false = true → exec (.bridgeBeat o i .acknowledge) s = .next s))
    ∧ (x.phase = .acknowledged → exec (.bridgeBeat o i .dropRequest) s = .next { s with flt := { s.flt with
        bridges := s.flt.bridges.modify n fun y => { y with phase := .released, beat := none } } })
    ∧ (x.phase = .released → exec (.bridgeBeat o i .dropAcknowledge) s = .next { s with flt := { s.flt with
        bridges := s.flt.bridges.modify n fun y => { y with phase := .idle } } })
    ∧ (x.phase ≠ .idle → ∀ d, exec (.bridgeBeat o i (.request d)) s = .next s)
    ∧ (x.phase ≠ .requested → exec (.bridgeBeat o i .acknowledge) s = .next s ∧ ∀ u, exec (.bridgeWatchdog o i u) s = .next s)
    ∧ (x.phase ≠ .acknowledged → exec (.bridgeBeat o i .dropRequest) s = .next s)
    ∧ (x.phase ≠ .released → exec (.bridgeBeat o i .dropAcknowledge) s = .next s)
    ∧ (s.now < x.since + 25000 → ∀ u, exec (.bridgeWatchdog o i u) s = .next s))
  ∧ (∀ (s : State) (o i : Island) (h : Handshake), s.islandUp (islandNo o) = false ∨ s.islandUp (islandNo i) = false →
      exec (.bridgeBeat o i h) s = .next s)
  ∧ (∀ (s : State) (o i : Island), s.detects = true →
    let n := bridgeNo o i
    let x := s.flt.bridges.getD n {}
    ((i = .fox ∨ i = .owl ∨ i = .den) → x.phase = .requested → x.since + 25000 ≤ s.now →
      s.flt.restarting.getD (islandNo i) false = false → s.pwr.tripped = false → s.flt.failed.getD (islandNo i) false = false →
      s.flt.ticks.getD (islandNo i) [] = [] → s.flt.restarting.length = 11 → s.flt.restarts.length = 11 → Completes (.bridgeWatchdog o i none) s fun t =>
        t.flt.restarting.getD (islandNo i) false = true ∧ t.flt.restarts.getD (islandNo i) 0 = bump (s.flt.restarts.getD (islandNo i) 0)
          ∧ t.flt.bridges = s.flt.bridges.modify n (fun y => { y with since := s.now })
          ∧ t.host = (s.toBlock.event 0x0013 0xFF (leBytes 1 (islandNo i) ++ [9, 0, 0, 1, 0, 0, 0])).host ∧ t.boot = s.boot
          ∧ t = { s.toBlock with flt := t.flt, host := t.host })
    ∧ (∀ (u : BitVec 8) (k : Fenceable), fenceable u = some k → fenceableIsland k = islandNo i → (i = .fox ∨ i = .owl) → s.flt.isLive k = true →
      x.phase = .requested → x.since + 25000 ≤ s.now → s.flt.restarting.getD (islandNo i) false = false → s.pwr.tripped = false →
      Completes (.bridgeWatchdog o i (some u)) s fun t =>
        t.flt.isLive k = false ∧ (t.flt.bridges.getD n {}).phase = .idle ∧ (t.flt.bridges.getD n {}).beat = none
          ∧ (∀ j : Fenceable, j ≠ k → t.flt.isLive j = s.flt.isLive j) ∧ t.flt.restarting = s.flt.restarting ∧ t.boot = s.boot)
    ∧ (∀ a y z : Tick, i = .afu → x.phase = .requested → x.since + 25000 ≤ s.now → s.flt.restarting.getD 5 false = false →
      s.flt.failed.getD 5 false = false → s.flt.ticks.getD 5 [] = [a, y, z] → recent s.now [a, y, z] = [a, y, z] → s.flt.failed.length = 11 →
      Completes (.bridgeWatchdog o i none) s fun t => t.boot.phase = .faultHalt ∧ t.flt.haltCause = 2 ∧ t.flt.haltIsland = 5 ∧ t.flt.failed.getD 5 false = true)
    ∧ (s.flt.failed.getD (islandNo i) false = false → exec (.islandRestartDone i) s = .next { s with
        flt := { s.flt with restarting := s.flt.restarting.set (islandNo i) false
                            bridges := s.flt.bridges.mapIdx fun j y => if j % 11 == islandNo i then { y with since := s.now } else y }
        badger := { s.badger with asmHeld := s.badger.asmHeld && islandNo i != 7 } })
    ∧ (s.flt.failed.getD (islandNo i) false = true → exec (.islandRestartDone i) s = .next s))

/-- A detection fences the unit it blames, and no other. LOCAL_UE of a live tile or lane, ECC_STORM of more than 64 errors in one, and
UNIT_WATCHDOG of a live tile, lane or thread fence that unit with the table's cause: it is live no more, every other unit is as
before, the newest FENCE_LOG entry names it, the cause and the tick, and the step level follows the live counts. A unit that is
not live, and 64 errors or fewer, change nothing. Detections that the queue holds for one tick fence their units in ascending unit
ID, whichever command runs first. (Clauses that rest on the model's own choices or readings: log entries 1, 52 and 59.)
(16_faults.md) -/
def Obligations.Fences : Prop :=
  (∀ (s : State) (u v : BitVec 8) (x y : Nat), s.detects = true → s.pwr.tripped = false → fenceable u = some (.thread x) →
    fenceable v = some (.thread y) → u ≠ v → s.flt.isLive (.thread x) = true → s.flt.isLive (.thread y) = true → s.pending = [.unitWatchdog v] →
    Completes (.unitWatchdog u) s fun t =>
      t.flt.threads = clearBit (clearBit s.flt.threads x) y
        ∧ ∃ e f : FenceEntry, t.flt.fenceLog = lastN 32 (s.flt.fenceLog ++ [e, f]) ∧ e.unit.toNat < f.unit.toNat ∧ (e.unit = u ∨ e.unit = v)
          ∧ (f.unit = u ∨ f.unit = v))
  ∧ ∀ (s : State) (u : BitVec 8) (k : Fenceable), s.detects = true → (∀ c ∈ s.pending, s.toBlock.detection c = none) → fenceable u = some k →
    (∀ p, k ≠ .pair p) →
    (∀ n : Nat, 64 < n →
      let fenced (cause : BitVec 8) (t : Block) : Prop :=
        t.flt.isLive k = false ∧ (∀ j : Fenceable, j ≠ k → t.flt.isLive j = s.flt.isLive j)
          ∧ (∃ e : FenceEntry, t.flt.fenceLog = lastN 32 (s.flt.fenceLog ++ [e]) ∧ e.unit = u ∧ e.cause = cause ∧ e.tick = BitVec.ofNat 64 s.now
            ∧ e.epoch = s.ep.now.setWidth 32)
          ∧ t.flt.step = max s.flt.step t.flt.level ∧ t.flt.control = s.flt.control ∧ t.ep = { s.ep with changeAt := s.now, degraded := t.ep.degraded }
          ∧ t.boot = s.boot ∧ t.cfg.active = s.cfg.active ∧ t.thermos = s.thermos
      (s.flt.isLive k = true →
        ((∀ x, k ≠ .thread x) → Completes (.localUe u) s (fenced 3) ∧ Completes (.eccStorm u n) s (fenced 5))
          ∧ (s.pwr.tripped = false → Completes (.unitWatchdog u) s (fenced 8)))
      ∧ (s.flt.isLive k = false → exec (.localUe u) s = .next s ∧ exec (.eccStorm u n) s = .next s ∧ exec (.unitWatchdog u) s = .next s))
    ∧ (∀ n : Nat, n ≤ 64 → exec (.eccStorm u n) s = .next s)
    ∧ (∀ x : Nat, k = .thread x → exec (.localUe u) s = .next s)
    ∧ (∀ x : Nat, k = .thread x → s.flt.isLive k = true → s.pwr.tripped = false → Completes (.unitWatchdog u) s fun t =>
        t.flt.threads = clearBit s.flt.threads x ∧ t.flt.step = max s.flt.step s.flt.level
          ∧ t = { s.toBlock with flt := t.flt, host := t.host, ep := { s.ep with changeAt := s.now } })

/-- The pair in control gives way to the other, and the last pair halts the engine. LOCKSTEP_MISMATCH of the standby fences it and
control stays; of the pair in control, the other takes control and both fence and switch are told; of the only live pair the
engine enters FAULT_HALT with cause RANGER_BOTH: every clock stops but Thermos, Den and the host link, the journal holds a new
commit with the halt record, which waits for its readout, and the settings, Den and the time base stand. A pair that is not live
changes nothing. The queue holds no other detection of the tick. (Clauses that rest on the model's own choices or readings: log
entries 1, 9, 49 and 52.) (16_faults.md) -/
def Obligations.RangerPairs : Prop :=
  ∀ (s : State) (p : Pair), s.boot.phase = .ready → (∀ c ∈ s.pending, s.toBlock.detection c = none) →
    (s.flt.isLive (.pair p) = false → exec (.lockstepMismatch p) s = .next s)
    ∧ (s.flt.pairA = true → s.flt.pairB = true →
      (s.flt.control ≠ p → Completes (.lockstepMismatch p) s fun t =>
        t.flt.isLive (.pair p) = false ∧ t.flt.control = s.flt.control ∧ t.flt.fenceCount = s.flt.fenceCount + 1
          ∧ t = { s.toBlock with flt := t.flt, host := t.host, ep := { s.ep with changeAt := s.now } })
      ∧ (s.flt.control = p → Completes (.lockstepMismatch p) s fun t =>
        t.flt.isLive (.pair p) = false ∧ t.flt.control ≠ p ∧ t.flt.isLive (.pair t.flt.control) = true ∧ t.flt.fox = s.flt.fox ∧ t.flt.tiles = s.flt.tiles
          ∧ t.flt.threads = s.flt.threads ∧ t.boot = s.boot ∧ t.cfg.active = s.cfg.active ∧ t.den = s.den ∧ t.thermos = s.thermos))
    ∧ (s.flt.pairs = 1 → s.flt.isLive (.pair p) = true → Completes (.lockstepMismatch p) s fun t =>
        t.boot.phase = .faultHalt ∧ t.boot.since = s.now ∧ t.boot.haltDue = true ∧ t.flt.haltCause = 1
          ∧ (∀ i < 11, i ≠ 0 → i ≠ 8 → i ≠ 9 → t.flt.clockOn.getD i false = false)
          ∧ t.flt.clockOn.getD 8 false = s.flt.clockOn.getD 8 false ∧ t.flt.clockOn.getD 9 false = s.flt.clockOn.getD 9 false
          ∧ t.flt.fenceLog = s.flt.fenceLog ∧ t.thermos = { s.thermos with journal := t.thermos.journal, journalUe := t.thermos.journalUe }
          ∧ (∀ b1 : Block, b1 = { s.toBlock with boot := { s.boot with phase := .faultHalt, since := s.now, haltDue := true }, flt := { s.flt with haltCause := 1, haltIsland := 0, clockOn := t.flt.clockOn }, pins := t.pins, host := { s.host with eventCause := setBit s.host.eventCause 0 } } →
              t.thermos.journal = (b1.journal (some b1.haltRecord)).thermos.journal)
          ∧ t = { s.toBlock with boot := t.boot, flt := t.flt, pins := t.pins, host := t.host, link := t.link, thermos := t.thermos })

/-- CLOCK_LATE: the generator does not match in 50 us. PACK_TIMEOUT on OTX-120C, 50 us after PREQ changed, with another point
delivered, sets PREQ and the island's point back to the delivered one, restarts its clock where nothing else stops it, and emits
CLOCK_LATE; earlier it does nothing. PACK_MATCH restarts the clock at the point asked for. (Clauses that rest on the model's own
choices or readings: log entry 72.) (18_block_edge.md) -/
def Obligations.ClocksAtTheEdge : Prop :=
  ∀ (s : State) (i : Dvfs) (u : Tick), s.boot.package = .c → s.pwr.packSince.getD (dvfsIndex i) none = some u →
    (∀ d : Fin 6, u + 12500 ≤ s.now → d ≠ ppGet s.pwr.preq i → s.pwr.packSince.length = 4 → Completes (.packTimeout i d) s fun t =>
      t.pwr = { s.pwr with preq := ppSet s.pwr.preq i d, pack := ppSet s.pwr.pack i d, pp := ppSet s.pwr.pp i d
                           packSince := s.pwr.packSince.set (dvfsIndex i) none }
        ∧ ppGet t.pwr.preq i = d ∧ ppGet t.pwr.pp i = d
        ∧ (s.pwr.iso.getD (dvfsIsland i) true = false → s.pwr.tripped = false → s.boot.phase ≠ .faultHalt → s.flt.clockOn.length = 11 →
          t.flt.clockOn.getD (dvfsIsland i) false = true)
        ∧ Tells 0x005B 0xFF (leBytes 1 (dvfsIsland i) ++ leBytes 1 (ppGet s.pwr.preq i).val ++ leBytes 1 d.val)
            { s.toBlock with pwr := t.pwr, flt := { s.flt with clockOn := t.flt.clockOn } } t
        ∧ t = { s.toBlock with pwr := t.pwr, flt := t.flt, host := t.host })
    ∧ (∀ d : Fin 6, s.now < u + 12500 → exec (.packTimeout i d) s = .next s)
    ∧ (s.pwr.packSince.length = 4 → Completes (.packMatch i) s fun t =>
      ppGet t.pwr.pack i = ppGet s.pwr.preq i ∧ t.pwr.packSince.getD (dvfsIndex i) none = none ∧ t.pwr.pp = s.pwr.pp
        ∧ (s.pwr.iso.getD (dvfsIsland i) true = false → s.pwr.tripped = false → s.boot.phase ≠ .faultHalt → s.flt.clockOn.length = 11 →
          t.flt.clockOn.getD (dvfsIsland i) false = true)
        ∧ t = { s.toBlock with pwr := t.pwr, flt := { s.flt with clockOn := t.flt.clockOn } })

/-- Supplies that come, fall and fail to come, beats that cross the edge, and partners that do not answer. On OTX-120C PWR_ACK_RISE of
an island that asks for its supply ends its isolation, Den's only once it is out of retention; RET_ACK_DEN lets Den's supply go or
its isolation end; PWR_ACK_FALL of a supply not asked for is noted, and of one asked for is a bridge watchdog fault of the island.
PWR_ACK_TIMEOUT after 10 ms fails the island: the trail island powers its lanes down and tells TRAILS_FAILED, any other enters
FAULT_HALT with cause ISLAND_FAILED; in BRINGUP and before 10 ms it does nothing. On OTX-120C an incoming beat in the FIRST ...
LAST order joins its sequence and one that breaks it, or whose request fell early, is discarded with its sequence and counted in
EDGE_PROTO; the packaged parts take none. EDGE_STALL of an outgoing channel is counted in EDGE_STALL; on a PCIe channel the link
is down, and a trail lane in training fails. (Clauses that rest on the model's own choices or readings: log entries 52, 71 and
72.) (18_block_edge.md, 16_faults.md) -/
def Obligations.SuppliesAndBeatsAtTheEdge : Prop :=
  (∀ (s : State) (i : Island), s.pwr.pwrAck.length = 11 → s.pwr.iso.length = 11 → s.flt.failed.length = 11 →
      (s.boot.package ≠ .c → exec (.pwrAckRise i) s = .next s ∧ exec (.pwrAckFall i) s = .next s ∧ exec (.pwrAckTimeout i) s = .next s
        ∧ ∀ v, exec (.retAckDen v) s = .next s)
      ∧ (s.boot.package = .c → i ≠ .thermos →
        (s.pwr.pwrReq.getD (islandNo i) false = true → s.pwr.pwrAck.getD (islandNo i) false = false → (i ≠ .den ∨ s.pwr.retDen = false) →
          Completes (.pwrAckRise i) s fun t =>
            t.pwr = { s.pwr with pwrAck := s.pwr.pwrAck.set (islandNo i) true, iso := s.pwr.iso.set (islandNo i) false }
              ∧ t = { s.toBlock with pwr := t.pwr, flt := { s.flt with clockOn := t.flt.clockOn } })
        ∧ (s.pwr.pwrReq.getD 8 false = true → s.pwr.pwrAck.getD 8 false = false → s.pwr.retDen = true → s.pwr.retAckDen = true →
          exec (.pwrAckRise .den) s = .next { s with pwr := { s.pwr with pwrAck := s.pwr.pwrAck.set 8 true, retDen := false } })
        ∧ (s.pwr.retDen = true → s.pwr.retAckDen = false → exec (.retAckDen true) s = .next { s with
            pwr := { s.pwr with retAckDen := true, pwrReq := s.pwr.pwrReq.set 8 false } })
        ∧ (s.pwr.retDen = false → s.pwr.retAckDen = true → s.pwr.pwrReq.getD 8 false = true → s.pwr.pwrAck.getD 8 false = true →
          Completes (.retAckDen false) s fun t => t.pwr = { s.pwr with retAckDen := false, iso := s.pwr.iso.set 8 false }
            ∧ t = { s.toBlock with pwr := t.pwr, flt := { s.flt with clockOn := t.flt.clockOn } })
        ∧ (s.pwr.pwrAck.getD (islandNo i) false = true →
          (s.pwr.pwrReq.getD (islandNo i) false = false → exec (.pwrAckFall i) s = .next { s with
              pwr := { s.pwr with pwrAck := s.pwr.pwrAck.set (islandNo i) false } })
          ∧ (s.pwr.pwrReq.getD (islandNo i) false = true → exec (.pwrAckFall i) s =
              .next { s with
                toBlock := Block.bridgeFault (islandNo i) none 9
                  { s.toBlock with pwr := { s.pwr with pwrAck := s.pwr.pwrAck.set (islandNo i) false } } }))
        ∧ (s.pwr.pwrReq.getD (islandNo i) false = true → s.pwr.pwrAck.getD (islandNo i) false = false → s.flt.failed.getD (islandNo i) false = false →
          (s.boot.phase = .ready → s.pwr.pwrSince.getD (islandNo i) 0 + 2500000 ≤ s.now →
            (i ≠ .trail → Completes (.pwrAckTimeout i) s fun t =>
              t.boot.phase = .faultHalt ∧ t.flt.haltCause = 2 ∧ t.flt.haltIsland = BitVec.ofNat 4 (islandNo i) ∧ t.flt.failed.getD (islandNo i) false = true)
            ∧ (i = .trail → Completes (.pwrAckTimeout i) s fun t =>
              t.boot = s.boot ∧ t.trail.failed = true ∧ t.flt.failed.getD 10 false = true ∧ (∀ x ∈ t.trail.lanes, x.st = .off)
                ∧ Tells 0x0014 0xFF [] { s.toBlock with trail := t.trail, flt := { s.flt with failed := s.flt.failed.set 10 true } } t))
          ∧ (s.boot.phase = .bringup ∨ s.now < s.pwr.pwrSince.getD (islandNo i) 0 + 2500000 → exec (.pwrAckTimeout i) s = .next s))))
  ∧ (∀ (s : State) (c : Fin 53) (x : Beat) (e : Bool), s.edge.length = 53 →
      (s.boot.package ≠ .c → exec (.edgeBeatIn c x e) s = .next s ∧ exec (.edgeStall c) s = .next s)
      ∧ (edgeIn c = false → exec (.edgeBeatIn c x e) s = .next s)
      ∧ (edgeIn c = true → exec (.edgeStall c) s = .next s)
      ∧ (s.edgeRuns c = true →
        (edgeIn c = true → Completes (.edgeBeatIn c x e) s fun t =>
          (e = true ∨ x.kind.getLsbD 0 = (s.edge.getD c {}).inSeq →
            t.edge.getD c {} = { s.edge.getD c {} with beats := [], inSeq := false, proto := bump (s.edge.getD c {}).proto })
          ∧ (e = false → x.kind.getLsbD 0 ≠ (s.edge.getD c {}).inSeq →
            (x.kind.getLsbD 1 = false → t.edge.getD c {} = { s.edge.getD c {} with beats := (s.edge.getD c {}).beats ++ [x], inSeq := true })
            ∧ (x.kind.getLsbD 1 = true → t.edge.getD c {} = { s.edge.getD c {} with beats := [], inSeq := false }))
          ∧ (∀ j : Nat, j ≠ c → t.edge.getD j {} = s.edge.getD j {}) ∧ t = { s.toBlock with edge := t.edge, ports := t.ports }
          ∧ (6 ≤ c.val ∨ x.sealWord.getLsbD 10 = false → t.ports = s.ports))
        ∧ (edgeIn c = false → Completes (.edgeStall c) s fun t =>
          t.edge = s.edge.modify c (fun y => { y with stall := bump y.stall })
            ∧ (c.val < 8 → t.link.up = false) ∧ (8 ≤ c.val → t.link.up = s.link.up)
            ∧ (∀ l : Fin 18, c.val = 10 + l.val → (s.lane l).st = .training → s.trail.lanes.length = 18 →
              (t.lane l).st = .failed ∧ (t.lane l).trainFail = bump (s.lane l).trainFail ∧ ∀ j : Nat, j ≠ l → t.lane j = s.lane j)
            ∧ (c.val < 28 → t.cfg = s.cfg ∧ t.ep = s.ep ∧ t.boot = s.boot))))

/-- TB_EPOCH changes only as R114 sets out, and nothing else moves the time base. Whatever command is run, TB_EPOCH changes only at a
cold Thermos POR, by an arbitration on VBK that causes one, at a crystal stop on VBK alone, or by the counter's answer or silence
on OTX-120C; TB changes under no command but those that start it from zero. In particular no host write, RESET_N, main POR or
hamper changes either. (R115) -/
def Obligations.TimeBaseMoves : Prop :=
  ∀ (c : Instr) (s t : State), exec c s = .next t →
    (t.thermos.tbEpoch ≠ s.thermos.tbEpoch →
      c = .coldThermosPor ∨ (s.thermos.onVbk = true ∧ ((∃ a f, c = .thermosArbitration a f) ∨ c = .crystalStop))
        ∨ (s.thermos.nv ≠ .idle ∧ ((∃ v e, c = .nvCounterResponse v e) ∨ c = .nvCounterTimeout)))
    ∧ (t.thermos.tb ≠ s.thermos.tb →
      c = .coldThermosPor ∨ (s.thermos.onVbk = true ∧ ∃ a f, c = .thermosArbitration a f) ∨ (s.boot.package = .c ∧ c = .tporRelease))

/-- HALTED_NOBOOT and FAULT_HALT are left by a reset alone. In HALTED_NOBOOT and FAULT_HALT every command but RESET_N, a loss of main
or Thermos power, and a host soft reset with its key leaves the boot phase; each of those leaves the halt. (R42) -/
def Obligations.HaltsHold : Prop :=
  (∀ (c : Instr) (s t : State), exec c s = .next t → s.boot.phase = .haltedNoboot ∨ s.boot.phase = .faultHalt → ¬Resets c →
      t.boot.phase = s.boot.phase)
  ∧ (∀ (s : State) (c : Instr), s.boot.phase = .haltedNoboot ∨ s.boot.phase = .faultHalt →
      c = .resetNFall ∨ (∃ v, c = .softReset v ∧ softKey v) ∨ (∃ v, c = .registerWrite (.bar0 0x210 4 v) ∧ softKey (v.setWidth 32)) →
      Completes c s fun t => t.boot.phase = .mainPor)
  ∧ (∀ (s : State) (r : BitVec 8), s.boot.phase = .haltedNoboot ∨ s.boot.phase = .faultHalt → s.pins.resetN = true →
      Completes (.mainBrownout r) s fun t => t.boot.phase = .mainPor)

/-- SHUTDOWN stays until reset, and goes before PAUSE. Once SHUTDOWN is 1 no command but a reset clears it; while it is 1 a write that
sets or clears PAUSE changes nothing; a write of both bits is the command SHUTDOWN. (R649) -/
def Obligations.ShutdownStays : Prop :=
  (∀ (c : Instr) (s t : State), exec c s = .next t → s.pwr.shutdown = true → ¬Resets c → t.pwr.shutdown = true)
  ∧ (∀ (s : State) (v : BitVec 64), s.boot.phase = .ready → s.pwr.shutdown = true → v.getLsbD 1 = false →
      exec (.registerWrite (.bar0 0x220 4 v)) s = .next s)
  ∧ (∀ (s : State) (v : BitVec 64), s.boot.phase = .ready → v.getLsbD 1 = true → exec (.registerWrite (.bar0 0x220 4 v)) s = exec .shutdown s)

/-- No unit comes back and the step level never falls before a reset. Whatever command is run, unless it is a reset, a unit that is
fenced stays fenced, the step level does not fall, and CAPACITY.STEP shows it. (Clauses that rest on the model's own choices or
readings: log entry 59.) (16_faults.md) -/
def Obligations.FencesStay : Prop :=
  ∀ (c : Instr) (s t : State), exec c s = .next t → ¬Resets c →
    (∀ k : Fenceable, t.flt.isLive k = true → s.flt.isLive k = true) ∧ s.flt.step ≤ t.flt.step
      ∧ (t.flt.capacity.extractLsb' 28 4 = (if t.flt.capOn then BitVec.ofNat 4 t.flt.step.val else 0))

/-- Every step keeps the memories canonical and the tables whole. If every memory of the block is in its canonical form and every
table has its length, so it is after any step. (The canonical form is the model's own, log entry 2.) (12_den.md,
03_settings_sets.md, 17_power.md, 19_registers.md) -/
def Obligations.InvariantKept : Prop :=
  ∀ s t : State, s.toBlock.Inv → step s = .next t → t.toBlock.Inv

/-- The machine right after reset. At reset the engine is in THERMOS_POR with an empty queue, the invariant holds, every MSI-X vector
is masked, no queue is enabled and no stream open, CAPACITY reads 0 and OWL_STATUS 0xFFFFFFFF. (Fields without a stated reset
value are the model's choice, log entry 3.) (19_registers.md, 02_waking.md) -/
def Obligations.ResetState : Prop :=
  State.reset.toBlock.Inv ∧ State.reset.pending = [] ∧ State.reset.boot.phase = .thermosPor ∧ State.reset.thermos.tb = 0
    ∧ (∀ m ∈ State.reset.link.msix, m.mask = true) ∧ (∀ q ∈ State.reset.host.queues, q.enabled = false ∧ q.sqBase = 0 ∧ q.cmds = [])
    ∧ (∀ x ∈ State.reset.host.streams, x.isOpen = false ∧ x.nextSeq = 0) ∧ State.reset.flt.capacity = 0 ∧ State.reset.cfg.modelErr = 0xFFFFFFFF
    ∧ (∀ g ∈ State.reset.guests, g.st = .free) ∧ State.reset.feat.committed = 0 ∧ State.reset.reg32 0x124 = 0
    ∧ step State.reset = .next { State.reset with thermos := State.reset.thermos.advance }
end

