-- ==== Sys2Proof/Laws/State.lean ====
section
/-! SUPPORT. What the named operations over the block keep: one lemma for each operation of Machine/Ops.lean, which says which fields
of the block it leaves as they were. Each conjunct is a simp rule, so that no later proof unfolds a record update. -/

namespace Sys2Proof.Machine

/-- A field of a conditional block. -/
@[simp] theorem ite_fields (c : Prop) [Decidable c] (x y : Block) :
    (if c then x else y).thermos = (if c then x.thermos else y.thermos)
    ∧ (if c then x else y).boot = (if c then x.boot else y.boot)
    ∧ (if c then x else y).pins = (if c then x.pins else y.pins)
    ∧ (if c then x else y).feat = (if c then x.feat else y.feat)
    ∧ (if c then x else y).link = (if c then x.link else y.link)
    ∧ (if c then x else y).cfg = (if c then x.cfg else y.cfg)
    ∧ (if c then x else y).ep = (if c then x.ep else y.ep)
    ∧ (if c then x else y).tim = (if c then x.tim else y.tim)
    ∧ (if c then x else y).ports = (if c then x.ports else y.ports)
    ∧ (if c then x else y).slots = (if c then x.slots else y.slots)
    ∧ (if c then x else y).ctls = (if c then x.ctls else y.ctls)
    ∧ (if c then x else y).ifc = (if c then x.ifc else y.ifc)
    ∧ (if c then x else y).fox = (if c then x.fox else y.fox)
    ∧ (if c then x else y).afu = (if c then x.afu else y.afu)
    ∧ (if c then x else y).owl = (if c then x.owl else y.owl)
    ∧ (if c then x else y).badger = (if c then x.badger else y.badger)
    ∧ (if c then x else y).den = (if c then x.den else y.den)
    ∧ (if c then x else y).map = (if c then x.map else y.map)
    ∧ (if c then x else y).guests = (if c then x.guests else y.guests)
    ∧ (if c then x else y).host = (if c then x.host else y.host)
    ∧ (if c then x else y).flt = (if c then x.flt else y.flt)
    ∧ (if c then x else y).pwr = (if c then x.pwr else y.pwr)
    ∧ (if c then x else y).edge = (if c then x.edge else y.edge)
    ∧ (if c then x else y).trail = (if c then x.trail else y.trail)
    ∧ (if c then x else y).fresh = (if c then x.fresh else y.fresh) := by
  split <;> simp

/-- What a step of a fold keeps, the fold keeps. -/
theorem foldl_keeps {α β γ : Type} (g : β → γ) (f : β → α → β) (h : ∀ b x, g (f b x) = g b) (l : List α) :
    ∀ b : β, g (l.foldl f b) = g b := by
  induction l with
  | nil => intro b; rfl
  | cons a l ih => intro b; rw [List.foldl_cons, ih, h]


@[simp] theorem foldl_thermos {α : Type} (f : Block → α → Block) (h : ∀ b x, (f b x).thermos = b.thermos) (l : List α) (b : Block) :
    (l.foldl f b).thermos = b.thermos := foldl_keeps Block.thermos f h l b
@[simp] theorem foldl_fst_thermos {α β : Type} (f : Block × β → α → Block × β) (h : ∀ b x, (f b x).1.thermos = b.1.thermos) (l : List α) (b : Block × β) :
    (l.foldl f b).1.thermos = b.1.thermos := foldl_keeps (fun y => y.1.thermos) f h l b
@[simp] theorem foldl_snd_thermos {α β : Type} (f : β × Block → α → β × Block) (h : ∀ b x, (f b x).2.thermos = b.2.thermos) (l : List α) (b : β × Block) :
    (l.foldl f b).2.thermos = b.2.thermos := foldl_keeps (fun y => y.2.thermos) f h l b

@[simp] theorem foldl_boot {α : Type} (f : Block → α → Block) (h : ∀ b x, (f b x).boot = b.boot) (l : List α) (b : Block) :
    (l.foldl f b).boot = b.boot := foldl_keeps Block.boot f h l b
@[simp] theorem foldl_fst_boot {α β : Type} (f : Block × β → α → Block × β) (h : ∀ b x, (f b x).1.boot = b.1.boot) (l : List α) (b : Block × β) :
    (l.foldl f b).1.boot = b.1.boot := foldl_keeps (fun y => y.1.boot) f h l b
@[simp] theorem foldl_snd_boot {α β : Type} (f : β × Block → α → β × Block) (h : ∀ b x, (f b x).2.boot = b.2.boot) (l : List α) (b : β × Block) :
    (l.foldl f b).2.boot = b.2.boot := foldl_keeps (fun y => y.2.boot) f h l b

@[simp] theorem foldl_pins {α : Type} (f : Block → α → Block) (h : ∀ b x, (f b x).pins = b.pins) (l : List α) (b : Block) :
    (l.foldl f b).pins = b.pins := foldl_keeps Block.pins f h l b
@[simp] theorem foldl_fst_pins {α β : Type} (f : Block × β → α → Block × β) (h : ∀ b x, (f b x).1.pins = b.1.pins) (l : List α) (b : Block × β) :
    (l.foldl f b).1.pins = b.1.pins := foldl_keeps (fun y => y.1.pins) f h l b
@[simp] theorem foldl_snd_pins {α β : Type} (f : β × Block → α → β × Block) (h : ∀ b x, (f b x).2.pins = b.2.pins) (l : List α) (b : β × Block) :
    (l.foldl f b).2.pins = b.2.pins := foldl_keeps (fun y => y.2.pins) f h l b

@[simp] theorem foldl_feat {α : Type} (f : Block → α → Block) (h : ∀ b x, (f b x).feat = b.feat) (l : List α) (b : Block) :
    (l.foldl f b).feat = b.feat := foldl_keeps Block.feat f h l b
@[simp] theorem foldl_fst_feat {α β : Type} (f : Block × β → α → Block × β) (h : ∀ b x, (f b x).1.feat = b.1.feat) (l : List α) (b : Block × β) :
    (l.foldl f b).1.feat = b.1.feat := foldl_keeps (fun y => y.1.feat) f h l b
@[simp] theorem foldl_snd_feat {α β : Type} (f : β × Block → α → β × Block) (h : ∀ b x, (f b x).2.feat = b.2.feat) (l : List α) (b : β × Block) :
    (l.foldl f b).2.feat = b.2.feat := foldl_keeps (fun y => y.2.feat) f h l b

@[simp] theorem foldl_link {α : Type} (f : Block → α → Block) (h : ∀ b x, (f b x).link = b.link) (l : List α) (b : Block) :
    (l.foldl f b).link = b.link := foldl_keeps Block.link f h l b
@[simp] theorem foldl_fst_link {α β : Type} (f : Block × β → α → Block × β) (h : ∀ b x, (f b x).1.link = b.1.link) (l : List α) (b : Block × β) :
    (l.foldl f b).1.link = b.1.link := foldl_keeps (fun y => y.1.link) f h l b
@[simp] theorem foldl_snd_link {α β : Type} (f : β × Block → α → β × Block) (h : ∀ b x, (f b x).2.link = b.2.link) (l : List α) (b : β × Block) :
    (l.foldl f b).2.link = b.2.link := foldl_keeps (fun y => y.2.link) f h l b

@[simp] theorem foldl_cfg {α : Type} (f : Block → α → Block) (h : ∀ b x, (f b x).cfg = b.cfg) (l : List α) (b : Block) :
    (l.foldl f b).cfg = b.cfg := foldl_keeps Block.cfg f h l b
@[simp] theorem foldl_fst_cfg {α β : Type} (f : Block × β → α → Block × β) (h : ∀ b x, (f b x).1.cfg = b.1.cfg) (l : List α) (b : Block × β) :
    (l.foldl f b).1.cfg = b.1.cfg := foldl_keeps (fun y => y.1.cfg) f h l b
@[simp] theorem foldl_snd_cfg {α β : Type} (f : β × Block → α → β × Block) (h : ∀ b x, (f b x).2.cfg = b.2.cfg) (l : List α) (b : β × Block) :
    (l.foldl f b).2.cfg = b.2.cfg := foldl_keeps (fun y => y.2.cfg) f h l b

@[simp] theorem foldl_ep {α : Type} (f : Block → α → Block) (h : ∀ b x, (f b x).ep = b.ep) (l : List α) (b : Block) :
    (l.foldl f b).ep = b.ep := foldl_keeps Block.ep f h l b
@[simp] theorem foldl_fst_ep {α β : Type} (f : Block × β → α → Block × β) (h : ∀ b x, (f b x).1.ep = b.1.ep) (l : List α) (b : Block × β) :
    (l.foldl f b).1.ep = b.1.ep := foldl_keeps (fun y => y.1.ep) f h l b
@[simp] theorem foldl_snd_ep {α β : Type} (f : β × Block → α → β × Block) (h : ∀ b x, (f b x).2.ep = b.2.ep) (l : List α) (b : β × Block) :
    (l.foldl f b).2.ep = b.2.ep := foldl_keeps (fun y => y.2.ep) f h l b

@[simp] theorem foldl_tim {α : Type} (f : Block → α → Block) (h : ∀ b x, (f b x).tim = b.tim) (l : List α) (b : Block) :
    (l.foldl f b).tim = b.tim := foldl_keeps Block.tim f h l b
@[simp] theorem foldl_fst_tim {α β : Type} (f : Block × β → α → Block × β) (h : ∀ b x, (f b x).1.tim = b.1.tim) (l : List α) (b : Block × β) :
    (l.foldl f b).1.tim = b.1.tim := foldl_keeps (fun y => y.1.tim) f h l b
@[simp] theorem foldl_snd_tim {α β : Type} (f : β × Block → α → β × Block) (h : ∀ b x, (f b x).2.tim = b.2.tim) (l : List α) (b : β × Block) :
    (l.foldl f b).2.tim = b.2.tim := foldl_keeps (fun y => y.2.tim) f h l b

@[simp] theorem foldl_ports {α : Type} (f : Block → α → Block) (h : ∀ b x, (f b x).ports = b.ports) (l : List α) (b : Block) :
    (l.foldl f b).ports = b.ports := foldl_keeps Block.ports f h l b
@[simp] theorem foldl_fst_ports {α β : Type} (f : Block × β → α → Block × β) (h : ∀ b x, (f b x).1.ports = b.1.ports) (l : List α) (b : Block × β) :
    (l.foldl f b).1.ports = b.1.ports := foldl_keeps (fun y => y.1.ports) f h l b
@[simp] theorem foldl_snd_ports {α β : Type} (f : β × Block → α → β × Block) (h : ∀ b x, (f b x).2.ports = b.2.ports) (l : List α) (b : β × Block) :
    (l.foldl f b).2.ports = b.2.ports := foldl_keeps (fun y => y.2.ports) f h l b

@[simp] theorem foldl_slots {α : Type} (f : Block → α → Block) (h : ∀ b x, (f b x).slots = b.slots) (l : List α) (b : Block) :
    (l.foldl f b).slots = b.slots := foldl_keeps Block.slots f h l b
@[simp] theorem foldl_fst_slots {α β : Type} (f : Block × β → α → Block × β) (h : ∀ b x, (f b x).1.slots = b.1.slots) (l : List α) (b : Block × β) :
    (l.foldl f b).1.slots = b.1.slots := foldl_keeps (fun y => y.1.slots) f h l b
@[simp] theorem foldl_snd_slots {α β : Type} (f : β × Block → α → β × Block) (h : ∀ b x, (f b x).2.slots = b.2.slots) (l : List α) (b : β × Block) :
    (l.foldl f b).2.slots = b.2.slots := foldl_keeps (fun y => y.2.slots) f h l b

@[simp] theorem foldl_ctls {α : Type} (f : Block → α → Block) (h : ∀ b x, (f b x).ctls = b.ctls) (l : List α) (b : Block) :
    (l.foldl f b).ctls = b.ctls := foldl_keeps Block.ctls f h l b
@[simp] theorem foldl_fst_ctls {α β : Type} (f : Block × β → α → Block × β) (h : ∀ b x, (f b x).1.ctls = b.1.ctls) (l : List α) (b : Block × β) :
    (l.foldl f b).1.ctls = b.1.ctls := foldl_keeps (fun y => y.1.ctls) f h l b
@[simp] theorem foldl_snd_ctls {α β : Type} (f : β × Block → α → β × Block) (h : ∀ b x, (f b x).2.ctls = b.2.ctls) (l : List α) (b : β × Block) :
    (l.foldl f b).2.ctls = b.2.ctls := foldl_keeps (fun y => y.2.ctls) f h l b

@[simp] theorem foldl_ifc {α : Type} (f : Block → α → Block) (h : ∀ b x, (f b x).ifc = b.ifc) (l : List α) (b : Block) :
    (l.foldl f b).ifc = b.ifc := foldl_keeps Block.ifc f h l b
@[simp] theorem foldl_fst_ifc {α β : Type} (f : Block × β → α → Block × β) (h : ∀ b x, (f b x).1.ifc = b.1.ifc) (l : List α) (b : Block × β) :
    (l.foldl f b).1.ifc = b.1.ifc := foldl_keeps (fun y => y.1.ifc) f h l b
@[simp] theorem foldl_snd_ifc {α β : Type} (f : β × Block → α → β × Block) (h : ∀ b x, (f b x).2.ifc = b.2.ifc) (l : List α) (b : β × Block) :
    (l.foldl f b).2.ifc = b.2.ifc := foldl_keeps (fun y => y.2.ifc) f h l b

@[simp] theorem foldl_fox {α : Type} (f : Block → α → Block) (h : ∀ b x, (f b x).fox = b.fox) (l : List α) (b : Block) :
    (l.foldl f b).fox = b.fox := foldl_keeps Block.fox f h l b
@[simp] theorem foldl_fst_fox {α β : Type} (f : Block × β → α → Block × β) (h : ∀ b x, (f b x).1.fox = b.1.fox) (l : List α) (b : Block × β) :
    (l.foldl f b).1.fox = b.1.fox := foldl_keeps (fun y => y.1.fox) f h l b
@[simp] theorem foldl_snd_fox {α β : Type} (f : β × Block → α → β × Block) (h : ∀ b x, (f b x).2.fox = b.2.fox) (l : List α) (b : β × Block) :
    (l.foldl f b).2.fox = b.2.fox := foldl_keeps (fun y => y.2.fox) f h l b

@[simp] theorem foldl_afu {α : Type} (f : Block → α → Block) (h : ∀ b x, (f b x).afu = b.afu) (l : List α) (b : Block) :
    (l.foldl f b).afu = b.afu := foldl_keeps Block.afu f h l b
@[simp] theorem foldl_fst_afu {α β : Type} (f : Block × β → α → Block × β) (h : ∀ b x, (f b x).1.afu = b.1.afu) (l : List α) (b : Block × β) :
    (l.foldl f b).1.afu = b.1.afu := foldl_keeps (fun y => y.1.afu) f h l b
@[simp] theorem foldl_snd_afu {α β : Type} (f : β × Block → α → β × Block) (h : ∀ b x, (f b x).2.afu = b.2.afu) (l : List α) (b : β × Block) :
    (l.foldl f b).2.afu = b.2.afu := foldl_keeps (fun y => y.2.afu) f h l b

@[simp] theorem foldl_owl {α : Type} (f : Block → α → Block) (h : ∀ b x, (f b x).owl = b.owl) (l : List α) (b : Block) :
    (l.foldl f b).owl = b.owl := foldl_keeps Block.owl f h l b
@[simp] theorem foldl_fst_owl {α β : Type} (f : Block × β → α → Block × β) (h : ∀ b x, (f b x).1.owl = b.1.owl) (l : List α) (b : Block × β) :
    (l.foldl f b).1.owl = b.1.owl := foldl_keeps (fun y => y.1.owl) f h l b
@[simp] theorem foldl_snd_owl {α β : Type} (f : β × Block → α → β × Block) (h : ∀ b x, (f b x).2.owl = b.2.owl) (l : List α) (b : β × Block) :
    (l.foldl f b).2.owl = b.2.owl := foldl_keeps (fun y => y.2.owl) f h l b

@[simp] theorem foldl_badger {α : Type} (f : Block → α → Block) (h : ∀ b x, (f b x).badger = b.badger) (l : List α) (b : Block) :
    (l.foldl f b).badger = b.badger := foldl_keeps Block.badger f h l b
@[simp] theorem foldl_fst_badger {α β : Type} (f : Block × β → α → Block × β) (h : ∀ b x, (f b x).1.badger = b.1.badger) (l : List α) (b : Block × β) :
    (l.foldl f b).1.badger = b.1.badger := foldl_keeps (fun y => y.1.badger) f h l b
@[simp] theorem foldl_snd_badger {α β : Type} (f : β × Block → α → β × Block) (h : ∀ b x, (f b x).2.badger = b.2.badger) (l : List α) (b : β × Block) :
    (l.foldl f b).2.badger = b.2.badger := foldl_keeps (fun y => y.2.badger) f h l b

@[simp] theorem foldl_den {α : Type} (f : Block → α → Block) (h : ∀ b x, (f b x).den = b.den) (l : List α) (b : Block) :
    (l.foldl f b).den = b.den := foldl_keeps Block.den f h l b
@[simp] theorem foldl_fst_den {α β : Type} (f : Block × β → α → Block × β) (h : ∀ b x, (f b x).1.den = b.1.den) (l : List α) (b : Block × β) :
    (l.foldl f b).1.den = b.1.den := foldl_keeps (fun y => y.1.den) f h l b
@[simp] theorem foldl_snd_den {α β : Type} (f : β × Block → α → β × Block) (h : ∀ b x, (f b x).2.den = b.2.den) (l : List α) (b : β × Block) :
    (l.foldl f b).2.den = b.2.den := foldl_keeps (fun y => y.2.den) f h l b

@[simp] theorem foldl_map {α : Type} (f : Block → α → Block) (h : ∀ b x, (f b x).map = b.map) (l : List α) (b : Block) :
    (l.foldl f b).map = b.map := foldl_keeps Block.map f h l b
@[simp] theorem foldl_fst_map {α β : Type} (f : Block × β → α → Block × β) (h : ∀ b x, (f b x).1.map = b.1.map) (l : List α) (b : Block × β) :
    (l.foldl f b).1.map = b.1.map := foldl_keeps (fun y => y.1.map) f h l b
@[simp] theorem foldl_snd_map {α β : Type} (f : β × Block → α → β × Block) (h : ∀ b x, (f b x).2.map = b.2.map) (l : List α) (b : β × Block) :
    (l.foldl f b).2.map = b.2.map := foldl_keeps (fun y => y.2.map) f h l b

@[simp] theorem foldl_guests {α : Type} (f : Block → α → Block) (h : ∀ b x, (f b x).guests = b.guests) (l : List α) (b : Block) :
    (l.foldl f b).guests = b.guests := foldl_keeps Block.guests f h l b
@[simp] theorem foldl_fst_guests {α β : Type} (f : Block × β → α → Block × β) (h : ∀ b x, (f b x).1.guests = b.1.guests) (l : List α) (b : Block × β) :
    (l.foldl f b).1.guests = b.1.guests := foldl_keeps (fun y => y.1.guests) f h l b
@[simp] theorem foldl_snd_guests {α β : Type} (f : β × Block → α → β × Block) (h : ∀ b x, (f b x).2.guests = b.2.guests) (l : List α) (b : β × Block) :
    (l.foldl f b).2.guests = b.2.guests := foldl_keeps (fun y => y.2.guests) f h l b

@[simp] theorem foldl_host {α : Type} (f : Block → α → Block) (h : ∀ b x, (f b x).host = b.host) (l : List α) (b : Block) :
    (l.foldl f b).host = b.host := foldl_keeps Block.host f h l b
@[simp] theorem foldl_fst_host {α β : Type} (f : Block × β → α → Block × β) (h : ∀ b x, (f b x).1.host = b.1.host) (l : List α) (b : Block × β) :
    (l.foldl f b).1.host = b.1.host := foldl_keeps (fun y => y.1.host) f h l b
@[simp] theorem foldl_snd_host {α β : Type} (f : β × Block → α → β × Block) (h : ∀ b x, (f b x).2.host = b.2.host) (l : List α) (b : β × Block) :
    (l.foldl f b).2.host = b.2.host := foldl_keeps (fun y => y.2.host) f h l b

@[simp] theorem foldl_flt {α : Type} (f : Block → α → Block) (h : ∀ b x, (f b x).flt = b.flt) (l : List α) (b : Block) :
    (l.foldl f b).flt = b.flt := foldl_keeps Block.flt f h l b
@[simp] theorem foldl_fst_flt {α β : Type} (f : Block × β → α → Block × β) (h : ∀ b x, (f b x).1.flt = b.1.flt) (l : List α) (b : Block × β) :
    (l.foldl f b).1.flt = b.1.flt := foldl_keeps (fun y => y.1.flt) f h l b
@[simp] theorem foldl_snd_flt {α β : Type} (f : β × Block → α → β × Block) (h : ∀ b x, (f b x).2.flt = b.2.flt) (l : List α) (b : β × Block) :
    (l.foldl f b).2.flt = b.2.flt := foldl_keeps (fun y => y.2.flt) f h l b

@[simp] theorem foldl_pwr {α : Type} (f : Block → α → Block) (h : ∀ b x, (f b x).pwr = b.pwr) (l : List α) (b : Block) :
    (l.foldl f b).pwr = b.pwr := foldl_keeps Block.pwr f h l b
@[simp] theorem foldl_fst_pwr {α β : Type} (f : Block × β → α → Block × β) (h : ∀ b x, (f b x).1.pwr = b.1.pwr) (l : List α) (b : Block × β) :
    (l.foldl f b).1.pwr = b.1.pwr := foldl_keeps (fun y => y.1.pwr) f h l b
@[simp] theorem foldl_snd_pwr {α β : Type} (f : β × Block → α → β × Block) (h : ∀ b x, (f b x).2.pwr = b.2.pwr) (l : List α) (b : β × Block) :
    (l.foldl f b).2.pwr = b.2.pwr := foldl_keeps (fun y => y.2.pwr) f h l b

@[simp] theorem foldl_edge {α : Type} (f : Block → α → Block) (h : ∀ b x, (f b x).edge = b.edge) (l : List α) (b : Block) :
    (l.foldl f b).edge = b.edge := foldl_keeps Block.edge f h l b
@[simp] theorem foldl_fst_edge {α β : Type} (f : Block × β → α → Block × β) (h : ∀ b x, (f b x).1.edge = b.1.edge) (l : List α) (b : Block × β) :
    (l.foldl f b).1.edge = b.1.edge := foldl_keeps (fun y => y.1.edge) f h l b
@[simp] theorem foldl_snd_edge {α β : Type} (f : β × Block → α → β × Block) (h : ∀ b x, (f b x).2.edge = b.2.edge) (l : List α) (b : β × Block) :
    (l.foldl f b).2.edge = b.2.edge := foldl_keeps (fun y => y.2.edge) f h l b

@[simp] theorem foldl_trail {α : Type} (f : Block → α → Block) (h : ∀ b x, (f b x).trail = b.trail) (l : List α) (b : Block) :
    (l.foldl f b).trail = b.trail := foldl_keeps Block.trail f h l b
@[simp] theorem foldl_fst_trail {α β : Type} (f : Block × β → α → Block × β) (h : ∀ b x, (f b x).1.trail = b.1.trail) (l : List α) (b : Block × β) :
    (l.foldl f b).1.trail = b.1.trail := foldl_keeps (fun y => y.1.trail) f h l b
@[simp] theorem foldl_snd_trail {α β : Type} (f : β × Block → α → β × Block) (h : ∀ b x, (f b x).2.trail = b.2.trail) (l : List α) (b : β × Block) :
    (l.foldl f b).2.trail = b.2.trail := foldl_keeps (fun y => y.2.trail) f h l b

@[simp] theorem foldl_fresh {α : Type} (f : Block → α → Block) (h : ∀ b x, (f b x).fresh = b.fresh) (l : List α) (b : Block) :
    (l.foldl f b).fresh = b.fresh := foldl_keeps Block.fresh f h l b
@[simp] theorem foldl_fst_fresh {α β : Type} (f : Block × β → α → Block × β) (h : ∀ b x, (f b x).1.fresh = b.1.fresh) (l : List α) (b : Block × β) :
    (l.foldl f b).1.fresh = b.1.fresh := foldl_keeps (fun y => y.1.fresh) f h l b
@[simp] theorem foldl_snd_fresh {α β : Type} (f : β × Block → α → β × Block) (h : ∀ b x, (f b x).2.fresh = b.2.fresh) (l : List α) (b : β × Block) :
    (l.foldl f b).2.fresh = b.2.fresh := foldl_keeps (fun y => y.2.fresh) f h l b

@[simp] theorem Block.drew_frame : ∀ b, (Block.drew b).thermos = b.thermos ∧ (Block.drew b).boot = b.boot ∧ (Block.drew b).pins = b.pins
    ∧ (Block.drew b).feat = b.feat ∧ (Block.drew b).link = b.link ∧ (Block.drew b).cfg = b.cfg ∧ (Block.drew b).ep = b.ep
    ∧ (Block.drew b).tim = b.tim ∧ (Block.drew b).ports = b.ports ∧ (Block.drew b).slots = b.slots ∧ (Block.drew b).ctls = b.ctls
    ∧ (Block.drew b).ifc = b.ifc ∧ (Block.drew b).fox = b.fox ∧ (Block.drew b).afu = b.afu ∧ (Block.drew b).owl = b.owl
    ∧ (Block.drew b).badger = b.badger ∧ (Block.drew b).den = b.den ∧ (Block.drew b).map = b.map ∧ (Block.drew b).guests = b.guests
    ∧ (Block.drew b).host = b.host ∧ (Block.drew b).flt = b.flt ∧ (Block.drew b).pwr = b.pwr ∧ (Block.drew b).edge = b.edge
    ∧ (Block.drew b).trail = b.trail := by
  intros; exact ⟨rfl, rfl, rfl, rfl, rfl, rfl, rfl, rfl, rfl, rfl, rfl, rfl, rfl, rfl, rfl, rfl, rfl, rfl, rfl, rfl, rfl, rfl, rfl, rfl⟩

@[simp] theorem Block.signal_frame : ∀ x0 b, (Block.signal x0 b).thermos = b.thermos ∧ (Block.signal x0 b).boot = b.boot
    ∧ (Block.signal x0 b).pins = b.pins ∧ (Block.signal x0 b).feat = b.feat ∧ (Block.signal x0 b).cfg = b.cfg ∧ (Block.signal x0 b).ep = b.ep
    ∧ (Block.signal x0 b).tim = b.tim ∧ (Block.signal x0 b).ports = b.ports ∧ (Block.signal x0 b).slots = b.slots ∧ (Block.signal x0 b).ctls = b.ctls
    ∧ (Block.signal x0 b).ifc = b.ifc ∧ (Block.signal x0 b).fox = b.fox ∧ (Block.signal x0 b).afu = b.afu ∧ (Block.signal x0 b).owl = b.owl
    ∧ (Block.signal x0 b).badger = b.badger ∧ (Block.signal x0 b).den = b.den ∧ (Block.signal x0 b).map = b.map
    ∧ (Block.signal x0 b).guests = b.guests ∧ (Block.signal x0 b).flt = b.flt ∧ (Block.signal x0 b).pwr = b.pwr ∧ (Block.signal x0 b).edge = b.edge
    ∧ (Block.signal x0 b).trail = b.trail ∧ (Block.signal x0 b).fresh = b.fresh := by
  intros; exact ⟨rfl, rfl, rfl, rfl, rfl, rfl, rfl, rfl, rfl, rfl, rfl, rfl, rfl, rfl, rfl, rfl, rfl, rfl, rfl, rfl, rfl, rfl, rfl⟩

@[simp] theorem Block.cause_frame : ∀ x0 b, (Block.cause x0 b).thermos = b.thermos ∧ (Block.cause x0 b).boot = b.boot
    ∧ (Block.cause x0 b).pins = b.pins ∧ (Block.cause x0 b).feat = b.feat ∧ (Block.cause x0 b).cfg = b.cfg ∧ (Block.cause x0 b).ep = b.ep
    ∧ (Block.cause x0 b).tim = b.tim ∧ (Block.cause x0 b).ports = b.ports ∧ (Block.cause x0 b).slots = b.slots ∧ (Block.cause x0 b).ctls = b.ctls
    ∧ (Block.cause x0 b).ifc = b.ifc ∧ (Block.cause x0 b).fox = b.fox ∧ (Block.cause x0 b).afu = b.afu ∧ (Block.cause x0 b).owl = b.owl
    ∧ (Block.cause x0 b).badger = b.badger ∧ (Block.cause x0 b).den = b.den ∧ (Block.cause x0 b).map = b.map ∧ (Block.cause x0 b).guests = b.guests
    ∧ (Block.cause x0 b).flt = b.flt ∧ (Block.cause x0 b).pwr = b.pwr ∧ (Block.cause x0 b).edge = b.edge ∧ (Block.cause x0 b).trail = b.trail
    ∧ (Block.cause x0 b).fresh = b.fresh := by
  intros; simp [Block.cause]

@[simp] theorem Block.enter_frame : ∀ x0 b, (Block.enter x0 b).thermos = b.thermos ∧ (Block.enter x0 b).pins = b.pins
    ∧ (Block.enter x0 b).feat = b.feat ∧ (Block.enter x0 b).cfg = b.cfg ∧ (Block.enter x0 b).ep = b.ep ∧ (Block.enter x0 b).tim = b.tim
    ∧ (Block.enter x0 b).ports = b.ports ∧ (Block.enter x0 b).slots = b.slots ∧ (Block.enter x0 b).ctls = b.ctls ∧ (Block.enter x0 b).ifc = b.ifc
    ∧ (Block.enter x0 b).fox = b.fox ∧ (Block.enter x0 b).afu = b.afu ∧ (Block.enter x0 b).owl = b.owl ∧ (Block.enter x0 b).badger = b.badger
    ∧ (Block.enter x0 b).den = b.den ∧ (Block.enter x0 b).map = b.map ∧ (Block.enter x0 b).guests = b.guests ∧ (Block.enter x0 b).flt = b.flt
    ∧ (Block.enter x0 b).pwr = b.pwr ∧ (Block.enter x0 b).edge = b.edge ∧ (Block.enter x0 b).trail = b.trail ∧ (Block.enter x0 b).fresh = b.fresh := by
  intros; simp [Block.enter]

@[simp] theorem Block.hello_frame : ∀ x0 b, (Block.hello x0 b).thermos = b.thermos ∧ (Block.hello x0 b).boot = b.boot
    ∧ (Block.hello x0 b).pins = b.pins ∧ (Block.hello x0 b).cfg = b.cfg ∧ (Block.hello x0 b).ep = b.ep ∧ (Block.hello x0 b).tim = b.tim
    ∧ (Block.hello x0 b).ports = b.ports ∧ (Block.hello x0 b).slots = b.slots ∧ (Block.hello x0 b).ctls = b.ctls ∧ (Block.hello x0 b).ifc = b.ifc
    ∧ (Block.hello x0 b).fox = b.fox ∧ (Block.hello x0 b).afu = b.afu ∧ (Block.hello x0 b).owl = b.owl ∧ (Block.hello x0 b).badger = b.badger
    ∧ (Block.hello x0 b).den = b.den ∧ (Block.hello x0 b).map = b.map ∧ (Block.hello x0 b).guests = b.guests ∧ (Block.hello x0 b).flt = b.flt
    ∧ (Block.hello x0 b).pwr = b.pwr ∧ (Block.hello x0 b).edge = b.edge ∧ (Block.hello x0 b).trail = b.trail ∧ (Block.hello x0 b).fresh = b.fresh := by
  intros; simp [Block.hello]

@[simp] theorem Block.drive_frame : ∀ x0 b, (Block.drive x0 b).thermos = b.thermos ∧ (Block.drive x0 b).boot = b.boot
    ∧ (Block.drive x0 b).pins = b.pins ∧ (Block.drive x0 b).feat = b.feat ∧ (Block.drive x0 b).link = b.link ∧ (Block.drive x0 b).cfg = b.cfg
    ∧ (Block.drive x0 b).ep = b.ep ∧ (Block.drive x0 b).tim = b.tim ∧ (Block.drive x0 b).ports = b.ports ∧ (Block.drive x0 b).slots = b.slots
    ∧ (Block.drive x0 b).ctls = b.ctls ∧ (Block.drive x0 b).ifc = b.ifc ∧ (Block.drive x0 b).fox = b.fox ∧ (Block.drive x0 b).afu = b.afu
    ∧ (Block.drive x0 b).owl = b.owl ∧ (Block.drive x0 b).badger = b.badger ∧ (Block.drive x0 b).den = b.den ∧ (Block.drive x0 b).map = b.map
    ∧ (Block.drive x0 b).guests = b.guests ∧ (Block.drive x0 b).flt = b.flt ∧ (Block.drive x0 b).pwr = b.pwr ∧ (Block.drive x0 b).edge = b.edge
    ∧ (Block.drive x0 b).trail = b.trail ∧ (Block.drive x0 b).fresh = b.fresh := by
  intros; exact ⟨rfl, rfl, rfl, rfl, rfl, rfl, rfl, rfl, rfl, rfl, rfl, rfl, rfl, rfl, rfl, rfl, rfl, rfl, rfl, rfl, rfl, rfl, rfl, rfl⟩

@[simp] theorem Block.trace_frame : ∀ x0 x1 b, (Block.trace x0 x1 b).thermos = b.thermos ∧ (Block.trace x0 x1 b).boot = b.boot
    ∧ (Block.trace x0 x1 b).pins = b.pins ∧ (Block.trace x0 x1 b).feat = b.feat ∧ (Block.trace x0 x1 b).link = b.link
    ∧ (Block.trace x0 x1 b).cfg = b.cfg ∧ (Block.trace x0 x1 b).ep = b.ep ∧ (Block.trace x0 x1 b).tim = b.tim ∧ (Block.trace x0 x1 b).ports = b.ports
    ∧ (Block.trace x0 x1 b).slots = b.slots ∧ (Block.trace x0 x1 b).ctls = b.ctls ∧ (Block.trace x0 x1 b).ifc = b.ifc
    ∧ (Block.trace x0 x1 b).fox = b.fox ∧ (Block.trace x0 x1 b).afu = b.afu ∧ (Block.trace x0 x1 b).owl = b.owl
    ∧ (Block.trace x0 x1 b).badger = b.badger ∧ (Block.trace x0 x1 b).den = b.den ∧ (Block.trace x0 x1 b).map = b.map
    ∧ (Block.trace x0 x1 b).guests = b.guests ∧ (Block.trace x0 x1 b).pwr = b.pwr ∧ (Block.trace x0 x1 b).edge = b.edge
    ∧ (Block.trace x0 x1 b).trail = b.trail ∧ (Block.trace x0 x1 b).fresh = b.fresh := by
  intros; exact ⟨rfl, rfl, rfl, rfl, rfl, rfl, rfl, rfl, rfl, rfl, rfl, rfl, rfl, rfl, rfl, rfl, rfl, rfl, rfl, rfl, rfl, rfl, rfl⟩

@[simp] theorem Block.toStream_frame : ∀ x0 x1 b, (Block.toStream x0 x1 b).thermos = b.thermos ∧ (Block.toStream x0 x1 b).boot = b.boot
    ∧ (Block.toStream x0 x1 b).pins = b.pins ∧ (Block.toStream x0 x1 b).feat = b.feat ∧ (Block.toStream x0 x1 b).link = b.link
    ∧ (Block.toStream x0 x1 b).cfg = b.cfg ∧ (Block.toStream x0 x1 b).ep = b.ep ∧ (Block.toStream x0 x1 b).tim = b.tim
    ∧ (Block.toStream x0 x1 b).ports = b.ports ∧ (Block.toStream x0 x1 b).slots = b.slots ∧ (Block.toStream x0 x1 b).ctls = b.ctls
    ∧ (Block.toStream x0 x1 b).ifc = b.ifc ∧ (Block.toStream x0 x1 b).fox = b.fox ∧ (Block.toStream x0 x1 b).afu = b.afu
    ∧ (Block.toStream x0 x1 b).owl = b.owl ∧ (Block.toStream x0 x1 b).badger = b.badger ∧ (Block.toStream x0 x1 b).den = b.den
    ∧ (Block.toStream x0 x1 b).map = b.map ∧ (Block.toStream x0 x1 b).guests = b.guests ∧ (Block.toStream x0 x1 b).flt = b.flt
    ∧ (Block.toStream x0 x1 b).pwr = b.pwr ∧ (Block.toStream x0 x1 b).edge = b.edge ∧ (Block.toStream x0 x1 b).trail = b.trail
    ∧ (Block.toStream x0 x1 b).fresh = b.fresh := by
  intros; exact ⟨rfl, rfl, rfl, rfl, rfl, rfl, rfl, rfl, rfl, rfl, rfl, rfl, rfl, rfl, rfl, rfl, rfl, rfl, rfl, rfl, rfl, rfl, rfl, rfl⟩

@[simp] theorem Block.emit_frame : ∀ x0 x1 x2 x3 x4 b, (Block.emit x0 x1 x2 x3 x4 b).thermos = b.thermos
    ∧ (Block.emit x0 x1 x2 x3 x4 b).boot = b.boot ∧ (Block.emit x0 x1 x2 x3 x4 b).pins = b.pins ∧ (Block.emit x0 x1 x2 x3 x4 b).feat = b.feat
    ∧ (Block.emit x0 x1 x2 x3 x4 b).link = b.link ∧ (Block.emit x0 x1 x2 x3 x4 b).cfg = b.cfg ∧ (Block.emit x0 x1 x2 x3 x4 b).ep = b.ep
    ∧ (Block.emit x0 x1 x2 x3 x4 b).tim = b.tim ∧ (Block.emit x0 x1 x2 x3 x4 b).ports = b.ports ∧ (Block.emit x0 x1 x2 x3 x4 b).slots = b.slots
    ∧ (Block.emit x0 x1 x2 x3 x4 b).ctls = b.ctls ∧ (Block.emit x0 x1 x2 x3 x4 b).ifc = b.ifc ∧ (Block.emit x0 x1 x2 x3 x4 b).fox = b.fox
    ∧ (Block.emit x0 x1 x2 x3 x4 b).afu = b.afu ∧ (Block.emit x0 x1 x2 x3 x4 b).owl = b.owl ∧ (Block.emit x0 x1 x2 x3 x4 b).badger = b.badger
    ∧ (Block.emit x0 x1 x2 x3 x4 b).den = b.den ∧ (Block.emit x0 x1 x2 x3 x4 b).map = b.map ∧ (Block.emit x0 x1 x2 x3 x4 b).guests = b.guests
    ∧ (Block.emit x0 x1 x2 x3 x4 b).pwr = b.pwr ∧ (Block.emit x0 x1 x2 x3 x4 b).edge = b.edge ∧ (Block.emit x0 x1 x2 x3 x4 b).trail = b.trail
    ∧ (Block.emit x0 x1 x2 x3 x4 b).fresh = b.fresh := by
  intros; simp [Block.emit]

@[simp] theorem Block.event_frame : ∀ x0 x1 x2 b, (Block.event x0 x1 x2 b).thermos = b.thermos ∧ (Block.event x0 x1 x2 b).boot = b.boot
    ∧ (Block.event x0 x1 x2 b).pins = b.pins ∧ (Block.event x0 x1 x2 b).feat = b.feat ∧ (Block.event x0 x1 x2 b).link = b.link
    ∧ (Block.event x0 x1 x2 b).cfg = b.cfg ∧ (Block.event x0 x1 x2 b).ep = b.ep ∧ (Block.event x0 x1 x2 b).tim = b.tim
    ∧ (Block.event x0 x1 x2 b).ports = b.ports ∧ (Block.event x0 x1 x2 b).slots = b.slots ∧ (Block.event x0 x1 x2 b).ctls = b.ctls
    ∧ (Block.event x0 x1 x2 b).ifc = b.ifc ∧ (Block.event x0 x1 x2 b).fox = b.fox ∧ (Block.event x0 x1 x2 b).afu = b.afu
    ∧ (Block.event x0 x1 x2 b).owl = b.owl ∧ (Block.event x0 x1 x2 b).badger = b.badger ∧ (Block.event x0 x1 x2 b).den = b.den
    ∧ (Block.event x0 x1 x2 b).map = b.map ∧ (Block.event x0 x1 x2 b).guests = b.guests ∧ (Block.event x0 x1 x2 b).pwr = b.pwr
    ∧ (Block.event x0 x1 x2 b).edge = b.edge ∧ (Block.event x0 x1 x2 b).trail = b.trail ∧ (Block.event x0 x1 x2 b).fresh = b.fresh := by
  intros; simp [Block.event]

@[simp] theorem Block.eventFrom_frame : ∀ x0 x1 x2 x3 x4 b, (Block.eventFrom x0 x1 x2 x3 x4 b).thermos = b.thermos
    ∧ (Block.eventFrom x0 x1 x2 x3 x4 b).boot = b.boot ∧ (Block.eventFrom x0 x1 x2 x3 x4 b).pins = b.pins
    ∧ (Block.eventFrom x0 x1 x2 x3 x4 b).feat = b.feat ∧ (Block.eventFrom x0 x1 x2 x3 x4 b).link = b.link
    ∧ (Block.eventFrom x0 x1 x2 x3 x4 b).cfg = b.cfg ∧ (Block.eventFrom x0 x1 x2 x3 x4 b).ep = b.ep ∧ (Block.eventFrom x0 x1 x2 x3 x4 b).tim = b.tim
    ∧ (Block.eventFrom x0 x1 x2 x3 x4 b).ports = b.ports ∧ (Block.eventFrom x0 x1 x2 x3 x4 b).slots = b.slots
    ∧ (Block.eventFrom x0 x1 x2 x3 x4 b).ctls = b.ctls ∧ (Block.eventFrom x0 x1 x2 x3 x4 b).ifc = b.ifc
    ∧ (Block.eventFrom x0 x1 x2 x3 x4 b).fox = b.fox ∧ (Block.eventFrom x0 x1 x2 x3 x4 b).afu = b.afu
    ∧ (Block.eventFrom x0 x1 x2 x3 x4 b).owl = b.owl ∧ (Block.eventFrom x0 x1 x2 x3 x4 b).badger = b.badger
    ∧ (Block.eventFrom x0 x1 x2 x3 x4 b).den = b.den ∧ (Block.eventFrom x0 x1 x2 x3 x4 b).map = b.map
    ∧ (Block.eventFrom x0 x1 x2 x3 x4 b).guests = b.guests ∧ (Block.eventFrom x0 x1 x2 x3 x4 b).pwr = b.pwr
    ∧ (Block.eventFrom x0 x1 x2 x3 x4 b).edge = b.edge ∧ (Block.eventFrom x0 x1 x2 x3 x4 b).trail = b.trail
    ∧ (Block.eventFrom x0 x1 x2 x3 x4 b).fresh = b.fresh := by
  intros; simp [Block.eventFrom]

@[simp] theorem Block.diag_frame : ∀ x0 x1 x2 b, (Block.diag x0 x1 x2 b).thermos = b.thermos ∧ (Block.diag x0 x1 x2 b).boot = b.boot
    ∧ (Block.diag x0 x1 x2 b).pins = b.pins ∧ (Block.diag x0 x1 x2 b).feat = b.feat ∧ (Block.diag x0 x1 x2 b).link = b.link
    ∧ (Block.diag x0 x1 x2 b).cfg = b.cfg ∧ (Block.diag x0 x1 x2 b).ep = b.ep ∧ (Block.diag x0 x1 x2 b).tim = b.tim
    ∧ (Block.diag x0 x1 x2 b).ports = b.ports ∧ (Block.diag x0 x1 x2 b).slots = b.slots ∧ (Block.diag x0 x1 x2 b).ctls = b.ctls
    ∧ (Block.diag x0 x1 x2 b).ifc = b.ifc ∧ (Block.diag x0 x1 x2 b).fox = b.fox ∧ (Block.diag x0 x1 x2 b).afu = b.afu
    ∧ (Block.diag x0 x1 x2 b).owl = b.owl ∧ (Block.diag x0 x1 x2 b).badger = b.badger ∧ (Block.diag x0 x1 x2 b).den = b.den
    ∧ (Block.diag x0 x1 x2 b).map = b.map ∧ (Block.diag x0 x1 x2 b).guests = b.guests ∧ (Block.diag x0 x1 x2 b).pwr = b.pwr
    ∧ (Block.diag x0 x1 x2 b).edge = b.edge ∧ (Block.diag x0 x1 x2 b).trail = b.trail ∧ (Block.diag x0 x1 x2 b).fresh = b.fresh := by
  intros; simp [Block.diag]

@[simp] theorem Block.flow_frame : ∀ x0 x1 x2 x3 x4 b, (Block.flow x0 x1 x2 x3 x4 b).thermos = b.thermos
    ∧ (Block.flow x0 x1 x2 x3 x4 b).boot = b.boot ∧ (Block.flow x0 x1 x2 x3 x4 b).pins = b.pins ∧ (Block.flow x0 x1 x2 x3 x4 b).feat = b.feat
    ∧ (Block.flow x0 x1 x2 x3 x4 b).link = b.link ∧ (Block.flow x0 x1 x2 x3 x4 b).cfg = b.cfg ∧ (Block.flow x0 x1 x2 x3 x4 b).ep = b.ep
    ∧ (Block.flow x0 x1 x2 x3 x4 b).tim = b.tim ∧ (Block.flow x0 x1 x2 x3 x4 b).ports = b.ports ∧ (Block.flow x0 x1 x2 x3 x4 b).slots = b.slots
    ∧ (Block.flow x0 x1 x2 x3 x4 b).ctls = b.ctls ∧ (Block.flow x0 x1 x2 x3 x4 b).ifc = b.ifc ∧ (Block.flow x0 x1 x2 x3 x4 b).fox = b.fox
    ∧ (Block.flow x0 x1 x2 x3 x4 b).afu = b.afu ∧ (Block.flow x0 x1 x2 x3 x4 b).owl = b.owl ∧ (Block.flow x0 x1 x2 x3 x4 b).badger = b.badger
    ∧ (Block.flow x0 x1 x2 x3 x4 b).den = b.den ∧ (Block.flow x0 x1 x2 x3 x4 b).map = b.map ∧ (Block.flow x0 x1 x2 x3 x4 b).guests = b.guests
    ∧ (Block.flow x0 x1 x2 x3 x4 b).pwr = b.pwr ∧ (Block.flow x0 x1 x2 x3 x4 b).edge = b.edge ∧ (Block.flow x0 x1 x2 x3 x4 b).trail = b.trail
    ∧ (Block.flow x0 x1 x2 x3 x4 b).fresh = b.fresh := by
  intros; exact ⟨rfl, rfl, rfl, rfl, rfl, rfl, rfl, rfl, rfl, rfl, rfl, rfl, rfl, rfl, rfl, rfl, rfl, rfl, rfl, rfl, rfl, rfl, rfl⟩

@[simp] theorem Block.release_frame : ∀ x0 b, (Block.release x0 b).thermos = b.thermos ∧ (Block.release x0 b).boot = b.boot
    ∧ (Block.release x0 b).pins = b.pins ∧ (Block.release x0 b).feat = b.feat ∧ (Block.release x0 b).link = b.link ∧ (Block.release x0 b).cfg = b.cfg
    ∧ (Block.release x0 b).ep = b.ep ∧ (Block.release x0 b).tim = b.tim ∧ (Block.release x0 b).ports = b.ports ∧ (Block.release x0 b).slots = b.slots
    ∧ (Block.release x0 b).ctls = b.ctls ∧ (Block.release x0 b).ifc = b.ifc ∧ (Block.release x0 b).fox = b.fox ∧ (Block.release x0 b).afu = b.afu
    ∧ (Block.release x0 b).owl = b.owl ∧ (Block.release x0 b).badger = b.badger ∧ (Block.release x0 b).den = b.den ∧ (Block.release x0 b).map = b.map
    ∧ (Block.release x0 b).guests = b.guests ∧ (Block.release x0 b).flt = b.flt ∧ (Block.release x0 b).pwr = b.pwr
    ∧ (Block.release x0 b).edge = b.edge ∧ (Block.release x0 b).trail = b.trail ∧ (Block.release x0 b).fresh = b.fresh := by
  intros; exact ⟨rfl, rfl, rfl, rfl, rfl, rfl, rfl, rfl, rfl, rfl, rfl, rfl, rfl, rfl, rfl, rfl, rfl, rfl, rfl, rfl, rfl, rfl, rfl, rfl⟩

@[simp] theorem Block.withCmd_frame : ∀ x0 x1 b, (Block.withCmd x0 x1 b).thermos = b.thermos ∧ (Block.withCmd x0 x1 b).boot = b.boot
    ∧ (Block.withCmd x0 x1 b).pins = b.pins ∧ (Block.withCmd x0 x1 b).feat = b.feat ∧ (Block.withCmd x0 x1 b).link = b.link
    ∧ (Block.withCmd x0 x1 b).cfg = b.cfg ∧ (Block.withCmd x0 x1 b).ep = b.ep ∧ (Block.withCmd x0 x1 b).tim = b.tim
    ∧ (Block.withCmd x0 x1 b).ports = b.ports ∧ (Block.withCmd x0 x1 b).slots = b.slots ∧ (Block.withCmd x0 x1 b).ctls = b.ctls
    ∧ (Block.withCmd x0 x1 b).ifc = b.ifc ∧ (Block.withCmd x0 x1 b).fox = b.fox ∧ (Block.withCmd x0 x1 b).afu = b.afu
    ∧ (Block.withCmd x0 x1 b).owl = b.owl ∧ (Block.withCmd x0 x1 b).badger = b.badger ∧ (Block.withCmd x0 x1 b).den = b.den
    ∧ (Block.withCmd x0 x1 b).map = b.map ∧ (Block.withCmd x0 x1 b).guests = b.guests ∧ (Block.withCmd x0 x1 b).flt = b.flt
    ∧ (Block.withCmd x0 x1 b).pwr = b.pwr ∧ (Block.withCmd x0 x1 b).edge = b.edge ∧ (Block.withCmd x0 x1 b).trail = b.trail
    ∧ (Block.withCmd x0 x1 b).fresh = b.fresh := by
  intros; exact ⟨rfl, rfl, rfl, rfl, rfl, rfl, rfl, rfl, rfl, rfl, rfl, rfl, rfl, rfl, rfl, rfl, rfl, rfl, rfl, rfl, rfl, rfl, rfl, rfl⟩

@[simp] theorem Block.finish_frame : ∀ x0 x1 x2 x3 x4 b, (Block.finish x0 x1 x2 x3 x4 b).thermos = b.thermos
    ∧ (Block.finish x0 x1 x2 x3 x4 b).boot = b.boot ∧ (Block.finish x0 x1 x2 x3 x4 b).pins = b.pins ∧ (Block.finish x0 x1 x2 x3 x4 b).feat = b.feat
    ∧ (Block.finish x0 x1 x2 x3 x4 b).link = b.link ∧ (Block.finish x0 x1 x2 x3 x4 b).cfg = b.cfg ∧ (Block.finish x0 x1 x2 x3 x4 b).ep = b.ep
    ∧ (Block.finish x0 x1 x2 x3 x4 b).tim = b.tim ∧ (Block.finish x0 x1 x2 x3 x4 b).ports = b.ports ∧ (Block.finish x0 x1 x2 x3 x4 b).slots = b.slots
    ∧ (Block.finish x0 x1 x2 x3 x4 b).ctls = b.ctls ∧ (Block.finish x0 x1 x2 x3 x4 b).ifc = b.ifc ∧ (Block.finish x0 x1 x2 x3 x4 b).fox = b.fox
    ∧ (Block.finish x0 x1 x2 x3 x4 b).afu = b.afu ∧ (Block.finish x0 x1 x2 x3 x4 b).owl = b.owl ∧ (Block.finish x0 x1 x2 x3 x4 b).badger = b.badger
    ∧ (Block.finish x0 x1 x2 x3 x4 b).den = b.den ∧ (Block.finish x0 x1 x2 x3 x4 b).map = b.map ∧ (Block.finish x0 x1 x2 x3 x4 b).guests = b.guests
    ∧ (Block.finish x0 x1 x2 x3 x4 b).flt = b.flt ∧ (Block.finish x0 x1 x2 x3 x4 b).pwr = b.pwr ∧ (Block.finish x0 x1 x2 x3 x4 b).edge = b.edge
    ∧ (Block.finish x0 x1 x2 x3 x4 b).trail = b.trail ∧ (Block.finish x0 x1 x2 x3 x4 b).fresh = b.fresh := by
  intros; exact ⟨rfl, rfl, rfl, rfl, rfl, rfl, rfl, rfl, rfl, rfl, rfl, rfl, rfl, rfl, rfl, rfl, rfl, rfl, rfl, rfl, rfl, rfl, rfl, rfl⟩

@[simp] theorem Block.portCount_frame : ∀ x0 x1 b, (Block.portCount x0 x1 b).thermos = b.thermos ∧ (Block.portCount x0 x1 b).boot = b.boot
    ∧ (Block.portCount x0 x1 b).pins = b.pins ∧ (Block.portCount x0 x1 b).feat = b.feat ∧ (Block.portCount x0 x1 b).link = b.link
    ∧ (Block.portCount x0 x1 b).cfg = b.cfg ∧ (Block.portCount x0 x1 b).ep = b.ep ∧ (Block.portCount x0 x1 b).tim = b.tim
    ∧ (Block.portCount x0 x1 b).slots = b.slots ∧ (Block.portCount x0 x1 b).ctls = b.ctls ∧ (Block.portCount x0 x1 b).ifc = b.ifc
    ∧ (Block.portCount x0 x1 b).fox = b.fox ∧ (Block.portCount x0 x1 b).afu = b.afu ∧ (Block.portCount x0 x1 b).owl = b.owl
    ∧ (Block.portCount x0 x1 b).badger = b.badger ∧ (Block.portCount x0 x1 b).den = b.den ∧ (Block.portCount x0 x1 b).map = b.map
    ∧ (Block.portCount x0 x1 b).guests = b.guests ∧ (Block.portCount x0 x1 b).host = b.host ∧ (Block.portCount x0 x1 b).flt = b.flt
    ∧ (Block.portCount x0 x1 b).pwr = b.pwr ∧ (Block.portCount x0 x1 b).edge = b.edge ∧ (Block.portCount x0 x1 b).trail = b.trail
    ∧ (Block.portCount x0 x1 b).fresh = b.fresh := by
  intros; exact ⟨rfl, rfl, rfl, rfl, rfl, rfl, rfl, rfl, rfl, rfl, rfl, rfl, rfl, rfl, rfl, rfl, rfl, rfl, rfl, rfl, rfl, rfl, rfl, rfl⟩

@[simp] theorem Block.slotCount_frame : ∀ x0 x1 b, (Block.slotCount x0 x1 b).thermos = b.thermos ∧ (Block.slotCount x0 x1 b).boot = b.boot
    ∧ (Block.slotCount x0 x1 b).pins = b.pins ∧ (Block.slotCount x0 x1 b).feat = b.feat ∧ (Block.slotCount x0 x1 b).link = b.link
    ∧ (Block.slotCount x0 x1 b).cfg = b.cfg ∧ (Block.slotCount x0 x1 b).ep = b.ep ∧ (Block.slotCount x0 x1 b).tim = b.tim
    ∧ (Block.slotCount x0 x1 b).ports = b.ports ∧ (Block.slotCount x0 x1 b).ctls = b.ctls ∧ (Block.slotCount x0 x1 b).ifc = b.ifc
    ∧ (Block.slotCount x0 x1 b).fox = b.fox ∧ (Block.slotCount x0 x1 b).afu = b.afu ∧ (Block.slotCount x0 x1 b).owl = b.owl
    ∧ (Block.slotCount x0 x1 b).badger = b.badger ∧ (Block.slotCount x0 x1 b).den = b.den ∧ (Block.slotCount x0 x1 b).map = b.map
    ∧ (Block.slotCount x0 x1 b).guests = b.guests ∧ (Block.slotCount x0 x1 b).host = b.host ∧ (Block.slotCount x0 x1 b).flt = b.flt
    ∧ (Block.slotCount x0 x1 b).pwr = b.pwr ∧ (Block.slotCount x0 x1 b).edge = b.edge ∧ (Block.slotCount x0 x1 b).trail = b.trail
    ∧ (Block.slotCount x0 x1 b).fresh = b.fresh := by
  intros; exact ⟨rfl, rfl, rfl, rfl, rfl, rfl, rfl, rfl, rfl, rfl, rfl, rfl, rfl, rfl, rfl, rfl, rfl, rfl, rfl, rfl, rfl, rfl, rfl, rfl⟩

@[simp] theorem Block.badReg_frame : ∀ b, (Block.badReg b).thermos = b.thermos ∧ (Block.badReg b).boot = b.boot ∧ (Block.badReg b).pins = b.pins
    ∧ (Block.badReg b).feat = b.feat ∧ (Block.badReg b).link = b.link ∧ (Block.badReg b).cfg = b.cfg ∧ (Block.badReg b).ep = b.ep
    ∧ (Block.badReg b).tim = b.tim ∧ (Block.badReg b).ports = b.ports ∧ (Block.badReg b).slots = b.slots ∧ (Block.badReg b).ctls = b.ctls
    ∧ (Block.badReg b).ifc = b.ifc ∧ (Block.badReg b).fox = b.fox ∧ (Block.badReg b).afu = b.afu ∧ (Block.badReg b).owl = b.owl
    ∧ (Block.badReg b).badger = b.badger ∧ (Block.badReg b).den = b.den ∧ (Block.badReg b).map = b.map ∧ (Block.badReg b).guests = b.guests
    ∧ (Block.badReg b).flt = b.flt ∧ (Block.badReg b).pwr = b.pwr ∧ (Block.badReg b).edge = b.edge ∧ (Block.badReg b).trail = b.trail
    ∧ (Block.badReg b).fresh = b.fresh := by
  intros; exact ⟨rfl, rfl, rfl, rfl, rfl, rfl, rfl, rfl, rfl, rfl, rfl, rfl, rfl, rfl, rfl, rfl, rfl, rfl, rfl, rfl, rfl, rfl, rfl, rfl⟩

@[simp] theorem Block.journal_frame : ∀ x0 b, (Block.journal x0 b).boot = b.boot ∧ (Block.journal x0 b).pins = b.pins
    ∧ (Block.journal x0 b).feat = b.feat ∧ (Block.journal x0 b).link = b.link ∧ (Block.journal x0 b).cfg = b.cfg ∧ (Block.journal x0 b).ep = b.ep
    ∧ (Block.journal x0 b).tim = b.tim ∧ (Block.journal x0 b).ports = b.ports ∧ (Block.journal x0 b).slots = b.slots
    ∧ (Block.journal x0 b).ctls = b.ctls ∧ (Block.journal x0 b).ifc = b.ifc ∧ (Block.journal x0 b).fox = b.fox ∧ (Block.journal x0 b).afu = b.afu
    ∧ (Block.journal x0 b).owl = b.owl ∧ (Block.journal x0 b).badger = b.badger ∧ (Block.journal x0 b).den = b.den ∧ (Block.journal x0 b).map = b.map
    ∧ (Block.journal x0 b).guests = b.guests ∧ (Block.journal x0 b).flt = b.flt ∧ (Block.journal x0 b).pwr = b.pwr
    ∧ (Block.journal x0 b).edge = b.edge ∧ (Block.journal x0 b).trail = b.trail ∧ (Block.journal x0 b).fresh = b.fresh := by
  intros; simp [Block.journal]

end Sys2Proof.Machine
end

