-- ==== Sys2Proof/Laws/Frames.lean ====
section
/-! SUPPORT. What the shared operations of the chapters keep: for each, the fields of the block that it leaves as they were. -/

namespace Sys2Proof.Machine

@[simp] theorem Block.syncEmit_frame : ∀ b, (Block.syncEmit b).thermos = b.thermos ∧ (Block.syncEmit b).boot = b.boot
    ∧ (Block.syncEmit b).pins = b.pins ∧ (Block.syncEmit b).feat = b.feat ∧ (Block.syncEmit b).link = b.link ∧ (Block.syncEmit b).cfg = b.cfg
    ∧ (Block.syncEmit b).ep = b.ep ∧ (Block.syncEmit b).ports = b.ports ∧ (Block.syncEmit b).slots = b.slots ∧ (Block.syncEmit b).ctls = b.ctls
    ∧ (Block.syncEmit b).ifc = b.ifc ∧ (Block.syncEmit b).fox = b.fox ∧ (Block.syncEmit b).afu = b.afu ∧ (Block.syncEmit b).owl = b.owl
    ∧ (Block.syncEmit b).badger = b.badger ∧ (Block.syncEmit b).den = b.den ∧ (Block.syncEmit b).map = b.map ∧ (Block.syncEmit b).guests = b.guests
    ∧ (Block.syncEmit b).pwr = b.pwr ∧ (Block.syncEmit b).edge = b.edge ∧ (Block.syncEmit b).trail = b.trail ∧ (Block.syncEmit b).fresh = b.fresh := by
  intros; unfold Block.syncEmit; (repeat' split) <;> simp

@[simp] theorem Block.stage_frame : ∀ x0 x1 b, (Block.stage x0 x1 b).thermos = b.thermos ∧ (Block.stage x0 x1 b).boot = b.boot
    ∧ (Block.stage x0 x1 b).pins = b.pins ∧ (Block.stage x0 x1 b).feat = b.feat ∧ (Block.stage x0 x1 b).link = b.link
    ∧ (Block.stage x0 x1 b).cfg = b.cfg ∧ (Block.stage x0 x1 b).ep = b.ep ∧ (Block.stage x0 x1 b).tim = b.tim ∧ (Block.stage x0 x1 b).ports = b.ports
    ∧ (Block.stage x0 x1 b).slots = b.slots ∧ (Block.stage x0 x1 b).ctls = b.ctls ∧ (Block.stage x0 x1 b).ifc = b.ifc
    ∧ (Block.stage x0 x1 b).fox = b.fox ∧ (Block.stage x0 x1 b).afu = b.afu ∧ (Block.stage x0 x1 b).owl = b.owl
    ∧ (Block.stage x0 x1 b).badger = b.badger ∧ (Block.stage x0 x1 b).den = b.den ∧ (Block.stage x0 x1 b).map = b.map
    ∧ (Block.stage x0 x1 b).guests = b.guests ∧ (Block.stage x0 x1 b).flt = b.flt ∧ (Block.stage x0 x1 b).pwr = b.pwr
    ∧ (Block.stage x0 x1 b).edge = b.edge ∧ (Block.stage x0 x1 b).trail = b.trail ∧ (Block.stage x0 x1 b).fresh = b.fresh := by
  intros; exact ⟨rfl, rfl, rfl, rfl, rfl, rfl, rfl, rfl, rfl, rfl, rfl, rfl, rfl, rfl, rfl, rfl, rfl, rfl, rfl, rfl, rfl, rfl, rfl, rfl⟩

@[simp] theorem Block.rearm_frame : ∀ x0 b, (Block.rearm x0 b).thermos = b.thermos ∧ (Block.rearm x0 b).boot = b.boot
    ∧ (Block.rearm x0 b).pins = b.pins ∧ (Block.rearm x0 b).feat = b.feat ∧ (Block.rearm x0 b).link = b.link ∧ (Block.rearm x0 b).cfg = b.cfg
    ∧ (Block.rearm x0 b).ep = b.ep ∧ (Block.rearm x0 b).tim = b.tim ∧ (Block.rearm x0 b).ports = b.ports ∧ (Block.rearm x0 b).slots = b.slots
    ∧ (Block.rearm x0 b).ctls = b.ctls ∧ (Block.rearm x0 b).ifc = b.ifc ∧ (Block.rearm x0 b).fox = b.fox ∧ (Block.rearm x0 b).afu = b.afu
    ∧ (Block.rearm x0 b).owl = b.owl ∧ (Block.rearm x0 b).badger = b.badger ∧ (Block.rearm x0 b).den = b.den ∧ (Block.rearm x0 b).map = b.map
    ∧ (Block.rearm x0 b).guests = b.guests ∧ (Block.rearm x0 b).host = b.host ∧ (Block.rearm x0 b).pwr = b.pwr ∧ (Block.rearm x0 b).edge = b.edge
    ∧ (Block.rearm x0 b).trail = b.trail ∧ (Block.rearm x0 b).fresh = b.fresh := by
  intros; exact ⟨rfl, rfl, rfl, rfl, rfl, rfl, rfl, rfl, rfl, rfl, rfl, rfl, rfl, rfl, rfl, rfl, rfl, rfl, rfl, rfl, rfl, rfl, rfl, rfl⟩

@[simp] theorem Block.settingsBusy_frame : ∀ x0 b, (Block.settingsBusy x0 b).thermos = b.thermos ∧ (Block.settingsBusy x0 b).boot = b.boot
    ∧ (Block.settingsBusy x0 b).pins = b.pins ∧ (Block.settingsBusy x0 b).feat = b.feat ∧ (Block.settingsBusy x0 b).link = b.link
    ∧ (Block.settingsBusy x0 b).ep = b.ep ∧ (Block.settingsBusy x0 b).tim = b.tim ∧ (Block.settingsBusy x0 b).ports = b.ports
    ∧ (Block.settingsBusy x0 b).slots = b.slots ∧ (Block.settingsBusy x0 b).ctls = b.ctls ∧ (Block.settingsBusy x0 b).ifc = b.ifc
    ∧ (Block.settingsBusy x0 b).fox = b.fox ∧ (Block.settingsBusy x0 b).afu = b.afu ∧ (Block.settingsBusy x0 b).owl = b.owl
    ∧ (Block.settingsBusy x0 b).badger = b.badger ∧ (Block.settingsBusy x0 b).den = b.den ∧ (Block.settingsBusy x0 b).map = b.map
    ∧ (Block.settingsBusy x0 b).guests = b.guests ∧ (Block.settingsBusy x0 b).host = b.host ∧ (Block.settingsBusy x0 b).flt = b.flt
    ∧ (Block.settingsBusy x0 b).pwr = b.pwr ∧ (Block.settingsBusy x0 b).edge = b.edge ∧ (Block.settingsBusy x0 b).trail = b.trail
    ∧ (Block.settingsBusy x0 b).fresh = b.fresh := by
  intros; exact ⟨rfl, rfl, rfl, rfl, rfl, rfl, rfl, rfl, rfl, rfl, rfl, rfl, rfl, rfl, rfl, rfl, rfl, rfl, rfl, rfl, rfl, rfl, rfl, rfl⟩

@[simp] theorem Block.settingsEnd_frame : ∀ x0 x1 x2 x3 x4 b, (Block.settingsEnd x0 x1 x2 x3 x4 b).thermos = b.thermos
    ∧ (Block.settingsEnd x0 x1 x2 x3 x4 b).boot = b.boot ∧ (Block.settingsEnd x0 x1 x2 x3 x4 b).pins = b.pins
    ∧ (Block.settingsEnd x0 x1 x2 x3 x4 b).feat = b.feat ∧ (Block.settingsEnd x0 x1 x2 x3 x4 b).link = b.link
    ∧ (Block.settingsEnd x0 x1 x2 x3 x4 b).ep = b.ep ∧ (Block.settingsEnd x0 x1 x2 x3 x4 b).tim = b.tim
    ∧ (Block.settingsEnd x0 x1 x2 x3 x4 b).ports = b.ports ∧ (Block.settingsEnd x0 x1 x2 x3 x4 b).slots = b.slots
    ∧ (Block.settingsEnd x0 x1 x2 x3 x4 b).ctls = b.ctls ∧ (Block.settingsEnd x0 x1 x2 x3 x4 b).ifc = b.ifc
    ∧ (Block.settingsEnd x0 x1 x2 x3 x4 b).fox = b.fox ∧ (Block.settingsEnd x0 x1 x2 x3 x4 b).afu = b.afu
    ∧ (Block.settingsEnd x0 x1 x2 x3 x4 b).owl = b.owl ∧ (Block.settingsEnd x0 x1 x2 x3 x4 b).badger = b.badger
    ∧ (Block.settingsEnd x0 x1 x2 x3 x4 b).den = b.den ∧ (Block.settingsEnd x0 x1 x2 x3 x4 b).map = b.map
    ∧ (Block.settingsEnd x0 x1 x2 x3 x4 b).guests = b.guests ∧ (Block.settingsEnd x0 x1 x2 x3 x4 b).flt = b.flt
    ∧ (Block.settingsEnd x0 x1 x2 x3 x4 b).pwr = b.pwr ∧ (Block.settingsEnd x0 x1 x2 x3 x4 b).edge = b.edge
    ∧ (Block.settingsEnd x0 x1 x2 x3 x4 b).trail = b.trail ∧ (Block.settingsEnd x0 x1 x2 x3 x4 b).fresh = b.fresh := by
  intros; exact ⟨rfl, rfl, rfl, rfl, rfl, rfl, rfl, rfl, rfl, rfl, rfl, rfl, rfl, rfl, rfl, rfl, rfl, rfl, rfl, rfl, rfl, rfl, rfl⟩

@[simp] theorem Block.dropWork_frame : ∀ x0 b, (Block.dropWork x0 b).thermos = b.thermos ∧ (Block.dropWork x0 b).boot = b.boot
    ∧ (Block.dropWork x0 b).pins = b.pins ∧ (Block.dropWork x0 b).feat = b.feat ∧ (Block.dropWork x0 b).link = b.link
    ∧ (Block.dropWork x0 b).ep = b.ep ∧ (Block.dropWork x0 b).tim = b.tim ∧ (Block.dropWork x0 b).ports = b.ports
    ∧ (Block.dropWork x0 b).slots = b.slots ∧ (Block.dropWork x0 b).ctls = b.ctls ∧ (Block.dropWork x0 b).ifc = b.ifc
    ∧ (Block.dropWork x0 b).fox = b.fox ∧ (Block.dropWork x0 b).afu = b.afu ∧ (Block.dropWork x0 b).den = b.den ∧ (Block.dropWork x0 b).map = b.map
    ∧ (Block.dropWork x0 b).guests = b.guests ∧ (Block.dropWork x0 b).host = b.host ∧ (Block.dropWork x0 b).flt = b.flt
    ∧ (Block.dropWork x0 b).pwr = b.pwr ∧ (Block.dropWork x0 b).edge = b.edge ∧ (Block.dropWork x0 b).trail = b.trail
    ∧ (Block.dropWork x0 b).fresh = b.fresh := by
  intros; exact ⟨rfl, rfl, rfl, rfl, rfl, rfl, rfl, rfl, rfl, rfl, rfl, rfl, rfl, rfl, rfl, rfl, rfl, rfl, rfl, rfl, rfl, rfl⟩

@[simp] theorem Block.abortCmd_frame : ∀ x0 b, (Block.abortCmd x0 b).thermos = b.thermos ∧ (Block.abortCmd x0 b).boot = b.boot
    ∧ (Block.abortCmd x0 b).pins = b.pins ∧ (Block.abortCmd x0 b).feat = b.feat ∧ (Block.abortCmd x0 b).link = b.link
    ∧ (Block.abortCmd x0 b).ep = b.ep ∧ (Block.abortCmd x0 b).tim = b.tim ∧ (Block.abortCmd x0 b).ports = b.ports
    ∧ (Block.abortCmd x0 b).slots = b.slots ∧ (Block.abortCmd x0 b).ctls = b.ctls ∧ (Block.abortCmd x0 b).ifc = b.ifc
    ∧ (Block.abortCmd x0 b).fox = b.fox ∧ (Block.abortCmd x0 b).afu = b.afu ∧ (Block.abortCmd x0 b).den = b.den ∧ (Block.abortCmd x0 b).map = b.map
    ∧ (Block.abortCmd x0 b).guests = b.guests ∧ (Block.abortCmd x0 b).flt = b.flt ∧ (Block.abortCmd x0 b).pwr = b.pwr
    ∧ (Block.abortCmd x0 b).edge = b.edge ∧ (Block.abortCmd x0 b).trail = b.trail ∧ (Block.abortCmd x0 b).fresh = b.fresh := by
  intros; exact ⟨rfl, rfl, rfl, rfl, rfl, rfl, rfl, rfl, rfl, rfl, rfl, rfl, rfl, rfl, rfl, rfl, rfl, rfl, rfl, rfl, rfl⟩

@[simp] theorem Block.orphan_frame : ∀ x0 b, (Block.orphan x0 b).thermos = b.thermos ∧ (Block.orphan x0 b).boot = b.boot
    ∧ (Block.orphan x0 b).pins = b.pins ∧ (Block.orphan x0 b).feat = b.feat ∧ (Block.orphan x0 b).link = b.link ∧ (Block.orphan x0 b).ep = b.ep
    ∧ (Block.orphan x0 b).tim = b.tim ∧ (Block.orphan x0 b).ports = b.ports ∧ (Block.orphan x0 b).slots = b.slots ∧ (Block.orphan x0 b).ctls = b.ctls
    ∧ (Block.orphan x0 b).ifc = b.ifc ∧ (Block.orphan x0 b).fox = b.fox ∧ (Block.orphan x0 b).afu = b.afu ∧ (Block.orphan x0 b).den = b.den
    ∧ (Block.orphan x0 b).map = b.map ∧ (Block.orphan x0 b).guests = b.guests ∧ (Block.orphan x0 b).host = b.host ∧ (Block.orphan x0 b).flt = b.flt
    ∧ (Block.orphan x0 b).pwr = b.pwr ∧ (Block.orphan x0 b).edge = b.edge ∧ (Block.orphan x0 b).trail = b.trail ∧ (Block.orphan x0 b).fresh = b.fresh := by
  intros; exact ⟨rfl, rfl, rfl, rfl, rfl, rfl, rfl, rfl, rfl, rfl, rfl, rfl, rfl, rfl, rfl, rfl, rfl, rfl, rfl, rfl, rfl, rfl⟩

@[simp] theorem Block.endQueue_frame : ∀ x0 b, (Block.endQueue x0 b).thermos = b.thermos ∧ (Block.endQueue x0 b).boot = b.boot
    ∧ (Block.endQueue x0 b).pins = b.pins ∧ (Block.endQueue x0 b).feat = b.feat ∧ (Block.endQueue x0 b).link = b.link
    ∧ (Block.endQueue x0 b).ep = b.ep ∧ (Block.endQueue x0 b).tim = b.tim ∧ (Block.endQueue x0 b).ports = b.ports
    ∧ (Block.endQueue x0 b).slots = b.slots ∧ (Block.endQueue x0 b).ctls = b.ctls ∧ (Block.endQueue x0 b).ifc = b.ifc
    ∧ (Block.endQueue x0 b).fox = b.fox ∧ (Block.endQueue x0 b).afu = b.afu ∧ (Block.endQueue x0 b).den = b.den ∧ (Block.endQueue x0 b).map = b.map
    ∧ (Block.endQueue x0 b).guests = b.guests ∧ (Block.endQueue x0 b).flt = b.flt ∧ (Block.endQueue x0 b).pwr = b.pwr
    ∧ (Block.endQueue x0 b).edge = b.edge ∧ (Block.endQueue x0 b).trail = b.trail ∧ (Block.endQueue x0 b).fresh = b.fresh := by
  intros; simp [Block.endQueue]

@[simp] theorem Block.queueOff_frame : ∀ x0 b, (Block.queueOff x0 b).thermos = b.thermos ∧ (Block.queueOff x0 b).boot = b.boot
    ∧ (Block.queueOff x0 b).pins = b.pins ∧ (Block.queueOff x0 b).feat = b.feat ∧ (Block.queueOff x0 b).link = b.link
    ∧ (Block.queueOff x0 b).ep = b.ep ∧ (Block.queueOff x0 b).tim = b.tim ∧ (Block.queueOff x0 b).ports = b.ports
    ∧ (Block.queueOff x0 b).slots = b.slots ∧ (Block.queueOff x0 b).ctls = b.ctls ∧ (Block.queueOff x0 b).ifc = b.ifc
    ∧ (Block.queueOff x0 b).fox = b.fox ∧ (Block.queueOff x0 b).afu = b.afu ∧ (Block.queueOff x0 b).den = b.den ∧ (Block.queueOff x0 b).map = b.map
    ∧ (Block.queueOff x0 b).guests = b.guests ∧ (Block.queueOff x0 b).flt = b.flt ∧ (Block.queueOff x0 b).pwr = b.pwr
    ∧ (Block.queueOff x0 b).edge = b.edge ∧ (Block.queueOff x0 b).trail = b.trail ∧ (Block.queueOff x0 b).fresh = b.fresh := by
  intros; simp [Block.queueOff]

@[simp] theorem Block.hold_frame : ∀ b, (Block.hold b).thermos = b.thermos ∧ (Block.hold b).boot = b.boot ∧ (Block.hold b).pins = b.pins
    ∧ (Block.hold b).feat = b.feat ∧ (Block.hold b).link = b.link ∧ (Block.hold b).cfg = b.cfg ∧ (Block.hold b).ep = b.ep
    ∧ (Block.hold b).tim = b.tim ∧ (Block.hold b).ports = b.ports ∧ (Block.hold b).slots = b.slots ∧ (Block.hold b).ctls = b.ctls
    ∧ (Block.hold b).ifc = b.ifc ∧ (Block.hold b).fox = b.fox ∧ (Block.hold b).afu = b.afu ∧ (Block.hold b).owl = b.owl
    ∧ (Block.hold b).badger = b.badger ∧ (Block.hold b).den = b.den ∧ (Block.hold b).map = b.map ∧ (Block.hold b).guests = b.guests
    ∧ (Block.hold b).flt = b.flt ∧ (Block.hold b).pwr = b.pwr ∧ (Block.hold b).edge = b.edge ∧ (Block.hold b).trail = b.trail
    ∧ (Block.hold b).fresh = b.fresh := by
  intros; exact ⟨rfl, rfl, rfl, rfl, rfl, rfl, rfl, rfl, rfl, rfl, rfl, rfl, rfl, rfl, rfl, rfl, rfl, rfl, rfl, rfl, rfl, rfl, rfl, rfl⟩

@[simp] theorem Block.sessionEnd_frame : ∀ b, (Block.sessionEnd b).thermos = b.thermos ∧ (Block.sessionEnd b).boot = b.boot
    ∧ (Block.sessionEnd b).pins = b.pins ∧ (Block.sessionEnd b).link = b.link ∧ (Block.sessionEnd b).cfg = b.cfg ∧ (Block.sessionEnd b).ep = b.ep
    ∧ (Block.sessionEnd b).tim = b.tim ∧ (Block.sessionEnd b).ports = b.ports ∧ (Block.sessionEnd b).slots = b.slots
    ∧ (Block.sessionEnd b).ctls = b.ctls ∧ (Block.sessionEnd b).ifc = b.ifc ∧ (Block.sessionEnd b).fox = b.fox ∧ (Block.sessionEnd b).afu = b.afu
    ∧ (Block.sessionEnd b).owl = b.owl ∧ (Block.sessionEnd b).badger = b.badger ∧ (Block.sessionEnd b).den = b.den ∧ (Block.sessionEnd b).map = b.map
    ∧ (Block.sessionEnd b).guests = b.guests ∧ (Block.sessionEnd b).host = b.host ∧ (Block.sessionEnd b).flt = b.flt
    ∧ (Block.sessionEnd b).pwr = b.pwr ∧ (Block.sessionEnd b).edge = b.edge ∧ (Block.sessionEnd b).trail = b.trail
    ∧ (Block.sessionEnd b).fresh = b.fresh := by
  intros; exact ⟨rfl, rfl, rfl, rfl, rfl, rfl, rfl, rfl, rfl, rfl, rfl, rfl, rfl, rfl, rfl, rfl, rfl, rfl, rfl, rfl, rfl, rfl, rfl, rfl⟩

@[simp] theorem Block.linkLost_frame : ∀ b, (Block.linkLost b).thermos = b.thermos ∧ (Block.linkLost b).boot = b.boot
    ∧ (Block.linkLost b).pins = b.pins ∧ (Block.linkLost b).cfg = b.cfg ∧ (Block.linkLost b).ep = b.ep ∧ (Block.linkLost b).ports = b.ports
    ∧ (Block.linkLost b).slots = b.slots ∧ (Block.linkLost b).ctls = b.ctls ∧ (Block.linkLost b).ifc = b.ifc ∧ (Block.linkLost b).fox = b.fox
    ∧ (Block.linkLost b).afu = b.afu ∧ (Block.linkLost b).owl = b.owl ∧ (Block.linkLost b).badger = b.badger ∧ (Block.linkLost b).map = b.map
    ∧ (Block.linkLost b).guests = b.guests ∧ (Block.linkLost b).flt = b.flt ∧ (Block.linkLost b).pwr = b.pwr ∧ (Block.linkLost b).edge = b.edge
    ∧ (Block.linkLost b).trail = b.trail ∧ (Block.linkLost b).fresh = b.fresh := by
  intros; exact ⟨rfl, rfl, rfl, rfl, rfl, rfl, rfl, rfl, rfl, rfl, rfl, rfl, rfl, rfl, rfl, rfl, rfl, rfl, rfl, rfl⟩

@[simp] theorem Block.sessionStart_frame : ∀ b, (Block.sessionStart b).thermos = b.thermos ∧ (Block.sessionStart b).boot = b.boot
    ∧ (Block.sessionStart b).pins = b.pins ∧ (Block.sessionStart b).cfg = b.cfg ∧ (Block.sessionStart b).ep = b.ep
    ∧ (Block.sessionStart b).tim = b.tim ∧ (Block.sessionStart b).ports = b.ports ∧ (Block.sessionStart b).slots = b.slots
    ∧ (Block.sessionStart b).ctls = b.ctls ∧ (Block.sessionStart b).ifc = b.ifc ∧ (Block.sessionStart b).fox = b.fox
    ∧ (Block.sessionStart b).afu = b.afu ∧ (Block.sessionStart b).owl = b.owl ∧ (Block.sessionStart b).badger = b.badger
    ∧ (Block.sessionStart b).den = b.den ∧ (Block.sessionStart b).guests = b.guests ∧ (Block.sessionStart b).flt = b.flt
    ∧ (Block.sessionStart b).pwr = b.pwr ∧ (Block.sessionStart b).edge = b.edge ∧ (Block.sessionStart b).trail = b.trail
    ∧ (Block.sessionStart b).fresh = b.fresh := by
  intros; simp [Block.sessionStart]

@[simp] theorem Block.flrEffect_frame : ∀ b, (Block.flrEffect b).thermos = b.thermos ∧ (Block.flrEffect b).boot = b.boot
    ∧ (Block.flrEffect b).pins = b.pins ∧ (Block.flrEffect b).link = b.link ∧ (Block.flrEffect b).ep = b.ep ∧ (Block.flrEffect b).tim = b.tim
    ∧ (Block.flrEffect b).ports = b.ports ∧ (Block.flrEffect b).slots = b.slots ∧ (Block.flrEffect b).ctls = b.ctls ∧ (Block.flrEffect b).ifc = b.ifc
    ∧ (Block.flrEffect b).fox = b.fox ∧ (Block.flrEffect b).afu = b.afu ∧ (Block.flrEffect b).map = b.map ∧ (Block.flrEffect b).guests = b.guests
    ∧ (Block.flrEffect b).flt = b.flt ∧ (Block.flrEffect b).pwr = b.pwr ∧ (Block.flrEffect b).edge = b.edge ∧ (Block.flrEffect b).trail = b.trail
    ∧ (Block.flrEffect b).fresh = b.fresh := by
  intros; simp [Block.flrEffect]

@[simp] theorem Block.streamSignal_frame : ∀ x0 b, (Block.streamSignal x0 b).thermos = b.thermos ∧ (Block.streamSignal x0 b).boot = b.boot
    ∧ (Block.streamSignal x0 b).pins = b.pins ∧ (Block.streamSignal x0 b).feat = b.feat ∧ (Block.streamSignal x0 b).cfg = b.cfg
    ∧ (Block.streamSignal x0 b).ep = b.ep ∧ (Block.streamSignal x0 b).tim = b.tim ∧ (Block.streamSignal x0 b).ports = b.ports
    ∧ (Block.streamSignal x0 b).slots = b.slots ∧ (Block.streamSignal x0 b).ctls = b.ctls ∧ (Block.streamSignal x0 b).ifc = b.ifc
    ∧ (Block.streamSignal x0 b).fox = b.fox ∧ (Block.streamSignal x0 b).afu = b.afu ∧ (Block.streamSignal x0 b).owl = b.owl
    ∧ (Block.streamSignal x0 b).badger = b.badger ∧ (Block.streamSignal x0 b).den = b.den ∧ (Block.streamSignal x0 b).map = b.map
    ∧ (Block.streamSignal x0 b).guests = b.guests ∧ (Block.streamSignal x0 b).flt = b.flt ∧ (Block.streamSignal x0 b).pwr = b.pwr
    ∧ (Block.streamSignal x0 b).edge = b.edge ∧ (Block.streamSignal x0 b).trail = b.trail ∧ (Block.streamSignal x0 b).fresh = b.fresh := by
  intros; simp [Block.streamSignal]

@[simp] theorem Block.queueSignal_frame : ∀ x0 b, (Block.queueSignal x0 b).thermos = b.thermos ∧ (Block.queueSignal x0 b).boot = b.boot
    ∧ (Block.queueSignal x0 b).pins = b.pins ∧ (Block.queueSignal x0 b).feat = b.feat ∧ (Block.queueSignal x0 b).cfg = b.cfg
    ∧ (Block.queueSignal x0 b).ep = b.ep ∧ (Block.queueSignal x0 b).tim = b.tim ∧ (Block.queueSignal x0 b).ports = b.ports
    ∧ (Block.queueSignal x0 b).slots = b.slots ∧ (Block.queueSignal x0 b).ctls = b.ctls ∧ (Block.queueSignal x0 b).ifc = b.ifc
    ∧ (Block.queueSignal x0 b).fox = b.fox ∧ (Block.queueSignal x0 b).afu = b.afu ∧ (Block.queueSignal x0 b).owl = b.owl
    ∧ (Block.queueSignal x0 b).badger = b.badger ∧ (Block.queueSignal x0 b).den = b.den ∧ (Block.queueSignal x0 b).map = b.map
    ∧ (Block.queueSignal x0 b).guests = b.guests ∧ (Block.queueSignal x0 b).flt = b.flt ∧ (Block.queueSignal x0 b).pwr = b.pwr
    ∧ (Block.queueSignal x0 b).edge = b.edge ∧ (Block.queueSignal x0 b).trail = b.trail ∧ (Block.queueSignal x0 b).fresh = b.fresh := by
  intros; simp [Block.queueSignal]

@[simp] theorem Block.writeCompletion_frame : ∀ x0 x1 b, (Block.writeCompletion x0 x1 b).thermos = b.thermos
    ∧ (Block.writeCompletion x0 x1 b).boot = b.boot ∧ (Block.writeCompletion x0 x1 b).pins = b.pins ∧ (Block.writeCompletion x0 x1 b).feat = b.feat
    ∧ (Block.writeCompletion x0 x1 b).cfg = b.cfg ∧ (Block.writeCompletion x0 x1 b).ep = b.ep ∧ (Block.writeCompletion x0 x1 b).tim = b.tim
    ∧ (Block.writeCompletion x0 x1 b).ports = b.ports ∧ (Block.writeCompletion x0 x1 b).slots = b.slots
    ∧ (Block.writeCompletion x0 x1 b).ctls = b.ctls ∧ (Block.writeCompletion x0 x1 b).ifc = b.ifc ∧ (Block.writeCompletion x0 x1 b).fox = b.fox
    ∧ (Block.writeCompletion x0 x1 b).afu = b.afu ∧ (Block.writeCompletion x0 x1 b).owl = b.owl ∧ (Block.writeCompletion x0 x1 b).badger = b.badger
    ∧ (Block.writeCompletion x0 x1 b).den = b.den ∧ (Block.writeCompletion x0 x1 b).map = b.map ∧ (Block.writeCompletion x0 x1 b).guests = b.guests
    ∧ (Block.writeCompletion x0 x1 b).flt = b.flt ∧ (Block.writeCompletion x0 x1 b).pwr = b.pwr ∧ (Block.writeCompletion x0 x1 b).edge = b.edge
    ∧ (Block.writeCompletion x0 x1 b).trail = b.trail ∧ (Block.writeCompletion x0 x1 b).fresh = b.fresh := by
  intros; simp [Block.writeCompletion]

@[simp] theorem Block.haltCompletions_frame : ∀ b, (Block.haltCompletions b).thermos = b.thermos ∧ (Block.haltCompletions b).boot = b.boot
    ∧ (Block.haltCompletions b).pins = b.pins ∧ (Block.haltCompletions b).feat = b.feat ∧ (Block.haltCompletions b).cfg = b.cfg
    ∧ (Block.haltCompletions b).ep = b.ep ∧ (Block.haltCompletions b).tim = b.tim ∧ (Block.haltCompletions b).ports = b.ports
    ∧ (Block.haltCompletions b).slots = b.slots ∧ (Block.haltCompletions b).ctls = b.ctls ∧ (Block.haltCompletions b).ifc = b.ifc
    ∧ (Block.haltCompletions b).fox = b.fox ∧ (Block.haltCompletions b).afu = b.afu ∧ (Block.haltCompletions b).owl = b.owl
    ∧ (Block.haltCompletions b).badger = b.badger ∧ (Block.haltCompletions b).den = b.den ∧ (Block.haltCompletions b).map = b.map
    ∧ (Block.haltCompletions b).guests = b.guests ∧ (Block.haltCompletions b).flt = b.flt ∧ (Block.haltCompletions b).pwr = b.pwr
    ∧ (Block.haltCompletions b).edge = b.edge ∧ (Block.haltCompletions b).trail = b.trail ∧ (Block.haltCompletions b).fresh = b.fresh := by
  intros; simp [Block.haltCompletions]

@[simp] theorem Block.onCam_frame : ∀ x0 x1 b, (Block.onCam x0 x1 b).thermos = b.thermos ∧ (Block.onCam x0 x1 b).boot = b.boot
    ∧ (Block.onCam x0 x1 b).pins = b.pins ∧ (Block.onCam x0 x1 b).feat = b.feat ∧ (Block.onCam x0 x1 b).link = b.link
    ∧ (Block.onCam x0 x1 b).cfg = b.cfg ∧ (Block.onCam x0 x1 b).ep = b.ep ∧ (Block.onCam x0 x1 b).tim = b.tim ∧ (Block.onCam x0 x1 b).ports = b.ports
    ∧ (Block.onCam x0 x1 b).slots = b.slots ∧ (Block.onCam x0 x1 b).ctls = b.ctls ∧ (Block.onCam x0 x1 b).ifc = b.ifc
    ∧ (Block.onCam x0 x1 b).afu = b.afu ∧ (Block.onCam x0 x1 b).owl = b.owl ∧ (Block.onCam x0 x1 b).badger = b.badger
    ∧ (Block.onCam x0 x1 b).den = b.den ∧ (Block.onCam x0 x1 b).map = b.map ∧ (Block.onCam x0 x1 b).guests = b.guests
    ∧ (Block.onCam x0 x1 b).host = b.host ∧ (Block.onCam x0 x1 b).flt = b.flt ∧ (Block.onCam x0 x1 b).pwr = b.pwr
    ∧ (Block.onCam x0 x1 b).edge = b.edge ∧ (Block.onCam x0 x1 b).trail = b.trail ∧ (Block.onCam x0 x1 b).fresh = b.fresh := by
  intros; exact ⟨rfl, rfl, rfl, rfl, rfl, rfl, rfl, rfl, rfl, rfl, rfl, rfl, rfl, rfl, rfl, rfl, rfl, rfl, rfl, rfl, rfl, rfl, rfl, rfl⟩

@[simp] theorem Block.onFoxFrame_frame : ∀ x0 x1 x2 b, (Block.onFoxFrame x0 x1 x2 b).thermos = b.thermos ∧ (Block.onFoxFrame x0 x1 x2 b).boot = b.boot
    ∧ (Block.onFoxFrame x0 x1 x2 b).pins = b.pins ∧ (Block.onFoxFrame x0 x1 x2 b).feat = b.feat ∧ (Block.onFoxFrame x0 x1 x2 b).link = b.link
    ∧ (Block.onFoxFrame x0 x1 x2 b).cfg = b.cfg ∧ (Block.onFoxFrame x0 x1 x2 b).ep = b.ep ∧ (Block.onFoxFrame x0 x1 x2 b).tim = b.tim
    ∧ (Block.onFoxFrame x0 x1 x2 b).ports = b.ports ∧ (Block.onFoxFrame x0 x1 x2 b).slots = b.slots ∧ (Block.onFoxFrame x0 x1 x2 b).ctls = b.ctls
    ∧ (Block.onFoxFrame x0 x1 x2 b).ifc = b.ifc ∧ (Block.onFoxFrame x0 x1 x2 b).afu = b.afu ∧ (Block.onFoxFrame x0 x1 x2 b).owl = b.owl
    ∧ (Block.onFoxFrame x0 x1 x2 b).badger = b.badger ∧ (Block.onFoxFrame x0 x1 x2 b).den = b.den ∧ (Block.onFoxFrame x0 x1 x2 b).map = b.map
    ∧ (Block.onFoxFrame x0 x1 x2 b).guests = b.guests ∧ (Block.onFoxFrame x0 x1 x2 b).host = b.host ∧ (Block.onFoxFrame x0 x1 x2 b).flt = b.flt
    ∧ (Block.onFoxFrame x0 x1 x2 b).pwr = b.pwr ∧ (Block.onFoxFrame x0 x1 x2 b).edge = b.edge ∧ (Block.onFoxFrame x0 x1 x2 b).trail = b.trail
    ∧ (Block.onFoxFrame x0 x1 x2 b).fresh = b.fresh := by
  intros; exact ⟨rfl, rfl, rfl, rfl, rfl, rfl, rfl, rfl, rfl, rfl, rfl, rfl, rfl, rfl, rfl, rfl, rfl, rfl, rfl, rfl, rfl, rfl, rfl, rfl⟩

@[simp] theorem Block.bookBand_frame : ∀ x0 x1 x2 b, (Block.bookBand x0 x1 x2 b).thermos = b.thermos ∧ (Block.bookBand x0 x1 x2 b).boot = b.boot
    ∧ (Block.bookBand x0 x1 x2 b).pins = b.pins ∧ (Block.bookBand x0 x1 x2 b).feat = b.feat ∧ (Block.bookBand x0 x1 x2 b).link = b.link
    ∧ (Block.bookBand x0 x1 x2 b).cfg = b.cfg ∧ (Block.bookBand x0 x1 x2 b).ep = b.ep ∧ (Block.bookBand x0 x1 x2 b).tim = b.tim
    ∧ (Block.bookBand x0 x1 x2 b).ports = b.ports ∧ (Block.bookBand x0 x1 x2 b).slots = b.slots ∧ (Block.bookBand x0 x1 x2 b).ctls = b.ctls
    ∧ (Block.bookBand x0 x1 x2 b).ifc = b.ifc ∧ (Block.bookBand x0 x1 x2 b).afu = b.afu ∧ (Block.bookBand x0 x1 x2 b).owl = b.owl
    ∧ (Block.bookBand x0 x1 x2 b).badger = b.badger ∧ (Block.bookBand x0 x1 x2 b).den = b.den ∧ (Block.bookBand x0 x1 x2 b).map = b.map
    ∧ (Block.bookBand x0 x1 x2 b).guests = b.guests ∧ (Block.bookBand x0 x1 x2 b).host = b.host ∧ (Block.bookBand x0 x1 x2 b).flt = b.flt
    ∧ (Block.bookBand x0 x1 x2 b).pwr = b.pwr ∧ (Block.bookBand x0 x1 x2 b).edge = b.edge ∧ (Block.bookBand x0 x1 x2 b).trail = b.trail
    ∧ (Block.bookBand x0 x1 x2 b).fresh = b.fresh := by
  intros; exact ⟨rfl, rfl, rfl, rfl, rfl, rfl, rfl, rfl, rfl, rfl, rfl, rfl, rfl, rfl, rfl, rfl, rfl, rfl, rfl, rfl, rfl, rfl, rfl, rfl⟩

@[simp] theorem Block.foxDropEvent_frame : ∀ x0 x1 x2 b, (Block.foxDropEvent x0 x1 x2 b).thermos = b.thermos
    ∧ (Block.foxDropEvent x0 x1 x2 b).boot = b.boot ∧ (Block.foxDropEvent x0 x1 x2 b).pins = b.pins ∧ (Block.foxDropEvent x0 x1 x2 b).feat = b.feat
    ∧ (Block.foxDropEvent x0 x1 x2 b).link = b.link ∧ (Block.foxDropEvent x0 x1 x2 b).cfg = b.cfg ∧ (Block.foxDropEvent x0 x1 x2 b).ep = b.ep
    ∧ (Block.foxDropEvent x0 x1 x2 b).tim = b.tim ∧ (Block.foxDropEvent x0 x1 x2 b).ports = b.ports ∧ (Block.foxDropEvent x0 x1 x2 b).slots = b.slots
    ∧ (Block.foxDropEvent x0 x1 x2 b).ctls = b.ctls ∧ (Block.foxDropEvent x0 x1 x2 b).ifc = b.ifc ∧ (Block.foxDropEvent x0 x1 x2 b).fox = b.fox
    ∧ (Block.foxDropEvent x0 x1 x2 b).afu = b.afu ∧ (Block.foxDropEvent x0 x1 x2 b).owl = b.owl ∧ (Block.foxDropEvent x0 x1 x2 b).badger = b.badger
    ∧ (Block.foxDropEvent x0 x1 x2 b).den = b.den ∧ (Block.foxDropEvent x0 x1 x2 b).map = b.map ∧ (Block.foxDropEvent x0 x1 x2 b).guests = b.guests
    ∧ (Block.foxDropEvent x0 x1 x2 b).pwr = b.pwr ∧ (Block.foxDropEvent x0 x1 x2 b).edge = b.edge ∧ (Block.foxDropEvent x0 x1 x2 b).trail = b.trail
    ∧ (Block.foxDropEvent x0 x1 x2 b).fresh = b.fresh := by
  intros; simp [Block.foxDropEvent]

@[simp] theorem Block.foxOpen_frame : ∀ x0 x1 b, (Block.foxOpen x0 x1 b).thermos = b.thermos ∧ (Block.foxOpen x0 x1 b).boot = b.boot
    ∧ (Block.foxOpen x0 x1 b).pins = b.pins ∧ (Block.foxOpen x0 x1 b).feat = b.feat ∧ (Block.foxOpen x0 x1 b).link = b.link
    ∧ (Block.foxOpen x0 x1 b).cfg = b.cfg ∧ (Block.foxOpen x0 x1 b).tim = b.tim ∧ (Block.foxOpen x0 x1 b).ports = b.ports
    ∧ (Block.foxOpen x0 x1 b).slots = b.slots ∧ (Block.foxOpen x0 x1 b).ctls = b.ctls ∧ (Block.foxOpen x0 x1 b).ifc = b.ifc
    ∧ (Block.foxOpen x0 x1 b).afu = b.afu ∧ (Block.foxOpen x0 x1 b).owl = b.owl ∧ (Block.foxOpen x0 x1 b).badger = b.badger
    ∧ (Block.foxOpen x0 x1 b).den = b.den ∧ (Block.foxOpen x0 x1 b).map = b.map ∧ (Block.foxOpen x0 x1 b).guests = b.guests
    ∧ (Block.foxOpen x0 x1 b).pwr = b.pwr ∧ (Block.foxOpen x0 x1 b).edge = b.edge ∧ (Block.foxOpen x0 x1 b).trail = b.trail
    ∧ (Block.foxOpen x0 x1 b).fresh = b.fresh := by
  intros; simp [Block.foxOpen]

@[simp] theorem Block.foxDiscard_frame : ∀ x0 x1 b, (Block.foxDiscard x0 x1 b).thermos = b.thermos ∧ (Block.foxDiscard x0 x1 b).boot = b.boot
    ∧ (Block.foxDiscard x0 x1 b).pins = b.pins ∧ (Block.foxDiscard x0 x1 b).feat = b.feat ∧ (Block.foxDiscard x0 x1 b).link = b.link
    ∧ (Block.foxDiscard x0 x1 b).cfg = b.cfg ∧ (Block.foxDiscard x0 x1 b).ep = b.ep ∧ (Block.foxDiscard x0 x1 b).tim = b.tim
    ∧ (Block.foxDiscard x0 x1 b).ports = b.ports ∧ (Block.foxDiscard x0 x1 b).slots = b.slots ∧ (Block.foxDiscard x0 x1 b).ctls = b.ctls
    ∧ (Block.foxDiscard x0 x1 b).ifc = b.ifc ∧ (Block.foxDiscard x0 x1 b).afu = b.afu ∧ (Block.foxDiscard x0 x1 b).owl = b.owl
    ∧ (Block.foxDiscard x0 x1 b).badger = b.badger ∧ (Block.foxDiscard x0 x1 b).den = b.den ∧ (Block.foxDiscard x0 x1 b).map = b.map
    ∧ (Block.foxDiscard x0 x1 b).guests = b.guests ∧ (Block.foxDiscard x0 x1 b).host = b.host ∧ (Block.foxDiscard x0 x1 b).flt = b.flt
    ∧ (Block.foxDiscard x0 x1 b).pwr = b.pwr ∧ (Block.foxDiscard x0 x1 b).edge = b.edge ∧ (Block.foxDiscard x0 x1 b).trail = b.trail
    ∧ (Block.foxDiscard x0 x1 b).fresh = b.fresh := by
  intros; exact ⟨rfl, rfl, rfl, rfl, rfl, rfl, rfl, rfl, rfl, rfl, rfl, rfl, rfl, rfl, rfl, rfl, rfl, rfl, rfl, rfl, rfl, rfl, rfl, rfl⟩

@[simp] theorem Block.foxDrop_frame : ∀ x0 x1 x2 b, (Block.foxDrop x0 x1 x2 b).thermos = b.thermos ∧ (Block.foxDrop x0 x1 x2 b).boot = b.boot
    ∧ (Block.foxDrop x0 x1 x2 b).pins = b.pins ∧ (Block.foxDrop x0 x1 x2 b).feat = b.feat ∧ (Block.foxDrop x0 x1 x2 b).link = b.link
    ∧ (Block.foxDrop x0 x1 x2 b).cfg = b.cfg ∧ (Block.foxDrop x0 x1 x2 b).tim = b.tim ∧ (Block.foxDrop x0 x1 x2 b).ports = b.ports
    ∧ (Block.foxDrop x0 x1 x2 b).slots = b.slots ∧ (Block.foxDrop x0 x1 x2 b).ctls = b.ctls ∧ (Block.foxDrop x0 x1 x2 b).ifc = b.ifc
    ∧ (Block.foxDrop x0 x1 x2 b).afu = b.afu ∧ (Block.foxDrop x0 x1 x2 b).owl = b.owl ∧ (Block.foxDrop x0 x1 x2 b).badger = b.badger
    ∧ (Block.foxDrop x0 x1 x2 b).den = b.den ∧ (Block.foxDrop x0 x1 x2 b).map = b.map ∧ (Block.foxDrop x0 x1 x2 b).guests = b.guests
    ∧ (Block.foxDrop x0 x1 x2 b).pwr = b.pwr ∧ (Block.foxDrop x0 x1 x2 b).edge = b.edge ∧ (Block.foxDrop x0 x1 x2 b).trail = b.trail
    ∧ (Block.foxDrop x0 x1 x2 b).fresh = b.fresh := by
  intros; unfold Block.foxDrop; (repeat' split) <;> simp

@[simp] theorem Block.foxFrameDone_frame : ∀ x0 x1 x2 b, (Block.foxFrameDone x0 x1 x2 b).thermos = b.thermos ∧ (Block.foxFrameDone x0 x1 x2 b).boot = b.boot
    ∧ (Block.foxFrameDone x0 x1 x2 b).pins = b.pins ∧ (Block.foxFrameDone x0 x1 x2 b).feat = b.feat ∧ (Block.foxFrameDone x0 x1 x2 b).link = b.link
    ∧ (Block.foxFrameDone x0 x1 x2 b).cfg = b.cfg ∧ (Block.foxFrameDone x0 x1 x2 b).ep = b.ep ∧ (Block.foxFrameDone x0 x1 x2 b).tim = b.tim
    ∧ (Block.foxFrameDone x0 x1 x2 b).ports = b.ports ∧ (Block.foxFrameDone x0 x1 x2 b).slots = b.slots ∧ (Block.foxFrameDone x0 x1 x2 b).ctls = b.ctls
    ∧ (Block.foxFrameDone x0 x1 x2 b).ifc = b.ifc ∧ (Block.foxFrameDone x0 x1 x2 b).afu = b.afu ∧ (Block.foxFrameDone x0 x1 x2 b).owl = b.owl
    ∧ (Block.foxFrameDone x0 x1 x2 b).badger = b.badger ∧ (Block.foxFrameDone x0 x1 x2 b).den = b.den ∧ (Block.foxFrameDone x0 x1 x2 b).map = b.map
    ∧ (Block.foxFrameDone x0 x1 x2 b).guests = b.guests ∧ (Block.foxFrameDone x0 x1 x2 b).host = b.host ∧ (Block.foxFrameDone x0 x1 x2 b).flt = b.flt
    ∧ (Block.foxFrameDone x0 x1 x2 b).pwr = b.pwr ∧ (Block.foxFrameDone x0 x1 x2 b).edge = b.edge ∧ (Block.foxFrameDone x0 x1 x2 b).trail = b.trail
    ∧ (Block.foxFrameDone x0 x1 x2 b).fresh = b.fresh := by
  intros; simp [Block.foxFrameDone]

@[simp] theorem Block.redoBand_frame : ∀ x0 x1 x2 b, (Block.redoBand x0 x1 x2 b).thermos = b.thermos ∧ (Block.redoBand x0 x1 x2 b).boot = b.boot
    ∧ (Block.redoBand x0 x1 x2 b).pins = b.pins ∧ (Block.redoBand x0 x1 x2 b).feat = b.feat ∧ (Block.redoBand x0 x1 x2 b).link = b.link
    ∧ (Block.redoBand x0 x1 x2 b).cfg = b.cfg ∧ (Block.redoBand x0 x1 x2 b).tim = b.tim ∧ (Block.redoBand x0 x1 x2 b).ports = b.ports
    ∧ (Block.redoBand x0 x1 x2 b).slots = b.slots ∧ (Block.redoBand x0 x1 x2 b).ctls = b.ctls ∧ (Block.redoBand x0 x1 x2 b).ifc = b.ifc
    ∧ (Block.redoBand x0 x1 x2 b).afu = b.afu ∧ (Block.redoBand x0 x1 x2 b).owl = b.owl ∧ (Block.redoBand x0 x1 x2 b).badger = b.badger
    ∧ (Block.redoBand x0 x1 x2 b).den = b.den ∧ (Block.redoBand x0 x1 x2 b).map = b.map ∧ (Block.redoBand x0 x1 x2 b).guests = b.guests
    ∧ (Block.redoBand x0 x1 x2 b).pwr = b.pwr ∧ (Block.redoBand x0 x1 x2 b).edge = b.edge ∧ (Block.redoBand x0 x1 x2 b).trail = b.trail
    ∧ (Block.redoBand x0 x1 x2 b).fresh = b.fresh := by
  intros; simp only [Block.redoBand]; (repeat' (first | split | simp)) <;> simp

@[simp] theorem Block.denWrite_frame : ∀ x0 x1 b, (Block.denWrite x0 x1 b).thermos = b.thermos ∧ (Block.denWrite x0 x1 b).boot = b.boot
    ∧ (Block.denWrite x0 x1 b).pins = b.pins ∧ (Block.denWrite x0 x1 b).feat = b.feat ∧ (Block.denWrite x0 x1 b).link = b.link
    ∧ (Block.denWrite x0 x1 b).cfg = b.cfg ∧ (Block.denWrite x0 x1 b).ep = b.ep ∧ (Block.denWrite x0 x1 b).tim = b.tim
    ∧ (Block.denWrite x0 x1 b).ports = b.ports ∧ (Block.denWrite x0 x1 b).slots = b.slots ∧ (Block.denWrite x0 x1 b).ctls = b.ctls
    ∧ (Block.denWrite x0 x1 b).ifc = b.ifc ∧ (Block.denWrite x0 x1 b).fox = b.fox ∧ (Block.denWrite x0 x1 b).afu = b.afu
    ∧ (Block.denWrite x0 x1 b).owl = b.owl ∧ (Block.denWrite x0 x1 b).badger = b.badger ∧ (Block.denWrite x0 x1 b).map = b.map
    ∧ (Block.denWrite x0 x1 b).guests = b.guests ∧ (Block.denWrite x0 x1 b).host = b.host ∧ (Block.denWrite x0 x1 b).flt = b.flt
    ∧ (Block.denWrite x0 x1 b).pwr = b.pwr ∧ (Block.denWrite x0 x1 b).edge = b.edge ∧ (Block.denWrite x0 x1 b).trail = b.trail
    ∧ (Block.denWrite x0 x1 b).fresh = b.fresh := by
  intros; exact ⟨rfl, rfl, rfl, rfl, rfl, rfl, rfl, rfl, rfl, rfl, rfl, rfl, rfl, rfl, rfl, rfl, rfl, rfl, rfl, rfl, rfl, rfl, rfl, rfl⟩

@[simp] theorem Block.storeMap_frame : ∀ x0 x1 x2 x3 b, (Block.storeMap x0 x1 x2 x3 b).thermos = b.thermos
    ∧ (Block.storeMap x0 x1 x2 x3 b).boot = b.boot ∧ (Block.storeMap x0 x1 x2 x3 b).pins = b.pins ∧ (Block.storeMap x0 x1 x2 x3 b).feat = b.feat
    ∧ (Block.storeMap x0 x1 x2 x3 b).link = b.link ∧ (Block.storeMap x0 x1 x2 x3 b).cfg = b.cfg ∧ (Block.storeMap x0 x1 x2 x3 b).ep = b.ep
    ∧ (Block.storeMap x0 x1 x2 x3 b).tim = b.tim ∧ (Block.storeMap x0 x1 x2 x3 b).ports = b.ports ∧ (Block.storeMap x0 x1 x2 x3 b).slots = b.slots
    ∧ (Block.storeMap x0 x1 x2 x3 b).ctls = b.ctls ∧ (Block.storeMap x0 x1 x2 x3 b).ifc = b.ifc ∧ (Block.storeMap x0 x1 x2 x3 b).fox = b.fox
    ∧ (Block.storeMap x0 x1 x2 x3 b).afu = b.afu ∧ (Block.storeMap x0 x1 x2 x3 b).owl = b.owl ∧ (Block.storeMap x0 x1 x2 x3 b).badger = b.badger
    ∧ (Block.storeMap x0 x1 x2 x3 b).map = b.map ∧ (Block.storeMap x0 x1 x2 x3 b).guests = b.guests ∧ (Block.storeMap x0 x1 x2 x3 b).pwr = b.pwr
    ∧ (Block.storeMap x0 x1 x2 x3 b).edge = b.edge ∧ (Block.storeMap x0 x1 x2 x3 b).trail = b.trail ∧ (Block.storeMap x0 x1 x2 x3 b).fresh = b.fresh := by
  intros; simp [Block.storeMap]

@[simp] theorem Block.guestOut_frame : ∀ x0 x1 x2 b, (Block.guestOut x0 x1 x2 b).thermos = b.thermos ∧ (Block.guestOut x0 x1 x2 b).boot = b.boot
    ∧ (Block.guestOut x0 x1 x2 b).pins = b.pins ∧ (Block.guestOut x0 x1 x2 b).feat = b.feat ∧ (Block.guestOut x0 x1 x2 b).link = b.link
    ∧ (Block.guestOut x0 x1 x2 b).cfg = b.cfg ∧ (Block.guestOut x0 x1 x2 b).ep = b.ep ∧ (Block.guestOut x0 x1 x2 b).tim = b.tim
    ∧ (Block.guestOut x0 x1 x2 b).ports = b.ports ∧ (Block.guestOut x0 x1 x2 b).slots = b.slots ∧ (Block.guestOut x0 x1 x2 b).ctls = b.ctls
    ∧ (Block.guestOut x0 x1 x2 b).ifc = b.ifc ∧ (Block.guestOut x0 x1 x2 b).fox = b.fox ∧ (Block.guestOut x0 x1 x2 b).afu = b.afu
    ∧ (Block.guestOut x0 x1 x2 b).owl = b.owl ∧ (Block.guestOut x0 x1 x2 b).badger = b.badger ∧ (Block.guestOut x0 x1 x2 b).den = b.den
    ∧ (Block.guestOut x0 x1 x2 b).map = b.map ∧ (Block.guestOut x0 x1 x2 b).guests = b.guests ∧ (Block.guestOut x0 x1 x2 b).pwr = b.pwr
    ∧ (Block.guestOut x0 x1 x2 b).edge = b.edge ∧ (Block.guestOut x0 x1 x2 b).trail = b.trail := by
  intros; simp [Block.guestOut]

@[simp] theorem Block.queueFrag_frame : ∀ x0 x1 b, (Block.queueFrag x0 x1 b).thermos = b.thermos ∧ (Block.queueFrag x0 x1 b).boot = b.boot
    ∧ (Block.queueFrag x0 x1 b).pins = b.pins ∧ (Block.queueFrag x0 x1 b).feat = b.feat ∧ (Block.queueFrag x0 x1 b).link = b.link
    ∧ (Block.queueFrag x0 x1 b).cfg = b.cfg ∧ (Block.queueFrag x0 x1 b).ep = b.ep ∧ (Block.queueFrag x0 x1 b).tim = b.tim
    ∧ (Block.queueFrag x0 x1 b).ports = b.ports ∧ (Block.queueFrag x0 x1 b).slots = b.slots ∧ (Block.queueFrag x0 x1 b).ctls = b.ctls
    ∧ (Block.queueFrag x0 x1 b).ifc = b.ifc ∧ (Block.queueFrag x0 x1 b).fox = b.fox ∧ (Block.queueFrag x0 x1 b).afu = b.afu
    ∧ (Block.queueFrag x0 x1 b).owl = b.owl ∧ (Block.queueFrag x0 x1 b).badger = b.badger ∧ (Block.queueFrag x0 x1 b).den = b.den
    ∧ (Block.queueFrag x0 x1 b).map = b.map ∧ (Block.queueFrag x0 x1 b).guests = b.guests ∧ (Block.queueFrag x0 x1 b).pwr = b.pwr
    ∧ (Block.queueFrag x0 x1 b).edge = b.edge ∧ (Block.queueFrag x0 x1 b).fresh = b.fresh := by
  intros; unfold Block.queueFrag; (repeat' split) <;> simp

@[simp] theorem Block.putMap_frame : ∀ x0 x1 x2 x3 b, (Block.putMap x0 x1 x2 x3 b).thermos = b.thermos ∧ (Block.putMap x0 x1 x2 x3 b).boot = b.boot
    ∧ (Block.putMap x0 x1 x2 x3 b).pins = b.pins ∧ (Block.putMap x0 x1 x2 x3 b).feat = b.feat ∧ (Block.putMap x0 x1 x2 x3 b).link = b.link
    ∧ (Block.putMap x0 x1 x2 x3 b).cfg = b.cfg ∧ (Block.putMap x0 x1 x2 x3 b).ep = b.ep ∧ (Block.putMap x0 x1 x2 x3 b).tim = b.tim
    ∧ (Block.putMap x0 x1 x2 x3 b).ports = b.ports ∧ (Block.putMap x0 x1 x2 x3 b).slots = b.slots ∧ (Block.putMap x0 x1 x2 x3 b).ctls = b.ctls
    ∧ (Block.putMap x0 x1 x2 x3 b).ifc = b.ifc ∧ (Block.putMap x0 x1 x2 x3 b).fox = b.fox ∧ (Block.putMap x0 x1 x2 x3 b).afu = b.afu
    ∧ (Block.putMap x0 x1 x2 x3 b).owl = b.owl ∧ (Block.putMap x0 x1 x2 x3 b).badger = b.badger ∧ (Block.putMap x0 x1 x2 x3 b).map = b.map
    ∧ (Block.putMap x0 x1 x2 x3 b).guests = b.guests ∧ (Block.putMap x0 x1 x2 x3 b).pwr = b.pwr ∧ (Block.putMap x0 x1 x2 x3 b).edge = b.edge := by
  intros; unfold Block.putMap; (repeat' split) <;> simp

@[simp] theorem Block.mapFull_frame : ∀ x0 b, (Block.mapFull x0 b).thermos = b.thermos ∧ (Block.mapFull x0 b).boot = b.boot
    ∧ (Block.mapFull x0 b).pins = b.pins ∧ (Block.mapFull x0 b).feat = b.feat ∧ (Block.mapFull x0 b).link = b.link ∧ (Block.mapFull x0 b).cfg = b.cfg
    ∧ (Block.mapFull x0 b).ep = b.ep ∧ (Block.mapFull x0 b).tim = b.tim ∧ (Block.mapFull x0 b).ports = b.ports ∧ (Block.mapFull x0 b).slots = b.slots
    ∧ (Block.mapFull x0 b).ctls = b.ctls ∧ (Block.mapFull x0 b).ifc = b.ifc ∧ (Block.mapFull x0 b).fox = b.fox ∧ (Block.mapFull x0 b).afu = b.afu
    ∧ (Block.mapFull x0 b).owl = b.owl ∧ (Block.mapFull x0 b).badger = b.badger ∧ (Block.mapFull x0 b).guests = b.guests
    ∧ (Block.mapFull x0 b).pwr = b.pwr ∧ (Block.mapFull x0 b).edge = b.edge ∧ (Block.mapFull x0 b).trail = b.trail
    ∧ (Block.mapFull x0 b).fresh = b.fresh := by
  intros; simp [Block.mapFull]

@[simp] theorem Block.poolTake_frame : ∀ x0 b, (Block.poolTake x0 b).thermos = b.thermos ∧ (Block.poolTake x0 b).boot = b.boot
    ∧ (Block.poolTake x0 b).pins = b.pins ∧ (Block.poolTake x0 b).feat = b.feat ∧ (Block.poolTake x0 b).link = b.link
    ∧ (Block.poolTake x0 b).cfg = b.cfg ∧ (Block.poolTake x0 b).ep = b.ep ∧ (Block.poolTake x0 b).tim = b.tim ∧ (Block.poolTake x0 b).ports = b.ports
    ∧ (Block.poolTake x0 b).slots = b.slots ∧ (Block.poolTake x0 b).ctls = b.ctls ∧ (Block.poolTake x0 b).ifc = b.ifc
    ∧ (Block.poolTake x0 b).fox = b.fox ∧ (Block.poolTake x0 b).afu = b.afu ∧ (Block.poolTake x0 b).owl = b.owl
    ∧ (Block.poolTake x0 b).badger = b.badger ∧ (Block.poolTake x0 b).den = b.den ∧ (Block.poolTake x0 b).guests = b.guests
    ∧ (Block.poolTake x0 b).host = b.host ∧ (Block.poolTake x0 b).flt = b.flt ∧ (Block.poolTake x0 b).pwr = b.pwr
    ∧ (Block.poolTake x0 b).edge = b.edge ∧ (Block.poolTake x0 b).trail = b.trail ∧ (Block.poolTake x0 b).fresh = b.fresh := by
  intros; exact ⟨rfl, rfl, rfl, rfl, rfl, rfl, rfl, rfl, rfl, rfl, rfl, rfl, rfl, rfl, rfl, rfl, rfl, rfl, rfl, rfl, rfl, rfl, rfl, rfl⟩

@[simp] theorem Block.setKf_frame : ∀ x0 b, (Block.setKf x0 b).thermos = b.thermos ∧ (Block.setKf x0 b).boot = b.boot
    ∧ (Block.setKf x0 b).pins = b.pins ∧ (Block.setKf x0 b).feat = b.feat ∧ (Block.setKf x0 b).link = b.link ∧ (Block.setKf x0 b).cfg = b.cfg
    ∧ (Block.setKf x0 b).ep = b.ep ∧ (Block.setKf x0 b).tim = b.tim ∧ (Block.setKf x0 b).ports = b.ports ∧ (Block.setKf x0 b).slots = b.slots
    ∧ (Block.setKf x0 b).ctls = b.ctls ∧ (Block.setKf x0 b).ifc = b.ifc ∧ (Block.setKf x0 b).fox = b.fox ∧ (Block.setKf x0 b).afu = b.afu
    ∧ (Block.setKf x0 b).owl = b.owl ∧ (Block.setKf x0 b).badger = b.badger ∧ (Block.setKf x0 b).den = b.den ∧ (Block.setKf x0 b).guests = b.guests
    ∧ (Block.setKf x0 b).host = b.host ∧ (Block.setKf x0 b).flt = b.flt ∧ (Block.setKf x0 b).pwr = b.pwr ∧ (Block.setKf x0 b).edge = b.edge
    ∧ (Block.setKf x0 b).trail = b.trail ∧ (Block.setKf x0 b).fresh = b.fresh := by
  intros; exact ⟨rfl, rfl, rfl, rfl, rfl, rfl, rfl, rfl, rfl, rfl, rfl, rfl, rfl, rfl, rfl, rfl, rfl, rfl, rfl, rfl, rfl, rfl, rfl, rfl⟩

@[simp] theorem Block.makeCold_frame : ∀ x0 b, (Block.makeCold x0 b).thermos = b.thermos ∧ (Block.makeCold x0 b).boot = b.boot
    ∧ (Block.makeCold x0 b).pins = b.pins ∧ (Block.makeCold x0 b).feat = b.feat ∧ (Block.makeCold x0 b).link = b.link
    ∧ (Block.makeCold x0 b).cfg = b.cfg ∧ (Block.makeCold x0 b).ep = b.ep ∧ (Block.makeCold x0 b).tim = b.tim ∧ (Block.makeCold x0 b).ports = b.ports
    ∧ (Block.makeCold x0 b).slots = b.slots ∧ (Block.makeCold x0 b).ctls = b.ctls ∧ (Block.makeCold x0 b).ifc = b.ifc
    ∧ (Block.makeCold x0 b).fox = b.fox ∧ (Block.makeCold x0 b).afu = b.afu ∧ (Block.makeCold x0 b).owl = b.owl
    ∧ (Block.makeCold x0 b).badger = b.badger ∧ (Block.makeCold x0 b).guests = b.guests ∧ (Block.makeCold x0 b).pwr = b.pwr
    ∧ (Block.makeCold x0 b).edge = b.edge ∧ (Block.makeCold x0 b).trail = b.trail ∧ (Block.makeCold x0 b).fresh = b.fresh := by
  intros; simp [Block.makeCold]

@[simp] theorem Block.roomHot_frame : ∀ b, (Block.roomHot b).thermos = b.thermos ∧ (Block.roomHot b).boot = b.boot ∧ (Block.roomHot b).pins = b.pins
    ∧ (Block.roomHot b).feat = b.feat ∧ (Block.roomHot b).link = b.link ∧ (Block.roomHot b).cfg = b.cfg ∧ (Block.roomHot b).ep = b.ep
    ∧ (Block.roomHot b).tim = b.tim ∧ (Block.roomHot b).ports = b.ports ∧ (Block.roomHot b).slots = b.slots ∧ (Block.roomHot b).ctls = b.ctls
    ∧ (Block.roomHot b).ifc = b.ifc ∧ (Block.roomHot b).fox = b.fox ∧ (Block.roomHot b).afu = b.afu ∧ (Block.roomHot b).owl = b.owl
    ∧ (Block.roomHot b).badger = b.badger ∧ (Block.roomHot b).guests = b.guests ∧ (Block.roomHot b).pwr = b.pwr ∧ (Block.roomHot b).edge = b.edge
    ∧ (Block.roomHot b).trail = b.trail ∧ (Block.roomHot b).fresh = b.fresh := by
  intros; unfold Block.roomHot; (repeat' split) <;> simp

@[simp] theorem Block.makeHot_frame : ∀ x0 b, (Block.makeHot x0 b).thermos = b.thermos ∧ (Block.makeHot x0 b).boot = b.boot
    ∧ (Block.makeHot x0 b).pins = b.pins ∧ (Block.makeHot x0 b).feat = b.feat ∧ (Block.makeHot x0 b).link = b.link ∧ (Block.makeHot x0 b).cfg = b.cfg
    ∧ (Block.makeHot x0 b).ep = b.ep ∧ (Block.makeHot x0 b).tim = b.tim ∧ (Block.makeHot x0 b).ports = b.ports ∧ (Block.makeHot x0 b).slots = b.slots
    ∧ (Block.makeHot x0 b).ctls = b.ctls ∧ (Block.makeHot x0 b).ifc = b.ifc ∧ (Block.makeHot x0 b).fox = b.fox ∧ (Block.makeHot x0 b).afu = b.afu
    ∧ (Block.makeHot x0 b).owl = b.owl ∧ (Block.makeHot x0 b).badger = b.badger ∧ (Block.makeHot x0 b).guests = b.guests
    ∧ (Block.makeHot x0 b).pwr = b.pwr ∧ (Block.makeHot x0 b).edge = b.edge ∧ (Block.makeHot x0 b).trail = b.trail
    ∧ (Block.makeHot x0 b).fresh = b.fresh := by
  intros; simp only [Block.makeHot]; (repeat' (first | split | simp)) <;> simp

@[simp] theorem Block.newKf_frame : ∀ x0 x1 x2 b, (Block.newKf x0 x1 x2 b).thermos = b.thermos ∧ (Block.newKf x0 x1 x2 b).boot = b.boot
    ∧ (Block.newKf x0 x1 x2 b).pins = b.pins ∧ (Block.newKf x0 x1 x2 b).feat = b.feat ∧ (Block.newKf x0 x1 x2 b).link = b.link
    ∧ (Block.newKf x0 x1 x2 b).cfg = b.cfg ∧ (Block.newKf x0 x1 x2 b).ep = b.ep ∧ (Block.newKf x0 x1 x2 b).tim = b.tim
    ∧ (Block.newKf x0 x1 x2 b).ports = b.ports ∧ (Block.newKf x0 x1 x2 b).slots = b.slots ∧ (Block.newKf x0 x1 x2 b).ctls = b.ctls
    ∧ (Block.newKf x0 x1 x2 b).ifc = b.ifc ∧ (Block.newKf x0 x1 x2 b).fox = b.fox ∧ (Block.newKf x0 x1 x2 b).afu = b.afu
    ∧ (Block.newKf x0 x1 x2 b).owl = b.owl ∧ (Block.newKf x0 x1 x2 b).badger = b.badger ∧ (Block.newKf x0 x1 x2 b).guests = b.guests
    ∧ (Block.newKf x0 x1 x2 b).pwr = b.pwr ∧ (Block.newKf x0 x1 x2 b).edge = b.edge := by
  intros; simp only [Block.newKf]; (repeat' (first | split | simp)) <;> simp

@[simp] theorem Block.putPoints_frame : ∀ x0 x1 b, (Block.putPoints x0 x1 b).thermos = b.thermos ∧ (Block.putPoints x0 x1 b).boot = b.boot
    ∧ (Block.putPoints x0 x1 b).pins = b.pins ∧ (Block.putPoints x0 x1 b).feat = b.feat ∧ (Block.putPoints x0 x1 b).link = b.link
    ∧ (Block.putPoints x0 x1 b).cfg = b.cfg ∧ (Block.putPoints x0 x1 b).ep = b.ep ∧ (Block.putPoints x0 x1 b).tim = b.tim
    ∧ (Block.putPoints x0 x1 b).ports = b.ports ∧ (Block.putPoints x0 x1 b).slots = b.slots ∧ (Block.putPoints x0 x1 b).ctls = b.ctls
    ∧ (Block.putPoints x0 x1 b).ifc = b.ifc ∧ (Block.putPoints x0 x1 b).fox = b.fox ∧ (Block.putPoints x0 x1 b).afu = b.afu
    ∧ (Block.putPoints x0 x1 b).owl = b.owl ∧ (Block.putPoints x0 x1 b).badger = b.badger ∧ (Block.putPoints x0 x1 b).guests = b.guests
    ∧ (Block.putPoints x0 x1 b).pwr = b.pwr ∧ (Block.putPoints x0 x1 b).edge = b.edge := by
  intros; simp [Block.putPoints]

@[simp] theorem Block.putEdges_frame : ∀ x0 x1 b, (Block.putEdges x0 x1 b).thermos = b.thermos ∧ (Block.putEdges x0 x1 b).boot = b.boot
    ∧ (Block.putEdges x0 x1 b).pins = b.pins ∧ (Block.putEdges x0 x1 b).feat = b.feat ∧ (Block.putEdges x0 x1 b).link = b.link
    ∧ (Block.putEdges x0 x1 b).cfg = b.cfg ∧ (Block.putEdges x0 x1 b).ep = b.ep ∧ (Block.putEdges x0 x1 b).tim = b.tim
    ∧ (Block.putEdges x0 x1 b).ports = b.ports ∧ (Block.putEdges x0 x1 b).slots = b.slots ∧ (Block.putEdges x0 x1 b).ctls = b.ctls
    ∧ (Block.putEdges x0 x1 b).ifc = b.ifc ∧ (Block.putEdges x0 x1 b).fox = b.fox ∧ (Block.putEdges x0 x1 b).afu = b.afu
    ∧ (Block.putEdges x0 x1 b).owl = b.owl ∧ (Block.putEdges x0 x1 b).badger = b.badger ∧ (Block.putEdges x0 x1 b).guests = b.guests
    ∧ (Block.putEdges x0 x1 b).pwr = b.pwr ∧ (Block.putEdges x0 x1 b).edge = b.edge := by
  intros; simp [Block.putEdges]

@[simp] theorem Block.cullDefault_frame : ∀ x0 b, (Block.cullDefault x0 b).thermos = b.thermos ∧ (Block.cullDefault x0 b).boot = b.boot
    ∧ (Block.cullDefault x0 b).pins = b.pins ∧ (Block.cullDefault x0 b).feat = b.feat ∧ (Block.cullDefault x0 b).link = b.link
    ∧ (Block.cullDefault x0 b).cfg = b.cfg ∧ (Block.cullDefault x0 b).ep = b.ep ∧ (Block.cullDefault x0 b).tim = b.tim
    ∧ (Block.cullDefault x0 b).ports = b.ports ∧ (Block.cullDefault x0 b).slots = b.slots ∧ (Block.cullDefault x0 b).ctls = b.ctls
    ∧ (Block.cullDefault x0 b).ifc = b.ifc ∧ (Block.cullDefault x0 b).fox = b.fox ∧ (Block.cullDefault x0 b).afu = b.afu
    ∧ (Block.cullDefault x0 b).owl = b.owl ∧ (Block.cullDefault x0 b).badger = b.badger ∧ (Block.cullDefault x0 b).guests = b.guests
    ∧ (Block.cullDefault x0 b).pwr = b.pwr ∧ (Block.cullDefault x0 b).edge = b.edge := by
  intros; simp [Block.cullDefault]

@[simp] theorem Block.postAt_frame : ∀ x0 x1 x2 b, (Block.postAt x0 x1 x2 b).thermos = b.thermos ∧ (Block.postAt x0 x1 x2 b).boot = b.boot
    ∧ (Block.postAt x0 x1 x2 b).pins = b.pins ∧ (Block.postAt x0 x1 x2 b).feat = b.feat ∧ (Block.postAt x0 x1 x2 b).link = b.link
    ∧ (Block.postAt x0 x1 x2 b).cfg = b.cfg ∧ (Block.postAt x0 x1 x2 b).ep = b.ep ∧ (Block.postAt x0 x1 x2 b).tim = b.tim
    ∧ (Block.postAt x0 x1 x2 b).ports = b.ports ∧ (Block.postAt x0 x1 x2 b).slots = b.slots ∧ (Block.postAt x0 x1 x2 b).ctls = b.ctls
    ∧ (Block.postAt x0 x1 x2 b).ifc = b.ifc ∧ (Block.postAt x0 x1 x2 b).fox = b.fox ∧ (Block.postAt x0 x1 x2 b).afu = b.afu
    ∧ (Block.postAt x0 x1 x2 b).owl = b.owl ∧ (Block.postAt x0 x1 x2 b).badger = b.badger ∧ (Block.postAt x0 x1 x2 b).den = b.den
    ∧ (Block.postAt x0 x1 x2 b).guests = b.guests ∧ (Block.postAt x0 x1 x2 b).host = b.host ∧ (Block.postAt x0 x1 x2 b).flt = b.flt
    ∧ (Block.postAt x0 x1 x2 b).pwr = b.pwr ∧ (Block.postAt x0 x1 x2 b).edge = b.edge ∧ (Block.postAt x0 x1 x2 b).trail = b.trail
    ∧ (Block.postAt x0 x1 x2 b).fresh = b.fresh := by
  intros; exact ⟨rfl, rfl, rfl, rfl, rfl, rfl, rfl, rfl, rfl, rfl, rfl, rfl, rfl, rfl, rfl, rfl, rfl, rfl, rfl, rfl, rfl, rfl, rfl, rfl⟩

@[simp] theorem Block.mapLoss_frame : ∀ x0 x1 x2 b, (Block.mapLoss x0 x1 x2 b).thermos = b.thermos ∧ (Block.mapLoss x0 x1 x2 b).boot = b.boot
    ∧ (Block.mapLoss x0 x1 x2 b).pins = b.pins ∧ (Block.mapLoss x0 x1 x2 b).feat = b.feat ∧ (Block.mapLoss x0 x1 x2 b).link = b.link
    ∧ (Block.mapLoss x0 x1 x2 b).cfg = b.cfg ∧ (Block.mapLoss x0 x1 x2 b).ep = b.ep ∧ (Block.mapLoss x0 x1 x2 b).tim = b.tim
    ∧ (Block.mapLoss x0 x1 x2 b).ports = b.ports ∧ (Block.mapLoss x0 x1 x2 b).slots = b.slots ∧ (Block.mapLoss x0 x1 x2 b).ctls = b.ctls
    ∧ (Block.mapLoss x0 x1 x2 b).ifc = b.ifc ∧ (Block.mapLoss x0 x1 x2 b).fox = b.fox ∧ (Block.mapLoss x0 x1 x2 b).afu = b.afu
    ∧ (Block.mapLoss x0 x1 x2 b).owl = b.owl ∧ (Block.mapLoss x0 x1 x2 b).badger = b.badger ∧ (Block.mapLoss x0 x1 x2 b).den = b.den
    ∧ (Block.mapLoss x0 x1 x2 b).map = b.map ∧ (Block.mapLoss x0 x1 x2 b).guests = b.guests ∧ (Block.mapLoss x0 x1 x2 b).pwr = b.pwr
    ∧ (Block.mapLoss x0 x1 x2 b).edge = b.edge ∧ (Block.mapLoss x0 x1 x2 b).trail = b.trail ∧ (Block.mapLoss x0 x1 x2 b).fresh = b.fresh := by
  intros; simp [Block.mapLoss]

@[simp] theorem Block.freeEdges_frame : ∀ x0 b, (Block.freeEdges x0 b).thermos = b.thermos ∧ (Block.freeEdges x0 b).boot = b.boot
    ∧ (Block.freeEdges x0 b).pins = b.pins ∧ (Block.freeEdges x0 b).feat = b.feat ∧ (Block.freeEdges x0 b).link = b.link
    ∧ (Block.freeEdges x0 b).cfg = b.cfg ∧ (Block.freeEdges x0 b).ep = b.ep ∧ (Block.freeEdges x0 b).tim = b.tim
    ∧ (Block.freeEdges x0 b).ports = b.ports ∧ (Block.freeEdges x0 b).slots = b.slots ∧ (Block.freeEdges x0 b).ctls = b.ctls
    ∧ (Block.freeEdges x0 b).ifc = b.ifc ∧ (Block.freeEdges x0 b).fox = b.fox ∧ (Block.freeEdges x0 b).afu = b.afu
    ∧ (Block.freeEdges x0 b).owl = b.owl ∧ (Block.freeEdges x0 b).badger = b.badger ∧ (Block.freeEdges x0 b).guests = b.guests
    ∧ (Block.freeEdges x0 b).pwr = b.pwr ∧ (Block.freeEdges x0 b).edge = b.edge := by
  intros; simp [Block.freeEdges]

@[simp] theorem Block.loseObject_frame : ∀ x0 b, (Block.loseObject x0 b).thermos = b.thermos ∧ (Block.loseObject x0 b).boot = b.boot
    ∧ (Block.loseObject x0 b).pins = b.pins ∧ (Block.loseObject x0 b).feat = b.feat ∧ (Block.loseObject x0 b).link = b.link
    ∧ (Block.loseObject x0 b).cfg = b.cfg ∧ (Block.loseObject x0 b).ep = b.ep ∧ (Block.loseObject x0 b).tim = b.tim
    ∧ (Block.loseObject x0 b).ports = b.ports ∧ (Block.loseObject x0 b).slots = b.slots ∧ (Block.loseObject x0 b).ctls = b.ctls
    ∧ (Block.loseObject x0 b).ifc = b.ifc ∧ (Block.loseObject x0 b).fox = b.fox ∧ (Block.loseObject x0 b).afu = b.afu
    ∧ (Block.loseObject x0 b).owl = b.owl ∧ (Block.loseObject x0 b).badger = b.badger ∧ (Block.loseObject x0 b).guests = b.guests
    ∧ (Block.loseObject x0 b).pwr = b.pwr ∧ (Block.loseObject x0 b).edge = b.edge := by
  intros; simp only [Block.loseObject]; (repeat' (first | split | simp)) <;> simp

@[simp] theorem Block.onGuest_frame : ∀ x0 x1 b, (Block.onGuest x0 x1 b).thermos = b.thermos ∧ (Block.onGuest x0 x1 b).boot = b.boot
    ∧ (Block.onGuest x0 x1 b).pins = b.pins ∧ (Block.onGuest x0 x1 b).feat = b.feat ∧ (Block.onGuest x0 x1 b).link = b.link
    ∧ (Block.onGuest x0 x1 b).cfg = b.cfg ∧ (Block.onGuest x0 x1 b).ep = b.ep ∧ (Block.onGuest x0 x1 b).tim = b.tim
    ∧ (Block.onGuest x0 x1 b).ports = b.ports ∧ (Block.onGuest x0 x1 b).slots = b.slots ∧ (Block.onGuest x0 x1 b).ctls = b.ctls
    ∧ (Block.onGuest x0 x1 b).ifc = b.ifc ∧ (Block.onGuest x0 x1 b).fox = b.fox ∧ (Block.onGuest x0 x1 b).afu = b.afu
    ∧ (Block.onGuest x0 x1 b).owl = b.owl ∧ (Block.onGuest x0 x1 b).badger = b.badger ∧ (Block.onGuest x0 x1 b).den = b.den
    ∧ (Block.onGuest x0 x1 b).map = b.map ∧ (Block.onGuest x0 x1 b).host = b.host ∧ (Block.onGuest x0 x1 b).flt = b.flt
    ∧ (Block.onGuest x0 x1 b).pwr = b.pwr ∧ (Block.onGuest x0 x1 b).edge = b.edge ∧ (Block.onGuest x0 x1 b).trail = b.trail
    ∧ (Block.onGuest x0 x1 b).fresh = b.fresh := by
  intros; exact ⟨rfl, rfl, rfl, rfl, rfl, rfl, rfl, rfl, rfl, rfl, rfl, rfl, rfl, rfl, rfl, rfl, rfl, rfl, rfl, rfl, rfl, rfl, rfl, rfl⟩

@[simp] theorem Block.guestRecord_frame : ∀ x0 x1 x2 x3 b, (Block.guestRecord x0 x1 x2 x3 b).thermos = b.thermos
    ∧ (Block.guestRecord x0 x1 x2 x3 b).boot = b.boot ∧ (Block.guestRecord x0 x1 x2 x3 b).pins = b.pins
    ∧ (Block.guestRecord x0 x1 x2 x3 b).feat = b.feat ∧ (Block.guestRecord x0 x1 x2 x3 b).link = b.link
    ∧ (Block.guestRecord x0 x1 x2 x3 b).cfg = b.cfg ∧ (Block.guestRecord x0 x1 x2 x3 b).ep = b.ep ∧ (Block.guestRecord x0 x1 x2 x3 b).tim = b.tim
    ∧ (Block.guestRecord x0 x1 x2 x3 b).ports = b.ports ∧ (Block.guestRecord x0 x1 x2 x3 b).slots = b.slots
    ∧ (Block.guestRecord x0 x1 x2 x3 b).ctls = b.ctls ∧ (Block.guestRecord x0 x1 x2 x3 b).ifc = b.ifc ∧ (Block.guestRecord x0 x1 x2 x3 b).fox = b.fox
    ∧ (Block.guestRecord x0 x1 x2 x3 b).afu = b.afu ∧ (Block.guestRecord x0 x1 x2 x3 b).owl = b.owl
    ∧ (Block.guestRecord x0 x1 x2 x3 b).badger = b.badger ∧ (Block.guestRecord x0 x1 x2 x3 b).den = b.den
    ∧ (Block.guestRecord x0 x1 x2 x3 b).map = b.map ∧ (Block.guestRecord x0 x1 x2 x3 b).guests = b.guests
    ∧ (Block.guestRecord x0 x1 x2 x3 b).pwr = b.pwr ∧ (Block.guestRecord x0 x1 x2 x3 b).edge = b.edge
    ∧ (Block.guestRecord x0 x1 x2 x3 b).trail = b.trail := by
  intros; simp [Block.guestRecord]

@[simp] theorem Block.evict_frame : ∀ x0 x1 b, (Block.evict x0 x1 b).thermos = b.thermos ∧ (Block.evict x0 x1 b).boot = b.boot
    ∧ (Block.evict x0 x1 b).pins = b.pins ∧ (Block.evict x0 x1 b).feat = b.feat ∧ (Block.evict x0 x1 b).link = b.link
    ∧ (Block.evict x0 x1 b).cfg = b.cfg ∧ (Block.evict x0 x1 b).ep = b.ep ∧ (Block.evict x0 x1 b).tim = b.tim ∧ (Block.evict x0 x1 b).ports = b.ports
    ∧ (Block.evict x0 x1 b).slots = b.slots ∧ (Block.evict x0 x1 b).ctls = b.ctls ∧ (Block.evict x0 x1 b).ifc = b.ifc
    ∧ (Block.evict x0 x1 b).fox = b.fox ∧ (Block.evict x0 x1 b).afu = b.afu ∧ (Block.evict x0 x1 b).owl = b.owl ∧ (Block.evict x0 x1 b).den = b.den
    ∧ (Block.evict x0 x1 b).map = b.map ∧ (Block.evict x0 x1 b).host = b.host ∧ (Block.evict x0 x1 b).flt = b.flt ∧ (Block.evict x0 x1 b).pwr = b.pwr
    ∧ (Block.evict x0 x1 b).edge = b.edge ∧ (Block.evict x0 x1 b).trail = b.trail ∧ (Block.evict x0 x1 b).fresh = b.fresh := by
  intros; exact ⟨rfl, rfl, rfl, rfl, rfl, rfl, rfl, rfl, rfl, rfl, rfl, rfl, rfl, rfl, rfl, rfl, rfl, rfl, rfl, rfl, rfl, rfl, rfl⟩

@[simp] theorem Block.dropStaging_frame : ∀ x0 b, (Block.dropStaging x0 b).thermos = b.thermos ∧ (Block.dropStaging x0 b).boot = b.boot
    ∧ (Block.dropStaging x0 b).pins = b.pins ∧ (Block.dropStaging x0 b).feat = b.feat ∧ (Block.dropStaging x0 b).link = b.link
    ∧ (Block.dropStaging x0 b).cfg = b.cfg ∧ (Block.dropStaging x0 b).ep = b.ep ∧ (Block.dropStaging x0 b).tim = b.tim
    ∧ (Block.dropStaging x0 b).ports = b.ports ∧ (Block.dropStaging x0 b).slots = b.slots ∧ (Block.dropStaging x0 b).ctls = b.ctls
    ∧ (Block.dropStaging x0 b).ifc = b.ifc ∧ (Block.dropStaging x0 b).fox = b.fox ∧ (Block.dropStaging x0 b).afu = b.afu
    ∧ (Block.dropStaging x0 b).owl = b.owl ∧ (Block.dropStaging x0 b).badger = b.badger ∧ (Block.dropStaging x0 b).den = b.den
    ∧ (Block.dropStaging x0 b).map = b.map ∧ (Block.dropStaging x0 b).host = b.host ∧ (Block.dropStaging x0 b).flt = b.flt
    ∧ (Block.dropStaging x0 b).pwr = b.pwr ∧ (Block.dropStaging x0 b).edge = b.edge ∧ (Block.dropStaging x0 b).trail = b.trail
    ∧ (Block.dropStaging x0 b).fresh = b.fresh := by
  intros; exact ⟨rfl, rfl, rfl, rfl, rfl, rfl, rfl, rfl, rfl, rfl, rfl, rfl, rfl, rfl, rfl, rfl, rfl, rfl, rfl, rfl, rfl, rfl, rfl, rfl⟩

@[simp] theorem Block.alignFailed_frame : ∀ x0 x1 b, (Block.alignFailed x0 x1 b).thermos = b.thermos ∧ (Block.alignFailed x0 x1 b).boot = b.boot
    ∧ (Block.alignFailed x0 x1 b).pins = b.pins ∧ (Block.alignFailed x0 x1 b).feat = b.feat ∧ (Block.alignFailed x0 x1 b).link = b.link
    ∧ (Block.alignFailed x0 x1 b).cfg = b.cfg ∧ (Block.alignFailed x0 x1 b).ep = b.ep ∧ (Block.alignFailed x0 x1 b).tim = b.tim
    ∧ (Block.alignFailed x0 x1 b).ports = b.ports ∧ (Block.alignFailed x0 x1 b).slots = b.slots ∧ (Block.alignFailed x0 x1 b).ctls = b.ctls
    ∧ (Block.alignFailed x0 x1 b).ifc = b.ifc ∧ (Block.alignFailed x0 x1 b).fox = b.fox ∧ (Block.alignFailed x0 x1 b).afu = b.afu
    ∧ (Block.alignFailed x0 x1 b).owl = b.owl ∧ (Block.alignFailed x0 x1 b).den = b.den ∧ (Block.alignFailed x0 x1 b).map = b.map
    ∧ (Block.alignFailed x0 x1 b).pwr = b.pwr ∧ (Block.alignFailed x0 x1 b).edge = b.edge ∧ (Block.alignFailed x0 x1 b).trail = b.trail
    ∧ (Block.alignFailed x0 x1 b).fresh = b.fresh := by
  intros; simp [Block.alignFailed]

@[simp] theorem Block.alignResult_frame : ∀ x0 x1 x2 x3 x4 b, (Block.alignResult x0 x1 x2 x3 x4 b).thermos = b.thermos
    ∧ (Block.alignResult x0 x1 x2 x3 x4 b).boot = b.boot ∧ (Block.alignResult x0 x1 x2 x3 x4 b).pins = b.pins
    ∧ (Block.alignResult x0 x1 x2 x3 x4 b).feat = b.feat ∧ (Block.alignResult x0 x1 x2 x3 x4 b).link = b.link
    ∧ (Block.alignResult x0 x1 x2 x3 x4 b).cfg = b.cfg ∧ (Block.alignResult x0 x1 x2 x3 x4 b).ep = b.ep ∧ (Block.alignResult x0 x1 x2 x3 x4 b).tim = b.tim
    ∧ (Block.alignResult x0 x1 x2 x3 x4 b).ports = b.ports ∧ (Block.alignResult x0 x1 x2 x3 x4 b).slots = b.slots
    ∧ (Block.alignResult x0 x1 x2 x3 x4 b).ctls = b.ctls ∧ (Block.alignResult x0 x1 x2 x3 x4 b).ifc = b.ifc ∧ (Block.alignResult x0 x1 x2 x3 x4 b).fox = b.fox
    ∧ (Block.alignResult x0 x1 x2 x3 x4 b).afu = b.afu ∧ (Block.alignResult x0 x1 x2 x3 x4 b).owl = b.owl ∧ (Block.alignResult x0 x1 x2 x3 x4 b).den = b.den
    ∧ (Block.alignResult x0 x1 x2 x3 x4 b).map = b.map ∧ (Block.alignResult x0 x1 x2 x3 x4 b).pwr = b.pwr ∧ (Block.alignResult x0 x1 x2 x3 x4 b).edge = b.edge
    ∧ (Block.alignResult x0 x1 x2 x3 x4 b).trail = b.trail := by
  intros; unfold Block.alignResult; (repeat' split) <;> simp

@[simp] theorem Block.onJob_frame : ∀ x0 x1 b, (Block.onJob x0 x1 b).thermos = b.thermos ∧ (Block.onJob x0 x1 b).boot = b.boot
    ∧ (Block.onJob x0 x1 b).pins = b.pins ∧ (Block.onJob x0 x1 b).feat = b.feat ∧ (Block.onJob x0 x1 b).link = b.link
    ∧ (Block.onJob x0 x1 b).cfg = b.cfg ∧ (Block.onJob x0 x1 b).ep = b.ep ∧ (Block.onJob x0 x1 b).tim = b.tim ∧ (Block.onJob x0 x1 b).ports = b.ports
    ∧ (Block.onJob x0 x1 b).slots = b.slots ∧ (Block.onJob x0 x1 b).ctls = b.ctls ∧ (Block.onJob x0 x1 b).ifc = b.ifc
    ∧ (Block.onJob x0 x1 b).fox = b.fox ∧ (Block.onJob x0 x1 b).afu = b.afu ∧ (Block.onJob x0 x1 b).owl = b.owl ∧ (Block.onJob x0 x1 b).den = b.den
    ∧ (Block.onJob x0 x1 b).map = b.map ∧ (Block.onJob x0 x1 b).guests = b.guests ∧ (Block.onJob x0 x1 b).host = b.host
    ∧ (Block.onJob x0 x1 b).flt = b.flt ∧ (Block.onJob x0 x1 b).pwr = b.pwr ∧ (Block.onJob x0 x1 b).edge = b.edge
    ∧ (Block.onJob x0 x1 b).trail = b.trail ∧ (Block.onJob x0 x1 b).fresh = b.fresh := by
  intros; exact ⟨rfl, rfl, rfl, rfl, rfl, rfl, rfl, rfl, rfl, rfl, rfl, rfl, rfl, rfl, rfl, rfl, rfl, rfl, rfl, rfl, rfl, rfl, rfl, rfl⟩

@[simp] theorem Block.sealOnly_frame : ∀ x0 x1 x2 x3 b, (Block.sealOnly x0 x1 x2 x3 b).thermos = b.thermos
    ∧ (Block.sealOnly x0 x1 x2 x3 b).boot = b.boot ∧ (Block.sealOnly x0 x1 x2 x3 b).pins = b.pins ∧ (Block.sealOnly x0 x1 x2 x3 b).feat = b.feat
    ∧ (Block.sealOnly x0 x1 x2 x3 b).link = b.link ∧ (Block.sealOnly x0 x1 x2 x3 b).cfg = b.cfg ∧ (Block.sealOnly x0 x1 x2 x3 b).ep = b.ep
    ∧ (Block.sealOnly x0 x1 x2 x3 b).tim = b.tim ∧ (Block.sealOnly x0 x1 x2 x3 b).ports = b.ports ∧ (Block.sealOnly x0 x1 x2 x3 b).slots = b.slots
    ∧ (Block.sealOnly x0 x1 x2 x3 b).ctls = b.ctls ∧ (Block.sealOnly x0 x1 x2 x3 b).ifc = b.ifc ∧ (Block.sealOnly x0 x1 x2 x3 b).fox = b.fox
    ∧ (Block.sealOnly x0 x1 x2 x3 b).afu = b.afu ∧ (Block.sealOnly x0 x1 x2 x3 b).owl = b.owl ∧ (Block.sealOnly x0 x1 x2 x3 b).badger = b.badger
    ∧ (Block.sealOnly x0 x1 x2 x3 b).den = b.den ∧ (Block.sealOnly x0 x1 x2 x3 b).map = b.map ∧ (Block.sealOnly x0 x1 x2 x3 b).guests = b.guests
    ∧ (Block.sealOnly x0 x1 x2 x3 b).pwr = b.pwr ∧ (Block.sealOnly x0 x1 x2 x3 b).edge = b.edge ∧ (Block.sealOnly x0 x1 x2 x3 b).trail = b.trail
    ∧ (Block.sealOnly x0 x1 x2 x3 b).fresh = b.fresh := by
  intros; exact ⟨rfl, rfl, rfl, rfl, rfl, rfl, rfl, rfl, rfl, rfl, rfl, rfl, rfl, rfl, rfl, rfl, rfl, rfl, rfl, rfl, rfl, rfl, rfl⟩

@[simp] theorem Block.assemble_frame : ∀ x0 x1 x2 x3 x4 x5 b, (Block.assemble x0 x1 x2 x3 x4 x5 b).thermos = b.thermos
    ∧ (Block.assemble x0 x1 x2 x3 x4 x5 b).boot = b.boot ∧ (Block.assemble x0 x1 x2 x3 x4 x5 b).pins = b.pins
    ∧ (Block.assemble x0 x1 x2 x3 x4 x5 b).feat = b.feat ∧ (Block.assemble x0 x1 x2 x3 x4 x5 b).link = b.link
    ∧ (Block.assemble x0 x1 x2 x3 x4 x5 b).cfg = b.cfg ∧ (Block.assemble x0 x1 x2 x3 x4 x5 b).ep = b.ep
    ∧ (Block.assemble x0 x1 x2 x3 x4 x5 b).tim = b.tim ∧ (Block.assemble x0 x1 x2 x3 x4 x5 b).ports = b.ports
    ∧ (Block.assemble x0 x1 x2 x3 x4 x5 b).slots = b.slots ∧ (Block.assemble x0 x1 x2 x3 x4 x5 b).ctls = b.ctls
    ∧ (Block.assemble x0 x1 x2 x3 x4 x5 b).ifc = b.ifc ∧ (Block.assemble x0 x1 x2 x3 x4 x5 b).fox = b.fox
    ∧ (Block.assemble x0 x1 x2 x3 x4 x5 b).afu = b.afu ∧ (Block.assemble x0 x1 x2 x3 x4 x5 b).owl = b.owl
    ∧ (Block.assemble x0 x1 x2 x3 x4 x5 b).den = b.den ∧ (Block.assemble x0 x1 x2 x3 x4 x5 b).map = b.map
    ∧ (Block.assemble x0 x1 x2 x3 x4 x5 b).guests = b.guests ∧ (Block.assemble x0 x1 x2 x3 x4 x5 b).pwr = b.pwr
    ∧ (Block.assemble x0 x1 x2 x3 x4 x5 b).edge = b.edge ∧ (Block.assemble x0 x1 x2 x3 x4 x5 b).trail = b.trail := by
  intros; simp [Block.assemble]

@[simp] theorem Block.drewN_frame : ∀ x0 b, (Block.drewN x0 b).thermos = b.thermos ∧ (Block.drewN x0 b).boot = b.boot
    ∧ (Block.drewN x0 b).pins = b.pins ∧ (Block.drewN x0 b).feat = b.feat ∧ (Block.drewN x0 b).link = b.link ∧ (Block.drewN x0 b).cfg = b.cfg
    ∧ (Block.drewN x0 b).ep = b.ep ∧ (Block.drewN x0 b).tim = b.tim ∧ (Block.drewN x0 b).ports = b.ports ∧ (Block.drewN x0 b).slots = b.slots
    ∧ (Block.drewN x0 b).ctls = b.ctls ∧ (Block.drewN x0 b).ifc = b.ifc ∧ (Block.drewN x0 b).fox = b.fox ∧ (Block.drewN x0 b).afu = b.afu
    ∧ (Block.drewN x0 b).owl = b.owl ∧ (Block.drewN x0 b).badger = b.badger ∧ (Block.drewN x0 b).den = b.den ∧ (Block.drewN x0 b).map = b.map
    ∧ (Block.drewN x0 b).guests = b.guests ∧ (Block.drewN x0 b).host = b.host ∧ (Block.drewN x0 b).flt = b.flt ∧ (Block.drewN x0 b).pwr = b.pwr
    ∧ (Block.drewN x0 b).edge = b.edge ∧ (Block.drewN x0 b).trail = b.trail := by
  intros; exact ⟨rfl, rfl, rfl, rfl, rfl, rfl, rfl, rfl, rfl, rfl, rfl, rfl, rfl, rfl, rfl, rfl, rfl, rfl, rfl, rfl, rfl, rfl, rfl, rfl⟩

@[simp] theorem Block.publish_frame : ∀ x0 x1 b, (Block.publish x0 x1 b).thermos = b.thermos ∧ (Block.publish x0 x1 b).boot = b.boot
    ∧ (Block.publish x0 x1 b).pins = b.pins ∧ (Block.publish x0 x1 b).feat = b.feat ∧ (Block.publish x0 x1 b).link = b.link
    ∧ (Block.publish x0 x1 b).cfg = b.cfg ∧ (Block.publish x0 x1 b).ep = b.ep ∧ (Block.publish x0 x1 b).tim = b.tim
    ∧ (Block.publish x0 x1 b).ports = b.ports ∧ (Block.publish x0 x1 b).slots = b.slots ∧ (Block.publish x0 x1 b).ctls = b.ctls
    ∧ (Block.publish x0 x1 b).ifc = b.ifc ∧ (Block.publish x0 x1 b).fox = b.fox ∧ (Block.publish x0 x1 b).afu = b.afu
    ∧ (Block.publish x0 x1 b).owl = b.owl ∧ (Block.publish x0 x1 b).badger = b.badger ∧ (Block.publish x0 x1 b).den = b.den
    ∧ (Block.publish x0 x1 b).map = b.map ∧ (Block.publish x0 x1 b).guests = b.guests ∧ (Block.publish x0 x1 b).pwr = b.pwr
    ∧ (Block.publish x0 x1 b).edge = b.edge ∧ (Block.publish x0 x1 b).trail = b.trail ∧ (Block.publish x0 x1 b).fresh = b.fresh := by
  intros; simp [Block.publish]

@[simp] theorem Block.vioEnd_frame : ∀ x0 x1 b, (Block.vioEnd x0 x1 b).thermos = b.thermos ∧ (Block.vioEnd x0 x1 b).boot = b.boot
    ∧ (Block.vioEnd x0 x1 b).pins = b.pins ∧ (Block.vioEnd x0 x1 b).feat = b.feat ∧ (Block.vioEnd x0 x1 b).link = b.link
    ∧ (Block.vioEnd x0 x1 b).cfg = b.cfg ∧ (Block.vioEnd x0 x1 b).ep = b.ep ∧ (Block.vioEnd x0 x1 b).tim = b.tim
    ∧ (Block.vioEnd x0 x1 b).ports = b.ports ∧ (Block.vioEnd x0 x1 b).slots = b.slots ∧ (Block.vioEnd x0 x1 b).ctls = b.ctls
    ∧ (Block.vioEnd x0 x1 b).ifc = b.ifc ∧ (Block.vioEnd x0 x1 b).fox = b.fox ∧ (Block.vioEnd x0 x1 b).owl = b.owl
    ∧ (Block.vioEnd x0 x1 b).den = b.den ∧ (Block.vioEnd x0 x1 b).map = b.map ∧ (Block.vioEnd x0 x1 b).guests = b.guests
    ∧ (Block.vioEnd x0 x1 b).pwr = b.pwr ∧ (Block.vioEnd x0 x1 b).edge = b.edge ∧ (Block.vioEnd x0 x1 b).trail = b.trail := by
  intros; unfold Block.vioEnd; (repeat' split) <;> simp

@[simp] theorem Block.correctKf_frame : ∀ x0 x1 x2 b, (Block.correctKf x0 x1 x2 b).thermos = b.thermos ∧ (Block.correctKf x0 x1 x2 b).boot = b.boot
    ∧ (Block.correctKf x0 x1 x2 b).pins = b.pins ∧ (Block.correctKf x0 x1 x2 b).feat = b.feat ∧ (Block.correctKf x0 x1 x2 b).link = b.link
    ∧ (Block.correctKf x0 x1 x2 b).cfg = b.cfg ∧ (Block.correctKf x0 x1 x2 b).ep = b.ep ∧ (Block.correctKf x0 x1 x2 b).tim = b.tim
    ∧ (Block.correctKf x0 x1 x2 b).ports = b.ports ∧ (Block.correctKf x0 x1 x2 b).slots = b.slots ∧ (Block.correctKf x0 x1 x2 b).ctls = b.ctls
    ∧ (Block.correctKf x0 x1 x2 b).ifc = b.ifc ∧ (Block.correctKf x0 x1 x2 b).fox = b.fox ∧ (Block.correctKf x0 x1 x2 b).afu = b.afu
    ∧ (Block.correctKf x0 x1 x2 b).owl = b.owl ∧ (Block.correctKf x0 x1 x2 b).badger = b.badger ∧ (Block.correctKf x0 x1 x2 b).map = b.map
    ∧ (Block.correctKf x0 x1 x2 b).guests = b.guests ∧ (Block.correctKf x0 x1 x2 b).pwr = b.pwr ∧ (Block.correctKf x0 x1 x2 b).edge = b.edge := by
  intros; unfold Block.correctKf; (repeat' split) <;> simp

@[simp] theorem Block.alignEnd_frame : ∀ x0 x1 b, (Block.alignEnd x0 x1 b).thermos = b.thermos ∧ (Block.alignEnd x0 x1 b).boot = b.boot
    ∧ (Block.alignEnd x0 x1 b).pins = b.pins ∧ (Block.alignEnd x0 x1 b).feat = b.feat ∧ (Block.alignEnd x0 x1 b).link = b.link
    ∧ (Block.alignEnd x0 x1 b).cfg = b.cfg ∧ (Block.alignEnd x0 x1 b).ep = b.ep ∧ (Block.alignEnd x0 x1 b).tim = b.tim
    ∧ (Block.alignEnd x0 x1 b).ports = b.ports ∧ (Block.alignEnd x0 x1 b).slots = b.slots ∧ (Block.alignEnd x0 x1 b).ctls = b.ctls
    ∧ (Block.alignEnd x0 x1 b).ifc = b.ifc ∧ (Block.alignEnd x0 x1 b).fox = b.fox ∧ (Block.alignEnd x0 x1 b).afu = b.afu
    ∧ (Block.alignEnd x0 x1 b).owl = b.owl ∧ (Block.alignEnd x0 x1 b).den = b.den ∧ (Block.alignEnd x0 x1 b).map = b.map
    ∧ (Block.alignEnd x0 x1 b).pwr = b.pwr ∧ (Block.alignEnd x0 x1 b).edge = b.edge ∧ (Block.alignEnd x0 x1 b).trail = b.trail := by
  intros; unfold Block.alignEnd; (repeat' split) <;> simp

@[simp] theorem Block.dropWindow_frame : ∀ b, (Block.dropWindow b).thermos = b.thermos ∧ (Block.dropWindow b).boot = b.boot
    ∧ (Block.dropWindow b).pins = b.pins ∧ (Block.dropWindow b).feat = b.feat ∧ (Block.dropWindow b).link = b.link ∧ (Block.dropWindow b).cfg = b.cfg
    ∧ (Block.dropWindow b).ep = b.ep ∧ (Block.dropWindow b).tim = b.tim ∧ (Block.dropWindow b).ports = b.ports ∧ (Block.dropWindow b).slots = b.slots
    ∧ (Block.dropWindow b).ctls = b.ctls ∧ (Block.dropWindow b).ifc = b.ifc ∧ (Block.dropWindow b).fox = b.fox ∧ (Block.dropWindow b).owl = b.owl
    ∧ (Block.dropWindow b).den = b.den ∧ (Block.dropWindow b).map = b.map ∧ (Block.dropWindow b).guests = b.guests
    ∧ (Block.dropWindow b).host = b.host ∧ (Block.dropWindow b).flt = b.flt ∧ (Block.dropWindow b).pwr = b.pwr ∧ (Block.dropWindow b).edge = b.edge
    ∧ (Block.dropWindow b).trail = b.trail ∧ (Block.dropWindow b).fresh = b.fresh := by
  intros; exact ⟨rfl, rfl, rfl, rfl, rfl, rfl, rfl, rfl, rfl, rfl, rfl, rfl, rfl, rfl, rfl, rfl, rfl, rfl, rfl, rfl, rfl, rfl, rfl⟩

@[simp] theorem Block.onLane_frame : ∀ x0 x1 b, (Block.onLane x0 x1 b).thermos = b.thermos ∧ (Block.onLane x0 x1 b).boot = b.boot
    ∧ (Block.onLane x0 x1 b).pins = b.pins ∧ (Block.onLane x0 x1 b).feat = b.feat ∧ (Block.onLane x0 x1 b).link = b.link
    ∧ (Block.onLane x0 x1 b).cfg = b.cfg ∧ (Block.onLane x0 x1 b).ep = b.ep ∧ (Block.onLane x0 x1 b).tim = b.tim
    ∧ (Block.onLane x0 x1 b).ports = b.ports ∧ (Block.onLane x0 x1 b).slots = b.slots ∧ (Block.onLane x0 x1 b).ctls = b.ctls
    ∧ (Block.onLane x0 x1 b).ifc = b.ifc ∧ (Block.onLane x0 x1 b).fox = b.fox ∧ (Block.onLane x0 x1 b).afu = b.afu
    ∧ (Block.onLane x0 x1 b).owl = b.owl ∧ (Block.onLane x0 x1 b).badger = b.badger ∧ (Block.onLane x0 x1 b).den = b.den
    ∧ (Block.onLane x0 x1 b).map = b.map ∧ (Block.onLane x0 x1 b).guests = b.guests ∧ (Block.onLane x0 x1 b).host = b.host
    ∧ (Block.onLane x0 x1 b).flt = b.flt ∧ (Block.onLane x0 x1 b).pwr = b.pwr ∧ (Block.onLane x0 x1 b).edge = b.edge
    ∧ (Block.onLane x0 x1 b).fresh = b.fresh := by
  intros; exact ⟨rfl, rfl, rfl, rfl, rfl, rfl, rfl, rfl, rfl, rfl, rfl, rfl, rfl, rfl, rfl, rfl, rfl, rfl, rfl, rfl, rfl, rfl, rfl, rfl⟩

@[simp] theorem Block.onBundle_frame : ∀ x0 x1 b, (Block.onBundle x0 x1 b).thermos = b.thermos ∧ (Block.onBundle x0 x1 b).boot = b.boot
    ∧ (Block.onBundle x0 x1 b).pins = b.pins ∧ (Block.onBundle x0 x1 b).feat = b.feat ∧ (Block.onBundle x0 x1 b).link = b.link
    ∧ (Block.onBundle x0 x1 b).cfg = b.cfg ∧ (Block.onBundle x0 x1 b).ep = b.ep ∧ (Block.onBundle x0 x1 b).tim = b.tim
    ∧ (Block.onBundle x0 x1 b).ports = b.ports ∧ (Block.onBundle x0 x1 b).slots = b.slots ∧ (Block.onBundle x0 x1 b).ctls = b.ctls
    ∧ (Block.onBundle x0 x1 b).ifc = b.ifc ∧ (Block.onBundle x0 x1 b).fox = b.fox ∧ (Block.onBundle x0 x1 b).afu = b.afu
    ∧ (Block.onBundle x0 x1 b).owl = b.owl ∧ (Block.onBundle x0 x1 b).badger = b.badger ∧ (Block.onBundle x0 x1 b).den = b.den
    ∧ (Block.onBundle x0 x1 b).map = b.map ∧ (Block.onBundle x0 x1 b).guests = b.guests ∧ (Block.onBundle x0 x1 b).host = b.host
    ∧ (Block.onBundle x0 x1 b).flt = b.flt ∧ (Block.onBundle x0 x1 b).pwr = b.pwr ∧ (Block.onBundle x0 x1 b).edge = b.edge
    ∧ (Block.onBundle x0 x1 b).fresh = b.fresh := by
  intros; exact ⟨rfl, rfl, rfl, rfl, rfl, rfl, rfl, rfl, rfl, rfl, rfl, rfl, rfl, rfl, rfl, rfl, rfl, rfl, rfl, rfl, rfl, rfl, rfl, rfl⟩

@[simp] theorem Block.rollStart_frame : ∀ b, (Block.rollStart b).thermos = b.thermos ∧ (Block.rollStart b).boot = b.boot
    ∧ (Block.rollStart b).pins = b.pins ∧ (Block.rollStart b).feat = b.feat ∧ (Block.rollStart b).link = b.link ∧ (Block.rollStart b).cfg = b.cfg
    ∧ (Block.rollStart b).ep = b.ep ∧ (Block.rollStart b).tim = b.tim ∧ (Block.rollStart b).ports = b.ports ∧ (Block.rollStart b).slots = b.slots
    ∧ (Block.rollStart b).ctls = b.ctls ∧ (Block.rollStart b).ifc = b.ifc ∧ (Block.rollStart b).fox = b.fox ∧ (Block.rollStart b).afu = b.afu
    ∧ (Block.rollStart b).owl = b.owl ∧ (Block.rollStart b).badger = b.badger ∧ (Block.rollStart b).den = b.den ∧ (Block.rollStart b).map = b.map
    ∧ (Block.rollStart b).guests = b.guests ∧ (Block.rollStart b).host = b.host ∧ (Block.rollStart b).flt = b.flt ∧ (Block.rollStart b).pwr = b.pwr
    ∧ (Block.rollStart b).edge = b.edge ∧ (Block.rollStart b).fresh = b.fresh := by
  intros; exact ⟨rfl, rfl, rfl, rfl, rfl, rfl, rfl, rfl, rfl, rfl, rfl, rfl, rfl, rfl, rfl, rfl, rfl, rfl, rfl, rfl, rfl, rfl, rfl, rfl⟩

@[simp] theorem Block.askWidth_frame : ∀ x0 b, (Block.askWidth x0 b).thermos = b.thermos ∧ (Block.askWidth x0 b).boot = b.boot
    ∧ (Block.askWidth x0 b).pins = b.pins ∧ (Block.askWidth x0 b).feat = b.feat ∧ (Block.askWidth x0 b).link = b.link
    ∧ (Block.askWidth x0 b).cfg = b.cfg ∧ (Block.askWidth x0 b).ep = b.ep ∧ (Block.askWidth x0 b).tim = b.tim ∧ (Block.askWidth x0 b).ports = b.ports
    ∧ (Block.askWidth x0 b).slots = b.slots ∧ (Block.askWidth x0 b).ctls = b.ctls ∧ (Block.askWidth x0 b).ifc = b.ifc
    ∧ (Block.askWidth x0 b).fox = b.fox ∧ (Block.askWidth x0 b).afu = b.afu ∧ (Block.askWidth x0 b).owl = b.owl
    ∧ (Block.askWidth x0 b).badger = b.badger ∧ (Block.askWidth x0 b).den = b.den ∧ (Block.askWidth x0 b).map = b.map
    ∧ (Block.askWidth x0 b).guests = b.guests ∧ (Block.askWidth x0 b).flt = b.flt ∧ (Block.askWidth x0 b).pwr = b.pwr
    ∧ (Block.askWidth x0 b).edge = b.edge ∧ (Block.askWidth x0 b).fresh = b.fresh := by
  intros; simp [Block.askWidth]

@[simp] theorem Block.laneGone_frame : ∀ x0 b, (Block.laneGone x0 b).thermos = b.thermos ∧ (Block.laneGone x0 b).boot = b.boot
    ∧ (Block.laneGone x0 b).pins = b.pins ∧ (Block.laneGone x0 b).feat = b.feat ∧ (Block.laneGone x0 b).link = b.link
    ∧ (Block.laneGone x0 b).cfg = b.cfg ∧ (Block.laneGone x0 b).ep = b.ep ∧ (Block.laneGone x0 b).tim = b.tim ∧ (Block.laneGone x0 b).ports = b.ports
    ∧ (Block.laneGone x0 b).slots = b.slots ∧ (Block.laneGone x0 b).ctls = b.ctls ∧ (Block.laneGone x0 b).ifc = b.ifc
    ∧ (Block.laneGone x0 b).fox = b.fox ∧ (Block.laneGone x0 b).afu = b.afu ∧ (Block.laneGone x0 b).owl = b.owl
    ∧ (Block.laneGone x0 b).badger = b.badger ∧ (Block.laneGone x0 b).den = b.den ∧ (Block.laneGone x0 b).map = b.map
    ∧ (Block.laneGone x0 b).guests = b.guests ∧ (Block.laneGone x0 b).host = b.host ∧ (Block.laneGone x0 b).flt = b.flt
    ∧ (Block.laneGone x0 b).pwr = b.pwr ∧ (Block.laneGone x0 b).edge = b.edge ∧ (Block.laneGone x0 b).fresh = b.fresh := by
  intros; simp [Block.laneGone]

@[simp] theorem Block.retrain_frame : ∀ x0 b, (Block.retrain x0 b).thermos = b.thermos ∧ (Block.retrain x0 b).boot = b.boot
    ∧ (Block.retrain x0 b).pins = b.pins ∧ (Block.retrain x0 b).feat = b.feat ∧ (Block.retrain x0 b).link = b.link ∧ (Block.retrain x0 b).cfg = b.cfg
    ∧ (Block.retrain x0 b).ep = b.ep ∧ (Block.retrain x0 b).tim = b.tim ∧ (Block.retrain x0 b).ports = b.ports ∧ (Block.retrain x0 b).slots = b.slots
    ∧ (Block.retrain x0 b).ctls = b.ctls ∧ (Block.retrain x0 b).ifc = b.ifc ∧ (Block.retrain x0 b).fox = b.fox ∧ (Block.retrain x0 b).afu = b.afu
    ∧ (Block.retrain x0 b).owl = b.owl ∧ (Block.retrain x0 b).badger = b.badger ∧ (Block.retrain x0 b).den = b.den ∧ (Block.retrain x0 b).map = b.map
    ∧ (Block.retrain x0 b).guests = b.guests ∧ (Block.retrain x0 b).flt = b.flt ∧ (Block.retrain x0 b).pwr = b.pwr
    ∧ (Block.retrain x0 b).edge = b.edge ∧ (Block.retrain x0 b).fresh = b.fresh := by
  intros; simp [Block.retrain]

@[simp] theorem Block.retrainBundle_frame : ∀ x0 b, (Block.retrainBundle x0 b).thermos = b.thermos ∧ (Block.retrainBundle x0 b).boot = b.boot
    ∧ (Block.retrainBundle x0 b).pins = b.pins ∧ (Block.retrainBundle x0 b).feat = b.feat ∧ (Block.retrainBundle x0 b).link = b.link
    ∧ (Block.retrainBundle x0 b).cfg = b.cfg ∧ (Block.retrainBundle x0 b).ep = b.ep ∧ (Block.retrainBundle x0 b).tim = b.tim
    ∧ (Block.retrainBundle x0 b).ports = b.ports ∧ (Block.retrainBundle x0 b).slots = b.slots ∧ (Block.retrainBundle x0 b).ctls = b.ctls
    ∧ (Block.retrainBundle x0 b).ifc = b.ifc ∧ (Block.retrainBundle x0 b).fox = b.fox ∧ (Block.retrainBundle x0 b).afu = b.afu
    ∧ (Block.retrainBundle x0 b).owl = b.owl ∧ (Block.retrainBundle x0 b).badger = b.badger ∧ (Block.retrainBundle x0 b).den = b.den
    ∧ (Block.retrainBundle x0 b).map = b.map ∧ (Block.retrainBundle x0 b).guests = b.guests ∧ (Block.retrainBundle x0 b).flt = b.flt
    ∧ (Block.retrainBundle x0 b).pwr = b.pwr ∧ (Block.retrainBundle x0 b).edge = b.edge ∧ (Block.retrainBundle x0 b).fresh = b.fresh := by
  intros; simp [Block.retrainBundle]

@[simp] theorem Block.lanesDown_frame : ∀ b, (Block.lanesDown b).thermos = b.thermos ∧ (Block.lanesDown b).boot = b.boot
    ∧ (Block.lanesDown b).pins = b.pins ∧ (Block.lanesDown b).feat = b.feat ∧ (Block.lanesDown b).link = b.link ∧ (Block.lanesDown b).cfg = b.cfg
    ∧ (Block.lanesDown b).ep = b.ep ∧ (Block.lanesDown b).tim = b.tim ∧ (Block.lanesDown b).ports = b.ports ∧ (Block.lanesDown b).slots = b.slots
    ∧ (Block.lanesDown b).ctls = b.ctls ∧ (Block.lanesDown b).ifc = b.ifc ∧ (Block.lanesDown b).fox = b.fox ∧ (Block.lanesDown b).afu = b.afu
    ∧ (Block.lanesDown b).owl = b.owl ∧ (Block.lanesDown b).badger = b.badger ∧ (Block.lanesDown b).den = b.den ∧ (Block.lanesDown b).map = b.map
    ∧ (Block.lanesDown b).guests = b.guests ∧ (Block.lanesDown b).host = b.host ∧ (Block.lanesDown b).flt = b.flt ∧ (Block.lanesDown b).pwr = b.pwr
    ∧ (Block.lanesDown b).edge = b.edge ∧ (Block.lanesDown b).fresh = b.fresh := by
  intros; exact ⟨rfl, rfl, rfl, rfl, rfl, rfl, rfl, rfl, rfl, rfl, rfl, rfl, rfl, rfl, rfl, rfl, rfl, rfl, rfl, rfl, rfl, rfl, rfl, rfl⟩

@[simp] theorem Block.trailRestart_frame : ∀ b, (Block.trailRestart b).thermos = b.thermos ∧ (Block.trailRestart b).boot = b.boot
    ∧ (Block.trailRestart b).pins = b.pins ∧ (Block.trailRestart b).feat = b.feat ∧ (Block.trailRestart b).link = b.link
    ∧ (Block.trailRestart b).cfg = b.cfg ∧ (Block.trailRestart b).ep = b.ep ∧ (Block.trailRestart b).tim = b.tim
    ∧ (Block.trailRestart b).ports = b.ports ∧ (Block.trailRestart b).slots = b.slots ∧ (Block.trailRestart b).ctls = b.ctls
    ∧ (Block.trailRestart b).ifc = b.ifc ∧ (Block.trailRestart b).fox = b.fox ∧ (Block.trailRestart b).afu = b.afu
    ∧ (Block.trailRestart b).owl = b.owl ∧ (Block.trailRestart b).badger = b.badger ∧ (Block.trailRestart b).den = b.den
    ∧ (Block.trailRestart b).map = b.map ∧ (Block.trailRestart b).guests = b.guests ∧ (Block.trailRestart b).flt = b.flt
    ∧ (Block.trailRestart b).pwr = b.pwr ∧ (Block.trailRestart b).edge = b.edge ∧ (Block.trailRestart b).fresh = b.fresh := by
  intros; simp [Block.trailRestart]

@[simp] theorem Block.putFlits_frame : ∀ x0 x1 b, (Block.putFlits x0 x1 b).thermos = b.thermos ∧ (Block.putFlits x0 x1 b).boot = b.boot
    ∧ (Block.putFlits x0 x1 b).pins = b.pins ∧ (Block.putFlits x0 x1 b).feat = b.feat ∧ (Block.putFlits x0 x1 b).link = b.link
    ∧ (Block.putFlits x0 x1 b).cfg = b.cfg ∧ (Block.putFlits x0 x1 b).ep = b.ep ∧ (Block.putFlits x0 x1 b).tim = b.tim
    ∧ (Block.putFlits x0 x1 b).ports = b.ports ∧ (Block.putFlits x0 x1 b).slots = b.slots ∧ (Block.putFlits x0 x1 b).ctls = b.ctls
    ∧ (Block.putFlits x0 x1 b).ifc = b.ifc ∧ (Block.putFlits x0 x1 b).fox = b.fox ∧ (Block.putFlits x0 x1 b).afu = b.afu
    ∧ (Block.putFlits x0 x1 b).owl = b.owl ∧ (Block.putFlits x0 x1 b).badger = b.badger ∧ (Block.putFlits x0 x1 b).den = b.den
    ∧ (Block.putFlits x0 x1 b).map = b.map ∧ (Block.putFlits x0 x1 b).guests = b.guests ∧ (Block.putFlits x0 x1 b).flt = b.flt
    ∧ (Block.putFlits x0 x1 b).pwr = b.pwr ∧ (Block.putFlits x0 x1 b).edge = b.edge ∧ (Block.putFlits x0 x1 b).fresh = b.fresh := by
  intros; exact ⟨rfl, rfl, rfl, rfl, rfl, rfl, rfl, rfl, rfl, rfl, rfl, rfl, rfl, rfl, rfl, rfl, rfl, rfl, rfl, rfl, rfl, rfl, rfl⟩

@[simp] theorem Block.sendOn_frame : ∀ x0 x1 b, (Block.sendOn x0 x1 b).thermos = b.thermos ∧ (Block.sendOn x0 x1 b).boot = b.boot
    ∧ (Block.sendOn x0 x1 b).pins = b.pins ∧ (Block.sendOn x0 x1 b).feat = b.feat ∧ (Block.sendOn x0 x1 b).link = b.link
    ∧ (Block.sendOn x0 x1 b).cfg = b.cfg ∧ (Block.sendOn x0 x1 b).ep = b.ep ∧ (Block.sendOn x0 x1 b).tim = b.tim
    ∧ (Block.sendOn x0 x1 b).ports = b.ports ∧ (Block.sendOn x0 x1 b).slots = b.slots ∧ (Block.sendOn x0 x1 b).ctls = b.ctls
    ∧ (Block.sendOn x0 x1 b).ifc = b.ifc ∧ (Block.sendOn x0 x1 b).fox = b.fox ∧ (Block.sendOn x0 x1 b).afu = b.afu
    ∧ (Block.sendOn x0 x1 b).owl = b.owl ∧ (Block.sendOn x0 x1 b).badger = b.badger ∧ (Block.sendOn x0 x1 b).den = b.den
    ∧ (Block.sendOn x0 x1 b).map = b.map ∧ (Block.sendOn x0 x1 b).guests = b.guests ∧ (Block.sendOn x0 x1 b).flt = b.flt
    ∧ (Block.sendOn x0 x1 b).pwr = b.pwr ∧ (Block.sendOn x0 x1 b).edge = b.edge ∧ (Block.sendOn x0 x1 b).fresh = b.fresh := by
  intros; simp [Block.sendOn]

@[simp] theorem Block.sendWaiting_frame : ∀ x0 b, (Block.sendWaiting x0 b).thermos = b.thermos ∧ (Block.sendWaiting x0 b).boot = b.boot
    ∧ (Block.sendWaiting x0 b).pins = b.pins ∧ (Block.sendWaiting x0 b).feat = b.feat ∧ (Block.sendWaiting x0 b).link = b.link
    ∧ (Block.sendWaiting x0 b).cfg = b.cfg ∧ (Block.sendWaiting x0 b).ep = b.ep ∧ (Block.sendWaiting x0 b).tim = b.tim
    ∧ (Block.sendWaiting x0 b).ports = b.ports ∧ (Block.sendWaiting x0 b).slots = b.slots ∧ (Block.sendWaiting x0 b).ctls = b.ctls
    ∧ (Block.sendWaiting x0 b).ifc = b.ifc ∧ (Block.sendWaiting x0 b).fox = b.fox ∧ (Block.sendWaiting x0 b).afu = b.afu
    ∧ (Block.sendWaiting x0 b).owl = b.owl ∧ (Block.sendWaiting x0 b).badger = b.badger ∧ (Block.sendWaiting x0 b).den = b.den
    ∧ (Block.sendWaiting x0 b).map = b.map ∧ (Block.sendWaiting x0 b).guests = b.guests ∧ (Block.sendWaiting x0 b).flt = b.flt
    ∧ (Block.sendWaiting x0 b).pwr = b.pwr ∧ (Block.sendWaiting x0 b).edge = b.edge ∧ (Block.sendWaiting x0 b).fresh = b.fresh := by
  intros; simp [Block.sendWaiting]

@[simp] theorem Block.unreachable_frame : ∀ x0 x1 b, (Block.unreachable x0 x1 b).thermos = b.thermos ∧ (Block.unreachable x0 x1 b).boot = b.boot
    ∧ (Block.unreachable x0 x1 b).pins = b.pins ∧ (Block.unreachable x0 x1 b).feat = b.feat ∧ (Block.unreachable x0 x1 b).link = b.link
    ∧ (Block.unreachable x0 x1 b).cfg = b.cfg ∧ (Block.unreachable x0 x1 b).ep = b.ep ∧ (Block.unreachable x0 x1 b).tim = b.tim
    ∧ (Block.unreachable x0 x1 b).ports = b.ports ∧ (Block.unreachable x0 x1 b).slots = b.slots ∧ (Block.unreachable x0 x1 b).ctls = b.ctls
    ∧ (Block.unreachable x0 x1 b).ifc = b.ifc ∧ (Block.unreachable x0 x1 b).fox = b.fox ∧ (Block.unreachable x0 x1 b).afu = b.afu
    ∧ (Block.unreachable x0 x1 b).owl = b.owl ∧ (Block.unreachable x0 x1 b).badger = b.badger ∧ (Block.unreachable x0 x1 b).den = b.den
    ∧ (Block.unreachable x0 x1 b).map = b.map ∧ (Block.unreachable x0 x1 b).guests = b.guests ∧ (Block.unreachable x0 x1 b).pwr = b.pwr
    ∧ (Block.unreachable x0 x1 b).edge = b.edge ∧ (Block.unreachable x0 x1 b).fresh = b.fresh := by
  intros; simp [Block.unreachable]

@[simp] theorem Block.sendTo_frame : ∀ x0 b, (Block.sendTo x0 b).thermos = b.thermos ∧ (Block.sendTo x0 b).boot = b.boot
    ∧ (Block.sendTo x0 b).pins = b.pins ∧ (Block.sendTo x0 b).feat = b.feat ∧ (Block.sendTo x0 b).link = b.link
    ∧ (Block.sendTo x0 b).cfg = b.cfg ∧ (Block.sendTo x0 b).ep = b.ep ∧ (Block.sendTo x0 b).tim = b.tim
    ∧ (Block.sendTo x0 b).ports = b.ports ∧ (Block.sendTo x0 b).slots = b.slots ∧ (Block.sendTo x0 b).ctls = b.ctls
    ∧ (Block.sendTo x0 b).ifc = b.ifc ∧ (Block.sendTo x0 b).fox = b.fox ∧ (Block.sendTo x0 b).afu = b.afu
    ∧ (Block.sendTo x0 b).owl = b.owl ∧ (Block.sendTo x0 b).badger = b.badger ∧ (Block.sendTo x0 b).den = b.den
    ∧ (Block.sendTo x0 b).map = b.map ∧ (Block.sendTo x0 b).guests = b.guests ∧ (Block.sendTo x0 b).pwr = b.pwr
    ∧ (Block.sendTo x0 b).edge = b.edge ∧ (Block.sendTo x0 b).fresh = b.fresh := by
  intros; unfold Block.sendTo; (repeat' split) <;> simp

@[simp] theorem Block.control'_frame : ∀ x0 x1 x2 b, (Block.control' x0 x1 x2 b).thermos = b.thermos ∧ (Block.control' x0 x1 x2 b).boot = b.boot
    ∧ (Block.control' x0 x1 x2 b).pins = b.pins ∧ (Block.control' x0 x1 x2 b).feat = b.feat ∧ (Block.control' x0 x1 x2 b).link = b.link
    ∧ (Block.control' x0 x1 x2 b).cfg = b.cfg ∧ (Block.control' x0 x1 x2 b).ep = b.ep ∧ (Block.control' x0 x1 x2 b).tim = b.tim
    ∧ (Block.control' x0 x1 x2 b).ports = b.ports ∧ (Block.control' x0 x1 x2 b).slots = b.slots ∧ (Block.control' x0 x1 x2 b).ctls = b.ctls
    ∧ (Block.control' x0 x1 x2 b).ifc = b.ifc ∧ (Block.control' x0 x1 x2 b).fox = b.fox ∧ (Block.control' x0 x1 x2 b).afu = b.afu
    ∧ (Block.control' x0 x1 x2 b).owl = b.owl ∧ (Block.control' x0 x1 x2 b).badger = b.badger ∧ (Block.control' x0 x1 x2 b).den = b.den
    ∧ (Block.control' x0 x1 x2 b).map = b.map ∧ (Block.control' x0 x1 x2 b).guests = b.guests ∧ (Block.control' x0 x1 x2 b).pwr = b.pwr
    ∧ (Block.control' x0 x1 x2 b).edge = b.edge ∧ (Block.control' x0 x1 x2 b).fresh = b.fresh := by
  intros; simp [Block.control']

@[simp] theorem Block.linkParcel_frame : ∀ x0 x1 x2 x3 b, (Block.linkParcel x0 x1 x2 x3 b).thermos = b.thermos
    ∧ (Block.linkParcel x0 x1 x2 x3 b).boot = b.boot ∧ (Block.linkParcel x0 x1 x2 x3 b).pins = b.pins
    ∧ (Block.linkParcel x0 x1 x2 x3 b).feat = b.feat ∧ (Block.linkParcel x0 x1 x2 x3 b).link = b.link ∧ (Block.linkParcel x0 x1 x2 x3 b).cfg = b.cfg
    ∧ (Block.linkParcel x0 x1 x2 x3 b).ep = b.ep ∧ (Block.linkParcel x0 x1 x2 x3 b).tim = b.tim ∧ (Block.linkParcel x0 x1 x2 x3 b).ports = b.ports
    ∧ (Block.linkParcel x0 x1 x2 x3 b).slots = b.slots ∧ (Block.linkParcel x0 x1 x2 x3 b).ctls = b.ctls
    ∧ (Block.linkParcel x0 x1 x2 x3 b).ifc = b.ifc ∧ (Block.linkParcel x0 x1 x2 x3 b).fox = b.fox ∧ (Block.linkParcel x0 x1 x2 x3 b).afu = b.afu
    ∧ (Block.linkParcel x0 x1 x2 x3 b).owl = b.owl ∧ (Block.linkParcel x0 x1 x2 x3 b).badger = b.badger
    ∧ (Block.linkParcel x0 x1 x2 x3 b).den = b.den ∧ (Block.linkParcel x0 x1 x2 x3 b).map = b.map
    ∧ (Block.linkParcel x0 x1 x2 x3 b).guests = b.guests ∧ (Block.linkParcel x0 x1 x2 x3 b).flt = b.flt
    ∧ (Block.linkParcel x0 x1 x2 x3 b).pwr = b.pwr ∧ (Block.linkParcel x0 x1 x2 x3 b).edge = b.edge
    ∧ (Block.linkParcel x0 x1 x2 x3 b).fresh = b.fresh := by
  intros; simp [Block.linkParcel]

@[simp] theorem Block.received_frame : ∀ x0 b, (Block.received x0 b).thermos = b.thermos ∧ (Block.received x0 b).boot = b.boot
    ∧ (Block.received x0 b).pins = b.pins ∧ (Block.received x0 b).feat = b.feat ∧ (Block.received x0 b).link = b.link
    ∧ (Block.received x0 b).cfg = b.cfg ∧ (Block.received x0 b).ep = b.ep ∧ (Block.received x0 b).tim = b.tim ∧ (Block.received x0 b).ports = b.ports
    ∧ (Block.received x0 b).slots = b.slots ∧ (Block.received x0 b).ctls = b.ctls ∧ (Block.received x0 b).ifc = b.ifc
    ∧ (Block.received x0 b).fox = b.fox ∧ (Block.received x0 b).afu = b.afu ∧ (Block.received x0 b).owl = b.owl
    ∧ (Block.received x0 b).badger = b.badger ∧ (Block.received x0 b).den = b.den ∧ (Block.received x0 b).map = b.map
    ∧ (Block.received x0 b).guests = b.guests ∧ (Block.received x0 b).host = b.host ∧ (Block.received x0 b).flt = b.flt
    ∧ (Block.received x0 b).pwr = b.pwr ∧ (Block.received x0 b).edge = b.edge ∧ (Block.received x0 b).fresh = b.fresh := by
  intros; exact ⟨rfl, rfl, rfl, rfl, rfl, rfl, rfl, rfl, rfl, rfl, rfl, rfl, rfl, rfl, rfl, rfl, rfl, rfl, rfl, rfl, rfl, rfl, rfl, rfl⟩

@[simp] theorem Block.sendJoin_frame : ∀ b, (Block.sendJoin b).thermos = b.thermos ∧ (Block.sendJoin b).boot = b.boot
    ∧ (Block.sendJoin b).pins = b.pins ∧ (Block.sendJoin b).feat = b.feat ∧ (Block.sendJoin b).link = b.link ∧ (Block.sendJoin b).cfg = b.cfg
    ∧ (Block.sendJoin b).ep = b.ep ∧ (Block.sendJoin b).tim = b.tim ∧ (Block.sendJoin b).ports = b.ports ∧ (Block.sendJoin b).slots = b.slots
    ∧ (Block.sendJoin b).ctls = b.ctls ∧ (Block.sendJoin b).ifc = b.ifc ∧ (Block.sendJoin b).fox = b.fox ∧ (Block.sendJoin b).afu = b.afu
    ∧ (Block.sendJoin b).owl = b.owl ∧ (Block.sendJoin b).badger = b.badger ∧ (Block.sendJoin b).den = b.den ∧ (Block.sendJoin b).map = b.map
    ∧ (Block.sendJoin b).guests = b.guests ∧ (Block.sendJoin b).pwr = b.pwr ∧ (Block.sendJoin b).edge = b.edge ∧ (Block.sendJoin b).fresh = b.fresh := by
  intros; simp [Block.sendJoin]

@[simp] theorem Block.sendOwn_frame : ∀ x0 x1 b, (Block.sendOwn x0 x1 b).thermos = b.thermos ∧ (Block.sendOwn x0 x1 b).boot = b.boot
    ∧ (Block.sendOwn x0 x1 b).pins = b.pins ∧ (Block.sendOwn x0 x1 b).feat = b.feat ∧ (Block.sendOwn x0 x1 b).link = b.link
    ∧ (Block.sendOwn x0 x1 b).cfg = b.cfg ∧ (Block.sendOwn x0 x1 b).ep = b.ep ∧ (Block.sendOwn x0 x1 b).tim = b.tim
    ∧ (Block.sendOwn x0 x1 b).ports = b.ports ∧ (Block.sendOwn x0 x1 b).slots = b.slots ∧ (Block.sendOwn x0 x1 b).ctls = b.ctls
    ∧ (Block.sendOwn x0 x1 b).ifc = b.ifc ∧ (Block.sendOwn x0 x1 b).fox = b.fox ∧ (Block.sendOwn x0 x1 b).afu = b.afu
    ∧ (Block.sendOwn x0 x1 b).owl = b.owl ∧ (Block.sendOwn x0 x1 b).badger = b.badger ∧ (Block.sendOwn x0 x1 b).den = b.den
    ∧ (Block.sendOwn x0 x1 b).map = b.map ∧ (Block.sendOwn x0 x1 b).guests = b.guests ∧ (Block.sendOwn x0 x1 b).pwr = b.pwr
    ∧ (Block.sendOwn x0 x1 b).edge = b.edge ∧ (Block.sendOwn x0 x1 b).fresh = b.fresh := by
  intros; simp [Block.sendOwn]

@[simp] theorem Block.pumpFrags_frame : ∀ b, (Block.pumpFrags b).thermos = b.thermos ∧ (Block.pumpFrags b).boot = b.boot
    ∧ (Block.pumpFrags b).pins = b.pins ∧ (Block.pumpFrags b).feat = b.feat ∧ (Block.pumpFrags b).link = b.link ∧ (Block.pumpFrags b).cfg = b.cfg
    ∧ (Block.pumpFrags b).ep = b.ep ∧ (Block.pumpFrags b).tim = b.tim ∧ (Block.pumpFrags b).ports = b.ports ∧ (Block.pumpFrags b).slots = b.slots
    ∧ (Block.pumpFrags b).ctls = b.ctls ∧ (Block.pumpFrags b).ifc = b.ifc ∧ (Block.pumpFrags b).fox = b.fox ∧ (Block.pumpFrags b).afu = b.afu
    ∧ (Block.pumpFrags b).owl = b.owl ∧ (Block.pumpFrags b).badger = b.badger ∧ (Block.pumpFrags b).den = b.den ∧ (Block.pumpFrags b).map = b.map
    ∧ (Block.pumpFrags b).guests = b.guests ∧ (Block.pumpFrags b).pwr = b.pwr ∧ (Block.pumpFrags b).edge = b.edge
    ∧ (Block.pumpFrags b).fresh = b.fresh := by
  intros; simp [Block.pumpFrags]

@[simp] theorem Block.resendFrags_frame : ∀ b, (Block.resendFrags b).thermos = b.thermos ∧ (Block.resendFrags b).boot = b.boot
    ∧ (Block.resendFrags b).pins = b.pins ∧ (Block.resendFrags b).feat = b.feat ∧ (Block.resendFrags b).link = b.link
    ∧ (Block.resendFrags b).cfg = b.cfg ∧ (Block.resendFrags b).ep = b.ep ∧ (Block.resendFrags b).tim = b.tim ∧ (Block.resendFrags b).ports = b.ports
    ∧ (Block.resendFrags b).slots = b.slots ∧ (Block.resendFrags b).ctls = b.ctls ∧ (Block.resendFrags b).ifc = b.ifc
    ∧ (Block.resendFrags b).fox = b.fox ∧ (Block.resendFrags b).afu = b.afu ∧ (Block.resendFrags b).owl = b.owl
    ∧ (Block.resendFrags b).badger = b.badger ∧ (Block.resendFrags b).den = b.den ∧ (Block.resendFrags b).map = b.map
    ∧ (Block.resendFrags b).guests = b.guests ∧ (Block.resendFrags b).pwr = b.pwr ∧ (Block.resendFrags b).edge = b.edge
    ∧ (Block.resendFrags b).fresh = b.fresh := by
  intros; simp [Block.resendFrags]

@[simp] theorem Block.trigDrive_frame : ∀ x0 x1 b, (Block.trigDrive x0 x1 b).thermos = b.thermos ∧ (Block.trigDrive x0 x1 b).boot = b.boot
    ∧ (Block.trigDrive x0 x1 b).feat = b.feat ∧ (Block.trigDrive x0 x1 b).link = b.link ∧ (Block.trigDrive x0 x1 b).cfg = b.cfg
    ∧ (Block.trigDrive x0 x1 b).ep = b.ep ∧ (Block.trigDrive x0 x1 b).tim = b.tim ∧ (Block.trigDrive x0 x1 b).ports = b.ports
    ∧ (Block.trigDrive x0 x1 b).slots = b.slots ∧ (Block.trigDrive x0 x1 b).ctls = b.ctls ∧ (Block.trigDrive x0 x1 b).ifc = b.ifc
    ∧ (Block.trigDrive x0 x1 b).fox = b.fox ∧ (Block.trigDrive x0 x1 b).afu = b.afu ∧ (Block.trigDrive x0 x1 b).owl = b.owl
    ∧ (Block.trigDrive x0 x1 b).badger = b.badger ∧ (Block.trigDrive x0 x1 b).den = b.den ∧ (Block.trigDrive x0 x1 b).map = b.map
    ∧ (Block.trigDrive x0 x1 b).guests = b.guests ∧ (Block.trigDrive x0 x1 b).host = b.host ∧ (Block.trigDrive x0 x1 b).flt = b.flt
    ∧ (Block.trigDrive x0 x1 b).pwr = b.pwr ∧ (Block.trigDrive x0 x1 b).edge = b.edge ∧ (Block.trigDrive x0 x1 b).trail = b.trail
    ∧ (Block.trigDrive x0 x1 b).fresh = b.fresh := by
  intros; exact ⟨rfl, rfl, rfl, rfl, rfl, rfl, rfl, rfl, rfl, rfl, rfl, rfl, rfl, rfl, rfl, rfl, rfl, rfl, rfl, rfl, rfl, rfl, rfl, rfl⟩

@[simp] theorem Block.lines_frame : ∀ x0 x1 b, (Block.lines x0 x1 b).thermos = b.thermos ∧ (Block.lines x0 x1 b).boot = b.boot
    ∧ (Block.lines x0 x1 b).pins = b.pins ∧ (Block.lines x0 x1 b).feat = b.feat ∧ (Block.lines x0 x1 b).link = b.link
    ∧ (Block.lines x0 x1 b).cfg = b.cfg ∧ (Block.lines x0 x1 b).ep = b.ep ∧ (Block.lines x0 x1 b).tim = b.tim ∧ (Block.lines x0 x1 b).ports = b.ports
    ∧ (Block.lines x0 x1 b).slots = b.slots ∧ (Block.lines x0 x1 b).ctls = b.ctls ∧ (Block.lines x0 x1 b).ifc = b.ifc
    ∧ (Block.lines x0 x1 b).fox = b.fox ∧ (Block.lines x0 x1 b).afu = b.afu ∧ (Block.lines x0 x1 b).owl = b.owl
    ∧ (Block.lines x0 x1 b).badger = b.badger ∧ (Block.lines x0 x1 b).den = b.den ∧ (Block.lines x0 x1 b).map = b.map
    ∧ (Block.lines x0 x1 b).guests = b.guests ∧ (Block.lines x0 x1 b).pwr = b.pwr ∧ (Block.lines x0 x1 b).edge = b.edge
    ∧ (Block.lines x0 x1 b).trail = b.trail ∧ (Block.lines x0 x1 b).fresh = b.fresh := by
  intros; simp [Block.lines]

@[simp] theorem Block.missingLine_frame : ∀ x0 x1 x2 b, (Block.missingLine x0 x1 x2 b).thermos = b.thermos
    ∧ (Block.missingLine x0 x1 x2 b).boot = b.boot ∧ (Block.missingLine x0 x1 x2 b).pins = b.pins ∧ (Block.missingLine x0 x1 x2 b).feat = b.feat
    ∧ (Block.missingLine x0 x1 x2 b).link = b.link ∧ (Block.missingLine x0 x1 x2 b).cfg = b.cfg ∧ (Block.missingLine x0 x1 x2 b).ep = b.ep
    ∧ (Block.missingLine x0 x1 x2 b).tim = b.tim ∧ (Block.missingLine x0 x1 x2 b).ports = b.ports ∧ (Block.missingLine x0 x1 x2 b).slots = b.slots
    ∧ (Block.missingLine x0 x1 x2 b).ctls = b.ctls ∧ (Block.missingLine x0 x1 x2 b).ifc = b.ifc ∧ (Block.missingLine x0 x1 x2 b).fox = b.fox
    ∧ (Block.missingLine x0 x1 x2 b).afu = b.afu ∧ (Block.missingLine x0 x1 x2 b).owl = b.owl ∧ (Block.missingLine x0 x1 x2 b).badger = b.badger
    ∧ (Block.missingLine x0 x1 x2 b).den = b.den ∧ (Block.missingLine x0 x1 x2 b).map = b.map ∧ (Block.missingLine x0 x1 x2 b).guests = b.guests
    ∧ (Block.missingLine x0 x1 x2 b).pwr = b.pwr ∧ (Block.missingLine x0 x1 x2 b).edge = b.edge ∧ (Block.missingLine x0 x1 x2 b).trail = b.trail
    ∧ (Block.missingLine x0 x1 x2 b).fresh = b.fresh := by
  intros; exact ⟨rfl, rfl, rfl, rfl, rfl, rfl, rfl, rfl, rfl, rfl, rfl, rfl, rfl, rfl, rfl, rfl, rfl, rfl, rfl, rfl, rfl, rfl, rfl⟩

@[simp] theorem Block.onFrame_frame : ∀ x0 x1 b, (Block.onFrame x0 x1 b).thermos = b.thermos ∧ (Block.onFrame x0 x1 b).boot = b.boot
    ∧ (Block.onFrame x0 x1 b).pins = b.pins ∧ (Block.onFrame x0 x1 b).feat = b.feat ∧ (Block.onFrame x0 x1 b).link = b.link
    ∧ (Block.onFrame x0 x1 b).cfg = b.cfg ∧ (Block.onFrame x0 x1 b).ep = b.ep ∧ (Block.onFrame x0 x1 b).tim = b.tim
    ∧ (Block.onFrame x0 x1 b).slots = b.slots ∧ (Block.onFrame x0 x1 b).ctls = b.ctls ∧ (Block.onFrame x0 x1 b).ifc = b.ifc
    ∧ (Block.onFrame x0 x1 b).fox = b.fox ∧ (Block.onFrame x0 x1 b).afu = b.afu ∧ (Block.onFrame x0 x1 b).owl = b.owl
    ∧ (Block.onFrame x0 x1 b).badger = b.badger ∧ (Block.onFrame x0 x1 b).den = b.den ∧ (Block.onFrame x0 x1 b).map = b.map
    ∧ (Block.onFrame x0 x1 b).guests = b.guests ∧ (Block.onFrame x0 x1 b).host = b.host ∧ (Block.onFrame x0 x1 b).flt = b.flt
    ∧ (Block.onFrame x0 x1 b).pwr = b.pwr ∧ (Block.onFrame x0 x1 b).edge = b.edge ∧ (Block.onFrame x0 x1 b).trail = b.trail
    ∧ (Block.onFrame x0 x1 b).fresh = b.fresh := by
  intros; exact ⟨rfl, rfl, rfl, rfl, rfl, rfl, rfl, rfl, rfl, rfl, rfl, rfl, rfl, rfl, rfl, rfl, rfl, rfl, rfl, rfl, rfl, rfl, rfl, rfl⟩

@[simp] theorem Block.foxForget_frame : ∀ x0 x1 b, (Block.foxForget x0 x1 b).thermos = b.thermos ∧ (Block.foxForget x0 x1 b).boot = b.boot
    ∧ (Block.foxForget x0 x1 b).pins = b.pins ∧ (Block.foxForget x0 x1 b).feat = b.feat ∧ (Block.foxForget x0 x1 b).link = b.link
    ∧ (Block.foxForget x0 x1 b).cfg = b.cfg ∧ (Block.foxForget x0 x1 b).ep = b.ep ∧ (Block.foxForget x0 x1 b).tim = b.tim
    ∧ (Block.foxForget x0 x1 b).ports = b.ports ∧ (Block.foxForget x0 x1 b).slots = b.slots ∧ (Block.foxForget x0 x1 b).ctls = b.ctls
    ∧ (Block.foxForget x0 x1 b).ifc = b.ifc ∧ (Block.foxForget x0 x1 b).afu = b.afu ∧ (Block.foxForget x0 x1 b).owl = b.owl
    ∧ (Block.foxForget x0 x1 b).badger = b.badger ∧ (Block.foxForget x0 x1 b).den = b.den ∧ (Block.foxForget x0 x1 b).map = b.map
    ∧ (Block.foxForget x0 x1 b).guests = b.guests ∧ (Block.foxForget x0 x1 b).host = b.host ∧ (Block.foxForget x0 x1 b).flt = b.flt
    ∧ (Block.foxForget x0 x1 b).pwr = b.pwr ∧ (Block.foxForget x0 x1 b).edge = b.edge ∧ (Block.foxForget x0 x1 b).trail = b.trail
    ∧ (Block.foxForget x0 x1 b).fresh = b.fresh := by
  intros; exact ⟨rfl, rfl, rfl, rfl, rfl, rfl, rfl, rfl, rfl, rfl, rfl, rfl, rfl, rfl, rfl, rfl, rfl, rfl, rfl, rfl, rfl, rfl, rfl, rfl⟩

@[simp] theorem Block.useFrame_frame : ∀ x0 x1 x2 x3 b, (Block.useFrame x0 x1 x2 x3 b).thermos = b.thermos ∧ (Block.useFrame x0 x1 x2 x3 b).boot = b.boot
    ∧ (Block.useFrame x0 x1 x2 x3 b).pins = b.pins ∧ (Block.useFrame x0 x1 x2 x3 b).feat = b.feat ∧ (Block.useFrame x0 x1 x2 x3 b).link = b.link
    ∧ (Block.useFrame x0 x1 x2 x3 b).cfg = b.cfg ∧ (Block.useFrame x0 x1 x2 x3 b).tim = b.tim ∧ (Block.useFrame x0 x1 x2 x3 b).slots = b.slots
    ∧ (Block.useFrame x0 x1 x2 x3 b).ctls = b.ctls ∧ (Block.useFrame x0 x1 x2 x3 b).ifc = b.ifc ∧ (Block.useFrame x0 x1 x2 x3 b).owl = b.owl
    ∧ (Block.useFrame x0 x1 x2 x3 b).badger = b.badger ∧ (Block.useFrame x0 x1 x2 x3 b).den = b.den ∧ (Block.useFrame x0 x1 x2 x3 b).map = b.map
    ∧ (Block.useFrame x0 x1 x2 x3 b).guests = b.guests ∧ (Block.useFrame x0 x1 x2 x3 b).host = b.host ∧ (Block.useFrame x0 x1 x2 x3 b).flt = b.flt
    ∧ (Block.useFrame x0 x1 x2 x3 b).pwr = b.pwr ∧ (Block.useFrame x0 x1 x2 x3 b).edge = b.edge ∧ (Block.useFrame x0 x1 x2 x3 b).trail = b.trail
    ∧ (Block.useFrame x0 x1 x2 x3 b).fresh = b.fresh := by
  intros; simp [Block.useFrame]

@[simp] theorem Block.closeFrame_frame : ∀ x0 x1 b, (Block.closeFrame x0 x1 b).thermos = b.thermos ∧ (Block.closeFrame x0 x1 b).boot = b.boot
    ∧ (Block.closeFrame x0 x1 b).pins = b.pins ∧ (Block.closeFrame x0 x1 b).feat = b.feat ∧ (Block.closeFrame x0 x1 b).link = b.link
    ∧ (Block.closeFrame x0 x1 b).cfg = b.cfg ∧ (Block.closeFrame x0 x1 b).tim = b.tim ∧ (Block.closeFrame x0 x1 b).slots = b.slots
    ∧ (Block.closeFrame x0 x1 b).ctls = b.ctls ∧ (Block.closeFrame x0 x1 b).ifc = b.ifc ∧ (Block.closeFrame x0 x1 b).owl = b.owl
    ∧ (Block.closeFrame x0 x1 b).badger = b.badger ∧ (Block.closeFrame x0 x1 b).den = b.den ∧ (Block.closeFrame x0 x1 b).map = b.map
    ∧ (Block.closeFrame x0 x1 b).guests = b.guests ∧ (Block.closeFrame x0 x1 b).pwr = b.pwr ∧ (Block.closeFrame x0 x1 b).edge = b.edge
    ∧ (Block.closeFrame x0 x1 b).trail = b.trail ∧ (Block.closeFrame x0 x1 b).fresh = b.fresh := by
  intros; unfold Block.closeFrame; (repeat' split) <;> simp

@[simp] theorem Block.closeGroup_frame : ∀ x0 b, (Block.closeGroup x0 b).thermos = b.thermos ∧ (Block.closeGroup x0 b).boot = b.boot
    ∧ (Block.closeGroup x0 b).pins = b.pins ∧ (Block.closeGroup x0 b).feat = b.feat ∧ (Block.closeGroup x0 b).link = b.link
    ∧ (Block.closeGroup x0 b).cfg = b.cfg ∧ (Block.closeGroup x0 b).ep = b.ep ∧ (Block.closeGroup x0 b).tim = b.tim
    ∧ (Block.closeGroup x0 b).ports = b.ports ∧ (Block.closeGroup x0 b).ctls = b.ctls ∧ (Block.closeGroup x0 b).ifc = b.ifc
    ∧ (Block.closeGroup x0 b).fox = b.fox ∧ (Block.closeGroup x0 b).afu = b.afu ∧ (Block.closeGroup x0 b).owl = b.owl
    ∧ (Block.closeGroup x0 b).badger = b.badger ∧ (Block.closeGroup x0 b).den = b.den ∧ (Block.closeGroup x0 b).map = b.map
    ∧ (Block.closeGroup x0 b).guests = b.guests ∧ (Block.closeGroup x0 b).pwr = b.pwr ∧ (Block.closeGroup x0 b).edge = b.edge
    ∧ (Block.closeGroup x0 b).trail = b.trail ∧ (Block.closeGroup x0 b).fresh = b.fresh := by
  intros; simp [Block.closeGroup]

@[simp] theorem Block.i3cAssign_frame : ∀ x0 b, (Block.i3cAssign x0 b).thermos = b.thermos ∧ (Block.i3cAssign x0 b).boot = b.boot
    ∧ (Block.i3cAssign x0 b).pins = b.pins ∧ (Block.i3cAssign x0 b).feat = b.feat ∧ (Block.i3cAssign x0 b).link = b.link
    ∧ (Block.i3cAssign x0 b).cfg = b.cfg ∧ (Block.i3cAssign x0 b).ep = b.ep ∧ (Block.i3cAssign x0 b).tim = b.tim
    ∧ (Block.i3cAssign x0 b).ports = b.ports ∧ (Block.i3cAssign x0 b).ctls = b.ctls ∧ (Block.i3cAssign x0 b).ifc = b.ifc
    ∧ (Block.i3cAssign x0 b).fox = b.fox ∧ (Block.i3cAssign x0 b).afu = b.afu ∧ (Block.i3cAssign x0 b).owl = b.owl
    ∧ (Block.i3cAssign x0 b).badger = b.badger ∧ (Block.i3cAssign x0 b).den = b.den ∧ (Block.i3cAssign x0 b).map = b.map
    ∧ (Block.i3cAssign x0 b).guests = b.guests ∧ (Block.i3cAssign x0 b).flt = b.flt ∧ (Block.i3cAssign x0 b).pwr = b.pwr
    ∧ (Block.i3cAssign x0 b).edge = b.edge ∧ (Block.i3cAssign x0 b).trail = b.trail ∧ (Block.i3cAssign x0 b).fresh = b.fresh := by
  intros; simp [Block.i3cAssign]

@[simp] theorem Block.trigEdge_frame : ∀ x0 x1 b, (Block.trigEdge x0 x1 b).thermos = b.thermos ∧ (Block.trigEdge x0 x1 b).boot = b.boot
    ∧ (Block.trigEdge x0 x1 b).feat = b.feat ∧ (Block.trigEdge x0 x1 b).link = b.link ∧ (Block.trigEdge x0 x1 b).cfg = b.cfg
    ∧ (Block.trigEdge x0 x1 b).ep = b.ep ∧ (Block.trigEdge x0 x1 b).tim = b.tim ∧ (Block.trigEdge x0 x1 b).slots = b.slots
    ∧ (Block.trigEdge x0 x1 b).ctls = b.ctls ∧ (Block.trigEdge x0 x1 b).ifc = b.ifc ∧ (Block.trigEdge x0 x1 b).fox = b.fox
    ∧ (Block.trigEdge x0 x1 b).afu = b.afu ∧ (Block.trigEdge x0 x1 b).owl = b.owl ∧ (Block.trigEdge x0 x1 b).badger = b.badger
    ∧ (Block.trigEdge x0 x1 b).den = b.den ∧ (Block.trigEdge x0 x1 b).map = b.map ∧ (Block.trigEdge x0 x1 b).guests = b.guests
    ∧ (Block.trigEdge x0 x1 b).host = b.host ∧ (Block.trigEdge x0 x1 b).flt = b.flt ∧ (Block.trigEdge x0 x1 b).pwr = b.pwr
    ∧ (Block.trigEdge x0 x1 b).edge = b.edge ∧ (Block.trigEdge x0 x1 b).trail = b.trail ∧ (Block.trigEdge x0 x1 b).fresh = b.fresh := by
  intros; simp [Block.trigEdge]

@[simp] theorem Block.headerEcc_frame_fst : ∀ x0 x1 b, (Block.headerEcc x0 x1 b).1.thermos = b.thermos ∧ (Block.headerEcc x0 x1 b).1.boot = b.boot
    ∧ (Block.headerEcc x0 x1 b).1.pins = b.pins ∧ (Block.headerEcc x0 x1 b).1.feat = b.feat ∧ (Block.headerEcc x0 x1 b).1.link = b.link
    ∧ (Block.headerEcc x0 x1 b).1.cfg = b.cfg ∧ (Block.headerEcc x0 x1 b).1.ep = b.ep ∧ (Block.headerEcc x0 x1 b).1.tim = b.tim
    ∧ (Block.headerEcc x0 x1 b).1.slots = b.slots ∧ (Block.headerEcc x0 x1 b).1.ctls = b.ctls ∧ (Block.headerEcc x0 x1 b).1.ifc = b.ifc
    ∧ (Block.headerEcc x0 x1 b).1.fox = b.fox ∧ (Block.headerEcc x0 x1 b).1.afu = b.afu ∧ (Block.headerEcc x0 x1 b).1.owl = b.owl
    ∧ (Block.headerEcc x0 x1 b).1.badger = b.badger ∧ (Block.headerEcc x0 x1 b).1.den = b.den ∧ (Block.headerEcc x0 x1 b).1.map = b.map
    ∧ (Block.headerEcc x0 x1 b).1.guests = b.guests ∧ (Block.headerEcc x0 x1 b).1.host = b.host ∧ (Block.headerEcc x0 x1 b).1.flt = b.flt
    ∧ (Block.headerEcc x0 x1 b).1.pwr = b.pwr ∧ (Block.headerEcc x0 x1 b).1.edge = b.edge ∧ (Block.headerEcc x0 x1 b).1.trail = b.trail
    ∧ (Block.headerEcc x0 x1 b).1.fresh = b.fresh := by
  intros; unfold Block.headerEcc; (repeat' split) <;> simp

@[simp] theorem Block.openFrame_frame : ∀ x0 x1 x2 b, (Block.openFrame x0 x1 x2 b).thermos = b.thermos ∧ (Block.openFrame x0 x1 x2 b).boot = b.boot
    ∧ (Block.openFrame x0 x1 x2 b).pins = b.pins ∧ (Block.openFrame x0 x1 x2 b).feat = b.feat ∧ (Block.openFrame x0 x1 x2 b).link = b.link
    ∧ (Block.openFrame x0 x1 x2 b).cfg = b.cfg ∧ (Block.openFrame x0 x1 x2 b).tim = b.tim ∧ (Block.openFrame x0 x1 x2 b).slots = b.slots
    ∧ (Block.openFrame x0 x1 x2 b).ctls = b.ctls ∧ (Block.openFrame x0 x1 x2 b).ifc = b.ifc ∧ (Block.openFrame x0 x1 x2 b).afu = b.afu
    ∧ (Block.openFrame x0 x1 x2 b).owl = b.owl ∧ (Block.openFrame x0 x1 x2 b).badger = b.badger ∧ (Block.openFrame x0 x1 x2 b).den = b.den
    ∧ (Block.openFrame x0 x1 x2 b).map = b.map ∧ (Block.openFrame x0 x1 x2 b).guests = b.guests ∧ (Block.openFrame x0 x1 x2 b).pwr = b.pwr
    ∧ (Block.openFrame x0 x1 x2 b).edge = b.edge ∧ (Block.openFrame x0 x1 x2 b).trail = b.trail := by
  intros; simp [Block.openFrame]

@[simp] theorem Block.frameStart_frame : ∀ x0 x1 b, (Block.frameStart x0 x1 b).thermos = b.thermos ∧ (Block.frameStart x0 x1 b).boot = b.boot
    ∧ (Block.frameStart x0 x1 b).pins = b.pins ∧ (Block.frameStart x0 x1 b).feat = b.feat ∧ (Block.frameStart x0 x1 b).link = b.link
    ∧ (Block.frameStart x0 x1 b).cfg = b.cfg ∧ (Block.frameStart x0 x1 b).tim = b.tim ∧ (Block.frameStart x0 x1 b).slots = b.slots
    ∧ (Block.frameStart x0 x1 b).ctls = b.ctls ∧ (Block.frameStart x0 x1 b).ifc = b.ifc ∧ (Block.frameStart x0 x1 b).owl = b.owl
    ∧ (Block.frameStart x0 x1 b).badger = b.badger ∧ (Block.frameStart x0 x1 b).den = b.den ∧ (Block.frameStart x0 x1 b).map = b.map
    ∧ (Block.frameStart x0 x1 b).guests = b.guests ∧ (Block.frameStart x0 x1 b).pwr = b.pwr ∧ (Block.frameStart x0 x1 b).edge = b.edge
    ∧ (Block.frameStart x0 x1 b).trail = b.trail := by
  intros; simp [Block.frameStart]

@[simp] theorem Block.trigNoFrame_frame : ∀ x0 b, (Block.trigNoFrame x0 b).thermos = b.thermos ∧ (Block.trigNoFrame x0 b).boot = b.boot
    ∧ (Block.trigNoFrame x0 b).pins = b.pins ∧ (Block.trigNoFrame x0 b).feat = b.feat ∧ (Block.trigNoFrame x0 b).link = b.link
    ∧ (Block.trigNoFrame x0 b).cfg = b.cfg ∧ (Block.trigNoFrame x0 b).tim = b.tim ∧ (Block.trigNoFrame x0 b).slots = b.slots
    ∧ (Block.trigNoFrame x0 b).ctls = b.ctls ∧ (Block.trigNoFrame x0 b).ifc = b.ifc ∧ (Block.trigNoFrame x0 b).fox = b.fox
    ∧ (Block.trigNoFrame x0 b).afu = b.afu ∧ (Block.trigNoFrame x0 b).owl = b.owl ∧ (Block.trigNoFrame x0 b).badger = b.badger
    ∧ (Block.trigNoFrame x0 b).den = b.den ∧ (Block.trigNoFrame x0 b).map = b.map ∧ (Block.trigNoFrame x0 b).guests = b.guests
    ∧ (Block.trigNoFrame x0 b).host = b.host ∧ (Block.trigNoFrame x0 b).flt = b.flt ∧ (Block.trigNoFrame x0 b).pwr = b.pwr
    ∧ (Block.trigNoFrame x0 b).edge = b.edge ∧ (Block.trigNoFrame x0 b).trail = b.trail ∧ (Block.trigNoFrame x0 b).fresh = b.fresh := by
  intros; simp [Block.trigNoFrame]

@[simp] theorem Block.frameEnd_frame : ∀ x0 x1 b, (Block.frameEnd x0 x1 b).thermos = b.thermos ∧ (Block.frameEnd x0 x1 b).boot = b.boot
    ∧ (Block.frameEnd x0 x1 b).pins = b.pins ∧ (Block.frameEnd x0 x1 b).feat = b.feat ∧ (Block.frameEnd x0 x1 b).link = b.link
    ∧ (Block.frameEnd x0 x1 b).cfg = b.cfg ∧ (Block.frameEnd x0 x1 b).tim = b.tim ∧ (Block.frameEnd x0 x1 b).slots = b.slots
    ∧ (Block.frameEnd x0 x1 b).ctls = b.ctls ∧ (Block.frameEnd x0 x1 b).ifc = b.ifc ∧ (Block.frameEnd x0 x1 b).owl = b.owl
    ∧ (Block.frameEnd x0 x1 b).badger = b.badger ∧ (Block.frameEnd x0 x1 b).den = b.den ∧ (Block.frameEnd x0 x1 b).map = b.map
    ∧ (Block.frameEnd x0 x1 b).guests = b.guests ∧ (Block.frameEnd x0 x1 b).pwr = b.pwr ∧ (Block.frameEnd x0 x1 b).edge = b.edge
    ∧ (Block.frameEnd x0 x1 b).trail = b.trail ∧ (Block.frameEnd x0 x1 b).fresh = b.fresh := by
  intros; simp [Block.frameEnd]

@[simp] theorem Block.lineStart_frame : ∀ x0 x1 x2 b, (Block.lineStart x0 x1 x2 b).thermos = b.thermos ∧ (Block.lineStart x0 x1 x2 b).boot = b.boot
    ∧ (Block.lineStart x0 x1 x2 b).pins = b.pins ∧ (Block.lineStart x0 x1 x2 b).feat = b.feat ∧ (Block.lineStart x0 x1 x2 b).link = b.link
    ∧ (Block.lineStart x0 x1 x2 b).cfg = b.cfg ∧ (Block.lineStart x0 x1 x2 b).ep = b.ep ∧ (Block.lineStart x0 x1 x2 b).tim = b.tim
    ∧ (Block.lineStart x0 x1 x2 b).slots = b.slots ∧ (Block.lineStart x0 x1 x2 b).ctls = b.ctls ∧ (Block.lineStart x0 x1 x2 b).ifc = b.ifc
    ∧ (Block.lineStart x0 x1 x2 b).fox = b.fox ∧ (Block.lineStart x0 x1 x2 b).afu = b.afu ∧ (Block.lineStart x0 x1 x2 b).owl = b.owl
    ∧ (Block.lineStart x0 x1 x2 b).badger = b.badger ∧ (Block.lineStart x0 x1 x2 b).den = b.den ∧ (Block.lineStart x0 x1 x2 b).map = b.map
    ∧ (Block.lineStart x0 x1 x2 b).guests = b.guests ∧ (Block.lineStart x0 x1 x2 b).host = b.host ∧ (Block.lineStart x0 x1 x2 b).flt = b.flt
    ∧ (Block.lineStart x0 x1 x2 b).pwr = b.pwr ∧ (Block.lineStart x0 x1 x2 b).edge = b.edge ∧ (Block.lineStart x0 x1 x2 b).trail = b.trail
    ∧ (Block.lineStart x0 x1 x2 b).fresh = b.fresh := by
  intros; simp [Block.lineStart]

@[simp] theorem Block.takeLine_frame : ∀ x0 x1 x2 b, (Block.takeLine x0 x1 x2 b).thermos = b.thermos ∧ (Block.takeLine x0 x1 x2 b).boot = b.boot
    ∧ (Block.takeLine x0 x1 x2 b).pins = b.pins ∧ (Block.takeLine x0 x1 x2 b).feat = b.feat ∧ (Block.takeLine x0 x1 x2 b).link = b.link
    ∧ (Block.takeLine x0 x1 x2 b).cfg = b.cfg ∧ (Block.takeLine x0 x1 x2 b).ep = b.ep ∧ (Block.takeLine x0 x1 x2 b).tim = b.tim
    ∧ (Block.takeLine x0 x1 x2 b).slots = b.slots ∧ (Block.takeLine x0 x1 x2 b).ctls = b.ctls ∧ (Block.takeLine x0 x1 x2 b).ifc = b.ifc
    ∧ (Block.takeLine x0 x1 x2 b).fox = b.fox ∧ (Block.takeLine x0 x1 x2 b).afu = b.afu ∧ (Block.takeLine x0 x1 x2 b).owl = b.owl
    ∧ (Block.takeLine x0 x1 x2 b).badger = b.badger ∧ (Block.takeLine x0 x1 x2 b).den = b.den ∧ (Block.takeLine x0 x1 x2 b).map = b.map
    ∧ (Block.takeLine x0 x1 x2 b).guests = b.guests ∧ (Block.takeLine x0 x1 x2 b).pwr = b.pwr ∧ (Block.takeLine x0 x1 x2 b).edge = b.edge
    ∧ (Block.takeLine x0 x1 x2 b).trail = b.trail ∧ (Block.takeLine x0 x1 x2 b).fresh = b.fresh := by
  intros; unfold Block.takeLine; (repeat' split) <;> simp

@[simp] theorem Block.pixelLine_frame : ∀ x0 x1 b, (Block.pixelLine x0 x1 b).thermos = b.thermos ∧ (Block.pixelLine x0 x1 b).boot = b.boot
    ∧ (Block.pixelLine x0 x1 b).pins = b.pins ∧ (Block.pixelLine x0 x1 b).feat = b.feat ∧ (Block.pixelLine x0 x1 b).link = b.link
    ∧ (Block.pixelLine x0 x1 b).cfg = b.cfg ∧ (Block.pixelLine x0 x1 b).ep = b.ep ∧ (Block.pixelLine x0 x1 b).tim = b.tim
    ∧ (Block.pixelLine x0 x1 b).slots = b.slots ∧ (Block.pixelLine x0 x1 b).ctls = b.ctls ∧ (Block.pixelLine x0 x1 b).ifc = b.ifc
    ∧ (Block.pixelLine x0 x1 b).fox = b.fox ∧ (Block.pixelLine x0 x1 b).afu = b.afu ∧ (Block.pixelLine x0 x1 b).owl = b.owl
    ∧ (Block.pixelLine x0 x1 b).badger = b.badger ∧ (Block.pixelLine x0 x1 b).den = b.den ∧ (Block.pixelLine x0 x1 b).map = b.map
    ∧ (Block.pixelLine x0 x1 b).guests = b.guests ∧ (Block.pixelLine x0 x1 b).pwr = b.pwr ∧ (Block.pixelLine x0 x1 b).edge = b.edge
    ∧ (Block.pixelLine x0 x1 b).trail = b.trail ∧ (Block.pixelLine x0 x1 b).fresh = b.fresh := by
  intros; simp [Block.pixelLine]

@[simp] theorem Block.embed_frame : ∀ x0 x1 b, (Block.embed x0 x1 b).thermos = b.thermos ∧ (Block.embed x0 x1 b).boot = b.boot
    ∧ (Block.embed x0 x1 b).pins = b.pins ∧ (Block.embed x0 x1 b).feat = b.feat ∧ (Block.embed x0 x1 b).link = b.link
    ∧ (Block.embed x0 x1 b).cfg = b.cfg ∧ (Block.embed x0 x1 b).ep = b.ep ∧ (Block.embed x0 x1 b).tim = b.tim ∧ (Block.embed x0 x1 b).ports = b.ports
    ∧ (Block.embed x0 x1 b).slots = b.slots ∧ (Block.embed x0 x1 b).ctls = b.ctls ∧ (Block.embed x0 x1 b).ifc = b.ifc
    ∧ (Block.embed x0 x1 b).fox = b.fox ∧ (Block.embed x0 x1 b).afu = b.afu ∧ (Block.embed x0 x1 b).owl = b.owl
    ∧ (Block.embed x0 x1 b).badger = b.badger ∧ (Block.embed x0 x1 b).den = b.den ∧ (Block.embed x0 x1 b).map = b.map
    ∧ (Block.embed x0 x1 b).guests = b.guests ∧ (Block.embed x0 x1 b).pwr = b.pwr ∧ (Block.embed x0 x1 b).edge = b.edge
    ∧ (Block.embed x0 x1 b).trail = b.trail ∧ (Block.embed x0 x1 b).fresh = b.fresh := by
  intros; simp [Block.embed]

@[simp] theorem Block.embedData_frame : ∀ x0 x1 b, (Block.embedData x0 x1 b).thermos = b.thermos ∧ (Block.embedData x0 x1 b).boot = b.boot
    ∧ (Block.embedData x0 x1 b).pins = b.pins ∧ (Block.embedData x0 x1 b).feat = b.feat ∧ (Block.embedData x0 x1 b).link = b.link
    ∧ (Block.embedData x0 x1 b).cfg = b.cfg ∧ (Block.embedData x0 x1 b).ep = b.ep ∧ (Block.embedData x0 x1 b).tim = b.tim
    ∧ (Block.embedData x0 x1 b).slots = b.slots ∧ (Block.embedData x0 x1 b).ctls = b.ctls ∧ (Block.embedData x0 x1 b).ifc = b.ifc
    ∧ (Block.embedData x0 x1 b).fox = b.fox ∧ (Block.embedData x0 x1 b).afu = b.afu ∧ (Block.embedData x0 x1 b).owl = b.owl
    ∧ (Block.embedData x0 x1 b).badger = b.badger ∧ (Block.embedData x0 x1 b).den = b.den ∧ (Block.embedData x0 x1 b).map = b.map
    ∧ (Block.embedData x0 x1 b).guests = b.guests ∧ (Block.embedData x0 x1 b).pwr = b.pwr ∧ (Block.embedData x0 x1 b).edge = b.edge
    ∧ (Block.embedData x0 x1 b).trail = b.trail ∧ (Block.embedData x0 x1 b).fresh = b.fresh := by
  intros; simp [Block.embedData]

@[simp] theorem Block.anyLong_frame : ∀ x0 x1 b, (Block.anyLong x0 x1 b).thermos = b.thermos ∧ (Block.anyLong x0 x1 b).boot = b.boot
    ∧ (Block.anyLong x0 x1 b).pins = b.pins ∧ (Block.anyLong x0 x1 b).feat = b.feat ∧ (Block.anyLong x0 x1 b).link = b.link
    ∧ (Block.anyLong x0 x1 b).cfg = b.cfg ∧ (Block.anyLong x0 x1 b).ep = b.ep ∧ (Block.anyLong x0 x1 b).tim = b.tim
    ∧ (Block.anyLong x0 x1 b).slots = b.slots ∧ (Block.anyLong x0 x1 b).ctls = b.ctls ∧ (Block.anyLong x0 x1 b).ifc = b.ifc
    ∧ (Block.anyLong x0 x1 b).fox = b.fox ∧ (Block.anyLong x0 x1 b).afu = b.afu ∧ (Block.anyLong x0 x1 b).owl = b.owl
    ∧ (Block.anyLong x0 x1 b).badger = b.badger ∧ (Block.anyLong x0 x1 b).den = b.den ∧ (Block.anyLong x0 x1 b).map = b.map
    ∧ (Block.anyLong x0 x1 b).guests = b.guests ∧ (Block.anyLong x0 x1 b).pwr = b.pwr ∧ (Block.anyLong x0 x1 b).edge = b.edge
    ∧ (Block.anyLong x0 x1 b).trail = b.trail ∧ (Block.anyLong x0 x1 b).fresh = b.fresh := by
  intros; simp [Block.anyLong]

@[simp] theorem Block.longPacket_frame : ∀ x0 x1 b, (Block.longPacket x0 x1 b).thermos = b.thermos ∧ (Block.longPacket x0 x1 b).boot = b.boot
    ∧ (Block.longPacket x0 x1 b).pins = b.pins ∧ (Block.longPacket x0 x1 b).feat = b.feat ∧ (Block.longPacket x0 x1 b).link = b.link
    ∧ (Block.longPacket x0 x1 b).cfg = b.cfg ∧ (Block.longPacket x0 x1 b).ep = b.ep ∧ (Block.longPacket x0 x1 b).tim = b.tim
    ∧ (Block.longPacket x0 x1 b).slots = b.slots ∧ (Block.longPacket x0 x1 b).ctls = b.ctls ∧ (Block.longPacket x0 x1 b).ifc = b.ifc
    ∧ (Block.longPacket x0 x1 b).fox = b.fox ∧ (Block.longPacket x0 x1 b).afu = b.afu ∧ (Block.longPacket x0 x1 b).owl = b.owl
    ∧ (Block.longPacket x0 x1 b).badger = b.badger ∧ (Block.longPacket x0 x1 b).den = b.den ∧ (Block.longPacket x0 x1 b).map = b.map
    ∧ (Block.longPacket x0 x1 b).guests = b.guests ∧ (Block.longPacket x0 x1 b).pwr = b.pwr ∧ (Block.longPacket x0 x1 b).edge = b.edge
    ∧ (Block.longPacket x0 x1 b).trail = b.trail ∧ (Block.longPacket x0 x1 b).fresh = b.fresh := by
  intros; simp [Block.longPacket]

@[simp] theorem Block.embedPacket_frame : ∀ x0 x1 b, (Block.embedPacket x0 x1 b).thermos = b.thermos ∧ (Block.embedPacket x0 x1 b).boot = b.boot
    ∧ (Block.embedPacket x0 x1 b).pins = b.pins ∧ (Block.embedPacket x0 x1 b).feat = b.feat ∧ (Block.embedPacket x0 x1 b).link = b.link
    ∧ (Block.embedPacket x0 x1 b).cfg = b.cfg ∧ (Block.embedPacket x0 x1 b).ep = b.ep ∧ (Block.embedPacket x0 x1 b).tim = b.tim
    ∧ (Block.embedPacket x0 x1 b).slots = b.slots ∧ (Block.embedPacket x0 x1 b).ctls = b.ctls ∧ (Block.embedPacket x0 x1 b).ifc = b.ifc
    ∧ (Block.embedPacket x0 x1 b).fox = b.fox ∧ (Block.embedPacket x0 x1 b).afu = b.afu ∧ (Block.embedPacket x0 x1 b).owl = b.owl
    ∧ (Block.embedPacket x0 x1 b).badger = b.badger ∧ (Block.embedPacket x0 x1 b).den = b.den ∧ (Block.embedPacket x0 x1 b).map = b.map
    ∧ (Block.embedPacket x0 x1 b).guests = b.guests ∧ (Block.embedPacket x0 x1 b).pwr = b.pwr ∧ (Block.embedPacket x0 x1 b).edge = b.edge
    ∧ (Block.embedPacket x0 x1 b).trail = b.trail ∧ (Block.embedPacket x0 x1 b).fresh = b.fresh := by
  intros; simp [Block.embedPacket]

@[simp] theorem Block.phyError_frame : ∀ x0 b, (Block.phyError x0 b).thermos = b.thermos ∧ (Block.phyError x0 b).boot = b.boot
    ∧ (Block.phyError x0 b).pins = b.pins ∧ (Block.phyError x0 b).feat = b.feat ∧ (Block.phyError x0 b).link = b.link
    ∧ (Block.phyError x0 b).cfg = b.cfg ∧ (Block.phyError x0 b).ep = b.ep ∧ (Block.phyError x0 b).tim = b.tim ∧ (Block.phyError x0 b).slots = b.slots
    ∧ (Block.phyError x0 b).ctls = b.ctls ∧ (Block.phyError x0 b).ifc = b.ifc ∧ (Block.phyError x0 b).fox = b.fox ∧ (Block.phyError x0 b).afu = b.afu
    ∧ (Block.phyError x0 b).owl = b.owl ∧ (Block.phyError x0 b).badger = b.badger ∧ (Block.phyError x0 b).den = b.den
    ∧ (Block.phyError x0 b).map = b.map ∧ (Block.phyError x0 b).guests = b.guests ∧ (Block.phyError x0 b).host = b.host
    ∧ (Block.phyError x0 b).flt = b.flt ∧ (Block.phyError x0 b).pwr = b.pwr ∧ (Block.phyError x0 b).edge = b.edge
    ∧ (Block.phyError x0 b).trail = b.trail ∧ (Block.phyError x0 b).fresh = b.fresh := by
  intros; simp [Block.phyError]

@[simp] theorem Block.dataReady_frame : ∀ x0 b, (Block.dataReady x0 b).thermos = b.thermos ∧ (Block.dataReady x0 b).boot = b.boot
    ∧ (Block.dataReady x0 b).pins = b.pins ∧ (Block.dataReady x0 b).feat = b.feat ∧ (Block.dataReady x0 b).link = b.link
    ∧ (Block.dataReady x0 b).cfg = b.cfg ∧ (Block.dataReady x0 b).ep = b.ep ∧ (Block.dataReady x0 b).tim = b.tim
    ∧ (Block.dataReady x0 b).ports = b.ports ∧ (Block.dataReady x0 b).ctls = b.ctls ∧ (Block.dataReady x0 b).ifc = b.ifc
    ∧ (Block.dataReady x0 b).fox = b.fox ∧ (Block.dataReady x0 b).afu = b.afu ∧ (Block.dataReady x0 b).owl = b.owl
    ∧ (Block.dataReady x0 b).badger = b.badger ∧ (Block.dataReady x0 b).den = b.den ∧ (Block.dataReady x0 b).map = b.map
    ∧ (Block.dataReady x0 b).guests = b.guests ∧ (Block.dataReady x0 b).host = b.host ∧ (Block.dataReady x0 b).flt = b.flt
    ∧ (Block.dataReady x0 b).pwr = b.pwr ∧ (Block.dataReady x0 b).edge = b.edge ∧ (Block.dataReady x0 b).trail = b.trail
    ∧ (Block.dataReady x0 b).fresh = b.fresh := by
  intros; simp [Block.dataReady]

@[simp] theorem Block.irqEdge_frame : ∀ x0 x1 x2 b, (Block.irqEdge x0 x1 x2 b).thermos = b.thermos ∧ (Block.irqEdge x0 x1 x2 b).boot = b.boot
    ∧ (Block.irqEdge x0 x1 x2 b).pins = b.pins ∧ (Block.irqEdge x0 x1 x2 b).feat = b.feat ∧ (Block.irqEdge x0 x1 x2 b).link = b.link
    ∧ (Block.irqEdge x0 x1 x2 b).cfg = b.cfg ∧ (Block.irqEdge x0 x1 x2 b).ep = b.ep ∧ (Block.irqEdge x0 x1 x2 b).tim = b.tim
    ∧ (Block.irqEdge x0 x1 x2 b).ports = b.ports ∧ (Block.irqEdge x0 x1 x2 b).ctls = b.ctls ∧ (Block.irqEdge x0 x1 x2 b).ifc = b.ifc
    ∧ (Block.irqEdge x0 x1 x2 b).fox = b.fox ∧ (Block.irqEdge x0 x1 x2 b).afu = b.afu ∧ (Block.irqEdge x0 x1 x2 b).owl = b.owl
    ∧ (Block.irqEdge x0 x1 x2 b).badger = b.badger ∧ (Block.irqEdge x0 x1 x2 b).den = b.den ∧ (Block.irqEdge x0 x1 x2 b).map = b.map
    ∧ (Block.irqEdge x0 x1 x2 b).guests = b.guests ∧ (Block.irqEdge x0 x1 x2 b).host = b.host ∧ (Block.irqEdge x0 x1 x2 b).flt = b.flt
    ∧ (Block.irqEdge x0 x1 x2 b).pwr = b.pwr ∧ (Block.irqEdge x0 x1 x2 b).edge = b.edge ∧ (Block.irqEdge x0 x1 x2 b).trail = b.trail
    ∧ (Block.irqEdge x0 x1 x2 b).fresh = b.fresh := by
  intros; simp [Block.irqEdge]

@[simp] theorem Block.pollTimer_frame : ∀ x0 b, (Block.pollTimer x0 b).thermos = b.thermos ∧ (Block.pollTimer x0 b).boot = b.boot
    ∧ (Block.pollTimer x0 b).pins = b.pins ∧ (Block.pollTimer x0 b).feat = b.feat ∧ (Block.pollTimer x0 b).link = b.link
    ∧ (Block.pollTimer x0 b).cfg = b.cfg ∧ (Block.pollTimer x0 b).ep = b.ep ∧ (Block.pollTimer x0 b).tim = b.tim
    ∧ (Block.pollTimer x0 b).ports = b.ports ∧ (Block.pollTimer x0 b).ctls = b.ctls ∧ (Block.pollTimer x0 b).ifc = b.ifc
    ∧ (Block.pollTimer x0 b).fox = b.fox ∧ (Block.pollTimer x0 b).afu = b.afu ∧ (Block.pollTimer x0 b).owl = b.owl
    ∧ (Block.pollTimer x0 b).badger = b.badger ∧ (Block.pollTimer x0 b).den = b.den ∧ (Block.pollTimer x0 b).map = b.map
    ∧ (Block.pollTimer x0 b).guests = b.guests ∧ (Block.pollTimer x0 b).host = b.host ∧ (Block.pollTimer x0 b).flt = b.flt
    ∧ (Block.pollTimer x0 b).pwr = b.pwr ∧ (Block.pollTimer x0 b).edge = b.edge ∧ (Block.pollTimer x0 b).trail = b.trail
    ∧ (Block.pollTimer x0 b).fresh = b.fresh := by
  intros; simp [Block.pollTimer]

@[simp] theorem Block.readStart_frame : ∀ x0 b, (Block.readStart x0 b).thermos = b.thermos ∧ (Block.readStart x0 b).boot = b.boot
    ∧ (Block.readStart x0 b).pins = b.pins ∧ (Block.readStart x0 b).feat = b.feat ∧ (Block.readStart x0 b).link = b.link
    ∧ (Block.readStart x0 b).cfg = b.cfg ∧ (Block.readStart x0 b).ep = b.ep ∧ (Block.readStart x0 b).tim = b.tim
    ∧ (Block.readStart x0 b).ports = b.ports ∧ (Block.readStart x0 b).ifc = b.ifc ∧ (Block.readStart x0 b).fox = b.fox
    ∧ (Block.readStart x0 b).afu = b.afu ∧ (Block.readStart x0 b).owl = b.owl ∧ (Block.readStart x0 b).badger = b.badger
    ∧ (Block.readStart x0 b).den = b.den ∧ (Block.readStart x0 b).map = b.map ∧ (Block.readStart x0 b).guests = b.guests
    ∧ (Block.readStart x0 b).flt = b.flt ∧ (Block.readStart x0 b).pwr = b.pwr ∧ (Block.readStart x0 b).edge = b.edge
    ∧ (Block.readStart x0 b).trail = b.trail ∧ (Block.readStart x0 b).fresh = b.fresh := by
  intros; simp only [Block.readStart]; (repeat' (first | split | simp)) <;> simp

@[simp] theorem Block.readFailed_frame : ∀ x0 b, (Block.readFailed x0 b).thermos = b.thermos ∧ (Block.readFailed x0 b).boot = b.boot
    ∧ (Block.readFailed x0 b).pins = b.pins ∧ (Block.readFailed x0 b).feat = b.feat ∧ (Block.readFailed x0 b).link = b.link
    ∧ (Block.readFailed x0 b).cfg = b.cfg ∧ (Block.readFailed x0 b).ep = b.ep ∧ (Block.readFailed x0 b).tim = b.tim
    ∧ (Block.readFailed x0 b).ports = b.ports ∧ (Block.readFailed x0 b).ctls = b.ctls ∧ (Block.readFailed x0 b).ifc = b.ifc
    ∧ (Block.readFailed x0 b).fox = b.fox ∧ (Block.readFailed x0 b).afu = b.afu ∧ (Block.readFailed x0 b).owl = b.owl
    ∧ (Block.readFailed x0 b).badger = b.badger ∧ (Block.readFailed x0 b).den = b.den ∧ (Block.readFailed x0 b).map = b.map
    ∧ (Block.readFailed x0 b).guests = b.guests ∧ (Block.readFailed x0 b).pwr = b.pwr ∧ (Block.readFailed x0 b).edge = b.edge
    ∧ (Block.readFailed x0 b).trail = b.trail ∧ (Block.readFailed x0 b).fresh = b.fresh := by
  intros; simp [Block.readFailed]

@[simp] theorem Block.takeSample_frame : ∀ x0 x1 x2 b, (Block.takeSample x0 x1 x2 b).thermos = b.thermos
    ∧ (Block.takeSample x0 x1 x2 b).boot = b.boot ∧ (Block.takeSample x0 x1 x2 b).pins = b.pins ∧ (Block.takeSample x0 x1 x2 b).feat = b.feat
    ∧ (Block.takeSample x0 x1 x2 b).link = b.link ∧ (Block.takeSample x0 x1 x2 b).cfg = b.cfg ∧ (Block.takeSample x0 x1 x2 b).ep = b.ep
    ∧ (Block.takeSample x0 x1 x2 b).tim = b.tim ∧ (Block.takeSample x0 x1 x2 b).ports = b.ports ∧ (Block.takeSample x0 x1 x2 b).ctls = b.ctls
    ∧ (Block.takeSample x0 x1 x2 b).ifc = b.ifc ∧ (Block.takeSample x0 x1 x2 b).fox = b.fox ∧ (Block.takeSample x0 x1 x2 b).afu = b.afu
    ∧ (Block.takeSample x0 x1 x2 b).owl = b.owl ∧ (Block.takeSample x0 x1 x2 b).badger = b.badger ∧ (Block.takeSample x0 x1 x2 b).den = b.den
    ∧ (Block.takeSample x0 x1 x2 b).map = b.map ∧ (Block.takeSample x0 x1 x2 b).guests = b.guests ∧ (Block.takeSample x0 x1 x2 b).pwr = b.pwr
    ∧ (Block.takeSample x0 x1 x2 b).edge = b.edge ∧ (Block.takeSample x0 x1 x2 b).trail = b.trail ∧ (Block.takeSample x0 x1 x2 b).fresh = b.fresh := by
  intros; simp [Block.takeSample]

@[simp] theorem Block.readDone_frame : ∀ x0 x1 b, (Block.readDone x0 x1 b).thermos = b.thermos ∧ (Block.readDone x0 x1 b).boot = b.boot
    ∧ (Block.readDone x0 x1 b).pins = b.pins ∧ (Block.readDone x0 x1 b).feat = b.feat ∧ (Block.readDone x0 x1 b).link = b.link
    ∧ (Block.readDone x0 x1 b).cfg = b.cfg ∧ (Block.readDone x0 x1 b).ep = b.ep ∧ (Block.readDone x0 x1 b).tim = b.tim
    ∧ (Block.readDone x0 x1 b).ports = b.ports ∧ (Block.readDone x0 x1 b).ifc = b.ifc ∧ (Block.readDone x0 x1 b).fox = b.fox
    ∧ (Block.readDone x0 x1 b).afu = b.afu ∧ (Block.readDone x0 x1 b).owl = b.owl ∧ (Block.readDone x0 x1 b).badger = b.badger
    ∧ (Block.readDone x0 x1 b).den = b.den ∧ (Block.readDone x0 x1 b).map = b.map ∧ (Block.readDone x0 x1 b).guests = b.guests
    ∧ (Block.readDone x0 x1 b).pwr = b.pwr ∧ (Block.readDone x0 x1 b).edge = b.edge ∧ (Block.readDone x0 x1 b).trail = b.trail
    ∧ (Block.readDone x0 x1 b).fresh = b.fresh := by
  intros; unfold Block.readDone; (repeat' split) <;> simp

@[simp] theorem Block.groupTimer_frame : ∀ x0 b, (Block.groupTimer x0 b).thermos = b.thermos ∧ (Block.groupTimer x0 b).boot = b.boot
    ∧ (Block.groupTimer x0 b).pins = b.pins ∧ (Block.groupTimer x0 b).feat = b.feat ∧ (Block.groupTimer x0 b).link = b.link
    ∧ (Block.groupTimer x0 b).cfg = b.cfg ∧ (Block.groupTimer x0 b).ep = b.ep ∧ (Block.groupTimer x0 b).tim = b.tim
    ∧ (Block.groupTimer x0 b).ports = b.ports ∧ (Block.groupTimer x0 b).ctls = b.ctls ∧ (Block.groupTimer x0 b).ifc = b.ifc
    ∧ (Block.groupTimer x0 b).fox = b.fox ∧ (Block.groupTimer x0 b).afu = b.afu ∧ (Block.groupTimer x0 b).owl = b.owl
    ∧ (Block.groupTimer x0 b).badger = b.badger ∧ (Block.groupTimer x0 b).den = b.den ∧ (Block.groupTimer x0 b).map = b.map
    ∧ (Block.groupTimer x0 b).guests = b.guests ∧ (Block.groupTimer x0 b).pwr = b.pwr ∧ (Block.groupTimer x0 b).edge = b.edge
    ∧ (Block.groupTimer x0 b).trail = b.trail ∧ (Block.groupTimer x0 b).fresh = b.fresh := by
  intros; simp [Block.groupTimer]

@[simp] theorem Block.onChan_frame : ∀ x0 x1 b, (Block.onChan x0 x1 b).thermos = b.thermos ∧ (Block.onChan x0 x1 b).boot = b.boot
    ∧ (Block.onChan x0 x1 b).pins = b.pins ∧ (Block.onChan x0 x1 b).feat = b.feat ∧ (Block.onChan x0 x1 b).link = b.link
    ∧ (Block.onChan x0 x1 b).cfg = b.cfg ∧ (Block.onChan x0 x1 b).ep = b.ep ∧ (Block.onChan x0 x1 b).tim = b.tim
    ∧ (Block.onChan x0 x1 b).ports = b.ports ∧ (Block.onChan x0 x1 b).slots = b.slots ∧ (Block.onChan x0 x1 b).ctls = b.ctls
    ∧ (Block.onChan x0 x1 b).fox = b.fox ∧ (Block.onChan x0 x1 b).afu = b.afu ∧ (Block.onChan x0 x1 b).owl = b.owl
    ∧ (Block.onChan x0 x1 b).badger = b.badger ∧ (Block.onChan x0 x1 b).den = b.den ∧ (Block.onChan x0 x1 b).map = b.map
    ∧ (Block.onChan x0 x1 b).guests = b.guests ∧ (Block.onChan x0 x1 b).host = b.host ∧ (Block.onChan x0 x1 b).flt = b.flt
    ∧ (Block.onChan x0 x1 b).pwr = b.pwr ∧ (Block.onChan x0 x1 b).edge = b.edge ∧ (Block.onChan x0 x1 b).trail = b.trail
    ∧ (Block.onChan x0 x1 b).fresh = b.fresh := by
  intros; exact ⟨rfl, rfl, rfl, rfl, rfl, rfl, rfl, rfl, rfl, rfl, rfl, rfl, rfl, rfl, rfl, rfl, rfl, rfl, rfl, rfl, rfl, rfl, rfl, rfl⟩

@[simp] theorem Block.onGroup_frame : ∀ x0 x1 b, (Block.onGroup x0 x1 b).thermos = b.thermos ∧ (Block.onGroup x0 x1 b).boot = b.boot
    ∧ (Block.onGroup x0 x1 b).pins = b.pins ∧ (Block.onGroup x0 x1 b).feat = b.feat ∧ (Block.onGroup x0 x1 b).link = b.link
    ∧ (Block.onGroup x0 x1 b).cfg = b.cfg ∧ (Block.onGroup x0 x1 b).ep = b.ep ∧ (Block.onGroup x0 x1 b).tim = b.tim
    ∧ (Block.onGroup x0 x1 b).ports = b.ports ∧ (Block.onGroup x0 x1 b).slots = b.slots ∧ (Block.onGroup x0 x1 b).ctls = b.ctls
    ∧ (Block.onGroup x0 x1 b).fox = b.fox ∧ (Block.onGroup x0 x1 b).afu = b.afu ∧ (Block.onGroup x0 x1 b).owl = b.owl
    ∧ (Block.onGroup x0 x1 b).badger = b.badger ∧ (Block.onGroup x0 x1 b).den = b.den ∧ (Block.onGroup x0 x1 b).map = b.map
    ∧ (Block.onGroup x0 x1 b).guests = b.guests ∧ (Block.onGroup x0 x1 b).host = b.host ∧ (Block.onGroup x0 x1 b).flt = b.flt
    ∧ (Block.onGroup x0 x1 b).pwr = b.pwr ∧ (Block.onGroup x0 x1 b).edge = b.edge ∧ (Block.onGroup x0 x1 b).trail = b.trail
    ∧ (Block.onGroup x0 x1 b).fresh = b.fresh := by
  intros; exact ⟨rfl, rfl, rfl, rfl, rfl, rfl, rfl, rfl, rfl, rfl, rfl, rfl, rfl, rfl, rfl, rfl, rfl, rfl, rfl, rfl, rfl, rfl, rfl, rfl⟩

@[simp] theorem Block.chanCount_frame : ∀ x0 x1 b, (Block.chanCount x0 x1 b).thermos = b.thermos ∧ (Block.chanCount x0 x1 b).boot = b.boot
    ∧ (Block.chanCount x0 x1 b).pins = b.pins ∧ (Block.chanCount x0 x1 b).feat = b.feat ∧ (Block.chanCount x0 x1 b).link = b.link
    ∧ (Block.chanCount x0 x1 b).cfg = b.cfg ∧ (Block.chanCount x0 x1 b).ep = b.ep ∧ (Block.chanCount x0 x1 b).tim = b.tim
    ∧ (Block.chanCount x0 x1 b).ports = b.ports ∧ (Block.chanCount x0 x1 b).slots = b.slots ∧ (Block.chanCount x0 x1 b).ctls = b.ctls
    ∧ (Block.chanCount x0 x1 b).fox = b.fox ∧ (Block.chanCount x0 x1 b).afu = b.afu ∧ (Block.chanCount x0 x1 b).owl = b.owl
    ∧ (Block.chanCount x0 x1 b).badger = b.badger ∧ (Block.chanCount x0 x1 b).den = b.den ∧ (Block.chanCount x0 x1 b).map = b.map
    ∧ (Block.chanCount x0 x1 b).guests = b.guests ∧ (Block.chanCount x0 x1 b).host = b.host ∧ (Block.chanCount x0 x1 b).flt = b.flt
    ∧ (Block.chanCount x0 x1 b).pwr = b.pwr ∧ (Block.chanCount x0 x1 b).edge = b.edge ∧ (Block.chanCount x0 x1 b).trail = b.trail
    ∧ (Block.chanCount x0 x1 b).fresh = b.fresh := by
  intros; exact ⟨rfl, rfl, rfl, rfl, rfl, rfl, rfl, rfl, rfl, rfl, rfl, rfl, rfl, rfl, rfl, rfl, rfl, rfl, rfl, rfl, rfl, rfl, rfl, rfl⟩

@[simp] theorem Block.wakeUp_frame : ∀ x0 b, (Block.wakeUp x0 b).thermos = b.thermos ∧ (Block.wakeUp x0 b).boot = b.boot
    ∧ (Block.wakeUp x0 b).pins = b.pins ∧ (Block.wakeUp x0 b).feat = b.feat ∧ (Block.wakeUp x0 b).link = b.link ∧ (Block.wakeUp x0 b).ep = b.ep
    ∧ (Block.wakeUp x0 b).tim = b.tim ∧ (Block.wakeUp x0 b).ports = b.ports ∧ (Block.wakeUp x0 b).slots = b.slots ∧ (Block.wakeUp x0 b).ctls = b.ctls
    ∧ (Block.wakeUp x0 b).ifc = b.ifc ∧ (Block.wakeUp x0 b).fox = b.fox ∧ (Block.wakeUp x0 b).afu = b.afu ∧ (Block.wakeUp x0 b).owl = b.owl
    ∧ (Block.wakeUp x0 b).badger = b.badger ∧ (Block.wakeUp x0 b).den = b.den ∧ (Block.wakeUp x0 b).map = b.map
    ∧ (Block.wakeUp x0 b).guests = b.guests ∧ (Block.wakeUp x0 b).host = b.host ∧ (Block.wakeUp x0 b).flt = b.flt ∧ (Block.wakeUp x0 b).edge = b.edge
    ∧ (Block.wakeUp x0 b).trail = b.trail ∧ (Block.wakeUp x0 b).fresh = b.fresh := by
  intros; simp [Block.wakeUp]

@[simp] theorem Block.flushEvents_frame : ∀ x0 b, (Block.flushEvents x0 b).thermos = b.thermos ∧ (Block.flushEvents x0 b).boot = b.boot
    ∧ (Block.flushEvents x0 b).pins = b.pins ∧ (Block.flushEvents x0 b).feat = b.feat ∧ (Block.flushEvents x0 b).link = b.link
    ∧ (Block.flushEvents x0 b).cfg = b.cfg ∧ (Block.flushEvents x0 b).ep = b.ep ∧ (Block.flushEvents x0 b).tim = b.tim
    ∧ (Block.flushEvents x0 b).ports = b.ports ∧ (Block.flushEvents x0 b).slots = b.slots ∧ (Block.flushEvents x0 b).ctls = b.ctls
    ∧ (Block.flushEvents x0 b).fox = b.fox ∧ (Block.flushEvents x0 b).afu = b.afu ∧ (Block.flushEvents x0 b).owl = b.owl
    ∧ (Block.flushEvents x0 b).badger = b.badger ∧ (Block.flushEvents x0 b).den = b.den ∧ (Block.flushEvents x0 b).map = b.map
    ∧ (Block.flushEvents x0 b).guests = b.guests ∧ (Block.flushEvents x0 b).pwr = b.pwr ∧ (Block.flushEvents x0 b).edge = b.edge
    ∧ (Block.flushEvents x0 b).trail = b.trail ∧ (Block.flushEvents x0 b).fresh = b.fresh := by
  intros; simp [Block.flushEvents]

@[simp] theorem Block.ifcRelease_frame : ∀ b, (Block.ifcRelease b).thermos = b.thermos ∧ (Block.ifcRelease b).boot = b.boot
    ∧ (Block.ifcRelease b).pins = b.pins ∧ (Block.ifcRelease b).feat = b.feat ∧ (Block.ifcRelease b).link = b.link ∧ (Block.ifcRelease b).cfg = b.cfg
    ∧ (Block.ifcRelease b).ep = b.ep ∧ (Block.ifcRelease b).tim = b.tim ∧ (Block.ifcRelease b).ports = b.ports ∧ (Block.ifcRelease b).slots = b.slots
    ∧ (Block.ifcRelease b).ctls = b.ctls ∧ (Block.ifcRelease b).fox = b.fox ∧ (Block.ifcRelease b).afu = b.afu ∧ (Block.ifcRelease b).owl = b.owl
    ∧ (Block.ifcRelease b).badger = b.badger ∧ (Block.ifcRelease b).den = b.den ∧ (Block.ifcRelease b).map = b.map
    ∧ (Block.ifcRelease b).guests = b.guests ∧ (Block.ifcRelease b).flt = b.flt ∧ (Block.ifcRelease b).pwr = b.pwr
    ∧ (Block.ifcRelease b).edge = b.edge ∧ (Block.ifcRelease b).trail = b.trail ∧ (Block.ifcRelease b).fresh = b.fresh := by
  intros; simp [Block.ifcRelease]

@[simp] theorem Block.owlEnter_frame : ∀ b, (Block.owlEnter b).thermos = b.thermos ∧ (Block.owlEnter b).boot = b.boot
    ∧ (Block.owlEnter b).pins = b.pins ∧ (Block.owlEnter b).feat = b.feat ∧ (Block.owlEnter b).link = b.link ∧ (Block.owlEnter b).cfg = b.cfg
    ∧ (Block.owlEnter b).ep = b.ep ∧ (Block.owlEnter b).tim = b.tim ∧ (Block.owlEnter b).ports = b.ports ∧ (Block.owlEnter b).slots = b.slots
    ∧ (Block.owlEnter b).ctls = b.ctls ∧ (Block.owlEnter b).ifc = b.ifc ∧ (Block.owlEnter b).fox = b.fox ∧ (Block.owlEnter b).afu = b.afu
    ∧ (Block.owlEnter b).badger = b.badger ∧ (Block.owlEnter b).den = b.den ∧ (Block.owlEnter b).map = b.map ∧ (Block.owlEnter b).guests = b.guests
    ∧ (Block.owlEnter b).flt = b.flt ∧ (Block.owlEnter b).pwr = b.pwr ∧ (Block.owlEnter b).edge = b.edge ∧ (Block.owlEnter b).trail = b.trail
    ∧ (Block.owlEnter b).fresh = b.fresh := by
  intros; unfold Block.owlEnter; (repeat' split) <;> simp

@[simp] theorem Block.closeOut_frame : ∀ x0 b, (Block.closeOut x0 b).thermos = b.thermos ∧ (Block.closeOut x0 b).boot = b.boot
    ∧ (Block.closeOut x0 b).pins = b.pins ∧ (Block.closeOut x0 b).feat = b.feat ∧ (Block.closeOut x0 b).link = b.link
    ∧ (Block.closeOut x0 b).cfg = b.cfg ∧ (Block.closeOut x0 b).ep = b.ep ∧ (Block.closeOut x0 b).tim = b.tim ∧ (Block.closeOut x0 b).ports = b.ports
    ∧ (Block.closeOut x0 b).slots = b.slots ∧ (Block.closeOut x0 b).ctls = b.ctls ∧ (Block.closeOut x0 b).fox = b.fox
    ∧ (Block.closeOut x0 b).owl = b.owl ∧ (Block.closeOut x0 b).badger = b.badger ∧ (Block.closeOut x0 b).den = b.den
    ∧ (Block.closeOut x0 b).map = b.map ∧ (Block.closeOut x0 b).guests = b.guests ∧ (Block.closeOut x0 b).pwr = b.pwr
    ∧ (Block.closeOut x0 b).edge = b.edge ∧ (Block.closeOut x0 b).trail = b.trail ∧ (Block.closeOut x0 b).fresh = b.fresh := by
  intros; simp [Block.closeOut]

@[simp] theorem Block.putOut_frame : ∀ x0 x1 x2 b, (Block.putOut x0 x1 x2 b).thermos = b.thermos ∧ (Block.putOut x0 x1 x2 b).boot = b.boot
    ∧ (Block.putOut x0 x1 x2 b).pins = b.pins ∧ (Block.putOut x0 x1 x2 b).feat = b.feat ∧ (Block.putOut x0 x1 x2 b).link = b.link
    ∧ (Block.putOut x0 x1 x2 b).cfg = b.cfg ∧ (Block.putOut x0 x1 x2 b).ep = b.ep ∧ (Block.putOut x0 x1 x2 b).tim = b.tim
    ∧ (Block.putOut x0 x1 x2 b).ports = b.ports ∧ (Block.putOut x0 x1 x2 b).slots = b.slots ∧ (Block.putOut x0 x1 x2 b).ctls = b.ctls
    ∧ (Block.putOut x0 x1 x2 b).fox = b.fox ∧ (Block.putOut x0 x1 x2 b).owl = b.owl ∧ (Block.putOut x0 x1 x2 b).badger = b.badger
    ∧ (Block.putOut x0 x1 x2 b).den = b.den ∧ (Block.putOut x0 x1 x2 b).map = b.map ∧ (Block.putOut x0 x1 x2 b).guests = b.guests
    ∧ (Block.putOut x0 x1 x2 b).pwr = b.pwr ∧ (Block.putOut x0 x1 x2 b).edge = b.edge ∧ (Block.putOut x0 x1 x2 b).trail = b.trail
    ∧ (Block.putOut x0 x1 x2 b).fresh = b.fresh := by
  intros; simp [Block.putOut]

@[simp] theorem Block.evPin_frame : ∀ x0 x1 x2 b, (Block.evPin x0 x1 x2 b).thermos = b.thermos ∧ (Block.evPin x0 x1 x2 b).boot = b.boot
    ∧ (Block.evPin x0 x1 x2 b).feat = b.feat ∧ (Block.evPin x0 x1 x2 b).link = b.link ∧ (Block.evPin x0 x1 x2 b).cfg = b.cfg
    ∧ (Block.evPin x0 x1 x2 b).ep = b.ep ∧ (Block.evPin x0 x1 x2 b).tim = b.tim ∧ (Block.evPin x0 x1 x2 b).ports = b.ports
    ∧ (Block.evPin x0 x1 x2 b).slots = b.slots ∧ (Block.evPin x0 x1 x2 b).ctls = b.ctls ∧ (Block.evPin x0 x1 x2 b).fox = b.fox
    ∧ (Block.evPin x0 x1 x2 b).afu = b.afu ∧ (Block.evPin x0 x1 x2 b).owl = b.owl ∧ (Block.evPin x0 x1 x2 b).badger = b.badger
    ∧ (Block.evPin x0 x1 x2 b).den = b.den ∧ (Block.evPin x0 x1 x2 b).map = b.map ∧ (Block.evPin x0 x1 x2 b).guests = b.guests
    ∧ (Block.evPin x0 x1 x2 b).host = b.host ∧ (Block.evPin x0 x1 x2 b).flt = b.flt ∧ (Block.evPin x0 x1 x2 b).pwr = b.pwr
    ∧ (Block.evPin x0 x1 x2 b).edge = b.edge ∧ (Block.evPin x0 x1 x2 b).trail = b.trail ∧ (Block.evPin x0 x1 x2 b).fresh = b.fresh := by
  intros; simp [Block.evPin]

@[simp] theorem Block.evRun_frame : ∀ x0 x1 x2 b, (Block.evRun x0 x1 x2 b).thermos = b.thermos ∧ (Block.evRun x0 x1 x2 b).boot = b.boot
    ∧ (Block.evRun x0 x1 x2 b).feat = b.feat ∧ (Block.evRun x0 x1 x2 b).link = b.link ∧ (Block.evRun x0 x1 x2 b).ep = b.ep
    ∧ (Block.evRun x0 x1 x2 b).tim = b.tim ∧ (Block.evRun x0 x1 x2 b).ports = b.ports ∧ (Block.evRun x0 x1 x2 b).slots = b.slots
    ∧ (Block.evRun x0 x1 x2 b).ctls = b.ctls ∧ (Block.evRun x0 x1 x2 b).fox = b.fox ∧ (Block.evRun x0 x1 x2 b).afu = b.afu
    ∧ (Block.evRun x0 x1 x2 b).owl = b.owl ∧ (Block.evRun x0 x1 x2 b).badger = b.badger ∧ (Block.evRun x0 x1 x2 b).den = b.den
    ∧ (Block.evRun x0 x1 x2 b).map = b.map ∧ (Block.evRun x0 x1 x2 b).guests = b.guests ∧ (Block.evRun x0 x1 x2 b).host = b.host
    ∧ (Block.evRun x0 x1 x2 b).flt = b.flt ∧ (Block.evRun x0 x1 x2 b).edge = b.edge ∧ (Block.evRun x0 x1 x2 b).trail = b.trail
    ∧ (Block.evRun x0 x1 x2 b).fresh = b.fresh := by
  intros; simp [Block.evRun]

@[simp] theorem Block.evEnd_frame : ∀ x0 x1 x2 x3 x4 x5 x6 x7 b, (Block.evEnd x0 x1 x2 x3 x4 x5 x6 x7 b).thermos = b.thermos
    ∧ (Block.evEnd x0 x1 x2 x3 x4 x5 x6 x7 b).boot = b.boot ∧ (Block.evEnd x0 x1 x2 x3 x4 x5 x6 x7 b).feat = b.feat
    ∧ (Block.evEnd x0 x1 x2 x3 x4 x5 x6 x7 b).link = b.link ∧ (Block.evEnd x0 x1 x2 x3 x4 x5 x6 x7 b).cfg = b.cfg
    ∧ (Block.evEnd x0 x1 x2 x3 x4 x5 x6 x7 b).ep = b.ep ∧ (Block.evEnd x0 x1 x2 x3 x4 x5 x6 x7 b).tim = b.tim
    ∧ (Block.evEnd x0 x1 x2 x3 x4 x5 x6 x7 b).ports = b.ports ∧ (Block.evEnd x0 x1 x2 x3 x4 x5 x6 x7 b).slots = b.slots
    ∧ (Block.evEnd x0 x1 x2 x3 x4 x5 x6 x7 b).ctls = b.ctls ∧ (Block.evEnd x0 x1 x2 x3 x4 x5 x6 x7 b).fox = b.fox
    ∧ (Block.evEnd x0 x1 x2 x3 x4 x5 x6 x7 b).afu = b.afu ∧ (Block.evEnd x0 x1 x2 x3 x4 x5 x6 x7 b).owl = b.owl
    ∧ (Block.evEnd x0 x1 x2 x3 x4 x5 x6 x7 b).badger = b.badger ∧ (Block.evEnd x0 x1 x2 x3 x4 x5 x6 x7 b).den = b.den
    ∧ (Block.evEnd x0 x1 x2 x3 x4 x5 x6 x7 b).map = b.map ∧ (Block.evEnd x0 x1 x2 x3 x4 x5 x6 x7 b).guests = b.guests
    ∧ (Block.evEnd x0 x1 x2 x3 x4 x5 x6 x7 b).pwr = b.pwr ∧ (Block.evEnd x0 x1 x2 x3 x4 x5 x6 x7 b).edge = b.edge
    ∧ (Block.evEnd x0 x1 x2 x3 x4 x5 x6 x7 b).trail = b.trail := by
  intros; simp [Block.evEnd]

@[simp] theorem Block.evEndBoth_frame : ∀ x0 x1 x2 x3 b, (Block.evEndBoth x0 x1 x2 x3 b).thermos = b.thermos
    ∧ (Block.evEndBoth x0 x1 x2 x3 b).boot = b.boot ∧ (Block.evEndBoth x0 x1 x2 x3 b).feat = b.feat ∧ (Block.evEndBoth x0 x1 x2 x3 b).link = b.link
    ∧ (Block.evEndBoth x0 x1 x2 x3 b).cfg = b.cfg ∧ (Block.evEndBoth x0 x1 x2 x3 b).ep = b.ep ∧ (Block.evEndBoth x0 x1 x2 x3 b).tim = b.tim
    ∧ (Block.evEndBoth x0 x1 x2 x3 b).ports = b.ports ∧ (Block.evEndBoth x0 x1 x2 x3 b).slots = b.slots
    ∧ (Block.evEndBoth x0 x1 x2 x3 b).ctls = b.ctls ∧ (Block.evEndBoth x0 x1 x2 x3 b).fox = b.fox ∧ (Block.evEndBoth x0 x1 x2 x3 b).afu = b.afu
    ∧ (Block.evEndBoth x0 x1 x2 x3 b).owl = b.owl ∧ (Block.evEndBoth x0 x1 x2 x3 b).badger = b.badger ∧ (Block.evEndBoth x0 x1 x2 x3 b).den = b.den
    ∧ (Block.evEndBoth x0 x1 x2 x3 b).map = b.map ∧ (Block.evEndBoth x0 x1 x2 x3 b).guests = b.guests ∧ (Block.evEndBoth x0 x1 x2 x3 b).pwr = b.pwr
    ∧ (Block.evEndBoth x0 x1 x2 x3 b).edge = b.edge ∧ (Block.evEndBoth x0 x1 x2 x3 b).trail = b.trail := by
  intros; simp [Block.evEndBoth]

@[simp] theorem Block.ifcOutput_frame : ∀ x0 x1 x2 b, (Block.ifcOutput x0 x1 x2 b).thermos = b.thermos ∧ (Block.ifcOutput x0 x1 x2 b).boot = b.boot
    ∧ (Block.ifcOutput x0 x1 x2 b).feat = b.feat ∧ (Block.ifcOutput x0 x1 x2 b).link = b.link ∧ (Block.ifcOutput x0 x1 x2 b).ep = b.ep
    ∧ (Block.ifcOutput x0 x1 x2 b).tim = b.tim ∧ (Block.ifcOutput x0 x1 x2 b).ports = b.ports ∧ (Block.ifcOutput x0 x1 x2 b).slots = b.slots
    ∧ (Block.ifcOutput x0 x1 x2 b).ctls = b.ctls ∧ (Block.ifcOutput x0 x1 x2 b).fox = b.fox ∧ (Block.ifcOutput x0 x1 x2 b).owl = b.owl
    ∧ (Block.ifcOutput x0 x1 x2 b).badger = b.badger ∧ (Block.ifcOutput x0 x1 x2 b).den = b.den ∧ (Block.ifcOutput x0 x1 x2 b).map = b.map
    ∧ (Block.ifcOutput x0 x1 x2 b).guests = b.guests ∧ (Block.ifcOutput x0 x1 x2 b).edge = b.edge ∧ (Block.ifcOutput x0 x1 x2 b).trail = b.trail
    ∧ (Block.ifcOutput x0 x1 x2 b).fresh = b.fresh := by
  intros; simp [Block.ifcOutput]

@[simp] theorem Block.ifcEnter_frame : ∀ x0 x1 b, (Block.ifcEnter x0 x1 b).thermos = b.thermos ∧ (Block.ifcEnter x0 x1 b).boot = b.boot
    ∧ (Block.ifcEnter x0 x1 b).feat = b.feat ∧ (Block.ifcEnter x0 x1 b).link = b.link ∧ (Block.ifcEnter x0 x1 b).ep = b.ep
    ∧ (Block.ifcEnter x0 x1 b).tim = b.tim ∧ (Block.ifcEnter x0 x1 b).ports = b.ports ∧ (Block.ifcEnter x0 x1 b).slots = b.slots
    ∧ (Block.ifcEnter x0 x1 b).ctls = b.ctls ∧ (Block.ifcEnter x0 x1 b).fox = b.fox ∧ (Block.ifcEnter x0 x1 b).owl = b.owl
    ∧ (Block.ifcEnter x0 x1 b).badger = b.badger ∧ (Block.ifcEnter x0 x1 b).den = b.den ∧ (Block.ifcEnter x0 x1 b).map = b.map
    ∧ (Block.ifcEnter x0 x1 b).guests = b.guests ∧ (Block.ifcEnter x0 x1 b).edge = b.edge ∧ (Block.ifcEnter x0 x1 b).trail = b.trail
    ∧ (Block.ifcEnter x0 x1 b).fresh = b.fresh := by
  intros; simp [Block.ifcEnter]

@[simp] theorem Block.chanRestart_frame : ∀ x0 x1 b, (Block.chanRestart x0 x1 b).thermos = b.thermos ∧ (Block.chanRestart x0 x1 b).boot = b.boot
    ∧ (Block.chanRestart x0 x1 b).feat = b.feat ∧ (Block.chanRestart x0 x1 b).link = b.link ∧ (Block.chanRestart x0 x1 b).cfg = b.cfg
    ∧ (Block.chanRestart x0 x1 b).ep = b.ep ∧ (Block.chanRestart x0 x1 b).tim = b.tim ∧ (Block.chanRestart x0 x1 b).ports = b.ports
    ∧ (Block.chanRestart x0 x1 b).slots = b.slots ∧ (Block.chanRestart x0 x1 b).ctls = b.ctls ∧ (Block.chanRestart x0 x1 b).fox = b.fox
    ∧ (Block.chanRestart x0 x1 b).afu = b.afu ∧ (Block.chanRestart x0 x1 b).owl = b.owl ∧ (Block.chanRestart x0 x1 b).badger = b.badger
    ∧ (Block.chanRestart x0 x1 b).den = b.den ∧ (Block.chanRestart x0 x1 b).map = b.map ∧ (Block.chanRestart x0 x1 b).guests = b.guests
    ∧ (Block.chanRestart x0 x1 b).pwr = b.pwr ∧ (Block.chanRestart x0 x1 b).edge = b.edge ∧ (Block.chanRestart x0 x1 b).trail = b.trail := by
  intros; simp [Block.chanRestart]

@[simp] theorem Block.chanStop_frame : ∀ x0 x1 b, (Block.chanStop x0 x1 b).thermos = b.thermos ∧ (Block.chanStop x0 x1 b).boot = b.boot
    ∧ (Block.chanStop x0 x1 b).feat = b.feat ∧ (Block.chanStop x0 x1 b).link = b.link ∧ (Block.chanStop x0 x1 b).cfg = b.cfg
    ∧ (Block.chanStop x0 x1 b).ep = b.ep ∧ (Block.chanStop x0 x1 b).tim = b.tim ∧ (Block.chanStop x0 x1 b).ports = b.ports
    ∧ (Block.chanStop x0 x1 b).slots = b.slots ∧ (Block.chanStop x0 x1 b).ctls = b.ctls ∧ (Block.chanStop x0 x1 b).fox = b.fox
    ∧ (Block.chanStop x0 x1 b).afu = b.afu ∧ (Block.chanStop x0 x1 b).owl = b.owl ∧ (Block.chanStop x0 x1 b).badger = b.badger
    ∧ (Block.chanStop x0 x1 b).den = b.den ∧ (Block.chanStop x0 x1 b).map = b.map ∧ (Block.chanStop x0 x1 b).guests = b.guests
    ∧ (Block.chanStop x0 x1 b).pwr = b.pwr ∧ (Block.chanStop x0 x1 b).edge = b.edge ∧ (Block.chanStop x0 x1 b).trail = b.trail := by
  intros; simp [Block.chanStop]

@[simp] theorem Block.chanStart_frame : ∀ x0 b, (Block.chanStart x0 b).thermos = b.thermos ∧ (Block.chanStart x0 b).boot = b.boot
    ∧ (Block.chanStart x0 b).pins = b.pins ∧ (Block.chanStart x0 b).feat = b.feat ∧ (Block.chanStart x0 b).link = b.link
    ∧ (Block.chanStart x0 b).cfg = b.cfg ∧ (Block.chanStart x0 b).ep = b.ep ∧ (Block.chanStart x0 b).tim = b.tim
    ∧ (Block.chanStart x0 b).ports = b.ports ∧ (Block.chanStart x0 b).slots = b.slots ∧ (Block.chanStart x0 b).ctls = b.ctls
    ∧ (Block.chanStart x0 b).fox = b.fox ∧ (Block.chanStart x0 b).afu = b.afu ∧ (Block.chanStart x0 b).owl = b.owl
    ∧ (Block.chanStart x0 b).badger = b.badger ∧ (Block.chanStart x0 b).den = b.den ∧ (Block.chanStart x0 b).map = b.map
    ∧ (Block.chanStart x0 b).guests = b.guests ∧ (Block.chanStart x0 b).host = b.host ∧ (Block.chanStart x0 b).flt = b.flt
    ∧ (Block.chanStart x0 b).pwr = b.pwr ∧ (Block.chanStart x0 b).edge = b.edge ∧ (Block.chanStart x0 b).trail = b.trail
    ∧ (Block.chanStart x0 b).fresh = b.fresh := by
  intros; simp [Block.chanStart]

@[simp] theorem Block.syncAnchor_frame : ∀ x0 x1 x2 b, (Block.syncAnchor x0 x1 x2 b).thermos = b.thermos
    ∧ (Block.syncAnchor x0 x1 x2 b).boot = b.boot ∧ (Block.syncAnchor x0 x1 x2 b).pins = b.pins ∧ (Block.syncAnchor x0 x1 x2 b).feat = b.feat
    ∧ (Block.syncAnchor x0 x1 x2 b).link = b.link ∧ (Block.syncAnchor x0 x1 x2 b).cfg = b.cfg ∧ (Block.syncAnchor x0 x1 x2 b).ep = b.ep
    ∧ (Block.syncAnchor x0 x1 x2 b).tim = b.tim ∧ (Block.syncAnchor x0 x1 x2 b).ports = b.ports ∧ (Block.syncAnchor x0 x1 x2 b).slots = b.slots
    ∧ (Block.syncAnchor x0 x1 x2 b).ctls = b.ctls ∧ (Block.syncAnchor x0 x1 x2 b).fox = b.fox ∧ (Block.syncAnchor x0 x1 x2 b).afu = b.afu
    ∧ (Block.syncAnchor x0 x1 x2 b).owl = b.owl ∧ (Block.syncAnchor x0 x1 x2 b).badger = b.badger ∧ (Block.syncAnchor x0 x1 x2 b).den = b.den
    ∧ (Block.syncAnchor x0 x1 x2 b).map = b.map ∧ (Block.syncAnchor x0 x1 x2 b).guests = b.guests ∧ (Block.syncAnchor x0 x1 x2 b).host = b.host
    ∧ (Block.syncAnchor x0 x1 x2 b).flt = b.flt ∧ (Block.syncAnchor x0 x1 x2 b).pwr = b.pwr ∧ (Block.syncAnchor x0 x1 x2 b).edge = b.edge
    ∧ (Block.syncAnchor x0 x1 x2 b).trail = b.trail ∧ (Block.syncAnchor x0 x1 x2 b).fresh = b.fresh := by
  intros; exact ⟨rfl, rfl, rfl, rfl, rfl, rfl, rfl, rfl, rfl, rfl, rfl, rfl, rfl, rfl, rfl, rfl, rfl, rfl, rfl, rfl, rfl, rfl, rfl, rfl⟩

@[simp] theorem Block.ifcIslandRestart_frame : ∀ b, (Block.ifcIslandRestart b).thermos = b.thermos ∧ (Block.ifcIslandRestart b).boot = b.boot
    ∧ (Block.ifcIslandRestart b).feat = b.feat ∧ (Block.ifcIslandRestart b).link = b.link ∧ (Block.ifcIslandRestart b).cfg = b.cfg
    ∧ (Block.ifcIslandRestart b).ep = b.ep ∧ (Block.ifcIslandRestart b).tim = b.tim ∧ (Block.ifcIslandRestart b).ports = b.ports
    ∧ (Block.ifcIslandRestart b).slots = b.slots ∧ (Block.ifcIslandRestart b).ctls = b.ctls ∧ (Block.ifcIslandRestart b).fox = b.fox
    ∧ (Block.ifcIslandRestart b).afu = b.afu ∧ (Block.ifcIslandRestart b).owl = b.owl ∧ (Block.ifcIslandRestart b).badger = b.badger
    ∧ (Block.ifcIslandRestart b).den = b.den ∧ (Block.ifcIslandRestart b).map = b.map ∧ (Block.ifcIslandRestart b).guests = b.guests
    ∧ (Block.ifcIslandRestart b).pwr = b.pwr ∧ (Block.ifcIslandRestart b).edge = b.edge ∧ (Block.ifcIslandRestart b).trail = b.trail := by
  intros; simp [Block.ifcIslandRestart]

@[simp] theorem Block.releaseFlash_frame : ∀ b, (Block.releaseFlash b).thermos = b.thermos ∧ (Block.releaseFlash b).pins = b.pins
    ∧ (Block.releaseFlash b).feat = b.feat ∧ (Block.releaseFlash b).link = b.link ∧ (Block.releaseFlash b).cfg = b.cfg
    ∧ (Block.releaseFlash b).ep = b.ep ∧ (Block.releaseFlash b).tim = b.tim ∧ (Block.releaseFlash b).ports = b.ports
    ∧ (Block.releaseFlash b).slots = b.slots ∧ (Block.releaseFlash b).ctls = b.ctls ∧ (Block.releaseFlash b).ifc = b.ifc
    ∧ (Block.releaseFlash b).fox = b.fox ∧ (Block.releaseFlash b).afu = b.afu ∧ (Block.releaseFlash b).owl = b.owl
    ∧ (Block.releaseFlash b).badger = b.badger ∧ (Block.releaseFlash b).den = b.den ∧ (Block.releaseFlash b).map = b.map
    ∧ (Block.releaseFlash b).guests = b.guests ∧ (Block.releaseFlash b).flt = b.flt ∧ (Block.releaseFlash b).pwr = b.pwr
    ∧ (Block.releaseFlash b).edge = b.edge ∧ (Block.releaseFlash b).trail = b.trail ∧ (Block.releaseFlash b).fresh = b.fresh := by
  intros; simp [Block.releaseFlash]

@[simp] theorem Block.reportFence_frame : ∀ x0 x1 x2 b, (Block.reportFence x0 x1 x2 b).thermos = b.thermos
    ∧ (Block.reportFence x0 x1 x2 b).boot = b.boot ∧ (Block.reportFence x0 x1 x2 b).pins = b.pins ∧ (Block.reportFence x0 x1 x2 b).feat = b.feat
    ∧ (Block.reportFence x0 x1 x2 b).link = b.link ∧ (Block.reportFence x0 x1 x2 b).cfg = b.cfg ∧ (Block.reportFence x0 x1 x2 b).ep = b.ep
    ∧ (Block.reportFence x0 x1 x2 b).tim = b.tim ∧ (Block.reportFence x0 x1 x2 b).ports = b.ports ∧ (Block.reportFence x0 x1 x2 b).slots = b.slots
    ∧ (Block.reportFence x0 x1 x2 b).ctls = b.ctls ∧ (Block.reportFence x0 x1 x2 b).ifc = b.ifc ∧ (Block.reportFence x0 x1 x2 b).fox = b.fox
    ∧ (Block.reportFence x0 x1 x2 b).afu = b.afu ∧ (Block.reportFence x0 x1 x2 b).owl = b.owl ∧ (Block.reportFence x0 x1 x2 b).badger = b.badger
    ∧ (Block.reportFence x0 x1 x2 b).den = b.den ∧ (Block.reportFence x0 x1 x2 b).map = b.map ∧ (Block.reportFence x0 x1 x2 b).guests = b.guests
    ∧ (Block.reportFence x0 x1 x2 b).pwr = b.pwr ∧ (Block.reportFence x0 x1 x2 b).edge = b.edge ∧ (Block.reportFence x0 x1 x2 b).trail = b.trail
    ∧ (Block.reportFence x0 x1 x2 b).fresh = b.fresh := by
  intros; simp [Block.reportFence]

@[simp] theorem Block.restartCmd_frame : ∀ x0 x1 b, (Block.restartCmd x0 x1 b).thermos = b.thermos ∧ (Block.restartCmd x0 x1 b).boot = b.boot
    ∧ (Block.restartCmd x0 x1 b).pins = b.pins ∧ (Block.restartCmd x0 x1 b).feat = b.feat ∧ (Block.restartCmd x0 x1 b).link = b.link
    ∧ (Block.restartCmd x0 x1 b).ep = b.ep ∧ (Block.restartCmd x0 x1 b).tim = b.tim ∧ (Block.restartCmd x0 x1 b).ports = b.ports
    ∧ (Block.restartCmd x0 x1 b).slots = b.slots ∧ (Block.restartCmd x0 x1 b).ctls = b.ctls ∧ (Block.restartCmd x0 x1 b).ifc = b.ifc
    ∧ (Block.restartCmd x0 x1 b).fox = b.fox ∧ (Block.restartCmd x0 x1 b).afu = b.afu ∧ (Block.restartCmd x0 x1 b).den = b.den
    ∧ (Block.restartCmd x0 x1 b).map = b.map ∧ (Block.restartCmd x0 x1 b).guests = b.guests ∧ (Block.restartCmd x0 x1 b).flt = b.flt
    ∧ (Block.restartCmd x0 x1 b).pwr = b.pwr ∧ (Block.restartCmd x0 x1 b).edge = b.edge ∧ (Block.restartCmd x0 x1 b).trail = b.trail
    ∧ (Block.restartCmd x0 x1 b).fresh = b.fresh := by
  intros; simp [Block.restartCmd]

@[simp] theorem Block.switchPair_frame : ∀ x0 x1 b, (Block.switchPair x0 x1 b).thermos = b.thermos ∧ (Block.switchPair x0 x1 b).boot = b.boot
    ∧ (Block.switchPair x0 x1 b).pins = b.pins ∧ (Block.switchPair x0 x1 b).feat = b.feat ∧ (Block.switchPair x0 x1 b).link = b.link
    ∧ (Block.switchPair x0 x1 b).ep = b.ep ∧ (Block.switchPair x0 x1 b).tim = b.tim ∧ (Block.switchPair x0 x1 b).ports = b.ports
    ∧ (Block.switchPair x0 x1 b).slots = b.slots ∧ (Block.switchPair x0 x1 b).ctls = b.ctls ∧ (Block.switchPair x0 x1 b).ifc = b.ifc
    ∧ (Block.switchPair x0 x1 b).fox = b.fox ∧ (Block.switchPair x0 x1 b).afu = b.afu ∧ (Block.switchPair x0 x1 b).den = b.den
    ∧ (Block.switchPair x0 x1 b).map = b.map ∧ (Block.switchPair x0 x1 b).guests = b.guests ∧ (Block.switchPair x0 x1 b).pwr = b.pwr
    ∧ (Block.switchPair x0 x1 b).edge = b.edge ∧ (Block.switchPair x0 x1 b).trail = b.trail ∧ (Block.switchPair x0 x1 b).fresh = b.fresh := by
  intros; simp [Block.switchPair]

@[simp] theorem Block.restartLoss_frame : ∀ x0 b, (Block.restartLoss x0 b).thermos = b.thermos ∧ (Block.restartLoss x0 b).boot = b.boot
    ∧ (Block.restartLoss x0 b).cfg = b.cfg ∧ (Block.restartLoss x0 b).owl = b.owl ∧ (Block.restartLoss x0 b).badger = b.badger
    ∧ (Block.restartLoss x0 b).map = b.map ∧ (Block.restartLoss x0 b).guests = b.guests ∧ (Block.restartLoss x0 b).pwr = b.pwr
    ∧ (Block.restartLoss x0 b).edge = b.edge := by
  intros; unfold Block.restartLoss; (repeat' split) <;> simp

@[simp] theorem Block.reportMem_frame : ∀ x0 x1 b, (Block.reportMem x0 x1 b).thermos = b.thermos ∧ (Block.reportMem x0 x1 b).boot = b.boot
    ∧ (Block.reportMem x0 x1 b).pins = b.pins ∧ (Block.reportMem x0 x1 b).feat = b.feat ∧ (Block.reportMem x0 x1 b).link = b.link
    ∧ (Block.reportMem x0 x1 b).cfg = b.cfg ∧ (Block.reportMem x0 x1 b).ep = b.ep ∧ (Block.reportMem x0 x1 b).tim = b.tim
    ∧ (Block.reportMem x0 x1 b).ports = b.ports ∧ (Block.reportMem x0 x1 b).slots = b.slots ∧ (Block.reportMem x0 x1 b).ctls = b.ctls
    ∧ (Block.reportMem x0 x1 b).ifc = b.ifc ∧ (Block.reportMem x0 x1 b).fox = b.fox ∧ (Block.reportMem x0 x1 b).afu = b.afu
    ∧ (Block.reportMem x0 x1 b).owl = b.owl ∧ (Block.reportMem x0 x1 b).badger = b.badger ∧ (Block.reportMem x0 x1 b).map = b.map
    ∧ (Block.reportMem x0 x1 b).guests = b.guests ∧ (Block.reportMem x0 x1 b).pwr = b.pwr ∧ (Block.reportMem x0 x1 b).edge = b.edge
    ∧ (Block.reportMem x0 x1 b).trail = b.trail ∧ (Block.reportMem x0 x1 b).fresh = b.fresh := by
  intros; simp [Block.reportMem]

@[simp] theorem Block.fixTc_frame : ∀ b, (Block.fixTc b).thermos = b.thermos ∧ (Block.fixTc b).boot = b.boot ∧ (Block.fixTc b).pins = b.pins
    ∧ (Block.fixTc b).feat = b.feat ∧ (Block.fixTc b).link = b.link ∧ (Block.fixTc b).cfg = b.cfg ∧ (Block.fixTc b).tim = b.tim
    ∧ (Block.fixTc b).ports = b.ports ∧ (Block.fixTc b).slots = b.slots ∧ (Block.fixTc b).ctls = b.ctls ∧ (Block.fixTc b).ifc = b.ifc
    ∧ (Block.fixTc b).fox = b.fox ∧ (Block.fixTc b).owl = b.owl ∧ (Block.fixTc b).badger = b.badger ∧ (Block.fixTc b).den = b.den
    ∧ (Block.fixTc b).map = b.map ∧ (Block.fixTc b).guests = b.guests ∧ (Block.fixTc b).host = b.host ∧ (Block.fixTc b).flt = b.flt
    ∧ (Block.fixTc b).pwr = b.pwr ∧ (Block.fixTc b).edge = b.edge ∧ (Block.fixTc b).trail = b.trail := by
  intros; simp [Block.fixTc]

@[simp] theorem Block.limitEvent_frame : ∀ x0 x1 x2 x3 b, (Block.limitEvent x0 x1 x2 x3 b).thermos = b.thermos
    ∧ (Block.limitEvent x0 x1 x2 x3 b).boot = b.boot ∧ (Block.limitEvent x0 x1 x2 x3 b).pins = b.pins
    ∧ (Block.limitEvent x0 x1 x2 x3 b).feat = b.feat ∧ (Block.limitEvent x0 x1 x2 x3 b).link = b.link ∧ (Block.limitEvent x0 x1 x2 x3 b).cfg = b.cfg
    ∧ (Block.limitEvent x0 x1 x2 x3 b).tim = b.tim ∧ (Block.limitEvent x0 x1 x2 x3 b).ports = b.ports
    ∧ (Block.limitEvent x0 x1 x2 x3 b).slots = b.slots ∧ (Block.limitEvent x0 x1 x2 x3 b).ctls = b.ctls
    ∧ (Block.limitEvent x0 x1 x2 x3 b).ifc = b.ifc ∧ (Block.limitEvent x0 x1 x2 x3 b).fox = b.fox ∧ (Block.limitEvent x0 x1 x2 x3 b).afu = b.afu
    ∧ (Block.limitEvent x0 x1 x2 x3 b).owl = b.owl ∧ (Block.limitEvent x0 x1 x2 x3 b).badger = b.badger
    ∧ (Block.limitEvent x0 x1 x2 x3 b).den = b.den ∧ (Block.limitEvent x0 x1 x2 x3 b).map = b.map
    ∧ (Block.limitEvent x0 x1 x2 x3 b).guests = b.guests ∧ (Block.limitEvent x0 x1 x2 x3 b).pwr = b.pwr
    ∧ (Block.limitEvent x0 x1 x2 x3 b).edge = b.edge ∧ (Block.limitEvent x0 x1 x2 x3 b).trail = b.trail
    ∧ (Block.limitEvent x0 x1 x2 x3 b).fresh = b.fresh := by
  intros; simp [Block.limitEvent]

@[simp] theorem Block.rejectPrior_frame : ∀ x0 x1 x2 x3 b, (Block.rejectPrior x0 x1 x2 x3 b).thermos = b.thermos
    ∧ (Block.rejectPrior x0 x1 x2 x3 b).boot = b.boot ∧ (Block.rejectPrior x0 x1 x2 x3 b).pins = b.pins
    ∧ (Block.rejectPrior x0 x1 x2 x3 b).feat = b.feat ∧ (Block.rejectPrior x0 x1 x2 x3 b).link = b.link
    ∧ (Block.rejectPrior x0 x1 x2 x3 b).cfg = b.cfg ∧ (Block.rejectPrior x0 x1 x2 x3 b).ep = b.ep ∧ (Block.rejectPrior x0 x1 x2 x3 b).tim = b.tim
    ∧ (Block.rejectPrior x0 x1 x2 x3 b).ports = b.ports ∧ (Block.rejectPrior x0 x1 x2 x3 b).slots = b.slots
    ∧ (Block.rejectPrior x0 x1 x2 x3 b).ctls = b.ctls ∧ (Block.rejectPrior x0 x1 x2 x3 b).ifc = b.ifc ∧ (Block.rejectPrior x0 x1 x2 x3 b).fox = b.fox
    ∧ (Block.rejectPrior x0 x1 x2 x3 b).owl = b.owl ∧ (Block.rejectPrior x0 x1 x2 x3 b).badger = b.badger
    ∧ (Block.rejectPrior x0 x1 x2 x3 b).den = b.den ∧ (Block.rejectPrior x0 x1 x2 x3 b).map = b.map
    ∧ (Block.rejectPrior x0 x1 x2 x3 b).guests = b.guests ∧ (Block.rejectPrior x0 x1 x2 x3 b).pwr = b.pwr
    ∧ (Block.rejectPrior x0 x1 x2 x3 b).edge = b.edge ∧ (Block.rejectPrior x0 x1 x2 x3 b).trail = b.trail
    ∧ (Block.rejectPrior x0 x1 x2 x3 b).fresh = b.fresh := by
  intros; simp [Block.rejectPrior]

@[simp] theorem Block.owlCount_frame : ∀ x0 x1 x2 b, (Block.owlCount x0 x1 x2 b).thermos = b.thermos ∧ (Block.owlCount x0 x1 x2 b).boot = b.boot
    ∧ (Block.owlCount x0 x1 x2 b).pins = b.pins ∧ (Block.owlCount x0 x1 x2 b).feat = b.feat ∧ (Block.owlCount x0 x1 x2 b).link = b.link
    ∧ (Block.owlCount x0 x1 x2 b).cfg = b.cfg ∧ (Block.owlCount x0 x1 x2 b).ep = b.ep ∧ (Block.owlCount x0 x1 x2 b).tim = b.tim
    ∧ (Block.owlCount x0 x1 x2 b).ports = b.ports ∧ (Block.owlCount x0 x1 x2 b).slots = b.slots ∧ (Block.owlCount x0 x1 x2 b).ctls = b.ctls
    ∧ (Block.owlCount x0 x1 x2 b).ifc = b.ifc ∧ (Block.owlCount x0 x1 x2 b).fox = b.fox ∧ (Block.owlCount x0 x1 x2 b).afu = b.afu
    ∧ (Block.owlCount x0 x1 x2 b).badger = b.badger ∧ (Block.owlCount x0 x1 x2 b).den = b.den ∧ (Block.owlCount x0 x1 x2 b).map = b.map
    ∧ (Block.owlCount x0 x1 x2 b).guests = b.guests ∧ (Block.owlCount x0 x1 x2 b).host = b.host ∧ (Block.owlCount x0 x1 x2 b).flt = b.flt
    ∧ (Block.owlCount x0 x1 x2 b).pwr = b.pwr ∧ (Block.owlCount x0 x1 x2 b).edge = b.edge ∧ (Block.owlCount x0 x1 x2 b).trail = b.trail
    ∧ (Block.owlCount x0 x1 x2 b).fresh = b.fresh := by
  intros; exact ⟨rfl, rfl, rfl, rfl, rfl, rfl, rfl, rfl, rfl, rfl, rfl, rfl, rfl, rfl, rfl, rfl, rfl, rfl, rfl, rfl, rfl, rfl, rfl, rfl⟩

@[simp] theorem Block.countRecs_frame : ∀ x0 x1 b, (Block.countRecs x0 x1 b).thermos = b.thermos ∧ (Block.countRecs x0 x1 b).boot = b.boot
    ∧ (Block.countRecs x0 x1 b).pins = b.pins ∧ (Block.countRecs x0 x1 b).feat = b.feat ∧ (Block.countRecs x0 x1 b).link = b.link
    ∧ (Block.countRecs x0 x1 b).cfg = b.cfg ∧ (Block.countRecs x0 x1 b).ep = b.ep ∧ (Block.countRecs x0 x1 b).tim = b.tim
    ∧ (Block.countRecs x0 x1 b).ports = b.ports ∧ (Block.countRecs x0 x1 b).slots = b.slots ∧ (Block.countRecs x0 x1 b).ctls = b.ctls
    ∧ (Block.countRecs x0 x1 b).ifc = b.ifc ∧ (Block.countRecs x0 x1 b).fox = b.fox ∧ (Block.countRecs x0 x1 b).afu = b.afu
    ∧ (Block.countRecs x0 x1 b).badger = b.badger ∧ (Block.countRecs x0 x1 b).den = b.den ∧ (Block.countRecs x0 x1 b).map = b.map
    ∧ (Block.countRecs x0 x1 b).guests = b.guests ∧ (Block.countRecs x0 x1 b).host = b.host ∧ (Block.countRecs x0 x1 b).flt = b.flt
    ∧ (Block.countRecs x0 x1 b).pwr = b.pwr ∧ (Block.countRecs x0 x1 b).edge = b.edge ∧ (Block.countRecs x0 x1 b).trail = b.trail
    ∧ (Block.countRecs x0 x1 b).fresh = b.fresh := by
  intros; exact ⟨rfl, rfl, rfl, rfl, rfl, rfl, rfl, rfl, rfl, rfl, rfl, rfl, rfl, rfl, rfl, rfl, rfl, rfl, rfl, rfl, rfl, rfl, rfl, rfl⟩

@[simp] theorem Block.engineScore_frame_fst : ∀ x0 x1 x2 x3 b, (Block.engineScore x0 x1 x2 x3 b).1.thermos = b.thermos
    ∧ (Block.engineScore x0 x1 x2 x3 b).1.boot = b.boot ∧ (Block.engineScore x0 x1 x2 x3 b).1.pins = b.pins
    ∧ (Block.engineScore x0 x1 x2 x3 b).1.feat = b.feat ∧ (Block.engineScore x0 x1 x2 x3 b).1.link = b.link
    ∧ (Block.engineScore x0 x1 x2 x3 b).1.cfg = b.cfg ∧ (Block.engineScore x0 x1 x2 x3 b).1.ep = b.ep
    ∧ (Block.engineScore x0 x1 x2 x3 b).1.tim = b.tim ∧ (Block.engineScore x0 x1 x2 x3 b).1.ports = b.ports
    ∧ (Block.engineScore x0 x1 x2 x3 b).1.slots = b.slots ∧ (Block.engineScore x0 x1 x2 x3 b).1.ctls = b.ctls
    ∧ (Block.engineScore x0 x1 x2 x3 b).1.ifc = b.ifc ∧ (Block.engineScore x0 x1 x2 x3 b).1.fox = b.fox
    ∧ (Block.engineScore x0 x1 x2 x3 b).1.afu = b.afu ∧ (Block.engineScore x0 x1 x2 x3 b).1.badger = b.badger
    ∧ (Block.engineScore x0 x1 x2 x3 b).1.den = b.den ∧ (Block.engineScore x0 x1 x2 x3 b).1.map = b.map
    ∧ (Block.engineScore x0 x1 x2 x3 b).1.guests = b.guests ∧ (Block.engineScore x0 x1 x2 x3 b).1.pwr = b.pwr
    ∧ (Block.engineScore x0 x1 x2 x3 b).1.edge = b.edge ∧ (Block.engineScore x0 x1 x2 x3 b).1.trail = b.trail
    ∧ (Block.engineScore x0 x1 x2 x3 b).1.fresh = b.fresh := by
  intros; unfold Block.engineScore; (repeat' split) <;> simp

@[simp] theorem Block.skinCheck_frame : ∀ b, (Block.skinCheck b).thermos = b.thermos ∧ (Block.skinCheck b).boot = b.boot
    ∧ (Block.skinCheck b).pins = b.pins ∧ (Block.skinCheck b).feat = b.feat ∧ (Block.skinCheck b).link = b.link ∧ (Block.skinCheck b).cfg = b.cfg
    ∧ (Block.skinCheck b).ep = b.ep ∧ (Block.skinCheck b).tim = b.tim ∧ (Block.skinCheck b).ports = b.ports ∧ (Block.skinCheck b).slots = b.slots
    ∧ (Block.skinCheck b).ctls = b.ctls ∧ (Block.skinCheck b).ifc = b.ifc ∧ (Block.skinCheck b).fox = b.fox ∧ (Block.skinCheck b).afu = b.afu
    ∧ (Block.skinCheck b).owl = b.owl ∧ (Block.skinCheck b).badger = b.badger ∧ (Block.skinCheck b).den = b.den ∧ (Block.skinCheck b).map = b.map
    ∧ (Block.skinCheck b).guests = b.guests ∧ (Block.skinCheck b).edge = b.edge ∧ (Block.skinCheck b).trail = b.trail
    ∧ (Block.skinCheck b).fresh = b.fresh := by
  intros; simp [Block.skinCheck]

@[simp] theorem Block.skinBack_frame : ∀ x0 x1 b, (Block.skinBack x0 x1 b).thermos = b.thermos ∧ (Block.skinBack x0 x1 b).boot = b.boot
    ∧ (Block.skinBack x0 x1 b).pins = b.pins ∧ (Block.skinBack x0 x1 b).feat = b.feat ∧ (Block.skinBack x0 x1 b).link = b.link
    ∧ (Block.skinBack x0 x1 b).cfg = b.cfg ∧ (Block.skinBack x0 x1 b).ep = b.ep ∧ (Block.skinBack x0 x1 b).tim = b.tim
    ∧ (Block.skinBack x0 x1 b).ports = b.ports ∧ (Block.skinBack x0 x1 b).slots = b.slots ∧ (Block.skinBack x0 x1 b).ctls = b.ctls
    ∧ (Block.skinBack x0 x1 b).ifc = b.ifc ∧ (Block.skinBack x0 x1 b).fox = b.fox ∧ (Block.skinBack x0 x1 b).afu = b.afu
    ∧ (Block.skinBack x0 x1 b).owl = b.owl ∧ (Block.skinBack x0 x1 b).badger = b.badger ∧ (Block.skinBack x0 x1 b).den = b.den
    ∧ (Block.skinBack x0 x1 b).map = b.map ∧ (Block.skinBack x0 x1 b).guests = b.guests ∧ (Block.skinBack x0 x1 b).edge = b.edge
    ∧ (Block.skinBack x0 x1 b).trail = b.trail ∧ (Block.skinBack x0 x1 b).fresh = b.fresh := by
  intros; simp [Block.skinBack]

@[simp] theorem Block.thermalStep_frame : ∀ b, (Block.thermalStep b).thermos = b.thermos ∧ (Block.thermalStep b).boot = b.boot
    ∧ (Block.thermalStep b).pins = b.pins ∧ (Block.thermalStep b).feat = b.feat ∧ (Block.thermalStep b).link = b.link
    ∧ (Block.thermalStep b).cfg = b.cfg ∧ (Block.thermalStep b).ep = b.ep ∧ (Block.thermalStep b).tim = b.tim ∧ (Block.thermalStep b).ports = b.ports
    ∧ (Block.thermalStep b).slots = b.slots ∧ (Block.thermalStep b).ctls = b.ctls ∧ (Block.thermalStep b).ifc = b.ifc
    ∧ (Block.thermalStep b).fox = b.fox ∧ (Block.thermalStep b).afu = b.afu ∧ (Block.thermalStep b).owl = b.owl
    ∧ (Block.thermalStep b).badger = b.badger ∧ (Block.thermalStep b).den = b.den ∧ (Block.thermalStep b).map = b.map
    ∧ (Block.thermalStep b).guests = b.guests ∧ (Block.thermalStep b).edge = b.edge ∧ (Block.thermalStep b).trail = b.trail
    ∧ (Block.thermalStep b).fresh = b.fresh := by
  intros; simp [Block.thermalStep]

@[simp] theorem Block.govLatch_frame : ∀ b, (Block.govLatch b).thermos = b.thermos ∧ (Block.govLatch b).boot = b.boot
    ∧ (Block.govLatch b).pins = b.pins ∧ (Block.govLatch b).feat = b.feat ∧ (Block.govLatch b).link = b.link ∧ (Block.govLatch b).cfg = b.cfg
    ∧ (Block.govLatch b).ep = b.ep ∧ (Block.govLatch b).tim = b.tim ∧ (Block.govLatch b).ports = b.ports ∧ (Block.govLatch b).slots = b.slots
    ∧ (Block.govLatch b).ctls = b.ctls ∧ (Block.govLatch b).ifc = b.ifc ∧ (Block.govLatch b).fox = b.fox ∧ (Block.govLatch b).afu = b.afu
    ∧ (Block.govLatch b).owl = b.owl ∧ (Block.govLatch b).badger = b.badger ∧ (Block.govLatch b).den = b.den ∧ (Block.govLatch b).map = b.map
    ∧ (Block.govLatch b).guests = b.guests ∧ (Block.govLatch b).host = b.host ∧ (Block.govLatch b).flt = b.flt ∧ (Block.govLatch b).edge = b.edge
    ∧ (Block.govLatch b).trail = b.trail ∧ (Block.govLatch b).fresh = b.fresh := by
  intros; exact ⟨rfl, rfl, rfl, rfl, rfl, rfl, rfl, rfl, rfl, rfl, rfl, rfl, rfl, rfl, rfl, rfl, rfl, rfl, rfl, rfl, rfl, rfl, rfl, rfl⟩

@[simp] theorem Block.journalOnce_frame : ∀ b, (Block.journalOnce b).boot = b.boot ∧ (Block.journalOnce b).pins = b.pins
    ∧ (Block.journalOnce b).feat = b.feat ∧ (Block.journalOnce b).link = b.link ∧ (Block.journalOnce b).cfg = b.cfg
    ∧ (Block.journalOnce b).tim = b.tim ∧ (Block.journalOnce b).ports = b.ports ∧ (Block.journalOnce b).slots = b.slots
    ∧ (Block.journalOnce b).ctls = b.ctls ∧ (Block.journalOnce b).ifc = b.ifc ∧ (Block.journalOnce b).fox = b.fox ∧ (Block.journalOnce b).afu = b.afu
    ∧ (Block.journalOnce b).owl = b.owl ∧ (Block.journalOnce b).badger = b.badger ∧ (Block.journalOnce b).den = b.den
    ∧ (Block.journalOnce b).map = b.map ∧ (Block.journalOnce b).guests = b.guests ∧ (Block.journalOnce b).flt = b.flt
    ∧ (Block.journalOnce b).pwr = b.pwr ∧ (Block.journalOnce b).edge = b.edge ∧ (Block.journalOnce b).trail = b.trail
    ∧ (Block.journalOnce b).fresh = b.fresh := by
  intros; simp [Block.journalOnce]

@[simp] theorem Block.planCommit_frame : ∀ x0 b, (Block.planCommit x0 b).boot = b.boot
    ∧ (Block.planCommit x0 b).pins = b.pins ∧ (Block.planCommit x0 b).feat = b.feat ∧ (Block.planCommit x0 b).link = b.link
    ∧ (Block.planCommit x0 b).cfg = b.cfg ∧ (Block.planCommit x0 b).tim = b.tim ∧ (Block.planCommit x0 b).ports = b.ports
    ∧ (Block.planCommit x0 b).slots = b.slots ∧ (Block.planCommit x0 b).ctls = b.ctls ∧ (Block.planCommit x0 b).ifc = b.ifc
    ∧ (Block.planCommit x0 b).fox = b.fox ∧ (Block.planCommit x0 b).afu = b.afu ∧ (Block.planCommit x0 b).owl = b.owl
    ∧ (Block.planCommit x0 b).badger = b.badger ∧ (Block.planCommit x0 b).den = b.den ∧ (Block.planCommit x0 b).guests = b.guests
    ∧ (Block.planCommit x0 b).edge = b.edge ∧ (Block.planCommit x0 b).trail = b.trail ∧ (Block.planCommit x0 b).fresh = b.fresh := by
  intros; unfold Block.planCommit; (repeat' split) <;> simp

@[simp] theorem Block.burstEnd_frame : ∀ x0 x1 x2 b, (Block.burstEnd x0 x1 x2 b).thermos = b.thermos ∧ (Block.burstEnd x0 x1 x2 b).boot = b.boot
    ∧ (Block.burstEnd x0 x1 x2 b).pins = b.pins ∧ (Block.burstEnd x0 x1 x2 b).feat = b.feat ∧ (Block.burstEnd x0 x1 x2 b).link = b.link
    ∧ (Block.burstEnd x0 x1 x2 b).cfg = b.cfg ∧ (Block.burstEnd x0 x1 x2 b).ep = b.ep ∧ (Block.burstEnd x0 x1 x2 b).tim = b.tim
    ∧ (Block.burstEnd x0 x1 x2 b).ports = b.ports ∧ (Block.burstEnd x0 x1 x2 b).slots = b.slots ∧ (Block.burstEnd x0 x1 x2 b).ctls = b.ctls
    ∧ (Block.burstEnd x0 x1 x2 b).ifc = b.ifc ∧ (Block.burstEnd x0 x1 x2 b).fox = b.fox ∧ (Block.burstEnd x0 x1 x2 b).afu = b.afu
    ∧ (Block.burstEnd x0 x1 x2 b).owl = b.owl ∧ (Block.burstEnd x0 x1 x2 b).badger = b.badger ∧ (Block.burstEnd x0 x1 x2 b).den = b.den
    ∧ (Block.burstEnd x0 x1 x2 b).map = b.map ∧ (Block.burstEnd x0 x1 x2 b).guests = b.guests ∧ (Block.burstEnd x0 x1 x2 b).edge = b.edge
    ∧ (Block.burstEnd x0 x1 x2 b).trail = b.trail ∧ (Block.burstEnd x0 x1 x2 b).fresh = b.fresh := by
  intros; simp [Block.burstEnd]

@[simp] theorem Block.burstStep_frame : ∀ x0 x1 x2 b, (Block.burstStep x0 x1 x2 b).thermos = b.thermos ∧ (Block.burstStep x0 x1 x2 b).boot = b.boot
    ∧ (Block.burstStep x0 x1 x2 b).pins = b.pins ∧ (Block.burstStep x0 x1 x2 b).feat = b.feat ∧ (Block.burstStep x0 x1 x2 b).link = b.link
    ∧ (Block.burstStep x0 x1 x2 b).cfg = b.cfg ∧ (Block.burstStep x0 x1 x2 b).ep = b.ep ∧ (Block.burstStep x0 x1 x2 b).tim = b.tim
    ∧ (Block.burstStep x0 x1 x2 b).ports = b.ports ∧ (Block.burstStep x0 x1 x2 b).slots = b.slots ∧ (Block.burstStep x0 x1 x2 b).ctls = b.ctls
    ∧ (Block.burstStep x0 x1 x2 b).ifc = b.ifc ∧ (Block.burstStep x0 x1 x2 b).fox = b.fox ∧ (Block.burstStep x0 x1 x2 b).afu = b.afu
    ∧ (Block.burstStep x0 x1 x2 b).owl = b.owl ∧ (Block.burstStep x0 x1 x2 b).badger = b.badger ∧ (Block.burstStep x0 x1 x2 b).den = b.den
    ∧ (Block.burstStep x0 x1 x2 b).map = b.map ∧ (Block.burstStep x0 x1 x2 b).guests = b.guests ∧ (Block.burstStep x0 x1 x2 b).edge = b.edge
    ∧ (Block.burstStep x0 x1 x2 b).trail = b.trail ∧ (Block.burstStep x0 x1 x2 b).fresh = b.fresh := by
  intros; unfold Block.burstStep; (repeat' split) <;> simp

@[simp] theorem Block.clock_frame : ∀ x0 x1 b, (Block.clock x0 x1 b).thermos = b.thermos ∧ (Block.clock x0 x1 b).boot = b.boot
    ∧ (Block.clock x0 x1 b).pins = b.pins ∧ (Block.clock x0 x1 b).feat = b.feat ∧ (Block.clock x0 x1 b).link = b.link
    ∧ (Block.clock x0 x1 b).cfg = b.cfg ∧ (Block.clock x0 x1 b).ep = b.ep ∧ (Block.clock x0 x1 b).tim = b.tim ∧ (Block.clock x0 x1 b).ports = b.ports
    ∧ (Block.clock x0 x1 b).slots = b.slots ∧ (Block.clock x0 x1 b).ctls = b.ctls ∧ (Block.clock x0 x1 b).ifc = b.ifc
    ∧ (Block.clock x0 x1 b).fox = b.fox ∧ (Block.clock x0 x1 b).afu = b.afu ∧ (Block.clock x0 x1 b).owl = b.owl
    ∧ (Block.clock x0 x1 b).badger = b.badger ∧ (Block.clock x0 x1 b).den = b.den ∧ (Block.clock x0 x1 b).map = b.map
    ∧ (Block.clock x0 x1 b).guests = b.guests ∧ (Block.clock x0 x1 b).host = b.host ∧ (Block.clock x0 x1 b).pwr = b.pwr
    ∧ (Block.clock x0 x1 b).edge = b.edge ∧ (Block.clock x0 x1 b).trail = b.trail ∧ (Block.clock x0 x1 b).fresh = b.fresh := by
  intros; exact ⟨rfl, rfl, rfl, rfl, rfl, rfl, rfl, rfl, rfl, rfl, rfl, rfl, rfl, rfl, rfl, rfl, rfl, rfl, rfl, rfl, rfl, rfl, rfl, rfl⟩

@[simp] theorem Block.movePoint_frame : ∀ x0 x1 x2 b, (Block.movePoint x0 x1 x2 b).thermos = b.thermos ∧ (Block.movePoint x0 x1 x2 b).boot = b.boot
    ∧ (Block.movePoint x0 x1 x2 b).pins = b.pins ∧ (Block.movePoint x0 x1 x2 b).feat = b.feat ∧ (Block.movePoint x0 x1 x2 b).link = b.link
    ∧ (Block.movePoint x0 x1 x2 b).cfg = b.cfg ∧ (Block.movePoint x0 x1 x2 b).ep = b.ep ∧ (Block.movePoint x0 x1 x2 b).tim = b.tim
    ∧ (Block.movePoint x0 x1 x2 b).ports = b.ports ∧ (Block.movePoint x0 x1 x2 b).slots = b.slots ∧ (Block.movePoint x0 x1 x2 b).ctls = b.ctls
    ∧ (Block.movePoint x0 x1 x2 b).ifc = b.ifc ∧ (Block.movePoint x0 x1 x2 b).fox = b.fox ∧ (Block.movePoint x0 x1 x2 b).afu = b.afu
    ∧ (Block.movePoint x0 x1 x2 b).owl = b.owl ∧ (Block.movePoint x0 x1 x2 b).badger = b.badger ∧ (Block.movePoint x0 x1 x2 b).den = b.den
    ∧ (Block.movePoint x0 x1 x2 b).map = b.map ∧ (Block.movePoint x0 x1 x2 b).guests = b.guests ∧ (Block.movePoint x0 x1 x2 b).edge = b.edge
    ∧ (Block.movePoint x0 x1 x2 b).trail = b.trail ∧ (Block.movePoint x0 x1 x2 b).fresh = b.fresh := by
  intros; simp [Block.movePoint]

@[simp] theorem Block.movePoints_frame : ∀ x0 x1 b, (Block.movePoints x0 x1 b).thermos = b.thermos ∧ (Block.movePoints x0 x1 b).boot = b.boot
    ∧ (Block.movePoints x0 x1 b).pins = b.pins ∧ (Block.movePoints x0 x1 b).feat = b.feat ∧ (Block.movePoints x0 x1 b).link = b.link
    ∧ (Block.movePoints x0 x1 b).cfg = b.cfg ∧ (Block.movePoints x0 x1 b).ep = b.ep ∧ (Block.movePoints x0 x1 b).tim = b.tim
    ∧ (Block.movePoints x0 x1 b).ports = b.ports ∧ (Block.movePoints x0 x1 b).slots = b.slots ∧ (Block.movePoints x0 x1 b).ctls = b.ctls
    ∧ (Block.movePoints x0 x1 b).ifc = b.ifc ∧ (Block.movePoints x0 x1 b).fox = b.fox ∧ (Block.movePoints x0 x1 b).afu = b.afu
    ∧ (Block.movePoints x0 x1 b).owl = b.owl ∧ (Block.movePoints x0 x1 b).badger = b.badger ∧ (Block.movePoints x0 x1 b).den = b.den
    ∧ (Block.movePoints x0 x1 b).map = b.map ∧ (Block.movePoints x0 x1 b).guests = b.guests ∧ (Block.movePoints x0 x1 b).edge = b.edge
    ∧ (Block.movePoints x0 x1 b).trail = b.trail ∧ (Block.movePoints x0 x1 b).fresh = b.fresh := by
  intros; simp [Block.movePoints]

@[simp] theorem Block.untrip_frame : ∀ b, (Block.untrip b).thermos = b.thermos ∧ (Block.untrip b).boot = b.boot ∧ (Block.untrip b).pins = b.pins
    ∧ (Block.untrip b).feat = b.feat ∧ (Block.untrip b).link = b.link ∧ (Block.untrip b).cfg = b.cfg ∧ (Block.untrip b).ep = b.ep
    ∧ (Block.untrip b).tim = b.tim ∧ (Block.untrip b).ports = b.ports ∧ (Block.untrip b).slots = b.slots ∧ (Block.untrip b).ctls = b.ctls
    ∧ (Block.untrip b).ifc = b.ifc ∧ (Block.untrip b).fox = b.fox ∧ (Block.untrip b).afu = b.afu ∧ (Block.untrip b).owl = b.owl
    ∧ (Block.untrip b).badger = b.badger ∧ (Block.untrip b).den = b.den ∧ (Block.untrip b).map = b.map ∧ (Block.untrip b).guests = b.guests
    ∧ (Block.untrip b).host = b.host ∧ (Block.untrip b).edge = b.edge ∧ (Block.untrip b).trail = b.trail ∧ (Block.untrip b).fresh = b.fresh := by
  intros; simp [Block.untrip]

@[simp] theorem Block.voltageRaise_frame : ∀ x0 b, (Block.voltageRaise x0 b).thermos = b.thermos ∧ (Block.voltageRaise x0 b).boot = b.boot
    ∧ (Block.voltageRaise x0 b).pins = b.pins ∧ (Block.voltageRaise x0 b).feat = b.feat ∧ (Block.voltageRaise x0 b).link = b.link
    ∧ (Block.voltageRaise x0 b).cfg = b.cfg ∧ (Block.voltageRaise x0 b).ep = b.ep ∧ (Block.voltageRaise x0 b).tim = b.tim
    ∧ (Block.voltageRaise x0 b).ports = b.ports ∧ (Block.voltageRaise x0 b).slots = b.slots ∧ (Block.voltageRaise x0 b).ctls = b.ctls
    ∧ (Block.voltageRaise x0 b).ifc = b.ifc ∧ (Block.voltageRaise x0 b).fox = b.fox ∧ (Block.voltageRaise x0 b).afu = b.afu
    ∧ (Block.voltageRaise x0 b).owl = b.owl ∧ (Block.voltageRaise x0 b).badger = b.badger ∧ (Block.voltageRaise x0 b).den = b.den
    ∧ (Block.voltageRaise x0 b).map = b.map ∧ (Block.voltageRaise x0 b).guests = b.guests ∧ (Block.voltageRaise x0 b).host = b.host
    ∧ (Block.voltageRaise x0 b).flt = b.flt ∧ (Block.voltageRaise x0 b).edge = b.edge ∧ (Block.voltageRaise x0 b).trail = b.trail
    ∧ (Block.voltageRaise x0 b).fresh = b.fresh := by
  intros; unfold Block.voltageRaise; (repeat' split) <;> simp

@[simp] theorem Block.voltageLower_frame : ∀ x0 b, (Block.voltageLower x0 b).thermos = b.thermos ∧ (Block.voltageLower x0 b).boot = b.boot
    ∧ (Block.voltageLower x0 b).pins = b.pins ∧ (Block.voltageLower x0 b).feat = b.feat ∧ (Block.voltageLower x0 b).link = b.link
    ∧ (Block.voltageLower x0 b).cfg = b.cfg ∧ (Block.voltageLower x0 b).ep = b.ep ∧ (Block.voltageLower x0 b).tim = b.tim
    ∧ (Block.voltageLower x0 b).ports = b.ports ∧ (Block.voltageLower x0 b).slots = b.slots ∧ (Block.voltageLower x0 b).ctls = b.ctls
    ∧ (Block.voltageLower x0 b).ifc = b.ifc ∧ (Block.voltageLower x0 b).fox = b.fox ∧ (Block.voltageLower x0 b).afu = b.afu
    ∧ (Block.voltageLower x0 b).owl = b.owl ∧ (Block.voltageLower x0 b).badger = b.badger ∧ (Block.voltageLower x0 b).den = b.den
    ∧ (Block.voltageLower x0 b).map = b.map ∧ (Block.voltageLower x0 b).guests = b.guests ∧ (Block.voltageLower x0 b).host = b.host
    ∧ (Block.voltageLower x0 b).flt = b.flt ∧ (Block.voltageLower x0 b).edge = b.edge ∧ (Block.voltageLower x0 b).trail = b.trail
    ∧ (Block.voltageLower x0 b).fresh = b.fresh := by
  intros; simp [Block.voltageLower]

@[simp] theorem Block.cleared_frame : ∀ x0 x1 b, (Block.cleared x0 x1 b).thermos = b.thermos ∧ (Block.cleared x0 x1 b).fresh = b.fresh := by
  intros; exact ⟨rfl, rfl⟩

@[simp] theorem Block.mainPor_frame : ∀ x0 b, (Block.mainPor x0 b).thermos = b.thermos ∧ (Block.mainPor x0 b).fresh = b.fresh := by
  intros; exact ⟨rfl, rfl⟩

@[simp] theorem Block.haltNoBoot_frame : ∀ b, (Block.haltNoBoot b).thermos = b.thermos ∧ (Block.haltNoBoot b).pins = b.pins
    ∧ (Block.haltNoBoot b).feat = b.feat ∧ (Block.haltNoBoot b).cfg = b.cfg ∧ (Block.haltNoBoot b).ep = b.ep ∧ (Block.haltNoBoot b).tim = b.tim
    ∧ (Block.haltNoBoot b).ports = b.ports ∧ (Block.haltNoBoot b).slots = b.slots ∧ (Block.haltNoBoot b).ctls = b.ctls
    ∧ (Block.haltNoBoot b).ifc = b.ifc ∧ (Block.haltNoBoot b).fox = b.fox ∧ (Block.haltNoBoot b).afu = b.afu ∧ (Block.haltNoBoot b).owl = b.owl
    ∧ (Block.haltNoBoot b).badger = b.badger ∧ (Block.haltNoBoot b).den = b.den ∧ (Block.haltNoBoot b).map = b.map
    ∧ (Block.haltNoBoot b).guests = b.guests ∧ (Block.haltNoBoot b).flt = b.flt ∧ (Block.haltNoBoot b).pwr = b.pwr
    ∧ (Block.haltNoBoot b).edge = b.edge ∧ (Block.haltNoBoot b).trail = b.trail ∧ (Block.haltNoBoot b).fresh = b.fresh := by
  intros; simp [Block.haltNoBoot]

@[simp] theorem Block.haltBoth_frame : ∀ x0 b, (Block.haltBoth x0 b).thermos = b.thermos ∧ (Block.haltBoth x0 b).pins = b.pins
    ∧ (Block.haltBoth x0 b).feat = b.feat ∧ (Block.haltBoth x0 b).cfg = b.cfg ∧ (Block.haltBoth x0 b).ep = b.ep ∧ (Block.haltBoth x0 b).tim = b.tim
    ∧ (Block.haltBoth x0 b).ports = b.ports ∧ (Block.haltBoth x0 b).slots = b.slots ∧ (Block.haltBoth x0 b).ctls = b.ctls
    ∧ (Block.haltBoth x0 b).ifc = b.ifc ∧ (Block.haltBoth x0 b).fox = b.fox ∧ (Block.haltBoth x0 b).afu = b.afu ∧ (Block.haltBoth x0 b).owl = b.owl
    ∧ (Block.haltBoth x0 b).badger = b.badger ∧ (Block.haltBoth x0 b).den = b.den ∧ (Block.haltBoth x0 b).map = b.map
    ∧ (Block.haltBoth x0 b).guests = b.guests ∧ (Block.haltBoth x0 b).flt = b.flt ∧ (Block.haltBoth x0 b).pwr = b.pwr
    ∧ (Block.haltBoth x0 b).edge = b.edge ∧ (Block.haltBoth x0 b).trail = b.trail ∧ (Block.haltBoth x0 b).fresh = b.fresh := by
  intros; simp [Block.haltBoth]

@[simp] theorem Block.discardLoad_frame : ∀ b, (Block.discardLoad b).thermos = b.thermos ∧ (Block.discardLoad b).pins = b.pins
    ∧ (Block.discardLoad b).feat = b.feat ∧ (Block.discardLoad b).link = b.link ∧ (Block.discardLoad b).ep = b.ep ∧ (Block.discardLoad b).tim = b.tim
    ∧ (Block.discardLoad b).ports = b.ports ∧ (Block.discardLoad b).slots = b.slots ∧ (Block.discardLoad b).ctls = b.ctls
    ∧ (Block.discardLoad b).ifc = b.ifc ∧ (Block.discardLoad b).fox = b.fox ∧ (Block.discardLoad b).afu = b.afu ∧ (Block.discardLoad b).owl = b.owl
    ∧ (Block.discardLoad b).badger = b.badger ∧ (Block.discardLoad b).den = b.den ∧ (Block.discardLoad b).map = b.map
    ∧ (Block.discardLoad b).guests = b.guests ∧ (Block.discardLoad b).host = b.host ∧ (Block.discardLoad b).flt = b.flt
    ∧ (Block.discardLoad b).pwr = b.pwr ∧ (Block.discardLoad b).edge = b.edge ∧ (Block.discardLoad b).trail = b.trail
    ∧ (Block.discardLoad b).fresh = b.fresh := by
  intros; exact ⟨rfl, rfl, rfl, rfl, rfl, rfl, rfl, rfl, rfl, rfl, rfl, rfl, rfl, rfl, rfl, rfl, rfl, rfl, rfl, rfl, rfl, rfl, rfl⟩

@[simp] theorem Block.slotFails_frame : ∀ x0 b, (Block.slotFails x0 b).thermos = b.thermos ∧ (Block.slotFails x0 b).pins = b.pins
    ∧ (Block.slotFails x0 b).feat = b.feat ∧ (Block.slotFails x0 b).ep = b.ep ∧ (Block.slotFails x0 b).tim = b.tim
    ∧ (Block.slotFails x0 b).ports = b.ports ∧ (Block.slotFails x0 b).slots = b.slots ∧ (Block.slotFails x0 b).ctls = b.ctls
    ∧ (Block.slotFails x0 b).ifc = b.ifc ∧ (Block.slotFails x0 b).fox = b.fox ∧ (Block.slotFails x0 b).afu = b.afu
    ∧ (Block.slotFails x0 b).owl = b.owl ∧ (Block.slotFails x0 b).badger = b.badger ∧ (Block.slotFails x0 b).den = b.den
    ∧ (Block.slotFails x0 b).map = b.map ∧ (Block.slotFails x0 b).guests = b.guests ∧ (Block.slotFails x0 b).flt = b.flt
    ∧ (Block.slotFails x0 b).pwr = b.pwr ∧ (Block.slotFails x0 b).edge = b.edge ∧ (Block.slotFails x0 b).trail = b.trail
    ∧ (Block.slotFails x0 b).fresh = b.fresh := by
  intros; unfold Block.slotFails; (repeat' split) <;> simp

@[simp] theorem Block.romProbe_frame : ∀ b, (Block.romProbe b).thermos = b.thermos ∧ (Block.romProbe b).pins = b.pins
    ∧ (Block.romProbe b).feat = b.feat ∧ (Block.romProbe b).cfg = b.cfg ∧ (Block.romProbe b).ep = b.ep ∧ (Block.romProbe b).tim = b.tim
    ∧ (Block.romProbe b).ports = b.ports ∧ (Block.romProbe b).slots = b.slots ∧ (Block.romProbe b).ctls = b.ctls ∧ (Block.romProbe b).ifc = b.ifc
    ∧ (Block.romProbe b).fox = b.fox ∧ (Block.romProbe b).afu = b.afu ∧ (Block.romProbe b).owl = b.owl ∧ (Block.romProbe b).badger = b.badger
    ∧ (Block.romProbe b).den = b.den ∧ (Block.romProbe b).map = b.map ∧ (Block.romProbe b).guests = b.guests ∧ (Block.romProbe b).flt = b.flt
    ∧ (Block.romProbe b).pwr = b.pwr ∧ (Block.romProbe b).edge = b.edge ∧ (Block.romProbe b).trail = b.trail ∧ (Block.romProbe b).fresh = b.fresh := by
  intros; simp [Block.romProbe]

@[simp] theorem Block.probed_frame : ∀ b, (Block.probed b).thermos = b.thermos ∧ (Block.probed b).pins = b.pins ∧ (Block.probed b).feat = b.feat
    ∧ (Block.probed b).cfg = b.cfg ∧ (Block.probed b).ep = b.ep ∧ (Block.probed b).tim = b.tim ∧ (Block.probed b).ports = b.ports
    ∧ (Block.probed b).slots = b.slots ∧ (Block.probed b).ctls = b.ctls ∧ (Block.probed b).ifc = b.ifc ∧ (Block.probed b).fox = b.fox
    ∧ (Block.probed b).afu = b.afu ∧ (Block.probed b).owl = b.owl ∧ (Block.probed b).badger = b.badger ∧ (Block.probed b).den = b.den
    ∧ (Block.probed b).map = b.map ∧ (Block.probed b).guests = b.guests ∧ (Block.probed b).flt = b.flt ∧ (Block.probed b).pwr = b.pwr
    ∧ (Block.probed b).edge = b.edge ∧ (Block.probed b).trail = b.trail ∧ (Block.probed b).fresh = b.fresh := by
  intros; simp [Block.probed]

@[simp] theorem Block.settingsLoad_frame : ∀ x0 b, (Block.settingsLoad x0 b).thermos = b.thermos ∧ (Block.settingsLoad x0 b).pins = b.pins
    ∧ (Block.settingsLoad x0 b).feat = b.feat ∧ (Block.settingsLoad x0 b).ep = b.ep ∧ (Block.settingsLoad x0 b).tim = b.tim
    ∧ (Block.settingsLoad x0 b).ports = b.ports ∧ (Block.settingsLoad x0 b).slots = b.slots ∧ (Block.settingsLoad x0 b).ctls = b.ctls
    ∧ (Block.settingsLoad x0 b).ifc = b.ifc ∧ (Block.settingsLoad x0 b).fox = b.fox ∧ (Block.settingsLoad x0 b).afu = b.afu
    ∧ (Block.settingsLoad x0 b).owl = b.owl ∧ (Block.settingsLoad x0 b).badger = b.badger ∧ (Block.settingsLoad x0 b).den = b.den
    ∧ (Block.settingsLoad x0 b).map = b.map ∧ (Block.settingsLoad x0 b).guests = b.guests ∧ (Block.settingsLoad x0 b).flt = b.flt
    ∧ (Block.settingsLoad x0 b).pwr = b.pwr ∧ (Block.settingsLoad x0 b).edge = b.edge ∧ (Block.settingsLoad x0 b).trail = b.trail
    ∧ (Block.settingsLoad x0 b).fresh = b.fresh := by
  intros; simp only [Block.settingsLoad]; (repeat' (first | split | simp)) <;> simp

@[simp] theorem Block.tick_frame : ∀ b, (Block.tick b).boot = b.boot ∧ (Block.tick b).pins = b.pins ∧ (Block.tick b).feat = b.feat
    ∧ (Block.tick b).link = b.link ∧ (Block.tick b).cfg = b.cfg ∧ (Block.tick b).ep = b.ep ∧ (Block.tick b).ports = b.ports
    ∧ (Block.tick b).slots = b.slots ∧ (Block.tick b).ctls = b.ctls ∧ (Block.tick b).ifc = b.ifc ∧ (Block.tick b).fox = b.fox
    ∧ (Block.tick b).afu = b.afu ∧ (Block.tick b).owl = b.owl ∧ (Block.tick b).badger = b.badger ∧ (Block.tick b).den = b.den
    ∧ (Block.tick b).map = b.map ∧ (Block.tick b).guests = b.guests ∧ (Block.tick b).pwr = b.pwr ∧ (Block.tick b).edge = b.edge
    ∧ (Block.tick b).trail = b.trail ∧ (Block.tick b).fresh = b.fresh := by
  intros; simp [Block.tick]

@[simp] theorem Block.faultHalt_frame : ∀ x0 x1 b, (Block.faultHalt x0 x1 b).feat = b.feat ∧ (Block.faultHalt x0 x1 b).cfg = b.cfg
    ∧ (Block.faultHalt x0 x1 b).ep = b.ep ∧ (Block.faultHalt x0 x1 b).tim = b.tim ∧ (Block.faultHalt x0 x1 b).ports = b.ports
    ∧ (Block.faultHalt x0 x1 b).slots = b.slots ∧ (Block.faultHalt x0 x1 b).ctls = b.ctls ∧ (Block.faultHalt x0 x1 b).ifc = b.ifc
    ∧ (Block.faultHalt x0 x1 b).fox = b.fox ∧ (Block.faultHalt x0 x1 b).afu = b.afu ∧ (Block.faultHalt x0 x1 b).owl = b.owl
    ∧ (Block.faultHalt x0 x1 b).badger = b.badger ∧ (Block.faultHalt x0 x1 b).den = b.den ∧ (Block.faultHalt x0 x1 b).map = b.map
    ∧ (Block.faultHalt x0 x1 b).guests = b.guests ∧ (Block.faultHalt x0 x1 b).pwr = b.pwr ∧ (Block.faultHalt x0 x1 b).edge = b.edge
    ∧ (Block.faultHalt x0 x1 b).trail = b.trail ∧ (Block.faultHalt x0 x1 b).fresh = b.fresh := by
  intros; simp [Block.faultHalt]

@[simp] theorem Block.islandFailed_frame : ∀ x0 b, (Block.islandFailed x0 b).feat = b.feat ∧ (Block.islandFailed x0 b).cfg = b.cfg
    ∧ (Block.islandFailed x0 b).ep = b.ep ∧ (Block.islandFailed x0 b).tim = b.tim ∧ (Block.islandFailed x0 b).ports = b.ports
    ∧ (Block.islandFailed x0 b).slots = b.slots ∧ (Block.islandFailed x0 b).ctls = b.ctls ∧ (Block.islandFailed x0 b).ifc = b.ifc
    ∧ (Block.islandFailed x0 b).fox = b.fox ∧ (Block.islandFailed x0 b).afu = b.afu ∧ (Block.islandFailed x0 b).owl = b.owl
    ∧ (Block.islandFailed x0 b).badger = b.badger ∧ (Block.islandFailed x0 b).den = b.den ∧ (Block.islandFailed x0 b).map = b.map
    ∧ (Block.islandFailed x0 b).guests = b.guests ∧ (Block.islandFailed x0 b).pwr = b.pwr ∧ (Block.islandFailed x0 b).edge = b.edge
    ∧ (Block.islandFailed x0 b).fresh = b.fresh := by
  intros; simp [Block.islandFailed]

@[simp] theorem Block.settingsLost_frame : ∀ x0 b, (Block.settingsLost x0 b).feat = b.feat ∧ (Block.settingsLost x0 b).ep = b.ep
    ∧ (Block.settingsLost x0 b).tim = b.tim ∧ (Block.settingsLost x0 b).ports = b.ports ∧ (Block.settingsLost x0 b).slots = b.slots
    ∧ (Block.settingsLost x0 b).ctls = b.ctls ∧ (Block.settingsLost x0 b).ifc = b.ifc ∧ (Block.settingsLost x0 b).fox = b.fox
    ∧ (Block.settingsLost x0 b).afu = b.afu ∧ (Block.settingsLost x0 b).owl = b.owl ∧ (Block.settingsLost x0 b).badger = b.badger
    ∧ (Block.settingsLost x0 b).den = b.den ∧ (Block.settingsLost x0 b).map = b.map ∧ (Block.settingsLost x0 b).guests = b.guests
    ∧ (Block.settingsLost x0 b).pwr = b.pwr ∧ (Block.settingsLost x0 b).edge = b.edge ∧ (Block.settingsLost x0 b).trail = b.trail
    ∧ (Block.settingsLost x0 b).fresh = b.fresh := by
  intros; unfold Block.settingsLost; (repeat' split) <;> simp

@[simp] theorem Block.islandRestart_frame : ∀ x0 x1 x2 x3 b, (Block.islandRestart x0 x1 x2 x3 b).cfg = b.cfg
    ∧ (Block.islandRestart x0 x1 x2 x3 b).owl = b.owl ∧ (Block.islandRestart x0 x1 x2 x3 b).map = b.map
    ∧ (Block.islandRestart x0 x1 x2 x3 b).guests = b.guests ∧ (Block.islandRestart x0 x1 x2 x3 b).pwr = b.pwr
    ∧ (Block.islandRestart x0 x1 x2 x3 b).edge = b.edge := by
  intros; simp [Block.islandRestart]
@[simp] theorem Block.foxConsume_frame : ∀ x0 b, (Block.foxConsume x0 b).thermos = b.thermos ∧ (Block.foxConsume x0 b).boot = b.boot
    ∧ (Block.foxConsume x0 b).pins = b.pins ∧ (Block.foxConsume x0 b).feat = b.feat ∧ (Block.foxConsume x0 b).link = b.link
    ∧ (Block.foxConsume x0 b).cfg = b.cfg ∧ (Block.foxConsume x0 b).ep = b.ep ∧ (Block.foxConsume x0 b).tim = b.tim
    ∧ (Block.foxConsume x0 b).ports = b.ports ∧ (Block.foxConsume x0 b).slots = b.slots ∧ (Block.foxConsume x0 b).ctls = b.ctls
    ∧ (Block.foxConsume x0 b).ifc = b.ifc ∧ (Block.foxConsume x0 b).afu = b.afu ∧ (Block.foxConsume x0 b).owl = b.owl
    ∧ (Block.foxConsume x0 b).badger = b.badger ∧ (Block.foxConsume x0 b).den = b.den ∧ (Block.foxConsume x0 b).map = b.map
    ∧ (Block.foxConsume x0 b).guests = b.guests ∧ (Block.foxConsume x0 b).host = b.host ∧ (Block.foxConsume x0 b).flt = b.flt
    ∧ (Block.foxConsume x0 b).pwr = b.pwr ∧ (Block.foxConsume x0 b).edge = b.edge ∧ (Block.foxConsume x0 b).trail = b.trail
    ∧ (Block.foxConsume x0 b).fresh = b.fresh := by
  intros; unfold Block.foxConsume; (repeat' split) <;> simp

@[simp] theorem Block.askBytes_frame : ∀ x0 x1 b, (Block.askBytes x0 x1 b).thermos = b.thermos ∧ (Block.askBytes x0 x1 b).boot = b.boot
    ∧ (Block.askBytes x0 x1 b).pins = b.pins ∧ (Block.askBytes x0 x1 b).feat = b.feat ∧ (Block.askBytes x0 x1 b).link = b.link
    ∧ (Block.askBytes x0 x1 b).cfg = b.cfg ∧ (Block.askBytes x0 x1 b).ep = b.ep ∧ (Block.askBytes x0 x1 b).tim = b.tim
    ∧ (Block.askBytes x0 x1 b).ports = b.ports ∧ (Block.askBytes x0 x1 b).slots = b.slots ∧ (Block.askBytes x0 x1 b).ctls = b.ctls
    ∧ (Block.askBytes x0 x1 b).ifc = b.ifc ∧ (Block.askBytes x0 x1 b).fox = b.fox ∧ (Block.askBytes x0 x1 b).afu = b.afu
    ∧ (Block.askBytes x0 x1 b).owl = b.owl ∧ (Block.askBytes x0 x1 b).badger = b.badger ∧ (Block.askBytes x0 x1 b).den = b.den
    ∧ (Block.askBytes x0 x1 b).map = b.map ∧ (Block.askBytes x0 x1 b).guests = b.guests ∧ (Block.askBytes x0 x1 b).flt = b.flt
    ∧ (Block.askBytes x0 x1 b).pwr = b.pwr ∧ (Block.askBytes x0 x1 b).edge = b.edge ∧ (Block.askBytes x0 x1 b).trail = b.trail
    ∧ (Block.askBytes x0 x1 b).fresh = b.fresh := by
  intros; simp [Block.askBytes]

end Sys2Proof.Machine
end

