-- ==== Sys2Proof/Laws/Memory.lean ====
section
/-! SUPPORT. The memory: every operation keeps the canonical form, a read after a write gives the value written and a write leaves
every other byte, and equal reads mean equal memories. -/

namespace Sys2Proof.Machine

/-- A lower bound can be lowered. -/
theorem memSorted_mono {m : Memory} {lo hi : Nat} (h : lo ≤ hi) (hm : memSorted hi m = true) : memSorted lo m = true := by
  cases m with
  | nil => rfl
  | cons c r =>
    obtain ⟨k, v⟩ := c
    simp only [memSorted, Bool.and_eq_true, decide_eq_true_eq] at hm ⊢
    exact ⟨⟨by omega, hm.1.2⟩, hm.2⟩

/-- Below its lowest entry a memory reads blank. -/
theorem memRead_below {m : Memory} {lo a : Nat} (hm : memSorted lo m = true) (h : a < lo) : memRead m a = memBlank := by
  induction m generalizing lo with
  | nil => rfl
  | cons c r ih =>
    obtain ⟨k, v⟩ := c
    simp only [memSorted, Bool.and_eq_true, decide_eq_true_eq] at hm
    have hk : k ≠ a := by omega
    rw [memRead, if_neg hk]
    exact ih hm.2 (by omega)

/-- A write keeps the canonical form above a bound that it does not go below. -/
theorem memSorted_memWrite {m : Memory} {lo a : Nat} (x : Byte) (hm : memSorted lo m = true) (h : lo ≤ a) :
    memSorted lo (memWrite m a x) = true := by
  induction m generalizing lo with
  | nil => by_cases hx : x = memBlank <;> simp [memWrite, memSorted, hx, h]
  | cons c r ih =>
    obtain ⟨k, v⟩ := c
    simp only [memSorted, Bool.and_eq_true, decide_eq_true_eq] at hm
    obtain ⟨⟨hk, hv⟩, hr⟩ := hm
    rw [memWrite]
    split
    · next hka => simp [memSorted, hk, hv, ih hr (by omega)]
    · next hka =>
      split
      · next hkb =>
        subst hkb
        by_cases hx : x = memBlank
        · simpa [hx] using memSorted_mono (by omega) hr
        · simp [hx, memSorted, hk, hr]
      · next hkb =>
        by_cases hx : x = memBlank
        · simp [hx, memSorted, hk, hv, hr]
        · simp [hx, memSorted, h, hv, hr]
          omega

/-- A write keeps the canonical form. -/
@[simp] theorem wf_memWrite {m : Memory} (a : Nat) (x : Byte) (hm : m.wf = true) : Memory.wf (memWrite m a x) = true :=
  memSorted_memWrite x hm (Nat.zero_le a)

/-- A write of bytes keeps the canonical form. -/
@[simp] theorem wf_memWriteBytes (xs : Bytes) {m : Memory} (a : Nat) (hm : m.wf = true) :
    Memory.wf (memWriteBytes m a xs) = true := by
  induction xs generalizing m a with
  | nil => exact hm
  | cons x xs ih => exact ih _ (wf_memWrite a x hm)

/-- Nothing listed is canonical. -/
@[simp] theorem wf_nil : Memory.wf [] = true := rfl

/-- A byte string as a memory is canonical. -/
@[simp] theorem wf_memOf (bs : Bytes) : Memory.wf (memOf bs) = true := wf_memWriteBytes bs 0 rfl

/-- A read after a write, above a bound. -/
theorem memRead_memWrite_from {m : Memory} {lo : Nat} (a : Nat) (x : Byte) (c : Nat) (hm : memSorted lo m = true) :
    memRead (memWrite m a x) c = if c = a then x else memRead m c := by
  induction m generalizing lo with
  | nil =>
    by_cases hx : x = memBlank
    · simp [memWrite, hx, memRead]
    · by_cases hc : a = c
      · simp [memWrite, hx, memRead, hc]
      · have hc' : c ≠ a := fun h => hc h.symm
        simp [memWrite, hx, memRead, hc, hc']
  | cons d r ih =>
    obtain ⟨k, v⟩ := d
    simp only [memSorted, Bool.and_eq_true, decide_eq_true_eq] at hm
    obtain ⟨⟨hk, hv⟩, hr⟩ := hm
    rw [memWrite]
    split
    · next hka =>
      by_cases hkc : k = c
      · have : c ≠ a := by omega
        simp [memRead, hkc, this]
      · simp [memRead, hkc, ih hr]
    · next hka =>
      split
      · next hkb =>
        subst hkb
        by_cases hc : c = k
        · subst hc
          by_cases hx : x = memBlank
          · simp [hx, memRead_below hr (Nat.lt_succ_self c)]
          · simp [hx, memRead]
        · have hc' : k ≠ c := fun h => hc h.symm
          by_cases hx : x = memBlank <;> simp [hx, memRead, hc, hc']
      · next hkb =>
        by_cases hc : c = a
        · subst hc
          by_cases hx : x = memBlank
          · have h1 : k ≠ c := hkb
            simp [hx, memRead, h1, memRead_below hr (show c < k + 1 by omega)]
          · simp [hx, memRead]
        · have hc' : a ≠ c := fun h => hc h.symm
          by_cases hx : x = memBlank <;> simp [hx, memRead, hc, hc']

/-- A read after a write gives the value written; every other byte reads as before. -/
theorem memRead_memWrite {m : Memory} (a : Nat) (x : Byte) (c : Nat) (hm : m.wf = true) :
    memRead (memWrite m a x) c = if c = a then x else memRead m c := memRead_memWrite_from a x c hm

/-- Every byte outside those written reads as before. -/
theorem memRead_memWriteBytes_out (xs : Bytes) {m : Memory} {a c : Nat} (hm : m.wf = true) (h : c < a ∨ a + xs.length ≤ c) :
    memRead (memWriteBytes m a xs) c = memRead m c := by
  induction xs generalizing m a with
  | nil => rfl
  | cons x xs ih =>
    simp only [List.length_cons] at h
    rw [memWriteBytes, ih (wf_memWrite a x hm) (by omega), memRead_memWrite a x c hm, if_neg (by omega)]

/-- A byte of those written reads as it was written. -/
theorem memRead_memWriteBytes_in (xs : Bytes) {m : Memory} {a i : Nat} (hm : m.wf = true) (h : i < xs.length) :
    memRead (memWriteBytes m a xs) (a + i) = xs.getD i 0 := by
  induction xs generalizing m a i with
  | nil => cases h
  | cons x xs ih =>
    rw [memWriteBytes]
    cases i with
    | zero =>
      rw [memRead_memWriteBytes_out xs (wf_memWrite a x hm) (by omega), memRead_memWrite a x _ hm]
      simp
    | succ i =>
      have := ih (a := a + 1) (wf_memWrite a x hm) (show i < xs.length by simpa using h)
      rw [show a + (i + 1) = a + 1 + i by omega, this]
      simp

/-- Bytes read back after they are written. -/
theorem memBytes_memWriteBytes (xs : Bytes) {m : Memory} (a : Nat) (hm : m.wf = true) :
    memBytes (memWriteBytes m a xs) a xs.length = xs := by
  apply List.ext_getElem
  · simp [memBytes]
  · intro i h1 h2
    simp [memBytes, memRead_memWriteBytes_in xs hm h2, h2]

/-- Bytes read apart from those written are as before. -/
theorem memBytes_memWriteBytes_out (xs : Bytes) {m : Memory} {a c n : Nat} (hm : m.wf = true) (h : c + n ≤ a ∨ a + xs.length ≤ c) :
    memBytes (memWriteBytes m a xs) c n = memBytes m c n := by
  apply List.map_congr_left
  intro i hi
  have := List.mem_range.mp hi
  exact memRead_memWriteBytes_out xs hm (by omega)

/-- Two canonical memories that read alike are equal. -/
theorem memory_ext {m n : Memory} {lo : Nat} (hm : memSorted lo m = true) (hn : memSorted lo n = true)
    (h : ∀ a, memRead m a = memRead n a) : m = n := by
  induction m generalizing n lo with
  | nil =>
    cases n with
    | nil => rfl
    | cons d r =>
      obtain ⟨k, v⟩ := d
      simp only [memSorted, Bool.and_eq_true, decide_eq_true_eq] at hn
      exact absurd (by simpa [memRead] using (h k).symm) hn.1.2
  | cons c r ih =>
    obtain ⟨k, v⟩ := c
    cases n with
    | nil =>
      simp only [memSorted, Bool.and_eq_true, decide_eq_true_eq] at hm
      exact absurd (by simpa [memRead] using h k) hm.1.2
    | cons d q =>
      obtain ⟨l, w⟩ := d
      simp only [memSorted, Bool.and_eq_true, decide_eq_true_eq] at hm hn
      obtain ⟨⟨_, hv⟩, hr⟩ := hm
      obtain ⟨⟨_, hw⟩, hq⟩ := hn
      have hkl : k = l := by
        rcases Nat.lt_trichotomy k l with g | g | g
        · have := h k
          rw [memRead, if_pos rfl, memRead, if_neg (by omega), memRead_below hq (by omega)] at this
          exact absurd this hv
        · exact g
        · have := h l
          rw [memRead, if_neg (by omega), memRead, if_pos rfl, memRead_below hr (by omega)] at this
          exact absurd this.symm hw
      subst hkl
      have hvw : v = w := by simpa [memRead] using h k
      subst hvw
      congr 1
      apply ih hr hq
      intro a
      by_cases ha : k = a
      · subst ha; rw [memRead_below hr (by omega), memRead_below hq (by omega)]
      · simpa [memRead, ha] using h a

end Sys2Proof.Machine
end

