-- ==== Sys2Proof/Laws/Ops.lean ====
section
/-! SUPPORT. What each shared operation does, said once: bytes and counters, signals and causes, streams and events, and the
commands of the queues. -/

namespace Sys2Proof.Machine

/-! ### Bytes, bits and counters -/

@[simp] theorem length_leBytes (n v : Nat) : (leBytes n v).length = n := by
  induction n generalizing v with
  | zero => rfl
  | succ n ih => simp [leBytes, ih]

/-- The bytes of a number spell it, cut to their width (R5). -/
theorem ofLe_leBytes (n v : Nat) : ofLe (leBytes n v) = v % 2 ^ (8 * n) := by
  induction n generalizing v with
  | zero => simp [leBytes, ofLe, Nat.mod_one]
  | succ n ih =>
    simp only [leBytes, ofLe, ih, BitVec.toNat_ofNat]
    rw [show 8 * (n + 1) = 8 + 8 * n by omega, Nat.pow_add, Nat.mod_mul]

/-- A byte string spells a number of its width. -/
theorem ofLe_lt (bs : Bytes) : ofLe bs < 2 ^ (8 * bs.length) := by
  induction bs with
  | nil => simp [ofLe]
  | cons x xs ih =>
    have := x.isLt
    simp only [ofLe, List.length_cons, show 8 * (xs.length + 1) = 8 + 8 * xs.length by omega, Nat.pow_add]
    omega

/-- A field that was written reads back, cut to its width. -/
theorem memField_memWriteBytes {m : Memory} (a n v : Nat) (hm : m.wf = true) :
    memField (memWriteBytes m a (leBytes n v)) a n = v % 2 ^ (8 * n) := by
  have h := memBytes_memWriteBytes (leBytes n v) a hm
  rw [length_leBytes] at h
  rw [memField, h, ofLe_leBytes]

/-- A field apart from the bytes written reads as before. -/
theorem memField_memWriteBytes_out (xs : Bytes) {m : Memory} {a c n : Nat} (hm : m.wf = true) (h : c + n ≤ a ∨ a + xs.length ≤ c) :
    memField (memWriteBytes m a xs) c n = memField m c n := by
  rw [memField, memBytes_memWriteBytes_out xs hm h, memField]

/-- A counter never falls, and stops at its greatest value (R644). -/
theorem bump_toNat {w : Nat} (c : BitVec w) : (bump c).toNat = min (c.toNat + 1) (2 ^ w - 1) := by
  unfold bump
  have hc := c.isLt
  split
  · next h => subst h; simp
  · next h =>
    have : c.toNat ≠ 2 ^ w - 1 := fun e => h (BitVec.eq_of_toNat_eq (by simp [e]))
    have hw : 0 < w := by
      rcases Nat.eq_zero_or_pos w with e | e
      · subst e; omega
      · exact e
    have h1 : (1 : BitVec w).toNat = 1 := by
      simpa using Nat.mod_eq_of_lt (Nat.one_lt_two_pow (by omega : w ≠ 0))
    rw [BitVec.toNat_add, h1, Nat.mod_eq_of_lt (by omega)]
    omega

/-- A log keeps at most its newest entries. -/
theorem length_lastN {α : Type} (n : Nat) (l : List α) : (lastN n l).length = min n l.length := by
  simp only [lastN, List.length_drop]; omega

@[simp] theorem getLsbD_setBit {w : Nat} (x : BitVec w) (i j : Nat) (h : i < w) :
    (setBit x i).getLsbD j = (x.getLsbD j || decide (j = i)) := by
  simp only [setBit, BitVec.getLsbD_or, BitVec.getLsbD_ofNat, Nat.testBit_two_pow]
  by_cases e : i = j
  · subst e; simp [h]
  · have e' : j ≠ i := fun h => e h.symm
    simp [e, e']

/-! ### Outcomes -/

/-- A meaning answers the block's effect and leaves the queue. -/
theorem act_eq_next (s t : State) (f : Block → Block) : s.act f = .next t ↔ t = { s with toBlock := f s.toBlock } := by
  constructor
  · intro h; injection h with h; exact h.symm
  · rintro rfl; rfl

theorem act_next (s : State) (f : Block → Block) : s.act f = .next { s with toBlock := f s.toBlock } := rfl

/-- A step with an empty queue. -/
theorem step_idle (s : State) (h : s.pending = []) : step s = .next (tickStep s) := by simp [step, h]

/-- The idle step leaves the queue. -/
@[simp] theorem tickStep_pending (s : State) : (tickStep s).pending = s.pending := rfl

/-! ### Interrupts (R508, R509, R648) -/

/-- A signal sends a message or sets a pending bit, and does nothing else. -/
theorem signal_eq (v : Nat) (b : Block) : b.signal v =
    { b with
      link := { b.link with pba := (b.signal v).link.pba }
      host := { b.host with out := (b.signal v).host.out } } := rfl

/-- A masked vector keeps what it would have sent as its pending bit. -/
theorem signal_masked (v : Nat) (b : Block) (hl : b.link.live = true) (hx : b.link.msixOn = true)
    (hm : (b.link.msix.getD v {}).mask = true) :
    b.signal v = { b with link := { b.link with pba := setBit b.link.pba v } } := by
  simp only [Block.signal, hl, hx, hm, Bool.and_self, Bool.not_true, Bool.and_false, Bool.false_eq_true, if_true, if_false]

/-- An unmasked vector sends its message. -/
theorem signal_unmasked (v : Nat) (b : Block) (hl : b.link.live = true) (hx : b.link.msixOn = true)
    (hm : (b.link.msix.getD v {}).mask = false) :
    b.signal v = { b with host := { b.host with out := b.host.out ++ [.msix v] } } := by
  simp only [Block.signal, hl, hx, hm, Bool.and_self, Bool.not_false, Bool.and_false, Bool.false_eq_true, if_true, if_false]
  rw [← hx]

/-- A cause bit is set. -/
theorem cause_eventCause (i : Nat) (b : Block) : (b.cause i).host.eventCause = setBit b.host.eventCause i := by
  unfold Block.cause; simp only; split <;> rfl

/-- A cause that is set already signals nothing. -/
theorem cause_again (i : Nat) (b : Block) (h : b.host.eventCause.getLsbD i = true) :
    b.cause i = { b with host := { b.host with eventCause := setBit b.host.eventCause i } } := by
  simp [Block.cause, h]

/-- The boot phase that is entered, and when. -/
theorem enter_boot (p : BootPhase) (b : Block) : (b.enter p).boot = { b.boot with phase := p, since := b.now } := by
  simp only [Block.enter, Block.cause]; split <;> rfl

/-- The state of the feature negotiation. -/
theorem hello_state (h : Hello) (b : Block) : (b.hello h).feat = { b.feat with state := h } := by
  unfold Block.hello
  split
  · next e => rw [← e]
  · simp only [Block.cause]; split <;> rfl

/-! ### Streams and events (R489 to R498) -/

/-- Taking a parcel spends its SEQ. -/
@[simp] theorem take_nextSeq (p : Parcel) (s : Stream) : (s.take p).nextSeq = s.nextSeq + 1 := by
  unfold Stream.take Stream.miss; simp only; split
  · rfl
  · split
    · split <;> rfl
    · rfl

/-- Taking a parcel leaves the ring as it is set up. -/
theorem take_ring (p : Parcel) (s : Stream) :
    (s.take p).isOpen = s.isOpen ∧ (s.take p).slots = s.slots ∧ (s.take p).base = s.base ∧ (s.take p).head = s.head
      ∧ (s.take p).tail = s.tail ∧ (s.take p).held = s.held := by
  unfold Stream.take Stream.miss; simp only; split
  · exact ⟨rfl, rfl, rfl, rfl, rfl, rfl⟩
  · split
    · split <;> exact ⟨rfl, rfl, rfl, rfl, rfl, rfl⟩
    · exact ⟨rfl, rfl, rfl, rfl, rfl, rfl⟩

/-- What is emitted changes the streams and the count of dropped traces, and nothing else. -/
theorem emit_eq (st : Nat) (type : BitVec 16) (unit : BitVec 8) (pl : Bytes) (ins : List InRef) (b : Block) :
    b.emit st type unit pl ins =
      { b with
        host := { b.host with streams := (b.emit st type unit pl ins).host.streams }
        flt := { b.flt with traceDrop := (b.emit st type unit pl ins).flt.traceDrop } } := by
  unfold Block.emit
  split <;> rfl

/-- There are as many streams after. -/
@[simp] theorem emit_streams_length (st : Nat) (type : BitVec 16) (unit : BitVec 8) (pl : Bytes) (ins : List InRef) (b : Block) :
    (b.emit st type unit pl ins).host.streams.length = b.host.streams.length := by
  unfold Block.emit
  split <;> simp [Block.trace, Block.toStream]

/-- A parcel for stream 2 or 7 is kept while the stream is closed. -/
theorem emit_closed (st : Nat) (type : BitVec 16) (unit : BitVec 8) (pl : Bytes) (ins : List InRef) (b : Block) (h2 : 2 ≤ st)
    (h : (b.host.streams.getD st {}).isOpen = false) : b.emit st type unit pl ins = b := by
  have : ¬ st < 2 := by omega
  simp only [Block.emit, Stream.numbers, h, this, decide_false, Bool.or_self, Bool.false_eq_true, if_false]

/-- An event while stream 2 is closed changes nothing. -/
theorem event_closed (code : Nat) (source : BitVec 8) (body : Bytes) (b : Block) (h : (b.host.streams.getD 2 {}).isOpen = false) :
    b.event code source body = b := emit_closed 2 _ _ _ _ b (Nat.le_refl 2) h

/-! ### Commands of the queues (R475 to R488) -/

/-- There are as many queues after a command changes. -/
@[simp] theorem withCmd_queues_length (r : CmdRef) (f : Cmd → Cmd) (b : Block) :
    (b.withCmd r f).host.queues.length = b.host.queues.length := by
  simp [Block.withCmd]

/-- A command's change leaves every other queue. -/
theorem withCmd_other (r : CmdRef) (f : Cmd → Cmd) (b : Block) (j : Nat) (h : j ≠ r.q) :
    (b.withCmd r f).host.queues.getD j {} = b.host.queues.getD j {} := by
  simp only [Block.withCmd, List.getD_eq_getElem?_getD]
  have e : ¬ (r.q : Nat) = j := fun e => h e.symm
  rw [List.getElem?_modify]
  simp [e]

/-- Starting a command does nothing, ends it with a status of R484, or runs it. -/
theorem begin_cases (r : CmdRef) (op : Nat) (inRange : Cmd → Bool) (run : Cmd → Block → Block) (b : Block) :
    (b.starting r op = none ∧ b.begin r op inRange run = b)
    ∨ ∃ c, b.starting r op = some c ∧
      ((c.fieldsOk inRange = false ∧ b.begin r op inRange run = b.finish r stField 0 0 0)
      ∨ (c.fieldsOk inRange = true ∧ (∃ f, c.feature = some f ∧ b.committed f = false) ∧ b.begin r op inRange run = b.finish r stFeature 0 0 0)
      ∨ (c.fieldsOk inRange = true ∧ (∀ f, c.feature = some f → b.committed f = true) ∧ b.begin r op inRange run = run c b)) := by
  cases h : b.starting r op with
  | none => exact .inl ⟨rfl, by simp [Block.begin, h]⟩
  | some c =>
    refine .inr ⟨c, rfl, ?_⟩
    rcases Bool.eq_false_or_eq_true (c.fieldsOk inRange) with hf | hf
    · cases he : c.feature with
      | none => exact .inr (.inr ⟨hf, (fun g hg => by cases hg), by simp [Block.begin, h, hf, he]⟩)
      | some f =>
        rcases Bool.eq_false_or_eq_true (b.committed f) with hc | hc
        · exact .inr (.inr ⟨hf, fun g hg => by cases hg; exact hc, by simp [Block.begin, h, hf, he, hc]⟩)
        · exact .inr (.inl ⟨hf, ⟨f, rfl, hc⟩, by simp [Block.begin, h, hf, he, hc]⟩)
    · exact .inl ⟨hf, by simp [Block.begin, h, hf]⟩

end Sys2Proof.Machine
end

