-- ==== Sys2Proof/Laws/Verify.lean ====
section
/-! SUPPORT. What a unit's reads do (R174, R180, R181): what verification can answer, that reads which meet nothing and seals that hold leave the
block as it was, and that stored objects without an uncorrectable error read without effect. -/

namespace Sys2Proof.Machine

@[simp] theorem readAs_nil (p : Parcel) : readAs [] p = .intact := rfl

/-- An intact parcel whose seal holds is consumed, and nothing else happens. -/
theorem Block.verify_intact {p : Parcel} (h : sealFault p = none) (unit : BitVec 8) (b : Block) : b.verify p .intact unit = (some p, b) := by
  simp [Block.verify, h]

/-- A parcel that is consumed has a seal that holds, and its verification changes nothing. -/
theorem Block.verify_some {p q : Parcel} {seen : Seen} {unit : BitVec 8} {b b1 : Block} (h : b.verify p seen unit = (some q, b1)) :
    b1 = b ∧ sealFault q = none ∧ (seen = .intact ∧ q = p ∨ seen = .altered q) := by
  cases seen with
  | intact =>
    simp only [Block.verify] at h
    split at h
    · cases h; exact ⟨rfl, ‹_›, .inl ⟨rfl, rfl⟩⟩
    · cases h
  | altered x =>
    simp only [Block.verify] at h
    split at h
    · cases h; exact ⟨rfl, ‹_›, .inr rfl⟩
    · cases h
  | uncorrectable => cases h
  | denied => cases h

/-- Verification that ends with every parcel consumed changes nothing. -/
theorem Block.verifyAll_true {reads : Reads} {unit : BitVec 8} :
    ∀ {ps : List Parcel} {b b1 : Block}, b.verifyAll reads unit ps = (true, b1) → b1 = b
  | [], _, _, h => by cases h; rfl
  | p :: ps, b, b1, h => by
    simp only [Block.verifyAll] at h
    split at h
    · rename_i h1
      rw [Block.verifyAll_true h]
      exact (Block.verify_some h1).1
    · cases h

/-- Parcels whose seals hold are all consumed when the reads meet nothing. -/
theorem Block.verifyAll_clean {unit : BitVec 8} :
    ∀ {ps : List Parcel}, (∀ p ∈ ps, sealFault p = none) → ∀ b : Block, b.verifyAll [] unit ps = (true, b)
  | [], _, _ => rfl
  | p :: ps, h, b => by
    simp only [Block.verifyAll, readAs_nil, Block.verify_intact (h p (List.mem_cons_self ..))]
    exact Block.verifyAll_clean (fun q hq => h q (List.mem_cons_of_mem _ hq)) b

/-- The parcels that references name are parcels of the pool. -/
theorem Block.heldParcels_pool {rs : List InRef} {b : Block} {p : Parcel} (h : p ∈ b.heldParcels rs) : p ∈ b.host.pool := by
  obtain ⟨r, -, hr⟩ := List.mem_filterMap.mp h
  exact List.mem_of_find?_eq_some hr

/-- References to parcels whose seals hold are all consumed when the reads meet nothing. -/
theorem Block.verifyRefs_clean {b : Block} (h : ∀ p ∈ b.host.pool, sealFault p = none) (rs : List InRef) (unit : BitVec 8) :
    b.verifyRefs rs [] unit = (true, b) :=
  Block.verifyAll_clean (fun _ hp => h _ (Block.heldParcels_pool hp)) b

/-- With no uncorrectable error in Den, reading stored objects has no effect. -/
@[simp] theorem Block.readObjects_clean {b : Block} (h : b.den.ue = []) (as : List Nat) : b.readObjects as = b := by
  unfold Block.readObjects
  generalize as.eraseDups = l
  induction l with
  | nil => rfl
  | cons a l ih => simpa [h] using ih

end Sys2Proof.Machine
end

