-- ==== Sys2Proof/WellFormed.lean ====
section
/-! DEFINITION. Which operands the outside can send: the bounds that the spec puts on what arrives with a command. `exec` is
total and does not ask for them. -/

namespace Sys2Proof

/-- A parcel that the fabric can carry: at most 129 beats (R18), a stream and a chip number in their fields. -/
def Parcel.wf (p : Parcel) : Bool := decide (p.payload.length ≤ 4112) && p.chip.extractLsb' 12 4 == 0

/-- What a unit sees of a parcel. -/
def Seen.wf : Seen → Bool
  | .altered p => p.wf
  | _ => true

/-- What goes wrong with parcels that are read. -/
def Misread.wf (m : Misread) : Bool := m.seen.wf

/-- A CSI-2 long packet: a 16-bit word count, a data type and a virtual channel (R198). -/
def LongPkt.wf (p : LongPkt) : Bool :=
  decide (p.payload.length < 65536) && decide (p.dt.toNat < 64) && decide (p.vc.toNat < 32)

/-- A CSI-2 short packet. -/
def ShortPkt.wf (p : ShortPkt) : Bool := decide (p.vc.toNat < 32)

/-- A plan: six lane lists of at most four lanes each (R275), and the projections at the floor and after at most five raises of each of the
four islands. -/
def PlanIn.wf (p : PlanIn) : Bool :=
  p.lanes.length == 6 && (p.lanes.all fun l => decide (l.length ≤ 4)) && decide (p.order.length ≤ 6) && decide (p.steps.length ≤ 21)

/-- A DMA delivery. -/
def DmaData.wf : DmaData → Bool
  | .headers hs => hs.all Parcel.wf
  | .parcel p => p.wf
  | .failed => true

/-- A register write: an offset in BAR0 (Table 14-2) and a value in the access size. -/
def RegWrite.wf : RegWrite → Bool
  | .bar0 off size value => decide (off < 65536) && decide (value.toNat < 2 ^ (8 * size))
  | .linkPm code => decide (code.toNat ≤ 4)
  | _ => true

/-- A beat: zero seal sideband except on LAST and ONLY (R19). -/
def Beat.wf (b : Beat) : Bool := b.kind.getLsbD 1 || b.sealWord == 0

/-- A handshake signal. -/
def Handshake.wf : Handshake → Bool
  | .request b => b.wf
  | _ => true

/-- The operands of a command. -/
def Instr.wf : Instr → Bool
  | .thermosArbitration v w => decide (v.getD 0 < 2 ^ 64) && decide (w.getD 0 < 2 ^ 64)
  | .slotAttempt f => f.all fun s => decide (s.1 + s.2.length ≤ 2 ^ 29)              -- 512 MiB (R46)
  | .dramTrainingDone _ m => decide (m ≤ 8192)
  | .lowerHalfRead off => decide (off < 65536)
  | .planCommit p => p.wf
  | .frameStart _ p => p.wf
  | .frameEnd _ p => p.wf
  | .lineStart _ _ p => p.wf
  | .longPacket _ p => p.wf
  | .embedPacket _ p => p.wf
  | .sensorReadDone _ burst => decide ((burst.getD []).length ≤ 256)
  | .ifcInput _ s => s.wf
  | .foxBandSeal _ rs => rs.all Misread.wf
  | .preintBuild rs => rs.all Misread.wf
  | .poseAssembly rs => rs.all Misread.wf
  | .predEmit rs => rs.all Misread.wf
  | .owlEngineScore _ i => i.reads.all Misread.wf
  | .vioAssembly i => i.reads.all Misread.wf && decide (i.gates.length ≤ 16)
  | .badgerBlockOpDone _ _ _ _ rs => rs.all Misread.wf
  | .guestMerge rs => rs.all Misread.wf
  | .mapWrite o => decide (o.payload.length ≤ 4096)
  | .sramScrub a _ => decide (a.toNat < 2 ^ 25)                                      -- 32 MiB of SRAM (Table 12-1)
  | .bar4Write _ d => decide (d.length ≤ 256)                                        -- max payload (Table 14-1)
  | .sidebandRead _ _ n => decide (n ≤ 1024)
  | .streamParcelWrite _ s => s.wf
  | .rollCallReceive _ p => p.wf
  | .assign p => p.wf
  | .readReq _ p => p.wf
  | .readResp _ p => p.wf
  | .join p => p.wf
  | .joinReply p => p.wf
  | .fragAckReceive p => p.wf
  | .guestFragReceive p => p.wf
  | .leave p => p.wf
  | .sealReport p => p.wf
  | .bridgeBeat x y h => x != y && h.wf
  | .edgeBeatIn _ b _ => decide (b.kind.toNat < 4)
  | .clearWrite off _ => decide (off < 65536)
  | .registerWrite w => w.wf
  | .dmaReadCompletion _ d => d.wf
  | _ => true

end Sys2Proof
end

