-- ==== Sys2Proof/Tests/Slice0.lean ====
section
/-! SUPPORT. Tests of the model: an ill-formed term for each check of `Instr.wf`; the worked examples of the spec, whose expected
values are the spec's own; and, for every clause of an obligation that has hypotheses, a state and operands that meet them all
(theorems `wit_<obligation>_<clause>`). -/

open Sys2Proof Sys2Proof.Machine

section Slice0Tests
set_option Elab.async false

/-! ### Helpers: small states -/

def pcl : Parcel := { type := 0, len := 0, stream := 0, chip := 0, seq := 0, producer := 0, payload := [], sealWord := 0 }
def c0 : Cmd := { id := 0, op := 0, entry := 0 }
def mk (f : Block → Block) : State := { State.reset with toBlock := f State.reset.toBlock }
def rdy (f : Block → Block) : State := mk fun b => f { b with boot.phase := .ready }
def ph (p : BootPhase) (n : Nat) (f : Block → Block) : State := mk fun b => f { b with boot.phase := p, thermos.tb := BitVec.ofNat 64 n }
/-- A settings page of a type and instance with fields (offset, bytes, value). -/
def page (type inst : Nat) (fs : List (Nat × Nat × Nat)) : Memory :=
  fs.foldl (fun m f => memWriteBytes m f.1 (leBytes f.2.1 f.2.2)) (memOf (leBytes 2 type ++ leBytes 2 1 ++ [0, BitVec.ofNat 8 inst]))
/-- A set with pages at positions from 0. -/
def set_ (ps : List Memory) : List Memory := ps ++ List.replicate (64 - ps.length) []
/-- A command entry: its opcode and fields (offset, value). -/
def cmd (op : Nat) (fs : List (Nat × Nat)) : Cmd :=
  { id := 1, op := BitVec.ofNat 8 op, entry := BitVec.ofNat 512 (op + 2 ^ 32 + (fs.map fun f => f.2 * 2 ^ (8 * f.1)).sum) }
/-- A ready block whose queue 0 holds one command, with a feature bit committed. -/
def withCmd (feat : Nat) (c : Cmd) (b : Block) : Block :=
  { b with boot.phase := .ready, feat.committed := 1 <<< feat, host.queues := b.host.queues.set 0 { enabled := true, sqSize := 2, cqSize := 2, cmds := [c] } }
def rdyCmd (feat : Nat) (c : Cmd) (f : Block → Block) : State := mk fun b => f (withCmd feat c b)
def r1 : CmdRef := ⟨0, 1⟩
def seven : State → Parcel := fun s => s.flowParcel 0x92 0x0110 0x0E [1, 2, 3, 4] []
def camPage : Memory := page 2 0 [(16, 1, 1), (24, 2, 8), (26, 2, 4), (33, 1, 0x2A), (35, 1, 1), (56, 4, 100)]
def slotPage : Memory := page 2 2 [(96, 1, 1), (105, 1, 3), (107, 1, 1), (110, 1, 8), (136, 4, 1000), (152, 1, 1)]
def goodCore : Memory := page 1 0 [(16, 1, 30), (256, 4, 8000000), (264, 4, 1), (268, 4, 1), (272, 1, 8), (273, 1, 7), (284, 4, 1), (288, 1, 1),
    (290, 2, 1), (296, 2, 1)]
/-- A settings set that passes CHECK: one camera, inertial slot 0 with six mapped channels of one IFC group, and the frames they name. -/
def goodPort : Memory := page 2 0 ([(4, 1, 1), (16, 1, 1), (18, 1, 1), (20, 4, 80000), (24, 2, 1), (26, 2, 1), (33, 1, 0x2A), (43, 1, 0xFF), (56, 4,
    100), (72, 4, 1),
  (77, 1, 1), (96, 1, 1), (97, 1, 0), (100, 4, 1000000), (105, 1, 0), (107, 1, 1), (110, 1, 12), (111, 1, 6), (112, 1, 2), (113, 1, 16), (119, 1, 1),
      (144, 4, 1000)]
  ++ (List.range 6).flatMap fun i => [(120 + 2 * i, 1, 2 * i), (121 + 2 * i, 1, i)])
def goodTable : Memory := page 5 0 [(4, 1, 3), (64, 1, 1), (72, 4, 0x3F800000), (64 + 48 * 6, 1, 1), (64 + 48 * 6 + 8, 4, 0x3F800000)]
def goodGroup : Memory := page 3 0 ((4, 1, 2) :: (List.range 6).flatMap fun i => [(64 + 128 * i, 1, 1), (65 + 128 * i, 1, 1), (66 + 128 * i, 1, 0),
    (70 + 128 * i, 1, 2)])
/-- A payload of a length with fields (offset, bytes, value). -/
def pay (n : Nat) (fs : List (Nat × Nat × Nat)) : Bytes := memBytes (fs.foldl (fun m f => memWriteBytes m f.1 (leBytes f.2.1 f.2.2)) []) 0 n
/-- A parcel that the engine seals on an internal flow. -/
def sealed_ (stream type : Nat) (unit : BitVec 8) (p : Bytes) : Parcel := State.reset.flowParcel stream type unit p []
def raw (type : Nat) (stream producer : BitVec 8) (p : Bytes) : Parcel := 
  { type := BitVec.ofNat 16 type, len := BitVec.ofNat 16 p.length, stream := stream, chip := 0, seq := 0, producer := producer, payload := p, sealWord := 0 }
def band0 : Band := { index := 0, ownLo := 0, ownHi := 4, lane := 3 }
def frame0 : FoxFrame := { no := 5, port := 0, fs := 0, gen := 0, set := set_ [camPage], base := {}, bands := [band0] }
def line0 : Parcel := sealed_ 0x80 0x0101 0x08 [0, 0, 5, 0, 0, 0, 0, 0, 1, 0, 2, 0, 3, 0, 4, 0]
def inFox (f : FoxFrame) (b : Block) : Block := { b with cfg.active := set_ [camPage], fox.cams := b.fox.cams.set 0 { frames := [f] } }
def priorCmd : Cmd := { cmd 0x40 [(8, 64), (16, 256)] with stage := .running, heads := true }
def priorPay : Bytes := pay 152 ([(4, 4, 0), (8, 8, 9)] ++ ([3, 13, 19, 24, 28, 31, 33].map fun i => (16 + 4 * i, 4, 0x3F800000)))
def fusePage : Memory := page 6 0 [(96, 2, 1)]
def owlPage : Memory := page 8 0 [(16, 1, 1)]
def owlJob : OwlJob :=
    { no := 0, owner := some r1, slot := 0, tag := 1, gen := 0, use := 0, model := [], threshold := 0, samples := [⟨[], 0⟩], inputs := [] }
def solRec (p : Bytes) : SolRec := { parcel := sealed_ 0xD8 0x0610 0x60 p, epoch := 0, age := 0, sealedAt := 0, cams := 0, priors := 0, table := 0 }
/-- A memory with a parcel stored at an address. -/
def store (a : Nat) (p : Parcel) (m : Memory) : Memory := memWriteBytes m a p.stored
def headPay (id : Nat) : Bytes := pay 256 [(0, 4, id), (31, 1, 1), (104, 8, 0x130000000)]
def headParcel (id : Nat) : Parcel := sealed_ 0xE0 0x0701 0x02 (headPay id)
def obsParcel : Parcel := sealed_ 0xE1 0x0702 0x02 (pay 64 [(5, 1, 1)])
/-- Keyframes 7 (hot) and 9 (in DRAM, with an observation), stored from the highest address down. -/
def mapMem (m : Memory) : Memory := store (hotAddr 3) (headParcel 7) (store (headAddr 9) (headParcel 9) (store 0x130000000 obsParcel m))
/-- A Den with DRAM, keyframe 7 in hot slot 3 and keyframe 9 in DRAM with one observation. -/
def withMap (b : Block) : Block :=
  { b with den.usableMib := 28672, den.channels := 3, map.kfs := [⟨7, some 3⟩, ⟨9, none⟩], map.poolNext := 0x130001000,
           den.mem := mapMem [] }
def job0 : Job := { no := 4, cls := 0, pcg := false, carry := false, deadline := none, owner := none, tag := 0, gen := 0, epoch := 0, fmts := [], inputs := [], init := [], x := [], lam := 7, m := ⟨100, 0⟩, cost := some 9, decided := 1, core := page 1 0 [(272, 1, 3), (273, 1, 5), (288, 1, 5)] }
/-- A host job whose one BLOCK element, 2^30, does not fit the 8 fraction bits of its format. -/
def badJob : Job := { job0 with work := .load 0, cls := 3, fmts := (List.range 32).map fun r => ⟨BitVec.ofNat 8 r, 0, 8, 16⟩,
                                given := [sealed_ 0xD9 0x0602 0x01 (pay 1056 [(16 + 16, 4, 2 ^ 30)])] }
def vio0 : VioIn := ⟨[], 3, 2, 1, 4, []⟩
/-- A frame whose every band is sealed, with its t_mid in epoch 0 and one tracked record. -/
def track9 : Track := { id := 9, x := 0, y := 0, resp := 0, age := 1, status := 0, flags := 0, resid := 0, iters := 0, orient := 0, desc := 0 }
def wholeFrame : FoxFrame := { frame0 with bands := [{ band0 with isSealed := true, tracks := [track9] }], mid := some (0, 0) }
def frameC : Frame := { no := 5, fs := 0, gen := 0, page := camPage }
def useOwl (use : Nat) (b : Block) : Block :=
  { b with cfg.active := set_ [page 8 0 [(16, 1, 1), (24, 1, use)]], boot.models := some [] :: List.replicate 7 none, boot.phase := .ready }
def preint0 : Parcel := sealed_ 0xC0 0x0410 0x28 (pay 16 [])
/-- A pool without parcels leaves the PREINT as the only parcel a VIO problem reads. -/
theorem onlyPreint {s : State} (q : Parcel) (hp : s.afu.preint = some q) (hw : s.badger.window = none) (ho : s.host.pool = []) (hq : sealFault q = none) :
    ∀ p : Parcel, s.afu.preint = some p ∨ s.badger.window = some p ∨ p ∈ s.host.pool → sealFault p = none := by
  intro p h
  simp only [hp, hw, ho, Option.some.injEq, reduceCtorEq, List.not_mem_nil, or_false] at h
  exact h ▸ hq
def readyVio (b : Block) : Block := { b with ep.running := true, afu.preintDone := true, afu.preint := some preint0 }
def hostJob : Job := { job0 with host := true, owner := some r1, deadline := some 5, cls := 1 }
def win7 : List (Nat × Nat) := [(24, 7), (32, 4096), (40, 0x180000), (48, 4096)]
def guestPage : Memory := page 9 0 [(16, 1, 64), (17, 1, 1), (18, 1, 3), (20, 2, 600), (22, 2, 64), (24, 4, 4096), (28, 4, 100), (32, 4, 100), (50,
    2, 1)]
/-- A staged fragment: slot, kind, generation, FRAG_NO and body. -/
def frag (slot kind gen no : Nat) (body : Bytes) : Parcel :=
  raw 0x0801 0 0x01 ([BitVec.ofNat 8 slot, BitVec.ofNat 8 kind] ++ leBytes 2 gen ++ leBytes 4 no ++ List.replicate 24 0 ++ body)
def guestObs : Bytes := pay 352 ([(0, 4, 1), (5, 1, 7)] ++ (List.range 7).map fun i => (16 + 48 * i, 4, i))
def guestPoints : Bytes := pay 464 ((List.range 7).map fun i => (16 + 64 * i + 22, 1, 1))
def arrived : Guest :=
    { st := .arriving, gen := 5, gid := 77, staged := [frag 63 2 5 1 guestObs, frag 63 3 5 2 guestPoints], kfs := [1], obsKfs := [1], lastFrag := 2 }
def posting9 : Parcel := sealed_ 0xE4 0x0705 0x02 (pay 80 [(2, 1, 1), (16, 4, 9)])
def point0 : Parcel := sealed_ 0xE2 0x0703 0x02 (pay 80 [(38, 1, 1)])
def withGuest (g : Guest) (b : Block) : Block :=
  { withMap b with cfg.active := set_ [guestPage], guests := b.guests.set 63 g, map.buckets := [⟨bucketOf 0, [0x130001000], 1⟩], map.poolNext := 0x130002000,
                   den.mem := mapMem (store (pointsAddr 0) point0 (store 0x130001000 posting9 [])) }
def fragCmd : Cmd := { cmd 0x51 [(8, 64), (16, 640), (28, 2)] with stage := .running, heads := true }
def q0 : Queue := { enabled := true, sqSize := 4, cqSize := 4, sqTail := 1 }
def st0 : Stream := { isOpen := true, slots := 16, base := 0x1000, tailAddr := 0x8000 }
def pose0 : Parcel := sealed_ 0 0x0420 0x28 (pay 16 [])
def onQ (q : Nat) (x : Queue) (b : Block) : Block :=
    { b with boot.phase := .ready, link.up := true, link.bme := true, host.queues := b.host.queues.set q x }
def onSt (k : Nat) (x : Stream) (b : Block) : Block :=
    { b with boot.phase := .ready, link.up := true, link.bme := true, host.streams := b.host.streams.set k x }
def openCmd : List (Nat × Nat) := [(24, 5), (26, 1), (28, 16), (32, 4096), (40, 8)]
def abortCmd : Cmd := { cmd 0x04 [(24, 0), (28, 9)] with id := 2 }
def victim : Cmd := { cmd 0x11 [] with id := 9, stage := .running }
def trailPage (role job : Nat) : Memory :=
  page 11 0 ([(16, 1, role), (18, 2, 8), (20, 4, 7), (24, 1, job), (32, 1, 0), (33, 1, 0), (56, 1, 4), (57, 1,
      4)] ++ (List.range 16).map fun i => (34 + i, 1, 0xFF))
def lanes01 (x : Lane) : List Lane := [x, x] ++ List.replicate 16 ({} : Lane)
def onTrail (role job : Nat) (x : Lane) (b : Block) : Block :=
  { b with boot.phase := .ready, cfg.active := set_ [trailPage role job], trail.lanes := lanes01 x, trail.assigned := true }
def flitOf (bs : Bytes) : BitVec 2048 := BitVec.ofNat 2048 (ofLe bs)
def goodFlit : BitVec 2048 := flitOf (List.replicate 248 0 ++ leBytes 4 (crc32c (List.replicate 248 0)).toNat)
def ctl (type : Nat) (p : Bytes) : Parcel := sealed_ 0xF0 type 0x80 p
def peer5 : Peer := { serial := 5, chip := some 3, strap := false, wide := false, settled := true, bundle := 0, hops := 0, heardAt := 0, nbs := [] }
def member3 : Guest := { arrived with gid := BitVec.ofNat 64 (memberGid 3), member := some 3 }
def job7 (slot gen cause last : Nat) : Bytes := pay 16 [(0, 4, 7), (4, 2, 0), (6, 1, slot), (8, 2, gen), (10, 2, cause), (12, 4, last)]
/-- A bridge from the Boot island into another. -/
def bridge (i : Island) (x : Bridge) (b : Block) : Block := { b with boot.phase := .ready, flt.bridges := b.flt.bridges.set (bridgeNo .boot i) x }
def beat0 : Beat := ⟨1, 5, 0⟩
def edgeC (f : Block → Block) : State := mk fun b => f { b with boot.phase := .ready, boot.package := .c }
def okIsland (i : Nat) (b : Block) : Block :=
    { b with pwr.pwrReq := b.pwr.pwrReq.set i true, pwr.pwrAck := b.pwr.pwrAck.set i true, pwr.iso := b.pwr.iso.set i false, flt.clockOn := b.flt.clockOn.set i true }
/-- The directory of `withMap` with nothing in DRAM. -/
def bareMap (b : Block) : Block := { withMap b with den.mem := [] }

/-! ### Ill-formed operands are refused -/

def longParcel : Parcel := { pcl with payload := List.replicate 4113 0 }
def badChip : Parcel := { pcl with chip := 0x1000 }
def badBeat : Beat := ⟨0, 1, 0⟩
def badReads : Reads := [⟨0, 0, 0, .altered badChip⟩]
def shortPlan : PlanIn := ⟨[], [], []⟩
def late : Projection := ⟨100, true, false, false, [⟨.fox, 5, 200⟩]⟩
def badVc : ShortPkt := ⟨32, 0, .ok⟩
def badDt : LongPkt := ⟨0, 0x40, .ok, [], true, false⟩

theorem smoke_parcel : (longParcel.wf || badChip.wf) = false := by decide +kernel
theorem smoke_csi : (badDt.wf || { badDt with dt := 0, vc := 32 : LongPkt }.wf || badVc.wf || Instr.wf (.frameStart 0 badVc)
    || Instr.wf (.frameEnd 0 badVc) || Instr.wf (.lineStart 0 false badVc) || Instr.wf (.longPacket 0 badDt) || Instr.wf (.embedPacket 0 badDt)) = false := by
  decide +kernel
theorem smoke_longPacket : LongPkt.wf ⟨0, 0, .ok, List.replicate 65536 0, true, false⟩ = false := by
  simp only [LongPkt.wf, List.length_replicate]; decide
theorem smoke_images : Instr.wf (.slotAttempt [(2 ^ 29, [0])]) = false := by decide +kernel
theorem smoke_beats : (badBeat.wf || (Handshake.request badBeat).wf || Instr.wf (.bridgeBeat .boot .fox (.request badBeat))
    || Instr.wf (.bridgeBeat .fox .fox .acknowledge)) = false := by decide +kernel
theorem smoke_boot : (Instr.wf (.thermosArbitration (some (2 ^ 64)) none) || Instr.wf (.thermosArbitration none (some (2 ^ 64)))
    || Instr.wf (.dramTrainingDone 0 8193) || Instr.wf (.planCommit shortPlan)) = false := by decide +kernel
theorem smoke_plan : (PlanIn.wf ⟨List.replicate 6 [0, 1, 2, 3, 4], [], []⟩ || PlanIn.wf ⟨List.replicate 6 [], List.replicate 7 0, []⟩
    || PlanIn.wf ⟨List.replicate 6 [], [], List.replicate 22 late⟩) = false := by decide +kernel
theorem smoke_registers : (Instr.wf (.lowerHalfRead 65536) || Instr.wf (.clearWrite 65536 0) || Instr.wf (.registerWrite (.bar0 65536 4 0))
    || Instr.wf (.registerWrite (.bar0 0 4 0x100000000)) || Instr.wf (.registerWrite (.linkPm 5))) = false := by decide +kernel
theorem smoke_link : (Instr.wf (.bar4Write 0 (List.replicate 257 0)) || Instr.wf (.sidebandRead 0 0 1025)
    || Instr.wf (.dmaReadCompletion ⟨0, 0⟩ (.parcel badChip)) || Instr.wf (.dmaReadCompletion ⟨0, 0⟩ (.headers [badChip]))) = false := by
  decide +kernel
theorem smoke_units : (Instr.wf (.sensorReadDone 0 (some (List.replicate 257 0))) || Instr.wf (.ifcInput 0 (.altered badChip))
    || Instr.wf (.foxBandSeal 0 badReads) || Instr.wf (.preintBuild badReads) || Instr.wf (.poseAssembly badReads) || Instr.wf (.predEmit badReads)
    || Instr.wf (.owlEngineScore .gate ⟨0, [], [], badReads⟩) || Instr.wf (.vioAssembly ⟨badReads, 0, 0, 0, 0, []⟩)
    || Instr.wf (.vioAssembly ⟨[], 0, 0, 0, 0, List.replicate 17 (0, 0)⟩) || Instr.wf (.sramScrub 0x2000000 .clean)
    || Instr.wf (.badgerBlockOpDone 0 0 .next true badReads) || Instr.wf (.guestMerge badReads)
    || Instr.wf (.streamParcelWrite 0 (.altered badChip))) = false := by
  decide +kernel
theorem smoke_mapWrite : Instr.wf (.mapWrite ⟨.points, 0, 0, List.replicate 4097 0, []⟩) = false := by decide +kernel
theorem smoke_trails : (Instr.wf (.rollCallReceive 0 badChip) || Instr.wf (.assign badChip) || Instr.wf (.readReq 0 badChip) || Instr.wf (.readResp 0 badChip)
    || Instr.wf (.join badChip) || Instr.wf (.joinReply badChip) || Instr.wf (.fragAckReceive badChip) || Instr.wf (.guestFragReceive badChip)
    || Instr.wf (.leave badChip) || Instr.wf (.sealReport badChip)) = false := by decide +kernel

/-! ### The worked examples of the spec -/

def orchardEp : Ep := { running := true, base := 0, n := 0, rate := 120 }
def viaPose : InRef := { chip := 0, producer := 0x63, stream := 0, seq := 0, crc := 0x5A3C91E7, type := 0, flags := 0 }
def ascii9 : Bytes := [0x31, 0x32, 0x33, 0x34, 0x35, 0x36, 0x37, 0x38, 0x39]
/-- The walk's READY: 8 lanes, 16 tiles, slot A after slot B failed. -/
def orchardReady : State :=
  rdy fun b => { b with flt.capOn := true, boot.causeB := 7, boot.booted := true, boot.bootedSlot := .a, boot.custKeyBlank := false,
                        boot.policy := 0x7EDFF }
/-- Tiles 2, 5, 7, 9 and 13 fenced (Table 16-5). -/
def orchardFenced : Flt := { capOn := true, tiles := 0xDD5B, step := 1 }
def sh2584 : Int := requant 16 2584 10 6

-- Table 05-3: the check values of the two polynomials
theorem test_crc32c : crc32c ascii9 = 0xE3069283 := by decide +kernel
theorem test_crc16 : crc16 ascii9 = 0x29B1 := by decide +kernel
-- Table 05-6: the LINEAGE of the epoch 2461 POSE
theorem test_lineage : lineageOf [viaPose] = 0xA549 := by decide +kernel
theorem test_lineage_no_inputs : lineageOf [] = 0 := by decide
-- chapter 00: a tie goes to the even neighbour, an excess saturates
theorem test_requant_tie : sh2584 = 162 := by decide +kernel
theorem test_requant_saturates : requant 16 3000000 8 8 = 0x7FFF := by decide +kernel
theorem test_bfx16 : field (bfx16Of 0 [3]) 0 2 = 24576 ∧ signedOf 8 (field (bfx16Of 0 [3]) 32 1) = -13 := by decide +kernel
-- chapter 04: boundaries at floor(n × 250,000,000 / 120), and the exposure midpoint
theorem test_boundary : orchardEp.boundary 2461 = 5127083333 ∧ orchardEp.boundary 2462 = 5129166666 := by decide +kernel
theorem test_epochOf : orchardEp.epochOf 5127083333 = 2461 ∧ orchardEp.epochOf 5127083332 = 2460 := by decide +kernel
theorem test_midExposure : midExposure 5127083333 5127183333 0 0 = (false, 100000, 5127133333) := by decide +kernel
-- Table 16-5: after the step to 60 Hz
theorem test_boundary_60 : { orchardEp with base := 8127083333, n := 3901, rate := 60 : Ep }.boundary 3902 = 8131249999 := by decide +kernel
-- chapter 19: CAPACITY at READY and after tile 7's fence
theorem test_capacity : ({ capOn := true } : Flt).capacity = 0x02201008 := by decide +kernel
theorem test_capacity_stepped : orchardFenced.capacity = 0x12200B08 ∧ orchardFenced.level = 1 := by decide +kernel
theorem test_status : orchardReady.statusWord = 6 := by decide +kernel
theorem test_bootStatus : orchardReady.bootStatusWord = 0x00020700 := by decide +kernel
theorem test_devId : orchardReady.reg32 0 = 0x00010120 := by decide +kernel
-- chapter 02: the offer under the walk's policy, and the baseline set
theorem test_offer : orchardReady.offerValue = 0x7EDFF := by decide +kernel
theorem test_baseline : baseline &&& orchardReady.offerValue = 0x18002 := by decide +kernel
-- Table 05-2 and R18: a KF_OBS fragment takes 128 beats and 19 flits
theorem test_flits : flitsOf { pcl with payload := List.replicate 4080 0 } = 19 := by decide +kernel
-- chapter 12: where keyframe 12 and map point 40,000 lie
theorem test_addresses : headAddr 12 = 0x100000F00 ∧ hotAddr 12 = 0x180F00 ∧ pointsAddr (40000 / 63) + 16 + 16 + 64 * (40000 % 63) = 0x10527AEA0 := by
  decide
-- chapter 11: 7/4 rounds to 2; 2/4 rounds to the even 0 and is held at 1
theorem test_lambda : nextLambda 7 false true = 2 ∧ nextLambda 2 false true = 1 := by decide +kernel
-- chapter 10: 64.0 × 214 is key 13,696
theorem test_scaleKey : scaleKey 0x42800000 0x43560000 0 = 13696 := by decide +kernel
-- chapter 08: each tracking camera needs two lanes
theorem test_lanes : lanesFor 0 1280 1125 false = 2 := by decide +kernel
-- chapter 20: at the first epoch a triggered camera's pin leaves high impedance at its inactive level; the others keep it
theorem test_pinsAtFirstEpoch :
    (((rdy fun b => { b with cfg.active := set_ [page 2 0 [(16, 1, 1), (42, 1, 1), (43, 1, 3), (76, 1, 1)]] }).toBlock.restPins []).pins.trigLevel,
     ((rdy fun b => { b with cfg.active := set_ [page 2 0 [(16, 1, 1), (42, 1, 1), (43, 1, 3), (76, 1, 1)]] }).toBlock.restPins []).pins.trigDriven)
    = ([false, false, false, true, false, false, false, false], [false, false, false, true, false, false, false, false]) := by decide +kernel
-- R399, R406 and Table 19-14
theorem test_bankAndChannel : sramBank 0x180F40 = 61 ∧ dramChannel 4 0x100000F00 = 3 ∧ dramChannel 2 0x100000F00 = 1
    ∧ dramChannel 1 0x100000F00 = 0 := by
  decide
theorem test_pciConfig : orchardReady.pciConfig.device = 0x0120 ∧ orchardReady.pciConfig.vendor = 0x1F4B := by decide +kernel

/-! ### What meets the hypotheses of each clause -/

set_option maxRecDepth 100000

theorem wit_IdleTick_0 : ∃ (t : Thermos), (t.onVbk = true ∨ t.refRuns = false) :=
  ⟨{}, by decide +kernel⟩

theorem wit_IdleTick_1 : ∃ (t : Thermos), t.tbSource = TbSource.crystal ∧ t.xtalStopped = false :=
  ⟨{}, by decide +kernel⟩

theorem wit_IdleTick_2 : ∃ (t : Thermos), t.tbSource = TbSource.crystal ∧ t.xtalStopped = false :=
  ⟨{}, by decide +kernel⟩

theorem wit_IdleTick_3 : ∃ (s : Machine.State), s.pending = [] ∧ s.tim.syncPend = none :=
  ⟨mk (fun b => { b with tim.syncPend := none }), by decide +kernel⟩

theorem wit_ThermosClocks_0 : ∃ (s : Machine.State), s.boot.phase = BootPhase.thermosPor ∧ s.boot.since + 500000 ≤ s.now :=
  ⟨ph .thermosPor 500000 id, by decide +kernel⟩

theorem wit_ThermosClocks_1 : ∃ (s : Machine.State), (s.boot.phase ≠ BootPhase.thermosPor ∨ s.now < s.boot.since + 500000) :=
  ⟨mk (id), by decide +kernel⟩

theorem wit_ThermosClocks_3 : ∃ (s : Machine.State) (v : Bool), s.thermos.onVbk ≠ v :=
  ⟨mk fun b => {b with pins.rails := 3}, true, by decide +kernel⟩

theorem wit_ThermosClocks_4 : ∃ (s : Machine.State) (v : Bool), s.thermos.onVbk = v :=
  ⟨mk (fun b => { b with thermos.onVbk := (false) }), false, by decide +kernel⟩

theorem wit_ThermosClocks_5 : ∃ (s : Machine.State), s.thermos.xtalStopped = false ∧ s.thermos.onVbk = false :=
  ⟨mk (fun b => { b with thermos.xtalStopped := false, thermos.onVbk := false }), by decide +kernel⟩

theorem wit_ThermosClocks_6 : ∃ (s : Machine.State), s.thermos.xtalStopped = true :=
  ⟨mk (fun b => { b with thermos.xtalStopped := true }), by decide +kernel⟩

theorem wit_ColdPorAndCounter_0 :
    (∃ (s : Machine.State), s.boot.package ≠ Package.c)
    ∧ (∃ (s : Machine.State), s.boot.package = Package.c)
    ∧ (∃ (s : Machine.State), s.thermos.onVbk = true ∧ s.boot.package ≠ Package.c)
    ∧ (∃ (s : Machine.State) (a : ℕ) (f : ℕ), a < f ∧ s.thermos.onVbk = true)
    ∧ (∃ (s : Machine.State), s.thermos.xtalStopped = false ∧ s.thermos.onVbk = true ∧ s.boot.package ≠ Package.c)
    ∧ (∃ (s : Machine.State), s.boot.package = Package.c ∧ s.boot.phase = BootPhase.thermosPor) :=
  ⟨⟨mk (id), by decide +kernel⟩,
    ⟨mk (fun b => { b with boot.package := Sys2Proof.Machine.Package.c }), by decide +kernel⟩,
    ⟨mk (fun b => { b with thermos.onVbk := true }), by decide +kernel⟩,
    ⟨mk fun b => {b with thermos.onVbk := true}, 5, 6, by decide +kernel⟩,
    ⟨mk (fun b => { b with thermos.xtalStopped := false, thermos.onVbk := true }), by decide +kernel⟩,
    ⟨mk (fun b => { b with boot.package := Sys2Proof.Machine.Package.c, boot.phase := Sys2Proof.Machine.BootPhase.thermosPor }), by decide +kernel⟩⟩

theorem wit_ColdPorAndCounter_1 :
    (∃ (s : Machine.State), s.thermos.nv = NvOp.reading ∧ s.boot.package = Package.c)
    ∧ (∃ (s : Machine.State), s.thermos.nv = NvOp.incrementing)
    ∧ (∃ (s : Machine.State), s.thermos.nv ≠ NvOp.idle ∧ s.thermos.nvSince + 5000000 ≤ s.now)
    ∧ (∃ (s : Machine.State), (s.thermos.nv = NvOp.idle ∨ s.now < s.thermos.nvSince + 5000000)) :=
  ⟨⟨mk (fun b => { b with thermos.nv := Sys2Proof.Machine.NvOp.reading, boot.package := Sys2Proof.Machine.Package.c }), by decide +kernel⟩,
    ⟨mk (fun b => { b with thermos.nv := Sys2Proof.Machine.NvOp.incrementing }), by decide +kernel⟩,
    ⟨mk fun b => {b with thermos.nv := .reading, thermos.tb := 5000000}, by decide +kernel⟩,
    ⟨mk (id), by decide +kernel⟩⟩

theorem wit_MainResets_0 : ∃ (s : Machine.State), s.boot.phase ≠ BootPhase.thermosPor :=
  ⟨rdy id, by decide +kernel⟩

theorem wit_MainResets_1 : ∃ (s : Machine.State), s.boot.phase ≠ BootPhase.thermosPor ∧ s.pins.resetN = true :=
  ⟨rdy fun b => {b with pins.resetN := true}, by decide +kernel⟩

theorem wit_MainResets_2 : ∃ (s : Machine.State) (v : BitVec 32), s.boot.phase ≠ BootPhase.thermosPor ∧ v.getLsbD 16 = true
    ∧ BitVec.extractLsb' 0 16 v = 50085 :=
  ⟨rdy id, 0x1C3A5, by decide +kernel⟩

theorem wit_MainResets_3 : ∃ (s : Machine.State) (v : BitVec 32), s.boot.phase ≠ BootPhase.thermosPor ∧ ¬(v.getLsbD 16 = true
    ∧ BitVec.extractLsb' 0 16 v = 50085) :=
  ⟨ph .haltedNoboot 7 id, 0xC3A5, by decide +kernel⟩

theorem wit_RomProbe_0 : ∃ (s : Machine.State), s.boot.phase = BootPhase.mainPor ∧ s.pins.testEn = false ∧ s.boot.since + 250000 ≤ s.now
    ∧ s.boot.package ≠ Package.c :=
  ⟨ph .mainPor 250000 id, by decide +kernel⟩

theorem wit_RomProbe_1 : ∃ (s : Machine.State) (d : ℕ), s.boot.phase = BootPhase.mainPor ∧ s.pins.testEn = false ∧ s.boot.since + 250000 ≤ s.now
    ∧ s.boot.package ≠ Package.c ∧ 16777216 ≤ d ∧ d ≤ 536870912 :=
  ⟨ph .mainPor 250000 id, 16777216, by decide +kernel⟩

theorem wit_RomProbe_2 :
    (∃ (s : Machine.State), s.boot.phase = BootPhase.romProbe ∧ s.boot.flashMode = FlashMode.none ∧ s.boot.since + 5000000 ≤ s.now)
    ∧ (∃ (s : Machine.State) (w : BitVec 10), s.boot.phase = BootPhase.romProbe ∧ w ∈ s.boot.otp.readMask)
    ∧ (∃ (s : Machine.State), s.boot.phase = BootPhase.romProbe ∧ 2#10 ∉ s.boot.otp.readMask)
    ∧ (∃ (s : Machine.State), s.boot.phase = BootPhase.romProbe ∧ s.boot.flashMode = FlashMode.none ∧ 2#10 ∉ s.boot.otp.readMask)
    ∧ (∃ (s : Machine.State), s.boot.phase = BootPhase.romProbe ∧ s.boot.otp.complete = false ∧ s.boot.otpSince + 5000000 ≤ s.now)
    ∧ (∃ (s : Machine.State) (d : BitVec 32), s.boot.phase = BootPhase.romProbe ∧ s.boot.bootSrc = true ∧ s.boot.flashMode = FlashMode.none
        ∧ d.toNat < 16777216) :=
  ⟨⟨ph .romProbe 5000000 id, by decide +kernel⟩,
    ⟨ph .romProbe 0 fun b => {b with boot.otp.readMask := [7]}, 7, by decide +kernel⟩,
    ⟨mk (fun b => { b with boot.phase := Sys2Proof.Machine.BootPhase.romProbe }), by decide +kernel⟩,
    ⟨mk (fun b => { b with boot.phase := Sys2Proof.Machine.BootPhase.romProbe, boot.flashMode := Sys2Proof.Machine.FlashMode.none }),
        by decide +kernel⟩,
    ⟨ph .romProbe 5000000 id, by decide +kernel⟩,
    ⟨ph .romProbe 0 fun b => {b with boot.bootSrc := true}, 0xFFFFFF, by decide +kernel⟩⟩

theorem wit_RomProbe_3 : ∃ (s : Machine.State), s.boot.phase = BootPhase.slotVerify ∧ s.boot.bootSrc = true :=
  ⟨mk (fun b => { b with boot.phase := Sys2Proof.Machine.BootPhase.slotVerify, boot.bootSrc := true }), by decide +kernel⟩

theorem wit_SlotFailures_0 : ∃ (s : Machine.State) (f : FlashImage) (n : SlotId), s.boot.phase = BootPhase.slotVerify ∧ s.boot.bootSrc = false
    ∧ s.boot.trying = some SlotId.a ∧ s.boot.order = [n] ∧ slotField (Block.slotRead SlotId.a f s.toBlock) 0 4 ≠ 1213026386 :=
  ⟨ph .slotVerify 9 fun b => {b with boot.trying := some .a, boot.order := [.b]}, [], .b, by decide +kernel⟩

theorem wit_SlotFailures_1 : ∃ (s : Machine.State) (n : SlotId), s.boot.phase = BootPhase.slotVerify ∧ s.boot.trying = some n :=
  ⟨ph .slotVerify 0 fun b => {b with boot.trying := some .a}, .a, by decide +kernel⟩

theorem wit_SlotFailures_2 : ∃ (s : Machine.State), s.boot.phase = BootPhase.slotVerify ∧ s.boot.since + 6250000000 ≤ s.now
    ∧ s.boot.trying = some SlotId.b ∧ s.boot.order = [] :=
  ⟨ph .slotVerify 6250000000 fun b => {b with boot.trying := some .b}, by decide +kernel⟩

theorem wit_SlotFailures_3 : ∃ (s : Machine.State), s.boot.phase = BootPhase.settingsLoad ∧ s.boot.since + 12500000 ≤ s.now
    ∧ s.boot.trying = some SlotId.b ∧ s.boot.order = [SlotId.a] :=
  ⟨ph .settingsLoad 12500000 fun b => {b with boot.trying := some .b, boot.order := [.a]}, by decide +kernel⟩

theorem wit_SlotFailures_4 : ∃ (s : Machine.State), s.boot.phase = BootPhase.slotVerify ∧ s.boot.romPair = Pair.a ∧ s.flt.control = Pair.a
    ∧ s.flt.pairB = true :=
  ⟨ph .slotVerify 0 id, by decide +kernel⟩

theorem wit_SlotFailures_5 : ∃ (s : Machine.State), s.boot.phase = BootPhase.slotVerify ∧ (s.boot.romPair = Pair.b ∨ s.flt.pairB = false) :=
  ⟨ph .slotVerify 0 fun b => {b with flt.pairB := false}, by decide +kernel⟩

theorem wit_BringupAndReady_0 :
    (∃ (s : Machine.State), s.boot.phase = BootPhase.settingsLoad ∧ s.boot.package = Package.h)
    ∧ (∃ (s : Machine.State) (l : Fin 8), s.boot.phase = BootPhase.bringup ∧ s.flt.foxDone.getLsbD ↑l = false)
    ∧ (∃ (s : Machine.State) (l : Fin 8), s.boot.phase = BootPhase.bringup ∧ s.flt.foxDone.getLsbD ↑l = false ∧ s.flt.fox.getLsbD ↑l = true)
    ∧ (∃ (s : Machine.State), s.boot.phase = BootPhase.bringup ∧ s.boot.since + 12500000 ≤ s.now)
    ∧ (∃ (s : Machine.State), s.boot.phase = BootPhase.bringup ∧ s.boot.dramDone = false)
    ∧ (∃ (s : Machine.State), s.boot.phase = BootPhase.bringup ∧ s.boot.dramDone = false ∧ s.boot.since + 10000000 ≤ s.now) :=
  ⟨⟨mk (fun b => { b with boot.phase := Sys2Proof.Machine.BootPhase.settingsLoad, boot.package := Sys2Proof.Machine.Package.h }), by decide +kernel⟩,
    ⟨mk (fun b => { b with boot.phase := Sys2Proof.Machine.BootPhase.bringup }), 0, by decide +kernel⟩,
    ⟨mk (fun b => { b with boot.phase := Sys2Proof.Machine.BootPhase.bringup }), 0, by decide +kernel⟩,
    ⟨ph .bringup 12500000 id, by decide +kernel⟩,
    ⟨ph .bringup 0 fun b => {b with den.populated := 3}, by decide +kernel⟩,
    ⟨ph .bringup 10000000 fun b => {b with den.populated := 3}, by decide +kernel⟩⟩

theorem wit_BringupAndReady_1 :
    (∃ (s : Machine.State), s.boot.phase = BootPhase.bringup ∧ s.broughtUp = true)
    ∧ (∃ (s : Machine.State), s.boot.phase = BootPhase.ready ∧ s.boot.rollBusy = true ∧ s.boot.otp.rollback = 0 ∧ s.boot.rollTarget = 1)
    ∧ (∃ (s : Machine.State), s.boot.phase = BootPhase.ready ∧ s.boot.rollBusy = true)
    ∧ (∃ (s : Machine.State), s.boot.phase = BootPhase.ready ∧ s.boot.rollBusy = false) :=
  ⟨⟨ph .bringup 12500000 fun b => {b with boot.dramDone := true, flt.foxDone := BitVec.allOnes 8, flt.tilesDone := BitVec.allOnes 16, flt.threadsDone := BitVec.allOnes 32}, by decide +kernel⟩,
    ⟨mk (fun b => { b with boot.phase := Sys2Proof.Machine.BootPhase.ready, boot.rollBusy := true, boot.otp.rollback := 0, boot.rollTarget := 1 }),
        by decide +kernel⟩,
    ⟨mk (fun b => { b with boot.phase := Sys2Proof.Machine.BootPhase.ready, boot.rollBusy := true }), by decide +kernel⟩,
    ⟨mk (fun b => { b with boot.phase := Sys2Proof.Machine.BootPhase.ready, boot.rollBusy := false }), by decide +kernel⟩⟩

theorem wit_FeatureCommit_0 :
    (∃ (s : Machine.State), s.boot.phase = BootPhase.ready ∧ s.feat.done = false)
    ∧ (∃ (s : Machine.State) (v : BitVec 32), s.boot.phase = BootPhase.ready ∧ s.feat.done = false ∧ v.getLsbD 0 = true
        ∧ s.feat.accept &&& ~~~s.feat.offer = 0 ∧ s.feat.accept.getLsbD 5 = true)
    ∧ (∃ (s : Machine.State) (v : BitVec 32), s.boot.phase = BootPhase.ready ∧ s.feat.done = false ∧ v.getLsbD 0 = true
        ∧ s.feat.accept &&& ~~~s.feat.offer ≠ 0)
    ∧ (∃ (s : Machine.State) (u : Tick), s.boot.phase = BootPhase.ready ∧ s.feat.done = false ∧ s.feat.timer = some u ∧ u ≤ s.now
        ∧ s.pending.any writesHello = false)
    ∧ (∃ (s : Machine.State), s.boot.phase = BootPhase.ready ∧ s.feat.done = false ∧ s.pending.any writesHello = true) :=
  ⟨⟨rdy id, by decide +kernel⟩,
    ⟨rdy fun b => {b with feat.accept := 32, feat.offer := 33}, 1, by decide +kernel⟩,
    ⟨rdy fun b => {b with feat.accept := 34, feat.offer := 33}, 1, by decide +kernel⟩,
    ⟨ph .ready 9 fun b => {b with feat.timer := some 9, feat.offer := 0x18002}, 9, by decide +kernel⟩,
    ⟨{ rdy id with pending := [.helloDone 1] }, by decide +kernel⟩⟩

theorem wit_FeatureCommit_1 :
    (∃ (s : Machine.State), s.boot.phase = BootPhase.ready ∧ s.feat.done = true)
    ∧ (∃ (s : Machine.State) (v : BitVec 32), s.boot.phase = BootPhase.ready ∧ s.feat.done = true ∧ v.getLsbD 0 = true) :=
  ⟨⟨rdy fun b => {b with feat.state := .committed}, by decide +kernel⟩,
    ⟨rdy fun b => {b with feat.state := .committed}, 1, by decide +kernel⟩⟩

theorem wit_LinkAndSessions_0 : ∃ (s : Machine.State), s.boot.phase = BootPhase.ready ∧ s.link.up = false
    ∧ s.host.streams.any Stream.isOpen = false :=
  ⟨mk (fun b => { b with boot.phase := Sys2Proof.Machine.BootPhase.ready, link.up := false }), by decide +kernel⟩

theorem wit_LinkAndSessions_1 : ∃ (s : Machine.State), s.link.up = true :=
  ⟨mk (fun b => { b with link.up := true }), by decide +kernel⟩

theorem wit_LinkAndSessions_2 : ∃ (s : Machine.State), s.link.up = false :=
  ⟨mk (fun b => { b with link.up := false }), by decide +kernel⟩

theorem wit_LinkAndSessions_3 : ∃ (s : Machine.State), s.link.up = true :=
  ⟨mk (fun b => { b with link.up := true }), by decide +kernel⟩

theorem wit_LinkAndSessions_4 : ∃ (s : Machine.State), s.link.bme = true :=
  ⟨mk (fun b => { b with link.bme := true }), by decide +kernel⟩

theorem wit_LinkAndSessions_5 : ∃ (s : Machine.State), s.link.up = true ∧ s.host.queues.length = 16 :=
  ⟨mk (fun b => { b with link.up := true }), by decide +kernel⟩

theorem wit_SettingsCommands_0 :
    (∃ (s : Machine.State) (r : CmdRef) (c : Cmd), Block.starting r 16 s.toBlock = some c ∧ s.link.live = true ∧ (c.arg 24 1 = 0 ∨ c.arg 24 1 = 1)
        ∧ (c.fieldsOk fun c => decide (c.arg 24 1 ≤ 1) && pagesOk c && c.arg 16 4 == 4096 * c.arg 26 1) = true ∧ c.feature = none)
    ∧ (∃ (s : Machine.State) (r : CmdRef) (c : Cmd), Block.committed 10 s.toBlock = true ∧ c.feature = some 10
        ∧ Block.starting r 17 s.toBlock = some c ∧ (c.fieldsOk fun c => pagesOk c && c.arg 16 4 == 4160 * c.arg 26 1) = true
        ∧ (s.cfg.shadowState = Shadow.armed ∨ s.cfg.shadowState = Shadow.checking))
    ∧ (∃ (s : Machine.State) (r : CmdRef) (c : Cmd), Block.committed 10 s.toBlock = true ∧ c.feature = some 10
        ∧ Block.starting r 17 s.toBlock = some c ∧ (c.fieldsOk fun c => pagesOk c && c.arg 16 4 == 4160 * c.arg 26 1) = true
        ∧ s.cfg.shadowState = Shadow.stale)
    ∧ (∃ (s : Machine.State) (r : CmdRef) (c : Cmd), Block.committed 10 s.toBlock = true ∧ c.feature = some 10
        ∧ Block.starting r 17 s.toBlock = some c ∧ (c.fieldsOk fun c => pagesOk c && c.arg 16 4 == 4160 * c.arg 26 1) = true
        ∧ s.cfg.shadowState ∉ [Shadow.armed, Shadow.checking, Shadow.stale])
    ∧ (∃ (s : Machine.State) (r : CmdRef) (c : Cmd), Block.committed 10 s.toBlock = true ∧ c.feature = some 10
        ∧ Block.starting r 18 s.toBlock = some c ∧ (c.fieldsOk fun x => true) = true ∧ (s.cfg.shadowState = Shadow.armed
        ∨ s.cfg.shadowState = Shadow.checking))
    ∧ (∃ (s : Machine.State) (r : CmdRef) (c : Cmd), Block.committed 10 s.toBlock = true ∧ c.feature = some 10
        ∧ Block.starting r 18 s.toBlock = some c ∧ (c.fieldsOk fun x => true) = true ∧ s.cfg.shadowState ≠ Shadow.armed
        ∧ s.cfg.shadowState ≠ Shadow.checking)
    ∧ (∃ (s : Machine.State) (r : CmdRef) (c : Cmd), Block.committed 10 s.toBlock = true ∧ c.feature = some 10
        ∧ Block.starting r 19 s.toBlock = some c ∧ (c.fieldsOk fun x => true) = true ∧ s.cfg.shadowState = Shadow.pass ∧ s.pwr.paused = false)
    ∧ (∃ (s : Machine.State) (r : CmdRef) (c : Cmd), Block.committed 10 s.toBlock = true ∧ c.feature = some 10
        ∧ Block.starting r 19 s.toBlock = some c ∧ (c.fieldsOk fun x => true) = true ∧ s.cfg.shadowState = Shadow.armed)
    ∧ (∃ (s : Machine.State) (r : CmdRef) (c : Cmd), Block.committed 10 s.toBlock = true ∧ c.feature = some 10
        ∧ Block.starting r 19 s.toBlock = some c ∧ (c.fieldsOk fun x => true) = true ∧ s.cfg.shadowState ≠ Shadow.pass
        ∧ s.cfg.shadowState ≠ Shadow.armed)
    ∧ (∃ (s : Machine.State) (r : CmdRef) (c : Cmd), Block.committed 10 s.toBlock = true ∧ c.feature = some 10
        ∧ Block.starting r 20 s.toBlock = some c ∧ (c.fieldsOk fun x => true) = true ∧ (s.cfg.shadowState = Shadow.armed
        ∨ s.cfg.shadowState = Shadow.checking))
    ∧ (∃ (s : Machine.State) (r : CmdRef) (c : Cmd), Block.committed 10 s.toBlock = true ∧ c.feature = some 10
        ∧ Block.starting r 20 s.toBlock = some c ∧ (c.fieldsOk fun x => true) = true ∧ s.cfg.shadowState ≠ Shadow.armed
        ∧ s.cfg.shadowState ≠ Shadow.checking) :=
  ⟨⟨rdyCmd 10 (cmd 0x10 [(8, 64), (16, 4096), (26, 1)]) fun b => {b with link.up := true, link.bme := true}, r1, cmd 0x10 [(8, 64), (16, 4096), (26,
      1)], by decide +kernel⟩,
    ⟨rdyCmd 10 (cmd 0x11 [(8, 64), (16, 4160), (26, 1)]) fun b => {b with cfg.shadowState := .armed}, r1, cmd 0x11 [(8, 64), (16, 4160), (26, 1)],
        by decide +kernel⟩,
    ⟨rdyCmd 10 (cmd 0x11 [(8, 64), (16, 4160), (26, 1)]) fun b => {b with cfg.shadowState := .stale}, r1, cmd 0x11 [(8, 64), (16, 4160), (26, 1)],
        by decide +kernel⟩,
    ⟨rdyCmd 10 (cmd 0x11 [(8, 64), (16, 4160), (25, 63), (26, 1)]) fun b => {b with cfg.shadowState := .fail}, r1, cmd 0x11 [(8, 64), (16, 4160),
        (25, 63), (26, 1)], by decide +kernel⟩,
    ⟨rdyCmd 10 (cmd 0x12 []) fun b => {b with cfg.shadowState := .checking}, r1, cmd 0x12 [], by decide +kernel⟩,
    ⟨rdyCmd 10 (cmd 0x12 []) fun b => {b with cfg.shadowState := .dirty}, r1, cmd 0x12 [], by decide +kernel⟩,
    ⟨rdyCmd 10 (cmd 0x13 []) fun b => {b with cfg.shadowState := .pass, ep.rate := 25}, r1, cmd 0x13 [], by decide +kernel⟩,
    ⟨rdyCmd 10 (cmd 0x13 []) fun b => {b with cfg.shadowState := .armed}, r1, cmd 0x13 [], by decide +kernel⟩,
    ⟨rdyCmd 10 (cmd 0x13 []) id, r1, cmd 0x13 [], by decide +kernel⟩,
    ⟨rdyCmd 10 (cmd 0x14 []) fun b => {b with cfg.shadowState := .checking}, r1, cmd 0x14 [], by decide +kernel⟩,
    ⟨rdyCmd 10 (cmd 0x14 []) fun b => {b with cfg.shadowState := .stale}, r1, cmd 0x14 [], by decide +kernel⟩⟩

theorem wit_SettingsCommands_1 :
    (∃ (s : Machine.State) (r : CmdRef), s.cfg.shadowState = Shadow.checking ∧ s.boot.phase = BootPhase.ready ∧ s.cfg.badPages = []
        ∧ s.cfg.busyBy = some r ∧ s.checkIn.first = none)
    ∧ (∃ (s : Machine.State) (r : CmdRef) (f : Finding), s.cfg.shadowState = Shadow.checking ∧ s.boot.phase = BootPhase.ready ∧ s.cfg.badPages = []
        ∧ s.cfg.busyBy = some r ∧ s.checkIn.first = some f) :=
  ⟨⟨rdyCmd 10 { cmd 0x12 [] with stage := .committed } fun b => {b with cfg.shadowState := .checking, cfg.busyBy := some r1, cfg.shadow := set_ [goodCore, goodPort, goodGroup, goodTable]}, r1, by decide +kernel⟩,
    ⟨rdyCmd 10 (cmd 0x12 []) fun b => {b with cfg.shadowState := .checking, cfg.busyBy := some r1}, r1, ⟨0, 0, 4294967295, 6⟩, by decide +kernel⟩⟩

theorem wit_CommandsEnd_0 : ∃ (b : Block) (r : CmdRef) (c : Cmd), Block.cmd r b = some c ∧ ↑r.q < b.host.queues.length :=
  ⟨(withCmd 10 (cmd 0x14 [])) {}, r1, cmd 0x14 [], by decide +kernel⟩

theorem wit_CommandsEnd_1 :
    (∃ (s : Machine.State) (r : CmdRef), Block.starting r 20 s.toBlock = none)
    ∧ (∃ (s : Machine.State) (r : CmdRef), Block.starting r 18 s.toBlock = none)
    ∧ (∃ (s : Machine.State) (r : CmdRef), Block.starting r 19 s.toBlock = none)
    ∧ (∃ (s : Machine.State) (r : CmdRef), Block.starting r 17 s.toBlock = none) :=
  ⟨⟨mk (id), ⟨0, 0⟩, by decide +kernel⟩,
    ⟨mk (id), ⟨0, 0⟩, by decide +kernel⟩,
    ⟨mk (id), ⟨0, 0⟩, by decide +kernel⟩,
    ⟨mk (id), ⟨0, 0⟩, by decide +kernel⟩⟩

theorem wit_CommandsEnd_2 : ∃ (s : Machine.State) (r : CmdRef) (c : Cmd), Block.starting r 20 s.toBlock = some c
    ∧ (c.fieldsOk fun x => true) = false :=
  ⟨rdyCmd 10 (cmd 0x14 [(24, 1)]) id, r1, cmd 0x14 [(24, 1)], by decide +kernel⟩

theorem wit_PlansAndVoltages_0 :
    (∃ (s : Machine.State) (u : Tick), s.boot.phase = BootPhase.ready ∧ s.upcoming = some u ∧ s.now + 125000 ≤ u)
    ∧ (∃ (s : Machine.State) (u : Tick), s.boot.phase = BootPhase.ready ∧ s.upcoming = some u ∧ u < s.now + 125000) :=
  ⟨⟨rdy fun b => {b with ep.running := true, ep.rate := 25}, 10000000, by decide +kernel⟩,
    ⟨ph .ready 9990000 fun b => {b with ep.running := true, ep.rate := 25}, 10000000, by decide +kernel⟩⟩

theorem wit_PlansAndVoltages_1 :
    (∃ (p : Projection), p.vioLate = false ∧ p.behind = false)
    ∧ (∃ (ceil : PPoints) (budget : ℕ) (pp : PPoints) (p : Projection) (r : Raise), bestRaise ceil pp p = some r ∧ budget < r.mw.toNat)
    ∧ (∃ (budget : ℕ) (rs : List Projection), (∀ q ∈ rs, q.mw.toNat ≤ budget))
    ∧ (∃ (ceil : PPoints) (pp : PPoints) (i : Dvfs), ppGet ceil i ≤ ppGet pp i) :=
  ⟨⟨{ late with vioLate := false }, by decide +kernel⟩,
    ⟨⟨0, 0, 0, 0⟩, 199, ⟨5, 5, 5, 5⟩, late, ⟨.fox, 5, 200⟩, by decide +kernel⟩,
    ⟨480, [late], by decide +kernel⟩,
    ⟨⟨0, 0, 0, 0⟩, ⟨5, 5, 5, 5⟩, .fox, by decide +kernel⟩⟩

theorem wit_PlansAndVoltages_2 :
    (∃ (s : Machine.State) (i : Dvfs) (u : Tick), s.boot.phase = BootPhase.ready ∧ s.upcoming = some u ∧ s.boot.package ≠ Package.c ∧ s.now < u
        ∧ u ≤ s.now + 25000 ∧ ppGet s.nextPoints i < ppGet s.pwr.pp i)
    ∧ (∃ (s : Machine.State) (u : Tick), s.boot.phase = BootPhase.ready ∧ s.upcoming = some u ∧ s.boot.package ≠ Package.c ∧ (s.now + 25000 < u
        ∨ u ≤ s.now))
    ∧ (∃ (s : Machine.State) (i : Dvfs) (u : Tick), s.boot.phase = BootPhase.ready ∧ s.upcoming = some u ∧ s.boot.package ≠ Package.c
        ∧ s.now ≤ s.ep.start + 25000 ∧ ppGet s.pwr.vreq i < ppGet s.pwr.pp i ∧ ppGet s.pwr.pack i = ppGet s.pwr.pp i)
    ∧ (∃ (s : Machine.State) (u : Tick), s.boot.phase = BootPhase.ready ∧ s.upcoming = some u ∧ s.boot.package ≠ Package.c
        ∧ s.ep.start + 25000 < s.now) :=
  ⟨⟨ph .ready 9975000 fun b => {b with ep.running := true, ep.rate := 25, ep.plan := { lowPp := ⟨5, 2, 5, 5⟩ }}, .fox, 10000000, by decide +kernel⟩,
    ⟨ph .ready 9974999 fun b => {b with ep.running := true, ep.rate := 25, ep.plan := { lowPp := ⟨5, 2, 5, 5⟩ }}, 10000000, by decide +kernel⟩,
    ⟨ph .ready 25000 fun b => {b with ep.running := true, ep.rate := 25, pwr.vreq := ⟨5, 3, 5, 5⟩}, .fox, 10000000, by decide +kernel⟩,
    ⟨ph .ready 25001 fun b => {b with ep.running := true, ep.rate := 25, pwr.vreq := ⟨5, 3, 5, 5⟩}, 10000000, by decide +kernel⟩⟩

theorem wit_EpochBoundary_0 : ∃ (s : Machine.State), s.boot.phase = BootPhase.ready ∧ s.ep.running = true ∧ s.pwr.paused = false
    ∧ s.now < s.ep.nextBoundary :=
  ⟨ph .ready 9999999 fun b => {b with ep.running := true, ep.rate := 25}, by decide +kernel⟩

theorem wit_EpochBoundary_1 :
    (∃ (s : Machine.State), s.boot.phase = BootPhase.ready ∧ s.ep.running = true ∧ s.pwr.paused = false ∧ s.ep.nextBoundary ≤ s.now
        ∧ s.afu.posed = true ∧ s.pwr.pauseReq = none ∧ s.cfg.armed = none)
    ∧ (∃ (s : Machine.State) (u : Tick), s.boot.phase = BootPhase.ready ∧ s.ep.running = true ∧ s.pwr.paused = false ∧ s.ep.nextBoundary ≤ s.now
        ∧ s.afu.posed = true ∧ s.pwr.pauseReq = some u ∧ (s.jobsHold = false ∨ u + 62500000 ≤ s.ep.nextBoundary)) :=
  ⟨⟨ph .ready 10000000 fun b => {b with ep.running := true, ep.rate := 25}, by decide +kernel⟩,
    ⟨ph .ready 10000000 fun b => {b with ep.running := true, ep.rate := 25, pwr.pauseReq := some 5}, 5, by decide +kernel⟩⟩

theorem wit_SwapOfSets_0 : ∃ (b : Block) (a : Armed), b.cfg.armed = some a :=
  ⟨{ cfg.armed := some ⟨1, 0, 0, none⟩ }, ⟨1, 0, 0, none⟩, by decide +kernel⟩

theorem wit_SwapOfSets_1 : ∃ (s : Machine.State) (a : Armed), s.boot.phase = BootPhase.ready ∧ s.ep.running = true ∧ s.pwr.paused = false
    ∧ s.ep.nextBoundary ≤ s.now ∧ s.afu.posed = true ∧ s.pwr.pauseReq = none ∧ s.owl.jobs = [] ∧ s.cfg.armed = some a
    ∧ a.epoch = s.ep.now.toNat + 1 :=
  ⟨ph .ready 10000000 fun b => {b with ep.running := true, ep.rate := 25, cfg.armed := some ⟨1, 0, 0, none⟩}, ⟨1, 0, 0, none⟩, by decide +kernel⟩

theorem wit_SwapOfSets_2 : ∃ (s : Machine.State), s.boot.phase = BootPhase.bringup ∧ s.broughtUp = true ∧ s.cfg.gen = 0 :=
  ⟨ph .bringup 12500000 fun b => {b with boot.dramDone := true, flt.foxDone := BitVec.allOnes 8, flt.tilesDone := BitVec.allOnes 16, flt.threadsDone := BitVec.allOnes 32}, by decide +kernel⟩

theorem wit_PtmDialogues_0 :
    (∃ (s : Machine.State), s.boot.phase = BootPhase.ready ∧ s.link.up = true ∧ s.link.ptm = true ∧ s.tim.busy = false ∧ s.tim.due ≤ s.now
        ∧ s.link.pm = LinkPm.l0)
    ∧ (∃ (s : Machine.State), s.boot.phase = BootPhase.ready ∧ s.link.up = true ∧ s.link.ptm = true ∧ s.tim.busy = false ∧ s.tim.due ≤ s.now
        ∧ s.link.pm ≠ LinkPm.l0)
    ∧ (∃ (s : Machine.State), s.boot.phase = BootPhase.ready ∧ s.link.up = true ∧ s.link.ptm = true ∧ s.tim.busy = false ∧ s.now < s.tim.due)
    ∧ (∃ (s : Machine.State), s.boot.phase = BootPhase.ready ∧ s.link.up = true ∧ s.link.ptm = true ∧ s.tim.busy = false ∧ s.tim.deferred = true
        ∧ s.link.pm = LinkPm.l0) :=
  ⟨⟨mk (fun b => { b with boot.phase := Sys2Proof.Machine.BootPhase.ready, link.up := true, link.ptm := true, tim.busy := false, link.pm := Sys2Proof.Machine.LinkPm.l0 }), by decide +kernel⟩,
    ⟨rdy fun b => {b with link.up := true, link.ptm := true, link.pm := .l1}, by decide +kernel⟩,
    ⟨rdy fun b => {b with link.up := true, link.ptm := true, tim.due := 1}, by decide +kernel⟩,
    ⟨mk (fun b => { b with boot.phase := Sys2Proof.Machine.BootPhase.ready, link.up := true, link.ptm := true, tim.busy := false, tim.deferred := true, link.pm := Sys2Proof.Machine.LinkPm.l0 }), by decide +kernel⟩⟩

theorem wit_PtmDialogues_1 : ∃ (s : Machine.State), s.tim.busy = true :=
  ⟨mk (fun b => { b with tim.busy := true }), by decide +kernel⟩

theorem wit_PtmDialogues_2 : ∃ (s : Machine.State), s.tim.busy = true :=
  ⟨mk (fun b => { b with tim.busy := true }), by decide +kernel⟩

theorem wit_PtmDialogues_3 : ∃ (s : Machine.State), s.tim.busy = false :=
  ⟨mk (fun b => { b with tim.busy := false }), by decide +kernel⟩

theorem wit_PtmDialogues_4 : ∃ (s : Machine.State) (v : BitVec 32), s.boot.phase = BootPhase.ready ∧ v.getLsbD 0 = true ∧ s.thermos.timeLost = true :=
  ⟨rdy fun b => {b with thermos.timeLost := true}, 1, by decide +kernel⟩

theorem wit_PtmDialogues_5 : ∃ (v : BitVec 32), v.getLsbD 0 = false :=
  ⟨0, by decide +kernel⟩

theorem wit_LatchedReads_0 : ∃ (s : Machine.State) (n : ℕ), s.boot.phase ≠ BootPhase.thermosPor ∧ (n = 4 ∨ n = 8) :=
  ⟨rdy fun b => {b with tim.pairHost := 77}, 8, by decide +kernel⟩

theorem wit_LatchedReads_1 : ∃ (s : Machine.State), s.boot.phase ≠ BootPhase.thermosPor :=
  ⟨rdy fun b => {b with tim.pairHost := 77}, by decide +kernel⟩

theorem wit_LatchedReads_2 : ∃ (s : Machine.State) (i : Fin 6), s.boot.phase ≠ BootPhase.thermosPor ∧ i ≠ 0 :=
  ⟨rdy fun b => {b with tim.latch := BitVec.allOnes 192}, 5, by decide +kernel⟩

theorem wit_LatchedReads_3 : ∃ (s : Machine.State), s.boot.phase ≠ BootPhase.thermosPor :=
  ⟨rdy id, by decide +kernel⟩

theorem wit_LatchedReads_4 : ∃ (s : Machine.State), s.boot.phase ≠ BootPhase.thermosPor ∧ s.tim.busy = true :=
  ⟨rdy fun b => {b with tim.busy := true}, by decide +kernel⟩

theorem wit_LatchedReads_5 : ∃ (s : Machine.State), s.boot.phase ≠ BootPhase.thermosPor :=
  ⟨ph .ready 0x100000002 id, by decide +kernel⟩

theorem wit_LatchedReads_6 : ∃ (s : Machine.State), s.boot.phase ≠ BootPhase.thermosPor :=
  ⟨rdy id, by decide +kernel⟩

theorem wit_BudgetAndSkin_0 : ∃ (s : Machine.State), s.boot.phase = BootPhase.ready :=
  ⟨mk (fun b => { b with boot.phase := Sys2Proof.Machine.BootPhase.ready }), by decide +kernel⟩

theorem wit_BudgetAndSkin_1 : ∃ (s : Machine.State), s.boot.phase = BootPhase.ready :=
  ⟨mk (fun b => { b with boot.phase := Sys2Proof.Machine.BootPhase.ready }), by decide +kernel⟩

theorem wit_BudgetAndSkin_2 : ∃ (s : Machine.State) (u : Tick), s.boot.phase = BootPhase.ready ∧ s.feat.committed.getLsbD 14 = true
    ∧ s.pwr.skinAt = some u :=
  ⟨rdy fun b => {b with feat.committed := 1 <<< 14, pwr.skinAt := some 5}, 5, by decide +kernel⟩

theorem wit_BudgetAndSkin_3 : ∃ (s : Machine.State), s.boot.phase = BootPhase.ready ∧ s.skinLostCause = 3 ∧ s.pwr.skinLost = false :=
  ⟨ph .ready 500000006 fun b => {b with feat.committed := 1 <<< 14, pwr.skinAt := some 5}, by decide +kernel⟩

theorem wit_HeatAndSensors_0 : ∃ (s : Machine.State), s.boot.phase = BootPhase.ready ∧ s.pwr.paused = false ∧ s.flt.restarting.getD 2 false = false
    ∧ (s.skinBus = 2 ∨ s.skinBus = 3) ∧ s.pwr.skinBusy = false ∧ s.pwr.skinDue ≤ s.now ∧ s.ctls.getD s.skinBus none = none
    ∧ Block.waitingReads s.skinBus s.toBlock = [] :=
  ⟨rdy fun b => {b with pwr.govPage := some (page 10 0 [(16, 1, 2), (20, 2, 100)])}, by decide +kernel⟩

theorem wit_HeatAndSensors_1 : ∃ (s : Machine.State), s.pwr.skinBusy = true :=
  ⟨mk (fun b => { b with pwr.skinBusy := true }), by decide +kernel⟩

theorem wit_HeatAndSensors_2 : ∃ (s : Machine.State), s.pwr.skinBusy = false :=
  ⟨mk (fun b => { b with pwr.skinBusy := false }), by decide +kernel⟩

theorem wit_HeatAndSensors_3 :
    (∃ (s : Machine.State) (u : Tick), s.pwr.burst = Burst.cooldown u ∧ u ≤ s.now)
    ∧ (∃ (s : Machine.State) (u : Tick), s.pwr.burst = Burst.cooldown u ∧ s.now < u) :=
  ⟨⟨mk (fun b => { b with pwr.burst := Sys2Proof.Machine.Burst.cooldown (0) }), 0, by decide +kernel⟩,
    ⟨rdy fun b => {b with pwr.burst := .cooldown 1}, 1, by decide +kernel⟩⟩

theorem wit_HeatAndSensors_5 : ∃ (s : Machine.State) (c : BitVec 16), s.boot.phase = BootPhase.ready ∧ 29440 ≤ c.toInt ∧ s.pwr.tripped = false :=
  ⟨rdy id, 29440, by decide +kernel⟩

theorem wit_HeatAndSensors_6 : ∃ (c : BitVec 16), c.toInt < 29440 :=
  ⟨0, by decide +kernel⟩

theorem wit_PauseAndShutdown_0 :
    (∃ (s : Machine.State), s.boot.phase = BootPhase.ready ∧ s.pwr.shutdown = false ∧ s.pwr.paused = false ∧ s.pwr.pauseReq = none)
    ∧ (∃ (s : Machine.State), s.boot.phase = BootPhase.ready ∧ s.pwr.shutdown = false ∧ s.pwr.paused = false)
    ∧ (∃ (s : Machine.State), s.boot.phase = BootPhase.ready ∧ s.pwr.shutdown = false ∧ s.pwr.paused = true ∧ s.pwr.wake = none
        ∧ s.pwr.shutReady = false)
    ∧ (∃ (s : Machine.State), s.boot.phase = BootPhase.ready ∧ s.pwr.shutdown = false ∧ s.pwr.paused = true ∧ s.pwr.wake = none) :=
  ⟨⟨mk (fun b => { b with boot.phase := Sys2Proof.Machine.BootPhase.ready, pwr.shutdown := false, pwr.paused := false, pwr.pauseReq := none }),
      by decide +kernel⟩,
    ⟨mk (fun b => { b with boot.phase := Sys2Proof.Machine.BootPhase.ready, pwr.shutdown := false, pwr.paused := false }), by decide +kernel⟩,
    ⟨mk (fun b => { b with boot.phase := Sys2Proof.Machine.BootPhase.ready, pwr.shutdown := false, pwr.paused := true, pwr.wake := none, pwr.shutReady := false }), by decide +kernel⟩,
    ⟨mk (fun b => { b with boot.phase := Sys2Proof.Machine.BootPhase.ready, pwr.shutdown := false, pwr.paused := true, pwr.wake := none }),
        by decide +kernel⟩⟩

theorem wit_PauseAndShutdown_1 : ∃ (s : Machine.State), s.boot.phase = BootPhase.ready ∧ s.pwr.shutdown = true :=
  ⟨mk (fun b => { b with boot.phase := Sys2Proof.Machine.BootPhase.ready, pwr.shutdown := true }), by decide +kernel⟩

theorem wit_PauseAndShutdown_2 :
    (∃ (s : Machine.State) (w : Tick) (src : WakeSrc), s.boot.phase = BootPhase.ready ∧ s.pwr.wake = some (w, src) ∧ s.pwr.paused = true
        ∧ s.pwr.shutReady = false ∧ w + 1250000 ≤ s.now ∧ s.cfg.armed = none)
    ∧ (∃ (s : Machine.State) (w : Tick) (src : WakeSrc), s.boot.phase = BootPhase.ready ∧ s.pwr.wake = some (w, src) ∧ s.pwr.paused = true
        ∧ s.pwr.shutReady = false ∧ s.now < w + 1250000) :=
  ⟨⟨ph .ready 1250005 fun b => {b with pwr.paused := true, pwr.wake := some (5, .host)}, 5, .host, by decide +kernel⟩,
    ⟨ph .ready 1250004 fun b => {b with pwr.paused := true, pwr.wake := some (5, .host)}, 5, .host, by decide +kernel⟩⟩

theorem wit_PauseAndShutdown_3 : ∃ (s : Machine.State), s.boot.phase = BootPhase.ready ∧ s.ep.running = true ∧ s.pwr.paused = false
    ∧ s.afu.posed = true ∧ s.ep.journaled = false :=
  ⟨mk (fun b => { b with boot.phase := Sys2Proof.Machine.BootPhase.ready, ep.running := true, pwr.paused := false, afu.posed := true, ep.journaled := false }), by decide +kernel⟩

theorem wit_PauseAndShutdown_4 : ∃ (s : Machine.State), s.boot.phase = BootPhase.ready ∧ s.ep.journaled = true :=
  ⟨mk (fun b => { b with boot.phase := Sys2Proof.Machine.BootPhase.ready, ep.journaled := true }), by decide +kernel⟩

theorem wit_ClearAndRegisterWrites_0 : ∃ (s : Machine.State), s.boot.phase ≠ BootPhase.thermosPor :=
  ⟨rdy id, by decide +kernel⟩

theorem wit_ClearAndRegisterWrites_1 : ∃ (s : Machine.State), s.boot.phase ≠ BootPhase.thermosPor :=
  ⟨rdy fun b => {b with host.eventCause := 15}, by decide +kernel⟩

theorem wit_ClearAndRegisterWrites_2 : ∃ (s : Machine.State), s.boot.phase ≠ BootPhase.thermosPor :=
  ⟨rdy id, by decide +kernel⟩

theorem wit_ClearAndRegisterWrites_3 : ∃ (s : Machine.State), s.boot.phase ≠ BootPhase.thermosPor :=
  ⟨rdy id, by decide +kernel⟩

theorem wit_ClearAndRegisterWrites_4 : ∃ (s : Machine.State), s.boot.phase ≠ BootPhase.thermosPor :=
  ⟨rdy id, by decide +kernel⟩

theorem wit_ClearAndRegisterWrites_5 : ∃ (s : Machine.State) (o : ℕ), s.boot.phase ≠ BootPhase.thermosPor ∧ o % 4 ≠ 0 ∧ o < 57344 :=
  ⟨rdy id, 0xDFFF, by decide +kernel⟩

theorem wit_ClearAndRegisterWrites_6 : ∃ (s : Machine.State), s.boot.phase ≠ BootPhase.thermosPor :=
  ⟨rdy id, by decide +kernel⟩

theorem wit_ClearAndRegisterWrites_7 : ∃ (s : Machine.State) (q : Fin 16), s.boot.phase ≠ BootPhase.thermosPor ∧ s.boot.phase = BootPhase.ready
    ∧ (s.host.queues.getD ↑q { }).enabled = true :=
  ⟨rdy fun b => {b with host.queues := b.host.queues.set 3 { enabled := true }}, 3, by decide +kernel⟩

theorem wit_ClearAndRegisterWrites_8 : ∃ (s : Machine.State) (q : Fin 16), s.boot.phase ≠ BootPhase.thermosPor ∧ s.boot.phase = BootPhase.ready
    ∧ (s.host.queues.getD ↑q { }).enabled = false :=
  ⟨mk (fun b => { b with boot.phase := Sys2Proof.Machine.BootPhase.ready }), 0, by decide +kernel⟩

theorem wit_ClearAndRegisterWrites_9 : ∃ (s : Machine.State), s.boot.phase ≠ BootPhase.thermosPor ∧ s.link.up = true :=
  ⟨rdy fun b => {b with link.up := true}, by decide +kernel⟩

theorem wit_ExposureMidpoint_0 : ∃ (t0 : ℤ) (t1 : ℤ), t0 ≤ t1 :=
  ⟨3, 3, by decide +kernel⟩

theorem wit_ExposureMidpoint_1 : ∃ (t0 : ℤ) (t1 : ℤ), t1 < t0 :=
  ⟨6, 5, by decide +kernel⟩

theorem wit_ExposureMidpoint_3 :
    (∃ (n : ℕ), n % 4 = 1)
    ∧ (∃ (n : ℕ), n % 4 = 3)
    ∧ (∃ (n : ℕ), n % 2 = 0) :=
  ⟨⟨5, by decide +kernel⟩,
    ⟨7, by decide +kernel⟩,
    ⟨0, by decide +kernel⟩⟩

theorem wit_TriggersAndStarts_0 : ∃ (s : Machine.State) (pin : Fin 8) (k : ℕ), k < 6 ∧ (∀ j < 6,
    Block.trigFires j (↑pin) s.toBlock = decide (j = k)) ∧ s.now = s.ep.start + s.port k 68 4 :=
  ⟨ph .ready 1000 fun b => {b with cfg.active := set_ [page 2 1 [(16, 1, 1), (42, 1, 1), (43, 1, 3), (77, 1, 1), (68, 4, 1000), (72, 4, 50)]]}, 3, 1,
      by decide +kernel, by decide +kernel, by decide +kernel⟩

theorem wit_TriggersAndStarts_1 : ∃ (s : Machine.State) (pin : Fin 8), (∀ j < 6, Block.trigFires j (↑pin) s.toBlock = false) :=
  ⟨mk (id), 0, by decide +kernel⟩

theorem wit_TriggersAndStarts_2 : ∃ (s : Machine.State) (k : Fin 6) (p : ShortPkt), s.ports.length = 6 ∧ s.csiOn ↑k = true ∧ p.ecc = Ecc.ok
    ∧ p.vc.toNat = s.port (↑k) 32 1 ∧ (s.ports.getD ↑k { }).frame = none ∧ (s.ports.getD ↑k { }).trigs = [] ∧ s.port (↑k) 42 1 ≠ 1 :=
  ⟨rdy fun b => {b with cfg.active := set_ [camPage]}, 0, ⟨0, 5, .ok⟩, by decide +kernel⟩

theorem wit_TriggersAndStarts_3 : ∃ (s : Machine.State), s.boot.package = Package.c :=
  ⟨edgeC id, by decide +kernel⟩

theorem wit_TriggersAndStarts_4 : ∃ (s : Machine.State) (k : Fin 6) (p : ShortPkt), s.csiOn ↑k = true ∧ (s.ports.getD ↑k { }).synced = true
    ∧ p.ecc = Ecc.bad :=
  ⟨rdy fun b => {b with cfg.active := set_ [camPage], ports := b.ports.set 0 { synced := true }}, 0, ⟨0, 5, .bad⟩, by decide +kernel⟩

theorem wit_TriggersAndStarts_5 : ∃ (s : Machine.State) (k : Fin 6), s.csiOn ↑k = false :=
  ⟨mk (id), 0, by decide +kernel⟩

theorem wit_TriggersAndStarts_6 : ∃ (s : Machine.State) (k : Fin 6) (u : Trig), s.csiOn ↑k = true ∧ (s.ports.getD ↑k { }).trigs = [u]
    ∧ u.met = false ∧ u.rise + s.port (↑k) 60 4 + s.trigTol ↑k ≤ s.now :=
  ⟨rdy fun b => {b with cfg.active := set_ [camPage], ports := b.ports.set 0 { synced := true, trigs := [⟨0, 5, false⟩] }}, 0, ⟨0, 5, false⟩,
      by decide +kernel⟩

theorem wit_TriggersAndStarts_7 : ∃ (s : Machine.State) (k : Fin 6), s.csiOn ↑k = true :=
  ⟨rdy fun b => {b with cfg.active := set_ [camPage]}, 0, by decide +kernel⟩

theorem wit_TriggersAndStarts_8 : ∃ (s : Machine.State) (k : Fin 6), s.csiOn ↑k = false :=
  ⟨mk (id), 0, by decide +kernel⟩

theorem wit_LinesOfAFrame_0 : ∃ (s : Machine.State) (k : Fin 6) (p : ShortPkt) (f : Frame), s.csiOn ↑k = true ∧ (s.ports.getD ↑k { }).synced = true
    ∧ s.ports.length = 6 ∧ p.ecc = Ecc.ok ∧ p.vc.toNat = s.port (↑k) 32 1 ∧ p.data ≠ 0 ∧ (s.ports.getD ↑k { }).frame = some f :=
  ⟨rdy fun b => {b with cfg.active := set_ [camPage], ports := b.ports.set 0 { synced := true, frame := some { no := 5, fs := 0, gen := 0 } }}, 0,
      ⟨0, 2, .ok⟩, { no := 5, fs := 0, gen := 0 }, by decide +kernel⟩

theorem wit_LinesOfAFrame_1 : ∃ (s : Machine.State) (k : Fin 6) (p : ShortPkt), s.csiOn ↑k = true ∧ (s.ports.getD ↑k { }).synced = true
    ∧ s.ports.length = 6 ∧ p.ecc = Ecc.ok ∧ p.vc.toNat = s.port (↑k) 32 1 :=
  ⟨rdy fun b => {b with cfg.active := set_ [camPage], ports := b.ports.set 0 { synced := true }}, 0, ⟨0, 2, .ok⟩, by decide +kernel⟩

theorem wit_LinesOfAFrame_2 :
    (∃ (s : Machine.State) (k : Fin 6) (p : LongPkt) (f : Frame), s.csiOn ↑k = true ∧ (s.ports.getD ↑k { }).synced = true ∧ s.ports.length = 6
        ∧ p.ecc = Ecc.ok ∧ p.vc.toNat = s.port (↑k) 32 1 ∧ p.dt.toNat = s.port (↑k) 33 1 ∧ (s.ports.getD ↑k { }).frame = some f ∧ f.next < f.f 26 2
        ∧ List.length p.payload = lineBytes (s.port (↑k) 24 2) p.dt.toNat ∧ p.overflow = false ∧ p.crcOk = true)
    ∧ (∃ (s : Machine.State) (k : Fin 6) (p : LongPkt) (f : Frame), s.csiOn ↑k = true ∧ (s.ports.getD ↑k { }).synced = true ∧ s.ports.length = 6
        ∧ p.ecc = Ecc.ok ∧ p.vc.toNat = s.port (↑k) 32 1 ∧ p.dt.toNat = s.port (↑k) 33 1 ∧ (s.ports.getD ↑k { }).frame = some f ∧ f.next < f.f 26 2
        ∧ List.length p.payload = lineBytes (s.port (↑k) 24 2) p.dt.toNat ∧ p.overflow = false ∧ p.crcOk = false)
    ∧ (∃ (s : Machine.State) (k : Fin 6) (p : LongPkt) (f : Frame), s.csiOn ↑k = true ∧ (s.ports.getD ↑k { }).synced = true ∧ s.ports.length = 6
        ∧ p.ecc = Ecc.ok ∧ p.vc.toNat = s.port (↑k) 32 1 ∧ p.dt.toNat = s.port (↑k) 33 1 ∧ (s.ports.getD ↑k { }).frame = some f ∧ f.f 26 2 ≤ f.next
        ∧ List.length p.payload = lineBytes (s.port (↑k) 24 2) p.dt.toNat ∧ p.overflow = false ∧ p.crcOk = true) :=
  ⟨⟨rdy fun b => {b with cfg.active := set_ [camPage], ports := b.ports.set 0 { synced := true, frame := some { frameC with next := 0 } }}, 0, ⟨0,
      0x2A, .ok, [1, 2, 3, 4, 5, 6, 7, 8], true, false⟩, { frameC with next := 0 }, by decide +kernel⟩,
    ⟨rdy fun b => {b with cfg.active := set_ [camPage], ports := b.ports.set 0 { synced := true, frame := some { frameC with next := 3 } }}, 0, ⟨0,
        0x2A, .ok, [1, 2, 3, 4, 5, 6, 7, 8], false, false⟩, { frameC with next := 3 }, by decide +kernel⟩,
    ⟨rdy fun b => {b with cfg.active := set_ [camPage], ports := b.ports.set 0 { synced := true, frame := some { frameC with next := 4 } }}, 0, ⟨0,
        0x2A, .ok, [1, 2, 3, 4, 5, 6, 7, 8], true, false⟩, { frameC with next := 4 }, by decide +kernel⟩⟩

theorem wit_LinesOfAFrame_3 :
    (∃ (s : Machine.State) (k : Fin 6) (p : LongPkt), s.csiOn ↑k = true ∧ (s.ports.getD ↑k { }).synced = true ∧ s.ports.length = 6 ∧ p.ecc = Ecc.ok
        ∧ p.crcOk = true ∧ p.vc.toNat = s.port (↑k) 36 1 ∧ s.port (↑k) 35 1 % 2 = 1 ∧ p.dt = 18 ∧ s.port (↑k) 33 1 ≠ 18
        ∧ (s.host.streams.getD 7 { }).isOpen = false)
    ∧ (∃ (s : Machine.State) (k : Fin 6) (p : LongPkt) (f : Frame), s.csiOn ↑k = true ∧ (s.ports.getD ↑k { }).synced = true ∧ s.ports.length = 6
        ∧ p.ecc = Ecc.ok ∧ p.crcOk = true ∧ p.vc.toNat = s.port (↑k) 36 1 ∧ s.port (↑k) 35 1 % 2 = 1 ∧ p.dt = 18 ∧ s.port (↑k) 33 1 ≠ 18
        ∧ (s.host.streams.getD 7 { }).isOpen = true ∧ s.port (↑k) 35 1 = 3 ∧ 0 < List.length p.payload ∧ List.length p.payload ≤ 4088
        ∧ (s.ports.getD ↑k { }).frame = some f) :=
  ⟨⟨rdy fun b => {b with cfg.active := set_ [camPage], ports := b.ports.set 0 { synced := true }}, 0, ⟨0, 0x12, .ok, [1], true, false⟩,
      by decide +kernel⟩,
    ⟨mk fun b => onSt 7 st0 {b with cfg.active := set_ [memWriteBytes camPage 35 [3]], ports := b.ports.set 0 { synced := true, frame := some frameC }}, 0, ⟨0, 0x12, .ok, [1], true, false⟩, frameC, by decide +kernel⟩⟩

theorem wit_LinesOfAFrame_4 : ∃ (s : Machine.State) (k : Fin 6) (p : ShortPkt), s.csiOn ↑k = true ∧ (s.ports.getD ↑k { }).synced = true
    ∧ s.ports.length = 6 ∧ p.ecc = Ecc.ok ∧ p.vc.toNat = s.port (↑k) 32 1 ∧ (s.ports.getD ↑k { }).frame = none :=
  ⟨rdy fun b => {b with cfg.active := set_ [camPage], ports := b.ports.set 0 { synced := true }}, 0, ⟨0, 2, .ok⟩, by decide +kernel⟩

theorem wit_LinesOfAFrame_5 : ∃ (s : Machine.State) (k : Fin 6) (p : ShortPkt) (f : Frame), s.csiOn ↑k = true ∧ (s.ports.getD ↑k { }).synced = true
    ∧ s.ports.length = 6 ∧ p.ecc = Ecc.ok ∧ p.vc.toNat = s.port (↑k) 32 1 ∧ (s.ports.getD ↑k { }).frame = some f :=
  ⟨rdy fun b => {b with cfg.active := set_ [camPage], ports := b.ports.set 0 { synced := true, frame := some { no := 5, fs := 0, gen := 0 } }}, 0,
      ⟨0, 2, .ok⟩, { no := 5, fs := 0, gen := 0 }, by decide +kernel⟩

theorem wit_InertialReads_0 : ∃ (w : ℕ), w < 8 :=
  ⟨0, by decide +kernel⟩

theorem wit_InertialReads_1 : ∃ (s : Machine.State) (pin : Fin 4) (rising : Bool) (w : ℕ) (k : ℕ), 8 ≤ w ∧ k < 6
    ∧ (s.slots.getD k { }).pending = [] ∧ (∀ j < 6, (s.slotOn j && s.port j 105 1 == ↑pin && (s.port j 106 1 == 0) == rising) = decide (j = k)) :=
  ⟨rdy fun b => {b with cfg.active := set_ [slotPage]}, 3, true, 8, 2, by decide +kernel, by decide +kernel, by decide +kernel, by decide +kernel⟩

theorem wit_InertialReads_2 : ∃ (s : Machine.State) (k : Fin 6), s.slotOn ↑k = true ∧ s.port (↑k) 105 1 = 255 ∧ s.port (↑k) 136 4 ≠ 0
    ∧ (s.slots.getD ↑k { }).pollNext ≤ s.now :=
  ⟨rdy fun b => {b with cfg.active := set_ [page 2 2 [(96, 1, 1), (105, 1, 0xFF), (136, 4, 1000)]]}, 2, by decide +kernel⟩

theorem wit_InertialReads_3 : ∃ (s : Machine.State) (c : Fin 4) (k : ℕ), ↑c < 2 ∧ s.pwr.skinBusy = false ∧ s.ctls.getD (↑c) none = none
    ∧ nextRead (Block.waitingReads (↑c) s.toBlock) = some k :=
  ⟨rdy fun b => {b with cfg.active := set_ [slotPage], slots := b.slots.set 2 { pending := [{ stamp := 0 }] }}, 0, 2, by decide +kernel⟩

theorem wit_InertialReads_4 : ∃ (s : Machine.State) (c : Fin 4) (k : ℕ), s.ctls.getD (↑c) none = some k ∧ k < 6 ∧ s.slots.length = 6
    ∧ s.slotOn k = true ∧ (s.slots.getD k { }).failRun < 7 :=
  ⟨rdy fun b => {b with cfg.active := set_ [slotPage], ctls := [some 2, none, none, none], slots := b.slots.set 2 { reading := some { stamp := 0 }, failRun := 6 }}, 0, 2, by decide +kernel⟩

theorem wit_InertialReads_5 : ∃ (s : Machine.State) (c : Fin 4) (k : ℕ) (bs : Bytes), s.ctls.getD (↑c) none = some k ∧ k < 6 ∧ s.slots.length = 6
    ∧ s.slotOn k = true ∧ memField (pageAt s.cfg.active 2 k) (152 + 12 * Block.rangeCode k bs s.toBlock) 1 ≠ 0 ∧ (s.slots.getD k { }).group = [] :=
  ⟨rdy fun b => {b with cfg.active := set_ [slotPage], ctls := [some 2, none, none, none], slots := b.slots.set 2 { reading := some { stamp := 0 } }}, 0, 2, [1, 2, 3, 4, 5, 6, 7, 8], by decide +kernel⟩

theorem wit_InertialReads_6 : ∃ (s : Machine.State) (k : Fin 6), (s.slots.getD ↑k { }).group ≠ [] ∧ (s.slots.getD ↑k { }).groupAt + 250000 ≤ s.now :=
  ⟨ph .ready 250000 fun b => {b with slots := b.slots.set 2 { group := [⟨0, 0, 0, 0, [1, 2, 3]⟩] }}, 2, by decide +kernel⟩

theorem wit_InertialReads_7 : ∃ (s : Machine.State) (k : Fin 6), s.now < (s.slots.getD ↑k { }).groupAt + 250000 :=
  ⟨mk (id), 0, by decide +kernel⟩

theorem wit_FilterChain_0 : ∃ (s : Machine.State) (k : Fin 6) (p : Parcel), s.boot.phase = BootPhase.ready ∧ s.flt.restarting.getD 3 false = false
    ∧ sealFault p = none ∧ List.find? (fun q => q.type == 272 && q.stream == BitVec.ofNat 8 (144 + ↑k) && !s.ifc.taken.any q.ref.same) s.host.pool = some p :=
  ⟨rdy fun b => {b with host.pool := [seven (rdy id)]}, 2, seven (rdy id), by decide +kernel⟩

theorem wit_FilterChain_1 : ∃ (s : Machine.State), s.flt.restarting.getD 3 false = true :=
  ⟨rdy fun b => {b with flt.restarting := b.flt.restarting.set 3 true}, by decide +kernel⟩

theorem wit_FilterChain_2 : ∃ (s : Machine.State) (pin : Fin 8) (u : Tick), s.ifc.pulses.getD (↑pin) none = some u ∧ u ≤ s.now :=
  ⟨rdy fun b => {b with ifc.pulses := b.ifc.pulses.set 7 (some 0)}, 7, 0, by decide +kernel⟩

theorem wit_FilterChain_3 : ∃ (s : Machine.State) (pin : Fin 8) (u : Tick), s.ifc.pulses.getD (↑pin) none = some u ∧ s.now < u :=
  ⟨rdy fun b => {b with ifc.pulses := b.ifc.pulses.set 7 (some 1)}, 7, 1, by decide +kernel⟩

theorem wit_FilterChain_4 : ∃ (s : Machine.State) (g : Fin 4), s.ifc.groups.length = 4 ∧ (s.ifc.groups.getD ↑g { }).recs ≠ []
    ∧ (s.ifc.groups.getD ↑g { }).firstAt + 62500 ≤ s.now :=
  ⟨ph .ready 62500 fun b => {b with ifc.groups := b.ifc.groups.set 3 { recs := [⟨0, 18, 0, 0, 5⟩] }}, 3, by decide +kernel⟩

theorem wit_FilterChain_5 : ∃ (s : Machine.State) (g : Fin 4), s.now < (s.ifc.groups.getD ↑g { }).firstAt + 62500 :=
  ⟨mk (id), 0, by decide +kernel⟩

theorem wit_FilterChain_6 : ∃ (s : Machine.State) (c : Fin 24), (s.chan ↑c).running = true :=
  ⟨rdy fun b => {b with ifc.chans := b.ifc.chans.set 23 { running := true }}, 23, by decide +kernel⟩

theorem wit_FilterChain_7 : ∃ (s : Machine.State) (c : Fin 24), (s.chan ↑c).running = false :=
  ⟨mk (id), 0, by decide +kernel⟩

theorem wit_FilterChain_8 : ∃ (w : ℕ), w < 8 :=
  ⟨0, by decide +kernel⟩

theorem wit_FilterChain_9 : ∃ (s : Machine.State) (w : ℕ) (u : Tick), 8 ≤ w ∧ s.boot.phase = BootPhase.ready ∧ s.tim.lastSync = some u
    ∧ s.now < u + 250 :=
  ⟨ph .ready 249 fun b => {b with tim.lastSync := some 0}, 8, 0, by decide +kernel⟩

theorem wit_FilterChain_10 : ∃ (s : Machine.State) (w : ℕ), 8 ≤ w ∧ s.boot.phase = BootPhase.ready ∧ (∀ (u : Tick), s.tim.lastSync = some u
    → u + 250 ≤ s.now) ∧ s.tim.syncPend = none ∧ s.pwr.paused = false :=
  ⟨ph .ready 259 fun b => {b with tim.lastSync := some 9}, 8, by decide, by decide +kernel,
      fun u h => Option.some.inj (show some 9 = some u from h) ▸ (by decide +kernel), by decide +kernel, by decide +kernel⟩

theorem wit_FilterChain_11 : ∃ (s : Machine.State) (r : CmdRef) (c : Cmd), Block.starting r 5 s.toBlock = some c
    ∧ (c.fieldsOk fun x => true) = true ∧ c.feature = none ∧ s.tim.syncPend = none ∧ s.pwr.paused = false :=
  ⟨rdyCmd 10 (cmd 0x05 []) id, r1, cmd 0x05 [], by decide +kernel⟩

theorem wit_FoxLanes_0 : ∃ (s : Machine.State) (l : Fin 8), Block.laneOk (↑l) s.toBlock = false :=
  ⟨mk (id), 0, by decide +kernel⟩

theorem wit_FoxLanes_1 : ∃ (s : Machine.State) (l : Fin 8) (cam : ℕ) (f : FoxFrame) (x : Band), Block.laneOk (↑l) s.toBlock = true
    ∧ ((Block.laneBands (↑l) s.toBlock).any fun m => m.2.2.started) = false
    ∧ List.find? (fun m => Block.lineHere m.2.1 (m.2.2.readLo (Block.under m.2.1 s.toBlock).marginLines) (Block.under m.2.1 s.toBlock)) (Block.laneBands (↑l) s.toBlock) = some (cam, f, x) :=
  ⟨rdy fun b => {inFox frame0 b with host.pool := [line0]}, 3, 0, frame0, band0, by decide +kernel⟩

theorem wit_FoxLanes_2 : ∃ (s : Machine.State) (l : Fin 8) (cam : ℕ) (f : FoxFrame) (x : Band) (mid : Tick), Block.laneOk (↑l) s.toBlock = true
    ∧ List.find? (fun m => m.2.2.started) (Block.laneBands (↑l) s.toBlock) = some (cam, f, x) ∧ Block.bandReady f x s.toBlock = true
    ∧ Block.foxMid f s.toBlock = some mid ∧ List.find? (fun g => g.fs == f.fs) (s.foxCam cam).frames = some f ∧ (∀ p ∈ s.host.pool,
    sealFault p = none) :=
  ⟨rdy fun b => inFox { frame0 with lost := [0, 1, 2, 3], mid := some (5, 0), bands := [{ band0 with started := true }] } b, 3, 0,
      { frame0 with lost := [0, 1, 2, 3], mid := some (5, 0), bands := [{ band0 with started := true }] }, { band0 with started := true }, 5,
      by decide +kernel⟩

theorem wit_FoxLanes_3 : ∃ (s : Machine.State) (l : Fin 8) (cam : ℕ) (f : FoxFrame) (x : Band),
    List.find? (fun m => m.2.2.started) (Block.laneBands (↑l) s.toBlock) = some (cam, f, x) ∧ Block.bandReady f x s.toBlock = false :=
  ⟨rdy fun b => inFox { frame0 with bands := [{ band0 with started := true }] } b, 3, 0, { frame0 with bands := [{ band0 with started := true }] },
      { band0 with started := true }, by decide +kernel⟩

theorem wit_FoxLanes_4 : ∃ (s : Machine.State), s.now < s.ep.start + s.foxCutoff :=
  ⟨mk (id), by decide +kernel⟩

theorem wit_FoxLanes_5 : ∃ (s : Machine.State), (∀ cam < 6, ∀ f ∈ (s.foxCam cam).frames, f.whole = true) :=
  ⟨rdy id, by decide +kernel⟩

theorem wit_FoxLanes_6 : ∃ (s : Machine.State) (cam : ℕ) (f : FoxFrame), cam < 6 ∧ s.boot.phase = BootPhase.ready ∧ s.ep.running = true
    ∧ s.pwr.paused = false ∧ s.ep.start + s.foxCutoff ≤ s.now ∧ (∀ j < 6, j ≠ cam → (s.foxCam j).frames = []) ∧ (s.foxCam cam).frames = [f]
    ∧ f.whole = false ∧ f.fs ≤ s.ep.start + s.foxCutoff :=
  ⟨ph .ready 1250000 fun b => {inFox frame0 b with ep.running := true}, 0, frame0, by decide +kernel, by decide +kernel, by decide +kernel,
      by decide +kernel, by decide +kernel, by decide +kernel, by decide +kernel, by decide +kernel, by decide +kernel⟩

theorem wit_AlignmentUnit_0 : ∃ (s : Machine.State), s.afuOn = true ∧ s.afu.tcDone = true ∧ s.afu.preintDone = false ∧ (∀ p ∈ s.host.pool,
    sealFault p = none) ∧ (s.afu.sol = none → s.afu.solPrev = none) ∧ (∀ (x : SolRec), s.afu.sol = some x ∨ s.afu.solPrev = some x
    → sealFault x.parcel = none) :=
  ⟨rdy fun b => {b with ep.running := true, afu.tcDone := true, afu.noInertial := true}, by decide +kernel, by decide +kernel, by decide +kernel,
      by decide +kernel, by decide +kernel,
      fun x h => h.elim (fun h => nomatch (show none = some x from h)) fun h => nomatch (show none = some x from h)⟩

theorem wit_AlignmentUnit_1 : ∃ (s : Machine.State), s.afu.preintDone = true :=
  ⟨mk (fun b => { b with afu.preintDone := true }), by decide +kernel⟩

theorem wit_AlignmentUnit_2 : ∃ (s : Machine.State), s.afu.tcDone = false ∧ Block.portPending s.refPort s.toBlock = true :=
  ⟨rdy fun b => {b with cfg.active := set_ [camPage], ports := b.ports.set 0 { synced := true, frame := some frameC }}, by decide +kernel⟩

theorem wit_AlignmentUnit_3 : ∃ (s : Machine.State), s.afuOn = true ∧ s.afu.tcDone = true ∧ s.afu.posed = false ∧ s.vioOver = true
    ∧ s.afu.sol = none ∧ s.afu.solPrev = none ∧ s.solvedNow = false ∧ s.host.streams.length = 8 :=
  ⟨rdy fun b => {b with ep.running := true, afu.tcDone := true, afu.posed := false, badger.vioDone := true}, by decide +kernel⟩

theorem wit_AlignmentUnit_4 : ∃ (s : Machine.State) (x : SolRec), s.afuOn = true ∧ s.afu.tcDone = true ∧ s.afu.posed = false ∧ s.vioOver = true
    ∧ s.afu.sol = some x ∧ s.afu.solPrev = none ∧ sealFault x.parcel = none ∧ x.epoch = s.ep.now.toNat ∧ s.afu.noSol = false
    ∧ s.afu.noSolEpoch = false ∧ s.badger.keyDone = true ∧ s.host.streams.length = 8 :=
  ⟨rdy fun b => {b with ep.running := true, afu.tcDone := true, afu.posed := false, afu.noSol := false, badger.vioDone := true, badger.keyDone := true, afu.sol := some (solRec (pay 256 []))}, solRec (pay 256 []), by decide +kernel⟩

theorem wit_AlignmentUnit_5 : ∃ (s : Machine.State), s.afu.posed = true :=
  ⟨mk (fun b => { b with afu.posed := true }), by decide +kernel⟩

theorem wit_AlignmentUnit_6 :
    (∃ (s : Machine.State), s.afuOn = true ∧ s.now % 250000 ≤ 25000 ∧ s.afu.predAt < s.now / 250000 * 250000 ∧ s.afu.solPrev = none
        ∧ (∀ p ∈ s.host.pool, sealFault p = none) ∧ s.host.streams.length = 8 ∧ s.afu.sol = none)
    ∧ (∃ (s : Machine.State) (x : SolRec), s.afuOn = true ∧ s.now % 250000 ≤ 25000 ∧ s.afu.predAt < s.now / 250000 * 250000 ∧ s.afu.solPrev = none
        ∧ (∀ p ∈ s.host.pool, sealFault p = none) ∧ s.host.streams.length = 8 ∧ s.afu.sol = some x ∧ sealFault x.parcel = none
        ∧ x.sealedAt < s.now / 250000 * 250000 ∧ s.afu.noSol = false) :=
  ⟨⟨ph .ready 275000 fun b => {b with ep.running := true}, by decide +kernel⟩,
    ⟨ph .ready 275000 fun b => {b with ep.running := true, afu.noSol := false, afu.sol := some (solRec (pay 256 []))}, solRec (pay 256 []),
        by decide +kernel⟩⟩

theorem wit_AlignmentUnit_7 : ∃ (s : Machine.State), 25000 < s.now % 250000 :=
  ⟨ph .ready 275001 id, by decide +kernel⟩

theorem wit_AlignmentUnit_8 : ∃ (s : Machine.State), s.now / 250000 * 250000 ≤ s.afu.predAt :=
  ⟨mk (id), by decide +kernel⟩

theorem wit_PriorsAndParcels_0 : ∃ (s : Machine.State) (r : CmdRef) (c : Cmd), Block.starting r 64 s.toBlock = some c
    ∧ (c.fieldsOk fun x => true) = true ∧ c.feature = some 7 ∧ Block.committed 7 s.toBlock = true :=
  ⟨rdyCmd 7 (cmd 0x40 [(8, 64), (16, 256)]) id, r1, cmd 0x40 [(8, 64), (16, 256)], by decide +kernel⟩

theorem wit_PriorsAndParcels_1 : ∃ (s : Machine.State) (r : CmdRef) (c : Cmd), Block.starting r 64 s.toBlock = some c
    ∧ (c.fieldsOk fun x => true) = true ∧ c.feature = some 7 ∧ Block.committed 7 s.toBlock = false :=
  ⟨rdyCmd 10 (cmd 0x40 [(8, 64), (16, 256)]) id, r1, cmd 0x40 [(8, 64), (16, 256)], by decide +kernel⟩

theorem wit_PriorsAndParcels_2 : ∃ (s : Machine.State) (r : CmdRef),
    List.find? (fun c => c.id == r.id && Block.reading r c s.toBlock) (s.host.queues.getD ↑r.q { }).cmds = none :=
  ⟨rdyCmd 7 (cmd 0x40 [(8, 64), (16, 256)]) id, r1, by decide +kernel⟩

theorem wit_PriorsAndParcels_3 :
    (∃ (s : Machine.State) (r : CmdRef) (c : Cmd),
        List.find? (fun c => c.id == r.id && Block.reading r c s.toBlock) (s.host.queues.getD ↑r.q { }).cmds = some c ∧ c.op = 64 ∧ c.heads = true)
    ∧ (∃ (s : Machine.State) (r : CmdRef) (c : Cmd) (p : Parcel),
        List.find? (fun c => c.id == r.id && Block.reading r c s.toBlock) (s.host.queues.getD ↑r.q { }).cmds = some c ∧ c.op = 64 ∧ c.heads = true
        ∧ Block.hostFault p s.toBlock = none ∧ field (Block.hostSealed p s.toBlock).payload 4 4 ≠ s.thermos.tbEpoch.toNat)
    ∧ (∃ (s : Machine.State) (r : CmdRef) (c : Cmd) (p : Parcel),
        List.find? (fun c => c.id == r.id && Block.reading r c s.toBlock) (s.host.queues.getD ↑r.q { }).cmds = some c ∧ c.op = 64 ∧ c.heads = true
        ∧ Block.hostFault p s.toBlock = none ∧ field (Block.hostSealed p s.toBlock).payload 4 4 = s.thermos.tbEpoch.toNat
        ∧ Block.priorCause (Block.hostSealed p s.toBlock).payload s.toBlock = 0)
    ∧ (∃ (s : Machine.State) (r : CmdRef) (c : Cmd) (p : Parcel),
        List.find? (fun c => c.id == r.id && Block.reading r c s.toBlock) (s.host.queues.getD ↑r.q { }).cmds = some c ∧ c.op = 64 ∧ c.heads = true
        ∧ Block.hostFault p s.toBlock = none ∧ field (Block.hostSealed p s.toBlock).payload 4 4 = s.thermos.tbEpoch.toNat
        ∧ Block.priorCause (Block.hostSealed p s.toBlock).payload s.toBlock ≠ 0) :=
  ⟨⟨rdyCmd 7 priorCmd id, r1, priorCmd, by decide +kernel⟩,
    ⟨rdyCmd 7 priorCmd fun b => {b with thermos.tbEpoch := 3}, r1, priorCmd, raw 0x0B02 0 0 priorPay, by decide +kernel⟩,
    ⟨rdyCmd 7 priorCmd fun b => {b with cfg.active := set_ [fusePage]}, r1, priorCmd, raw 0x0B02 0 0 priorPay, by decide +kernel⟩,
    ⟨rdyCmd 7 priorCmd id, r1, priorCmd, raw 0x0B02 0 0 priorPay, by decide +kernel⟩⟩

theorem wit_OwlScoring_0 :
    (∃ (s : Machine.State) (r : CmdRef) (c : Cmd), Block.starting r 32 s.toBlock = some c ∧ (c.fieldsOk fun c => decide (c.arg 24 1 < 8)) = true
        ∧ c.feature = some 8 ∧ Block.committed 8 s.toBlock = true ∧ owlIn s.cfg.active (c.arg 24 1) 16 1 = 1)
    ∧ (∃ (s : Machine.State) (r : CmdRef) (c : Cmd), Block.starting r 32 s.toBlock = some c ∧ (c.fieldsOk fun c => decide (c.arg 24 1 < 8)) = true
        ∧ c.feature = some 8 ∧ Block.committed 8 s.toBlock = true ∧ owlIn s.cfg.active (c.arg 24 1) 16 1 ≠ 1 ∧ s.cfg.shadowState ≠ Shadow.armed
        ∧ s.cfg.shadowState ≠ Shadow.checking) :=
  ⟨⟨rdyCmd 8 (cmd 0x20 [(8, 64), (16, 64)]) fun b => {b with cfg.active := set_ [owlPage]}, r1, cmd 0x20 [(8, 64), (16, 64)], by decide +kernel⟩,
    ⟨rdyCmd 8 (cmd 0x20 [(8, 64), (16, 64), (24, 7)]) id, r1, cmd 0x20 [(8, 64), (16, 64), (24, 7)], by decide +kernel⟩⟩

theorem wit_OwlScoring_1 :
    (∃ (s : Machine.State) (r : CmdRef) (c : Cmd), Block.starting r 33 s.toBlock = some c
        ∧ (c.fieldsOk fun c => decide (c.arg 24 1 < 8) && decide (1 ≤ c.arg 28 4) && decide (c.arg 28 4 ≤ 65535)) = true ∧ c.feature = some 8
        ∧ Block.committed 8 s.toBlock = true ∧ (s.slotModel (c.arg 24 1)).isNone = true)
    ∧ (∃ (s : Machine.State) (r : CmdRef) (c : Cmd), Block.starting r 33 s.toBlock = some c
        ∧ (c.fieldsOk fun c => decide (c.arg 24 1 < 8) && decide (1 ≤ c.arg 28 4) && decide (c.arg 28 4 ≤ 65535)) = true ∧ c.feature = some 8
        ∧ Block.committed 8 s.toBlock = true ∧ (s.slotModel (c.arg 24 1)).isSome = true ∧ s.flt.threads ≠ 0) :=
  ⟨⟨rdyCmd 8 (cmd 0x21 [(8, 64), (16, 64), (24, 7), (28, 65535)]) id, r1, cmd 0x21 [(8, 64), (16, 64), (24, 7), (28, 65535)], by decide +kernel⟩,
    ⟨rdyCmd 8 (cmd 0x21 [(8, 64), (16, 64), (28, 1)]) fun b => {b with cfg.active := set_ [owlPage], boot.models := b.boot.models.set 0 (some [])},
        r1, cmd 0x21 [(8, 64), (16, 64), (28, 1)], by decide +kernel⟩⟩

theorem wit_OwlScoring_2 :
    (∃ (s : Machine.State) (th : Fin 32) (j : OwlJob) (js : List OwlJob), s.owl.jobs = j :: js ∧ j.entered = true
        ∧ (s.flt.threads.getLsbD ↑th = false ∨ s.threadsForHost = false))
    ∧ (∃ (s : Machine.State) (th : Fin 32) (i : ℕ) (j : OwlJob) (js : List OwlJob) (x : Sample), s.owl.jobs = j :: js ∧ j.entered = true
        ∧ s.flt.threads.getLsbD ↑th = true ∧ s.threadsForHost = true ∧ j.mayEnd i = true ∧ j.samples[i]? = some x
        ∧ j.done.length + 1 = j.samples.length)
    ∧ (∃ (s : Machine.State) (th : Fin 32) (i : ℕ) (j : OwlJob) (js : List OwlJob) (x : Sample), s.owl.jobs = j :: js ∧ j.entered = true
        ∧ s.flt.threads.getLsbD ↑th = true ∧ s.threadsForHost = true ∧ j.mayEnd i = true ∧ j.samples[i]? = some x
        ∧ j.done.length + 1 ≠ j.samples.length ∧ (j.recs.length + 2) * List.length (scoreSample j.model j.threshold i x.raw).bytes ≤ 4080
        ∧ (∀ k ∈ js, k.no ≠ j.no)) :=
  ⟨⟨rdy fun b => {b with owl.jobs := [{ owlJob with entered := true }], flt.threads := 1}, 31, { owlJob with entered := true }, [],
      by decide +kernel⟩,
    ⟨rdy fun b => {b with owl.jobs := [{ owlJob with entered := true }], flt.threads := 1}, 0, 0, { owlJob with entered := true }, [], ⟨[], 0⟩,
        by decide +kernel⟩,
    ⟨rdy fun b => {b with owl.jobs := [{ owlJob with entered := true, samples := [⟨[], 0⟩, ⟨[], 1⟩] }], flt.threads := 1}, 0, 1,
        { owlJob with entered := true, samples := [⟨[], 0⟩, ⟨[], 1⟩] }, [], ⟨[], 1⟩, by decide +kernel⟩⟩

theorem wit_OwlScoring_3 :
    (∃ (s : Machine.State), Block.unitsRun 6 s.toBlock = true ∧ s.owl.jobs = [] ∧ s.useSlot 5 = none)
    ∧ (∃ (s : Machine.State) (x : OwlIn) (n : ℕ) (m : Bytes), Block.unitsRun 6 s.toBlock = true ∧ s.owl.jobs = [] ∧ s.useSlot 5 = some n
        ∧ s.slotModel n = some m ∧ s.afu.preintDone = true ∧ s.owl.motionDone = false ∧ x.reads = [] ∧ (∀ p ∈ s.host.pool, sealFault p = none))
    ∧ (∃ (s : Machine.State), Block.unitsRun 6 s.toBlock = true ∧ s.owl.jobs = [] ∧ s.useSlot 3 = none)
    ∧ (∃ (s : Machine.State), Block.unitsRun 6 s.toBlock = true ∧ s.owl.jobs = [] ∧ s.useSlot 4 = none)
    ∧ (∃ (s : Machine.State) (x : OwlIn), Block.unitsRun 6 s.toBlock = true ∧ s.owl.jobs = [] ∧ s.useSlot 1 = none
        ∧ (s.foxReady ↑x.cam).isSome = true ∧ s.owl.gated.getD (↑x.cam) none = none)
    ∧ (∃ (s : Machine.State), Block.unitsRun 6 s.toBlock = true ∧ s.owl.jobs = [] ∧ s.useSlot 2 = none ∧ s.solvedNow = true
        ∧ s.badger.keyDone = false ∧ s.den.ue = [] ∧ keyframeDefault s.keyframeRaw = false) :=
  ⟨⟨rdy id, by decide +kernel⟩,
    ⟨mk fun b => {useOwl 5 b with afu.preintDone := true}, ⟨0, [], [], []⟩, 0, [], by decide +kernel⟩,
    ⟨rdy id, by decide +kernel⟩,
    ⟨rdy id, by decide +kernel⟩,
    ⟨rdy fun b => {b with fox.cams := b.fox.cams.set 5 { frames := [wholeFrame] }}, ⟨5, [], [], []⟩, by decide +kernel⟩,
    ⟨rdy fun b => {inFox wholeFrame b with badger.vioDone := true, afu.sol := some (solRec []), badger.keyFeats := [⟨0, 9, 0, 0⟩], map.kfs := [⟨4294967295, none⟩], afu.lastKf := 4294967295}, by decide +kernel⟩⟩

theorem wit_OwlScoring_4 : ∃ (s : Machine.State) (cam : Fin 6), s.boot.phase = BootPhase.ready ∧ (s.foxReady ↑cam).isSome = true
    ∧ s.owl.gated.getD (↑cam) none = none ∧ s.useSlot 1 = none ∧ s.owl.jobs = [] ∧ s.ep.start + s.foxCutoff + 250000 ≤ s.now :=
  ⟨ph .ready 1500000 fun b => {b with fox.cams := b.fox.cams.set 5 { frames := [wholeFrame] }}, 5, by decide +kernel⟩

theorem wit_OwlScoring_5 : ∃ (s : Machine.State), s.now < s.ep.start + s.foxCutoff + 250000 :=
  ⟨mk (id), by decide +kernel⟩

theorem wit_OwlScoring_7 : ∃ (s : Machine.State), s.detects = true :=
  ⟨rdy fun b => {b with owl.jobs := [owlJob]}, by decide +kernel⟩

theorem wit_VioProblems_0 : ∃ (s : Machine.State), (s.badger.vioDone = true ∨ s.afu.preintDone = false ∨ s.tracksReady = false) :=
  ⟨rdy fun b => {readyVio b with badger.vioDone := true}, by decide +kernel⟩

theorem wit_VioProblems_1 :
    (∃ (s : Machine.State) (x : VioIn), s.boot.phase = BootPhase.ready ∧ s.ep.running = true ∧ s.badger.vioDone = false ∧ s.badger.asmHeld = false
        ∧ s.afu.preintDone = true ∧ s.tracksReady = true ∧ (∀ (p : Parcel), s.afu.preint = some p ∨ s.badger.window = some p ∨ p ∈ s.host.pool
        → sealFault p = none) ∧ x.reads = [] ∧ s.badger.vioInit = false ∧ s.badger.initFrames.length < 7)
    ∧ (∃ (s : Machine.State) (x : VioIn), s.boot.phase = BootPhase.ready ∧ s.ep.running = true ∧ s.badger.vioDone = false
        ∧ s.badger.asmHeld = false ∧ s.afu.preintDone = true ∧ s.tracksReady = true ∧ (∀ (p : Parcel), s.afu.preint = some p
        ∨ s.badger.window = some p ∨ p ∈ s.host.pool → sealFault p = none) ∧ x.reads = [] ∧ s.badger.vioInit = true ∧ s.flt.tiles ≠ 0) :=
  ⟨⟨rdy readyVio, vio0, by decide +kernel, by decide +kernel, by decide +kernel, by decide +kernel, by decide +kernel, by decide +kernel,
      onlyPreint preint0 (by decide +kernel) (by decide +kernel) (by decide +kernel) (by decide +kernel), by decide +kernel⟩,
    ⟨rdy fun b => {readyVio b with badger.vioInit := true}, vio0, by decide +kernel, by decide +kernel, by decide +kernel, by decide +kernel,
        by decide +kernel, by decide +kernel, onlyPreint preint0 (by decide +kernel) (by decide +kernel) (by decide +kernel) (by decide +kernel),
        by decide +kernel⟩⟩

theorem wit_VioProblems_2 : ∃ (s : Machine.State), s.boot.phase = BootPhase.ready ∧ s.badger.vioInit = true ∧ s.carryLimit ≤ s.badger.dryEpochs :=
  ⟨rdy fun b => {b with badger.vioInit := true, badger.dryEpochs := 3, cfg.active := set_ [page 1 0 [(296, 2, 3)]]}, by decide +kernel⟩

theorem wit_VioProblems_3 : ∃ (s : Machine.State), s.badger.dryEpochs < s.carryLimit :=
  ⟨rdy fun b => {b with badger.vioInit := true, badger.dryEpochs := 2, cfg.active := set_ [page 1 0 [(296, 2, 3)]]}, by decide +kernel⟩

theorem wit_JobsOfBadger_0 :
    (∃ (s : Machine.State) (r : CmdRef) (c : Cmd), Block.starting r 48 s.toBlock = some c ∧ c.feature = some 9 ∧ Block.committed 9 s.toBlock = true
        ∧ (c.fieldsOk fun c => decide (1 ≤ c.arg 24 1) && decide (c.arg 24 1 ≤ 3) && decide (c.arg 25 1 ≤ 1) && (c.arg 24 1 != 1 || decide (c.arg 32 4 ≤ c.arg 36 4) && decide (c.arg 36 4 < 262144)) && (c.arg 24 1 != 2 || decide (c.arg 40 1 < 64))) = true ∧ c.arg 25 1 = 1 ∧ c.arg 28 4 = 0)
    ∧ (∃ (s : Machine.State) (r : CmdRef) (c : Cmd), Block.starting r 48 s.toBlock = some c ∧ c.feature = some 9
        ∧ Block.committed 9 s.toBlock = true
        ∧ (c.fieldsOk fun c => decide (1 ≤ c.arg 24 1) && decide (c.arg 24 1 ≤ 3) && decide (c.arg 25 1 ≤ 1) && (c.arg 24 1 != 1 || decide (c.arg 32 4 ≤ c.arg 36 4) && decide (c.arg 36 4 < 262144)) && (c.arg 24 1 != 2 || decide (c.arg 40 1 < 64))) = true ∧ c.arg 24 1 = 3 ∧ c.arg 25 1 = 0)
    ∧ (∃ (s : Machine.State) (r : CmdRef) (c : Cmd), Block.starting r 48 s.toBlock = some c ∧ c.feature = some 9
        ∧ Block.committed 9 s.toBlock = true
        ∧ (c.fieldsOk fun c => decide (1 ≤ c.arg 24 1) && decide (c.arg 24 1 ≤ 3) && decide (c.arg 25 1 ≤ 1) && (c.arg 24 1 != 1 || decide (c.arg 32 4 ≤ c.arg 36 4) && decide (c.arg 36 4 < 262144)) && (c.arg 24 1 != 2 || decide (c.arg 40 1 < 64))) = true ∧ c.arg 24 1 = 2 ∧ c.arg 25 1 = 0 ∧ (s.guest (c.arg 40 1)).gen.toNat ≠ c.arg 42 2)
    ∧ (∃ (s : Machine.State) (r : CmdRef) (c : Cmd), Block.starting r 48 s.toBlock = some c ∧ c.feature = some 9
        ∧ Block.committed 9 s.toBlock = true
        ∧ (c.fieldsOk fun c => decide (1 ≤ c.arg 24 1) && decide (c.arg 24 1 ≤ 3) && decide (c.arg 25 1 ≤ 1) && (c.arg 24 1 != 1 || decide (c.arg 32 4 ≤ c.arg 36 4) && decide (c.arg 36 4 < 262144)) && (c.arg 24 1 != 2 || decide (c.arg 40 1 < 64))) = true ∧ c.arg 24 1 = 1 ∧ c.arg 25 1 = 0 ∧ s.map.kfs = [] ∧ s.map.edgeTop = 0 ∧ s.flt.tiles ≠ 0) :=
  ⟨⟨rdyCmd 9 (cmd 0x30 [(24, 1), (25, 1)]) id, r1, cmd 0x30 [(24, 1), (25, 1)], by decide +kernel⟩,
    ⟨rdyCmd 9 (cmd 0x30 [(8, 64), (16, 64), (24, 3)]) id, r1, cmd 0x30 [(8, 64), (16, 64), (24, 3)], by decide +kernel⟩,
    ⟨rdyCmd 9 (cmd 0x30 [(24, 2), (40, 63), (42, 5)]) id, r1, cmd 0x30 [(24, 2), (40, 63), (42, 5)], by decide +kernel⟩,
    ⟨rdyCmd 9 (cmd 0x30 [(24, 1), (28, 1000), (36, 262143)]) id, r1, cmd 0x30 [(24, 1), (28, 1000), (36, 262143)], by decide +kernel⟩⟩

theorem wit_JobsOfBadger_1 :
    (∃ (s : Machine.State) (n : ℕ) (j : Job) (d : Tick), Block.job n s.toBlock = some j ∧ j.deadline = some d ∧ s.now < d)
    ∧ (∃ (s : Machine.State) (r : CmdRef) (n : ℕ) (j : Job) (d : Tick), Block.job n s.toBlock = some j ∧ j.deadline = some d ∧ d ≤ s.now
        ∧ s.boot.phase = BootPhase.ready ∧ j.host = true ∧ j.carry = false ∧ j.owner = some r) :=
  ⟨⟨ph .ready 4 fun b => {b with badger.jobs := [hostJob]}, 4, hostJob, 5, by decide +kernel⟩,
    ⟨mk fun b => {withCmd 9 { cmd 0x30 [(24, 1)] with stage := .committed } b with thermos.tb := 5, badger.jobs := [hostJob]}, r1, 4, hostJob, 5,
        by decide +kernel⟩⟩

theorem wit_JobsOfBadger_2 : ∃ (s : Machine.State) (n : ℕ), Block.job n s.toBlock = none :=
  ⟨rdy fun b => {b with badger.jobs := [hostJob]}, 5, by decide +kernel⟩

theorem wit_TilesAndIterations_0 : ∃ (s : Machine.State) (n : ℕ) (j : Job) (tile : Fin 16), Block.job n s.toBlock = some j
    ∧ (Block.works j s.toBlock = false ∨ s.flt.tiles.getLsbD ↑tile = false) :=
  ⟨rdy fun b => {b with badger.jobs := [job0], flt.tiles := 1}, 4, job0, 15, by decide +kernel⟩

theorem wit_TilesAndIterations_1 :
    (∃ (s : Machine.State) (n : ℕ) (j : Job) (tile : Fin 16) (o : OpOut), Block.job n s.toBlock = some j ∧ Block.works j s.toBlock = true
        ∧ s.flt.tiles.getLsbD ↑tile = true ∧ s.badger.deal.tiles.getD (↑tile) none = some n ∧ j.redo = [] ∧ j.work ≠ Work.linearise
        ∧ j.work ≠ Work.solved ∧ (∀ p ∈ j.reading, sealFault p = none) ∧ j.run j.work = Except.ok o)
    ∧ (∃ (s : Machine.State) (n : ℕ) (j : Job) (tile : Fin 16) (k : Place), Block.job n s.toBlock = some j ∧ Block.works j s.toBlock = true
        ∧ s.flt.tiles.getLsbD ↑tile = true ∧ s.badger.deal.tiles.getD (↑tile) none = some n ∧ j.redo = [] ∧ j.work ≠ Work.linearise
        ∧ j.work ≠ Work.solved ∧ (∀ p ∈ j.reading, sealFault p = none) ∧ j.run j.work = Except.error k ∧ tripFaults j (j.keyFmt k) = false)
    ∧ (∃ (s : Machine.State) (n : ℕ) (j : Job) (tile : Fin 16), Block.job n s.toBlock = some j ∧ Block.works j s.toBlock = true
        ∧ s.flt.tiles.getLsbD ↑tile = true ∧ s.badger.deal.tiles.getD (↑tile) none = some n ∧ j.redo = [] ∧ j.work = Work.linearise ∧ j.pcg = false
        ∧ (∀ p ∈ j.reading, sealFault p = none)) :=
  ⟨⟨rdy fun b => {b with badger.jobs := [{ job0 with work := .load 0 }], badger.tiles := b.badger.tiles.set 0 (some 4), flt.tiles := 1}, 4,
      { job0 with work := .load 0 }, 0, {}, by decide +kernel⟩,
    ⟨rdy fun b => {b with badger.jobs := [badJob], badger.tiles := b.badger.tiles.set 0 (some 4), flt.tiles := 1}, 4, badJob, 0, (9, 0, 0),
        by decide +kernel⟩,
    ⟨rdy fun b => {b with badger.jobs := [job0], badger.tiles := b.badger.tiles.set 0 (some 4), flt.tiles := 1}, 4, job0, 0, by decide +kernel⟩⟩

theorem wit_TilesAndIterations_2 :
    (∃ (s : Machine.State) (n : ℕ) (j : Job) (frac : ℕ) (p : Dy), Block.job n s.toBlock = some j ∧ tinyPivot (j.tau j.m frac) p = false)
    ∧ (∃ (s : Machine.State) (n : ℕ) (j : Job) (frac : ℕ) (p : Dy), Block.job n s.toBlock = some j ∧ tinyPivot (j.tau j.m frac) p = true) :=
  ⟨⟨rdy fun b => {b with badger.jobs := [job0], badger.tiles := b.badger.tiles.set 0 (some 4), flt.tiles := 1}, 4, job0, 0, ⟨100, 0⟩,
      by decide +kernel⟩,
    ⟨rdy fun b => {b with badger.jobs := [job0], badger.tiles := b.badger.tiles.set 0 (some 4), flt.tiles := 1}, 4, job0, 0, ⟨11, 0⟩,
        by decide +kernel⟩⟩

theorem wit_TilesAndIterations_3 :
    (∃ (s : Machine.State) (n : ℕ) (j : Job) (c : ℤ), Block.job n s.toBlock = some j ∧ Block.works j s.toBlock = true ∧ j.cls ≠ 3 ∧ j.cost = some c
        ∧ j.decided ≠ 0 ∧ j.solves = false)
    ∧ (∃ (s : Machine.State) (n : ℕ) (j : Job) (d : IterIn) (c : ℤ), Block.job n s.toBlock = some j ∧ Block.works j s.toBlock = true ∧ j.cls ≠ 3
        ∧ j.cost = some c ∧ j.decided ≠ 0 ∧ j.solves = true ∧ j.decided + 1 < j.maxOuter ∧ c ≤ d.cTry)
    ∧ (∃ (s : Machine.State) (n : ℕ) (j : Job) (d : IterIn) (c : ℤ), Block.job n s.toBlock = some j ∧ Block.works j s.toBlock = true ∧ j.cls ≠ 3
        ∧ j.cost = some c ∧ j.decided ≠ 0 ∧ j.solves = true ∧ j.decided + 1 < j.maxOuter ∧ d.cTry < c
        ∧ lmStops j.resEps j.stepMin d.grad2 (j.g0.getD d.init.2) (if j.pcg = true then d.maxDx else j.maxStep) = false) :=
  ⟨⟨rdy fun b => {b with badger.jobs := [job0], badger.tiles := b.badger.tiles.set 0 (some 4), flt.tiles := 1}, 4, job0, 9, by decide +kernel⟩,
    ⟨rdy fun b => {b with badger.jobs := [{ job0 with work := .solved }], badger.tiles := b.badger.tiles.set 0 (some 4), flt.tiles := 1}, 4,
        { job0 with work := .solved }, ⟨(1, 1), 9, 5, 0, [1], 2, []⟩, 9, by decide +kernel⟩,
    ⟨rdy fun b => {b with badger.jobs := [{ job0 with work := .solved, pcg := true }], badger.tiles := b.badger.tiles.set 0 (some 4), flt.tiles := 1}, 4, { job0 with work := .solved, pcg := true }, ⟨(1, 1), 8, 5, 0, [1], 2, []⟩, 9, by decide +kernel⟩⟩

theorem wit_TilesAndIterations_4 :
    (∃ (s : Machine.State) (n : ℕ) (j : Job), Block.job n s.toBlock = some j)
    ∧ (∃ (s : Machine.State) (n : ℕ) (j : Job) (l : ℕ), Block.job n s.toBlock = some j ∧ l * 10 < 2 ^ 32 ∧ 1 ≤ l)
    ∧ (∃ (s : Machine.State) (n : ℕ) (j : Job) (l : ℕ), Block.job n s.toBlock = some j ∧ l * 4 < 2 ^ 32 ∧ 1 ≤ l) :=
  ⟨⟨rdy fun b => {b with badger.jobs := [job0]}, 4, job0, by decide +kernel⟩,
    ⟨rdy fun b => {b with badger.jobs := [job0]}, 4, job0, 429496729, by decide +kernel⟩,
    ⟨rdy fun b => {b with badger.jobs := [job0]}, 4, job0, 1073741823, by decide +kernel⟩⟩

theorem wit_MapWrites_0 : ∃ (s : Machine.State), s.den.mem.wf = true ∧ s.boot.phase ≠ BootPhase.ready :=
  ⟨mk bareMap, by decide +kernel⟩

theorem wit_MapWrites_1 : ∃ (s : Machine.State) (o : MapObj), s.den.mem.wf = true ∧ Block.kf o.index s.toBlock = none ∧ (o.kind = MapKind.kfHead
    ∨ o.kind = MapKind.kfObs) :=
  ⟨rdy bareMap, ⟨.kfObs, 8, 0, [], []⟩, by decide +kernel⟩

theorem wit_MapWrites_2 :
    (∃ (s : Machine.State) (o : MapObj) (k : KfDir), s.den.mem.wf = true ∧ s.boot.phase = BootPhase.ready ∧ s.den.ue = [] ∧ o.kind = MapKind.kfHead
        ∧ Block.kf o.index s.toBlock = some k)
    ∧ (∃ (s : Machine.State) (o : MapObj) (h : Bytes), s.den.mem.wf = true ∧ s.boot.phase = BootPhase.ready ∧ s.den.ue = []
        ∧ s.den.dramAbsent = false ∧ o.kind = MapKind.kfObs ∧ (Block.kf o.index s.toBlock).isSome = true ∧ Block.kfHead o.index s.toBlock = h
        ∧ o.sub < field h 31 1 ∧ field h 104 8 ≠ 0)
    ∧ (∃ (s : Machine.State) (o : MapObj), s.den.mem.wf = true ∧ s.boot.phase = BootPhase.ready ∧ s.den.ue = [] ∧ s.den.dramAbsent = false
        ∧ o.kind = MapKind.points ∧ o.index < 133152 ∧ o.payload = List.replicate 4048 0)
    ∧ (∃ (s : Machine.State) (o : MapObj), s.den.mem.wf = true ∧ s.boot.phase = BootPhase.ready ∧ s.den.ue = [] ∧ s.den.dramAbsent = false
        ∧ o.kind = MapKind.edges ∧ o.index < 40960 ∧ o.payload = List.replicate 4016 0)
    ∧ (∃ (s : Machine.State) (o : MapObj) (key : ℕ), s.den.mem.wf = true ∧ s.boot.phase = BootPhase.ready ∧ s.den.ue = []
        ∧ s.den.dramAbsent = false ∧ o.kind = MapKind.postings ∧ (placeSamples (obsRecords (Block.kfObs o.index s.toBlock)))[o.sub]? = some key
        ∧ List.find? (fun x => x.key == key) s.map.buckets = none ∧ s.map.poolNext + 128 ≤ s.poolEnd) :=
  ⟨⟨rdy bareMap, ⟨.kfHead, 7, 0, [1, 2, 3], []⟩, ⟨7, some 3⟩, by decide +kernel⟩,
    ⟨rdy withMap, ⟨.kfObs, 9, 0, [1, 2, 3], []⟩, headPay 9, by decide +kernel⟩,
    ⟨rdy fun b => {b with den.usableMib := 28672}, ⟨.points, 133151, 0, List.replicate 4048 0, []⟩, by decide +kernel⟩,
    ⟨rdy fun b => {b with den.usableMib := 28672}, ⟨.edges, 40959, 0, List.replicate 4016 0, []⟩, by decide +kernel⟩,
    ⟨rdy withMap, ⟨.postings, 9, 0, [], []⟩, bucketOf 0, by decide +kernel⟩⟩

theorem wit_HotMovesAndScrubs_0 : ∃ (s : Machine.State) (ms : List HotMove), s.boot.phase = BootPhase.ready ∧ s.map.moved ≤ 64 ∧ (∀ m ∈ ms,
    Block.kf m.kf s.toBlock = none) :=
  ⟨rdy fun b => {withMap b with map.moved := 63}, [⟨5, false⟩, ⟨6, true⟩], by decide +kernel, by decide +kernel, by decide +kernel⟩

theorem wit_HotMovesAndScrubs_1 : ∃ (s : Machine.State) (id : ℕ) (h : ℕ), s.boot.phase = BootPhase.ready ∧ s.map.moved < 64
    ∧ Block.kf id s.toBlock = some { id := id, hot := some h } ∧ s.den.dramAbsent = false ∧ s.den.mem.wf = true ∧ s.den.ue = [] :=
  ⟨rdy fun b => {bareMap b with map.moved := 63}, 7, 3, by decide +kernel⟩

theorem wit_HotMovesAndScrubs_2 : ∃ (s : Machine.State), s.boot.phase ≠ BootPhase.ready :=
  ⟨mk (id), by decide +kernel⟩

theorem wit_HotMovesAndScrubs_4 : ∃ (s : Machine.State) (a : BitVec 40), s.detects = true ∧ a.toNat < 33554432 :=
  ⟨rdy id, 0x1FFFFFF, by decide +kernel⟩

theorem wit_HotMovesAndScrubs_5 : ∃ (s : Machine.State) (a : BitVec 40), s.boot.phase = BootPhase.ready ∧ 4294967296 ≤ a.toNat
    ∧ a.toNat < s.dramTop :=
  ⟨rdy withMap, 0x100000000, by decide +kernel⟩

theorem wit_HotMovesAndScrubs_6 : ∃ (s : Machine.State) (a : BitVec 40), s.dramTop ≤ a.toNat :=
  ⟨rdy withMap, 0x800000000, by decide +kernel⟩

theorem wit_HotMovesAndScrubs_7 : ∃ (s : Machine.State), s.boot.phase = BootPhase.ready ∧ s.den.dramAbsent = false :=
  ⟨mk (fun b => { b with boot.phase := Sys2Proof.Machine.BootPhase.ready, den.dramAbsent := false }), by decide +kernel⟩

theorem wit_HotMovesAndScrubs_8 : ∃ (s : Machine.State), s.den.dramAbsent = true :=
  ⟨mk (fun b => { b with den.dramAbsent := true }), by decide +kernel⟩

theorem wit_Bar4Windows_0 : ∃ (s : Machine.State), s.link.up = true :=
  ⟨mk (fun b => { b with link.up := true }), by decide +kernel⟩

theorem wit_Bar4Windows_2 :
    (∃ (s : Machine.State) (r : CmdRef) (c : Cmd), (c.fieldsOk fun c => decide (c.arg 24 1 < 8)) = true ∧ c.feature = some 11
        ∧ Block.committed 11 s.toBlock = true ∧ Block.starting r 96 s.toBlock = some c ∧ Block.windowOk c s.toBlock = true)
    ∧ (∃ (s : Machine.State) (r : CmdRef) (c : Cmd), (c.fieldsOk fun c => decide (c.arg 24 1 < 8)) = true ∧ c.feature = some 11
        ∧ Block.committed 11 s.toBlock = true ∧ Block.starting r 96 s.toBlock = some c ∧ Block.windowOk c s.toBlock = false)
    ∧ (∃ (s : Machine.State) (r : CmdRef) (c : Cmd), (c.fieldsOk fun c => decide (c.arg 24 1 < 8)) = true ∧ c.feature = some 11
        ∧ Block.committed 11 s.toBlock = true ∧ Block.starting r 97 s.toBlock = some c ∧ s.den.windows.getD (c.arg 24 1) none ≠ none)
    ∧ (∃ (s : Machine.State) (r : CmdRef) (c : Cmd), (c.fieldsOk fun c => decide (c.arg 24 1 < 8)) = true ∧ c.feature = some 11
        ∧ Block.committed 11 s.toBlock = true ∧ Block.starting r 97 s.toBlock = some c ∧ s.den.windows.getD (c.arg 24 1) none = none) :=
  ⟨⟨rdyCmd 11 (cmd 0x60 win7) id, r1, cmd 0x60 win7, by decide +kernel⟩,
    ⟨rdyCmd 11 (cmd 0x60 [(24, 7)]) id, r1, cmd 0x60 [(24, 7)], by decide +kernel⟩,
    ⟨rdyCmd 11 (cmd 0x61 [(24, 7)]) fun b => {b with den.windows := b.den.windows.set 7 (some ⟨0, 0x180000, 4096⟩)}, r1, cmd 0x61 [(24, 7)],
        by decide +kernel⟩,
    ⟨rdyCmd 11 (cmd 0x61 [(24, 7)]) id, r1, cmd 0x61 [(24, 7)], by decide +kernel⟩⟩

theorem wit_Bar4Windows_3 : ∃ (s : Machine.State) (off : ℕ) (n : ℕ) (a : ℕ), s.link.up = true ∧ (∀ i < n, s.bar4Addr (off + i) = some (a + i)
    ∧ (a + i) / 64 ∉ s.den.ue) :=
  ⟨rdy fun b => {b with link.up := true, den.windows := b.den.windows.set 7 (some ⟨0, 0x180000, 4096⟩)}, 4092, 4, 0x180FFC, by decide +kernel,
      by decide +kernel⟩

theorem wit_Bar4Windows_4 : ∃ (s : Machine.State) (off : ℕ) (n : ℕ) (i : ℕ), s.link.up = true ∧ i < n ∧ s.bar4Addr (off + i) = none :=
  ⟨rdy fun b => {b with link.up := true, den.windows := b.den.windows.set 7 (some ⟨0, 0x180000, 4096⟩)}, 4092, 5, 4, by decide +kernel⟩

theorem wit_GuestCommands_0 :
    (∃ (s : Machine.State) (r : CmdRef) (c : Cmd), c.feature = some 5 ∧ Block.committed 5 s.toBlock = true ∧ (c.fieldsOk fun x => true) = true
        ∧ Block.starting r 80 s.toBlock = some c ∧ s.den.dramAbsent = true)
    ∧ (∃ (s : Machine.State) (r : CmdRef) (c : Cmd), c.feature = some 5 ∧ Block.committed 5 s.toBlock = true ∧ (c.fieldsOk fun x => true) = true
        ∧ Block.starting r 80 s.toBlock = some c ∧ s.den.dramAbsent = false ∧ Block.homeChip (c.arg 32 8) s.toBlock ≠ s.trail.chip.toNat)
    ∧ (∃ (s : Machine.State) (r : CmdRef) (c : Cmd) (g : ℕ), c.feature = some 5 ∧ Block.committed 5 s.toBlock = true
        ∧ (c.fieldsOk fun x => true) = true ∧ Block.starting r 80 s.toBlock = some c ∧ s.den.dramAbsent = false
        ∧ Block.homeChip (c.arg 32 8) s.toBlock = s.trail.chip.toNat ∧ Block.guestHolding (c.arg 32 8) s.toBlock = some g)
    ∧ (∃ (s : Machine.State) (r : CmdRef) (c : Cmd), c.feature = some 5 ∧ Block.committed 5 s.toBlock = true ∧ (c.fieldsOk fun x => true) = true
        ∧ Block.starting r 80 s.toBlock = some c ∧ s.den.dramAbsent = false ∧ Block.homeChip (c.arg 32 8) s.toBlock = s.trail.chip.toNat
        ∧ Block.guestHolding (c.arg 32 8) s.toBlock = none ∧ s.freeGuest = none)
    ∧ (∃ (s : Machine.State) (r : CmdRef) (c : Cmd) (g : ℕ), c.feature = some 5 ∧ Block.committed 5 s.toBlock = true
        ∧ (c.fieldsOk fun x => true) = true ∧ Block.starting r 80 s.toBlock = some c ∧ s.den.dramAbsent = false
        ∧ Block.homeChip (c.arg 32 8) s.toBlock = s.trail.chip.toNat ∧ Block.guestHolding (c.arg 32 8) s.toBlock = none ∧ s.freeGuest = some g
        ∧ s.guests.length = 64)
    ∧ (∃ (s : Machine.State) (r : CmdRef) (c : Cmd), c.feature = some 5 ∧ Block.committed 5 s.toBlock = true ∧ (c.fieldsOk fun x => true) = true
        ∧ Block.starting r 81 s.toBlock = some c ∧ c.arg 28 4 = 0 ∧ c.arg 16 4 = 0)
    ∧ (∃ (s : Machine.State) (r : CmdRef) (c : Cmd), c.feature = some 5 ∧ Block.committed 5 s.toBlock = true ∧ (c.fieldsOk fun x => true) = true
        ∧ Block.starting r 81 s.toBlock = some c ∧ c.arg 28 4 ≠ 0) :=
  ⟨⟨rdyCmd 5 (cmd 0x50 [(32, 9)]) fun b => {b with den.dramAbsent := true}, r1, cmd 0x50 [(32, 9)], by decide +kernel⟩,
    ⟨rdyCmd 5 (cmd 0x50 [(32, 9)]) fun b => {b with trail.chip := 4}, r1, cmd 0x50 [(32, 9)], by decide +kernel⟩,
    ⟨rdyCmd 5 (cmd 0x50 [(32, 77)]) fun b => {b with guests := b.guests.set 63 arrived}, r1, cmd 0x50 [(32, 77)], 63, by decide +kernel⟩,
    ⟨rdyCmd 5 (cmd 0x50 [(32, 9)]) fun b => {b with guests := List.replicate 64 arrived}, r1, cmd 0x50 [(32, 9)], by decide +kernel⟩,
    ⟨rdyCmd 5 (cmd 0x50 [(32, 9)]) fun b => {b with guests := List.replicate 63 arrived ++ [{ gen := 0xFFFF }]}, r1, cmd 0x50 [(32, 9)], 63,
        by decide +kernel⟩,
    ⟨rdyCmd 5 (cmd 0x51 [(8, 64)]) id, r1, cmd 0x51 [(8, 64)], by decide +kernel⟩,
    ⟨rdyCmd 5 (cmd 0x51 [(8, 64), (16, 64), (28, 1)]) id, r1, cmd 0x51 [(8, 64), (16, 64), (28, 1)], by decide +kernel⟩⟩

theorem wit_GuestCommands_1 : ∃ (s : Machine.State) (r : CmdRef) (c : Cmd) (p : Parcel),
    List.find? (fun c => c.id == r.id && Block.reading r c s.toBlock) (s.host.queues.getD ↑r.q { }).cmds = some c ∧ c.op = 81 ∧ c.heads = true
    ∧ Block.hostFault p s.toBlock = none ∧ Block.fragRefusal (Block.hostSealed p s.toBlock) false s.toBlock = none ∧ s.guests.length = 64 :=
  ⟨rdyCmd 5 fragCmd (withGuest arrived), r1, fragCmd, frag 63 1 5 3 [1, 2, 3, 4], by decide +kernel⟩

theorem wit_GuestCommands_2 :
    (∃ (s : Machine.State) (r : CmdRef) (c : Cmd), c.feature = some 5 ∧ Block.committed 5 s.toBlock = true
        ∧ (c.fieldsOk fun c => decide (c.arg 24 1 < 64)) = true ∧ Block.starting r 82 s.toBlock = some c
        ∧ (s.guest (c.arg 24 1)).gen.toNat ≠ c.arg 26 2)
    ∧ (∃ (s : Machine.State) (r : CmdRef) (c : Cmd), c.feature = some 5 ∧ Block.committed 5 s.toBlock = true
        ∧ (c.fieldsOk fun c => decide (c.arg 24 1 < 64)) = true ∧ Block.starting r 82 s.toBlock = some c
        ∧ (s.guest (c.arg 24 1)).gen.toNat = c.arg 26 2 ∧ (s.guest (c.arg 24 1)).st.accepts = true ∧ s.guests.length = 64) :=
  ⟨⟨rdyCmd 5 (cmd 0x52 [(24, 63), (26, 4)]) (withGuest arrived), r1, cmd 0x52 [(24, 63), (26, 4)], by decide +kernel⟩,
    ⟨rdyCmd 5 (cmd 0x52 [(24, 63), (26, 5)]) (withGuest arrived), r1, cmd 0x52 [(24, 63), (26, 5)], by decide +kernel⟩⟩

theorem wit_GuestCommands_3 : ∃ (g : BitVec 16), g ≠ 65535 :=
  ⟨0xFFFE, by decide +kernel⟩

theorem wit_GuestStays_0 :
    (∃ (s : Machine.State) (k : Fin 64) (xs : List (ℕ × Sample)), s.boot.phase = BootPhase.ready ∧ s.guests.length = 64
        ∧ (s.guest ↑k).st = GuestSt.arriving ∧ s.minAlignKf ≤ (List.filter (s.guest ↑k).obsKfs.contains (s.guest ↑k).kfs).length
        ∧ (s.guest ↑k).alignAt ≤ (s.guest ↑k).kfs.length ∧ s.map.rebuild = false ∧ s.den.dramAbsent = false ∧ s.useSlot 4 = none
        ∧ 7 ≤ (List.take 4096 (List.flatMap (fun x => Block.pairMatches (↑k) x s.toBlock) (sortBy (fun x y => fp32Lt y.score x.score || !fp32Lt x.score y.score && decide (x.guest.toNat ≤ y.guest.toNat)) (Block.alignPairs (↑k) xs s.toBlock).2.1))).length ∧ s.flt.tiles ≠ 0)
    ∧ (∃ (s : Machine.State) (k : Fin 64) (xs : List (ℕ × Sample)), s.boot.phase = BootPhase.ready ∧ s.guests.length = 64
        ∧ (s.guest ↑k).st = GuestSt.arriving ∧ s.minAlignKf ≤ (List.filter (s.guest ↑k).obsKfs.contains (s.guest ↑k).kfs).length
        ∧ (s.guest ↑k).alignAt ≤ (s.guest ↑k).kfs.length ∧ s.map.rebuild = false ∧ s.den.dramAbsent = false ∧ s.useSlot 4 = none
        ∧ (List.take 4096 (List.flatMap (fun x => Block.pairMatches (↑k) x s.toBlock) (sortBy (fun x y => fp32Lt y.score x.score || !fp32Lt x.score y.score && decide (x.guest.toNat ≤ y.guest.toNat)) (Block.alignPairs (↑k) xs s.toBlock).2.1))).length < 7 ∧ (s.guest ↑k).attempts + 1 < s.alignAttempts) :=
  ⟨⟨rdy (withGuest arrived), 63, [], by decide +kernel⟩,
    ⟨rdy fun b => {withGuest { arrived with staged := [] } b with den.mem := []}, 63, [], by decide +kernel⟩⟩

theorem wit_GuestStays_1 : ∃ (s : Machine.State) (k : Fin 64), s.boot.phase = BootPhase.ready ∧ s.guests.length = 64
    ∧ (s.guest ↑k).st ≠ GuestSt.arriving :=
  ⟨rdy (withGuest { arrived with st := .merged }), 63, by decide +kernel⟩

theorem wit_GuestStays_2 :
    (∃ (s : Machine.State) (k : Fin 64) (p : Parcel), s.boot.phase = BootPhase.ready ∧ s.guests.length = 64 ∧ s.pwr.paused = false
        ∧ s.den.dramAbsent = false ∧ (s.guest ↑k).st = GuestSt.merged ∧ (s.guest ↑k).staged = [p] ∧ sealFault p = none ∧ s.den.ue = []
        ∧ s.map.merged < s.mergePerEpoch ∧ (∀ (f : Fin 64), (f ≠ k → (s.guest ↑f).staged = []) ∧ (s.guest ↑f).st ≠ GuestSt.evicting))
    ∧ (∃ (s : Machine.State) (k : Fin 64), s.boot.phase = BootPhase.ready ∧ s.guests.length = 64 ∧ s.pwr.paused = false ∧ s.den.dramAbsent = false
        ∧ (s.guest ↑k).st = GuestSt.evicting ∧ (∀ (f : Fin 64), (s.guest ↑f).staged = [] ∧ (f ≠ k → (s.guest ↑f).st ≠ GuestSt.evicting))
        ∧ s.badger.jobs = [] ∧ s.map.ptTop = 0 ∧ s.map.edgeTop = 0 ∧ (s.guest ↑k).purge ≠ []) :=
  ⟨⟨rdy (withGuest { arrived with st := .merged, staged := [ctl 0x0801 (frag 63 4 5 2 []).payload] }), 63, ctl 0x0801 (frag 63 4 5 2 []).payload,
      by decide +kernel, by decide +kernel, by decide +kernel, by decide +kernel, by decide +kernel, by decide +kernel, by decide +kernel,
      by decide +kernel, by decide +kernel, by decide +kernel⟩,
    ⟨rdy (withGuest { st := .evicting, purge := [9] }), 63, by decide +kernel, by decide +kernel, by decide +kernel, by decide +kernel,
        by decide +kernel, by decide +kernel, by decide +kernel, by decide +kernel, by decide +kernel, by decide +kernel⟩⟩

theorem wit_GuestStays_3 :
    (∃ (s : Machine.State) (k : Fin 64), s.boot.phase = BootPhase.ready ∧ s.guests.length = 64 ∧ (s.guest ↑k).st.accepts = true ∧ s.idleEpochs ≠ 0
        ∧ (s.guest ↑k).stagedAt + s.idleEpochs ≤ s.ep.now.toNat)
    ∧ (∃ (s : Machine.State) (k : Fin 64), s.boot.phase = BootPhase.ready ∧ s.guests.length = 64 ∧ (s.guest ↑k).st.accepts = true
        ∧ (s.idleEpochs = 0 ∨ s.ep.now.toNat < (s.guest ↑k).stagedAt + s.idleEpochs)) :=
  ⟨⟨rdy fun b => {withGuest arrived b with ep.now := 600}, 63, by decide +kernel⟩,
    ⟨rdy fun b => {withGuest arrived b with ep.now := 599}, 63, by decide +kernel⟩⟩

theorem wit_GuestStays_4 :
    (∃ (s : Machine.State) (k : Fin 64), s.boot.phase = BootPhase.ready ∧ s.guests.length = 64 ∧ (s.guest ↑k).st = GuestSt.evicting
        ∧ (s.guest ↑k).purge = [] ∧ (s.guest ↑k).since < s.ep.now.toNat)
    ∧ (∃ (s : Machine.State) (k : Fin 64), s.boot.phase = BootPhase.ready ∧ s.guests.length = 64 ∧ (s.guest ↑k).st = GuestSt.evicting
        ∧ (s.guest ↑k).purge = [] ∧ s.ep.now.toNat ≤ (s.guest ↑k).since) :=
  ⟨⟨rdy fun b => {withGuest { st := .evicting, since := 4 } b with ep.now := 5}, 63, by decide +kernel⟩,
    ⟨rdy fun b => {withGuest { st := .evicting, since := 5 } b with ep.now := 5}, 63, by decide +kernel⟩⟩

theorem wit_GuestStays_5 :
    (∃ (s : Machine.State) (k : Fin 64), s.boot.phase = BootPhase.ready ∧ s.guests.length = 64 ∧ (s.guest ↑k).st = GuestSt.cooling
        ∧ (s.guest ↑k).doneAt + 2 ≤ s.ep.now.toNat)
    ∧ (∃ (s : Machine.State) (k : Fin 64), s.boot.phase = BootPhase.ready ∧ s.guests.length = 64 ∧ (s.guest ↑k).st = GuestSt.cooling
        ∧ s.ep.now.toNat < (s.guest ↑k).doneAt + 2) :=
  ⟨⟨rdy fun b => {withGuest { st := .cooling, doneAt := 5 } b with ep.now := 7}, 63, by decide +kernel⟩,
    ⟨rdy fun b => {withGuest { st := .cooling, doneAt := 5 } b with ep.now := 6}, 63, by decide +kernel⟩⟩

theorem wit_DoorbellsTimersSideband_0 :
    (∃ (s : Machine.State) (q : Fin 16), ↑q < s.host.queues.length ∧ ((Block.queue (↑q) s.toBlock).enabled = false
        ∨ (Block.queue (↑q) s.toBlock).bellErr = true))
    ∧ (∃ (s : Machine.State) (q : Fin 16) (v : BitVec 32), ↑q < s.host.queues.length ∧ (Block.queue (↑q) s.toBlock).enabled = true
        ∧ (Block.queue (↑q) s.toBlock).bellErr = false ∧ v.toNat < (Block.queue (↑q) s.toBlock).sqSize.toNat
        ∧ v.toNat ≠ (Block.queue (↑q) s.toBlock).sqTail)
    ∧ (∃ (s : Machine.State) (q : Fin 16) (v : BitVec 32), ↑q < s.host.queues.length ∧ (Block.queue (↑q) s.toBlock).enabled = true
        ∧ (Block.queue (↑q) s.toBlock).bellErr = false ∧ v.toNat < (Block.queue (↑q) s.toBlock).cqSize.toNat)
    ∧ (∃ (s : Machine.State) (q : Fin 16) (v : BitVec 32) (c : Instr), ↑q < s.host.queues.length ∧ (Block.queue (↑q) s.toBlock).enabled = true
        ∧ (Block.queue (↑q) s.toBlock).bellErr = false ∧ (c = Instr.sqTailDoorbell q v ∧ (Block.queue (↑q) s.toBlock).sqSize.toNat ≤ v.toNat
        ∨ c = Instr.cqHeadDoorbell q v ∧ (Block.queue (↑q) s.toBlock).cqSize.toNat ≤ v.toNat))
    ∧ (∃ (s : Machine.State) (k : Fin 8) (v : BitVec 32), (Block.stream (↑k) s.toBlock).isOpen = true
        ∧ ((Block.stream (↑k) s.toBlock).tail - v).toNat ≤ (Block.stream (↑k) s.toBlock).slots.toNat)
    ∧ (∃ (s : Machine.State) (k : Fin 8) (v : BitVec 32), (Block.stream (↑k) s.toBlock).isOpen = true
        ∧ (Block.stream (↑k) s.toBlock).bellErr = false ∧ (Block.stream (↑k) s.toBlock).slots.toNat < ((Block.stream (↑k) s.toBlock).tail - v).toNat)
    ∧ (∃ (s : Machine.State) (k : Fin 8), (Block.stream (↑k) s.toBlock).isOpen = false)
    ∧ (∃ (o : ℕ) (n : ℕ), (n ≠ 4 ∨ 49152 ≤ o ∨ o % 4 ≠ 0)) :=
  ⟨⟨mk (onQ 15 { q0 with bellErr := true }), 15, by decide +kernel⟩,
    ⟨mk (onQ 15 q0), 15, 3, by decide +kernel⟩,
    ⟨mk (onQ 15 q0), 15, 3, by decide +kernel⟩,
    ⟨mk (onQ 15 q0), 15, 4, .cqHeadDoorbell 15 4, by decide +kernel⟩,
    ⟨mk (onSt 7 { st0 with tail := 20 }), 7, 4, by decide +kernel⟩,
    ⟨mk (onSt 7 { st0 with tail := 20 }), 7, 3, by decide +kernel⟩,
    ⟨mk (onSt 7 { st0 with isOpen := false }), 7, by decide +kernel⟩,
    ⟨0xC000, 4, by decide +kernel⟩⟩

theorem wit_DoorbellsTimersSideband_1 :
    (∃ (s : Machine.State) (q : Fin 16) (v : Fin 32), 0 < (Block.queue (↑q) s.toBlock).unsig ∧ ↑q < s.host.queues.length
        ∧ (Block.queue (↑q) s.toBlock).unsigAt + us (Block.queue (↑q) s.toBlock).coalUs.toNat ≤ s.now ∧ v.val = q.val + 1)
    ∧ (∃ (s : Machine.State) (q : Fin 16) (v : Fin 32), 0 < (Block.queue (↑q) s.toBlock).unsig ∧ ↑q < s.host.queues.length
        ∧ s.now < (Block.queue (↑q) s.toBlock).unsigAt + us (Block.queue (↑q) s.toBlock).coalUs.toNat ∧ v.val = q.val + 1)
    ∧ (∃ (s : Machine.State), s.boot.phase ≠ BootPhase.thermosPor)
    ∧ (∃ (s : Machine.State) (c : Byte), s.boot.phase ≠ BootPhase.thermosPor ∧ c ≠ 11)
    ∧ (∃ (s : Machine.State), s.boot.phase = BootPhase.thermosPor)
    ∧ (∃ (s : Machine.State), Block.committed featMirror s.toBlock = false) :=
  ⟨⟨mk fun b => {onQ 15 { q0 with unsig := 2, coalUs := 1 } b with thermos.tb := 250}, 15, 16, by decide +kernel⟩,
    ⟨mk fun b => {onQ 15 { q0 with unsig := 2, coalUs := 1 } b with thermos.tb := 249}, 15, 16, by decide +kernel⟩,
    ⟨rdy id, by decide +kernel⟩,
    ⟨rdy id, 0x0A, by decide +kernel⟩,
    ⟨mk id, by decide +kernel⟩,
    ⟨rdy id, by decide +kernel⟩⟩

theorem wit_FetchAndComplete_0 :
    (∃ (s : Machine.State) (q : Fin 16), ↑q < s.host.queues.length ∧ s.boot.phase = BootPhase.ready ∧ s.link.live = true
        ∧ (Block.queue (↑q) s.toBlock).mayFetch = true)
    ∧ (∃ (s : Machine.State) (q : Fin 16), ↑q < s.host.queues.length ∧ (Block.queue (↑q) s.toBlock).sqHead = (Block.queue (↑q) s.toBlock).sqTail)
    ∧ (∃ (s : Machine.State) (q : Fin 16) (c : Cmd) (cs : List Cmd), ↑q < s.host.queues.length ∧ s.boot.phase = BootPhase.ready
        ∧ s.link.live = true ∧ (Block.queue (↑q) s.toBlock).enabled = true ∧ (Block.queue (↑q) s.toBlock).held = false
        ∧ (Block.queue (↑q) s.toBlock).cmds = c :: cs ∧ c.stage = Stage.finished ∧ c.outs = [])
    ∧ (∃ (s : Machine.State) (q : Fin 16) (c : Cmd) (cs : List Cmd), ↑q < s.host.queues.length ∧ s.boot.phase = BootPhase.ready
        ∧ s.link.live = true ∧ (Block.queue (↑q) s.toBlock).enabled = true ∧ (Block.queue (↑q) s.toBlock).held = false
        ∧ (Block.queue (↑q) s.toBlock).cmds = c :: cs ∧ c.stage ≠ Stage.finished) :=
  ⟨⟨mk (onQ 15 q0), 15, by decide +kernel⟩,
    ⟨mk (onQ 15 { q0 with sqHead := 1 }), 15, by decide +kernel⟩,
    ⟨mk (onQ 15 { q0 with cmds := [{ cmd 1 [] with stage := .finished }], cqTail := 3 }), 15, { cmd 1 [] with stage := .finished }, [],
        by decide +kernel⟩,
    ⟨mk (onQ 15 { q0 with cmds := [{ cmd 1 [] with stage := .committed }] }), 15, { cmd 1 [] with stage := .committed }, [], by decide +kernel⟩⟩

theorem wit_FetchAndComplete_1 : ∃ (s : Machine.State) (r : CmdRef) (c : Cmd), Block.starting r 1 s.toBlock = some c
    ∧ (c.fieldsOk fun x => true) = true ∧ c.feature = none :=
  ⟨rdyCmd 1 (cmd 0x01 []) id, r1, cmd 0x01 [], by decide +kernel⟩

theorem wit_FetchAndComplete_2 :
    (∃ (s : Machine.State) (r : CmdRef) (c : Cmd), s.boot.phase = BootPhase.ready
        ∧ List.find? (fun c => c.id == r.id && c.op == 4 && c.stage == Stage.fetched) (Block.queue (↑r.q) s.toBlock).cmds = some c
        ∧ (c.fieldsOk fun c => decide (c.arg 24 1 < 16)) = true ∧ List.find? (fun x => x.id == (⟨Fin.ofNat 16 (c.arg 24 1),
        BitVec.ofNat 32 (c.arg 28 4)⟩ : CmdRef).id) (Block.queue (↑(⟨Fin.ofNat 16 (c.arg 24 1),
        BitVec.ofNat 32 (c.arg 28 4)⟩ : CmdRef).q) s.toBlock).cmds = none)
    ∧ (∃ (s : Machine.State) (r : CmdRef) (c : Cmd) (x : Cmd), s.boot.phase = BootPhase.ready
        ∧ List.find? (fun c => c.id == r.id && c.op == 4 && c.stage == Stage.fetched) (Block.queue (↑r.q) s.toBlock).cmds = some c
        ∧ (c.fieldsOk fun c => decide (c.arg 24 1 < 16)) = true ∧ List.find? (fun x => x.id == (⟨Fin.ofNat 16 (c.arg 24 1),
        BitVec.ofNat 32 (c.arg 28 4)⟩ : CmdRef).id) (Block.queue (↑(⟨Fin.ofNat 16 (c.arg 24 1),
        BitVec.ofNat 32 (c.arg 28 4)⟩ : CmdRef).q) s.toBlock).cmds = some x ∧ x.op ≠ 4 ∧ Block.pastCommit (⟨Fin.ofNat 16 (c.arg 24 1),
        BitVec.ofNat 32 (c.arg 28 4)⟩ : CmdRef) x s.toBlock = false ∧ (∀ j ∈ s.owl.jobs, j.entered = false
        → j.owner = some (⟨Fin.ofNat 16 (c.arg 24 1), BitVec.ofNat 32 (c.arg 28 4)⟩ : CmdRef))) :=
  ⟨⟨mk (onQ 15 { q0 with cmds := [abortCmd] }), ⟨15, 2⟩, abortCmd, by decide +kernel⟩,
    ⟨mk fun b => onQ 0 { q0 with cmds := [victim] } (onQ 15 { q0 with cmds := [abortCmd] } b), ⟨15, 2⟩, abortCmd, victim, by decide +kernel⟩⟩

theorem wit_StreamsOpenAndWrite_0 :
    (∃ (s : Machine.State) (r : CmdRef) (c : Cmd) (k : Fin 8), s.host.streams.length = 8 ∧ Block.starting r 2 s.toBlock = some c ∧ c.arg 24 1 = ↑k
        ∧ (c.fieldsOk fun c => decide (c.arg 24 1 < 8) && decide (1 ≤ c.arg 26 1)) = true ∧ (∀ (f : ℕ), c.feature = some f
        → Block.committed f s.toBlock = true) ∧ (Block.stream (↑k) s.toBlock).isOpen = true)
    ∧ (∃ (s : Machine.State) (r : CmdRef) (c : Cmd) (k : Fin 8), s.host.streams.length = 8 ∧ Block.starting r 2 s.toBlock = some c
        ∧ c.arg 24 1 = ↑k ∧ (c.fieldsOk fun c => decide (c.arg 24 1 < 8) && decide (1 ≤ c.arg 26 1)) = true ∧ (∀ (f : ℕ), c.feature = some f
        → Block.committed f s.toBlock = true) ∧ (Block.stream (↑k) s.toBlock).isOpen = false ∧ c.arg 32 8 % 4096 ≠ 0)
    ∧ (∃ (s : Machine.State) (r : CmdRef) (c : Cmd) (k : Fin 8), s.host.streams.length = 8 ∧ Block.starting r 2 s.toBlock = some c
        ∧ c.arg 24 1 = ↑k ∧ (c.fieldsOk fun c => decide (c.arg 24 1 < 8) && decide (1 ≤ c.arg 26 1)) = true ∧ (∀ (f : ℕ), c.feature = some f
        → Block.committed f s.toBlock = true) ∧ (Block.stream (↑k) s.toBlock).isOpen = false ∧ k = 2 ∧ c.arg 32 8 % 4096 = 0
        ∧ powerWithin 16 65536 (c.arg 28 4) = true ∧ c.arg 40 8 % 8 = 0)
    ∧ (∃ (s : Machine.State) (r : CmdRef) (c : Cmd) (k : Fin 8), s.host.streams.length = 8 ∧ Block.starting r 2 s.toBlock = some c
        ∧ c.arg 24 1 = ↑k ∧ (c.fieldsOk fun c => decide (c.arg 24 1 < 8) && decide (1 ≤ c.arg 26 1)) = true ∧ (∀ (f : ℕ), c.feature = some f
        → Block.committed f s.toBlock = true) ∧ (Block.stream (↑k) s.toBlock).isOpen = false ∧ k ≠ 2 ∧ c.arg 32 8 % 4096 = 0
        ∧ powerWithin 16 65536 (c.arg 28 4) = true ∧ c.arg 40 8 % 8 = 0) :=
  ⟨⟨rdyCmd 4 (cmd 0x02 openCmd) (onSt 5 st0), r1, cmd 0x02 openCmd, 5, by decide +kernel, by decide +kernel, by decide +kernel, by decide +kernel,
      by decide +kernel, by decide +kernel⟩,
    ⟨rdyCmd 4 (cmd 0x02 [(24, 1), (26, 1), (28, 16), (32, 4097)]) fun b => {b with feat.committed := 2}, r1, cmd 0x02 [(24, 1), (26, 1), (28, 16),
        (32, 4097)], 1, by decide +kernel, by decide +kernel, by decide +kernel, by decide +kernel, by decide +kernel, by decide +kernel,
        by decide +kernel⟩,
    ⟨rdyCmd 4 (cmd 0x02 [(24, 2), (26, 1), (28, 16), (32, 4096), (40, 8)]) fun b => {b with feat.committed := BitVec.allOnes 128}, r1, cmd 0x02 [(24,
        2), (26, 1), (28, 16), (32, 4096), (40, 8)], 2, by decide +kernel, by decide +kernel, by decide +kernel, by decide +kernel,
        by decide +kernel, by decide +kernel, by decide +kernel, by decide +kernel, by decide +kernel, by decide +kernel⟩,
    ⟨rdyCmd 4 (cmd 0x02 openCmd) id, r1, cmd 0x02 openCmd, 5, by decide +kernel, by decide +kernel, by decide +kernel, by decide +kernel,
        by decide +kernel, by decide +kernel, by decide +kernel, by decide +kernel, by decide +kernel, by decide +kernel⟩⟩

theorem wit_StreamsOpenAndWrite_1 :
    (∃ (s : Machine.State) (r : CmdRef) (c : Cmd), s.host.streams.length = 8 ∧ Block.starting r 3 s.toBlock = some c
        ∧ (c.fieldsOk fun c => decide (c.arg 24 1 < 8)) = true ∧ c.feature = none ∧ (Block.stream (c.arg 24 1) s.toBlock).isOpen = false)
    ∧ (∃ (s : Machine.State) (r : CmdRef) (c : Cmd), s.host.streams.length = 8 ∧ Block.starting r 3 s.toBlock = some c
        ∧ (c.fieldsOk fun c => decide (c.arg 24 1 < 8)) = true ∧ c.feature = none ∧ (Block.stream (c.arg 24 1) s.toBlock).isOpen = true) :=
  ⟨⟨rdyCmd 4 (cmd 0x03 [(24, 7)]) id, r1, cmd 0x03 [(24, 7)], by decide +kernel⟩,
    ⟨rdyCmd 4 (cmd 0x03 [(24, 7)]) (onSt 7 st0), r1, cmd 0x03 [(24, 7)], by decide +kernel⟩⟩

theorem wit_StreamsOpenAndWrite_2 :
    (∃ (s : Machine.State) (k : Fin 8) (p : Parcel) (ps : List Parcel), s.host.streams.length = 8 ∧ s.boot.phase = BootPhase.ready
        ∧ s.link.live = true ∧ (Block.stream (↑k) s.toBlock).isOpen = true ∧ (Block.stream (↑k) s.toBlock).held = false
        ∧ (Block.stream (↑k) s.toBlock).out = p :: ps ∧ sealFault p = none ∧ 2 ≤ (Block.stream (↑k) s.toBlock).free
        ∧ (Block.stream (↑k) s.toBlock).gap = none)
    ∧ (∃ (s : Machine.State) (k : Fin 8) (p : Parcel) (ps : List Parcel), s.host.streams.length = 8 ∧ s.boot.phase = BootPhase.ready
        ∧ s.link.live = true ∧ (Block.stream (↑k) s.toBlock).isOpen = true ∧ (Block.stream (↑k) s.toBlock).held = false
        ∧ (Block.stream (↑k) s.toBlock).out = p :: ps ∧ sealFault p = none ∧ (Block.stream (↑k) s.toBlock).free < 2)
    ∧ (∃ (s : Machine.State) (k : Fin 8) (p : Parcel) (ps : List Parcel) (g : BitVec 32 × BitVec 32 × GapCause), s.host.streams.length = 8
        ∧ s.boot.phase = BootPhase.ready ∧ s.link.live = true ∧ (Block.stream (↑k) s.toBlock).isOpen = true
        ∧ (Block.stream (↑k) s.toBlock).held = false ∧ (Block.stream (↑k) s.toBlock).out = p :: ps ∧ sealFault p = none
        ∧ (Block.stream (↑k) s.toBlock).gap = some g ∧ (Block.stream (↑k) s.toBlock).free = 2) :=
  ⟨⟨mk (onSt 5 { st0 with tail := 14, out := [pose0] }), 5, pose0, [], by decide +kernel⟩,
    ⟨mk (onSt 5 { st0 with tail := 15, out := [pose0] }), 5, pose0, [], by decide +kernel⟩,
    ⟨mk (onSt 5 { st0 with tail := 14, out := [pose0], gap := some (3, 4, .link) }), 5, pose0, [], (3, 4, .link), by decide +kernel⟩⟩

theorem wit_StreamsOpenAndWrite_3 : ∃ (s : Machine.State) (k : Fin 8), s.host.streams.length = 8 ∧ (Block.stream (↑k) s.toBlock).out = [] :=
  ⟨mk (id), 0, by decide +kernel⟩

theorem wit_StreamsOpenAndWrite_4 :
    (∃ (s : Machine.State) (k : Fin 8), s.host.streams.length = 8 ∧ s.boot.phase = BootPhase.ready ∧ (Block.stream (↑k) s.toBlock).isOpen = true
        ∧ (Block.stream (↑k) s.toBlock).held = true ∧ s.link.live = true ∧ (Block.stream (↑k) s.toBlock).gap = none)
    ∧ (∃ (s : Machine.State) (k : Fin 8) (f : BitVec 32) (l : BitVec 32) (c : GapCause), s.host.streams.length = 8 ∧ s.boot.phase = BootPhase.ready
        ∧ (Block.stream (↑k) s.toBlock).isOpen = true ∧ (Block.stream (↑k) s.toBlock).held = true ∧ s.link.live = true
        ∧ (Block.stream (↑k) s.toBlock).gap = some (f, l, c) ∧ 1 ≤ (Block.stream (↑k) s.toBlock).free) :=
  ⟨⟨mk (onSt 5 { st0 with held := true }), 5, by decide +kernel⟩,
    ⟨mk (onSt 5 { st0 with held := true, tail := 15, gap := some (3, 4, .link) }), 5, 3, 4, .link, by decide +kernel⟩⟩

theorem wit_QueueControl_0 :
    (∃ (s : Machine.State) (q : Fin 16) (o : ℕ), s.boot.phase = BootPhase.ready ∧ ↑q < s.host.queues.length
        ∧ (Block.queue (↑q) s.toBlock).enabled = true ∧ o ∈ [0, 4, 8, 12, 16, 20, 24])
    ∧ (∃ (s : Machine.State) (q : Fin 16) (o : ℕ), s.boot.phase = BootPhase.ready ∧ ↑q < s.host.queues.length
        ∧ (Block.queue (↑q) s.toBlock).enabled = true ∧ o ∈ [0, 8, 16])
    ∧ (∃ (s : Machine.State) (q : Fin 16), s.boot.phase = BootPhase.ready ∧ ↑q < s.host.queues.length ∧ (Block.queue (↑q) s.toBlock).enabled = true)
    ∧ (∃ (s : Machine.State) (q : Fin 16), s.boot.phase = BootPhase.ready ∧ ↑q < s.host.queues.length ∧ (Block.queue (↑q) s.toBlock).enabled = true
        ∧ (Block.queue (↑q) s.toBlock).held = false)
    ∧ (∃ (s : Machine.State) (q : Fin 16), s.boot.phase = BootPhase.ready ∧ ↑q < s.host.queues.length ∧ (Block.queue (↑q) s.toBlock).enabled = true
        ∧ (Block.queue (↑q) s.toBlock).held = true ∧ s.link.live = true ∧ (∀ c ∈ (Block.queue (↑q) s.toBlock).cmds, c.stage ≠ Stage.finished)) :=
  ⟨⟨mk (onQ 15 q0), 15, 0x18, by decide +kernel⟩,
    ⟨mk (onQ 15 q0), 15, 0x10, by decide +kernel⟩,
    ⟨mk (onQ 15 q0), 15, by decide +kernel⟩,
    ⟨mk (onQ 15 q0), 15, by decide +kernel⟩,
    ⟨mk (onQ 15 { q0 with held := true, cmds := [victim] }), 15, by decide +kernel, by decide +kernel, by decide +kernel, by decide +kernel,
        by decide +kernel, by decide +kernel⟩⟩

theorem wit_QueueControl_1 : ∃ (s : Machine.State) (q : Fin 16), s.boot.phase = BootPhase.ready ∧ ↑q < s.host.queues.length
    ∧ (Block.queue (↑q) s.toBlock).enabled = false :=
  ⟨rdy id, 15, by decide +kernel⟩

theorem wit_QueueControl_2 : ∃ (s : Machine.State) (q : Fin 16), s.boot.phase = BootPhase.ready ∧ ↑q < s.host.queues.length :=
  ⟨rdy id, 15, by decide +kernel⟩

theorem wit_QueueControl_3 : ∃ (s : Machine.State) (q : Fin 16), s.boot.phase = BootPhase.ready ∧ ↑q < s.host.queues.length :=
  ⟨mk (onQ 15 { q0 with cmds := [victim] }), 15, by decide +kernel⟩

theorem wit_QueueControl_4 :
    (∃ (s : Machine.State) (q : Fin 16), s.boot.phase = BootPhase.ready ∧ ↑q < s.host.queues.length ∧ (Block.queue (↑q) s.toBlock).enabled = false
        ∧ Block.queueOk (Block.queue (↑q) s.toBlock) s.toBlock = true)
    ∧ (∃ (s : Machine.State) (q : Fin 16), s.boot.phase = BootPhase.ready ∧ ↑q < s.host.queues.length
        ∧ (Block.queue (↑q) s.toBlock).enabled = false ∧ Block.queueOk (Block.queue (↑q) s.toBlock) s.toBlock = false) :=
  ⟨⟨mk fun b => {onQ 15 { sqSize := 2, cqSize := 4096 } b with feat.state := .committed}, 15, by decide +kernel⟩,
    ⟨mk fun b => {onQ 15 { sqSize := 3, cqSize := 4096 } b with feat.state := .committed}, 15, by decide +kernel⟩⟩

theorem wit_StreamControl_0 : ∃ (s : Machine.State), s.boot.phase = BootPhase.ready :=
  ⟨mk (fun b => { b with boot.phase := Sys2Proof.Machine.BootPhase.ready }), by decide +kernel⟩

theorem wit_StreamControl_1 : ∃ (s : Machine.State), s.boot.phase = BootPhase.ready :=
  ⟨mk (fun b => { b with boot.phase := Sys2Proof.Machine.BootPhase.ready }), by decide +kernel⟩

theorem wit_StreamControl_2 : ∃ (s : Machine.State) (k : Fin 8), s.boot.phase = BootPhase.ready ∧ (Block.stream (↑k) s.toBlock).isOpen = true :=
  ⟨mk (onSt 5 { st0 with out := [pose0] }), 5, by decide +kernel⟩

theorem wit_StreamControl_3 : ∃ (s : Machine.State) (k : Fin 8), s.boot.phase = BootPhase.ready ∧ (Block.stream (↑k) s.toBlock).isOpen = false :=
  ⟨mk (fun b => { b with boot.phase := Sys2Proof.Machine.BootPhase.ready }), 0, by decide +kernel⟩

theorem wit_StreamControl_4 : ∃ (s : Machine.State), s.boot.phase = BootPhase.ready :=
  ⟨mk (fun b => { b with boot.phase := Sys2Proof.Machine.BootPhase.ready }), by decide +kernel⟩

theorem wit_EventCause_0 :
    (∃ (b : Block) (i : Fin 4), b.host.eventCause.getLsbD ↑i = true)
    ∧ (∃ (b : Block) (i : Fin 4), b.host.eventCause.getLsbD ↑i = false)
    ∧ (∃ (b : Block) (i : Fin 4), b.host.eventCause.getLsbD ↑i = false ∧ b.link.live = true ∧ b.link.msixOn = true
        ∧ (b.link.msix.getD 0 { }).mask = false)
    ∧ (∃ (b : Block) (i : Fin 4), b.host.eventCause.getLsbD ↑i = false ∧ b.link.live = true ∧ b.link.msixOn = true
        ∧ (b.link.msix.getD 0 { }).mask = true) :=
  ⟨⟨{ host.eventCause := 8 }, 3, by decide +kernel⟩,
    ⟨(id) {}, 0, by decide +kernel⟩,
    ⟨{ link.up := true, link.bme := true, link.msixOn := true, link.msix := List.replicate 32 { mask := false } }, 3, by decide +kernel⟩,
    ⟨{ link.up := true, link.bme := true, link.msixOn := true }, 3, by decide +kernel⟩⟩

theorem wit_EventCause_1 : ∃ (s : Machine.State), s.boot.phase ≠ BootPhase.thermosPor :=
  ⟨rdy fun b => {b with host.eventCause := 15}, by decide +kernel⟩

theorem wit_EventsAndTraces_0 :
    (∃ (b : Block) (body : Bytes), b.host.streams.length = 8 ∧ List.length body ≤ 4000 ∧ (b.host.streams.getD 2 { }).isOpen = false)
    ∧ (∃ (b : Block) (body : Bytes), b.host.streams.length = 8 ∧ List.length body ≤ 4000 ∧ (b.host.streams.getD 2 { }).isOpen = true
        ∧ (b.host.streams.getD 2 { }).held = false) :=
  ⟨⟨(onSt 2 { st0 with isOpen := false } {}), [1, 2], by decide +kernel⟩,
    ⟨(onSt 2 { st0 with slots := 1 } {}), [1, 2], by decide +kernel⟩⟩

theorem wit_EventsAndTraces_1 : ∃ (pay : Bytes), List.length pay ≤ 4096 :=
  ⟨[], by decide +kernel⟩

theorem wit_EventsAndTraces_2 :
    (∃ (b : Block) (k : Fin 8), 2 ≤ ↑k ∧ (b.host.streams.getD ↑k { }).isOpen = false)
    ∧ (∃ (b : Block) (k : Fin 8), ↑k < 2 ∧ b.host.streams.length = 8) :=
  ⟨⟨{}, 7, by decide +kernel⟩,
    ⟨{}, 1, by decide +kernel⟩⟩

theorem wit_TrailLanes_0 : ∃ (s : Machine.State) (l : Fin 18), s.trail.lanes.length = 18 ∧ s.trail.bundles.length = 16 ∧ s.lanesOn = true
    ∧ s.bonded ↑l = true ∧ s.laneBundle ↑l < 16 ∧ (s.lane ↑l).st = LaneSt.off :=
  ⟨rdy (onTrail 1 0 {}), 1, by decide +kernel⟩

theorem wit_TrailLanes_1 : ∃ (s : Machine.State) (l : Fin 18), s.trail.lanes.length = 18 ∧ s.trail.bundles.length = 16
    ∧ (s.lane ↑l).st ≠ LaneSt.off :=
  ⟨rdy (onTrail 1 0 { st := .failed }), 1, by decide +kernel⟩

theorem wit_TrailLanes_2 :
    (∃ (s : Machine.State) (l : Fin 18), s.trail.lanes.length = 18 ∧ s.trail.bundles.length = 16 ∧ s.lanesOn = true
        ∧ (s.lane ↑l).st = LaneSt.failed ∧ (s.lane ↑l).since + 250000000 ≤ s.now)
    ∧ (∃ (s : Machine.State) (l : Fin 18), s.trail.lanes.length = 18 ∧ s.trail.bundles.length = 16 ∧ s.lanesOn = true
        ∧ (s.lane ↑l).st = LaneSt.failed ∧ s.now < (s.lane ↑l).since + 250000000) :=
  ⟨⟨ph .ready 250000000 (onTrail 1 0 { st := .failed }), 1, by decide +kernel⟩,
    ⟨ph .ready 249999999 (onTrail 1 0 { st := .failed }), 1, by decide +kernel⟩⟩

theorem wit_TrailLanes_3 :
    (∃ (s : Machine.State) (l : Fin 18), s.trail.lanes.length = 18 ∧ s.trail.bundles.length = 16 ∧ (s.lane ↑l).since + 5000000 ≤ s.now
        ∧ (s.lane ↑l).st = LaneSt.training)
    ∧ (∃ (s : Machine.State) (l : Fin 18), s.trail.lanes.length = 18 ∧ s.trail.bundles.length = 16 ∧ (s.lane ↑l).since + 5000000 ≤ s.now
        ∧ (s.lane ↑l).st = LaneSt.retraining) :=
  ⟨⟨ph .ready 5000000 (onTrail 1 0 { st := .training }), 1, by decide +kernel⟩,
    ⟨ph .ready 5000000 (onTrail 1 0 { st := .retraining }), 1, by decide +kernel⟩⟩

theorem wit_TrailLanes_4 : ∃ (s : Machine.State) (l : Fin 18), s.trail.lanes.length = 18 ∧ s.trail.bundles.length = 16
    ∧ s.now < (s.lane ↑l).since + 5000000 :=
  ⟨ph .ready 4999999 (onTrail 1 0 { st := .retraining }), 1, by decide +kernel⟩

theorem wit_TrailLanes_5 :
    (∃ (s : Machine.State) (l : Fin 18) (n : ℕ), s.trail.lanes.length = 18 ∧ s.trail.bundles.length = 16 ∧ (s.lane ↑l).st = LaneSt.up ∧ 64 < n)
    ∧ (∃ (s : Machine.State) (l : Fin 18), s.trail.lanes.length = 18 ∧ s.trail.bundles.length = 16 ∧ (s.lane ↑l).st = LaneSt.up
        ∧ s.boot.package = Package.c) :=
  ⟨⟨rdy fun b => {onTrail 1 0 { st := .up } b with boot.package := .c, trail.bundles := [({ width := 2 } : Bundle)] ++ List.replicate 15 ({} : Bundle)}, 1, 65, by decide +kernel⟩,
    ⟨rdy fun b => {onTrail 1 0 { st := .up } b with boot.package := .c, trail.bundles := [({ width := 2 } : Bundle)] ++ List.replicate 15 ({} : Bundle)}, 1, by decide +kernel⟩⟩

theorem wit_TrailLanes_6 : ∃ (s : Machine.State) (n : ℕ), s.trail.lanes.length = 18 ∧ s.trail.bundles.length = 16 ∧ n ≤ 64 :=
  ⟨rdy (onTrail 1 0 { st := .up }), 64, by decide +kernel⟩

theorem wit_TrailLanes_7 : ∃ (s : Machine.State), s.trail.lanes.length = 18 ∧ s.trail.bundles.length = 16 ∧ s.boot.package ≠ Package.c :=
  ⟨rdy (onTrail 1 0 { st := .up }), by decide +kernel⟩

theorem wit_TrailLanes_8 : ∃ (s : Machine.State) (l : Fin 18), s.trail.lanes.length = 18 ∧ s.trail.bundles.length = 16 ∧ (s.lane ↑l).st = LaneSt.up :=
  ⟨rdy (onTrail 1 0 { st := .up }), 1, by decide +kernel⟩

theorem wit_TrailLanes_9 : ∃ (s : Machine.State) (l : Fin 18), s.trail.lanes.length = 18 ∧ s.trail.bundles.length = 16
    ∧ (s.lane ↑l).st = LaneSt.retraining ∧ (s.lane ↑l).sentReq = true :=
  ⟨rdy (onTrail 1 0 { st := .retraining, sentReq := true }), 1, by decide +kernel⟩

theorem wit_TrailLanes_10 : ∃ (s : Machine.State) (l : Fin 18), s.trail.lanes.length = 18 ∧ s.trail.bundles.length = 16
    ∧ ((s.lane ↑l).st = LaneSt.off ∨ (s.lane ↑l).st = LaneSt.training ∨ (s.lane ↑l).st = LaneSt.failed) :=
  ⟨rdy (onTrail 1 0 { st := .training, sentReq := true }), 1, by decide +kernel⟩

theorem wit_TrailLanes_11 :
    (∃ (s : Machine.State) (l : Fin 18) (r : BitVec 3) (far : FarEnd), s.trail.lanes.length = 18 ∧ s.trail.bundles.length = 16 ∧ s.lanesOn = true
        ∧ ((s.lane ↑l).st = LaneSt.training ∨ (s.lane ↑l).st = LaneSt.retraining) ∧ s.laneBundle ↑l < 16 ∧ Block.rateOk (↑l) r far s.toBlock = true)
    ∧ (∃ (s : Machine.State) (l : Fin 18) (r : BitVec 3) (far : FarEnd), s.trail.lanes.length = 18 ∧ s.trail.bundles.length = 16 ∧ s.lanesOn = true
        ∧ ((s.lane ↑l).st = LaneSt.training ∨ (s.lane ↑l).st = LaneSt.retraining) ∧ s.laneBundle ↑l < 16
        ∧ Block.rateOk (↑l) r far s.toBlock = false) :=
  ⟨⟨rdy (onTrail 1 0 { st := .training }), 1, 4, ⟨9, 0xFFF, 15⟩, by decide +kernel⟩,
    ⟨rdy (onTrail 1 0 { st := .training }), 1, 5, ⟨9, 0xFFF, 15⟩, by decide +kernel⟩⟩

theorem wit_FlitsAndWidths_0 : ∃ (s : Machine.State) (k : Fin 16) (w : BitVec 5), s.trail.bundles.length = 16 ∧ s.trail.lanes.length = 18
    ∧ s.bundleUp ↑k = true ∧ w ≠ 0 ∧ (s.bundle ↑k).wantWidth = none :=
  ⟨rdy (onTrail 1 0 { st := .up }), 0, 31, by decide +kernel⟩

theorem wit_FlitsAndWidths_1 : ∃ (s : Machine.State) (k : Fin 16), s.trail.bundles.length = 16 ∧ s.trail.lanes.length = 18 ∧ s.bundleUp ↑k = false :=
  ⟨rdy (onTrail 1 0 { st := .training }), 0, by decide +kernel⟩

theorem wit_FlitsAndWidths_2 : ∃ (s : Machine.State) (k : Fin 16) (w : BitVec 5), s.trail.bundles.length = 16 ∧ s.trail.lanes.length = 18
    ∧ (s.bundle ↑k).wantWidth = some w :=
  ⟨rdy fun b => {onTrail 1 0 { st := .up } b with trail.bundles := [({ wantWidth := some 2 } : Bundle)] ++ List.replicate 15 ({} : Bundle)}, 0, 2,
      by decide +kernel⟩

theorem wit_FlitsAndWidths_3 : ∃ (s : Machine.State) (k : Fin 16) (w : BitVec 5), s.trail.bundles.length = 16 ∧ s.trail.lanes.length = 18
    ∧ (s.bundle ↑k).wantWidth ≠ some w :=
  ⟨rdy fun b => {onTrail 1 0 { st := .up } b with trail.bundles := [({ wantWidth := some 2 } : Bundle)] ++ List.replicate 15 ({} : Bundle)}, 0, 1,
      by decide +kernel⟩

theorem wit_FlitsAndWidths_4 :
    (∃ (s : Machine.State) (k : Fin 16) (f : BitVec 2048), s.trail.bundles.length = 16 ∧ s.trail.lanes.length = 18 ∧ s.bundleUp ↑k = true
        ∧ (crc32c (List.take 248 (flitBytes f))).toNat ≠ field (flitBytes f) 248 4)
    ∧ (∃ (s : Machine.State) (k : Fin 16) (f : BitVec 2048), s.trail.bundles.length = 16 ∧ s.trail.lanes.length = 18 ∧ s.bundleUp ↑k = true
        ∧ (crc32c (List.take 248 (flitBytes f))).toNat = field (flitBytes f) 248 4 ∧ (field (flitBytes f) 2 2).testBit 12 = false
        ∧ (field (flitBytes f) 2 2).testBit 13 = false ∧ BitVec.ofNat 12 (field (flitBytes f) 0 2) = (s.bundle ↑k).rxSeq
        ∧ field (flitBytes f) 0 2 / 4096 = 0 ∧ (s.bundle ↑k).unacked < 15)
    ∧ (∃ (s : Machine.State) (k : Fin 16) (f : BitVec 2048), s.trail.bundles.length = 16 ∧ s.trail.lanes.length = 18 ∧ s.bundleUp ↑k = true
        ∧ (crc32c (List.take 248 (flitBytes f))).toNat = field (flitBytes f) 248 4 ∧ (field (flitBytes f) 2 2).testBit 12 = false
        ∧ (field (flitBytes f) 2 2).testBit 13 = false ∧ BitVec.ofNat 12 (field (flitBytes f) 0 2) ≠ (s.bundle ↑k).rxSeq) :=
  ⟨⟨rdy (onTrail 1 0 { st := .up }), 0, 0, by decide +kernel⟩,
    ⟨rdy fun b => {onTrail 1 0 { st := .up } b with trail.bundles := [({ unacked := 14 } : Bundle)] ++ List.replicate 15 ({} : Bundle)}, 0, goodFlit,
        by decide +kernel⟩,
    ⟨rdy fun b => {onTrail 1 0 { st := .up } b with trail.bundles := [({ rxSeq := 1 } : Bundle)] ++ List.replicate 15 ({} : Bundle)}, 0, goodFlit,
        by decide +kernel⟩⟩

theorem wit_FlitsAndWidths_5 : ∃ (s : Machine.State) (k : Fin 16), s.trail.bundles.length = 16 ∧ s.trail.lanes.length = 18 ∧ s.bundleUp ↑k = false :=
  ⟨rdy (onTrail 1 0 { st := .training }), 0, by decide +kernel⟩

theorem wit_FlitsAndWidths_6 : ∃ (s : Machine.State) (k : Fin 16), s.trail.bundles.length = 16 ∧ s.trail.lanes.length = 18 ∧ s.bundleUp ↑k = true
    ∧ (s.bundle ↑k).nakRun < 7 :=
  ⟨rdy fun b => {onTrail 1 0 { st := .up } b with trail.bundles := [({ nakRun := 6, replay := [⟨0, 0, []⟩, ⟨1, 0, []⟩] } : Bundle)] ++ List.replicate 15 ({} : Bundle)}, 0, by decide +kernel⟩

theorem wit_FlitsAndWidths_7 :
    (∃ (s : Machine.State) (k : Fin 16), s.trail.bundles.length = 16 ∧ s.trail.lanes.length = 18 ∧ s.bundleUp ↑k = true ∧ (s.bundle ↑k).unacked ≠ 0
        ∧ (s.bundle ↑k).ackAt + 250 ≤ s.now)
    ∧ (∃ (s : Machine.State) (k : Fin 16), s.trail.bundles.length = 16 ∧ s.trail.lanes.length = 18 ∧ s.bundleUp ↑k = true
        ∧ (s.bundle ↑k).unacked ≠ 0 ∧ s.now < (s.bundle ↑k).ackAt + 250) :=
  ⟨⟨ph .ready 250 fun b => {onTrail 1 0 { st := .up } b with trail.bundles := [({ unacked := 3 } : Bundle)] ++ List.replicate 15 ({} : Bundle)}, 0,
      by decide +kernel⟩,
    ⟨ph .ready 249 fun b => {onTrail 1 0 { st := .up } b with trail.bundles := [({ unacked := 3 } : Bundle)] ++ List.replicate 15 ({} : Bundle)}, 0,
        by decide +kernel⟩⟩

theorem wit_FlitsAndWidths_8 :
    (∃ (s : Machine.State) (k : Fin 16) (h : HeldFlit) (hs : List HeldFlit), s.trail.bundles.length = 16 ∧ s.trail.lanes.length = 18
        ∧ (s.bundle ↑k).replay = h :: hs ∧ h.at_ + 25000 ≤ s.now)
    ∧ (∃ (s : Machine.State) (k : Fin 16) (h : HeldFlit) (hs : List HeldFlit), s.trail.bundles.length = 16 ∧ s.trail.lanes.length = 18
        ∧ (s.bundle ↑k).replay = h :: hs ∧ s.now < h.at_ + 25000) :=
  ⟨⟨ph .ready 25000 fun b => {onTrail 1 0 { st := .up } b with trail.bundles := [({ replay := [⟨4, 0, []⟩] } : Bundle)] ++ List.replicate 15 ({} : Bundle)}, 0, ⟨4, 0, []⟩, [], by decide +kernel⟩,
    ⟨ph .ready 24999 fun b => {onTrail 1 0 { st := .up } b with trail.bundles := [({ replay := [⟨4, 0, []⟩] } : Bundle)] ++ List.replicate 15 ({} : Bundle)}, 0, ⟨4, 0, []⟩, [], by decide +kernel⟩⟩

theorem wit_FlitsAndWidths_9 : ∃ (s : Machine.State) (k : Fin 16), s.trail.bundles.length = 16 ∧ s.trail.lanes.length = 18
    ∧ (s.bundle ↑k).replay = [] :=
  ⟨mk (id), 0, by decide +kernel⟩

theorem wit_RollCallsAndReads_0 :
    (∃ (s : Machine.State) (k : ℕ), s.trail.bundles.length = 16 ∧ s.lanesOn = true ∧ s.trail.rolling = true ∧ (∀ (u : Tick),
        s.trail.rollSent = some u → u + 25000 ≤ s.now) ∧ s.upLocal = [k] ∧ (s.bundle k).wait = [] ∧ (s.bundle k).replay = [])
    ∧ (∃ (s : Machine.State) (u : Tick), s.trail.bundles.length = 16 ∧ s.lanesOn = true ∧ s.trail.rolling = true ∧ s.trail.rollSent = some u
        ∧ s.now < u + 25000)
    ∧ (∃ (s : Machine.State), s.trail.bundles.length = 16 ∧ s.lanesOn = true ∧ s.trail.rolling = true ∧ s.trail.changedAt + 500000 ≤ s.now
        ∧ s.trail.candSerial = s.boot.otp.serial ∧ s.trail.peers = [])
    ∧ (∃ (s : Machine.State), s.trail.bundles.length = 16 ∧ s.lanesOn = true ∧ s.trail.rolling = true ∧ s.trail.changedAt + 500000 ≤ s.now
        ∧ s.trail.candSerial ≠ s.boot.otp.serial ∧ s.boot.masterStrap = false)
    ∧ (∃ (s : Machine.State), s.trail.bundles.length = 16 ∧ s.lanesOn = true ∧ s.trail.rolling = true ∧ s.now < s.trail.changedAt + 500000)
    ∧ (∃ (s : Machine.State) (k : Fin 16) (p : Parcel), s.trail.bundles.length = 16 ∧ s.lanesOn = true ∧ s.trail.rolling = true
        ∧ s.bundleUp ↑k = true ∧ s.isUplink ↑k = false ∧ sealFault p = none ∧ p.type = 2305)
    ∧ (∃ (s : Machine.State) (k : Fin 16) (p : Parcel), s.trail.bundles.length = 16 ∧ s.lanesOn = true ∧ s.bundleUp ↑k = true
        ∧ s.isUplink ↑k = true ∧ sealFault p = none ∧ p.type = 2305)
    ∧ (∃ (s : Machine.State), s.trail.bundles.length = 16)
    ∧ (∃ (s : Machine.State) (a : Bool) (b : Bool) (x : BitVec 64) (y : BitVec 64), s.trail.bundles.length = 16 ∧ ranksAbove a x b y = true)
    ∧ (∃ (s : Machine.State) (x : BitVec 64) (y : BitVec 64), s.trail.bundles.length = 16 ∧ x ≠ y)
    ∧ (∃ (s : Machine.State) (p : Parcel), s.trail.bundles.length = 16 ∧ s.lanesOn = true ∧ sealFault p = none ∧ p.type = 2306
        ∧ field p.payload 0 8 = s.boot.otp.serial.toNat)
    ∧ (∃ (s : Machine.State) (p : Parcel), s.trail.bundles.length = 16 ∧ s.lanesOn = true ∧ sealFault p = none ∧ p.type = 2306
        ∧ field p.payload 0 8 ≠ s.boot.otp.serial.toNat)
    ∧ (∃ (s : Machine.State) (n : BitVec 64) (q : Neighbour), s.trail.bundles.length = 16 ∧ s.boot.phase = BootPhase.ready
        ∧ List.find? (fun p => p.serial == n) s.trail.nbs = some q ∧ (∀ k ∈ s.upLocal, (s.bundle k).nbSerial ≠ n) ∧ q.heardAt + 2500000 ≤ s.now)
    ∧ (∃ (s : Machine.State) (n : BitVec 64) (q : Neighbour), s.trail.bundles.length = 16 ∧ s.boot.phase = BootPhase.ready
        ∧ List.find? (fun p => p.serial == n) s.trail.nbs = some q ∧ (∀ k ∈ s.upLocal, (s.bundle k).nbSerial ≠ n) ∧ s.now < q.heardAt + 2500000)
    ∧ (∃ (s : Machine.State) (n : BitVec 64), s.trail.bundles.length = 16 ∧ List.find? (fun p => p.serial == n) s.trail.nbs = none) :=
  ⟨⟨ph .ready 25000 fun b => {onTrail 1 0 { st := .up } b with trail.rolling := true, trail.rollSent := some 0}, 0, by decide +kernel,
      by decide +kernel, by decide +kernel, by decide +kernel, by decide +kernel, by decide +kernel, by decide +kernel⟩,
    ⟨ph .ready 24999 fun b => {onTrail 1 0 { st := .up } b with trail.rolling := true, trail.rollSent := some 0}, 0, by decide +kernel⟩,
    ⟨ph .ready 500000 fun b => {onTrail 1 0 { st := .up } b with trail.rolling := true}, by decide +kernel⟩,
    ⟨ph .ready 500000 fun b => {onTrail 1 0 { st := .up } b with trail.rolling := true, trail.candSerial := 4}, by decide +kernel⟩,
    ⟨ph .ready 499999 fun b => {onTrail 1 0 { st := .up } b with trail.rolling := true}, by decide +kernel⟩,
    ⟨rdy fun b => {onTrail 1 0 { st := .up } b with trail.rolling := true}, 0, ctl 0x0901 (pay 32 [(0, 8, 5), (8, 2, 3), (16, 8, 6)]),
        by decide +kernel⟩,
    ⟨rdy fun b => {onTrail 1 0 { st := .up } b with cfg.active := set_ [memWriteBytes (trailPage 1 0) 80 [1]]}, 0, ctl 0x0901 (pay 288 [(0, 8, 5),
        (8, 2, 3)]), by decide +kernel⟩,
    ⟨mk (id), by decide +kernel⟩,
    ⟨rdy id, true, true, 4, 5, by decide +kernel⟩,
    ⟨rdy id, 4, 5, by decide +kernel⟩,
    ⟨rdy (onTrail 1 0 { st := .up }), ctl 0x0902 (pay 24 [(8, 2, 3), (16, 8, 6)]), by decide +kernel⟩,
    ⟨rdy (onTrail 1 0 { st := .up }), ctl 0x0902 (pay 24 [(0, 8, 4), (8, 2, 3), (16, 8, 6)]), by decide +kernel⟩,
    ⟨ph .ready 2500000 fun b => {onTrail 1 0 { st := .up } b with trail.nbs := [⟨5, some 3, 0⟩]}, 5, ⟨5, some 3, 0⟩, by decide +kernel,
        by decide +kernel, by decide +kernel, by decide +kernel, by decide +kernel⟩,
    ⟨ph .ready 2499999 fun b => {onTrail 1 0 { st := .up } b with trail.nbs := [⟨5, some 3, 0⟩]}, 5, ⟨5, some 3, 0⟩, by decide +kernel,
        by decide +kernel, by decide +kernel, by decide +kernel, by decide +kernel⟩,
    ⟨mk (id), 0, by decide +kernel⟩⟩

theorem wit_RollCallsAndReads_1 :
    (∃ (s : Machine.State) (a : BitVec 12) (p : Parcel) (k : ℕ), s.trail.bundles.length = 16 ∧ sealFault p = none ∧ p.type = 2309
        ∧ s.lanesOn = true ∧ s.trail.assigned = true ∧ a ≠ s.trail.chip ∧ s.routeTo s.trail.chip a = Except.ok k ∧ k < 16 ∧ (s.bundle k).wait = []
        ∧ (s.bundle k).replay = [] ∧ Block.readRefusal (field p.payload 0 8) s.toBlock = none)
    ∧ (∃ (s : Machine.State) (a : BitVec 12) (p : Parcel) (k : ℕ) (r : ℕ), s.trail.bundles.length = 16 ∧ sealFault p = none ∧ p.type = 2309
        ∧ s.lanesOn = true ∧ s.trail.assigned = true ∧ a ≠ s.trail.chip ∧ s.routeTo s.trail.chip a = Except.ok k ∧ k < 16 ∧ (s.bundle k).wait = []
        ∧ (s.bundle k).replay = [] ∧ s.region (field p.payload 0 8 % 2 ^ 40) = some r ∧ Machine.isProtected r = true
        ∧ field p.payload 0 8 % 2 ^ 40 % 64 = 0)
    ∧ (∃ (s : Machine.State) (p : Parcel), s.trail.bundles.length = 16 ∧ sealFault p = none)
    ∧ (∃ (s : Machine.State) (tag : BitVec 32), s.trail.bundles.length = 16
        ∧ List.find? (fun r => r.tag == tag && decide (r.at_ + 250000 ≤ s.now)) s.trail.reads = none)
    ∧ (∃ (s : Machine.State) (tag : BitVec 32) (r : ReadWait), s.trail.bundles.length = 16
        ∧ List.find? (fun r => r.tag == tag && decide (r.at_ + 250000 ≤ s.now)) s.trail.reads = some r ∧ r.again = true)
    ∧ (∃ (s : Machine.State) (tag : BitVec 32) (r : ReadWait), s.trail.bundles.length = 16
        ∧ List.find? (fun r => r.tag == tag && decide (r.at_ + 250000 ≤ s.now)) s.trail.reads = some r ∧ r.again = false) :=
  ⟨⟨rdy fun b => {onTrail 2 2 { st := .up } (bareMap b) with trail.bundles := [({ nbChip := 3, nbValid := true } : Bundle)] ++ List.replicate 15 ({} : Bundle)}, 3, ctl 0x0905 (pay 16 [(0, 8, hotAddr 3)]), 0, by decide +kernel⟩,
    ⟨rdy fun b => {onTrail 2 2 { st := .up } (bareMap b) with trail.bundles := [({ nbChip := 3, nbValid := true } : Bundle)] ++ List.replicate 15 ({} : Bundle)}, 3, ctl 0x0905 (pay 16 [(0, 8, 64)]), 0, 0, by decide +kernel⟩,
    ⟨rdy fun b => {b with trail.reads := [⟨8, 0, 0, false⟩]}, ctl 0x0906 [1], by decide +kernel⟩,
    ⟨ph .ready 249999 fun b => {b with trail.reads := [⟨8, 0, 0, false⟩]}, 8, by decide +kernel⟩,
    ⟨ph .ready 250000 fun b => {b with trail.reads := [⟨8, 0, 0, true⟩]}, 8, ⟨8, 0, 0, true⟩, by decide +kernel⟩,
    ⟨ph .ready 250000 fun b => {b with trail.reads := [⟨8, 0, 0, false⟩]}, 8, ⟨8, 0, 0, false⟩, by decide +kernel⟩⟩

theorem wit_MergeJobs_0 : ∃ (s : Machine.State) (p : Parcel) (g : ℕ), sealFault p = none ∧ s.boot.phase = BootPhase.ready ∧ s.trail.assigned = true
    ∧ s.guests.length = 64 ∧ p.type = 2307 ∧ s.isCollector = true ∧ field p.payload 0 4 = s.jobTag ∧ s.den.dramAbsent = false ∧ s.guestsOn = true
    ∧ s.freeGuest = some g ∧ Block.guestHolding (memberGid (BitVec.ofNat 12 (field p.payload 4 2)).toNat) s.toBlock = none :=
  ⟨rdy fun b => {onTrail 2 2 { st := .up } b with trail.chip := 1}, ctl 0x0903 (pay 16 [(0, 4, 7), (4, 2, 3)]), 0, by decide +kernel⟩

theorem wit_MergeJobs_1 : ∃ (s : Machine.State) (p : Parcel), sealFault p = none ∧ s.boot.phase = BootPhase.ready ∧ s.trail.assigned = true
    ∧ s.guests.length = 64 ∧ p.type = 2307 ∧ s.isCollector = false :=
  ⟨rdy (onTrail 2 1 { st := .up }), ctl 0x0903 (pay 16 [(0, 4, 7), (4, 2, 3)]), by decide +kernel⟩

theorem wit_MergeJobs_2 :
    (∃ (s : Machine.State) (p : Parcel), sealFault p = none ∧ s.boot.phase = BootPhase.ready ∧ s.trail.assigned = true ∧ s.guests.length = 64
        ∧ p.type = 2308 ∧ Block.myJob p.payload s.toBlock = true ∧ s.trail.joinSent = true ∧ field p.payload 10 2 = 0 ∧ s.map.kfs = []
        ∧ s.map.ptTop = 0 ∧ s.map.edgeTop = 0)
    ∧ (∃ (s : Machine.State) (p : Parcel), sealFault p = none ∧ s.boot.phase = BootPhase.ready ∧ s.trail.assigned = true ∧ s.guests.length = 64
        ∧ p.type = 2308 ∧ Block.myJob p.payload s.toBlock = true ∧ s.trail.joinSent = true ∧ field p.payload 10 2 ≠ 0) :=
  ⟨⟨rdy fun b => {onTrail 2 1 { st := .up } b with trail.joinSent := true}, ctl 0x0904 (job7 4 5 0 0), by decide +kernel⟩,
    ⟨rdy fun b => {onTrail 2 1 { st := .up } b with trail.joinSent := true}, ctl 0x0904 (job7 4 5 0x40 0), by decide +kernel⟩⟩

theorem wit_MergeJobs_3 :
    (∃ (s : Machine.State) (p : Parcel), sealFault p = none ∧ s.boot.phase = BootPhase.ready ∧ s.trail.assigned = true ∧ s.guests.length = 64
        ∧ s.trail.joinWait = true ∧ s.isMember = true ∧ s.lanesOn = true ∧ s.trail.joinEpoch ≤ s.ep.now.toNat)
    ∧ (∃ (s : Machine.State) (p : Parcel), sealFault p = none ∧ s.boot.phase = BootPhase.ready ∧ s.trail.assigned = true ∧ s.guests.length = 64
        ∧ s.trail.joinWait = true ∧ s.isMember = true ∧ s.lanesOn = true ∧ s.ep.now.toNat < s.trail.joinEpoch) :=
  ⟨⟨rdy fun b => {onTrail 2 1 { st := .up } b with trail.joinWait := true, trail.joinEpoch := 100, ep.now := 100}, ctl 0x0904 (job7 4 5 0x40 0),
      by decide +kernel⟩,
    ⟨rdy fun b => {onTrail 2 1 { st := .up } b with trail.joinWait := true, trail.joinEpoch := 100, ep.now := 99}, ctl 0x0904 (job7 4 5 0x40 0),
        by decide +kernel⟩⟩

theorem wit_MergeJobs_4 : ∃ (s : Machine.State) (p : Parcel), sealFault p = none ∧ s.boot.phase = BootPhase.ready ∧ s.trail.assigned = true
    ∧ s.guests.length = 64 ∧ p.type = 2313 ∧ Block.myJob p.payload s.toBlock = true ∧ s.trail.joined = some (BitVec.ofNat 8 (field p.payload 6 1),
    BitVec.ofNat 16 (field p.payload 8 2)) ∧ field p.payload 10 2 = 0 ∧ s.trail.toSend = [] :=
  ⟨rdy fun b => {onTrail 2 1 { st := .up } b with trail.joined := some (4, 5), trail.unacked := [frag 4 1 5 1 [], frag 4 1 5 2 []]},
      ctl 0x0909 (job7 4 5 0 1), by decide +kernel⟩

theorem wit_MergeJobs_5 :
    (∃ (s : Machine.State) (p : Parcel), sealFault p = none ∧ s.boot.phase = BootPhase.ready ∧ s.trail.assigned = true ∧ s.guests.length = 64
        ∧ s.trail.joined.isSome = true ∧ s.trail.unacked ≠ [] ∧ s.trail.ackEpoch + 30 ≤ s.ep.now.toNat)
    ∧ (∃ (s : Machine.State) (p : Parcel), sealFault p = none ∧ s.boot.phase = BootPhase.ready ∧ s.trail.assigned = true ∧ s.guests.length = 64
        ∧ s.trail.joined.isSome = true ∧ s.trail.unacked ≠ [] ∧ s.ep.now.toNat < s.trail.ackEpoch + 30) :=
  ⟨⟨rdy fun b => {onTrail 2 1 { st := .up } b with trail.joined := some (4, 5), trail.unacked := [frag 4 1 5 1 []], ep.now := 30},
      ctl 0x0909 (job7 4 5 0 1), by decide +kernel⟩,
    ⟨rdy fun b => {onTrail 2 1 { st := .up } b with trail.joined := some (4, 5), trail.unacked := [frag 4 1 5 1 []], ep.now := 29},
        ctl 0x0909 (job7 4 5 0 1), by decide +kernel⟩⟩

theorem wit_MergeJobs_6 : ∃ (s : Machine.State) (p : Parcel), sealFault p = none ∧ s.boot.phase = BootPhase.ready ∧ s.trail.assigned = true
    ∧ s.guests.length = 64 ∧ p.type = 2049 ∧ s.guestsOn = false :=
  ⟨rdy fun b => {onTrail 2 2 { st := .up } b with feat.everCommit := true}, ctl 0x0801 (frag 63 1 5 3 [1, 2, 3, 4]).payload, by decide +kernel⟩

theorem wit_MergeJobs_7 : ∃ (s : Machine.State) (p : Parcel), sealFault p = none ∧ s.boot.phase = BootPhase.ready ∧ s.trail.assigned = true
    ∧ s.guests.length = 64 ∧ p.type = 2049 ∧ s.guestsOn = true ∧ Block.fragRefusal p true s.toBlock = none :=
  ⟨rdy fun b => {onTrail 2 2 { st := .up } b with guests := b.guests.set 63 member3}, ctl 0x0801 (frag 63 1 5 3 [1, 2, 3, 4]).payload,
      by decide +kernel⟩

theorem wit_MergeJobs_8 : ∃ (s : Machine.State) (p : Parcel), sealFault p = none ∧ s.boot.phase = BootPhase.ready ∧ s.trail.assigned = true
    ∧ s.guests.length = 64 ∧ p.type = 2312 ∧ field p.payload 6 1 < 64 ∧ (s.guest (field p.payload 6 1)).st.accepts = true
    ∧ (s.guest (field p.payload 6 1)).gen.toNat = field p.payload 8 2 ∧ (s.guest (field p.payload 6 1)).gid.toNat = memberGid (field p.payload 4 2) :=
  ⟨rdy fun b => {onTrail 2 2 { st := .up } b with guests := b.guests.set 63 member3}, ctl 0x0908 (pay 16 [(0, 4, 7), (4, 2, 3), (6, 1, 63), (8, 2,
      5)]), by decide +kernel⟩

theorem wit_MergeJobs_9 :
    (∃ (s : Machine.State) (p : Parcel), sealFault p = none ∧ s.boot.phase = BootPhase.ready ∧ s.trail.assigned = true ∧ s.guests.length = 64
        ∧ p.type = 2314 ∧ field p.payload 4 2 ≠ s.chip.toNat)
    ∧ (∃ (s : Machine.State) (p : Parcel), sealFault p = none ∧ s.boot.phase = BootPhase.ready ∧ s.trail.assigned = true ∧ s.guests.length = 64
        ∧ p.type = 2314 ∧ field p.payload 4 2 = s.chip.toNat ∧ unitExists (List.getD p.payload 2 0) = false) :=
  ⟨⟨rdy (onTrail 2 2 { st := .up }), ctl 0x090A (pay 24 [(4, 2, 1)]), by decide +kernel⟩,
    ⟨rdy (onTrail 2 2 { st := .up }), ctl 0x090A (pay 24 [(2, 1, 0x30)]), by decide +kernel⟩⟩

theorem wit_Bridges_0 : ∃ (p : Parcel), List.length p.payload = p.len.toNat ∧ List.length p.payload ≤ 4096 :=
  ⟨{ pcl with len := 3, payload := [1, 2, 3] }, by decide +kernel⟩

theorem wit_Bridges_1 :
    (∃ (s : Machine.State) (o : Island) (i : Island), Block.islandUp (islandNo o) s.toBlock = true ∧ Block.islandUp (islandNo i) s.toBlock = true
        ∧ (s.flt.bridges.getD (bridgeNo o i) { }).phase = CrossPhase.idle)
    ∧ (∃ (s : Machine.State) (o : Island) (i : Island), Block.islandUp (islandNo o) s.toBlock = true ∧ Block.islandUp (islandNo i) s.toBlock = true
        ∧ (s.flt.bridges.getD (bridgeNo o i) { }).phase = CrossPhase.requested ∧ s.flt.restarting.getD (islandNo i) false = false
        ∧ Block.tripStops (islandNo i) s.toBlock = false)
    ∧ (∃ (s : Machine.State) (o : Island) (i : Island), Block.islandUp (islandNo o) s.toBlock = true ∧ Block.islandUp (islandNo i) s.toBlock = true
        ∧ (s.flt.bridges.getD (bridgeNo o i) { }).phase = CrossPhase.requested ∧ s.flt.restarting.getD (islandNo i) false = true)
    ∧ (∃ (s : Machine.State) (o : Island) (i : Island), Block.islandUp (islandNo o) s.toBlock = true ∧ Block.islandUp (islandNo i) s.toBlock = true
        ∧ (s.flt.bridges.getD (bridgeNo o i) { }).phase = CrossPhase.acknowledged)
    ∧ (∃ (s : Machine.State) (o : Island) (i : Island), Block.islandUp (islandNo o) s.toBlock = true ∧ Block.islandUp (islandNo i) s.toBlock = true
        ∧ (s.flt.bridges.getD (bridgeNo o i) { }).phase = CrossPhase.released)
    ∧ (∃ (s : Machine.State) (o : Island) (i : Island), Block.islandUp (islandNo o) s.toBlock = true ∧ Block.islandUp (islandNo i) s.toBlock = true
        ∧ (s.flt.bridges.getD (bridgeNo o i) { }).phase ≠ CrossPhase.idle)
    ∧ (∃ (s : Machine.State) (o : Island) (i : Island), Block.islandUp (islandNo o) s.toBlock = true ∧ Block.islandUp (islandNo i) s.toBlock = true
        ∧ (s.flt.bridges.getD (bridgeNo o i) { }).phase ≠ CrossPhase.requested)
    ∧ (∃ (s : Machine.State) (o : Island) (i : Island), Block.islandUp (islandNo o) s.toBlock = true ∧ Block.islandUp (islandNo i) s.toBlock = true
        ∧ (s.flt.bridges.getD (bridgeNo o i) { }).phase ≠ CrossPhase.acknowledged)
    ∧ (∃ (s : Machine.State) (o : Island) (i : Island), Block.islandUp (islandNo o) s.toBlock = true ∧ Block.islandUp (islandNo i) s.toBlock = true
        ∧ (s.flt.bridges.getD (bridgeNo o i) { }).phase ≠ CrossPhase.released)
    ∧ (∃ (s : Machine.State) (o : Island) (i : Island), Block.islandUp (islandNo o) s.toBlock = true ∧ Block.islandUp (islandNo i) s.toBlock = true
        ∧ s.now < (s.flt.bridges.getD (bridgeNo o i) { }).since + 25000) :=
  ⟨⟨rdy id, .boot, .fox, by decide +kernel⟩,
    ⟨rdy (bridge .fox { phase := .requested, beat := some beat0 }), .boot, .fox, by decide +kernel⟩,
    ⟨rdy fun b => {bridge .fox { phase := .requested, beat := some beat0 } b with flt.restarting := b.flt.restarting.set 4 true}, .boot, .fox,
        by decide +kernel⟩,
    ⟨rdy (bridge .fox { phase := .acknowledged, beat := some beat0 }), .boot, .fox, by decide +kernel⟩,
    ⟨rdy (bridge .fox { phase := .released }), .boot, .fox, by decide +kernel⟩,
    ⟨rdy (bridge .fox { phase := .released }), .boot, .fox, by decide +kernel⟩,
    ⟨rdy (bridge .fox { phase := .released }), .boot, .fox, by decide +kernel⟩,
    ⟨rdy (bridge .fox { phase := .released }), .boot, .fox, by decide +kernel⟩,
    ⟨rdy (bridge .fox { phase := .requested, beat := some beat0 }), .boot, .fox, by decide +kernel⟩,
    ⟨ph .ready 24999 (bridge .fox { phase := .requested, beat := some beat0 }), .boot, .fox, by decide +kernel⟩⟩

theorem wit_Bridges_2 : ∃ (s : Machine.State) (o : Island) (i : Island), (Block.islandUp (islandNo o) s.toBlock = false
    ∨ Block.islandUp (islandNo i) s.toBlock = false) :=
  ⟨ph .faultHalt 0 id, .boot, .den, by decide +kernel⟩

theorem wit_Bridges_3 :
    (∃ (s : Machine.State) (o : Island) (i : Island), s.detects = true ∧ (i = Island.fox ∨ i = Island.owl ∨ i = Island.den)
        ∧ (s.flt.bridges.getD (bridgeNo o i) { }).phase = CrossPhase.requested ∧ (s.flt.bridges.getD (bridgeNo o i) { }).since + 25000 ≤ s.now
        ∧ s.flt.restarting.getD (islandNo i) false = false ∧ s.pwr.tripped = false ∧ s.flt.failed.getD (islandNo i) false = false
        ∧ s.flt.ticks.getD (islandNo i) [] = [] ∧ s.flt.restarting.length = 11 ∧ s.flt.restarts.length = 11)
    ∧ (∃ (s : Machine.State) (o : Island) (i : Island) (u : BitVec 8) (k : Fenceable), s.detects = true ∧ fenceable u = some k
        ∧ fenceableIsland k = islandNo i ∧ (i = Island.fox ∨ i = Island.owl) ∧ s.flt.isLive k = true
        ∧ (s.flt.bridges.getD (bridgeNo o i) { }).phase = CrossPhase.requested ∧ (s.flt.bridges.getD (bridgeNo o i) { }).since + 25000 ≤ s.now
        ∧ s.flt.restarting.getD (islandNo i) false = false ∧ s.pwr.tripped = false)
    ∧ (∃ (s : Machine.State) (o : Island) (i : Island) (a : Tick) (y : Tick) (z : Tick), s.detects = true ∧ i = Island.afu
        ∧ (s.flt.bridges.getD (bridgeNo o i) { }).phase = CrossPhase.requested ∧ (s.flt.bridges.getD (bridgeNo o i) { }).since + 25000 ≤ s.now
        ∧ s.flt.restarting.getD 5 false = false ∧ s.flt.failed.getD 5 false = false ∧ s.flt.ticks.getD 5 [] = [a, y, z] ∧ recent s.now [a, y,
        z] = [a, y, z] ∧ s.flt.failed.length = 11)
    ∧ (∃ (s : Machine.State) (i : Island), s.detects = true ∧ s.flt.failed.getD (islandNo i) false = false)
    ∧ (∃ (s : Machine.State) (i : Island), s.detects = true ∧ s.flt.failed.getD (islandNo i) false = true) :=
  ⟨⟨ph .ready 25000 (bridge .fox { phase := .requested, beat := some beat0 }), .boot, .fox, by decide +kernel⟩,
    ⟨ph .ready 25000 (bridge .owl { phase := .requested, beat := some beat0 }), .boot, .owl, 0x5F, .thread 31, by decide +kernel⟩,
    ⟨ph .ready 25003 fun b => {bridge .afu { phase := .requested, beat := some beat0 } b with flt.ticks := b.flt.ticks.set 5 [1, 2, 3]}, .boot, .afu,
        1, 2, 3, by decide +kernel⟩,
    ⟨rdy id, .fox, by decide +kernel⟩,
    ⟨rdy fun b => {b with flt.failed := b.flt.failed.set 4 true}, .fox, by decide +kernel⟩⟩

theorem wit_Fences_0 : ∃ (s : Machine.State) (u : BitVec 8) (v : BitVec 8) (x : ℕ) (y : ℕ), s.detects = true ∧ s.pwr.tripped = false
    ∧ fenceable u = some (Fenceable.thread x) ∧ fenceable v = some (Fenceable.thread y) ∧ u ≠ v ∧ s.flt.isLive (Fenceable.thread x) = true
    ∧ s.flt.isLive (Fenceable.thread y) = true ∧ s.pending = [Instr.unitWatchdog v] :=
  ⟨{ rdy id with pending := [.unitWatchdog 0x40] }, 0x5F, 0x40, 31, 0, by decide +kernel⟩

theorem wit_Fences_1 :
    (∃ (s : Machine.State) (u : BitVec 8) (k : Fenceable) (n : ℕ), s.detects = true ∧ (∀ c ∈ s.pending, s.detection c = none)
        ∧ fenceable u = some k ∧ (∀ (p : Pair), k ≠ Fenceable.pair p) ∧ 64 < n ∧ s.flt.isLive k = true ∧ (∀ (x : ℕ), k ≠ Fenceable.thread x))
    ∧ (∃ (s : Machine.State) (u : BitVec 8) (k : Fenceable) (n : ℕ), s.detects = true ∧ (∀ c ∈ s.pending, s.detection c = none)
        ∧ fenceable u = some k ∧ (∀ (p : Pair), k ≠ Fenceable.pair p) ∧ 64 < n ∧ s.flt.isLive k = true ∧ s.pwr.tripped = false)
    ∧ (∃ (s : Machine.State) (u : BitVec 8) (k : Fenceable) (n : ℕ), s.detects = true ∧ (∀ c ∈ s.pending, s.detection c = none)
        ∧ fenceable u = some k ∧ (∀ (p : Pair), k ≠ Fenceable.pair p) ∧ 64 < n ∧ s.flt.isLive k = false)
    ∧ (∃ (s : Machine.State) (u : BitVec 8) (k : Fenceable) (n : ℕ), s.detects = true ∧ (∀ c ∈ s.pending, s.detection c = none)
        ∧ fenceable u = some k ∧ (∀ (p : Pair), k ≠ Fenceable.pair p) ∧ n ≤ 64)
    ∧ (∃ (s : Machine.State) (u : BitVec 8) (k : Fenceable) (x : ℕ), s.detects = true ∧ (∀ c ∈ s.pending, s.detection c = none)
        ∧ fenceable u = some k ∧ (∀ (p : Pair), k ≠ Fenceable.pair p) ∧ k = Fenceable.thread x)
    ∧ (∃ (s : Machine.State) (u : BitVec 8) (k : Fenceable) (x : ℕ), s.detects = true ∧ (∀ c ∈ s.pending, s.detection c = none)
        ∧ fenceable u = some k ∧ (∀ (p : Pair), k ≠ Fenceable.pair p) ∧ k = Fenceable.thread x ∧ s.flt.isLive k = true ∧ s.pwr.tripped = false) :=
  ⟨⟨rdy id, 0x27, .lane 7, 65, by decide +kernel, by decide +kernel, by decide +kernel, nofun, by decide +kernel, by decide +kernel, nofun⟩,
    ⟨rdy id, 0x6F, .tile 15, 65, by decide +kernel, by decide +kernel, by decide +kernel, nofun, by decide +kernel⟩,
    ⟨rdy fun b => {b with flt.tiles := 1}, 0x6F, .tile 15, 65, by decide +kernel, by decide +kernel, by decide +kernel, nofun, by decide +kernel⟩,
    ⟨rdy id, 0x27, .lane 7, 64, by decide +kernel, by decide +kernel, by decide +kernel, nofun, by decide +kernel⟩,
    ⟨rdy id, 0x5F, .thread 31, 31, by decide +kernel, by decide +kernel, by decide +kernel, nofun, by decide +kernel⟩,
    ⟨rdy id, 0x5F, .thread 31, 31, by decide +kernel, by decide +kernel, by decide +kernel, nofun, by decide +kernel⟩⟩

theorem wit_RangerPairs_0 : ∃ (s : Machine.State) (p : Pair), s.boot.phase = BootPhase.ready ∧ (∀ c ∈ s.pending, s.detection c = none)
    ∧ s.flt.isLive (Fenceable.pair p) = false :=
  ⟨rdy fun b => {b with flt.pairB := false}, .b, by decide +kernel⟩

theorem wit_RangerPairs_1 :
    (∃ (s : Machine.State) (p : Pair), s.boot.phase = BootPhase.ready ∧ (∀ c ∈ s.pending, s.detection c = none) ∧ s.flt.pairA = true
        ∧ s.flt.pairB = true ∧ s.flt.control ≠ p)
    ∧ (∃ (s : Machine.State) (p : Pair), s.boot.phase = BootPhase.ready ∧ (∀ c ∈ s.pending, s.detection c = none) ∧ s.flt.pairA = true
        ∧ s.flt.pairB = true ∧ s.flt.control = p) :=
  ⟨⟨rdy id, .b, by decide +kernel⟩,
    ⟨rdy id, .a, by decide +kernel⟩⟩

theorem wit_RangerPairs_2 : ∃ (s : Machine.State) (p : Pair), s.boot.phase = BootPhase.ready ∧ (∀ c ∈ s.pending, s.detection c = none)
    ∧ s.flt.pairs = 1 ∧ s.flt.isLive (Fenceable.pair p) = true :=
  ⟨rdy fun b => {b with flt.pairA := false, flt.control := .b}, .b, by decide +kernel⟩

theorem wit_ClocksAtTheEdge_0 : ∃ (s : Machine.State) (i : Dvfs) (u : Tick) (d : Fin 6), s.boot.package = Package.c
    ∧ s.pwr.packSince.getD (dvfsIndex i) none = some u ∧ u + 12500 ≤ s.now ∧ d ≠ ppGet s.pwr.preq i ∧ s.pwr.packSince.length = 4 :=
  ⟨edgeC fun b => {b with pwr.packSince := [none, some 0, none, none], thermos.tb := 12500}, .fox, 0, 3, by decide +kernel⟩

theorem wit_ClocksAtTheEdge_1 : ∃ (s : Machine.State) (i : Dvfs) (u : Tick), s.boot.package = Package.c
    ∧ s.pwr.packSince.getD (dvfsIndex i) none = some u ∧ s.now < u + 12500 :=
  ⟨edgeC fun b => {b with pwr.packSince := [none, some 0, none, none], thermos.tb := 12499}, .fox, 0, by decide +kernel⟩

theorem wit_ClocksAtTheEdge_2 : ∃ (s : Machine.State) (i : Dvfs) (u : Tick), s.boot.package = Package.c
    ∧ s.pwr.packSince.getD (dvfsIndex i) none = some u ∧ s.pwr.packSince.length = 4 :=
  ⟨edgeC fun b => {b with pwr.packSince := [none, some 0, none, none], thermos.tb := 12499, pwr.preq.fox := 2}, .fox, 0, by decide +kernel⟩

theorem wit_SuppliesAndBeatsAtTheEdge_0 :
    (∃ (s : Machine.State), s.pwr.pwrAck.length = 11 ∧ s.pwr.iso.length = 11 ∧ s.flt.failed.length = 11 ∧ s.boot.package ≠ Package.c)
    ∧ (∃ (s : Machine.State) (i : Island), s.pwr.pwrAck.length = 11 ∧ s.pwr.iso.length = 11 ∧ s.flt.failed.length = 11 ∧ s.boot.package = Package.c
        ∧ i ≠ Island.thermos ∧ s.pwr.pwrReq.getD (islandNo i) false = true ∧ s.pwr.pwrAck.getD (islandNo i) false = false ∧ (i ≠ Island.den
        ∨ s.pwr.retDen = false))
    ∧ (∃ (s : Machine.State) (i : Island), s.pwr.pwrAck.length = 11 ∧ s.pwr.iso.length = 11 ∧ s.flt.failed.length = 11 ∧ s.boot.package = Package.c
        ∧ i ≠ Island.thermos ∧ s.pwr.pwrReq.getD 8 false = true ∧ s.pwr.pwrAck.getD 8 false = false ∧ s.pwr.retDen = true ∧ s.pwr.retAckDen = true)
    ∧ (∃ (s : Machine.State) (i : Island), s.pwr.pwrAck.length = 11 ∧ s.pwr.iso.length = 11 ∧ s.flt.failed.length = 11 ∧ s.boot.package = Package.c
        ∧ i ≠ Island.thermos ∧ s.pwr.retDen = true ∧ s.pwr.retAckDen = false)
    ∧ (∃ (s : Machine.State) (i : Island), s.pwr.pwrAck.length = 11 ∧ s.pwr.iso.length = 11 ∧ s.flt.failed.length = 11 ∧ s.boot.package = Package.c
        ∧ i ≠ Island.thermos ∧ s.pwr.retDen = false ∧ s.pwr.retAckDen = true ∧ s.pwr.pwrReq.getD 8 false = true ∧ s.pwr.pwrAck.getD 8 false = true)
    ∧ (∃ (s : Machine.State) (i : Island), s.pwr.pwrAck.length = 11 ∧ s.pwr.iso.length = 11 ∧ s.flt.failed.length = 11 ∧ s.boot.package = Package.c
        ∧ i ≠ Island.thermos ∧ s.pwr.pwrAck.getD (islandNo i) false = true ∧ s.pwr.pwrReq.getD (islandNo i) false = false)
    ∧ (∃ (s : Machine.State) (i : Island), s.pwr.pwrAck.length = 11 ∧ s.pwr.iso.length = 11 ∧ s.flt.failed.length = 11 ∧ s.boot.package = Package.c
        ∧ i ≠ Island.thermos ∧ s.pwr.pwrAck.getD (islandNo i) false = true ∧ s.pwr.pwrReq.getD (islandNo i) false = true)
    ∧ (∃ (s : Machine.State) (i : Island), s.pwr.pwrAck.length = 11 ∧ s.pwr.iso.length = 11 ∧ s.flt.failed.length = 11 ∧ s.boot.package = Package.c
        ∧ i ≠ Island.thermos ∧ s.pwr.pwrReq.getD (islandNo i) false = true ∧ s.pwr.pwrAck.getD (islandNo i) false = false
        ∧ s.flt.failed.getD (islandNo i) false = false ∧ s.boot.phase = BootPhase.ready ∧ s.pwr.pwrSince.getD (islandNo i) 0 + 2500000 ≤ s.now
        ∧ i ≠ Island.trail)
    ∧ (∃ (s : Machine.State) (i : Island), s.pwr.pwrAck.length = 11 ∧ s.pwr.iso.length = 11 ∧ s.flt.failed.length = 11 ∧ s.boot.package = Package.c
        ∧ i ≠ Island.thermos ∧ s.pwr.pwrReq.getD (islandNo i) false = true ∧ s.pwr.pwrAck.getD (islandNo i) false = false
        ∧ s.flt.failed.getD (islandNo i) false = false ∧ s.boot.phase = BootPhase.ready ∧ s.pwr.pwrSince.getD (islandNo i) 0 + 2500000 ≤ s.now
        ∧ i = Island.trail)
    ∧ (∃ (s : Machine.State) (i : Island), s.pwr.pwrAck.length = 11 ∧ s.pwr.iso.length = 11 ∧ s.flt.failed.length = 11 ∧ s.boot.package = Package.c
        ∧ i ≠ Island.thermos ∧ s.pwr.pwrReq.getD (islandNo i) false = true ∧ s.pwr.pwrAck.getD (islandNo i) false = false
        ∧ s.flt.failed.getD (islandNo i) false = false ∧ (s.boot.phase = BootPhase.bringup ∨ s.now < s.pwr.pwrSince.getD (islandNo i) 0 + 2500000)) :=
  ⟨⟨rdy id, by decide +kernel⟩,
    ⟨edgeC fun b => {b with pwr.pwrReq := b.pwr.pwrReq.set 4 true}, .fox, by decide +kernel⟩,
    ⟨edgeC fun b => {b with pwr.pwrReq := b.pwr.pwrReq.set 8 true, pwr.retDen := true, pwr.retAckDen := true}, .den, by decide +kernel⟩,
    ⟨edgeC fun b => {okIsland 8 b with pwr.retDen := true}, .den, by decide +kernel⟩,
    ⟨edgeC fun b => {okIsland 8 b with pwr.retAckDen := true}, .den, by decide +kernel⟩,
    ⟨edgeC fun b => {okIsland 4 b with pwr.pwrReq := b.pwr.pwrReq}, .fox, by decide +kernel⟩,
    ⟨edgeC (okIsland 4), .fox, by decide +kernel⟩,
    ⟨edgeC fun b => {b with pwr.pwrReq := b.pwr.pwrReq.set 4 true, thermos.tb := 2500000}, .fox, by decide +kernel⟩,
    ⟨edgeC fun b => {b with pwr.pwrReq := b.pwr.pwrReq.set 10 true, thermos.tb := 2500000}, .trail, by decide +kernel⟩,
    ⟨edgeC fun b => {b with pwr.pwrReq := b.pwr.pwrReq.set 4 true, thermos.tb := 2499999}, .fox, by decide +kernel⟩⟩

theorem wit_SuppliesAndBeatsAtTheEdge_1 :
    (∃ (s : Machine.State), s.edge.length = 53 ∧ s.boot.package ≠ Package.c)
    ∧ (∃ (s : Machine.State) (c : Fin 53), s.edge.length = 53 ∧ edgeIn ↑c = false)
    ∧ (∃ (s : Machine.State) (c : Fin 53), s.edge.length = 53 ∧ edgeIn ↑c = true)
    ∧ (∃ (s : Machine.State) (c : Fin 53), s.edge.length = 53 ∧ Block.edgeRuns (↑c) s.toBlock = true ∧ edgeIn ↑c = true)
    ∧ (∃ (s : Machine.State) (c : Fin 53), s.edge.length = 53 ∧ Block.edgeRuns (↑c) s.toBlock = true ∧ edgeIn ↑c = false) :=
  ⟨⟨rdy id, by decide +kernel⟩,
    ⟨edgeC id, 6, by decide +kernel⟩,
    ⟨edgeC id, 0, by decide +kernel⟩,
    ⟨edgeC (fun b => okIsland 2 (okIsland 9 (okIsland 10 b))), 0, by decide +kernel⟩,
    ⟨edgeC (fun b => okIsland 2 (okIsland 9 (okIsland 10 b))), 7, by decide +kernel⟩⟩

theorem wit_TimeBaseMoves_0 : ∃ (c : Instr) (s : Machine.State) (t : Machine.State), exec c s = Host.Outcome.next t
    ∧ t.thermos.tbEpoch ≠ s.thermos.tbEpoch :=
  ⟨.coldThermosPor, mk fun b => { b with thermos.tbEpoch := 7 }, _, rfl, by decide +kernel⟩

theorem wit_TimeBaseMoves_1 : ∃ (c : Instr) (s : Machine.State) (t : Machine.State), exec c s = Host.Outcome.next t ∧ t.thermos.tb ≠ s.thermos.tb :=
  ⟨.coldThermosPor, mk fun b => { b with thermos.tb := 7 }, _, rfl, by decide +kernel⟩

theorem wit_HaltsHold_0 : ∃ (c : Instr) (s : Machine.State) (t : Machine.State), exec c s = Host.Outcome.next t
    ∧ (s.boot.phase = BootPhase.haltedNoboot ∨ s.boot.phase = BootPhase.faultHalt) ∧ ¬Resets c :=
  ⟨.flr, mk (fun b => { b with boot.phase := .faultHalt }), _, rfl, by decide +kernel, by simp [Resets]⟩

theorem wit_HaltsHold_1 : ∃ (s : Machine.State) (c : Instr), (s.boot.phase = BootPhase.haltedNoboot ∨ s.boot.phase = BootPhase.faultHalt)
    ∧ (c = Instr.resetNFall ∨ (∃ v, c = Instr.softReset v ∧ softKey v) ∨ ∃ v, c = Instr.registerWrite (RegWrite.bar0 528 4 v)
    ∧ softKey (BitVec.setWidth 32 v)) :=
  ⟨mk (fun b => { b with boot.phase := .faultHalt }), .softReset 0x1C3A5, by decide +kernel, .inr (.inl ⟨_, rfl, by decide, by decide⟩)⟩

theorem wit_HaltsHold_2 : ∃ (s : Machine.State), (s.boot.phase = BootPhase.haltedNoboot ∨ s.boot.phase = BootPhase.faultHalt)
    ∧ s.pins.resetN = true :=
  ⟨mk (fun b => { b with boot.phase := .haltedNoboot, pins.resetN := true }), by decide +kernel⟩

theorem wit_ShutdownStays_0 : ∃ (c : Instr) (s : Machine.State) (t : Machine.State), exec c s = Host.Outcome.next t ∧ s.pwr.shutdown = true
    ∧ ¬Resets c :=
  ⟨.flr, mk (fun b => { b with pwr.shutdown := true }), _, rfl, by decide +kernel, by simp [Resets]⟩

theorem wit_ShutdownStays_1 : ∃ (s : Machine.State) (v : BitVec 64), s.boot.phase = BootPhase.ready ∧ s.pwr.shutdown = true ∧ v.getLsbD 1 = false :=
  ⟨rdy (fun b => { b with pwr.shutdown := true }), 0xFFFFFFFD, by decide +kernel⟩

theorem wit_ShutdownStays_2 : ∃ (s : Machine.State) (v : BitVec 64), s.boot.phase = BootPhase.ready ∧ v.getLsbD 1 = true :=
  ⟨rdy (fun b => { b with pwr.pauseBit := true }), 3, by decide +kernel⟩

theorem wit_FencesStay_0 : ∃ (c : Instr) (s : Machine.State) (t : Machine.State) (k : Fenceable), exec c s = Host.Outcome.next t ∧ ¬Resets c
    ∧ t.flt.isLive k = true :=
  ⟨.flr, mk id, _, .lane 0, rfl, by simp [Resets], by decide +kernel⟩

theorem wit_FencesStay_1 : ∃ (c : Instr) (s : Machine.State) (t : Machine.State), exec c s = Host.Outcome.next t ∧ ¬Resets c :=
  ⟨.flr, mk id, _, rfl, by simp [Resets]⟩

theorem wit_FencesStay_2 : ∃ (c : Instr) (s : Machine.State) (t : Machine.State), exec c s = Host.Outcome.next t ∧ ¬Resets c :=
  ⟨.flr, mk id, _, rfl, by simp [Resets]⟩

theorem wit_InvariantKept : ∃ (s : Machine.State) (t : Machine.State), s.Inv ∧ step s = Host.Outcome.next t :=
  ⟨rdy id, _, by unfold Block.Inv Block.canonical Block.shaped; decide +kernel, rfl⟩

theorem wit_ResetState_4 : ∃ (m : MsixEntry), m ∈ State.reset.link.msix :=
  ⟨{}, by decide +kernel⟩

theorem wit_ResetState_5 : ∃ (q : Queue), q ∈ State.reset.host.queues :=
  ⟨{}, by decide +kernel⟩

theorem wit_ResetState_6 : ∃ (x : Machine.Stream), x ∈ State.reset.host.streams :=
  ⟨{}, by decide +kernel⟩

theorem wit_ResetState_9 : ∃ (g : Guest), g ∈ State.reset.guests :=
  ⟨{}, by decide +kernel⟩

/-! A slot that passes: Config.romKeyHash is opaque and no test evaluates a signature of a whole slot, so the digests and the two signatures are
premises of the first theorem; every other test is evaluated. (That a set of these
pages passes CHECK is wit_SettingsCommands_1.) -/

/-- A slot with a firmware header and a settings section of four pages. -/
def goodSlot : FlashImage :=
  [(0, pay 64 [(0, 4, 0x484D5052), (4, 2, 1), (6, 2, 64), (13, 1, 2), (16, 4, 28672), (20, 4, 64), (24, 4, 512), (28, 4, 1024)]
      ++ pay 48 [(0, 2, 0x0001), (4, 4, 4096), (8, 4, 128)] ++ pay 48 [(0, 2, 0x0010), (2, 1, 1), (4, 4, 8192), (8, 4, 16384)]),
   (512, pay 136 []), (1024, pay 136 []), (4096, pay 128 [(0, 4, 0x46574844), (4, 2, 1), (8, 1, 0xB0), (20, 4, 64), (24, 4, 64)]),
   (8192, [goodCore, goodPort, goodGroup, goodTable].flatMap fun m => memBytes m 0 4096)]
def slotState : State := ph .slotVerify 0 fun b => { b with boot.trying := some .a, boot.density := 2 ^ 25 }
def goodRead : SlotRead := slotState.slotRead .a goodSlot

theorem good_slot_tests : slotField goodRead 0 4 = 0x484D5052 ∧ headerOk goodRead (2 ^ 25) = true ∧ slotField goodRead 12 1 = 0
    ∧ layoutOk goodRead = true
    ∧ (slotSections goodRead).map (·.type) = [0x0001, 0x0010] ∧ firmwareOk 128 (goodRead 4096 64) = true := by decide +kernel
/-- With digests and signatures that verify, the slot fails no test. -/
theorem wit_slot_passes (hn : ngarainOk goodRead slotState.boot.otp = true) (hc : customerOk goodRead slotState.boot.otp = true)
    (hd : ((slotSections goodRead).any fun e => sha256 (goodRead e.off e.len) != e.digest) = false) :
    ∃ (s : State) (f : FlashImage) (n : SlotId), s.boot.phase = .slotVerify ∧ s.boot.trying = some n
      ∧ slotCause (s.slotRead n f) s.boot.density s.boot.otp = none := by
  refine ⟨slotState, goodSlot, .a, rfl, rfl, ?_⟩
  have h1 : headerOk goodRead slotState.boot.density = true := good_slot_tests.2.1
  have h2 : (slotSections goodRead).any (fun e => e.type == 0x0030 && !rangeTableOk e (goodRead e.off e.len)) = false := by decide +kernel
  have h3 : (slotSections goodRead).any (fun e => e.type == 0x0001 && !firmwareOk e.len (goodRead e.off 64)) = false := by decide +kernel
  have h4 : (slotSections goodRead).any (·.type == 0x0001) = true := by decide +kernel
  have h5 : (slotSections goodRead).any (·.type == 0x0010) = true := by decide +kernel
  have h6 : popcount slotState.boot.otp.rollback = 0 := by decide +kernel
  change slotCause goodRead _ _ = none
  simp only [slotCause, good_slot_tests.1, h1, good_slot_tests.2.2.1, good_slot_tests.2.2.2.1, h2, h3, h4, h5, h6, hn, hc, hd]
  decide

end Slice0Tests
end

section
/-! PROOF. A halt of boot is left by a reset alone (R42). In HALTED_NOBOOT and FAULT_HALT the guards of the model are shut (the block is not ready,
and detections do not count), so each operation either does nothing or does not touch the boot state; each reset enters MAIN_POR. -/

namespace Sys2Proof.Machine

/-- The phases in which boot has halted (R42). -/
def BootPhase.halted : BootPhase → Bool
  | .haltedNoboot | .faultHalt => true
  | _ => false

theorem BootPhase.halted_iff {p : BootPhase} : p.halted = true ↔ p = .haltedNoboot ∨ p = .faultHalt := by
  cases p <;> simp [BootPhase.halted]

/-! ### What a halt rules out -/

section
variable {b : Block} (h : b.boot.phase.halted = true)
include h

@[simp] theorem Block.phase_ne_of_halted : b.boot.phase ≠ .thermosPor ∧ b.boot.phase ≠ .mainPor ∧ b.boot.phase ≠ .romProbe
    ∧ b.boot.phase ≠ .slotVerify ∧ b.boot.phase ≠ .settingsLoad ∧ b.boot.phase ≠ .bringup ∧ b.boot.phase ≠ .ready := by
  rcases BootPhase.halted_iff.mp h with h | h <;> simp [h]

@[simp] theorem Block.ready_of_halted : b.ready = false := by simp [Block.ready, h]

@[simp] theorem Block.awake_of_halted : b.awake = true := by simp [Block.awake, h]

@[simp] theorem Block.detects_of_halted : b.detects = false := by
  rcases BootPhase.halted_iff.mp h with h | h <;> simp [Block.detects, h]

@[simp] theorem Block.begin_of_halted (r : CmdRef) (op : Nat) (inRange : Cmd → Bool) (run : Cmd → Block → Block) :
    b.begin r op inRange run = b := by
  have : b.starting r op = none := by unfold Block.starting; split <;> simp [h]
  simp [Block.begin, this]

@[simp] theorem Block.reading_of_halted (r : CmdRef) (c : Cmd) : b.reading r c = false := by simp [Block.reading, h]

@[simp] theorem Block.csiOn_of_halted (k : Nat) : b.csiOn k = false := by simp [Block.csiOn, h]

@[simp] theorem Block.slotOn_of_halted (k : Nat) : b.slotOn k = false := by simp [Block.slotOn, h]

@[simp] theorem Block.unitsRun_of_halted (i : Nat) : b.unitsRun i = false := by simp [Block.unitsRun, h]

@[simp] theorem Block.laneOk_of_halted (lane : Nat) : b.laneOk lane = false := by simp [Block.laneOk, h]

@[simp] theorem Block.afuOn_of_halted : b.afuOn = false := by simp [Block.afuOn, h]

@[simp] theorem Block.threadsForHost_of_halted : b.threadsForHost = false := by simp [Block.threadsForHost, h]

@[simp] theorem Block.works_of_halted (j : Job) : b.works j = false := by simp [Block.works, h]

@[simp] theorem Block.lanesOn_of_halted : b.lanesOn = false := by simp [Block.lanesOn, h]

@[simp] theorem Block.ptmOn_of_halted : b.ptmOn = false := by simp [Block.ptmOn, h]

/-! ### Faults do not count in a halt (R580) -/

@[simp] theorem Block.blame_of_halted (unit : BitVec 8) (cause : Nat) : b.blame unit cause = b := by simp [Block.blame, h]

@[simp] theorem Block.bridgeFault_of_halted (i : Nat) (unit : Option (BitVec 8)) (cause : Nat) : b.bridgeFault i unit cause = b := by
  simp [Block.bridgeFault, h]

@[simp] theorem Block.integrityFault_of_halted (p : Parcel) (verifier cause : BitVec 8) : b.integrityFault p verifier cause = b := by
  simp [Block.integrityFault, h]

@[simp] theorem Block.memFault_of_halted (a : Nat) : b.memFault a = b := by simp [Block.memFault, h]

@[simp] theorem Block.hostReadFault_of_halted (a : Nat) : b.hostReadFault a = b := by
  unfold Block.hostReadFault; split <;> simp [h]

@[simp] theorem Block.detect_of_halted (c : Instr) (waiting : List Instr) : b.detect c waiting = b := by
  have blames : ∀ l : List (BitVec 8 × Nat), l.foldl (fun b x => b.blame x.1 x.2) b = b := by
    intro l
    induction l with
    | nil => rfl
    | cons x l ih => simpa [h] using ih
  unfold Block.detect
  split
  · rfl
  · exact blames _

/-- A parcel read in a halt may draw on the free sequence; it faults nothing. -/
@[simp] theorem Block.verify_boot_of_halted (p : Parcel) (seen : Seen) (verifier : BitVec 8) :
    (b.verify p seen verifier).2.boot = b.boot := by
  cases seen with
  | uncorrectable => simp [Block.verify, Block.poolFault, h]
  | denied => simp [Block.verify, h]
  | intact => simp only [Block.verify]; split <;> simp [h]
  | altered q => simp only [Block.verify]; split <;> simp [h]

theorem Block.boot_of_verify_eq {p : Parcel} {seen : Seen} {verifier : BitVec 8} {o : Option Parcel} {b1 : Block}
    (e : b.verify p seen verifier = (o, b1)) : b1.boot = b.boot := by
  simpa [e] using Block.verify_boot_of_halted h p seen verifier

end

/-! ### Operations that leave the boot state

A `(rfl)` in parentheses keeps its lemma out of definitional rewriting: the kernel would compare the other fields of the two blocks. -/

section
variable (b : Block)

@[simp] theorem Block.onQueue_boot (q : Nat) (f : Queue → Queue) : (b.onQueue q f).boot = b.boot := (rfl)

@[simp] theorem Block.onStream_boot (st : Nat) (f : Stream → Stream) : (b.onStream st f).boot = b.boot := (rfl)

@[simp] theorem Block.onBridge_boot (n : Nat) (f : Bridge → Bridge) : (b.onBridge n f).boot = b.boot := (rfl)

@[simp] theorem Block.logBrown_boot (kind outcome : Nat) : (b.logBrown kind outcome).boot = b.boot := by
  unfold Block.logBrown; generalize Thermos.brown kind _ outcome b.thermos = t; rfl

@[simp] theorem Block.timeLost_boot (cause : Nat) : (b.timeLost cause).boot = b.boot := by simp [Block.timeLost]

@[simp] theorem Block.timeRegained_boot (cause : Nat) : (b.timeRegained cause).boot = b.boot := by simp [Block.timeRegained]

@[simp] theorem Block.epochUp_boot (cause : Nat) : (b.epochUp cause).boot = b.boot := by simp [Block.epochUp]

@[simp] theorem Block.nvValue_boot (value : BitVec 32) (err : Bool) : (b.nvValue value err).2.boot = b.boot := by
  unfold Block.nvValue; split <;> simp

@[simp] theorem Block.bellError_boot (q : Nat) : (b.bellError q).boot = b.boot := by simp [Block.bellError]

@[simp] theorem Block.sendAck_boot (k : Nat) : (b.sendAck k).boot = b.boot := by simp [Block.sendAck]

@[simp] theorem Block.sendNak_boot (k : Nat) : (b.sendNak k).boot = b.boot := by simp [Block.sendNak]

@[simp] theorem Block.takeAck_boot (k : Nat) (s : BitVec 12) : (b.takeAck k s).boot = b.boot := by simp [Block.takeAck]

@[simp] theorem Block.takeNak_boot (k : Nat) (s : BitVec 12) : (b.takeNak k s).boot = b.boot := by simp [Block.takeNak]

@[simp] theorem Block.routeParcel_boot (x : Sending) : (b.routeParcel x).boot = b.boot := by simp [Block.routeParcel]

@[simp] theorem Block.takeBeats_boot (k : Nat) (f : Bytes) : (b.takeBeats k f).boot = b.boot := by simp [Block.takeBeats]

@[simp] theorem Block.sendRead_boot (r : ReadWait) : (b.sendRead r).boot = b.boot := by simp [Block.sendRead]

@[simp] theorem Block.clockAgain_boot (i : Nat) : (b.clockAgain i).boot = b.boot := by simp [Block.clockAgain]

@[simp] theorem Block.islandOn_boot (i : Nat) : (b.islandOn i).boot = b.boot := by simp [Block.islandOn]

@[simp] theorem Block.ptmLatch_boot : b.ptmLatch.boot = b.boot := by
  unfold Block.ptmLatch; extract_lets t; generalize BitVec.ofNat 192 _ = v; rfl

@[simp] theorem Block.readWord_boot (off : Nat) : (b.readWord off).2.boot = b.boot := by
  unfold Block.readWord; (repeat' split) <;> simp

@[simp] theorem Block.clearLow_boot (off : Nat) : (b.clearLow off).boot = b.boot := by
  unfold Block.clearLow; split <;> rfl

@[simp] theorem Block.clearCounter_boot (off : Nat) : (b.clearCounter off).boot = b.boot := by
  simp [Block.clearCounter, Block.clearPort]

@[simp] theorem Block.clearBits_boot (off : Nat) (value : BitVec 32) : (b.clearBits off value).boot = b.boot := by
  simp [Block.clearBits]

@[simp] theorem Block.clearWrite_boot (off : Nat) (value : BitVec 32) : (b.clearWrite off value).boot = b.boot := by
  unfold Block.clearWrite; (repeat' split) <;> simp

@[simp] theorem Block.msixWrite_boot (off : Nat) (v : BitVec 32) : (b.msixWrite off v).boot = b.boot := by
  unfold Block.msixWrite; extract_lets k x b1
  have h1 : b1.boot = b.boot := by clear_value x; rfl
  split <;> simp [h1]

end

/-! ### Commands that leave the boot state in every phase -/

section
variable (b : Block)

@[simp] theorem Block.thermosCommands_boot : (∀ toVbk, (b.sourceSwitch toVbk).boot = b.boot) ∧ b.crystalStop.boot = b.boot
    ∧ b.crystalRestart.boot = b.boot ∧ b.nvTimeout.boot = b.boot ∧ (∀ running, (b.refChange running).boot = b.boot) := by
  simp [Block.sourceSwitch, Block.crystalStop, Block.crystalRestart, Block.nvTimeout, Block.refChange]

@[simp] theorem Block.linkCommands_boot : (∀ speed bme msix ptm, (b.linkUp speed bme msix ptm).boot = b.boot) ∧ b.linkDown.boot = b.boot
    ∧ b.busMasterOff.boot = b.boot ∧ b.flr.boot = b.boot ∧ (∀ master delay, (b.ptmComplete master delay).boot = b.boot)
    ∧ b.ptmFail.boot = b.boot ∧ (∀ off, (b.read4 off).boot = b.boot) ∧ (∀ size, (b.readPtm size).boot = b.boot)
    ∧ b.bar4Write.boot = b.boot := by
  simp [Block.linkUp, Block.linkDown, Block.busMasterOff, Block.flr, Block.ptmComplete, Block.ptmFail, Block.read4, Block.readPtm,
    Block.bar4Write]

@[simp] theorem Block.unitCommands_boot : (∀ temps valid, (b.dieSample temps valid).boot = b.boot)
    ∧ (∀ group, (b.ifcOutTimer group).boot = b.boot) ∧ (∀ ch set, (b.coefRefused ch set).boot = b.boot) := by
  simp [Block.dieSample, Block.ifcOutTimer, Block.coefRefused]

@[simp] theorem Block.doorbells_boot : (∀ q value, (b.sqTail q value).boot = b.boot) ∧ (∀ q value, (b.cqHead q value).boot = b.boot)
    ∧ (∀ st value, (b.streamHead st value).boot = b.boot) ∧ (∀ off size, (b.badBell off size).boot = b.boot)
    ∧ (∀ v, (b.coalesceTimer v).boot = b.boot) ∧ (∀ command addr count, (b.sidebandRead command addr count).boot = b.boot) := by
  simp [Block.sqTail, Block.cqHead, Block.streamHead, Block.badBell, Block.coalesceTimer, Block.sidebandRead]

@[simp] theorem Block.laneCommands_boot : (∀ l, (b.trainTimeout l).boot = b.boot) ∧ (∀ l count, (b.headerErrors l count).boot = b.boot)
    ∧ (∀ l, (b.lockLoss l).boot = b.boot) ∧ (∀ l, (b.retrainReq l).boot = b.boot) ∧ (∀ k w, (b.widthReqIn k w).boot = b.boot)
    ∧ (∀ k w, (b.widthAckIn k w).boot = b.boot) ∧ (∀ k flit, (b.flitReceive k flit).boot = b.boot)
    ∧ (∀ k seq, (b.nakReceive k seq).boot = b.boot) ∧ (∀ k, (b.ackTimer k).boot = b.boot) := by
  simp [Block.trainTimeout, Block.headerErrors, Block.lockLoss, Block.retrainReq, Block.widthReqIn, Block.widthAckIn, Block.flitReceive,
    Block.nakReceive, Block.ackTimer]

@[simp] theorem Block.supplyCommands_boot : (∀ i, (b.packMatch i).boot = b.boot) ∧ (∀ island, (b.ackRise island).boot = b.boot)
    ∧ (∀ level, (b.retAck level).boot = b.boot) := by
  simp [Block.packMatch, Block.ackRise, Block.retAck]

@[simp] theorem Block.cooldownEnd_boot : b.cooldownEnd.boot = b.boot := by
  unfold Block.cooldownEnd; split <;> simp

@[simp] theorem Block.skinReadDone_boot (value : Option (BitVec 16)) : (b.skinReadDone value).boot = b.boot := by
  unfold Block.skinReadDone; split
  · rfl
  · split <;> simp [Block.skinBack]

@[simp] theorem Block.trigPulseEnd_boot (pin : Fin 8) : (b.trigPulseEnd pin).boot = b.boot := by
  unfold Block.trigPulseEnd; split <;> simp

@[simp] theorem Block.flitTimeout_boot (k : Fin 16) : (b.flitTimeout k).boot = b.boot := by
  unfold Block.flitTimeout; split <;> simp

@[simp] theorem Block.readTimeout_boot (tag : BitVec 32) : (b.readTimeout tag).boot = b.boot := by
  unfold Block.readTimeout; split <;> simp

@[simp] theorem Block.packTimeout_boot (i : Dvfs) (delivered : Fin 6) : (b.packTimeout i delivered).boot = b.boot := by
  unfold Block.packTimeout; split <;> simp

@[simp] theorem Block.edgeBeat_boot (ch : Fin 53) (beat : Beat) (early : Bool) : (b.edgeBeat ch beat early).boot = b.boot := by
  unfold Block.edgeBeat; (repeat' split) <;> simp

@[simp] theorem Block.bridgeBeat_boot (sender receiver : Island) (x : Handshake) : (b.bridgeBeat sender receiver x).boot = b.boot := by
  simp only [Block.bridgeBeat]; (repeat' split) <;> simp

@[simp] theorem Block.nvResponse_boot (value : BitVec 32) (err : Bool) : (b.nvResponse value err).boot = b.boot := by
  simp only [Block.nvResponse]; split <;> simp

end

/-! ### Commands that a halt shuts out -/

section
variable {b : Block} (h : b.boot.phase.halted = true)
include h

/-- The commands of boot each ask for a phase that a halt is not. -/
@[simp] theorem Block.bootCommands_of_halted : b.thermosExit = b ∧ b.tporRelease = b ∧ (∀ probe, b.mainRelease probe = b) ∧ b.probeTimeout = b
    ∧ (∀ word value err, b.otpResponse word value err = b) ∧ b.otpTimeout = b ∧ (∀ f, b.slotAttempt f = b) ∧ b.slotTimeout = b
    ∧ b.loadTimeout = b ∧ (∀ populated, b.bringupStart populated = b) ∧ b.bringupTimeout = b ∧ (∀ trained mib, b.trainingDone trained mib = b)
    ∧ (∀ trained mib, b.trainingTimeout trained mib = b) ∧ b.readyEntry = b ∧ (∀ err readback, b.programResponse err readback = b)
    ∧ b.bootMismatch = b := by
  simp [Block.thermosExit, Block.tporRelease, Block.mainRelease, Block.probeTimeout, Block.otpResponse, Block.otpTimeout, Block.slotAttempt,
    Block.slotTimeout, Block.loadTimeout, Block.bringupStart, Block.bringupTimeout, Block.trainingDone, Block.trainingTimeout,
    Block.readyEntry, Block.programResponse, Block.bootMismatch, h]

/-- Negotiation, the settings, the epochs, the power controls and PTM act in READY. -/
@[simp] theorem Block.controlCommands_of_halted : (∀ word value, b.acceptWrite word value = b) ∧ (∀ value, b.helloDone value = b)
    ∧ (∀ r, b.settingsRead r = b) ∧ (∀ r, b.shadowWrite r = b) ∧ (∀ r, b.check r = b) ∧ b.checkComplete = b ∧ (∀ r, b.apply r = b)
    ∧ (∀ r, b.syncShadow r = b) ∧ (∀ dram vack, b.epochBoundary dram vack = b) ∧ (∀ i, b.voltageLower i = b) ∧ b.ptmDue = b
    ∧ b.ptmDeferred = b ∧ (∀ value, b.lostAck value = b) ∧ b.skinReadDue = b ∧ b.skinStale = b ∧ (∀ value, b.budgetWrite value = b)
    ∧ (∀ value, b.skinWrite value = b) ∧ (∀ sensor temp, b.thermalTrip sensor temp = b) ∧ b.pauseRequest = b ∧ b.pauseClear = b
    ∧ b.shutDown = b ∧ b.journalCommit = b := by
  simp [Block.acceptWrite, Block.helloDone, Block.settingsRead, Block.shadowWrite, Block.check, Block.checkComplete, Block.apply,
    Block.syncShadow, Block.epochBoundary, Block.voltageLower, Block.ptmDue, Block.ptmDeferred, Block.lostAck, Block.skinReadDue,
    Block.skinStale, Block.budgetWrite, Block.skinWrite, Block.thermalTrip, Block.pauseRequest, Block.pauseClear, Block.shutDown,
    Block.journalCommit, h]

/-- The sensor path, from the receivers to the solver, runs in READY. -/
@[simp] theorem Block.unitCommands_of_halted : (∀ port p, b.frameStart port p = b) ∧ (∀ port, b.trigNoFrame port = b)
    ∧ (∀ port p, b.frameEnd port p = b) ∧ (∀ port isEnd p, b.lineStart port isEnd p = b) ∧ (∀ port, b.phyError port = b)
    ∧ (∀ slot, b.pollTimer slot = b) ∧ (∀ width, b.syncEdge width = b) ∧ (∀ r, b.syncCmd r = b) ∧ (∀ lane, b.bandStart lane = b)
    ∧ b.foxCutoffDue = b ∧ (∀ reads, b.preintBuild reads = b) ∧ (∀ r, b.prior r = b) ∧ (∀ reads, b.poseAssembly reads = b)
    ∧ (∀ reads, b.predEmit reads = b) ∧ (∀ r, b.owlModelLoad r = b) ∧ (∀ r, b.owlScore r = b) ∧ (∀ use x, b.owlEngineScore use x = b)
    ∧ (∀ cam, b.owlGateLate cam = b) ∧ (∀ slot reloadOk, b.nodeUe slot reloadOk = b) ∧ (∀ x, b.vioAssembly x = b)
    ∧ (∀ r, b.badgerJob r = b) ∧ b.vioReset = b := by
  simp [Block.frameStart, Block.trigNoFrame, Block.frameEnd, Block.lineStart, Block.phyError, Block.pollTimer, Block.syncEdge, Block.syncCmd,
    Block.bandStart, Block.foxCutoffDue, Block.preintBuild, Block.prior, Block.poseAssembly, Block.predEmit, Block.owlModelLoad,
    Block.owlScore, Block.owlEngineScore, Block.owlGateLate, Block.nodeUe, Block.vioAssembly, Block.badgerJob, Block.vioReset, h]

/-- Den, the guests, the host's queues and the trails act in READY; a scrub, a restart and a supply that is late count as detections. -/
@[simp] theorem Block.hostCommands_of_halted : (∀ o, b.mapWrite o = b) ∧ (∀ ms, b.hotColdMove ms = b) ∧ (∀ a found, b.sramScrub a found = b)
    ∧ (∀ a found link, b.dramScrub a found link = b) ∧ b.zqCalibration = b ∧ (∀ r, b.windowOpen r = b) ∧ (∀ r, b.windowClose r = b)
    ∧ (∀ r, b.guestOpen r = b) ∧ (∀ r, b.guestFragment r = b) ∧ (∀ r, b.guestClose r = b)
    ∧ (∀ slot samples, b.guestAlignStart slot samples = b) ∧ (∀ reads, b.guestMerge reads = b) ∧ (∀ slot, b.guestIdle slot = b)
    ∧ (∀ slot, b.guestEvicted slot = b) ∧ (∀ slot, b.guestCooled slot = b) ∧ (∀ q entry, b.commandFetch q entry = b)
    ∧ (∀ q, b.completionWrite q = b) ∧ (∀ r, b.nop r = b) ∧ (∀ r ue, b.streamOpen r ue = b) ∧ (∀ r, b.streamClose r = b)
    ∧ (∀ q, b.qEnable q = b) ∧ (∀ q, b.qDisable q = b) ∧ (∀ q, b.qResume q = b) ∧ (∀ st, b.streamResume st = b)
    ∧ (∀ st, b.streamReset st = b) ∧ (∀ l, b.trainAttempt l = b) ∧ (∀ l, b.laneRetry l = b) ∧ b.rollSend = b ∧ b.rollSettle = b
    ∧ b.joinRetry = b ∧ b.fragAckLate = b ∧ (∀ l rate far, b.laneUp l rate far = b) ∧ (∀ island, b.restartDone island = b)
    ∧ (∀ island, b.ackTimeout island = b) := by
  simp [Block.mapWrite, Block.hotColdMove, Block.sramScrub, Block.dramScrub, Block.zqCalibration, Block.windowOpen, Block.windowClose,
    Block.guestOpen, Block.guestFragment, Block.guestClose, Block.guestAlignStart, Block.guestMerge, Block.guestIdle, Block.guestEvicted,
    Block.guestCooled, Block.commandFetch, Block.completionWrite, Block.nop, Block.streamOpen, Block.streamClose, Block.qEnable,
    Block.qDisable, Block.qResume, Block.streamResume, Block.streamReset, Block.trainAttempt, Block.laneRetry, Block.rollSend,
    Block.rollSettle, Block.joinRetry, Block.fragAckLate, Block.laneUp, Block.restartDone, Block.ackTimeout, h]

@[simp] theorem Block.controlIn_of_halted (type : BitVec 16) (p : Parcel) :
    b.controlIn type p = (none, ((b.received p).verify p .intact b.control).2) := by
  unfold Block.controlIn
  split
  · next e => rw [e]
  · next e => obtain ⟨rfl, -⟩ := Block.verify_some e; simp [e, h]

@[simp] theorem Block.selfTest_of_halted (unit : BitVec 8) (ok : Bool) : b.selfTest unit ok = b := by
  unfold Block.selfTest; split <;> simp [h]

@[simp] theorem Block.helloExpiry_of_halted (waiting : List Instr) : b.helloExpiry waiting = b := by
  unfold Block.helloExpiry; split
  · rfl
  · split <;> simp [h]

@[simp] theorem Block.bootResponse_of_halted (beat : BootBeat) : b.bootResponse beat = b := by
  cases beat <;> simp [Block.bootResponse, h]

@[simp] theorem Block.planCommit_of_halted (p : PlanIn) : b.planCommit p = b := by
  unfold Block.planCommit; split <;> simp [h]

@[simp] theorem Block.voltageRaise_of_halted (i : Dvfs) : b.voltageRaise i = b := by
  unfold Block.voltageRaise; split <;> simp [h]

@[simp] theorem Block.resume_of_halted : b.resume = b := by
  unfold Block.resume; split <;> simp [h]

@[simp] theorem Block.ifcInput_of_halted (slot : Fin 6) (seen : Seen) : b.ifcInput slot seen = b := by
  unfold Block.ifcInput; split <;> simp [h]

@[simp] theorem Block.abort_of_halted (r : CmdRef) : b.abort r = b := by
  unfold Block.abort; split <;> simp [h]

@[simp] theorem Block.dmaRead_of_halted (r : CmdRef) (d : DmaData) : b.dmaRead r d = b := by
  unfold Block.dmaRead; split
  · rfl
  · next e => simpa [h] using List.find?_some e

@[simp] theorem Block.parcelWrite_of_halted (st : Fin 8) (seen : Seen) : b.parcelWrite st seen = b := by
  unfold Block.parcelWrite; extract_lets s; split <;> simp [h]

@[simp] theorem Block.iterationDecide_of_halted (n : Nat) (d : IterIn) : b.iterationDecide n d = b := by
  unfold Block.iterationDecide; split <;> simp [h]

@[simp] theorem Block.badgerDeadline_of_halted (n : Nat) : b.badgerDeadline n = b := by
  unfold Block.badgerDeadline; split
  · rfl
  · split <;> simp [h]

@[simp] theorem Block.bandSeal_of_halted (lane : Fin 8) (reads : Reads) : b.bandSeal lane reads = b := by
  unfold Block.bandSeal; split <;> simp [h]

@[simp] theorem Block.chipLost_of_halted (serial : BitVec 64) : b.chipLost serial = b := by
  unfold Block.chipLost; split <;> simp [h]

@[simp] theorem Block.blockOpDone_boot_of_halted (n : Nat) (tile : Fin 16) (op : BlockOp) (residueOk : Bool) (reads : Reads) :
    (b.blockOpDone n tile op residueOk reads).boot = b.boot := by
  unfold Block.blockOpDone; extract_lets b1; split
  · rfl
  · simp [h, b1]

@[simp] theorem Block.owlSampleResult_boot_of_halted (thread : Fin 32) (index : Nat) : (b.owlSampleResult thread index).boot = b.boot := by
  unfold Block.owlSampleResult; extract_lets b1; split
  · simp [b1]
  · simp [h, b1]

@[simp] theorem Block.bar4Read_boot_of_halted (off len : Nat) : (b.bar4Read off len).boot = b.boot := by
  unfold Block.bar4Read; split
  · rfl
  · extract_lets at_ addrs data; split
    · simp
    · split <;> simp [h]

@[simp] theorem Block.rollReceive_boot_of_halted (k : Fin 16) (p : Parcel) : (b.rollReceive k p).boot = b.boot := by
  unfold Block.rollReceive; split
  · next e => exact Block.boot_of_verify_eq (b := b.received p) h e
  · next e => obtain ⟨rfl, -⟩ := Block.verify_some e; simp [h]

@[simp] theorem Block.assignIn_boot_of_halted (p : Parcel) : (b.assignIn p).boot = b.boot := by
  unfold Block.assignIn; split
  · next e => exact Block.boot_of_verify_eq (b := b.received p) h e
  · next e => obtain ⟨rfl, -⟩ := Block.verify_some e; simp [h]

@[simp] theorem Block.readReqIn_boot_of_halted (src : BitVec 12) (p : Parcel) : (b.readReqIn src p).boot = b.boot := by
  unfold Block.readReqIn; split
  · next e => exact Block.boot_of_verify_eq (b := b.received p) h e
  · next e => obtain ⟨rfl, -⟩ := Block.verify_some e; simp [h]

@[simp] theorem Block.edgeStall_boot_of_halted (ch : Fin 53) : (b.edgeStall ch).boot = b.boot := by
  have lane : ∀ (l : Nat) (c : Block), (c.laneAbsent l).boot = c.boot := by
    intro l c; simp only [Block.laneAbsent]; split <;> simp
  simp [Block.edgeStall, h, lane]

@[simp] theorem Block.trailParcels_boot_of_halted : (∀ tag p, (b.readRespIn tag p).boot = b.boot) ∧ (∀ p, (b.joinIn p).boot = b.boot)
    ∧ (∀ p, (b.joinReplyIn p).boot = b.boot) ∧ (∀ p, (b.fragAckIn p).boot = b.boot) ∧ (∀ p, (b.leaveIn p).boot = b.boot)
    ∧ (∀ p, (b.sealReportIn p).boot = b.boot) ∧ (∀ p, (b.fragIn p).boot = b.boot) := by
  simp [Block.readRespIn, Block.joinIn, Block.joinReplyIn, Block.fragAckIn, Block.leaveIn, Block.sealReportIn, Block.fragIn, h]

@[simp] theorem Block.watchdogs_boot_of_halted : (∀ sender receiver unit, (b.bridgeWatchdog sender receiver unit).boot = b.boot)
    ∧ (∀ island, (b.ackFall island).boot = b.boot) := by
  simp [Block.bridgeWatchdog, Block.ackFall, h]

end

/-! ### Register writes -/

theorem ite_ne_soft {c : Prop} [Decidable c] {x y : RegAccess} (hx : x ≠ .soft) (hy : y ≠ .soft) : (if c then x else y) ≠ .soft := by
  split <;> assumption

/-- SOFT_RESET is at 0x210 alone. -/
theorem eq_of_regAccess_soft {off : Nat} (e : regAccess off = .soft) : off = 0x210 := by
  by_contra hoff
  revert e
  unfold regAccess lowAccess queueAccess streamAccess counterAccess
  rw [if_neg hoff]
  repeat' apply ite_ne_soft
  all_goals (repeat' split) <;> nofun

theorem Block.msixWrites_boot (b : Block) (ws : List (Nat × BitVec 32)) : (ws.foldl (fun b w => b.msixWrite w.1 w.2) b).boot = b.boot := by
  induction ws generalizing b with
  | nil => rfl
  | cons w ws ih => rw [List.foldl_cons, ih, Block.msixWrite_boot]

theorem softKey_iff {v : BitVec 32} : softKey v ↔ (v.getLsbD 16 && v.extractLsb' 0 16 == 0xC3A5) = true := by
  simp [softKey]

theorem resets_softReset {v : BitVec 32} (hv : softKey v) : Resets (.softReset v) := by simp [Resets, hv]

theorem resets_softResetWrite {n : Nat} {v : BitVec 64} (hv : softKey (v.setWidth 32)) : Resets (.registerWrite (.bar0 0x210 n v)) := by
  simp [Resets, hv]

/-- A SOFT_RESET without its key is counted and nothing more. -/
theorem Block.softReset_boot_of_not_softKey {b : Block} {v : BitVec 32} (hv : ¬softKey v) : (b.softReset v).boot = b.boot := by
  unfold Block.softReset
  split
  · rfl
  · split
    · next hk => exact absurd (by simpa [softKey] using hk) hv
    · simp

/-- The words of an access that is aligned and is no keyed SOFT_RESET write no key to SOFT_RESET. -/
theorem softKey_of_accessWords {off size : Nat} {value : BitVec 64} (hal : ((size = 4 || size = 8) && off % size == 0) = true)
    (hr : ¬Resets (.registerWrite (.bar0 off size value))) {w : Nat × BitVec 32} (hw : w ∈ accessWords off size value)
    (e : regAccess w.1 = .soft) : ¬softKey w.2 := by
  have lower : off = 0x210 → ¬softKey (value.setWidth 32) := by
    rintro rfl hk
    exact hr (resets_softResetWrite hk)
  have at_ : w.1 = 0x210 := eq_of_regAccess_soft e
  unfold accessWords at hw
  split at hw
  · next h8 =>
    rcases List.mem_pair.mp hw with rfl | rfl
    · exact lower at_
    · simp [h8] at hal at_
      omega
  · obtain rfl := List.mem_singleton.mp hw
    exact lower at_

section
variable {b : Block} (h : b.boot.phase.halted = true)
include h

/-- In a halt a word written does nothing, but a SOFT_RESET with its key. -/
theorem Block.wordWrite_of_halted {off : Nat} {v : BitVec 32} (hv : regAccess off = .soft → ¬softKey v) : b.wordWrite off v = b := by
  unfold Block.wordWrite
  split
  · next e =>
    have hk := Bool.eq_false_iff.mpr (mt softKey_iff.mpr (hv e))
    have bad : b.wordBad off v = true := by simp only [Block.wordBad, e, hk, Bool.not_false]
    rw [if_pos bad]
  · simp [h]
  · rfl

theorem Block.wordWrites_of_halted {ws : List (Nat × BitVec 32)} (hws : ∀ w ∈ ws, regAccess w.1 = .soft → ¬softKey w.2) :
    ws.foldl (fun b w => b.wordWrite w.1 w.2) b = b := by
  induction ws with
  | nil => rfl
  | cons w ws ih =>
    rw [List.foldl_cons, Block.wordWrite_of_halted h (hws w List.mem_cons_self)]
    exact ih fun x hx => hws x (List.mem_cons_of_mem _ hx)

theorem Block.bar0Write_boot_of_halted {off size : Nat} {value : BitVec 64} (hr : ¬Resets (.registerWrite (.bar0 off size value))) :
    (b.bar0Write off size value).boot = b.boot := by
  unfold Block.bar0Write
  generalize inBlock 0xE000 0x200 off = inTable
  generalize inBlock 0xF000 8 off = inPba
  extract_lets aligned ws
  split
  · split
    · exact b.msixWrites_boot ws
    · rfl
  · split
    · rfl
    · split
      · simp
      · next b1 b2 _ _ hal =>
        have h1 : b1.boot = b.boot := by simp [b1]
        have h2 : b2.boot = b.boot := by simp only [b2]; split <;> simp [h1]
        have hal : aligned = true := by simpa using hal
        rw [Block.wordWrites_of_halted (by rwa [h2]) fun w => softKey_of_accessWords hal hr, h2]

theorem Block.registerWrite_boot_of_halted {w : RegWrite} (hr : ¬Resets (.registerWrite w)) : (b.registerWrite w).boot = b.boot := by
  unfold Block.registerWrite
  split
  · rfl
  · cases w with
    | bar0 off size value => exact Block.bar0Write_boot_of_halted h hr
    | busMaster on => simp [Block.busMasterOff]
    | ptmControl on => simp [Block.ptmControl]
    | msixControl on => simp
    | linkPm code => simp

end

/-! ### The step out of a halt, and the steps that stay in it -/

/-- In a halt every command but a reset leaves the whole boot state: its effect is one that a halt shuts out, or one that leaves the boot state
anyway, by the lemmas above. -/
theorem exec_boot_of_halted {c : Instr} {s t : State} (h : s.boot.phase.halted = true) (hr : ¬Resets c) (e : exec c s = .next t) :
    t.boot = s.boot := by
  cases c with
  | resetNFall => simp [Resets] at hr
  | mainBrownout r => simp [Resets] at hr
  | coldThermosPor => simp [Resets] at hr
  | thermosArbitration a f => simp [Resets] at hr
  | softReset v => cases e; exact Block.softReset_boot_of_not_softKey fun hv => hr (resets_softReset hv)
  | registerWrite w => cases e; exact Block.registerWrite_boot_of_halted h hr
  | _ => cases e; simp [h]

/-! ### The commands that leave a halt -/

theorem completes_of_act {c : Instr} {s : State} {f : Block → Block} {P : Block → Prop} (e : exec c s = s.act f) (hP : P (f s.toBlock)) :
    Completes c s P :=
  ⟨{ s with toBlock := f s.toBlock }, e, rfl, hP⟩

theorem Block.mainPor_phase (keepLink : Bool) (b : Block) : (b.mainPor keepLink).boot.phase = .mainPor := rfl

section
variable {b : Block} (h : b.boot.phase.halted = true)
include h

theorem Block.resetFall_phase_of_halted : b.resetFall.boot.phase = .mainPor := by
  simp [Block.resetFall, Block.mainPor_phase, h]

/-- A brown-out while RESET_N is high is one that the block sees. -/
theorem Block.mainBrownout_phase_of_halted (r : BitVec 8) (hn : b.pins.resetN = true) : (b.mainBrownout r).boot.phase = .mainPor := by
  simp [Block.mainBrownout, Block.mainPor_phase, h, hn]

theorem Block.softReset_of_softKey {v : BitVec 32} (hv : softKey v) : b.softReset v = b.mainPor true := by
  obtain ⟨hbit, hkey⟩ := hv
  simp [Block.softReset, h, hkey, hbit]

/-- A keyed write to SOFT_RESET is the command SOFT_RESET (R647). -/
theorem Block.registerWrite_softReset {v : BitVec 64} (hv : softKey (v.setWidth 32)) :
    b.registerWrite (.bar0 0x210 4 v) = b.mainPor true := by
  have kept : b.clearWrite 0x210 (v.setWidth 32) = b := by simp [Block.clearWrite, regAccess, lowAccess]
  have good : b.wordBad 0x210 (v.setWidth 32) = false := by
    simpa [Block.wordBad, regAccess, lowAccess] using softKey_iff.mp hv
  have word : b.wordWrite 0x210 (v.setWidth 32) = b.softReset (v.setWidth 32) := by
    simp only [Block.wordWrite, regAccess, lowAccess, good]; rfl
  have write : b.bar0Write 0x210 4 v = b.wordWrite 0x210 (v.setWidth 32) := by
    simp [Block.bar0Write, accessWords, inBlock, kept, good]
  simp [Block.registerWrite, h, write, word, Block.softReset_of_softKey h hv]

end

/-- Settles O56: a halt's guards and its silenced faults leave the boot state to every command but the resets, and each reset enters MAIN_POR. -/
theorem haltsHold : Obligations.HaltsHold := by
  unfold Obligations.HaltsHold
  simp only [← BootPhase.halted_iff]
  refine ⟨?kept, ?left, ?brownout⟩
  case kept =>
    intro c s t e h hr
    rw [exec_boot_of_halted h hr e]
  case left =>
    rintro s c h (rfl | ⟨v, rfl, hv⟩ | ⟨v, rfl, hv⟩)
    · exact completes_of_act rfl (Block.resetFall_phase_of_halted h)
    · exact completes_of_act rfl (by rw [Block.softReset_of_softKey h hv, Block.mainPor_phase])
    · exact completes_of_act rfl (by rw [Block.registerWrite_softReset h hv, Block.mainPor_phase])
  case brownout =>
    intro s r h hn
    exact completes_of_act rfl (Block.mainBrownout_phase_of_halted h r hn)

end Sys2Proof.Machine
end

section
/-! PROOF. The swap of the settings sets (R98). What an epoch's end does before the swap, and all that its start does after it, leaves the settings
as they are; so the boundary leaves the settings that `Block.swapSets` makes of those it found. READY keeps the generation that the load set. -/

namespace Sys2Proof.Machine

/-! ### The swap itself -/

/-- The settings after the swap at the boundary of an epoch (R98). -/
def Cfg.swapped (epoch : Nat) (c : Cfg) : Cfg :=
  { c with active := c.shadow, shadow := c.active, shadowState := .stale, gen := c.gen + 1
           lastSwap := BitVec.ofNat 64 epoch, armed := none }

/-- The note of the SEQs that a command drew touches the host link alone. -/
theorem Block.forCmd_cfg_owl (r : CmdRef) (f : Block → Block) (b : Block) :
    (b.forCmd r f).cfg = (f b).cfg ∧ (b.forCmd r f).owl = (f b).owl := by
  simp [Block.forCmd]

theorem Block.swapSets_cfg {b : Block} {a : Armed} (n : Nat) (h : b.cfg.armed = some a) :
    (b.swapSets n).cfg = b.cfg.swapped n := by
  cases ho : a.owner <;> simp [Block.swapSets, h, ho, Block.forCmd_cfg_owl, Cfg.swapped]

@[simp] theorem Block.swapSets_owl (n : Nat) (b : Block) : (b.swapSets n).owl = b.owl := by
  cases h : b.cfg.armed with
  | none => simp [Block.swapSets, h]
  | some a => cases ho : a.owner <;> simp [Block.swapSets, h, ho, Block.forCmd_cfg_owl]

/-! ### The end of an epoch -/

@[simp] theorem Block.portRecords_keeps (k : Nat) (b : Block) : (b.portRecords k).cfg = b.cfg ∧ (b.portRecords k).owl = b.owl
    ∧ (b.portRecords k).pwr = b.pwr := by
  simp [Block.portRecords]

@[simp] theorem Block.ifcRecords_keeps (g : Nat) (b : Block) : (b.ifcRecords g).cfg = b.cfg ∧ (b.ifcRecords g).owl = b.owl
    ∧ (b.ifcRecords g).pwr = b.pwr := by
  simp [Block.ifcRecords]

/-- The end of an epoch whose POSE is sealed emits its counter records and counts for CARRY_LIMIT. -/
theorem Block.endEpoch_keeps {b : Block} (h : b.afu.posed = true) :
    b.endEpoch.cfg = b.cfg ∧ b.endEpoch.owl = b.owl ∧ b.endEpoch.pwr = b.pwr := by
  simp [Block.endEpoch, Block.counterRecords, h]

/-! ### What the boundary does beside the swap -/

section
variable (b : Block)

@[simp] theorem Block.closeFrames_keeps (ks : List Nat) : (b.closeFrames ks).cfg = b.cfg ∧ (b.closeFrames ks).owl = b.owl := by
  simp [Block.closeFrames]

@[simp] theorem Block.reconfigure_keeps (new : List Memory) (t : Tick) (c : Nat) :
    (b.reconfigure new t c).cfg = b.cfg ∧ (b.reconfigure new t c).owl = b.owl := by
  simp [Block.reconfigure]

@[simp] theorem Block.rescaleLater_keeps (new : List Memory) (t : Tick) (c : Nat) :
    (b.rescaleLater new t c).cfg = b.cfg ∧ (b.rescaleLater new t c).owl = b.owl := by
  simp [Block.rescaleLater]

@[simp] theorem Block.stopUnits_keeps (new : List Memory) (t : Tick) :
    (b.stopUnits new t).cfg = b.cfg ∧ (b.stopUnits new t).owl = b.owl := by
  simp [Block.stopUnits]

@[simp] theorem Block.leaveJob_keeps (new : List Memory) : (b.leaveJob new).cfg = b.cfg ∧ (b.leaveJob new).owl = b.owl := by
  simp only [Block.leaveJob]
  split <;> simp

@[simp] theorem Block.restPins_keeps (old : List Memory) : (b.restPins old).cfg = b.cfg ∧ (b.restPins old).owl = b.owl := by
  refine Prod.mk.inj (foldl_keeps (fun b => (b.cfg, b.owl)) _ (fun b pin => ?_) _ b)
  split <;> simp

@[simp] theorem Block.startSlots_keeps (old : List Memory) (t : Tick) :
    (b.startSlots old t).cfg = b.cfg ∧ (b.startSlots old t).owl = b.owl := by
  simp [Block.startSlots]

@[simp] theorem Block.foxSwap_keeps (old : List Memory) : (b.foxSwap old).cfg = b.cfg ∧ (b.foxSwap old).owl = b.owl := by
  simp [Block.foxSwap]

/-- With no Owl job in the list, none ends with its slot. -/
theorem Block.owlSwap_of_no_jobs {b : Block} (old : List Memory) (h : b.owl.jobs = []) : b.owlSwap old = b := by
  simp [Block.owlSwap, h]

@[simp] theorem Block.evictAll_cfg : b.evictAll.cfg = b.cfg := by
  simp [Block.evictAll]

@[simp] theorem Block.trailSwap_cfg (old : List Memory) : (b.trailSwap old).cfg = b.cfg := by
  simp [Block.trailSwap]

@[simp] theorem Block.applyFeatures_cfg (made : Tick) : (b.applyFeatures made).cfg = b.cfg := by
  simp [Block.applyFeatures]

@[simp] theorem Block.stepRate_cfg (n : Nat) (t made : Tick) (cap : Nat) : (b.stepRate n t made cap).cfg = b.cfg := by
  simp [Block.stepRate]

@[simp] theorem Block.readDram_cfg (ds : List DramTemp) : (b.readDram ds).cfg = b.cfg := by
  simp [Block.readDram]

@[simp] theorem Block.chooseInertial_cfg : b.chooseInertial.cfg = b.cfg := rfl

@[simp] theorem Block.freshEpoch_cfg (n : Nat) (t len : Tick) (p : Plan) (mw : BitVec 16) : (b.freshEpoch n t len p mw).cfg = b.cfg := rfl

@[simp] theorem Block.sweep_cfg : b.sweep.cfg = b.cfg := rfl

@[simp] theorem Block.fragAcks_cfg : b.fragAcks.cfg = b.cfg := by
  unfold Block.fragAcks
  split
  · refine foldl_cfg _ (fun b s => ?_) _ _
    dsimp only
    split <;> simp
  · rfl

@[simp] theorem Block.memberTurn_cfg : b.memberTurn.cfg = b.cfg := by
  simp [Block.memberTurn]

end

/-! ### The start of an epoch whose swap is armed -/

/-- Of all that stops, starts and changes at the swap (R25, R98 to R100), `Block.swapSets` alone changes the settings. -/
theorem Block.swapAt_cfg {b : Block} {a : Armed} (n : Nat) (t : Tick) (ha : b.cfg.armed = some a) (hj : b.owl.jobs = []) :
    (b.swapAt n t).cfg = b.cfg.swapped n := by
  have stopped : (((b.stopUnits b.cfg.shadow t).leaveJob b.cfg.shadow).swapSets n).cfg = b.cfg.swapped n := by
    rw [Block.swapSets_cfg (a := a)] <;> simp [ha]
  simp [Block.swapAt, Block.owlSwap_of_no_jobs, hj, stopped]

/-- The boundary that starts the armed epoch makes the swap, and leaves no other one armed. -/
theorem Block.startEpoch_cfg_of_armed {b : Block} {a : Armed} {n : Nat} (t : Tick) (ds : List DramTemp) (v : PPoints) (resume : Bool)
    (ha : b.cfg.armed = some a) (hn : a.epoch = n) (hj : b.owl.jobs = []) :
    (b.startEpoch n t ds v resume).cfg = b.cfg.swapped n := by
  unfold Block.startEpoch
  extract_lets len _ _ b0 b1 plan arm b2 b3 b4 mask fall plan1 b5 b6 top b7 b8 cfg8 b9 _
  obtain ⟨h1, hj1⟩ : b1.cfg = b.cfg ∧ b1.owl = b.owl := by simp [b1, b0]
  have harm : arm = some a := by simp [arm, ha, hn]
  have h2 : b2.cfg = b.cfg.swapped n := by
    simp only [b2, harm, Option.isSome_some, if_true]
    rw [Block.swapAt_cfg n t (a := a) (by rw [h1, ha]) (by rw [hj1, hj]), h1]
  have h4 : b4.cfg = b2.cfg := by simp [b4, b3, Block.rebase]
  have h7 : b7.cfg = b4.cfg := by simp [b7, b6, b5]
  have h8 : b8.cfg = b.cfg.swapped n := by simp [b8, h7, h4, h2]
  -- with no swap armed, no armed boundary moves
  have h9 : b9.cfg = b.cfg.swapped n := by simp [b9, cfg8, h8, Cfg.swapped]
  simp [h9]

/-- A boundary that is reached, with the POSE of its epoch sealed and no pause asked for, makes the swap armed for the epoch that it starts. -/
theorem Block.epochBoundary_cfg_of_armed {b : Block} {a : Armed} (ds : List DramTemp) (v : PPoints)
    (hready : b.boot.phase = .ready) (hrun : b.ep.running = true) (hpaused : b.pwr.paused = false) (hdue : b.ep.nextBoundary ≤ b.now)
    (hposed : b.afu.posed = true) (hreq : b.pwr.pauseReq = none) (hj : b.owl.jobs = []) (ha : b.cfg.armed = some a)
    (hn : a.epoch = b.ep.now.toNat + 1) : (b.epochBoundary ds v).cfg = b.cfg.swapped (b.ep.now.toNat + 1) := by
  obtain ⟨hcfg, howl, hpwr⟩ := Block.endEpoch_keeps hposed
  have reached : (b.ready && b.ep.running && !b.pwr.paused && decide (b.ep.nextBoundary ≤ b.now)) = true := by
    simp [Block.ready, hready, hrun, hpaused, hdue]
  have noPause : b.endEpoch.pauseDue b.ep.nextBoundary = false := by simp [Block.pauseDue, hpwr, hreq]
  have start := Block.startEpoch_cfg_of_armed (b := b.endEpoch) b.ep.nextBoundary ds v false (by rw [hcfg, ha]) hn (by rw [howl, hj])
  simp only [Block.epochBoundary, reached, noPause, if_true, Bool.false_eq_true, if_false, start, hcfg]

/-! ### The generation at READY -/

@[simp] theorem Block.startUnits_cfg (b : Block) : b.startUnits.cfg = b.cfg := by
  simp [Block.startUnits]

@[simp] theorem Block.rollStep_cfg (b : Block) : b.rollStep.cfg = b.cfg := by
  unfold Block.rollStep
  (repeat' split) <;> simp

/-- READY starts the units and epoch 0 under the settings that it finds. -/
theorem Block.readyEntry_cfg (b : Block) : b.readyEntry.cfg = b.cfg := by
  simp [Block.readyEntry]

/-- A slot that fails discards what it loaded: the settings are at reset but for CHECK_RESULT and OWL_STATUS (R68, R650). -/
theorem Block.slotFails_cfg (cause : BitVec 8) (b : Block) :
    (b.slotFails cause).cfg = { result := b.cfg.result, modelErr := b.cfg.modelErr } := by
  have discarded : b.discardLoad.cfg = { result := b.cfg.result, modelErr := b.cfg.modelErr } := rfl
  cases h : b.boot.order <;> simp [Block.slotFails, h, Block.haltNoBoot, discarded]

theorem Block.settingsLoad_gen (rd : SlotRead) (b : Block) : (b.settingsLoad rd).cfg.gen = 0 := by
  unfold Block.settingsLoad
  split
  · rfl
  · rw [Block.slotFails_cfg]

/-- Settles O15: of all that a boundary does the swap alone changes the settings; a load leaves the generation at zero, and READY_ENTRY keeps it. -/
theorem swapOfSets : Obligations.SwapOfSets := by
  unfold Obligations.SwapOfSets
  refine ⟨?swap, ?boundary, ?ready, ?load⟩
  case swap =>
    intro b n a ha
    exact Block.swapSets_cfg n ha
  case boundary =>
    intro s ds v a hready hrun hpaused hdue hposed hreq hj ha hn
    have e := Block.epochBoundary_cfg_of_armed ds v hready hrun hpaused hdue hposed hreq hj ha hn
    exact completes_of_act rfl (by simp [e, Cfg.swapped])
  case ready =>
    intro s _ _ hgen
    exact completes_of_act rfl (by rw [Block.readyEntry_cfg, hgen])
  case load =>
    intro b rd
    exact Block.settingsLoad_gen rd b

end Sys2Proof.Machine
end

section
/-! PROOF. The time base and its epoch (O55, R114 and R115). Of all commands six alone touch TB or TB_EPOCH. For every other one
the definitions it is built from keep the two, one lemma per definition, in the order of the model's chapters; `exec_timeBase`
puts them together, and the six are taken one by one at the end. -/

namespace Sys2Proof.Machine

/-- The time base and its epoch, the two registers R114 and R115 speak of. -/
def Thermos.timeBase (t : Thermos) : BitVec 64 × BitVec 32 := (t.tb, t.tbEpoch)

@[simp] theorem Thermos.timeBase_mk (tb : BitVec 64) (frac : BitVec 8) (epoch : BitVec 32) (src : TbSource) (refRuns onVbk xtal lost : Bool)
    (cause : BitVec 8) (nv : NvOp) (since : Nat) (journal : Memory) (ue : BitVec 2) (count read : BitVec 32) :
    Thermos.timeBase ⟨tb, frac, epoch, src, refRuns, onVbk, xtal, lost, cause, nv, since, journal, ue, count, read⟩ = (tb, epoch) := (rfl)

@[simp] theorem Thermos.timeBase_eta (t : Thermos) : (t.tb, t.tbEpoch) = t.timeBase := (rfl)

@[simp] theorem Thermos.timeBase_sourced (t : Thermos) : t.sourced.timeBase = t.timeBase := (rfl)

@[simp] theorem Thermos.timeBase_brown (kind rails outcome : Nat) (t : Thermos) : (t.brown kind rails outcome).timeBase = t.timeBase := by
  simp [Thermos.brown]

@[simp] theorem ite_timeBase (c : Prop) [Decidable c] (x y : Thermos) :
    (if c then x else y).timeBase = if c then x.timeBase else y.timeBase := apply_ite Thermos.timeBase c x y

@[simp] theorem foldl_timeBase {α : Type} (f : Block → α → Block) (h : ∀ b x, (f b x).thermos.timeBase = b.thermos.timeBase) (l : List α) (b : Block) :
    (l.foldl f b).thermos.timeBase = b.thermos.timeBase :=
  foldl_keeps (fun b => b.thermos.timeBase) f h l b

@[simp] theorem foldl_fst_timeBase {α β : Type} (f : Block × β → α → Block × β)
    (h : ∀ b x, (f b x).1.thermos.timeBase = b.1.thermos.timeBase) (l : List α) (b : Block × β) :
    (l.foldl f b).1.thermos.timeBase = b.1.thermos.timeBase :=
  foldl_keeps (fun y => y.1.thermos.timeBase) f h l b

@[simp] theorem Block.forCmd_thermos (r : CmdRef) (f : Block → Block) (b : Block) : (b.forCmd r f).thermos = (f b).thermos := by
  simp [Block.forCmd]

@[simp] theorem Block.begin_timeBase {run : Cmd → Block → Block} (h : ∀ c b, (run c b).thermos.timeBase = b.thermos.timeBase)
    (r : CmdRef) (op : Nat) (inRange : Cmd → Bool) (b : Block) : (b.begin r op inRange run).thermos.timeBase = b.thermos.timeBase := by
  rcases begin_cases r op inRange run b with ⟨-, e⟩ | ⟨c, -, ⟨-, e⟩ | ⟨-, -, e⟩ | ⟨-, -, e⟩⟩ <;> simp [e, h]

/-- Said of an arbitrary record body: reducing the body would lay its bytes out. -/
@[simp] theorem Block.journal_timeBase (halt : Option Bytes) (b : Block) : (b.journal halt).thermos.timeBase = b.thermos.timeBase := by
  unfold Block.journal
  extract_lets _ _ _ _ _ h2 body
  clear_value h2 body
  rfl

@[simp] theorem Block.faultHalt_timeBase (cause island : Nat) (b : Block) : (b.faultHalt cause island).thermos.timeBase = b.thermos.timeBase := by
  simp [Block.faultHalt]

/-- A read that gave `a` and left `b`: what the read keeps, `b` has. A branch of a definition that takes a pair apart is settled by it. -/
theorem timeBase_of_eq {α : Type} {x : α × Block} {a : α} {b : Block} (e : x = (a, b)) :
    b.thermos.timeBase = x.2.thermos.timeBase := by rw [e]

theorem timeBase_of_fst_eq {α : Type} {x : Block × α} {a : α} {b : Block} (e : x = (b, a)) :
    b.thermos.timeBase = x.1.thermos.timeBase := by rw [e]

/-! ### Faults (chapter 16) -/

@[simp] theorem Block.redoLane_timeBase (lane : Nat) (b : Block) :
    (b.redoLane lane).thermos.timeBase = b.thermos.timeBase := by
  unfold Block.redoLane
  exact foldl_timeBase _ (fun b cam => foldl_timeBase _ (fun b f => foldl_timeBase _ (fun b i => by simp) _ b) _ b) _ b

/-- A posting finds room in the pool or it does not. The definition is unfolded as a function, before it is applied: reducing
the match on `poolRoom` at a given block would have the kernel count down from the pool's size. -/
theorem Block.newPosting_cases {P : Block → Prop} {key id prev : Nat} {ins : List InRef} {b : Block}
    (room : ∀ a body, P (((b.poolTake (a + 128)).putMap .postings a body ins).postAt key a 1)) (full : P (b.mapFull 4)) :
    P (b.newPosting key id prev ins) := by
  have any : ∀ f, f = Block.newPosting → P (f key id prev ins b) := by
    intro f hf
    delta Block.newPosting at hf
    subst hf
    beta_reduce
    cases b.poolRoom 128 with
    | none => exact full
    | some a => exact room a _
  exact any _ rfl

@[simp] theorem Block.newPosting_thermos (key id prev : Nat) (ins : List InRef) (b : Block) :
    (b.newPosting key id prev ins).thermos = b.thermos := by
  refine Block.newPosting_cases (P := fun c => c.thermos = b.thermos) (fun a body => ?_) ?_
  · rw [(Block.postAt_frame ..).1, (Block.putMap_frame ..).1, (Block.poolTake_frame ..).1]
  · rw [(Block.mapFull_frame ..).1]

@[simp] theorem Block.postSample_timeBase (key id : Nat) (ins : List InRef) (b : Block) :
    (b.postSample key id ins).thermos.timeBase = b.thermos.timeBase := by
  unfold Block.postSample
  (repeat' split) <;> simp

/-- `noted` says the change of one flag for an arbitrary block: at the block reached, comparing the two sides would lay out its log. -/
@[simp] theorem Block.loopEnd_thermos (j : Job) (e : JobEnd) (b : Block) : (b.loopEnd j e).thermos = b.thermos := by
  have noted : ∀ c : Block, c.thermos = b.thermos → { c with badger := { c.badger with pendLoop := true } }.thermos = b.thermos :=
    fun _ h => h
  unfold Block.loopEnd
  extract_lets ps
  split
  extract_lets refused
  have told : ∀ b, (refused b).thermos = b.thermos := by simp [refused]
  split
  · extract_lets r
    split
    refine noted _ ?_
    rw [foldl_thermos]
    · rw [(Block.publish_frame ..).1]
    · intro b p
      rw [(Block.correctKf_frame ..).1]
  · simp [told]
  · simp [told]

@[simp] theorem Block.hostEnd_timeBase (j : Job) (e : JobEnd) (b : Block) : (b.hostEnd j e).thermos.timeBase = b.thermos.timeBase := by
  simp only [Block.hostEnd]
  (repeat' split) <;> simp

@[simp] theorem Block.jobEnd_timeBase (n : Nat) (e : JobEnd) (b : Block) : (b.jobEnd n e).thermos.timeBase = b.thermos.timeBase := by
  unfold Block.jobEnd
  (repeat' split) <;> simp

@[simp] theorem Block.jobsWithoutTiles_timeBase (b : Block) : b.jobsWithoutTiles.thermos.timeBase = b.thermos.timeBase := by
  simp [Block.jobsWithoutTiles]

@[simp] theorem Block.islandRestarts_timeBase (b : Block) :
    (∀ i, (b.islandFailed i).thermos.timeBase = b.thermos.timeBase)
    ∧ (∀ i cause unit asmOnly, (b.islandRestart i cause unit asmOnly).thermos.timeBase = b.thermos.timeBase) := by
  simp [Block.islandFailed, Block.islandRestart]

@[simp] theorem Block.fence_timeBase (unit cause : BitVec 8) (k : Fenceable) (b : Block) :
    (b.fence unit cause k).thermos.timeBase = b.thermos.timeBase := by
  unfold Block.fence
  (repeat' split) <;> simp

@[simp] theorem Block.blame_timeBase (unit : BitVec 8) (cause : Nat) (b : Block) : (b.blame unit cause).thermos.timeBase = b.thermos.timeBase := by
  unfold Block.blame
  (repeat' split) <;> simp

@[simp] theorem Block.bridgeFault_timeBase (i : Nat) (unit : Option (BitVec 8)) (cause : Nat) (b : Block) :
    (b.bridgeFault i unit cause).thermos.timeBase = b.thermos.timeBase := by
  unfold Block.bridgeFault
  (repeat' split) <;> simp

@[simp] theorem Block.integrityFault_timeBase (p : Parcel) (verifier cause : BitVec 8) (b : Block) :
    (b.integrityFault p verifier cause).thermos.timeBase = b.thermos.timeBase := by
  unfold Block.integrityFault
  (repeat' split) <;> simp

@[simp] theorem Block.settingsLost_timeBase (a : Nat) (b : Block) : (b.settingsLost a).thermos.timeBase = b.thermos.timeBase := by
  unfold Block.settingsLost
  (repeat' split) <;> simp

@[simp] theorem Block.memFault_timeBase (a : Nat) (b : Block) : (b.memFault a).thermos.timeBase = b.thermos.timeBase := by
  unfold Block.memFault
  (repeat' split) <;> simp

@[simp] theorem Block.poolFault_timeBase (b : Block) : b.poolFault.thermos.timeBase = b.thermos.timeBase := by
  simp [Block.poolFault]

@[simp] theorem Block.readObjects_timeBase (as : List Nat) (b : Block) :
    (b.readObjects as).thermos.timeBase = b.thermos.timeBase := by
  refine foldl_timeBase _ (fun b a => ?_) _ b
  split <;> simp

/-! ### Reads of parcels (R174) -/

@[simp] theorem Block.verify_timeBase (p : Parcel) (seen : Seen) (verifier : BitVec 8) (b : Block) :
    (b.verify p seen verifier).2.thermos.timeBase = b.thermos.timeBase := by
  unfold Block.verify
  (repeat' split) <;> simp

@[simp] theorem Block.verifyAll_timeBase (reads : Reads) (unit : BitVec 8) (ps : List Parcel) (b : Block) :
    (b.verifyAll reads unit ps).2.thermos.timeBase = b.thermos.timeBase := by
  induction ps generalizing b with
  | nil => rfl
  | cons p ps ih =>
    unfold Block.verifyAll
    split
    · next e => simp [ih, timeBase_of_eq e]
    · next e => simp [timeBase_of_eq e]

@[simp] theorem Block.verifyRefs_timeBase (rs : List InRef) (reads : Reads) (unit : BitVec 8) (b : Block) :
    (b.verifyRefs rs reads unit).2.thermos.timeBase = b.thermos.timeBase := by
  simp [Block.verifyRefs]

/-! ### The inertial chain and the sensor commands (chapter 07) -/

@[simp] theorem Block.ifcSample_timeBase (c slot : Nat) (stamp : Tick) (code : BitVec 8) (ovr : Bool) (raw : BitVec 32) (src : InRef) (b : Block) :
    (b.ifcSample c slot stamp code ovr raw src).thermos.timeBase = b.thermos.timeBase := by
  unfold Block.ifcSample
  extract_lets x rate prev delta k enter inp last b1
  have entered : ∀ i b, (enter i b).thermos = b.thermos := by simp [enter]
  have h1 : b1.thermos.timeBase = b.thermos.timeBase := by
    simp only [b1]
    split
    · simp
    · split
      · rfl
      · split
        · refine (foldl_timeBase _ (fun b j => ?_) _ _).trans (by simp)
          dsimp only [last]
          split <;> simp [entered]
        · simp
  split
  · rfl
  · simp [entered, h1]

@[simp] theorem Block.ifcCommands_timeBase (b : Block) :
    (∀ slot p, (b.ifcTake slot p).thermos.timeBase = b.thermos.timeBase) ∧ (∀ group, (b.ifcOutTimer group).thermos.timeBase = b.thermos.timeBase)
    ∧ (∀ ch set, (b.coefRefused ch set).thermos.timeBase = b.thermos.timeBase) ∧ b.syncWake.thermos.timeBase = b.thermos.timeBase := by
  simp [Block.ifcTake, Block.ifcOutTimer, Block.coefRefused, Block.syncWake]

@[simp] theorem Block.ifcInput_timeBase (slot : Fin 6) (seen : Seen) (b : Block) : (b.ifcInput slot seen).thermos.timeBase = b.thermos.timeBase := by
  simp only [Block.ifcInput]
  (repeat' split) <;> simp

@[simp] theorem Block.trigPulseEnd_timeBase (pin : Fin 8) (b : Block) : (b.trigPulseEnd pin).thermos.timeBase = b.thermos.timeBase := by
  unfold Block.trigPulseEnd
  (repeat' split) <;> simp

@[simp] theorem Block.syncFrom_timeBase (bit : Nat) (stamp : Tick) (b : Block) : (b.syncFrom bit stamp).1.thermos.timeBase = b.thermos.timeBase := by
  unfold Block.syncFrom
  (repeat' split) <;> simp

@[simp] theorem Block.syncCommands_timeBase (b : Block) :
    (∀ width, (b.syncEdge width).thermos.timeBase = b.thermos.timeBase) ∧ (∀ r, (b.syncCmd r).thermos.timeBase = b.thermos.timeBase) := by
  simp [Block.syncEdge, Block.syncCmd]

/-! ### Fox (chapter 08) -/

@[simp] theorem Block.foxSteps_timeBase (b : Block) :
    (∀ f, (b.under f).thermos.timeBase = b.thermos.timeBase) ∧ (∀ cam fs index g, (b.onBand cam fs index g).thermos.timeBase = b.thermos.timeBase)
    ∧ (∀ lane cam f x reads, (b.verifyLines lane cam f x reads).thermos.timeBase = b.thermos.timeBase)
    ∧ (∀ lane cam f x w, (b.bandSealed lane cam f x w).thermos.timeBase = b.thermos.timeBase) ∧ b.foxCutoffDue.thermos.timeBase = b.thermos.timeBase := by
  simp [Block.under, Block.onBand, Block.verifyLines, Block.bandSealed, Block.foxCutoffDue]

@[simp] theorem Block.bandStart_timeBase (lane : Fin 8) (b : Block) : (b.bandStart lane).thermos.timeBase = b.thermos.timeBase := by
  simp only [Block.bandStart]
  (repeat' split) <;> simp

@[simp] theorem Block.bandSeal_timeBase (lane : Fin 8) (reads : Reads) (b : Block) :
    (b.bandSeal lane reads).thermos.timeBase = b.thermos.timeBase := by
  simp only [Block.bandSeal]
  (repeat' split) <;> simp

/-! ### Alignment and fusion (chapter 09) -/

@[simp] theorem Block.takePriors_timeBase (gates : List (BitVec 4 × BitVec 32)) (b : Block) :
    (b.takePriors gates).1.thermos.timeBase = b.thermos.timeBase := by
  refine foldl_fst_timeBase _ (fun acc s => ?_) _ (b, ({} : PriorUse))
  split
  · rfl
  · simp
  · extract_lets d2
    split <;> simp

@[simp] theorem Block.afuSeals_timeBase (b : Block) :
    (∀ payload ins, (b.sealPreint payload ins).thermos.timeBase = b.thermos.timeBase)
    ∧ (∀ payload ins, (b.sealPose payload ins).thermos.timeBase = b.thermos.timeBase) ∧ b.poseNone.thermos.timeBase = b.thermos.timeBase
    ∧ (∀ s, (b.poseSolved s).thermos.timeBase = b.thermos.timeBase) ∧ (∀ s, (b.poseCarried s).thermos.timeBase = b.thermos.timeBase)
    ∧ (∀ s t, (b.predFrom s t).thermos.timeBase = b.thermos.timeBase) ∧ (∀ t, (b.predNone t).thermos.timeBase = b.thermos.timeBase) := by
  simp [Block.sealPreint, Block.sealPose, Block.poseNone, Block.poseSolved, Block.poseCarried, Block.predFrom, Block.predNone]

@[simp] theorem Block.verifyOutputs_timeBase (sec : Bool) (reads : Reads) (b : Block) :
    (b.verifyOutputs sec reads).thermos.timeBase = b.thermos.timeBase := by
  refine foldl_timeBase _ (fun b p => ?_) _ b
  split <;> next e => simp [timeBase_of_eq e]

@[simp] theorem Block.verifySol_timeBase (o : Option SolRec) (reads : Reads) (b : Block) :
    (b.verifySol o reads).2.thermos.timeBase = b.thermos.timeBase := by
  unfold Block.verifySol
  split
  · rfl
  · split <;> next e => simp [timeBase_of_eq e]

@[simp] theorem Block.endpointLost_timeBase (e : Option (Nat × Int)) (t : Int) (b : Block) :
    (b.endpointLost e t).thermos.timeBase = b.thermos.timeBase := by
  unfold Block.endpointLost
  (repeat' split) <;> simp

@[simp] theorem Block.preintHeld_timeBase (b : Block) : b.preintHeld.thermos.timeBase = b.thermos.timeBase := by
  unfold Block.preintHeld
  (repeat' split) <;> simp

@[simp] theorem Block.takePrior_timeBase (p : Parcel) (b : Block) : (b.takePrior p).1.thermos.timeBase = b.thermos.timeBase := by
  simp only [Block.takePrior]
  (repeat' split) <;> simp

@[simp] theorem Block.priorHeads_timeBase (r : CmdRef) (c : Cmd) (hs : List Parcel) (b : Block) :
    (b.priorHeads r c hs).thermos.timeBase = b.thermos.timeBase := by
  unfold Block.priorHeads
  (repeat' split) <;> simp

@[simp] theorem Block.afuSteps_timeBase (b : Block) :
    (∀ reads, (b.verifySols reads).thermos.timeBase = b.thermos.timeBase) ∧ b.preintFrom.thermos.timeBase = b.thermos.timeBase
    ∧ (∀ reads, (b.preintBuild reads).thermos.timeBase = b.thermos.timeBase) ∧ (∀ r, (b.prior r).thermos.timeBase = b.thermos.timeBase)
    ∧ (∀ r c p, (b.priorPart r c p).thermos.timeBase = b.thermos.timeBase) := by
  simp [Block.verifySols, Block.preintFrom, Block.preintBuild, Block.prior, Block.priorPart]

@[simp] theorem Block.assemblePose_timeBase (reads : Reads) (b : Block) : (b.assemblePose reads).thermos.timeBase = b.thermos.timeBase := by
  simp only [Block.assemblePose]
  (repeat' split) <;> simp

@[simp] theorem Block.predEmit_timeBase (reads : Reads) (b : Block) : (b.predEmit reads).thermos.timeBase = b.thermos.timeBase := by
  simp only [Block.predEmit]
  (repeat' split) <;> simp

@[simp] theorem Block.poseAssembly_timeBase (reads : Reads) (b : Block) : (b.poseAssembly reads).thermos.timeBase = b.thermos.timeBase := by
  simp [Block.poseAssembly]

/-! ### Owl (chapter 10) -/

@[simp] theorem Block.owlStarts_timeBase (b : Block) :
    (∀ r, (b.owlModelLoad r).thermos.timeBase = b.thermos.timeBase)
    ∧ (∀ r status detail, (b.loadFails r status detail).thermos.timeBase = b.thermos.timeBase)
    ∧ (∀ r c hs, (b.modelHeads r c hs).thermos.timeBase = b.thermos.timeBase) ∧ (∀ r, (b.owlScore r).thermos.timeBase = b.thermos.timeBase)
    ∧ (∀ x ins, (b.engineVerify x ins).2.thermos.timeBase = b.thermos.timeBase) := by
  simp [Block.owlModelLoad, Block.loadFails, Block.modelHeads, Block.owlScore, Block.engineVerify]

@[simp] theorem Block.modelPart_timeBase (r : CmdRef) (c : Cmd) (p : Parcel) (b : Block) :
    (b.modelPart r c p).thermos.timeBase = b.thermos.timeBase := by
  unfold Block.modelPart
  (repeat' split) <;> simp

@[simp] theorem Block.featureHeads_timeBase (r : CmdRef) (c : Cmd) (hs : List Parcel) (b : Block) :
    (b.featureHeads r c hs).thermos.timeBase = b.thermos.timeBase := by
  unfold Block.featureHeads
  (repeat' split) <;> simp

@[simp] theorem Block.featurePart_timeBase (r : CmdRef) (c : Cmd) (p : Parcel) (b : Block) :
    (b.featurePart r c p).thermos.timeBase = b.thermos.timeBase := by
  simp only [Block.featurePart]
  (repeat' split) <;> simp

@[simp] theorem Block.owlRecord_timeBase (thread : Nat) (j : OwlJob) (record : OwlRec) (b : Block) :
    (b.owlRecord thread j record).thermos.timeBase = b.thermos.timeBase := by
  unfold Block.owlRecord
  (repeat' split) <;> simp

@[simp] theorem Block.owlSampleResult_timeBase (thread : Fin 32) (index : Nat) (b : Block) :
    (b.owlSampleResult thread index).thermos.timeBase = b.thermos.timeBase := by
  simp only [Block.owlSampleResult]
  (repeat' split) <;> simp

@[simp] theorem Block.gateScore_timeBase (x : OwlIn) (b : Block) :
    (b.gateScore x).thermos.timeBase = b.thermos.timeBase := by
  unfold Block.gateScore
  extract_lets cam pass
  have passed : ∀ ids refs b, (pass ids refs b).thermos = b.thermos := fun _ _ _ => rfl
  split
  · rfl
  · split
    · rw [passed]
    · split
      · next e => simp [timeBase_of_eq e]
      · next e =>
        split
        next e2 => simp [passed, timeBase_of_eq e, timeBase_of_fst_eq e2]

@[simp] theorem Block.makeKeyframe_timeBase (slots : List (BitVec 32)) (b : Block) :
    (b.makeKeyframe slots).thermos.timeBase = b.thermos.timeBase := by
  simp only [Block.makeKeyframe]
  (repeat' split) <;> simp

@[simp] theorem Block.keyframeDecided_timeBase (slots : List (BitVec 32)) (pass : Bool) (b : Block) :
    (b.keyframeDecided slots pass).thermos.timeBase = b.thermos.timeBase := by
  simp [Block.keyframeDecided]

@[simp] theorem Block.keyframeScore_timeBase (x : OwlIn) (b : Block) :
    (b.keyframeScore x).thermos.timeBase = b.thermos.timeBase := by
  unfold Block.keyframeScore
  extract_lets b1
  split
  · simp [b1]
  · split
    · simp [b1]
    · split
      · next e => simp [timeBase_of_eq e, b1]
      · next e =>
        split
        next e2 => simp [timeBase_of_eq e, timeBase_of_fst_eq e2, b1]

@[simp] theorem Block.cullScore_timeBase (x : OwlIn) (b : Block) :
    (b.cullScore x).thermos.timeBase = b.thermos.timeBase := by
  unfold Block.cullScore
  split
  · rfl
  · split
    · rfl
    · extract_lets b1 b2 samples ins
      split
      · next e => simp [timeBase_of_eq e, b2, b1]
      · next e =>
        split
        next e2 => simp [timeBase_of_eq e, timeBase_of_fst_eq e2, b2, b1]

@[simp] theorem Block.fixOldest_timeBase (lo hi : Nat) (b : Block) :
    (b.fixOldest lo hi).thermos.timeBase = b.thermos.timeBase := by
  unfold Block.fixOldest
  extract_lets all
  split
  · rfl
  · split
    · next k _ =>
      extract_lets h
      rw [(Block.putMap_frame ..).1]
    · rfl

@[simp] theorem Block.loopAccepted_timeBase (new cand : Nat) (refs : List InRef) (b : Block) :
    (b.loopAccepted new cand refs).thermos.timeBase = b.thermos.timeBase := by
  unfold Block.loopAccepted
  (repeat' split) <;> simp

@[simp] theorem Block.loopScore_timeBase (x : OwlIn) (b : Block) :
    (b.loopScore x).thermos.timeBase = b.thermos.timeBase := by
  unfold Block.loopScore
  split
  · rfl
  · split
    · rfl
    · extract_lets new b1 b2 samples head ins
      split
      · next e => simp [timeBase_of_eq e, b2, b1]
      · next e =>
        split
        next e2 =>
          dsimp only
          split <;> simp [timeBase_of_eq e, timeBase_of_fst_eq e2, b2, b1]

@[simp] theorem Block.motionScore_timeBase (x : OwlIn) (b : Block) :
    (b.motionScore x).thermos.timeBase = b.thermos.timeBase := by
  unfold Block.motionScore
  split
  · rfl
  · split
    · rfl
    · extract_lets ins
      split
      · next e => simp [timeBase_of_eq e]
      · next e =>
        split
        next e2 => simp [timeBase_of_eq e, timeBase_of_fst_eq e2]

@[simp] theorem Block.owlEngineScore_timeBase (use : OwlUse) (x : OwlIn) (b : Block) :
    (b.owlEngineScore use x).thermos.timeBase = b.thermos.timeBase := by
  unfold Block.owlEngineScore
  (repeat' split) <;> simp

@[simp] theorem Block.owlGateLate_timeBase (cam : Fin 6) (b : Block) : (b.owlGateLate cam).thermos.timeBase = b.thermos.timeBase := by
  unfold Block.owlGateLate
  (repeat' split) <;> simp

@[simp] theorem Block.nodeUe_timeBase (slot : Fin 8) (reloadOk : Bool) (b : Block) :
    (b.nodeUe slot reloadOk).thermos.timeBase = b.thermos.timeBase := by
  unfold Block.nodeUe
  split
  · rfl
  · rw [(Block.owlEnter_frame _).1]
    refine (foldl_timeBase _ (fun b j => ?_) _ _).trans (by simp)
    split <;> simp

/-! ### Badger (chapter 11) -/

@[simp] theorem Block.problems_timeBase (b : Block) :
    b.vioInitStep.thermos.timeBase = b.thermos.timeBase ∧ (∀ x, (b.vioProblem x).thermos.timeBase = b.thermos.timeBase)
    ∧ (∀ x, (b.vioVerify x).2.thermos.timeBase = b.thermos.timeBase)
    ∧ (∀ r c pcg ins init f, (b.hostJob r c pcg ins init f).thermos.timeBase = b.thermos.timeBase)
    ∧ (∀ r c, (b.hostGraph r c).thermos.timeBase = b.thermos.timeBase) ∧ (∀ r c, (b.hostAlign r c).thermos.timeBase = b.thermos.timeBase)
    ∧ (∀ r c hs, (b.problemHeads r c hs).thermos.timeBase = b.thermos.timeBase)
    ∧ (∀ r c p, (b.problemPart r c p).thermos.timeBase = b.thermos.timeBase) := by
  simp [Block.vioInitStep, Block.vioProblem, Block.vioVerify, Block.hostJob, Block.hostGraph, Block.hostAlign, Block.problemHeads, Block.problemPart]

@[simp] theorem Block.solverSteps_timeBase (b : Block) :
    (∀ j f row col, (b.trip j f row col).thermos.timeBase = b.thermos.timeBase)
    ∧ (∀ n tile k f vals ins, (b.putBlock n tile k f vals ins).thermos.timeBase = b.thermos.timeBase)
    ∧ (∀ j tile p, (b.redoBlock j tile p).thermos.timeBase = b.thermos.timeBase) ∧ (∀ j d, (b.lmDecide j d).thermos.timeBase = b.thermos.timeBase)
    ∧ (∀ j d, (b.linearDecide j d).thermos.timeBase = b.thermos.timeBase) ∧ b.vioReset.thermos.timeBase = b.thermos.timeBase := by
  simp [Block.trip, Block.putBlock, Block.redoBlock, Block.lmDecide, Block.linearDecide, Block.vioReset]

@[simp] theorem Block.vioAssembly_timeBase (x : VioIn) (b : Block) :
    (b.vioAssembly x).thermos.timeBase = b.thermos.timeBase := by
  unfold Block.vioAssembly
  split
  · split
    · next e => simp [timeBase_of_eq e]
    · next e => simp [timeBase_of_eq e]
  · rfl

@[simp] theorem Block.badgerJob_timeBase (r : CmdRef) (b : Block) :
    (b.badgerJob r).thermos.timeBase = b.thermos.timeBase := by
  refine Block.begin_timeBase (fun c b => ?_) _ _ _ _
  (repeat' split) <;> simp

@[simp] theorem Block.nextOp_timeBase (j : Job) (tile : Nat) (b : Block) : (b.nextOp j tile).thermos.timeBase = b.thermos.timeBase := by
  unfold Block.nextOp
  (repeat' split) <;> simp

@[simp] theorem Block.inputOp_timeBase (j : Job) (tile : Nat) (row col : BitVec 32) (vals : List (BitVec 32)) (b : Block) :
    (b.inputOp j tile row col vals).thermos.timeBase = b.thermos.timeBase := by
  simp only [Block.inputOp]
  (repeat' split) <;> simp

@[simp] theorem Block.blockOp_timeBase (j : Job) (tile : Nat) (op : BlockOp) (b : Block) :
    (b.blockOp j tile op).thermos.timeBase = b.thermos.timeBase := by
  unfold Block.blockOp
  (repeat' split) <;> simp

@[simp] theorem Block.verifyOp_timeBase (n tile : Nat) (ps : List Parcel) (reads : Reads) (b : Block) :
    (b.verifyOp n tile ps reads).2.thermos.timeBase = b.thermos.timeBase := by
  unfold Block.verifyOp
  split
  · next e => simp [timeBase_of_eq e]
  · next e => split <;> simp [timeBase_of_eq e]

@[simp] theorem Block.blockOpDone_timeBase (n : Nat) (tile : Fin 16) (op : BlockOp) (residueOk : Bool) (reads : Reads) (b : Block) :
    (b.blockOpDone n tile op residueOk reads).thermos.timeBase = b.thermos.timeBase := by
  unfold Block.blockOpDone
  extract_lets b1 free
  have freed : ∀ b, (free b).thermos = b.thermos := fun _ => rfl
  have h1 : b1.thermos = b.thermos := rfl
  split
  · rfl
  · split
    · rfl
    · split
      · simp [h1]
      · split
        · simp [freed, h1]
        · split <;> next e => simp [freed, timeBase_of_eq e, h1]

@[simp] theorem Block.iterationDecide_timeBase (n : Nat) (d : IterIn) (b : Block) :
    (b.iterationDecide n d).thermos.timeBase = b.thermos.timeBase := by
  unfold Block.iterationDecide
  (repeat' split) <;> simp

@[simp] theorem Block.badgerDeadline_timeBase (n : Nat) (b : Block) : (b.badgerDeadline n).thermos.timeBase = b.thermos.timeBase := by
  unfold Block.badgerDeadline
  (repeat' split) <;> simp

/-! ### Den (chapter 12) -/

@[simp] theorem Block.denCommands_timeBase (b : Block) :
    (∀ o, (b.writeObs o).thermos.timeBase = b.thermos.timeBase) ∧ (∀ o, (b.writePoints o).thermos.timeBase = b.thermos.timeBase)
    ∧ (∀ o, (b.writeEdges o).thermos.timeBase = b.thermos.timeBase) ∧ b.zqCalibration.thermos.timeBase = b.thermos.timeBase
    ∧ (∀ r, (b.windowOpen r).thermos.timeBase = b.thermos.timeBase) ∧ (∀ r, (b.windowClose r).thermos.timeBase = b.thermos.timeBase)
    ∧ b.bar4Write.thermos.timeBase = b.thermos.timeBase := by
  simp [Block.writeObs, Block.writePoints, Block.writeEdges, Block.zqCalibration, Block.windowOpen, Block.windowClose, Block.bar4Write]

@[simp] theorem Block.writeHead_timeBase (o : MapObj) (b : Block) : (b.writeHead o).thermos.timeBase = b.thermos.timeBase := by
  unfold Block.writeHead
  (repeat' split) <;> simp

@[simp] theorem Block.writePosting_timeBase (o : MapObj) (b : Block) : (b.writePosting o).thermos.timeBase = b.thermos.timeBase := by
  unfold Block.writePosting
  (repeat' split) <;> simp

@[simp] theorem Block.mapWrite_timeBase (o : MapObj) (b : Block) : (b.mapWrite o).thermos.timeBase = b.thermos.timeBase := by
  unfold Block.mapWrite
  (repeat' split) <;> simp

@[simp] theorem Block.hotMove_timeBase (m : HotMove) (b : Block) : (b.hotMove m).thermos.timeBase = b.thermos.timeBase := by
  simp only [Block.hotMove]
  (repeat' split) <;> simp

@[simp] theorem Block.hotColdMove_timeBase (ms : List HotMove) (b : Block) : (b.hotColdMove ms).thermos.timeBase = b.thermos.timeBase := by
  simp [Block.hotColdMove]

@[simp] theorem Block.sramScrub_timeBase (a : BitVec 40) (found : EccFind) (b : Block) :
    (b.sramScrub a found).thermos.timeBase = b.thermos.timeBase := by
  unfold Block.sramScrub
  (repeat' split) <;> simp

@[simp] theorem Block.dramScrub_timeBase (a : BitVec 40) (found : EccFind) (link : Bool) (b : Block) :
    (b.dramScrub a found link).thermos.timeBase = b.thermos.timeBase := by
  unfold Block.dramScrub
  (repeat' split) <;> simp

@[simp] theorem Block.hostReadFault_timeBase (a : Nat) (b : Block) : (b.hostReadFault a).thermos.timeBase = b.thermos.timeBase := by
  unfold Block.hostReadFault
  (repeat' split) <;> simp

@[simp] theorem Block.bar4Read_timeBase (off len : Nat) (b : Block) : (b.bar4Read off len).thermos.timeBase = b.thermos.timeBase := by
  simp only [Block.bar4Read]
  (repeat' split) <;> simp

/-! ### Guests (chapter 13) -/

@[simp] theorem Block.guestStays_timeBase (b : Block) :
    (∀ s gid member, (b.assignGuest s gid member).thermos.timeBase = b.thermos.timeBase)
    ∧ (∀ p, (b.stageFrag p).thermos.timeBase = b.thermos.timeBase) ∧ (∀ p, (b.reportStale p).thermos.timeBase = b.thermos.timeBase)
    ∧ (∀ r, (b.guestFragment r).thermos.timeBase = b.thermos.timeBase) ∧ (∀ r c hs, (b.fragHeads r c hs).thermos.timeBase = b.thermos.timeBase)
    ∧ (∀ r, (b.guestClose r).thermos.timeBase = b.thermos.timeBase) ∧ (∀ s n, (b.mergeDropped s n).thermos.timeBase = b.thermos.timeBase)
    ∧ (∀ s, (b.purgeSlot s).thermos.timeBase = b.thermos.timeBase) ∧ (∀ slot, (b.guestIdle slot).thermos.timeBase = b.thermos.timeBase)
    ∧ (∀ slot, (b.guestEvicted slot).thermos.timeBase = b.thermos.timeBase) ∧ (∀ slot, (b.guestCooled slot).thermos.timeBase = b.thermos.timeBase) := by
  simp [Block.assignGuest, Block.stageFrag, Block.reportStale, Block.guestFragment, Block.fragHeads, Block.guestClose, Block.mergeDropped,
    Block.purgeSlot, Block.guestIdle, Block.guestEvicted, Block.guestCooled]

@[simp] theorem Block.guestOpen_timeBase (r : CmdRef) (b : Block) :
    (b.guestOpen r).thermos.timeBase = b.thermos.timeBase := by
  refine Block.begin_timeBase (fun c b => ?_) _ _ _ _
  split <;> simp

@[simp] theorem Block.fragPart_timeBase (r : CmdRef) (c : Cmd) (p : Parcel) (b : Block) :
    (b.fragPart r c p).thermos.timeBase = b.thermos.timeBase := by
  unfold Block.fragPart
  (repeat' split) <;> simp

@[simp] theorem Block.alignPairs_timeBase (s : Nat) (samples : List (Nat × Sample)) (b : Block) :
    (b.alignPairs s samples).1.thermos.timeBase = b.thermos.timeBase := by
  unfold Block.alignPairs
  (repeat' split) <;> simp

@[simp] theorem Block.guestAlignStart_timeBase (slot : Fin 64) (samples : List (Nat × Sample)) (b : Block) :
    (b.guestAlignStart slot samples).thermos.timeBase = b.thermos.timeBase := by
  simp [Block.guestAlignStart]

@[simp] theorem Block.takePoint_timeBase (s : Nat) (gp : BitVec 32) (b : Block) : (b.takePoint s gp).2.thermos.timeBase = b.thermos.timeBase := by
  simp only [Block.takePoint]
  (repeat' split) <;> simp

@[simp] theorem Block.addEdge_timeBase (s : Nat) (record : Bytes) (ins : List InRef) (b : Block) :
    (b.addEdge s record ins).thermos.timeBase = b.thermos.timeBase := by
  unfold Block.addEdge
  (repeat' split) <;> simp

@[simp] theorem Block.mergeHead_timeBase (s : Nat) (body : Bytes) (ins : List InRef) (b : Block) :
    (b.mergeHead s body ins).thermos.timeBase = b.thermos.timeBase := by
  simp only [Block.mergeHead]
  (repeat' split) <;> simp

@[simp] theorem Block.mergeRef_timeBase (s : Nat) (gp : BitVec 32) (b : Block) :
    (b.mergeRef s gp).2.thermos.timeBase = b.thermos.timeBase := by
  unfold Block.mergeRef
  split
  · rfl
  · split
    · split <;> next e => simp [timeBase_of_eq e]
    · rfl

@[simp] theorem Block.mergeObs_timeBase (s : Nat) (body : Bytes) (ins : List InRef) (b : Block) :
    (b.mergeObs s body ins).thermos.timeBase = b.thermos.timeBase := by
  unfold Block.mergeObs
  (repeat' split) <;> simp

@[simp] theorem Block.mergePoints_timeBase (s : Nat) (body : Bytes) (ins : List InRef) (b : Block) :
    (b.mergePoints s body ins).thermos.timeBase = b.thermos.timeBase := by
  unfold Block.mergePoints
  extract_lets recs r
  have h : r.1.thermos.timeBase = b.thermos.timeBase := by
    refine foldl_fst_timeBase _ (fun acc x => ?_) _ (b, [])
    dsimp only
    split
    · rfl
    · split <;> next e => simp [timeBase_of_eq e]
  simp [h]

@[simp] theorem Block.mergeEdges_timeBase (s : Nat) (body : Bytes) (ins : List InRef) (b : Block) :
    (b.mergeEdges s body ins).thermos.timeBase = b.thermos.timeBase := by
  refine foldl_timeBase _ (fun b x => ?_) _ b
  split <;> simp

@[simp] theorem Block.mergeOne_timeBase (s : Nat) (reads : Reads) (b : Block) :
    (b.mergeOne s reads).2.thermos.timeBase = b.thermos.timeBase := by
  unfold Block.mergeOne
  split
  · rfl
  · split
    · simp
    · next e _ => simp [timeBase_of_eq e]
    · next e _ =>
      extract_lets b' body b1 b2
      have h' : b'.thermos.timeBase = b.thermos.timeBase := by simp [b', timeBase_of_eq e]
      have h1 : b1.thermos.timeBase = b.thermos.timeBase := by
        simp only [b1]
        split <;> simp [h']
      simp [b2, h1]

@[simp] theorem Block.mergeSome_timeBase (reads : Reads) (n : Nat) (b : Block) :
    (b.mergeSome reads n).thermos.timeBase = b.thermos.timeBase := by
  induction n generalizing b with
  | zero => rfl
  | succ n ih =>
    unfold Block.mergeSome
    split
    · split
      · next e => simp [ih, timeBase_of_eq e]
      · next e => simp [timeBase_of_eq e]
    · rfl

@[simp] theorem Block.guestMerge_timeBase (reads : Reads) (b : Block) : (b.guestMerge reads).thermos.timeBase = b.thermos.timeBase := by
  simp [Block.guestMerge]

/-! ### Trails (chapter 15) -/

@[simp] theorem Block.queueMap_timeBase (b : Block) :
    b.queueMap.thermos.timeBase = b.thermos.timeBase := by
  unfold Block.queueMap
  extract_lets put b1 b2
  have h : ∀ kind a b, (put kind a b).thermos = b.thermos := by
    intro kind a b
    simp only [put]
    split <;> simp
  simp [h, b2, b1]

@[simp] theorem Block.lanes_timeBase (b : Block) :
    (∀ l, (b.startTraining l).thermos.timeBase = b.thermos.timeBase) ∧ (∀ l, (b.trainAttempt l).thermos.timeBase = b.thermos.timeBase)
    ∧ (∀ l, (b.trainTimeout l).thermos.timeBase = b.thermos.timeBase) ∧ (∀ l, (b.laneRetry l).thermos.timeBase = b.thermos.timeBase)
    ∧ (∀ l count, (b.headerErrors l count).thermos.timeBase = b.thermos.timeBase) ∧ (∀ l, (b.lockLoss l).thermos.timeBase = b.thermos.timeBase)
    ∧ (∀ l, (b.retrainReq l).thermos.timeBase = b.thermos.timeBase) ∧ (∀ l rate far, (b.laneUp l rate far).thermos.timeBase = b.thermos.timeBase)
    ∧ (∀ k w, (b.widthReqIn k w).thermos.timeBase = b.thermos.timeBase) ∧ (∀ k w, (b.widthAckIn k w).thermos.timeBase = b.thermos.timeBase) := by
  simp [Block.startTraining, Block.trainAttempt, Block.trainTimeout, Block.laneRetry, Block.headerErrors, Block.lockLoss, Block.retrainReq,
    Block.laneUp, Block.widthReqIn, Block.widthAckIn]

@[simp] theorem Block.flits_timeBase (b : Block) :
    (∀ k s, (b.takeAck k s).thermos.timeBase = b.thermos.timeBase) ∧ (∀ k s, (b.takeNak k s).thermos.timeBase = b.thermos.timeBase)
    ∧ (∀ k, (b.sendNak k).thermos.timeBase = b.thermos.timeBase) ∧ (∀ k, (b.sendAck k).thermos.timeBase = b.thermos.timeBase)
    ∧ (∀ x, (b.routeParcel x).thermos.timeBase = b.thermos.timeBase) ∧ (∀ k f, (b.takeBeats k f).thermos.timeBase = b.thermos.timeBase)
    ∧ (∀ k flit, (b.flitReceive k flit).thermos.timeBase = b.thermos.timeBase) ∧ (∀ k seq, (b.nakReceive k seq).thermos.timeBase = b.thermos.timeBase)
    ∧ (∀ k, (b.ackTimer k).thermos.timeBase = b.thermos.timeBase) := by
  simp [Block.takeAck, Block.takeNak, Block.sendNak, Block.sendAck, Block.routeParcel, Block.takeBeats, Block.flitReceive, Block.nakReceive,
    Block.ackTimer]

@[simp] theorem Block.trailTurns_timeBase (b : Block) :
    b.rollSend.thermos.timeBase = b.thermos.timeBase ∧ b.tellUplinks.thermos.timeBase = b.thermos.timeBase
    ∧ (∀ n, (b.rollDone n).thermos.timeBase = b.thermos.timeBase) ∧ (∀ tag p, (b.readRespIn tag p).thermos.timeBase = b.thermos.timeBase)
    ∧ (∀ r, (b.sendRead r).thermos.timeBase = b.thermos.timeBase) ∧ b.joinRetry.thermos.timeBase = b.thermos.timeBase
    ∧ b.fragAckLate.thermos.timeBase = b.thermos.timeBase := by
  simp [Block.rollSend, Block.tellUplinks, Block.rollDone, Block.readRespIn, Block.sendRead, Block.joinRetry, Block.fragAckLate]

@[simp] theorem Block.flitTimeout_timeBase (k : Fin 16) (b : Block) : (b.flitTimeout k).thermos.timeBase = b.thermos.timeBase := by
  unfold Block.flitTimeout
  (repeat' split) <;> simp

@[simp] theorem Block.rollReceive_timeBase (k : Fin 16) (p : Parcel) (b : Block) :
    (b.rollReceive k p).thermos.timeBase = b.thermos.timeBase := by
  unfold Block.rollReceive
  split
  · next e => simp [timeBase_of_eq e]
  · next e =>
    have h := timeBase_of_eq e
    (repeat' split) <;> simp [h]

@[simp] theorem Block.becomeMaster_timeBase (b : Block) :
    b.becomeMaster.thermos.timeBase = b.thermos.timeBase := by
  simp only [Block.becomeMaster, Block.trailTurns_timeBase]
  refine foldl_timeBase _ (fun b x => ?_) _ _
  split <;> simp

@[simp] theorem Block.rollSettle_timeBase (b : Block) : b.rollSettle.thermos.timeBase = b.thermos.timeBase := by
  simp [Block.rollSettle]

@[simp] theorem Block.assignIn_timeBase (p : Parcel) (b : Block) :
    (b.assignIn p).thermos.timeBase = b.thermos.timeBase := by
  unfold Block.assignIn
  split <;> next e => simp [timeBase_of_eq e]

@[simp] theorem Block.readReqIn_timeBase (src : BitVec 12) (p : Parcel) (b : Block) :
    (b.readReqIn src p).thermos.timeBase = b.thermos.timeBase := by
  unfold Block.readReqIn
  split
  · next e => simp [timeBase_of_eq e]
  · next e =>
    have h := timeBase_of_eq e
    extract_lets addr
    split
    · simp [h]
    · split <;> simp [h]

@[simp] theorem Block.readTimeout_timeBase (tag : BitVec 32) (b : Block) : (b.readTimeout tag).thermos.timeBase = b.thermos.timeBase := by
  unfold Block.readTimeout
  (repeat' split) <;> simp

@[simp] theorem Block.controlIn_timeBase (type : BitVec 16) (p : Parcel) (b : Block) :
    (b.controlIn type p).2.thermos.timeBase = b.thermos.timeBase := by
  unfold Block.controlIn
  split
  · next e => simp [timeBase_of_eq e]
  · next e =>
    have h := timeBase_of_eq e
    (repeat' split) <;> simp [h]

@[simp] theorem Block.joinIn_timeBase (p : Parcel) (b : Block) :
    (b.joinIn p).thermos.timeBase = b.thermos.timeBase := by
  unfold Block.joinIn
  split
  · next e => simp [timeBase_of_eq e]
  · next e =>
    extract_lets member gid reply
    have replied : ∀ slot gen st b, (reply slot gen st b).thermos = b.thermos := by simp [reply]
    clear_value reply
    split
    · simp [timeBase_of_eq e]
    · split <;> simp [timeBase_of_eq e, replied]

@[simp] theorem Block.joinReplyIn_timeBase (p : Parcel) (b : Block) :
    (b.joinReplyIn p).thermos.timeBase = b.thermos.timeBase := by
  unfold Block.joinReplyIn
  split
  · next e => simp [timeBase_of_eq e]
  · next e =>
    have h := timeBase_of_eq e
    (repeat' split) <;> simp [h]

@[simp] theorem Block.fragAckIn_timeBase (p : Parcel) (b : Block) :
    (b.fragAckIn p).thermos.timeBase = b.thermos.timeBase := by
  unfold Block.fragAckIn
  split
  · next e => simp [timeBase_of_eq e]
  · next e =>
    have h := timeBase_of_eq e
    (repeat' split) <;> simp [h]

@[simp] theorem Block.fragIn_timeBase (p : Parcel) (b : Block) :
    (b.fragIn p).thermos.timeBase = b.thermos.timeBase := by
  unfold Block.fragIn
  split
  · next e => simp [timeBase_of_eq e]
  · next e =>
    have h := timeBase_of_eq e
    (repeat' split) <;> simp [h]

@[simp] theorem Block.leaveIn_timeBase (p : Parcel) (b : Block) :
    (b.leaveIn p).thermos.timeBase = b.thermos.timeBase := by
  unfold Block.leaveIn
  split <;> next e => simp [timeBase_of_eq e]

@[simp] theorem Block.chipLost_timeBase (serial : BitVec 64) (b : Block) : (b.chipLost serial).thermos.timeBase = b.thermos.timeBase := by
  unfold Block.chipLost
  (repeat' split) <;> simp

@[simp] theorem Block.sealReportIn_timeBase (p : Parcel) (b : Block) :
    (b.sealReportIn p).thermos.timeBase = b.thermos.timeBase := by
  unfold Block.sealReportIn
  split
  · next e => simp [timeBase_of_eq e]
  · next e =>
    have h := timeBase_of_eq e
    (repeat' split) <;> simp [h]

/-! ### The island fabric and the detections (chapters 01 and 16) -/

@[simp] theorem Block.islandCommands_timeBase (b : Block) :
    (∀ n f, (b.onBridge n f).thermos.timeBase = b.thermos.timeBase)
    ∧ (∀ sender receiver unit, (b.bridgeWatchdog sender receiver unit).thermos.timeBase = b.thermos.timeBase)
    ∧ (∀ island, (b.restartDone island).thermos.timeBase = b.thermos.timeBase) := by
  simp [Block.onBridge, Block.bridgeWatchdog, Block.restartDone]

@[simp] theorem Block.bridgeBeat_timeBase (sender receiver : Island) (h : Handshake) (b : Block) :
    (b.bridgeBeat sender receiver h).thermos.timeBase = b.thermos.timeBase := by
  simp only [Block.bridgeBeat]
  (repeat' split) <;> simp

@[simp] theorem Block.detect_timeBase (c : Instr) (waiting : List Instr) (b : Block) :
    (b.detect c waiting).thermos.timeBase = b.thermos.timeBase := by
  unfold Block.detect
  (repeat' split) <;> simp

/-! ### The host link (chapter 14) -/

@[simp] theorem Block.hostCommands_timeBase (b : Block) :
    (∀ q f, (b.onQueue q f).thermos.timeBase = b.thermos.timeBase) ∧ (∀ st f, (b.onStream st f).thermos.timeBase = b.thermos.timeBase)
    ∧ (∀ q, (b.bellError q).thermos.timeBase = b.thermos.timeBase) ∧ (∀ q value, (b.sqTail q value).thermos.timeBase = b.thermos.timeBase)
    ∧ (∀ q value, (b.cqHead q value).thermos.timeBase = b.thermos.timeBase)
    ∧ (∀ st value, (b.streamHead st value).thermos.timeBase = b.thermos.timeBase)
    ∧ (∀ off size, (b.badBell off size).thermos.timeBase = b.thermos.timeBase)
    ∧ (∀ q entry, (b.commandFetch q entry).thermos.timeBase = b.thermos.timeBase) ∧ (∀ r, (b.nop r).thermos.timeBase = b.thermos.timeBase)
    ∧ (∀ r, (b.streamClose r).thermos.timeBase = b.thermos.timeBase) ∧ (∀ st p, (b.putSlot st p).thermos.timeBase = b.thermos.timeBase)
    ∧ (∀ st, (b.streamReset st).thermos.timeBase = b.thermos.timeBase) ∧ (∀ q, (b.qEnable q).thermos.timeBase = b.thermos.timeBase)
    ∧ (∀ q, (b.qDisable q).thermos.timeBase = b.thermos.timeBase) ∧ (∀ v, (b.coalesceTimer v).thermos.timeBase = b.thermos.timeBase)
    ∧ (∀ command addr count, (b.sidebandRead command addr count).thermos.timeBase = b.thermos.timeBase) := by
  simp [Block.onQueue, Block.onStream, Block.bellError, Block.sqTail, Block.cqHead, Block.streamHead, Block.badBell, Block.commandFetch, Block.nop,
    Block.streamClose, Block.putSlot, Block.streamReset, Block.qEnable, Block.qDisable, Block.coalesceTimer, Block.sidebandRead]

@[simp] theorem Block.completionWrite_timeBase (q : Fin 16) (b : Block) : (b.completionWrite q).thermos.timeBase = b.thermos.timeBase := by
  unfold Block.completionWrite
  (repeat' split) <;> simp

@[simp] theorem Block.journalReadout_timeBase (b : Block) : b.journalReadout.thermos.timeBase = b.thermos.timeBase := by
  unfold Block.journalReadout
  cases journalNewest b.thermos.journalUe b.thermos.journal <;> (dsimp only; split <;> simp)

@[simp] theorem Block.streamTwoOpened_timeBase (b : Block) : b.streamTwoOpened.thermos.timeBase = b.thermos.timeBase := by
  simp [Block.streamTwoOpened]

@[simp] theorem Block.streamOpen_timeBase (r : CmdRef) (ue : BitVec 2) (b : Block) :
    (b.streamOpen r ue).thermos.timeBase = b.thermos.timeBase := by
  refine Block.begin_timeBase (fun c b => ?_) _ _ _ _
  simp

@[simp] theorem Block.abort_timeBase (r : CmdRef) (b : Block) : (b.abort r).thermos.timeBase = b.thermos.timeBase := by
  simp only [Block.abort]
  (repeat' split) <;> simp

@[simp] theorem Block.putGap_timeBase (st : Nat) (b : Block) : (b.putGap st).thermos.timeBase = b.thermos.timeBase := by
  unfold Block.putGap
  (repeat' split) <;> simp

@[simp] theorem Block.streamWrites_timeBase (b : Block) :
    (∀ st p, (b.putParcel st p).thermos.timeBase = b.thermos.timeBase) ∧ (∀ st, (b.streamResume st).thermos.timeBase = b.thermos.timeBase) := by
  simp [Block.putParcel, Block.streamResume]

@[simp] theorem Block.parcelWrite_timeBase (st : Fin 8) (seen : Seen) (b : Block) :
    (b.parcelWrite st seen).thermos.timeBase = b.thermos.timeBase := by
  unfold Block.parcelWrite
  extract_lets s
  split
  · rfl
  · split
    · rfl
    · extract_lets b1
      have h1 : b1.thermos = b.thermos := rfl
      split <;> next e => simp [timeBase_of_eq e, h1]

@[simp] theorem Block.heldCompletions_thermos (q : Fin 16) (n : Nat) (b : Block) :
    (b.heldCompletions q n).thermos = b.thermos := by
  induction n generalizing b with
  | zero => rfl
  | succ n ih =>
    unfold Block.heldCompletions
    split
    · rw [ih, (Block.writeCompletion_frame _ _ _).1]
    · rfl

@[simp] theorem Block.qResume_timeBase (q : Fin 16) (b : Block) : (b.qResume q).thermos.timeBase = b.thermos.timeBase := by
  simp [Block.qResume]

/-! ### The settings (chapter 03) -/

@[simp] theorem Block.settingsReads_timeBase (b : Block) :
    (∀ r, (b.settingsRead r).thermos.timeBase = b.thermos.timeBase) ∧ (∀ r c hs, (b.pageHeads r c hs).thermos.timeBase = b.thermos.timeBase)
    ∧ (∀ r c p, (b.pagePart r c p).thermos.timeBase = b.thermos.timeBase) := by
  simp [Block.settingsRead, Block.pageHeads, Block.pagePart]

@[simp] theorem Block.shadowWrite_timeBase (r : CmdRef) (b : Block) :
    (b.shadowWrite r).thermos.timeBase = b.thermos.timeBase := by
  refine Block.begin_timeBase (fun c b => ?_) _ _ _ _
  split <;> simp

@[simp] theorem Block.check_timeBase (r : CmdRef) (b : Block) :
    (b.check r).thermos.timeBase = b.thermos.timeBase := by
  refine Block.begin_timeBase (fun c b => ?_) _ _ _ _
  split <;> simp

@[simp] theorem Block.checkComplete_timeBase (b : Block) : b.checkComplete.thermos.timeBase = b.thermos.timeBase := by
  unfold Block.checkComplete
  (repeat' split) <;> simp

@[simp] theorem Block.apply_timeBase (r : CmdRef) (b : Block) :
    (b.apply r).thermos.timeBase = b.thermos.timeBase := by
  refine Block.begin_timeBase (fun c b => ?_) _ _ _ _
  split <;> simp

@[simp] theorem Block.syncShadow_timeBase (r : CmdRef) (b : Block) :
    (b.syncShadow r).thermos.timeBase = b.thermos.timeBase := by
  refine Block.begin_timeBase (fun c b => ?_) _ _ _ _
  split <;> simp

@[simp] theorem Block.swapSets_timeBase (epoch : Nat) (b : Block) : (b.swapSets epoch).thermos.timeBase = b.thermos.timeBase := by
  unfold Block.swapSets
  (repeat' split) <;> simp

@[simp] theorem Block.dataParts_timeBase (b : Block) :
    (∀ r c status, (b.dataFails r c status).thermos.timeBase = b.thermos.timeBase)
    ∧ (∀ r c hs, (b.dataHeads r c hs).thermos.timeBase = b.thermos.timeBase) ∧ (∀ r c p, (b.dataPart r c p).thermos.timeBase = b.thermos.timeBase) := by
  simp [Block.dataFails, Block.dataHeads, Block.dataPart]

@[simp] theorem Block.dmaRead_timeBase (r : CmdRef) (d : DmaData) (b : Block) : (b.dmaRead r d).thermos.timeBase = b.thermos.timeBase := by
  unfold Block.dmaRead
  (repeat' split) <;> simp

/-! ### Plans and epochs (chapters 01 and 17) -/

@[simp] theorem Block.journalOnce_timeBase (b : Block) : b.journalOnce.thermos.timeBase = b.thermos.timeBase := by
  simp [Block.journalOnce]

@[simp] theorem Block.planCommit_timeBase (x : PlanIn) (b : Block) : (b.planCommit x).thermos.timeBase = b.thermos.timeBase := by
  unfold Block.planCommit
  (repeat' split) <;> simp

@[simp] theorem Block.epochEnd_timeBase (b : Block) :
    (∀ k, (b.portRecords k).thermos.timeBase = b.thermos.timeBase) ∧ (∀ g, (b.ifcRecords g).thermos.timeBase = b.thermos.timeBase)
    ∧ b.counterRecords.thermos.timeBase = b.thermos.timeBase ∧ b.endEpoch.thermos.timeBase = b.thermos.timeBase
    ∧ (∀ is, (b.islandsDown is).thermos.timeBase = b.thermos.timeBase) ∧ (∀ is, (b.islandsUp is).thermos.timeBase = b.thermos.timeBase)
    ∧ (∀ ks, (b.closeFrames ks).thermos.timeBase = b.thermos.timeBase) ∧ b.shutEnd.thermos.timeBase = b.thermos.timeBase := by
  simp [Block.portRecords, Block.ifcRecords, Block.counterRecords, Block.endEpoch, Block.islandsDown, Block.islandsUp, Block.closeFrames,
    Block.shutEnd]

@[simp] theorem Block.epochSteps_timeBase (b : Block) :
    (∀ new t c, (b.reconfigure new t c).thermos.timeBase = b.thermos.timeBase)
    ∧ (∀ new t c, (b.rescaleLater new t c).thermos.timeBase = b.thermos.timeBase)
    ∧ (∀ new t, (b.stopUnits new t).thermos.timeBase = b.thermos.timeBase) ∧ (∀ old t, (b.startSlots old t).thermos.timeBase = b.thermos.timeBase)
    ∧ (∀ old, (b.foxSwap old).thermos.timeBase = b.thermos.timeBase) ∧ (∀ old, (b.trailSwap old).thermos.timeBase = b.thermos.timeBase)
    ∧ b.evictAll.thermos.timeBase = b.thermos.timeBase ∧ (∀ made, (b.applyFeatures made).thermos.timeBase = b.thermos.timeBase)
    ∧ (∀ n t made cap, (b.stepRate n t made cap).thermos.timeBase = b.thermos.timeBase)
    ∧ (∀ n t, (b.rebase n t).thermos.timeBase = b.thermos.timeBase) ∧ b.chooseInertial.thermos.timeBase = b.thermos.timeBase
    ∧ (∀ ds, (b.readDram ds).thermos.timeBase = b.thermos.timeBase)
    ∧ (∀ n t len p mw, (b.freshEpoch n t len p mw).thermos.timeBase = b.thermos.timeBase) ∧ b.memberTurn.thermos.timeBase = b.thermos.timeBase
    ∧ b.sweep.thermos.timeBase = b.thermos.timeBase := by
  simp [Block.reconfigure, Block.rescaleLater, Block.stopUnits, Block.startSlots, Block.foxSwap, Block.trailSwap, Block.evictAll, Block.applyFeatures,
    Block.stepRate, Block.rebase, Block.chooseInertial, Block.readDram, Block.freshEpoch, Block.memberTurn, Block.sweep]

@[simp] theorem Block.enterPause_timeBase (t : Tick) (b : Block) : (b.enterPause t).thermos.timeBase = b.thermos.timeBase := by
  unfold Block.enterPause
  (repeat' split) <;> simp

@[simp] theorem Block.restPins_timeBase (old : List Memory) (b : Block) :
    (b.restPins old).thermos.timeBase = b.thermos.timeBase := by
  refine foldl_timeBase _ (fun b pin => ?_) _ b
  split <;> simp

@[simp] theorem Block.owlSwap_timeBase (old : List Memory) (b : Block) :
    (b.owlSwap old).thermos.timeBase = b.thermos.timeBase := by
  refine foldl_timeBase _ (fun b j => ?_) _ b
  (repeat' split) <;> simp

@[simp] theorem Block.leaveJob_timeBase (new : List Memory) (b : Block) : (b.leaveJob new).thermos.timeBase = b.thermos.timeBase := by
  unfold Block.leaveJob
  (repeat' split) <;> simp

@[simp] theorem Block.fragAcks_timeBase (b : Block) :
    b.fragAcks.thermos.timeBase = b.thermos.timeBase := by
  unfold Block.fragAcks
  split
  · refine foldl_timeBase _ (fun b s => ?_) _ b
    dsimp only
    split <;> simp
  · rfl

@[simp] theorem Block.epochStarts_timeBase (b : Block) :
    (∀ n t, (b.swapAt n t).thermos.timeBase = b.thermos.timeBase)
    ∧ (∀ n t dram vack resume, (b.startEpoch n t dram vack resume).thermos.timeBase = b.thermos.timeBase)
    ∧ (∀ dram vack, (b.epochBoundary dram vack).thermos.timeBase = b.thermos.timeBase) := by
  simp [Block.swapAt, Block.startEpoch, Block.epochBoundary]

/-! ### TIME_LOST and PTM (chapter 04) -/

@[simp] theorem Block.timeLost_timeBase (cause : Nat) (b : Block) :
    (b.timeLost cause).thermos.timeBase = b.thermos.timeBase := by
  simp [Block.timeLost]

@[simp] theorem Block.timeRegained_timeBase (cause : Nat) (b : Block) :
    (b.timeRegained cause).thermos.timeBase = b.thermos.timeBase := by
  simp [Block.timeRegained]

@[simp] theorem Block.ptmCommands_timeBase (b : Block) :
    (∀ value, (b.lostAck value).thermos.timeBase = b.thermos.timeBase) ∧ b.ptmStart.thermos.timeBase = b.thermos.timeBase
    ∧ b.ptmDue.thermos.timeBase = b.thermos.timeBase ∧ b.ptmDeferred.thermos.timeBase = b.thermos.timeBase
    ∧ (∀ master delay, (b.ptmComplete master delay).thermos.timeBase = b.thermos.timeBase) ∧ b.ptmFail.thermos.timeBase = b.thermos.timeBase := by
  simp [Block.lostAck, Block.ptmStart, Block.ptmDue, Block.ptmDeferred, Block.ptmComplete, Block.ptmFail]

/-! ### Features, the session and power (chapters 02, 14 and 17) -/

@[simp] theorem Block.linkCommands_timeBase (b : Block) :
    (∀ set h, (b.commitSet set h).thermos.timeBase = b.thermos.timeBase)
    ∧ (∀ word value, (b.acceptWrite word value).thermos.timeBase = b.thermos.timeBase)
    ∧ (∀ value, (b.helloDone value).thermos.timeBase = b.thermos.timeBase)
    ∧ (∀ speed bme msix ptm, (b.linkUp speed bme msix ptm).thermos.timeBase = b.thermos.timeBase) ∧ b.linkDown.thermos.timeBase = b.thermos.timeBase
    ∧ b.busMasterOff.thermos.timeBase = b.thermos.timeBase ∧ b.flr.thermos.timeBase = b.thermos.timeBase := by
  simp [Block.commitSet, Block.acceptWrite, Block.helloDone, Block.linkUp, Block.linkDown, Block.busMasterOff, Block.flr]

@[simp] theorem Block.helloExpiry_timeBase (waiting : List Instr) (b : Block) : (b.helloExpiry waiting).thermos.timeBase = b.thermos.timeBase := by
  unfold Block.helloExpiry
  (repeat' split) <;> simp

@[simp] theorem Block.powerCommands_timeBase (b : Block) :
    (∀ value, (b.budgetWrite value).thermos.timeBase = b.thermos.timeBase) ∧ (∀ value, (b.skinWrite value).thermos.timeBase = b.thermos.timeBase)
    ∧ b.skinReadDue.thermos.timeBase = b.thermos.timeBase ∧ b.skinStale.thermos.timeBase = b.thermos.timeBase
    ∧ (∀ temps valid, (b.dieSample temps valid).thermos.timeBase = b.thermos.timeBase)
    ∧ (∀ sensor temp, (b.thermalTrip sensor temp).thermos.timeBase = b.thermos.timeBase) ∧ b.askPause.thermos.timeBase = b.thermos.timeBase
    ∧ b.pauseRequest.thermos.timeBase = b.thermos.timeBase ∧ b.pauseClear.thermos.timeBase = b.thermos.timeBase
    ∧ b.shutDown.thermos.timeBase = b.thermos.timeBase ∧ b.denWakes.thermos.timeBase = b.thermos.timeBase
    ∧ b.journalCommit.thermos.timeBase = b.thermos.timeBase := by
  simp [Block.budgetWrite, Block.skinWrite, Block.skinReadDue, Block.skinStale, Block.dieSample, Block.thermalTrip, Block.askPause,
    Block.pauseRequest, Block.pauseClear, Block.shutDown, Block.denWakes, Block.journalCommit]

@[simp] theorem Block.skinReadDone_timeBase (value : Option (BitVec 16)) (b : Block) :
    (b.skinReadDone value).thermos.timeBase = b.thermos.timeBase := by
  unfold Block.skinReadDone
  (repeat' split) <;> simp

@[simp] theorem Block.cooldownEnd_timeBase (b : Block) : b.cooldownEnd.thermos.timeBase = b.thermos.timeBase := by
  unfold Block.cooldownEnd
  (repeat' split) <;> simp

@[simp] theorem Block.resume_timeBase (b : Block) : b.resume.thermos.timeBase = b.thermos.timeBase := by
  unfold Block.resume
  (repeat' split) <;> simp

/-! ### The Thermos domain (chapters 04 and 17) -/

@[simp] theorem Block.thermosCommands_timeBase (b : Block) :
    (∀ running, (b.refChange running).thermos.timeBase = b.thermos.timeBase)
    ∧ (∀ kind outcome, (b.logBrown kind outcome).thermos.timeBase = b.thermos.timeBase)
    ∧ (∀ toVbk, (b.sourceSwitch toVbk).thermos.timeBase = b.thermos.timeBase) ∧ b.crystalRestart.thermos.timeBase = b.thermos.timeBase
    ∧ b.thermosExit.thermos.timeBase = b.thermos.timeBase := by
  simp [Block.refChange, Block.logBrown, Block.sourceSwitch, Block.crystalRestart, Block.thermosExit]

@[simp] theorem Block.nvValue_thermos (value : BitVec 32) (err : Bool) (b : Block) : (b.nvValue value err).2.thermos = b.thermos := by
  unfold Block.nvValue
  (repeat' split) <;> simp

/-! ### Boot (chapter 02) -/

@[simp] theorem Block.mainResets_timeBase (b : Block) :
    (∀ rails, (b.mainBrownout rails).thermos.timeBase = b.thermos.timeBase) ∧ b.resetFall.thermos.timeBase = b.thermos.timeBase
    ∧ (∀ value, (b.softReset value).thermos.timeBase = b.thermos.timeBase) := by
  simp [Block.mainBrownout, Block.resetFall, Block.softReset]

@[simp] theorem Block.bootSteps_timeBase (b : Block) :
    b.probeTimeout.thermos.timeBase = b.thermos.timeBase ∧ (∀ word value err, (b.otpResponse word value err).thermos.timeBase = b.thermos.timeBase)
    ∧ b.rollFails.thermos.timeBase = b.thermos.timeBase ∧ b.otpTimeout.thermos.timeBase = b.thermos.timeBase
    ∧ b.slotTimeout.thermos.timeBase = b.thermos.timeBase ∧ b.loadTimeout.thermos.timeBase = b.thermos.timeBase
    ∧ (∀ populated, (b.bringupStart populated).thermos.timeBase = b.thermos.timeBase)
    ∧ (∀ trained mib, (b.dramTrained trained mib).thermos.timeBase = b.thermos.timeBase)
    ∧ (∀ trained mib, (b.trainingDone trained mib).thermos.timeBase = b.thermos.timeBase)
    ∧ (∀ trained mib, (b.trainingTimeout trained mib).thermos.timeBase = b.thermos.timeBase) ∧ b.startUnits.thermos.timeBase = b.thermos.timeBase := by
  simp [Block.probeTimeout, Block.otpResponse, Block.rollFails, Block.otpTimeout, Block.slotTimeout, Block.loadTimeout, Block.bringupStart,
    Block.dramTrained, Block.trainingDone, Block.trainingTimeout, Block.startUnits]

@[simp] theorem Block.mainRelease_timeBase (probe : FlashProbe) (b : Block) :
    (b.mainRelease probe).thermos.timeBase = b.thermos.timeBase := by
  unfold Block.mainRelease
  (repeat' split) <;> simp

@[simp] theorem Block.bootResponse_timeBase (beat : BootBeat) (b : Block) : (b.bootResponse beat).thermos.timeBase = b.thermos.timeBase := by
  unfold Block.bootResponse
  (repeat' split) <;> simp

@[simp] theorem Block.slotAttempt_timeBase (f : FlashImage) (b : Block) : (b.slotAttempt f).thermos.timeBase = b.thermos.timeBase := by
  simp only [Block.slotAttempt]
  (repeat' split) <;> simp

@[simp] theorem Block.bootMismatch_timeBase (b : Block) : b.bootMismatch.thermos.timeBase = b.thermos.timeBase := by
  unfold Block.bootMismatch
  (repeat' split) <;> simp

@[simp] theorem Block.selfTest_timeBase (unit : BitVec 8) (ok : Bool) (b : Block) : (b.selfTest unit ok).thermos.timeBase = b.thermos.timeBase := by
  unfold Block.selfTest
  (repeat' split) <;> simp

@[simp] theorem Block.rollStep_timeBase (b : Block) : b.rollStep.thermos.timeBase = b.thermos.timeBase := by
  unfold Block.rollStep
  (repeat' split) <;> simp

@[simp] theorem Block.programResponse_timeBase (err readback : Bool) (b : Block) :
    (b.programResponse err readback).thermos.timeBase = b.thermos.timeBase := by
  unfold Block.programResponse
  (repeat' split) <;> simp

@[simp] theorem Block.readyEntries_timeBase (b : Block) :
    b.bringupTimeout.thermos.timeBase = b.thermos.timeBase ∧ b.readyEntry.thermos.timeBase = b.thermos.timeBase := by
  simp [Block.bringupTimeout, Block.readyEntry]

/-! ### The block edge (chapter 18) -/

@[simp] theorem Block.supplies_timeBase (b : Block) :
    (∀ i, (b.clockAgain i).thermos.timeBase = b.thermos.timeBase) ∧ (∀ i, (b.packMatch i).thermos.timeBase = b.thermos.timeBase)
    ∧ (∀ i, (b.islandOn i).thermos.timeBase = b.thermos.timeBase) ∧ (∀ island, (b.ackRise island).thermos.timeBase = b.thermos.timeBase)
    ∧ (∀ level, (b.retAck level).thermos.timeBase = b.thermos.timeBase) ∧ (∀ island, (b.ackFall island).thermos.timeBase = b.thermos.timeBase)
    ∧ (∀ island, (b.ackTimeout island).thermos.timeBase = b.thermos.timeBase) := by
  simp [Block.clockAgain, Block.packMatch, Block.islandOn, Block.ackRise, Block.retAck, Block.ackFall, Block.ackTimeout]

@[simp] theorem Block.edgeBeat_timeBase (ch : Fin 53) (beat : Beat) (early : Bool) (b : Block) :
    (b.edgeBeat ch beat early).thermos.timeBase = b.thermos.timeBase := by
  unfold Block.edgeBeat
  (repeat' split) <;> simp

@[simp] theorem Block.laneAbsent_timeBase (l : Nat) (b : Block) : (b.laneAbsent l).thermos.timeBase = b.thermos.timeBase := by
  simp only [Block.laneAbsent]
  (repeat' split) <;> simp

@[simp] theorem Block.packTimeout_timeBase (i : Dvfs) (delivered : Fin 6) (b : Block) :
    (b.packTimeout i delivered).thermos.timeBase = b.thermos.timeBase := by
  unfold Block.packTimeout
  (repeat' split) <;> simp

@[simp] theorem Block.edgeStall_timeBase (ch : Fin 53) (b : Block) : (b.edgeStall ch).thermos.timeBase = b.thermos.timeBase := by
  simp [Block.edgeStall]

/-! ### Registers (chapter 19) -/

@[simp] theorem Block.registerParts_timeBase (b : Block) :
    (∀ k i, (b.clearPort k i).thermos.timeBase = b.thermos.timeBase) ∧ (∀ off, (b.clearCounter off).thermos.timeBase = b.thermos.timeBase)
    ∧ (∀ off value, (b.clearBits off value).thermos.timeBase = b.thermos.timeBase) ∧ (∀ q v, (b.queueCtrl q v).thermos.timeBase = b.thermos.timeBase)
    ∧ (∀ st v, (b.streamCtrl st v).thermos.timeBase = b.thermos.timeBase) ∧ (∀ v, (b.powerCtrl v).thermos.timeBase = b.thermos.timeBase)
    ∧ (∀ on, (b.ptmControl on).thermos.timeBase = b.thermos.timeBase) := by
  simp [Block.clearPort, Block.clearCounter, Block.clearBits, Block.queueCtrl, Block.streamCtrl, Block.powerCtrl, Block.ptmControl]

@[simp] theorem Block.ptmLatch_timeBase (b : Block) : b.ptmLatch.thermos.timeBase = b.thermos.timeBase := by
  unfold Block.ptmLatch
  extract_lets t
  generalize BitVec.ofNat 192 _ = v
  rfl

@[simp] theorem Block.readWord_timeBase (off : Nat) (b : Block) : (b.readWord off).2.thermos.timeBase = b.thermos.timeBase := by
  unfold Block.readWord
  (repeat' split) <;> simp

@[simp] theorem Block.reads_timeBase (b : Block) :
    (∀ off, (b.read4 off).thermos.timeBase = b.thermos.timeBase) ∧ (∀ size, (b.readPtm size).thermos.timeBase = b.thermos.timeBase) := by
  simp [Block.read4, Block.readPtm]

@[simp] theorem Block.clearLow_timeBase (off : Nat) (b : Block) : (b.clearLow off).thermos.timeBase = b.thermos.timeBase := by
  unfold Block.clearLow
  (repeat' split) <;> simp

@[simp] theorem Block.clearWrite_timeBase (off : Nat) (value : BitVec 32) (b : Block) :
    (b.clearWrite off value).thermos.timeBase = b.thermos.timeBase := by
  unfold Block.clearWrite
  (repeat' split) <;> simp

@[simp] theorem Block.wordWrite_timeBase (off : Nat) (v : BitVec 32) (b : Block) : (b.wordWrite off v).thermos.timeBase = b.thermos.timeBase := by
  unfold Block.wordWrite
  (repeat' split) <;> simp

@[simp] theorem Block.msixWrite_timeBase (off : Nat) (v : BitVec 32) (b : Block) : (b.msixWrite off v).thermos.timeBase = b.thermos.timeBase := by
  unfold Block.msixWrite
  extract_lets k x b1
  have h1 : b1.thermos = b.thermos := by clear_value x; rfl
  split <;> simp [h1]

theorem Block.msixWrites_timeBase (ws : List (Nat × BitVec 32)) (b : Block) :
    (ws.foldl (fun b w => b.msixWrite w.1 w.2) b).thermos.timeBase = b.thermos.timeBase := by
  induction ws generalizing b with
  | nil => rfl
  | cons w ws ih => rw [List.foldl_cons, ih, Block.msixWrite_timeBase]

@[simp] theorem Block.bar0Write_timeBase (off size : Nat) (value : BitVec 64) (b : Block) :
    (b.bar0Write off size value).thermos.timeBase = b.thermos.timeBase := by
  unfold Block.bar0Write
  generalize inBlock 0xE000 0x200 off = inTable
  generalize inBlock 0xF000 8 off = inPba
  extract_lets aligned ws
  split
  · split
    · exact Block.msixWrites_timeBase ws b
    · rfl
  · split
    · rfl
    · split
      · simp
      · next b1 b2 _ _ _ =>
        have h2 : b2.thermos.timeBase = b.thermos.timeBase := by simp [b2, b1]
        simp [h2]

@[simp] theorem Block.registerWrite_timeBase (w : RegWrite) (b : Block) : (b.registerWrite w).thermos.timeBase = b.thermos.timeBase := by
  unfold Block.registerWrite
  (repeat' split) <;> simp

/-! ### The commands that move the time base (R114, R633, R637) -/

/-- Where TB_EPOCH increments, TB stands. -/
theorem Block.epochUp_timeBase (cause : Nat) (b : Block) :
    (b.epochUp cause).thermos.timeBase = (b.thermos.timeBase.1, b.thermos.timeBase.2 + 1) := by
  simp [Block.epochUp]
  exact ⟨rfl, rfl⟩

theorem Thermos.tb_eq {t u : Thermos} (h : t.timeBase = u.timeBase) : t.tb = u.tb := congrArg Prod.fst h
theorem Thermos.tbEpoch_eq {t u : Thermos} (h : t.timeBase = u.timeBase) : t.tbEpoch = u.tbEpoch := congrArg Prod.snd h

theorem Thermos.timeBase_fst (t : Thermos) : t.timeBase.1 = t.tb := rfl

/-- On main power an arbitration does nothing (R605). -/
theorem Block.arbitrate_of_vaon {b : Block} (h : b.thermos.onVbk = false) (rise fall : Option Nat) : b.arbitrate rise fall = b := by
  simp [Block.arbitrate, h]

/-- A stop of the crystal moves TB_EPOCH on VBK alone (R112, R114). -/
theorem Block.crystalStop_timeBase_of_vaon {b : Block} (h : b.thermos.onVbk = false) :
    b.crystalStop.thermos.timeBase = b.thermos.timeBase := by
  simp [Block.crystalStop, h]

theorem Block.crystalStop_tb (b : Block) : b.crystalStop.thermos.tb = b.thermos.tb := by
  rw [← Thermos.timeBase_fst]
  unfold Block.crystalStop
  (repeat' split) <;> simp [Block.epochUp_timeBase, Thermos.timeBase_fst]

/-- Away from OTX-120C there is no TPOR_RELEASE (R633). -/
theorem Block.tporRelease_of_not_hooked {b : Block} (h : b.boot.package ≠ .c) : b.tporRelease = b := by
  simp [Block.tporRelease, Block.hooked, h]

/-- TPOR_RELEASE asks for TB_EPOCH, and leaves it as it is until the counter answers (R637). -/
theorem Block.tporRelease_tbEpoch (b : Block) : b.tporRelease.thermos.tbEpoch = b.thermos.tbEpoch := by
  simp only [Block.tporRelease]
  split <;> simp

theorem Block.nvResponse_of_idle {b : Block} (h : b.thermos.nv = .idle) (value : BitVec 32) (err : Bool) : b.nvResponse value err = b := by
  simp [Block.nvResponse, h]

theorem Block.nvResponse_tb (value : BitVec 32) (err : Bool) (b : Block) : (b.nvResponse value err).thermos.tb = b.thermos.tb := by
  rw [← Thermos.timeBase_fst]
  simp only [Block.nvResponse]
  split <;> simp [Block.epochUp_timeBase, Thermos.timeBase_fst]

theorem Block.nvTimeout_of_idle {b : Block} (h : b.thermos.nv = .idle) : b.nvTimeout = b := by
  simp [Block.nvTimeout, h]

theorem Block.nvTimeout_tb (b : Block) : b.nvTimeout.thermos.tb = b.thermos.tb := by
  rw [← Thermos.timeBase_fst]
  unfold Block.nvTimeout
  split <;> simp [Thermos.timeBase_fst]

/-- The commands that may move TB or TB_EPOCH (R114, R633, R637). -/
def movesTimeBase : Instr → Bool
  | .coldThermosPor | .thermosArbitration _ _ | .crystalStop | .tporRelease | .nvCounterResponse _ _ | .nvCounterTimeout => true
  | _ => false

theorem exec_timeBase {c : Instr} {s t : State} (h : movesTimeBase c = false) (e : exec c s = .next t) :
    t.thermos.timeBase = s.thermos.timeBase := by
  cases c with
  | coldThermosPor => cases h
  | thermosArbitration a f => cases h
  | crystalStop => cases h
  | tporRelease => cases h
  | nvCounterResponse v err => cases h
  | nvCounterTimeout => cases h
  | _ => cases e; simp

/-- TB_EPOCH moves as R114 and R637 set out. -/
theorem tbEpoch_moves {c : Instr} {s t : State} (e : exec c s = .next t) (moved : t.thermos.tbEpoch ≠ s.thermos.tbEpoch) :
    c = .coldThermosPor ∨ (s.thermos.onVbk = true ∧ ((∃ a f, c = .thermosArbitration a f) ∨ c = .crystalStop))
      ∨ (s.thermos.nv ≠ .idle ∧ ((∃ v e, c = .nvCounterResponse v e) ∨ c = .nvCounterTimeout)) := by
  cases c with
  | coldThermosPor => exact .inl rfl
  | thermosArbitration a f =>
    refine .inr (.inl ⟨Bool.of_not_eq_false fun h => ?_, .inl ⟨a, f, rfl⟩⟩)
    cases e
    exact moved (by rw [Block.arbitrate_of_vaon h])
  | crystalStop =>
    refine .inr (.inl ⟨Bool.of_not_eq_false fun h => ?_, .inr rfl⟩)
    cases e
    exact moved (Thermos.tbEpoch_eq (Block.crystalStop_timeBase_of_vaon h))
  | tporRelease =>
    cases e
    exact absurd (Block.tporRelease_tbEpoch _) moved
  | nvCounterResponse v err =>
    refine .inr (.inr ⟨fun h => ?_, .inl ⟨v, err, rfl⟩⟩)
    cases e
    exact moved (by rw [Block.nvResponse_of_idle h])
  | nvCounterTimeout =>
    refine .inr (.inr ⟨fun h => ?_, .inr rfl⟩)
    cases e
    exact moved (by rw [Block.nvTimeout_of_idle h])
  | _ => exact absurd (Thermos.tbEpoch_eq (exec_timeBase rfl e)) moved

/-- TB moves under those commands alone that start it from zero (R114, R633). -/
theorem tb_moves {c : Instr} {s t : State} (e : exec c s = .next t) (moved : t.thermos.tb ≠ s.thermos.tb) :
    c = .coldThermosPor ∨ (s.thermos.onVbk = true ∧ ∃ a f, c = .thermosArbitration a f) ∨ (s.boot.package = .c ∧ c = .tporRelease) := by
  cases c with
  | coldThermosPor => exact .inl rfl
  | thermosArbitration a f =>
    refine .inr (.inl ⟨Bool.of_not_eq_false fun h => ?_, a, f, rfl⟩)
    cases e
    exact moved (by rw [Block.arbitrate_of_vaon h])
  | crystalStop =>
    cases e
    exact absurd (Block.crystalStop_tb _) moved
  | tporRelease =>
    refine .inr (.inr ⟨Decidable.of_not_not fun h => ?_, rfl⟩)
    cases e
    exact moved (by rw [Block.tporRelease_of_not_hooked h])
  | nvCounterResponse v err =>
    cases e
    exact absurd (Block.nvResponse_tb ..) moved
  | nvCounterTimeout =>
    cases e
    exact absurd (Block.nvTimeout_tb _) moved
  | _ => exact absurd (Thermos.tb_eq (exec_timeBase rfl e)) moved

/-- Settles O55: of all commands six alone touch TB or TB_EPOCH, and each of these by what it does in its phase or on its supply. -/
theorem timeBaseMoves : Obligations.TimeBaseMoves := by
  unfold Obligations.TimeBaseMoves
  intro c s t e
  exact ⟨tbEpoch_moves e, tb_moves e⟩

end Sys2Proof.Machine
end

section
/-! PROOF. The exposure midpoint (O22, R128 and R129). -/

namespace Sys2Proof.Machine

theorem midExposure_of_le {t0 t1 : Int} (h : t0 ≤ t1) (nominal shift : Nat) :
    midExposure t0 t1 nominal shift = (false, (t1 - t0).toNat, t0 + rneNat (t1 - t0).toNat 2 + shift) := by
  have : ¬t1 - t0 < 0 := by omega
  simp only [midExposure, if_neg this]

theorem midExposure_of_lt {t0 t1 : Int} (h : t1 < t0) (nominal shift : Nat) :
    midExposure t0 t1 nominal shift = (true, 0, t0 + rneNat nominal 2 + shift) := by
  have : t1 - t0 < 0 := by omega
  simp only [midExposure, if_pos this]

/-- Half a number, rounded to nearest even (R12): only 3 modulo 4 rounds up. -/
theorem rneNat_two (n : Nat) : rneNat n 2 = n / 2 + if n % 4 = 3 then 1 else 0 := by
  simp only [rneNat]
  (repeat' split) <;> omega

/-- Settles O22: the midpoint by the order of start and stop, and the rounding of half an exposure by its remainder modulo 4. -/
theorem exposureMidpoint : Obligations.ExposureMidpoint := by
  unfold Obligations.ExposureMidpoint
  refine ⟨?positive, ?inverted, ?zero, ?rounding⟩
  case positive =>
    intro t0 t1 nominal shift h
    exact midExposure_of_le h nominal shift
  case inverted =>
    intro t0 t1 nominal shift h
    exact midExposure_of_lt h nominal shift
  case zero =>
    intro t nominal
    simp [midExposure_of_le (le_refl t), rneNat_two]
  case rounding =>
    intro n
    rw [rneNat_two]
    split <;> omega

end Sys2Proof.Machine
end

section
/-! PROOF. BAR4 (O36, R428 to R431): what the window commands do once they run, what a read finds through the windows, and what a write leaves. -/

namespace Sys2Proof.Machine

/-- A meaning answers what its effect makes of the block. -/
theorem State.act_of_eq {s : State} {f : Block → Block} {b : Block} (h : f s.toBlock = b) : s.act f = .next { s with toBlock := b } := by
  rw [act_next, h]

/-- A command that is started in its turn, with its fields in order and its feature committed, runs (R484). -/
theorem Block.begin_eq_run {b : Block} {r : CmdRef} {op f : Nat} {c : Cmd} {inRange : Cmd → Bool} (run : Cmd → Block → Block)
    (starts : b.starting r op = some c) (fields : c.fieldsOk inRange = true) (needs : c.feature = some f) (has : b.committed f = true) :
    b.begin r op inRange run = run c b := by
  simp [Block.begin, starts, fields, needs, has]

/-! ### Windows -/

/-- A range that lies open starts outside the protected regions (R428). -/
theorem Block.region_of_openRange {b : Block} {base len : Nat} (h : b.openRange base len = true) :
    ∃ q, b.region base = some q ∧ isProtected q = false := by
  simp only [Block.openRange, List.all_cons, Bool.and_eq_true] at h
  obtain ⟨start, -⟩ := h
  cases hq : b.region base with
  | none => simp [hq] at start
  | some q => exact ⟨q, rfl, by simpa [hq] using start⟩

/-- A window that may be opened is not empty, lies within BAR4 and starts outside the protected regions (R428). -/
theorem Block.bounds_of_windowOk {b : Block} {c : Cmd} (h : b.windowOk c = true) :
    c.arg 32 8 + c.arg 48 8 ≤ 2 ^ 28 ∧ 0 < c.arg 48 8 ∧ ∃ q, b.region (c.arg 40 8) = some q ∧ isProtected q = false := by
  simp only [Block.windowOk, Bool.and_eq_true, bne_iff_ne, decide_eq_true_eq] at h
  obtain ⟨⟨⟨⟨⟨-, nonempty⟩, within⟩, opens⟩, -⟩, -⟩ := h
  exact ⟨within, Nat.pos_of_ne_zero nonempty, region_of_openRange opens⟩

section
variable {b : Block} {r : CmdRef} {c : Cmd} (fields : c.fieldsOk (fun c => decide (c.arg 24 1 < 8)) = true)
  (needs : c.feature = some 11) (has : b.committed 11 = true)
include fields needs has

theorem Block.windowOpen_of_windowOk (starts : b.starting r 0x60 = some c) (ok : b.windowOk c = true) :
    b.windowOpen r = Block.finish r stOk 0 0 0 { b with den := { b.den with
      windows := b.den.windows.set (c.arg 24 1) (some ⟨c.arg 32 8, c.arg 40 8, c.arg 48 8⟩) } } := by
  rw [Block.windowOpen, Block.begin_eq_run _ starts fields needs has, if_pos ok]

theorem Block.windowOpen_of_not_windowOk (starts : b.starting r 0x60 = some c) (refused : b.windowOk c = false) :
    b.windowOpen r = b.finish r stWindow 0 0 0 := by
  rw [Block.windowOpen, Block.begin_eq_run _ starts fields needs has, if_neg (ne_true_of_eq_false refused)]

theorem Block.windowClose_of_open (starts : b.starting r 0x61 = some c) (opened : b.den.windows.getD (c.arg 24 1) none ≠ none) :
    b.windowClose r = Block.finish r stOk 0 0 0 { b with den := { b.den with windows := b.den.windows.set (c.arg 24 1) none } } := by
  rw [Block.windowClose, Block.begin_eq_run _ starts fields needs has, if_pos (Option.isSome_iff_ne_none.mpr opened)]

theorem Block.windowClose_of_closed (starts : b.starting r 0x61 = some c) (closed : b.den.windows.getD (c.arg 24 1) none = none) :
    b.windowClose r = b.finish r stWindow 0 0 0 := by
  rw [Block.windowClose, Block.begin_eq_run _ starts fields needs has, closed]
  rfl

end

/-! ### Reads -/

/-- A read whose bytes all lie in windows, and map to a run of Den without an uncorrectable error, answers that run (R430). -/
theorem Block.bar4Read_of_mapped {b : Block} {off n a : Nat} (up : b.link.up = true)
    (mapped : ∀ i < n, b.bar4Addr (off + i) = some (a + i) ∧ (a + i) / 64 ∉ b.den.ue) :
    b.bar4Read off n = b.drive (.readReply (memBytes b.den.mem a n)) := by
  have found : ((List.range n).map fun i => b.bar4Addr (off + i)) = ((List.range n).map (a + ·)).map some := by
    simpa using fun i hi => (mapped i hi).1
  have clean : ((List.range n).map (a + ·)).find? (fun x => b.den.ue.contains (x / 64)) = none := by
    simpa using fun i hi => (mapped i hi).2
  have complete : (((List.range n).map (a + ·)).map some).any Option.isNone = false := by simp
  have addresses : (((List.range n).map (a + ·)).map some).filterMap id = (List.range n).map (a + ·) := by simp
  simp only [Block.bar4Read, up, found, complete, addresses, clean, Bool.not_true, Bool.false_eq_true, if_false]
  rw [List.map_map]; rfl

/-- A read with a byte outside every window is an Unsupported Request (R430). -/
theorem Block.bar4Read_of_unmapped {b : Block} {off n i : Nat} (up : b.link.up = true) (inside : i < n)
    (unmapped : b.bar4Addr (off + i) = none) : b.bar4Read off n = b.drive .unsupported := by
  have gap : ((List.range n).map fun i => b.bar4Addr (off + i)).any Option.isNone = true := by
    simpa using ⟨i, inside, unmapped⟩
  simp [Block.bar4Read, up, gap]

/-! ### Writes -/

theorem Block.bar4Write_of_up {b : Block} (up : b.link.up = true) :
    b.bar4Write = { b with den := { b.den with bar4Drop := bump b.den.bar4Drop } } := if_pos up

/-- With the link up or down, a write leaves Den's bytes (R431). -/
@[simp] theorem Block.bar4Write_mem (b : Block) : b.bar4Write.den.mem = b.den.mem := by
  unfold Block.bar4Write
  split <;> rfl

/-- Settles O36: a write counts alone, the window commands run to their two ends, and a read is decided by what its bytes map to. -/
theorem bar4Windows : Obligations.Bar4Windows := by
  unfold Obligations.Bar4Windows
  intro s
  refine ⟨?counted, ?dropped, ?windows, ?inside, ?outside⟩
  case counted =>
    intro o d up
    exact State.act_of_eq (Block.bar4Write_of_up up)
  case dropped =>
    intro o d
    exact ⟨_, rfl, rfl, Block.bar4Write_mem s.toBlock⟩
  case windows =>
    intro r c fields needs has
    refine ⟨fun starts => ⟨fun ok => ?_, fun refused => ?_, Block.bounds_of_windowOk⟩, fun starts => ⟨fun opened => ?_, fun closed => ?_⟩⟩
    · exact State.act_of_eq (Block.windowOpen_of_windowOk fields needs has starts ok)
    · exact State.act_of_eq (Block.windowOpen_of_not_windowOk fields needs has starts refused)
    · exact State.act_of_eq (Block.windowClose_of_open fields needs has starts opened)
    · exact State.act_of_eq (Block.windowClose_of_closed fields needs has starts closed)
  case inside =>
    intro off n a up mapped
    exact State.act_of_eq (Block.bar4Read_of_mapped up mapped)
  case outside =>
    intro off n i up inside unmapped
    exact State.act_of_eq (Block.bar4Read_of_unmapped up inside unmapped)

end Sys2Proof.Machine
end

section
/-! PROOF. What the commands keep of the power state (chapter 17). Away from the governor, the pause, the wake and the supplies no definition touches
it: one lemma per definition or group of definitions, in the order of the model's chapters. -/

namespace Sys2Proof.Machine

@[simp] theorem Block.forCmd_pwr (r : CmdRef) (f : Block → Block) (b : Block) : (b.forCmd r f).pwr = (f b).pwr := by
  simp [Block.forCmd]

@[simp] theorem Block.begin_pwr {run : Cmd → Block → Block} (h : ∀ c b, (run c b).pwr = b.pwr)
    (r : CmdRef) (op : Nat) (inRange : Cmd → Bool) (b : Block) : (b.begin r op inRange run).pwr = b.pwr := by
  rcases begin_cases r op inRange run b with ⟨-, e⟩ | ⟨c, -, ⟨-, e⟩ | ⟨-, -, e⟩ | ⟨-, -, e⟩⟩ <;> simp [e, h]

/-- A read that gave `a` and left `b`: what the read keeps, `b` has. A branch of a definition that takes a pair apart is settled by it. -/
theorem pwr_of_eq {α : Type} {x : α × Block} {a : α} {b : Block} (e : x = (a, b)) : b.pwr = x.2.pwr := by rw [e]

/-! ### Faults (chapter 16) -/

@[simp] theorem Block.redoLane_pwr (lane : Nat) (b : Block) : (b.redoLane lane).pwr = b.pwr := by
  unfold Block.redoLane
  exact foldl_pwr _ (fun b cam => foldl_pwr _ (fun b f => foldl_pwr _ (fun b i => by simp) _ b) _ b) _ b

@[simp] theorem Block.newPosting_pwr (key id prev : Nat) (ins : List InRef) (b : Block) : (b.newPosting key id prev ins).pwr = b.pwr :=
  Block.newPosting_cases (P := fun c => c.pwr = b.pwr) (fun a body => by simp) (by simp)

@[simp] theorem Block.postSample_pwr (key id : Nat) (ins : List InRef) (b : Block) : (b.postSample key id ins).pwr = b.pwr := by
  simp only [Block.postSample]
  (repeat' split) <;> simp

/-- `noted` says the change of one flag for an arbitrary block: at the block reached, comparing the two sides would lay out its log. -/
@[simp] theorem Block.loopEnd_pwr (j : Job) (e : JobEnd) (b : Block) : (b.loopEnd j e).pwr = b.pwr := by
  have noted : ∀ c : Block, c.pwr = b.pwr → { c with badger := { c.badger with pendLoop := true } }.pwr = b.pwr :=
    fun _ h => h
  unfold Block.loopEnd
  extract_lets ps
  split
  extract_lets refused
  have told : ∀ b, (refused b).pwr = b.pwr := by simp [refused]
  split
  · extract_lets r
    split
    exact noted _ (by simp)
  · simp [told]
  · simp [told]

@[simp] theorem Block.hostEnd_pwr (j : Job) (e : JobEnd) (b : Block) : (b.hostEnd j e).pwr = b.pwr := by
  simp only [Block.hostEnd]
  (repeat' split) <;> simp

@[simp] theorem Block.jobEnd_pwr (n : Nat) (e : JobEnd) (b : Block) : (b.jobEnd n e).pwr = b.pwr := by
  simp only [Block.jobEnd]
  (repeat' split) <;> simp

@[simp] theorem Block.jobsWithoutTiles_pwr (b : Block) : b.jobsWithoutTiles.pwr = b.pwr := by
  simp [Block.jobsWithoutTiles]

@[simp] theorem Block.fence_pwr (unit cause : BitVec 8) (k : Fenceable) (b : Block) : (b.fence unit cause k).pwr = b.pwr := by
  simp only [Block.fence]
  (repeat' split) <;> simp

@[simp] theorem Block.blame_pwr (unit : BitVec 8) (cause : Nat) (b : Block) : (b.blame unit cause).pwr = b.pwr := by
  simp only [Block.blame]
  (repeat' split) <;> simp

@[simp] theorem Block.faultCounts_pwr (b : Block) :
    (∀ i unit cause, (b.bridgeFault i unit cause).pwr = b.pwr) ∧ (∀ p verifier cause, (b.integrityFault p verifier cause).pwr = b.pwr)
    ∧ (∀ a, (b.memFault a).pwr = b.pwr) := by
  simp only [Block.bridgeFault, Block.integrityFault, Block.memFault]
  and_intros <;> intros <;> (repeat' split) <;> simp

@[simp] theorem Block.poolFault_pwr (b : Block) : b.poolFault.pwr = b.pwr := by
  simp [Block.poolFault]

@[simp] theorem Block.readObjects_pwr (as : List Nat) (b : Block) : (b.readObjects as).pwr = b.pwr := by
  refine foldl_pwr _ (fun b a => ?_) _ b
  split <;> simp

/-! ### Reads of parcels (R174) -/

@[simp] theorem Block.verify_pwr (p : Parcel) (seen : Seen) (verifier : BitVec 8) (b : Block) : (b.verify p seen verifier).2.pwr = b.pwr := by
  simp only [Block.verify]
  (repeat' split) <;> simp

@[simp] theorem Block.verifyAll_pwr (reads : Reads) (unit : BitVec 8) (ps : List Parcel) (b : Block) : (b.verifyAll reads unit ps).2.pwr = b.pwr := by
  induction ps generalizing b with
  | nil => rfl
  | cons p ps ih =>
    unfold Block.verifyAll
    split <;> next e => simp [ih, pwr_of_eq e]

@[simp] theorem Block.verifyRefs_pwr (rs : List InRef) (reads : Reads) (unit : BitVec 8) (b : Block) :
    (b.verifyRefs rs reads unit).2.pwr = b.pwr := by
  simp [Block.verifyRefs]

@[simp] theorem Block.controlIn_pwr (type : BitVec 16) (p : Parcel) (b : Block) : (b.controlIn type p).2.pwr = b.pwr := by
  unfold Block.controlIn
  split <;> next e => (repeat' split) <;> simp [pwr_of_eq e]

/-! ### Fox (chapter 08) -/

@[simp] theorem Block.bandParts_pwr (b : Block) :
    (∀ f, (b.under f).pwr = b.pwr) ∧ (∀ cam fs index g, (b.onBand cam fs index g).pwr = b.pwr)
    ∧ (∀ lane cam f x reads, (b.verifyLines lane cam f x reads).pwr = b.pwr) ∧ (∀ lane cam f x w, (b.bandSealed lane cam f x w).pwr = b.pwr)
    ∧ b.foxCutoffDue.pwr = b.pwr := by
  simp [Block.under, Block.onBand, Block.verifyLines, Block.bandSealed, Block.foxCutoffDue]

@[simp] theorem Block.foxBands_pwr (b : Block) :
    (∀ lane, (b.bandStart lane).pwr = b.pwr) ∧ (∀ lane reads, (b.bandSeal lane reads).pwr = b.pwr) := by
  simp only [Block.bandStart, Block.bandSeal]
  and_intros <;> intros <;> (repeat' split) <;> simp

/-! ### Alignment and fusion (chapter 09) -/

@[simp] theorem Block.takePriors_pwr (gates : List (BitVec 4 × BitVec 32)) (b : Block) : (b.takePriors gates).1.pwr = b.pwr := by
  refine foldl_fst_pwr _ (fun acc s => ?_) _ (b, ({} : PriorUse))
  split
  · rfl
  · simp
  · extract_lets d2
    split <;> simp

@[simp] theorem Block.verifyOutputs_pwr (sec : Bool) (reads : Reads) (b : Block) : (b.verifyOutputs sec reads).pwr = b.pwr := by
  refine foldl_pwr _ (fun b p => ?_) _ b
  split <;> next e => simp [pwr_of_eq e]

@[simp] theorem Block.verifySol_pwr (o : Option SolRec) (reads : Reads) (b : Block) : (b.verifySol o reads).2.pwr = b.pwr := by
  unfold Block.verifySol
  split
  · rfl
  · split <;> next e => simp [pwr_of_eq e]

@[simp] theorem Block.afuSeals_pwr (b : Block) :
    (∀ payload ins, (b.sealPreint payload ins).pwr = b.pwr) ∧ (∀ payload ins, (b.sealPose payload ins).pwr = b.pwr) ∧ b.poseNone.pwr = b.pwr
    ∧ (∀ s, (b.poseSolved s).pwr = b.pwr) ∧ (∀ s, (b.poseCarried s).pwr = b.pwr) ∧ (∀ s t, (b.predFrom s t).pwr = b.pwr)
    ∧ (∀ t, (b.predNone t).pwr = b.pwr) ∧ (∀ r, (b.prior r).pwr = b.pwr) ∧ (∀ reads, (b.verifySols reads).pwr = b.pwr) := by
  simp [Block.sealPreint, Block.sealPose, Block.poseNone, Block.poseSolved, Block.poseCarried, Block.predFrom, Block.predNone, Block.prior,
    Block.verifySols]

@[simp] theorem Block.afuParts_pwr (b : Block) :
    (∀ e t, (b.endpointLost e t).pwr = b.pwr) ∧ (∀ p, (b.takePrior p).1.pwr = b.pwr) ∧ (∀ r c hs, (b.priorHeads r c hs).pwr = b.pwr) := by
  simp only [Block.endpointLost, Block.takePrior, Block.priorHeads]
  and_intros <;> intros <;> (repeat' split) <;> simp

@[simp] theorem Block.preintHeld_pwr (b : Block) : b.preintHeld.pwr = b.pwr := by
  simp only [Block.preintHeld]
  (repeat' split) <;> simp

@[simp] theorem Block.afuSteps_pwr (b : Block) :
    b.preintFrom.pwr = b.pwr ∧ (∀ r c p, (b.priorPart r c p).pwr = b.pwr) := by
  simp only [Block.preintFrom, Block.priorPart]
  and_intros <;> intros <;> (repeat' split) <;> simp

@[simp] theorem Block.afuOutputs_pwr (b : Block) :
    (∀ reads, (b.preintBuild reads).pwr = b.pwr) ∧ (∀ reads, (b.assemblePose reads).pwr = b.pwr) ∧ (∀ reads, (b.predEmit reads).pwr = b.pwr) := by
  simp only [Block.preintBuild, Block.assemblePose, Block.predEmit]
  and_intros <;> intros <;> (repeat' split) <;> simp

@[simp] theorem Block.poseAssembly_pwr (reads : Reads) (b : Block) : (b.poseAssembly reads).pwr = b.pwr := by
  simp [Block.poseAssembly]

/-! ### Owl (chapter 10) -/

@[simp] theorem Block.owlStarts_pwr (b : Block) :
    (∀ r, (b.owlModelLoad r).pwr = b.pwr) ∧ (∀ r status detail, (b.loadFails r status detail).pwr = b.pwr)
    ∧ (∀ r c hs, (b.modelHeads r c hs).pwr = b.pwr) ∧ (∀ r, (b.owlScore r).pwr = b.pwr) ∧ (∀ x ins, (b.engineVerify x ins).2.pwr = b.pwr) := by
  simp [Block.owlModelLoad, Block.loadFails, Block.modelHeads, Block.owlScore, Block.engineVerify]

@[simp] theorem Block.owlParts_pwr (b : Block) :
    (∀ r c p, (b.modelPart r c p).pwr = b.pwr) ∧ (∀ r c hs, (b.featureHeads r c hs).pwr = b.pwr) ∧ (∀ r c p, (b.featurePart r c p).pwr = b.pwr)
    ∧ (∀ thread j record, (b.owlRecord thread j record).pwr = b.pwr) ∧ (∀ slots, (b.makeKeyframe slots).pwr = b.pwr)
    ∧ (∀ cam, (b.owlGateLate cam).pwr = b.pwr) := by
  simp only [Block.modelPart, Block.featureHeads, Block.featurePart, Block.owlRecord, Block.makeKeyframe, Block.owlGateLate]
  and_intros <;> intros <;> (repeat' split) <;> simp

@[simp] theorem Block.fixOldest_pwr (lo hi : Nat) (b : Block) : (b.fixOldest lo hi).pwr = b.pwr := by
  unfold Block.fixOldest
  extract_lets all
  (repeat' split) <;> simp

@[simp] theorem Block.nodeUe_pwr (slot : Fin 8) (reloadOk : Bool) (b : Block) : (b.nodeUe slot reloadOk).pwr = b.pwr := by
  unfold Block.nodeUe
  split
  · rfl
  · simp only [Block.owlEnter_frame]
    refine (foldl_pwr _ (fun b j => ?_) _ _).trans (by simp)
    split <;> simp

@[simp] theorem Block.owlResults_pwr (b : Block) :
    (∀ thread index, (b.owlSampleResult thread index).pwr = b.pwr) ∧ (∀ slots pass, (b.keyframeDecided slots pass).pwr = b.pwr)
    ∧ (∀ new cand refs, (b.loopAccepted new cand refs).pwr = b.pwr) := by
  simp only [Block.owlSampleResult, Block.keyframeDecided, Block.loopAccepted]
  and_intros <;> intros <;> (repeat' split) <;> simp

@[simp] theorem Block.owlScores_pwr (x : OwlIn) (b : Block) :
    (b.gateScore x).pwr = b.pwr ∧ (b.keyframeScore x).pwr = b.pwr ∧ (b.cullScore x).pwr = b.pwr ∧ (b.loopScore x).pwr = b.pwr
    ∧ (b.motionScore x).pwr = b.pwr := by
  simp only [Block.gateScore, Block.keyframeScore, Block.cullScore, Block.loopScore, Block.motionScore]
  and_intros
  all_goals
    split
    · simp
    · split
      · simp
      · split <;> next e => (repeat' split) <;> simp [pwr_of_eq e]

@[simp] theorem Block.owlEngineScore_pwr (use : OwlUse) (x : OwlIn) (b : Block) : (b.owlEngineScore use x).pwr = b.pwr := by
  simp only [Block.owlEngineScore]
  (repeat' split) <;> simp

/-! ### Badger (chapter 11) -/

@[simp] theorem Block.problems_pwr (b : Block) :
    b.vioInitStep.pwr = b.pwr ∧ (∀ x, (b.vioProblem x).pwr = b.pwr) ∧ (∀ x, (b.vioVerify x).2.pwr = b.pwr)
    ∧ (∀ r c pcg ins init f, (b.hostJob r c pcg ins init f).pwr = b.pwr) ∧ (∀ r c, (b.hostGraph r c).pwr = b.pwr)
    ∧ (∀ r c, (b.hostAlign r c).pwr = b.pwr) ∧ (∀ r c hs, (b.problemHeads r c hs).pwr = b.pwr) ∧ (∀ r c p, (b.problemPart r c p).pwr = b.pwr) := by
  simp [Block.vioInitStep, Block.vioProblem, Block.vioVerify, Block.hostJob, Block.hostGraph, Block.hostAlign, Block.problemHeads,
    Block.problemPart]

@[simp] theorem Block.solverSteps_pwr (b : Block) :
    (∀ j f row col, (b.trip j f row col).pwr = b.pwr) ∧ (∀ n tile k f vals ins, (b.putBlock n tile k f vals ins).pwr = b.pwr)
    ∧ (∀ j tile p, (b.redoBlock j tile p).pwr = b.pwr) ∧ (∀ j d, (b.lmDecide j d).pwr = b.pwr) ∧ (∀ j d, (b.linearDecide j d).pwr = b.pwr)
    ∧ b.vioReset.pwr = b.pwr := by
  simp [Block.trip, Block.putBlock, Block.redoBlock, Block.lmDecide, Block.linearDecide, Block.vioReset]

@[simp] theorem Block.vioAssembly_pwr (x : VioIn) (b : Block) : (b.vioAssembly x).pwr = b.pwr := by
  unfold Block.vioAssembly
  split
  · split <;> next e => simp [pwr_of_eq e]
  · rfl

@[simp] theorem Block.badgerJob_pwr (r : CmdRef) (b : Block) : (b.badgerJob r).pwr = b.pwr := by
  refine Block.begin_pwr (fun c b => ?_) _ _ _ _
  (repeat' split) <;> simp

@[simp] theorem Block.verifyOp_pwr (n tile : Nat) (ps : List Parcel) (reads : Reads) (b : Block) : (b.verifyOp n tile ps reads).2.pwr = b.pwr := by
  unfold Block.verifyOp
  split <;> next e => (repeat' split) <;> simp [pwr_of_eq e]

@[simp] theorem Block.solverParts_pwr (b : Block) :
    (∀ j tile, (b.nextOp j tile).pwr = b.pwr) ∧ (∀ j tile row col vals, (b.inputOp j tile row col vals).pwr = b.pwr)
    ∧ (∀ n d, (b.iterationDecide n d).pwr = b.pwr) ∧ (∀ n, (b.badgerDeadline n).pwr = b.pwr) := by
  simp only [Block.nextOp, Block.inputOp, Block.iterationDecide, Block.badgerDeadline]
  and_intros <;> intros <;> (repeat' split) <;> simp

@[simp] theorem Block.blockOp_pwr (j : Job) (tile : Nat) (op : BlockOp) (b : Block) : (b.blockOp j tile op).pwr = b.pwr := by
  simp only [Block.blockOp]
  (repeat' split) <;> simp

@[simp] theorem Block.blockOpDone_pwr (n : Nat) (tile : Fin 16) (op : BlockOp) (residueOk : Bool) (reads : Reads) (b : Block) :
    (b.blockOpDone n tile op residueOk reads).pwr = b.pwr := by
  unfold Block.blockOpDone
  extract_lets b1 free
  have freed : ∀ b, (free b).pwr = b.pwr := fun _ => rfl
  have h1 : b1.pwr = b.pwr := rfl
  split
  · rfl
  · split
    · rfl
    · split
      · simp [h1]
      · split
        · simp [freed, h1]
        · split <;> next e => simp [freed, pwr_of_eq e, h1]

/-! ### Den (chapter 12) -/

@[simp] theorem Block.denCommands_pwr (b : Block) :
    (∀ o, (b.writeObs o).pwr = b.pwr) ∧ (∀ o, (b.writePoints o).pwr = b.pwr) ∧ (∀ o, (b.writeEdges o).pwr = b.pwr) ∧ b.zqCalibration.pwr = b.pwr
    ∧ (∀ r, (b.windowOpen r).pwr = b.pwr) ∧ (∀ r, (b.windowClose r).pwr = b.pwr) ∧ b.bar4Write.pwr = b.pwr := by
  simp [Block.writeObs, Block.writePoints, Block.writeEdges, Block.zqCalibration, Block.windowOpen, Block.windowClose, Block.bar4Write]

@[simp] theorem Block.mapParts_pwr (b : Block) :
    (∀ o, (b.writeHead o).pwr = b.pwr) ∧ (∀ o, (b.writePosting o).pwr = b.pwr) ∧ (∀ m, (b.hotMove m).pwr = b.pwr)
    ∧ (∀ a, (b.hostReadFault a).pwr = b.pwr) ∧ (∀ a found, (b.sramScrub a found).pwr = b.pwr)
    ∧ (∀ a found link, (b.dramScrub a found link).pwr = b.pwr) := by
  simp only [Block.writeHead, Block.writePosting, Block.hotMove, Block.hostReadFault, Block.sramScrub, Block.dramScrub]
  and_intros <;> intros <;> (repeat' split) <;> simp

@[simp] theorem Block.mapAccesses_pwr (b : Block) :
    (∀ o, (b.mapWrite o).pwr = b.pwr) ∧ (∀ ms, (b.hotColdMove ms).pwr = b.pwr) ∧ (∀ off len, (b.bar4Read off len).pwr = b.pwr) := by
  simp only [Block.mapWrite, Block.hotColdMove, Block.bar4Read]
  and_intros <;> intros <;> (repeat' split) <;> simp

/-! ### Guests (chapter 13) -/

@[simp] theorem Block.guestStays_pwr (b : Block) :
    (∀ s gid member, (b.assignGuest s gid member).pwr = b.pwr) ∧ (∀ p, (b.stageFrag p).pwr = b.pwr) ∧ (∀ p, (b.reportStale p).pwr = b.pwr)
    ∧ (∀ r, (b.guestFragment r).pwr = b.pwr) ∧ (∀ r c hs, (b.fragHeads r c hs).pwr = b.pwr) ∧ (∀ r, (b.guestClose r).pwr = b.pwr)
    ∧ (∀ s n, (b.mergeDropped s n).pwr = b.pwr) ∧ (∀ s, (b.purgeSlot s).pwr = b.pwr) ∧ (∀ slot, (b.guestIdle slot).pwr = b.pwr)
    ∧ (∀ slot, (b.guestEvicted slot).pwr = b.pwr) ∧ (∀ slot, (b.guestCooled slot).pwr = b.pwr) := by
  simp [Block.assignGuest, Block.stageFrag, Block.reportStale, Block.guestFragment, Block.fragHeads, Block.guestClose, Block.mergeDropped,
    Block.purgeSlot, Block.guestIdle, Block.guestEvicted, Block.guestCooled]

@[simp] theorem Block.guestOpen_pwr (r : CmdRef) (b : Block) : (b.guestOpen r).pwr = b.pwr := by
  refine Block.begin_pwr (fun c b => ?_) _ _ _ _
  split <;> simp

@[simp] theorem Block.fragParts_pwr (b : Block) :
    (∀ r c p, (b.fragPart r c p).pwr = b.pwr) ∧ (∀ s samples, (b.alignPairs s samples).1.pwr = b.pwr) := by
  simp only [Block.fragPart, Block.alignPairs]
  and_intros <;> intros <;> (repeat' split) <;> simp

@[simp] theorem Block.guestAligns_pwr (b : Block) :
    (∀ slot samples, (b.guestAlignStart slot samples).pwr = b.pwr) ∧ (∀ s gp, (b.takePoint s gp).2.pwr = b.pwr)
    ∧ (∀ s record ins, (b.addEdge s record ins).pwr = b.pwr) ∧ (∀ s body ins, (b.mergeHead s body ins).pwr = b.pwr) := by
  simp only [Block.guestAlignStart, Block.takePoint, Block.addEdge, Block.mergeHead]
  and_intros <;> intros <;> (repeat' split) <;> simp

@[simp] theorem Block.mergeRef_pwr (s : Nat) (gp : BitVec 32) (b : Block) : (b.mergeRef s gp).2.pwr = b.pwr := by
  unfold Block.mergeRef
  split
  · rfl
  · split
    · split <;> next e => simp [pwr_of_eq e]
    · rfl

@[simp] theorem Block.mergeObs_pwr (s : Nat) (body : Bytes) (ins : List InRef) (b : Block) : (b.mergeObs s body ins).pwr = b.pwr := by
  simp only [Block.mergeObs]
  (repeat' split) <;> simp

@[simp] theorem Block.mergePoints_pwr (s : Nat) (body : Bytes) (ins : List InRef) (b : Block) : (b.mergePoints s body ins).pwr = b.pwr := by
  unfold Block.mergePoints
  extract_lets recs r
  have h : r.1.pwr = b.pwr := by
    refine foldl_fst_pwr _ (fun acc x => ?_) _ (b, [])
    dsimp only
    split
    · rfl
    · split <;> next e => simp [pwr_of_eq e]
  simp [h]

@[simp] theorem Block.mergeEdges_pwr (s : Nat) (body : Bytes) (ins : List InRef) (b : Block) : (b.mergeEdges s body ins).pwr = b.pwr := by
  refine foldl_pwr _ (fun b x => ?_) _ b
  split <;> simp

@[simp] theorem Block.mergeOne_pwr (s : Nat) (reads : Reads) (b : Block) : (b.mergeOne s reads).2.pwr = b.pwr := by
  unfold Block.mergeOne
  split
  · rfl
  · split
    · simp
    · next e _ => simp [pwr_of_eq e]
    · next e _ =>
      extract_lets b' body b1 b2
      have h' : b'.pwr = b.pwr := by simp [b', pwr_of_eq e]
      have h1 : b1.pwr = b.pwr := by
        simp only [b1]
        split <;> simp [h']
      simp [b2, h1]

@[simp] theorem Block.mergeSome_pwr (reads : Reads) (n : Nat) (b : Block) : (b.mergeSome reads n).pwr = b.pwr := by
  induction n generalizing b with
  | zero => rfl
  | succ n ih =>
    unfold Block.mergeSome
    split
    · split
      · next e => simp [ih, pwr_of_eq e]
      · next e => simp [pwr_of_eq e]
    · rfl

@[simp] theorem Block.guestMerge_pwr (reads : Reads) (b : Block) : (b.guestMerge reads).pwr = b.pwr := by
  simp [Block.guestMerge]

/-! ### Trails (chapter 15) -/

@[simp] theorem Block.queueMap_pwr (b : Block) : b.queueMap.pwr = b.pwr := by
  unfold Block.queueMap
  extract_lets put b1 b2
  have h : ∀ kind a b, (put kind a b).pwr = b.pwr := by
    intro kind a b
    simp only [put]
    split <;> simp
  simp [h, b2, b1]

@[simp] theorem Block.laneCommands_pwr (b : Block) :
    (∀ l, (b.startTraining l).pwr = b.pwr) ∧ (∀ l, (b.trainAttempt l).pwr = b.pwr) ∧ (∀ l, (b.trainTimeout l).pwr = b.pwr)
    ∧ (∀ l, (b.laneRetry l).pwr = b.pwr) ∧ (∀ l count, (b.headerErrors l count).pwr = b.pwr) ∧ (∀ l, (b.lockLoss l).pwr = b.pwr)
    ∧ (∀ l, (b.retrainReq l).pwr = b.pwr) ∧ (∀ l rate far, (b.laneUp l rate far).pwr = b.pwr) ∧ (∀ k w, (b.widthReqIn k w).pwr = b.pwr)
    ∧ (∀ k w, (b.widthAckIn k w).pwr = b.pwr) := by
  simp [Block.startTraining, Block.trainAttempt, Block.trainTimeout, Block.laneRetry, Block.headerErrors, Block.lockLoss, Block.retrainReq,
    Block.laneUp, Block.widthReqIn, Block.widthAckIn]

@[simp] theorem Block.flits_pwr (b : Block) :
    (∀ k s, (b.takeAck k s).pwr = b.pwr) ∧ (∀ k s, (b.takeNak k s).pwr = b.pwr) ∧ (∀ k, (b.sendNak k).pwr = b.pwr)
    ∧ (∀ k, (b.sendAck k).pwr = b.pwr) ∧ (∀ x, (b.routeParcel x).pwr = b.pwr) ∧ (∀ k f, (b.takeBeats k f).pwr = b.pwr)
    ∧ (∀ k flit, (b.flitReceive k flit).pwr = b.pwr) ∧ (∀ k seq, (b.nakReceive k seq).pwr = b.pwr) ∧ (∀ k, (b.ackTimer k).pwr = b.pwr) := by
  simp [Block.takeAck, Block.takeNak, Block.sendNak, Block.sendAck, Block.routeParcel, Block.takeBeats, Block.flitReceive, Block.nakReceive,
    Block.ackTimer]

@[simp] theorem Block.trailTurns_pwr (b : Block) :
    b.rollSend.pwr = b.pwr ∧ b.tellUplinks.pwr = b.pwr ∧ (∀ n, (b.rollDone n).pwr = b.pwr) ∧ (∀ tag p, (b.readRespIn tag p).pwr = b.pwr)
    ∧ (∀ r, (b.sendRead r).pwr = b.pwr) ∧ b.joinRetry.pwr = b.pwr ∧ b.fragAckLate.pwr = b.pwr := by
  simp [Block.rollSend, Block.tellUplinks, Block.rollDone, Block.readRespIn, Block.sendRead, Block.joinRetry, Block.fragAckLate]

@[simp] theorem Block.trailTimeouts_pwr (b : Block) :
    (∀ k, (b.flitTimeout k).pwr = b.pwr) ∧ (∀ tag, (b.readTimeout tag).pwr = b.pwr) ∧ (∀ serial, (b.chipLost serial).pwr = b.pwr) := by
  simp only [Block.flitTimeout, Block.readTimeout, Block.chipLost]
  and_intros <;> intros <;> (repeat' split) <;> simp

@[simp] theorem Block.trailInputs_pwr (b : Block) :
    (∀ k p, (b.rollReceive k p).pwr = b.pwr) ∧ (∀ p, (b.assignIn p).pwr = b.pwr) ∧ (∀ src p, (b.readReqIn src p).pwr = b.pwr)
    ∧ (∀ p, (b.joinReplyIn p).pwr = b.pwr) ∧ (∀ p, (b.fragAckIn p).pwr = b.pwr) ∧ (∀ p, (b.fragIn p).pwr = b.pwr)
    ∧ (∀ p, (b.leaveIn p).pwr = b.pwr) ∧ (∀ p, (b.sealReportIn p).pwr = b.pwr) := by
  simp only [Block.rollReceive, Block.assignIn, Block.readReqIn, Block.joinReplyIn, Block.fragAckIn, Block.fragIn, Block.leaveIn,
    Block.sealReportIn]
  and_intros <;> intros <;> split <;> next e => (repeat' split) <;> simp [pwr_of_eq e]

@[simp] theorem Block.becomeMaster_pwr (b : Block) : b.becomeMaster.pwr = b.pwr := by
  simp only [Block.becomeMaster, Block.trailTurns_pwr]
  refine foldl_pwr _ (fun b x => ?_) _ _
  split <;> simp

@[simp] theorem Block.rollSettle_pwr (b : Block) : b.rollSettle.pwr = b.pwr := by
  simp [Block.rollSettle]

@[simp] theorem Block.joinIn_pwr (p : Parcel) (b : Block) : (b.joinIn p).pwr = b.pwr := by
  unfold Block.joinIn
  split
  · next e => simp [pwr_of_eq e]
  · next e =>
    extract_lets member gid reply
    have replied : ∀ slot gen st b, (reply slot gen st b).pwr = b.pwr := by simp [reply]
    clear_value reply
    split
    · simp [pwr_of_eq e]
    · split <;> simp [pwr_of_eq e, replied]

/-! ### The island fabric and the detections (chapters 01 and 16) -/

@[simp] theorem Block.islandCommands_pwr (b : Block) :
    (∀ n f, (b.onBridge n f).pwr = b.pwr) ∧ (∀ sender receiver unit, (b.bridgeWatchdog sender receiver unit).pwr = b.pwr)
    ∧ (∀ island, (b.restartDone island).pwr = b.pwr) := by
  simp [Block.onBridge, Block.bridgeWatchdog, Block.restartDone]

@[simp] theorem Block.detections_pwr (b : Block) :
    (∀ sender receiver h, (b.bridgeBeat sender receiver h).pwr = b.pwr) ∧ (∀ c waiting, (b.detect c waiting).pwr = b.pwr) := by
  simp only [Block.bridgeBeat, Block.detect]
  and_intros <;> intros <;> (repeat' split) <;> simp

/-! ### The host link (chapter 14) -/

@[simp] theorem Block.hostCommands_pwr (b : Block) :
    (∀ q f, (b.onQueue q f).pwr = b.pwr) ∧ (∀ st f, (b.onStream st f).pwr = b.pwr) ∧ (∀ q, (b.bellError q).pwr = b.pwr)
    ∧ (∀ q value, (b.sqTail q value).pwr = b.pwr) ∧ (∀ q value, (b.cqHead q value).pwr = b.pwr) ∧ (∀ st value, (b.streamHead st value).pwr = b.pwr)
    ∧ (∀ off size, (b.badBell off size).pwr = b.pwr) ∧ (∀ q entry, (b.commandFetch q entry).pwr = b.pwr) ∧ (∀ r, (b.nop r).pwr = b.pwr)
    ∧ (∀ r, (b.streamClose r).pwr = b.pwr) ∧ (∀ st p, (b.putSlot st p).pwr = b.pwr) ∧ (∀ st, (b.streamReset st).pwr = b.pwr)
    ∧ (∀ q, (b.qEnable q).pwr = b.pwr) ∧ (∀ q, (b.qDisable q).pwr = b.pwr) ∧ (∀ v, (b.coalesceTimer v).pwr = b.pwr)
    ∧ (∀ command addr count, (b.sidebandRead command addr count).pwr = b.pwr) := by
  simp [Block.onQueue, Block.onStream, Block.bellError, Block.sqTail, Block.cqHead, Block.streamHead, Block.badBell, Block.commandFetch, Block.nop,
    Block.streamClose, Block.putSlot, Block.streamReset, Block.qEnable, Block.qDisable, Block.coalesceTimer, Block.sidebandRead]

@[simp] theorem Block.hostParts_pwr (b : Block) :
    (∀ q, (b.completionWrite q).pwr = b.pwr) ∧ b.journalReadout.pwr = b.pwr ∧ (∀ r, (b.abort r).pwr = b.pwr) := by
  simp only [Block.completionWrite, Block.journalReadout, Block.abort]
  and_intros <;> intros <;> (repeat' split) <;> simp

@[simp] theorem Block.heldCompletions_pwr (q : Fin 16) (n : Nat) (b : Block) : (b.heldCompletions q n).pwr = b.pwr := by
  induction n generalizing b with
  | zero => rfl
  | succ n ih =>
    unfold Block.heldCompletions
    split <;> simp [ih]

@[simp] theorem Block.qResume_pwr (b : Block) :
    (∀ q, (b.qResume q).pwr = b.pwr) ∧ b.streamTwoOpened.pwr = b.pwr := by
  simp [Block.qResume, Block.streamTwoOpened]

@[simp] theorem Block.streamOpen_pwr (r : CmdRef) (ue : BitVec 2) (b : Block) : (b.streamOpen r ue).pwr = b.pwr := by
  simp [Block.streamOpen]

@[simp] theorem Block.putGap_pwr (st : Nat) (b : Block) : (b.putGap st).pwr = b.pwr := by
  simp only [Block.putGap]
  (repeat' split) <;> simp

@[simp] theorem Block.streamWrites_pwr (b : Block) :
    (∀ st p, (b.putParcel st p).pwr = b.pwr) ∧ (∀ st, (b.streamResume st).pwr = b.pwr) := by
  simp [Block.putParcel, Block.streamResume]

@[simp] theorem Block.parcelWrite_pwr (st : Fin 8) (seen : Seen) (b : Block) : (b.parcelWrite st seen).pwr = b.pwr := by
  unfold Block.parcelWrite
  extract_lets s
  split
  · rfl
  · split
    · rfl
    · extract_lets b1
      have h1 : b1.pwr = b.pwr := rfl
      split <;> next e => simp [pwr_of_eq e, h1]

/-! ### The settings (chapter 03) -/

@[simp] theorem Block.settingsCommands_pwr (r : CmdRef) (b : Block) :
    (b.shadowWrite r).pwr = b.pwr ∧ (b.check r).pwr = b.pwr ∧ (b.apply r).pwr = b.pwr ∧ (b.syncShadow r).pwr = b.pwr := by
  and_intros <;> refine Block.begin_pwr (fun c b => ?_) _ _ _ _ <;> split <;> simp

@[simp] theorem Block.settingsReads_pwr (b : Block) :
    (∀ r, (b.settingsRead r).pwr = b.pwr) ∧ (∀ r c hs, (b.pageHeads r c hs).pwr = b.pwr) ∧ (∀ r c p, (b.pagePart r c p).pwr = b.pwr)
    ∧ (∀ r c status, (b.dataFails r c status).pwr = b.pwr) ∧ (∀ r c hs, (b.dataHeads r c hs).pwr = b.pwr)
    ∧ (∀ r c p, (b.dataPart r c p).pwr = b.pwr) := by
  simp [Block.settingsRead, Block.pageHeads, Block.pagePart, Block.dataFails, Block.dataHeads, Block.dataPart]

@[simp] theorem Block.settingsSteps_pwr (b : Block) :
    b.checkComplete.pwr = b.pwr ∧ (∀ epoch, (b.swapSets epoch).pwr = b.pwr) := by
  simp only [Block.checkComplete, Block.swapSets]
  and_intros <;> intros <;> (repeat' split) <;> simp

@[simp] theorem Block.dmaRead_pwr (r : CmdRef) (d : DmaData) (b : Block) : (b.dmaRead r d).pwr = b.pwr := by
  simp only [Block.dmaRead]
  (repeat' split) <;> simp

/-! ### Epochs, time and the link (chapters 01, 04 and 14) -/

@[simp] theorem Block.restPins_pwr (old : List Memory) (b : Block) : (b.restPins old).pwr = b.pwr := by
  refine foldl_pwr _ (fun b pin => ?_) _ b
  split <;> simp

@[simp] theorem Block.owlSwap_pwr (old : List Memory) (b : Block) : (b.owlSwap old).pwr = b.pwr := by
  refine foldl_pwr _ (fun b j => ?_) _ b
  (repeat' split) <;> simp

@[simp] theorem Block.fragAcks_pwr (b : Block) : b.fragAcks.pwr = b.pwr := by
  unfold Block.fragAcks
  split
  · refine foldl_pwr _ (fun b s => ?_) _ b
    dsimp only
    split <;> simp
  · rfl

@[simp] theorem Block.epochParts_pwr (b : Block) :
    b.journalOnce.pwr = b.pwr ∧ (∀ k, (b.portRecords k).pwr = b.pwr) ∧ (∀ g, (b.ifcRecords g).pwr = b.pwr) ∧ b.counterRecords.pwr = b.pwr
    ∧ b.endEpoch.pwr = b.pwr ∧ (∀ ks, (b.closeFrames ks).pwr = b.pwr) ∧ (∀ new t c, (b.reconfigure new t c).pwr = b.pwr)
    ∧ (∀ new t c, (b.rescaleLater new t c).pwr = b.pwr) ∧ (∀ new t, (b.stopUnits new t).pwr = b.pwr) ∧ (∀ old t, (b.startSlots old t).pwr = b.pwr)
    ∧ (∀ old, (b.foxSwap old).pwr = b.pwr) ∧ (∀ old, (b.trailSwap old).pwr = b.pwr) ∧ b.evictAll.pwr = b.pwr
    ∧ (∀ made, (b.applyFeatures made).pwr = b.pwr) ∧ (∀ n t made cap, (b.stepRate n t made cap).pwr = b.pwr) ∧ (∀ n t, (b.rebase n t).pwr = b.pwr)
    ∧ b.chooseInertial.pwr = b.pwr ∧ (∀ ds, (b.readDram ds).pwr = b.pwr) ∧ b.memberTurn.pwr = b.pwr ∧ b.sweep.pwr = b.pwr := by
  simp [Block.journalOnce, Block.portRecords, Block.ifcRecords, Block.counterRecords, Block.endEpoch, Block.closeFrames, Block.reconfigure,
    Block.rescaleLater, Block.stopUnits, Block.startSlots, Block.foxSwap, Block.trailSwap, Block.evictAll, Block.applyFeatures, Block.stepRate,
    Block.rebase, Block.chooseInertial, Block.readDram, Block.memberTurn, Block.sweep]

@[simp] theorem Block.leaveJob_pwr (new : List Memory) (b : Block) : (b.leaveJob new).pwr = b.pwr := by
  simp only [Block.leaveJob]
  (repeat' split) <;> simp

@[simp] theorem Block.swapAt_pwr (n : Nat) (t : Tick) (b : Block) : (b.swapAt n t).pwr = b.pwr := by
  simp [Block.swapAt]

@[simp] theorem Block.timeLost_pwr (b : Block) :
    (∀ cause, (b.timeLost cause).pwr = b.pwr) ∧ (∀ cause, (b.timeRegained cause).pwr = b.pwr) := by
  simp [Block.timeLost, Block.timeRegained]

@[simp] theorem Block.ptmCommands_pwr (b : Block) :
    (∀ value, (b.lostAck value).pwr = b.pwr) ∧ b.ptmStart.pwr = b.pwr ∧ b.ptmDue.pwr = b.pwr ∧ b.ptmDeferred.pwr = b.pwr
    ∧ (∀ master delay, (b.ptmComplete master delay).pwr = b.pwr) ∧ b.ptmFail.pwr = b.pwr := by
  simp [Block.lostAck, Block.ptmStart, Block.ptmDue, Block.ptmDeferred, Block.ptmComplete, Block.ptmFail]

@[simp] theorem Block.linkCommands_pwr (b : Block) :
    (∀ set h, (b.commitSet set h).pwr = b.pwr) ∧ (∀ word value, (b.acceptWrite word value).pwr = b.pwr) ∧ (∀ value, (b.helloDone value).pwr = b.pwr)
    ∧ (∀ speed bme msix ptm, (b.linkUp speed bme msix ptm).pwr = b.pwr) ∧ b.linkDown.pwr = b.pwr ∧ b.busMasterOff.pwr = b.pwr ∧ b.flr.pwr = b.pwr := by
  simp [Block.commitSet, Block.acceptWrite, Block.helloDone, Block.linkUp, Block.linkDown, Block.busMasterOff, Block.flr]

@[simp] theorem Block.thermosCommands_pwr (b : Block) :
    (∀ running, (b.refChange running).pwr = b.pwr) ∧ (∀ kind outcome, (b.logBrown kind outcome).pwr = b.pwr)
    ∧ (∀ toVbk, (b.sourceSwitch toVbk).pwr = b.pwr) ∧ b.crystalRestart.pwr = b.pwr ∧ b.thermosExit.pwr = b.pwr := by
  simp [Block.refChange, Block.logBrown, Block.sourceSwitch, Block.crystalRestart, Block.thermosExit]

@[simp] theorem Block.helloExpiry_pwr (waiting : List Instr) (b : Block) : (b.helloExpiry waiting).pwr = b.pwr := by
  simp only [Block.helloExpiry]
  (repeat' split) <;> simp

@[simp] theorem Block.nvValue_pwr (value : BitVec 32) (err : Bool) (b : Block) : (b.nvValue value err).2.pwr = b.pwr := by
  simp only [Block.nvValue]
  (repeat' split) <;> simp

/-! ### Boot and the block edge (chapters 02 and 18) -/

@[simp] theorem Block.bootSteps_pwr (b : Block) :
    b.probeTimeout.pwr = b.pwr ∧ (∀ word value err, (b.otpResponse word value err).pwr = b.pwr) ∧ b.rollFails.pwr = b.pwr ∧ b.otpTimeout.pwr = b.pwr
    ∧ b.slotTimeout.pwr = b.pwr ∧ b.loadTimeout.pwr = b.pwr ∧ (∀ trained mib, (b.dramTrained trained mib).pwr = b.pwr)
    ∧ (∀ trained mib, (b.trainingDone trained mib).pwr = b.pwr) ∧ (∀ trained mib, (b.trainingTimeout trained mib).pwr = b.pwr)
    ∧ b.startUnits.pwr = b.pwr := by
  simp [Block.probeTimeout, Block.otpResponse, Block.rollFails, Block.otpTimeout, Block.slotTimeout, Block.loadTimeout, Block.dramTrained,
    Block.trainingDone, Block.trainingTimeout, Block.startUnits]

@[simp] theorem Block.bootParts_pwr (b : Block) :
    (∀ beat, (b.bootResponse beat).pwr = b.pwr) ∧ (∀ f, (b.slotAttempt f).pwr = b.pwr) ∧ b.bootMismatch.pwr = b.pwr
    ∧ (∀ unit ok, (b.selfTest unit ok).pwr = b.pwr) ∧ b.rollStep.pwr = b.pwr := by
  simp only [Block.bootResponse, Block.slotAttempt, Block.bootMismatch, Block.selfTest, Block.rollStep]
  and_intros <;> intros <;> (repeat' split) <;> simp

@[simp] theorem Block.programResponse_pwr (err readback : Bool) (b : Block) : (b.programResponse err readback).pwr = b.pwr := by
  simp only [Block.programResponse]
  (repeat' split) <;> simp

@[simp] theorem Block.bringupTimeout_pwr (b : Block) : b.bringupTimeout.pwr = b.pwr := by
  simp only [Block.bringupTimeout]
  (repeat' split) <;> simp

@[simp] theorem Block.edgeClocks_pwr (b : Block) :
    (∀ i, (b.clockAgain i).pwr = b.pwr) ∧ (∀ l, (b.laneAbsent l).pwr = b.pwr) := by
  simp only [Block.clockAgain, Block.laneAbsent]
  and_intros <;> intros <;> (repeat' split) <;> simp

@[simp] theorem Block.edgeBeat_pwr (ch : Fin 53) (beat : Beat) (early : Bool) (b : Block) : (b.edgeBeat ch beat early).pwr = b.pwr := by
  simp only [Block.edgeBeat]
  (repeat' split) <;> simp

@[simp] theorem Block.edgeStall_pwr (ch : Fin 53) (b : Block) : (b.edgeStall ch).pwr = b.pwr := by
  simp [Block.edgeStall]

/-! ### Registers (chapter 19) -/

@[simp] theorem Block.registerParts_pwr (b : Block) :
    (∀ k i, (b.clearPort k i).pwr = b.pwr) ∧ (∀ off, (b.clearCounter off).pwr = b.pwr) ∧ (∀ off value, (b.clearBits off value).pwr = b.pwr)
    ∧ (∀ q v, (b.queueCtrl q v).pwr = b.pwr) ∧ (∀ st v, (b.streamCtrl st v).pwr = b.pwr) ∧ (∀ on, (b.ptmControl on).pwr = b.pwr) := by
  simp [Block.clearPort, Block.clearCounter, Block.clearBits, Block.queueCtrl, Block.streamCtrl, Block.ptmControl]

@[simp] theorem Block.ptmLatch_pwr (b : Block) : b.ptmLatch.pwr = b.pwr := by
  unfold Block.ptmLatch
  extract_lets t
  generalize BitVec.ofNat 192 _ = v
  rfl

@[simp] theorem Block.registerReads_pwr (b : Block) :
    (∀ off, (b.readWord off).2.pwr = b.pwr) ∧ (∀ size, (b.readPtm size).pwr = b.pwr) ∧ (∀ off, (b.clearLow off).pwr = b.pwr) := by
  simp only [Block.readWord, Block.readPtm, Block.clearLow]
  and_intros <;> intros <;> (repeat' split) <;> simp

@[simp] theorem Block.registerClears_pwr (b : Block) :
    (∀ off, (b.read4 off).pwr = b.pwr) ∧ (∀ off value, (b.clearWrite off value).pwr = b.pwr) := by
  simp only [Block.read4, Block.clearWrite]
  and_intros <;> intros <;> (repeat' split) <;> simp

@[simp] theorem Block.msixWrite_pwr (off : Nat) (v : BitVec 32) (b : Block) : (b.msixWrite off v).pwr = b.pwr := by
  unfold Block.msixWrite
  extract_lets k x b1
  have h1 : b1.pwr = b.pwr := by clear_value x; rfl
  split <;> simp [h1]

/-! ### The Thermos domain (chapter 04) -/

@[simp] theorem Block.counterCommands_pwr (b : Block) :
    (∀ cause, (b.epochUp cause).pwr = b.pwr) ∧ b.nvTimeout.pwr = b.pwr ∧ b.tporRelease.pwr = b.pwr := by
  simp [Block.epochUp, Block.nvTimeout, Block.tporRelease]

@[simp] theorem Block.counterAnswers_pwr (b : Block) :
    b.crystalStop.pwr = b.pwr ∧ (∀ value err, (b.nvResponse value err).pwr = b.pwr) := by
  simp only [Block.crystalStop, Block.nvResponse]
  and_intros <;> intros <;> (repeat' split) <;> simp

end Sys2Proof.Machine
end

section
/-! PROOF. SHUTDOWN stays until reset, and goes before PAUSE (O57, R649). The operations that do touch the power state keep the bit; SHUTDOWN itself
and the host's writes are taken one by one at the end. -/

namespace Sys2Proof.Machine

@[simp] theorem foldl_shutdown {α : Type} (f : Block → α → Block) (h : ∀ b x, (f b x).pwr.shutdown = b.pwr.shutdown) (l : List α) (b : Block) :
    (l.foldl f b).pwr.shutdown = b.pwr.shutdown :=
  foldl_keeps (fun b => b.pwr.shutdown) f h l b

@[simp] theorem ite_shutdown (c : Prop) [Decidable c] (x y : Pwr) :
    (if c then x else y).shutdown = if c then x.shutdown else y.shutdown := apply_ite Pwr.shutdown c x y

/-! ### The wake, the governor and the supplies (chapters 17 and 18) -/

@[simp] theorem Block.governor_shutdown (b : Block) :
    (∀ src, (b.wakeUp src).pwr.shutdown = b.pwr.shutdown) ∧ b.skinCheck.pwr.shutdown = b.pwr.shutdown
    ∧ (∀ source value, (b.skinBack source value).pwr.shutdown = b.pwr.shutdown)
    ∧ b.govLatch.pwr.shutdown = b.pwr.shutdown ∧ b.thermalStep.pwr.shutdown = b.pwr.shutdown
    ∧ (∀ cause t since, (b.burstEnd cause t since).pwr.shutdown = b.pwr.shutdown)
    ∧ (∀ t q, (b.movePoints t q).pwr.shutdown = b.pwr.shutdown) ∧ b.untrip.pwr.shutdown = b.pwr.shutdown := by
  simp [Block.wakeUp, Block.skinCheck, Block.skinBack, Block.govLatch, Block.thermalStep, Block.burstEnd, Block.movePoints, Block.movePoint,
    Block.untrip]

@[simp] theorem Block.supplies_shutdown (b : Block) :
    (∀ is, (b.islandsDown is).pwr.shutdown = b.pwr.shutdown) ∧ (∀ is, (b.islandsUp is).pwr.shutdown = b.pwr.shutdown)
    ∧ (∀ i, (b.packMatch i).pwr.shutdown = b.pwr.shutdown) ∧ (∀ island, (b.ackRise island).pwr.shutdown = b.pwr.shutdown)
    ∧ (∀ level, (b.retAck level).pwr.shutdown = b.pwr.shutdown) ∧ (∀ island, (b.ackFall island).pwr.shutdown = b.pwr.shutdown)
    ∧ (∀ island, (b.ackTimeout island).pwr.shutdown = b.pwr.shutdown) := by
  simp [Block.islandsDown, Block.islandsUp, Block.packMatch, Block.islandOn, Block.ackRise, Block.retAck, Block.ackFall, Block.ackTimeout]

@[simp] theorem Block.governorSteps_shutdown (b : Block) :
    (∀ x, (b.planCommit x).pwr.shutdown = b.pwr.shutdown) ∧ (∀ t len p, (b.burstStep t len p).pwr.shutdown = b.pwr.shutdown)
    ∧ (∀ i, (b.voltageRaise i).pwr.shutdown = b.pwr.shutdown) ∧ (∀ i, (b.voltageLower i).pwr.shutdown = b.pwr.shutdown)
    ∧ (∀ i delivered, (b.packTimeout i delivered).pwr.shutdown = b.pwr.shutdown) := by
  simp only [Block.planCommit, Block.burstStep, Block.voltageRaise, Block.voltageLower, Block.packTimeout]
  and_intros <;> intros <;> (repeat' split) <;> simp

/-! ### The commands of the governor (R585 to R597) -/

@[simp] theorem Block.powerCommands_shutdown (b : Block) :
    (∀ value, (b.budgetWrite value).pwr.shutdown = b.pwr.shutdown) ∧ (∀ value, (b.skinWrite value).pwr.shutdown = b.pwr.shutdown)
    ∧ b.skinReadDue.pwr.shutdown = b.pwr.shutdown ∧ b.skinStale.pwr.shutdown = b.pwr.shutdown
    ∧ (∀ temps valid, (b.dieSample temps valid).pwr.shutdown = b.pwr.shutdown)
    ∧ (∀ sensor temp, (b.thermalTrip sensor temp).pwr.shutdown = b.pwr.shutdown) ∧ b.journalCommit.pwr.shutdown = b.pwr.shutdown
    ∧ b.pauseRequest.pwr.shutdown = b.pwr.shutdown ∧ b.pauseClear.pwr.shutdown = b.pwr.shutdown := by
  simp [Block.budgetWrite, Block.skinWrite, Block.skinReadDue, Block.skinStale, Block.dieSample, Block.thermalTrip, Block.journalCommit,
    Block.pauseRequest, Block.askPause, Block.pauseClear]

@[simp] theorem Block.powerSteps_shutdown (b : Block) :
    (∀ value, (b.skinReadDone value).pwr.shutdown = b.pwr.shutdown) ∧ b.cooldownEnd.pwr.shutdown = b.pwr.shutdown := by
  simp only [Block.skinReadDone, Block.cooldownEnd]
  and_intros <;> intros <;> (repeat' split) <;> simp

/-! ### The inertial chain, whose SYNC wakes the engine (chapter 07) -/

@[simp] theorem Block.ifcOutputs_shutdown (b : Block) :
    (∀ c u r, (b.evRun c u r).pwr.shutdown = b.pwr.shutdown) ∧ (∀ c n code, (b.ifcOutput c n code).pwr.shutdown = b.pwr.shutdown)
    ∧ (∀ c i, (b.ifcEnter c i).pwr.shutdown = b.pwr.shutdown) := by
  simp [Block.evRun, Block.ifcOutput, Block.ifcEnter]

@[simp] theorem Block.ifcSample_shutdown (c slot : Nat) (stamp : Tick) (code : BitVec 8) (ovr : Bool) (raw : BitVec 32) (src : InRef) (b : Block) :
    (b.ifcSample c slot stamp code ovr raw src).pwr.shutdown = b.pwr.shutdown := by
  unfold Block.ifcSample
  extract_lets x rate prev delta k enter inp last b1
  have entered : ∀ i b, (enter i b).pwr.shutdown = b.pwr.shutdown := by simp [enter]
  have h1 : b1.pwr.shutdown = b.pwr.shutdown := by
    simp only [b1]
    split
    · simp
    · split
      · rfl
      · split
        · refine (foldl_shutdown _ (fun b j => ?_) _ _).trans (by simp)
          dsimp only [last]
          split <;> simp [entered]
        · simp
  split
  · rfl
  · simp [entered, h1]

@[simp] theorem Block.ifcTimers_shutdown (b : Block) :
    (∀ slot p, (b.ifcTake slot p).pwr.shutdown = b.pwr.shutdown) ∧ (∀ group, (b.ifcOutTimer group).pwr.shutdown = b.pwr.shutdown)
    ∧ (∀ ch set, (b.coefRefused ch set).pwr.shutdown = b.pwr.shutdown) ∧ b.syncWake.pwr.shutdown = b.pwr.shutdown := by
  simp [Block.ifcTake, Block.ifcOutTimer, Block.coefRefused, Block.syncWake]

@[simp] theorem Block.ifcInput_shutdown (b : Block) :
    (∀ slot seen, (b.ifcInput slot seen).pwr.shutdown = b.pwr.shutdown) ∧ (∀ pin, (b.trigPulseEnd pin).pwr.shutdown = b.pwr.shutdown) := by
  simp only [Block.ifcInput, Block.trigPulseEnd]
  and_intros <;> intros <;> (repeat' split) <;> simp

@[simp] theorem Block.syncFrom_shutdown (bit : Nat) (stamp : Tick) (b : Block) : (b.syncFrom bit stamp).1.pwr.shutdown = b.pwr.shutdown := by
  simp only [Block.syncFrom]
  (repeat' split) <;> simp

@[simp] theorem Block.syncEdge_shutdown (width : Nat) (b : Block) : (b.syncEdge width).pwr.shutdown = b.pwr.shutdown := by
  simp [Block.syncEdge]

@[simp] theorem Block.syncCmd_shutdown (r : CmdRef) (b : Block) : (b.syncCmd r).pwr.shutdown = b.pwr.shutdown := by
  unfold Block.syncCmd
  generalize hf : (fun (_ : Cmd) (b : Block) => _) = run
  have h : ∀ c b, (run c b).pwr.shutdown = b.pwr.shutdown := by simp [← hf]
  rcases begin_cases r 0x05 (fun _ => true) run b with ⟨-, e⟩ | ⟨c, -, ⟨-, e⟩ | ⟨-, -, e⟩ | ⟨-, -, e⟩⟩ <;> simp [e, h]

/-! ### Epochs, the pause and the resume (chapters 01 and 17) -/

@[simp] theorem Block.epochParts_shutdown (b : Block) :
    b.shutEnd.pwr.shutdown = b.pwr.shutdown ∧ b.denWakes.pwr.shutdown = b.pwr.shutdown
    ∧ (∀ n t len p mw, (b.freshEpoch n t len p mw).pwr.shutdown = b.pwr.shutdown) := by
  simp [Block.shutEnd, Block.denWakes, Block.freshEpoch]

@[simp] theorem Block.enterPause_shutdown (t : Tick) (b : Block) : (b.enterPause t).pwr.shutdown = b.pwr.shutdown := by
  unfold Block.enterPause
  (repeat' split) <;> simp

@[simp] theorem Block.epochStarts_shutdown (b : Block) :
    (∀ n t dram vack resume, (b.startEpoch n t dram vack resume).pwr.shutdown = b.pwr.shutdown)
    ∧ (∀ dram vack, (b.epochBoundary dram vack).pwr.shutdown = b.pwr.shutdown) := by
  simp [Block.startEpoch, Block.epochBoundary]

@[simp] theorem Block.resume_shutdown (b : Block) : b.resume.pwr.shutdown = b.pwr.shutdown := by
  unfold Block.resume
  (repeat' split) <;> simp

/-! ### Boot (chapter 02) -/

@[simp] theorem Block.bringup_shutdown (b : Block) :
    (∀ populated, (b.bringupStart populated).pwr.shutdown = b.pwr.shutdown) ∧ b.readyEntry.pwr.shutdown = b.pwr.shutdown := by
  simp [Block.bringupStart, Block.readyEntry]

@[simp] theorem Block.mainRelease_shutdown (probe : FlashProbe) (b : Block) : (b.mainRelease probe).pwr.shutdown = b.pwr.shutdown := by
  unfold Block.mainRelease
  (repeat' split) <;> simp

/-! ### POWER_CTRL (R649) -/

section
variable {b : Block} (h : b.pwr.shutdown = true)
include h

theorem Block.shutDown_of_shut : b.shutDown = b := by simp [Block.shutDown, h]
theorem Block.pauseRequest_of_shut : b.pauseRequest = b := by simp [Block.pauseRequest, h]
theorem Block.pauseClear_of_shut : b.pauseClear = b := by simp [Block.pauseClear, h]

/-- Once SHUTDOWN is 1, a write to POWER_CTRL does nothing. -/
theorem Block.powerCtrl_of_shut (v : BitVec 32) : b.powerCtrl v = b := by
  simp [Block.powerCtrl, Block.shutDown_of_shut h, Block.pauseRequest_of_shut h, Block.pauseClear_of_shut h]

end

theorem Block.powerCtrl_of_shutdownBit {v : BitVec 32} (hv : v.getLsbD 1 = true) (b : Block) : b.powerCtrl v = b.shutDown := by
  simp [Block.powerCtrl, hv]

/-! ### Register writes (chapter 19) -/

/-- A SOFT_RESET without its key is counted and nothing more. -/
theorem Block.softReset_pwr_of_not_softKey {b : Block} {v : BitVec 32} (hv : ¬softKey v) : (b.softReset v).pwr = b.pwr := by
  unfold Block.softReset
  split
  · rfl
  · split
    · next hk => exact absurd (by simpa [softKey] using hk) hv
    · simp

/-- A word written leaves SHUTDOWN at 1, unless it is a keyed SOFT_RESET. -/
theorem Block.wordWrite_shut {off : Nat} {v : BitVec 32} {b : Block} (hv : regAccess off = .soft → ¬softKey v) (h : b.pwr.shutdown = true) :
    (b.wordWrite off v).pwr.shutdown = true := by
  unfold Block.wordWrite
  split
  · next e =>
    split
    · exact h
    · rw [Block.softReset_pwr_of_not_softKey (hv e), h]
  · (repeat' split) <;> simp [h, Block.powerCtrl_of_shut h]
  · exact h

theorem Block.wordWrites_shut {ws : List (Nat × BitVec 32)} (hws : ∀ w ∈ ws, regAccess w.1 = .soft → ¬softKey w.2) {b : Block}
    (h : b.pwr.shutdown = true) : (ws.foldl (fun b w => b.wordWrite w.1 w.2) b).pwr.shutdown = true := by
  induction ws generalizing b with
  | nil => exact h
  | cons w ws ih => exact ih (fun x hx => hws x (List.mem_cons_of_mem _ hx)) (Block.wordWrite_shut (hws w List.mem_cons_self) h)

theorem Block.msixWrites_pwr (ws : List (Nat × BitVec 32)) (b : Block) : (ws.foldl (fun b w => b.msixWrite w.1 w.2) b).pwr = b.pwr := by
  induction ws generalizing b with
  | nil => rfl
  | cons w ws ih => rw [List.foldl_cons, ih, Block.msixWrite_pwr]

theorem Block.bar0Write_shut {off size : Nat} {value : BitVec 64} {b : Block} (hr : ¬Resets (.registerWrite (.bar0 off size value)))
    (h : b.pwr.shutdown = true) : (b.bar0Write off size value).pwr.shutdown = true := by
  unfold Block.bar0Write
  generalize inBlock 0xE000 0x200 off = inTable
  generalize inBlock 0xF000 8 off = inPba
  extract_lets aligned ws
  split
  · split
    · exact (congrArg Pwr.shutdown (Block.msixWrites_pwr ws b)).trans h
    · exact h
  · split
    · exact h
    · split
      · simp [h]
      · next b1 b2 _ _ hal =>
        have h2 : b2.pwr.shutdown = true := by simp [b2, b1, h]
        have hal : aligned = true := by simpa using hal
        exact Block.wordWrites_shut (fun w => softKey_of_accessWords hal hr) h2

theorem Block.registerWrite_shut {w : RegWrite} {b : Block} (hr : ¬Resets (.registerWrite w)) (h : b.pwr.shutdown = true) :
    (b.registerWrite w).pwr.shutdown = true := by
  unfold Block.registerWrite
  split
  · exact h
  · cases w with
    | bar0 off size value => exact Block.bar0Write_shut hr h
    | _ => simp [h]

/-- A write of one word to a register of access RW in READY, other than to an enabled queue's configuration, does what the register does with
the word: it clears nothing and is not counted. -/
theorem Block.registerWrite_rw {off : Nat} {b : Block} {v : BitVec 64} (hb : b.ready = true) (low : off < 0x2000) (al : off % 4 = 0)
    (hrw : regAccess off = .rw) (good : b.wordBad off (v.setWidth 32) = false) :
    b.registerWrite (.bar0 off 4 v) = b.wordWrite off (v.setWidth 32) := by
  have hw : b.awake = true := by
    have hp : b.boot.phase = .ready := by simpa [Block.ready] using hb
    simp [Block.awake, hp]
  have table : inBlock 0xE000 0x200 off = false := by simp [inBlock]; omega
  have pba : inBlock 0xF000 8 off = false := by simp [inBlock]; omega
  have kept : b.clearWrite off (v.setWidth 32) = b := by simp [Block.clearWrite, hrw]
  simp [Block.registerWrite, Block.bar0Write, accessWords, hw, table, pba, al, kept, good]

/-- A write of POWER_CTRL in READY (R649). -/
theorem Block.registerWrite_powerCtrl {b : Block} (hb : b.ready = true) (v : BitVec 64) :
    b.registerWrite (.bar0 0x220 4 v) = b.powerCtrl (v.setWidth 32) := by
  have hrw : regAccess 0x220 = .rw := by decide
  have good : b.wordBad 0x220 (v.setWidth 32) = false := by simp [Block.wordBad, hrw, inBlock]
  rw [Block.registerWrite_rw hb (by decide) (by decide) hrw good]
  simp [Block.wordWrite, hrw, hb, good]

/-! ### SHUTDOWN stays (R649) -/

/-- No command but a reset clears SHUTDOWN: the block's other operations leave it as it is, and the command SHUTDOWN and the host's writes
do nothing to it once it is set. -/
theorem exec_shut {c : Instr} {s t : State} (e : exec c s = .next t) (h : s.pwr.shutdown = true) (hr : ¬Resets c) :
    t.pwr.shutdown = true := by
  cases c with
  | resetNFall => simp [Resets] at hr
  | mainBrownout r => simp [Resets] at hr
  | coldThermosPor => simp [Resets] at hr
  | thermosArbitration a f => simp [Resets] at hr
  | softReset v =>
    cases e
    exact (congrArg Pwr.shutdown (Block.softReset_pwr_of_not_softKey fun hv => hr (resets_softReset hv))).trans h
  | shutdown => cases e; exact (congrArg (·.pwr.shutdown) (Block.shutDown_of_shut h)).trans h
  | registerWrite w => cases e; exact Block.registerWrite_shut hr h
  | _ => cases e; simp [h]

/-- Settles O57: of all commands SHUTDOWN and the register writes alone may touch the bit, and once it is set POWER_CTRL does nothing. -/
theorem shutdownStays : Obligations.ShutdownStays := by
  unfold Obligations.ShutdownStays
  refine ⟨fun c s t e h hr => exec_shut e h hr, fun s v ready h _ => ?_, fun s v ready both => ?_⟩
  all_goals have write := Block.registerWrite_powerCtrl (b := s.toBlock) (by simp [Block.ready, ready]) v
  · exact State.act_of_eq (write.trans (Block.powerCtrl_of_shut h _))
  · have acts := write.trans (Block.powerCtrl_of_shutdownBit (by simpa using both) s.toBlock)
    exact State.act_of_eq acts

end Sys2Proof.Machine
end

section
/-! PROOF. STREAM_CTRL (O43, R654). A write to it in READY is the command it spells, RESET before RESUME, and both commands find nothing to do at a
stream that is not open. -/

namespace Sys2Proof.Machine

/-- The offset of a stream's STREAM_CTRL is a register of access RW, and names the stream (Table 19-11). -/
theorem streamCtrl_access : ∀ k : Fin 8, regAccess (0x1400 + 0x20 * k) = .rw ∧ Fin.ofNat 8 ((0x1400 + 0x20 * k.val - 0x1400) / 0x20) = k := by
  decide

/-- A write of STREAM_CTRL in READY does what its low bits ask for. -/
theorem Block.registerWrite_streamCtrl {b : Block} (hb : b.ready = true) (k : Fin 8) (v : BitVec 64) :
    b.registerWrite (.bar0 (0x1400 + 0x20 * k) 4 v) = b.streamCtrl k (v.setWidth 32) := by
  obtain ⟨hrw, hk⟩ := streamCtrl_access k
  have good : b.wordBad (0x1400 + 0x20 * k) (v.setWidth 32) = false := by simp [Block.wordBad, hrw, inBlock]
  rw [Block.registerWrite_rw hb (by omega) (by omega) hrw good]
  simp only [Block.wordWrite, hrw, hb, good, hk]
  rw [if_neg (by decide)]
  repeat rw [if_neg (by omega)]

theorem Block.streamCtrl_of_reset {v : BitVec 32} (hv : v.getLsbD 1 = true) (k : Fin 8) (b : Block) : b.streamCtrl k v = b.streamReset k := by
  simp [Block.streamCtrl, hv]

theorem Block.streamReset_of_open {b : Block} (hb : b.ready = true) {k : Fin 8} (hk : (b.stream k).isOpen = true) :
    b.streamReset k = b.onStream k Stream.shut := by
  simp [Block.streamReset, hb, hk]

section
variable {b : Block} {k : Fin 8} (hk : (b.stream k).isOpen = false)
include hk

theorem Block.streamReset_of_closed : b.streamReset k = b := by simp [Block.streamReset, hk]
theorem Block.streamResume_of_closed : b.streamResume k = b := by simp [Block.streamResume, hk]

theorem Block.streamCtrl_of_closed (v : BitVec 32) : b.streamCtrl k v = b := by
  simp [Block.streamCtrl, Block.streamReset_of_closed hk, Block.streamResume_of_closed hk]

end

/-- Settles O43: the write is `Block.streamCtrl`, whose RESET branch comes first, and a closed stream leaves both branches empty. -/
theorem streamControl : Obligations.StreamControl := by
  unfold Obligations.StreamControl
  intro s k ready
  have hb : s.toBlock.ready = true := by simp [Block.ready, ready]
  have reset : ∀ v : BitVec 64, (v.setWidth 32).getLsbD 1 = true →
      exec (.registerWrite (.bar0 (0x1400 + 0x20 * k) 4 v)) s = exec (.streamReset k) s := fun v hv =>
    State.act_of_eq ((Block.registerWrite_streamCtrl hb k v).trans (Block.streamCtrl_of_reset hv k _))
  refine ⟨reset 3 (by decide), reset 2 (by decide), fun opened => ?_, fun closed => ⟨?_, ?_, fun v => ?_⟩, fun x => ⟨rfl, rfl, rfl, rfl, rfl⟩⟩
  · exact State.act_of_eq (Block.streamReset_of_open hb opened)
  · exact State.act_of_eq (Block.streamReset_of_closed closed)
  · exact State.act_of_eq (Block.streamResume_of_closed closed)
  · exact State.act_of_eq ((Block.registerWrite_streamCtrl hb k v).trans (Block.streamCtrl_of_closed closed _))

end Sys2Proof.Machine
end

section
/-! PROOF. EVENT_CAUSE (O44, R648). Setting a bit that is set changes nothing; setting one that is clear is the signal of vector 0; a write of 1 clears
the bit alone. -/

namespace Sys2Proof.Machine

theorem getLsbD_setBit_self {w i : Nat} (h : i < w) (x : BitVec w) : (setBit x i).getLsbD i = true := by
  rw [getLsbD_setBit x i i h, decide_eq_true rfl, Bool.or_true]

theorem setBit_of_getLsbD {w i : Nat} {x : BitVec w} (h : x.getLsbD i = true) : setBit x i = x := by
  apply BitVec.eq_of_getLsbD_eq
  intro j hj
  rw [getLsbD_setBit x i j (BitVec.lt_of_getLsbD h)]
  by_cases e : j = i
  · rw [e, h, Bool.true_or]
  · rw [decide_eq_false e, Bool.or_false]

theorem Block.cause_of_set {b : Block} {i : Nat} (h : b.host.eventCause.getLsbD i = true) : b.cause i = b := by
  rw [cause_again i b h, setBit_of_getLsbD h]

/-- The block with a bit of EVENT_CAUSE set, before anything is signalled. -/
def Block.withCause (i : Nat) (b : Block) : Block := { b with host := { b.host with eventCause := setBit b.host.eventCause i } }

theorem Block.cause_of_clear {b : Block} {i : Nat} (h : b.host.eventCause.getLsbD i = false) : b.cause i = (b.withCause i).signal 0 := by
  simp [Block.cause, Block.withCause, h]

/-- A write of 1 to a bit of EVENT_CAUSE clears it and leaves the others (R645). -/
theorem Block.clearWrite_eventCause {b : Block} (hb : b.awake = true) (v : BitVec 32) :
    b.clearWrite 0x230 v = { b with host := { b.host with eventCause := b.host.eventCause &&& ~~~(v.setWidth 4) } } := by
  have hw : regAccess 0x230 = .w1c := by decide
  simp [Block.clearWrite, Block.clearBits, hb, hw]

theorem getLsbD_two_pow_setWidth : ∀ i j : Fin 4, ((BitVec.ofNat 32 (2 ^ i.val)).setWidth 4).getLsbD j = decide (j = i) := by decide

theorem getLsbD_clear {w j : Nat} (h : j < w) (x y : BitVec w) : (x &&& ~~~y).getLsbD j = (x.getLsbD j && !y.getLsbD j) := by
  rw [BitVec.getLsbD_and, BitVec.getLsbD_not, decide_eq_true h, Bool.true_and]

/-- Settles O44: a set bit makes `Block.cause` the identity, a clear one the signal of vector 0, and the host's write clears the bit it names. -/
theorem eventCause : Obligations.EventCause := by
  unfold Obligations.EventCause
  refine ⟨fun b i => ⟨Block.cause_of_set, fun clear => ?_⟩, fun s i awake => ?_⟩
  · have signals := Block.cause_of_clear clear
    refine ⟨cause_eventCause i b, ?_, fun live on unmasked => ?_, fun live on masked => ?_, ?_⟩
    · rw [cause_eventCause, getLsbD_setBit_self i.isLt]
    · rw [signals, signal_unmasked 0 (b.withCause i) live on unmasked]; rfl
    · rw [signals, signal_masked 0 (b.withCause i) live on masked]
      exact ⟨rfl, getLsbD_setBit_self (by decide) _⟩
    · rw [signals]; rfl
  · refine completes_of_act rfl ?_
    rw [Block.clearWrite_eventCause (by simp [Block.awake, awake])]
    refine ⟨?_, fun j hj => ?_, rfl⟩
    · rw [getLsbD_clear i.isLt, getLsbD_two_pow_setWidth, decide_eq_true rfl, Bool.not_true, Bool.and_false]
    · rw [getLsbD_clear j.isLt, getLsbD_two_pow_setWidth, decide_eq_false hj, Bool.not_false, Bool.and_true]

end Sys2Proof.Machine
end

section
/-! PROOF. GOV_BUDGET and GOV_SKIN (O18, R587, R589 and R652). -/

namespace Sys2Proof.Machine

/-! ### GOV_BUDGET (R587) -/

/-- No 64-bit register begins at GOV_BUDGET or ends there. -/
theorem Block.wide_govBudget (b : Block) : b.wide 0x600 = none ∧ b.wide (0x600 - 4) = none := by
  simp only [Block.wide, inBlock]
  exact ⟨rfl, rfl⟩

theorem Block.lowReg_govBudget (b : Block) : b.lowReg 0x600 = b.pwr.sustained.toNat + b.pwr.burstMw.toNat * 65536 := rfl

/-- GOV_BUDGET reads the two fields of the budget. -/
theorem Block.reg32_govBudget (b : Block) : b.reg32 0x600 = BitVec.ofNat 32 (b.pwr.sustained.toNat + b.pwr.burstMw.toNat * 65536) := by
  obtain ⟨here, below⟩ := b.wide_govBudget
  unfold Block.reg32
  rw [if_pos (by decide), here, below]
  dsimp only
  rw [if_pos (by decide), Block.lowReg_govBudget]

theorem Block.budgetWrite_of_ready {b : Block} (hb : b.ready = true) (v : BitVec 32) :
    b.budgetWrite v = { b with pwr := { b.pwr with
      budgetSet := true, sustained := b.clampSustained (v.toNat % 65536), burstMw := b.clampBurst (v.toNat / 65536) } } := by
  have low : (v.extractLsb' 0 16).toNat = v.toNat % 65536 := by simp
  have high : (v.extractLsb' 16 16).toNat = v.toNat / 65536 := by
    have := v.isLt
    simp [Nat.shiftRight_eq_div_pow]; omega
  simp only [Block.budgetWrite, hb, low, high]; rfl

/-! ### GOV_SKIN and its age (R589) -/

/-- The block once an event is emitted in it, in terms of the two parts that the event may change. -/
theorem Block.event_eq (code : Nat) (source : BitVec 8) (body : Bytes) (b : Block) :
    b.event code source body = { b with host := (b.event code source body).host, flt := (b.event code source body).flt } := by
  unfold Block.event
  rw [emit_eq]

/-- A value from a source in use may end a loss of the skin input, and nothing else. -/
theorem Block.skinBack_eq (source : Nat) (value : BitVec 16) (b : Block) :
    b.skinBack source value = { b with
      pwr := { b.pwr with skinLost := (b.skinBack source value).pwr.skinLost }
      host := (b.skinBack source value).host, flt := (b.skinBack source value).flt } := by
  unfold Block.skinBack
  split
  · rw [Block.event_eq]
  · rfl

/-- A write of GOV_SKIN stamps its value with the present tick. -/
theorem Block.skinWrite_eq {b : Block} (hb : b.ready = true) (v : BitVec 32) :
    b.skinWrite v = { b with
      pwr := { b.pwr with skin := v.setWidth 16, skinAt := some b.now, skinLost := (b.skinWrite v).pwr.skinLost }
      host := (b.skinWrite v).host, flt := (b.skinWrite v).flt } := by
  have value : v.extractLsb' 0 16 = v.setWidth 16 := BitVec.eq_of_toNat_eq (by simp)
  simp only [Block.skinWrite, hb, value, if_true]
  exact Block.skinBack_eq ..

/-- With the host as its source, the skin input is lost by age alone. -/
theorem Block.skinLostCause_of_host {b : Block} {u : Tick} (host : b.feat.committed.getLsbD 14 = true) (stamp : b.pwr.skinAt = some u) :
    b.skinLostCause = 3 ↔ u + b.skinStaleAge < b.now := by
  have source : b.skinFrom = 2 := by simp [Block.skinFrom, Block.committed, featSkin, host]
  simp [Block.skinLostCause, source, stamp]

/-- SKIN_STALE with a stale value marks the input LOST and tells cause 3. -/
theorem Block.skinStale_of_stale {b : Block} (hb : b.ready = true) (stale : b.skinLostCause = 3) (fresh : b.pwr.skinLost = false) :
    b.skinStale = { b with pwr := { b.pwr with skinLost := true } }.event 0x0051 0xFF [3] := by
  simp [Block.skinStale, Block.skinCheck, hb, stale, fresh]; rfl

/-- Settles O18: the budget write is its clamped fields, the skin write its stamped value, and the loss by age tells SKIN_LOST. -/
theorem budgetAndSkin : Obligations.BudgetAndSkin := by
  unfold Obligations.BudgetAndSkin
  intro s ready
  have hb : s.toBlock.ready = true := by simp [Block.ready, ready]
  refine ⟨fun v => completes_of_act rfl ?_, fun v => completes_of_act rfl ?_, fun u => Block.skinLostCause_of_host,
    fun stale fresh => completes_of_act rfl ?_⟩
  · rw [Block.budgetWrite_of_ready hb]
    exact ⟨by simp [Block.clampSustained, Block.clampBurst], Block.reg32_govBudget _⟩
  · rw [Block.skinWrite_eq hb]
    exact ⟨rfl, rfl, rfl, rfl, rfl, rfl⟩
  · rw [Block.skinStale_of_stale hb stale fresh]
    refine ⟨by simp, ⟨?_, ?_⟩, ?_⟩
    all_goals rw [Block.event_eq]

end Sys2Proof.Machine
end

section
/-! PROOF. Reads that latch (O17, R116, R641 and R651). The PTM correlation block is one 192-bit word: its fields are taken from the word as they were laid
into it, and a read of another part of the block returns what it holds. A lower half that is read holds its upper half. -/

namespace Sys2Proof.Machine

/-! ### The latched word -/

/-- The correlation block as one word (Table 19-9). -/
def Tim.corr (t : Tim) : BitVec 192 :=
  BitVec.ofNat 192 (t.pairHost.toNat + t.pairTb.toNat * 2 ^ 64 + t.pairEpoch.toNat * 2 ^ 128 + t.valid.toNat * 2 ^ 160 + t.failCount.toNat * 2 ^ 176)

theorem Block.ptmLatch_eq (b : Block) : b.ptmLatch = { b with tim := { b.tim with latch := b.tim.corr } } := rfl

theorem extractLsb'_ofNat_eq {w s n x : Nat} {v : BitVec n} (h : x % 2 ^ w / 2 ^ s % 2 ^ n = v.toNat) : (BitVec.ofNat w x).extractLsb' s n = v := by
  apply BitVec.eq_of_toNat_eq
  rw [BitVec.extractLsb'_toNat, BitVec.toNat_ofNat, Nat.shiftRight_eq_div_pow, h]

/-- Each field of the block stands in the word at its offset. -/
theorem Tim.corr_fields (t : Tim) :
    t.corr.extractLsb' 0 64 = t.pairHost ∧ t.corr.extractLsb' 64 64 = t.pairTb ∧ t.corr.extractLsb' 128 32 = t.pairEpoch
      ∧ t.corr.getLsbD 160 = t.valid ∧ t.corr.extractLsb' 176 16 = t.failCount := by
  have host := t.pairHost.isLt
  have tb := t.pairTb.isLt
  have epoch := t.pairEpoch.isLt
  have valid := t.valid.toNat_lt
  have fails := t.failCount.isLt
  refine ⟨extractLsb'_ofNat_eq (by omega), extractLsb'_ofNat_eq (by omega), extractLsb'_ofNat_eq (by omega), ?_, extractLsb'_ofNat_eq (by omega)⟩
  rw [Tim.corr, BitVec.getLsbD_ofNat, Nat.testBit_eq_decide_div_mod_eq, decide_eq_true (by decide : 160 < 192), Bool.true_and]
  cases hv : t.valid
  · exact decide_eq_false (by rw [Bool.toNat_false]; omega)
  · exact decide_eq_true (by rw [Bool.toNat_true]; omega)

/-! ### Reads of the correlation block (R651) -/

/-- A read of 4 or 8 bytes at the block's start latches it whole and returns the word's low bytes. -/
theorem Block.readPtm_of_awake {b : Block} (hb : b.awake = true) {n : Nat} (hn : n = 4 ∨ n = 8) :
    b.readPtm n = { b with tim := { b.tim with latch := b.tim.corr } }.drive (.readReply ((leBytes 8 b.tim.corr.toNat).take n)) := by
  have size : (n = 4 || n = 8) = true := by simpa using hn
  rw [Block.readPtm, hb, Bool.not_true, if_neg Bool.false_ne_true, if_pos size, Block.ptmLatch_eq]

theorem ofNat_wordOf {w : Nat} (x : BitVec w) (i : Nat) : BitVec.ofNat 32 (wordOf x i) = x.extractLsb' (32 * i) 32 := by
  rw [wordOf, BitVec.ofNat_toNat, BitVec.setWidth_eq]

/-- A 4-byte read at the block's start latches it whole. -/
theorem Block.read4_ptmFirst {b : Block} (hb : b.awake = true) :
    b.read4 0x440 = { b with tim := { b.tim with latch := b.tim.corr } }.drive (.readReply (leBytes 4 (b.tim.corr.extractLsb' 0 32).toNat)) := by
  have word : b.readWord 0x440 = (b.tim.corr.extractLsb' 0 32, { b with tim := { b.tim with latch := b.tim.corr } }) := by
    rw [Block.readWord, if_pos (by decide), if_pos rfl, Block.ptmLatch_eq]
    exact Prod.ext (ofNat_wordOf _ 0) rfl
  rw [Block.read4, hb, Bool.not_true, if_neg Bool.false_ne_true, if_neg (by decide), word]

/-- A 4-byte read further in returns the latched copy, and latches nothing. -/
theorem Block.read4_ptmRest {b : Block} (hb : b.awake = true) {i : Fin 6} (hi : i ≠ 0) :
    b.read4 (0x440 + 4 * i) = b.drive (.readReply (leBytes 4 (b.tim.latch.extractLsb' (32 * i) 32).toNat)) := by
  have pos : i.val ≠ 0 := fun h => hi (Fin.ext h)
  have inside : inBlock 0x440 24 (0x440 + 4 * i) = true := by simp [inBlock]; omega
  have index : (0x440 + 4 * i.val - 0x440) / 4 = i := by omega
  have word : b.readWord (0x440 + 4 * i) = (b.tim.latch.extractLsb' (32 * i) 32, b) := by
    rw [Block.readWord, if_pos inside, if_neg (by omega), index]
    exact Prod.ext (ofNat_wordOf _ _) rfl
  rw [Block.read4, hb, Bool.not_true, if_neg Bool.false_ne_true, if_neg (by omega), word]

/-! ### Reads of TB (R116, R641) -/

/-- A read of TB's lower half holds the upper half of the same tick. -/
theorem Block.read4_tbLow {b : Block} (hb : b.awake = true) :
    b.read4 0x400 = { b with host := b.host.hold 0x404 (b.thermos.tb.extractLsb' 32 32) }.drive
      (.readReply (leBytes 4 (b.thermos.tb.extractLsb' 0 32).toNat)) := by
  have low : b.thermos.tb.setWidth 32 = b.thermos.tb.extractLsb' 0 32 := BitVec.eq_of_toNat_eq (by simp)
  have word : b.readWord 0x400 = (b.thermos.tb.extractLsb' 0 32, { b with host := b.host.hold 0x404 (b.thermos.tb.extractLsb' 32 32) }) := by
    rw [Block.readWord, if_neg (by decide), ← low]; rfl
  rw [Block.read4, hb, Bool.not_true, if_neg Bool.false_ne_true, if_neg (by decide), word]

/-- A read of TB's upper half returns the held copy. -/
theorem Block.read4_tbHigh {b : Block} (hb : b.awake = true) :
    b.read4 0x404 = b.drive (.readReply (leBytes 4 (b.host.held 0x404).toNat)) := by
  have none : b.wide 0x404 = none := by simp only [Block.wide, inBlock]; rfl
  have word : b.readWord 0x404 = (b.host.held 0x404, b) := by
    rw [Block.readWord, if_neg (by decide), none]; rfl
  rw [Block.read4, hb, Bool.not_true, if_neg Bool.false_ne_true, if_neg (by decide), word]

theorem HostLink.held_hold (off : Nat) (v : BitVec 32) (h : HostLink) : (h.hold off v).held off = v := by
  simp [HostLink.hold, HostLink.held]

/-! ### Dialogues -/

@[simp] theorem Block.timeRegained_tim (cause : Nat) (b : Block) : (b.timeRegained cause).tim = b.tim := by
  simp [Block.timeRegained]

/-- A dialogue's end changes the pair alone, never the latched copy. -/
theorem Block.ptmComplete_latch (m : BitVec 64) (d : BitVec 32) (b : Block) : (b.ptmComplete m d).tim.latch = b.tim.latch := by
  simp only [Block.ptmComplete]
  split <;> simp

theorem Block.ptmComplete_pairHost {b : Block} (busy : b.tim.busy = true) (m : BitVec 64) (d : BitVec 32) :
    (b.ptmComplete m d).tim.pairHost = ptmHostTime m d b.tim.reqAt b.now := by
  simp [Block.ptmComplete, busy]

theorem Block.ptmComplete_boot (m : BitVec 64) (d : BitVec 32) (b : Block) : (b.ptmComplete m d).boot = b.boot := by
  simp [Block.ptmComplete]

/-- Settles O17: each read is the latch, the latched copy or the held half, and a dialogue leaves all three for the next read. -/
theorem latchedReads : Obligations.LatchedReads := by
  unfold Obligations.LatchedReads
  intro s phase
  have hb : s.toBlock.awake = true := by simp [Block.awake, phase]
  obtain ⟨host, tb, epoch, valid, fails⟩ := s.tim.corr_fields
  refine ⟨fun n hn => completes_of_act rfl ?_, completes_of_act rfl ?_, fun i hi => State.act_of_eq (Block.read4_ptmRest hb hi),
    fun m d => completes_of_act rfl (Block.ptmComplete_latch m d _), fun m d busy => ⟨_, rfl, completes_of_act rfl ?_⟩,
    completes_of_act rfl ?_, State.act_of_eq (Block.read4_tbHigh hb)⟩
  · rw [Block.readPtm_of_awake hb hn]
    generalize s.tim.corr = word at host tb epoch valid fails ⊢
    exact ⟨host, tb, epoch, valid, fails, rfl, rfl, rfl⟩
  · rw [Block.read4_ptmFirst hb, ← host, BitVec.extractLsb'_extractLsb'_of_le (by decide)]
    generalize s.tim.corr = word
    exact ⟨rfl, rfl⟩
  · have awake : (s.toBlock.ptmComplete m d).awake = true := by rwa [Block.awake, Block.ptmComplete_boot]
    rw [Block.readPtm_of_awake awake (.inr rfl), ← Block.ptmComplete_pairHost busy]
    exact (Tim.corr_fields _).1
  · rw [Block.read4_tbLow hb]
    exact ⟨(HostLink.held_hold 0x404 _ s.host :), rfl⟩

end Sys2Proof.Machine
end

section
/-! PROOF. Tools of the proofs below: two blocks with the same fields are one, and what an operation leaves alone is said as one equation. -/

namespace Sys2Proof.Machine

/-- Two blocks whose fields are the same are one block. -/
theorem Block.eq_of_fields {x y : Block}
    (h : x.thermos = y.thermos ∧ x.boot = y.boot ∧ x.pins = y.pins ∧ x.feat = y.feat ∧ x.link = y.link ∧ x.cfg = y.cfg ∧ x.ep = y.ep
      ∧ x.tim = y.tim ∧ x.ports = y.ports ∧ x.slots = y.slots ∧ x.ctls = y.ctls ∧ x.ifc = y.ifc ∧ x.fox = y.fox ∧ x.afu = y.afu
      ∧ x.owl = y.owl ∧ x.badger = y.badger ∧ x.den = y.den ∧ x.map = y.map ∧ x.guests = y.guests ∧ x.host = y.host ∧ x.flt = y.flt
      ∧ x.pwr = y.pwr ∧ x.edge = y.edge ∧ x.trail = y.trail ∧ x.fresh = y.fresh) : x = y := by
  cases x; cases y
  simpa only [Block.mk.injEq] using h

end Sys2Proof.Machine
end

section
/-! PROOF. The Thermos domain (O1 to O4 and O60, R111 to R115, R605 and R637): the machine at reset, one advance of the time base, its supply and its clock,
the cold reset and the counter's answers. -/

namespace Sys2Proof.Machine

/-- Settles O1: the front of the queue is what a step takes. -/
theorem stepRunsFront : Obligations.StepRunsFront := by
  unfold Obligations.StepRunsFront
  intro c cs s
  rfl

/-! ### The machine at reset -/

theorem reset_inv : State.reset.toBlock.Inv := by
  refine ⟨?_, ?_⟩
  · unfold Block.canonical
    refine ⟨rfl, rfl, rfl, ?_, ?_⟩ <;> · intro p hp; rw [List.eq_of_mem_replicate hp]; rfl
  · unfold Block.shaped; decide

/-- Settles O60: each table at reset is so many copies of one entry. -/
theorem resetState : Obligations.ResetState := by
  unfold Obligations.ResetState
  refine ⟨reset_inv, rfl, rfl, rfl, ?_, ?_, ?_, rfl, rfl, ?_, rfl, rfl, rfl⟩
  · intro m hm; rw [List.eq_of_mem_replicate hm]
  · intro q hq; rw [List.eq_of_mem_replicate hq]; exact ⟨rfl, rfl, rfl⟩
  · intro x hx; rw [List.eq_of_mem_replicate hx]; exact ⟨rfl, rfl⟩
  · intro g hg; rw [List.eq_of_mem_replicate hg]

/-! ### One advance of the time base (R111, R112) -/

theorem Thermos.sourced_of_crystal {t : Thermos} (h : t.onVbk = true ∨ t.refRuns = false) : t.sourced = { t with tbSource := .crystal } := by
  unfold Thermos.sourced
  rcases h with h | h <;> simp [h]

/-- The period that the fraction's carry adds to. -/
theorem crystal_period (frac : BitVec 8) :
    (if frac.toNat + 101 < 256 then 7629 else 7630 : BitVec 64) = 7629 + BitVec.ofNat 64 ((frac.toNat + 101) / 256) := by
  have := frac.isLt
  split
  · rw [Nat.div_eq_of_lt ‹_›]; rfl
  · rw [show (frac.toNat + 101) / 256 = 1 by omega]; rfl

theorem Thermos.advance_of_crystal {t : Thermos} (src : t.tbSource = .crystal) (runs : t.xtalStopped = false) :
    t.advance = { t with tb := t.tb + 7629 + BitVec.ofNat 64 ((t.tbFrac.toNat + 101) / 256), tbFrac := t.tbFrac + 101 } := by
  rw [Thermos.advance, src, runs, BitVec.add_assoc, ← crystal_period]
  rfl

theorem crystal_tb_succ (tb : BitVec 64) (frac n : Nat) :
    tb + BitVec.ofNat 64 (7629 * n + (frac + 101 * n) / 256) + 7629 + BitVec.ofNat 64 (((frac + 101 * n) % 256 + 101) / 256) =
      tb + BitVec.ofNat 64 (7629 * (n + 1) + (frac + 101 * (n + 1)) / 256) := by
  apply BitVec.eq_of_toNat_eq
  simp only [BitVec.toNat_add, BitVec.toNat_ofNat, show (7629 : BitVec 64).toNat = 7629 from rfl]
  omega

theorem crystal_frac_succ (frac : BitVec 8) (n : Nat) :
    frac + BitVec.ofNat 8 (101 * n) + 101 = frac + BitVec.ofNat 8 (101 * (n + 1)) := by
  apply BitVec.eq_of_toNat_eq
  simp only [BitVec.toNat_add, BitVec.toNat_ofNat, show (101 : BitVec 8).toNat = 101 from rfl]
  omega

/-- After n advances of the crystal TB has gained n periods of 7629 ticks and the carries of the fraction. -/
theorem Thermos.repeat_advance_of_crystal {t : Thermos} (src : t.tbSource = .crystal) (runs : t.xtalStopped = false) (n : Nat) :
    Nat.repeat Thermos.advance n t =
      { t with tb := t.tb + BitVec.ofNat 64 (7629 * n + (t.tbFrac.toNat + 101 * n) / 256), tbFrac := t.tbFrac + BitVec.ofNat 8 (101 * n) } := by
  induction n with
  | zero =>
    rw [Nat.repeat, Nat.div_eq_of_lt (by have := t.tbFrac.isLt; omega)]
    simp
  | succ n ih =>
    have frac : (t.tbFrac + BitVec.ofNat 8 (101 * n)).toNat = (t.tbFrac.toNat + 101 * n) % 256 := by simp
    rw [Nat.repeat, ih, Thermos.advance_of_crystal (by exact src) (by exact runs)]
    dsimp only
    rw [frac, crystal_tb_succ, crystal_frac_succ]

theorem step_of_idle {s : State} (idle : s.pending = []) (unsynced : s.tim.syncPend = none) :
    step s = .next { s with thermos := s.thermos.advance } := by
  simp [step, idle, tickStep, Block.tick, Block.syncOver, unsynced]

/-- Settles O2: 256 periods of the crystal carry 101 times. -/
theorem idleTick : Obligations.IdleTick := by
  unfold Obligations.IdleTick
  refine ⟨fun t => Thermos.sourced_of_crystal, fun t => Thermos.advance_of_crystal, fun t src runs => ?_, fun s => step_of_idle⟩
  have carries : 7629 * 256 + (t.tbFrac.toNat + 101 * 256) / 256 = 1953125 := by have := t.tbFrac.isLt; omega
  rw [Thermos.repeat_advance_of_crystal src runs, carries, show BitVec.ofNat 8 (101 * 256) = 0#8 from rfl, BitVec.add_zero]
  rfl

/-! ### Supply, source and crystal (R111 to R113, R605, R607) -/

theorem Block.thermosExit_of_due {b : Block} (por : b.boot.phase = .thermosPor) (due : b.boot.since + 500000 ≤ b.now) :
    b.thermosExit = { b with boot := { b.boot with phase := .mainPor, since := b.now } } := by
  simp [Block.thermosExit, Block.awake, por, ms, due]

theorem Block.thermosExit_of_not_due {b : Block} (h : b.boot.phase ≠ .thermosPor ∨ b.now < b.boot.since + 500000) : b.thermosExit = b := by
  rcases h with h | h
  · simp [Block.thermosExit, Block.awake, h]
  · simp [Block.thermosExit, ms, Nat.not_le.mpr h]

/-- Settles O3: each command chooses the source from the supply and the reference. -/
theorem thermosClocks : Obligations.ThermosClocks := by
  unfold Obligations.ThermosClocks
  intro s
  refine ⟨fun por due => State.act_of_eq (Block.thermosExit_of_due por due), fun h => State.act_of_eq (Block.thermosExit_of_not_due h),
    fun r => rfl, fun v changed => State.act_of_eq ?_, fun v same => State.act_of_eq ?_, fun runs main => State.act_of_eq ?_,
    fun stopped => State.act_of_eq ?_, rfl⟩
  · cases v <;> simp [Block.sourceSwitch, changed, Block.logBrown, logToVbk, logToVaon, Thermos.sourced]
  · simp [Block.sourceSwitch, same]
  · simp [Block.crystalStop, runs, main, Block.logBrown, logCrystal]
  · simp [Block.crystalStop, stopped]


/-! ### Cold resets and the counter (R35, R114, R633, R637) -/

/-- What a reset leaves of the registers that a cold POR and a main POR share. -/
theorem Block.cleared_reset (phase : BootPhase) (keepLink : Bool) (b : Block) :
    (b.cleared phase keepLink).boot.phase = phase ∧ (b.cleared phase keepLink).boot.package = b.boot.package
      ∧ (b.cleared phase keepLink).feat = {} ∧ (b.cleared phase keepLink).cfg = {} ∧ (b.cleared phase keepLink).den = {} :=
  ⟨rfl, rfl, rfl, rfl, rfl⟩

theorem Block.cleared_link (phase : BootPhase) (b : Block) : (b.cleared phase false).link = {} := rfl

/-- Away from OTX-120C an increment of TB_EPOCH is the register's alone. -/
theorem Block.epochUp_of_not_hooked {b : Block} (h : b.boot.package ≠ .c) (cause : Nat) :
    b.epochUp cause = Block.timeLost cause { b with thermos := { b.thermos with tbEpoch := b.thermos.tbEpoch + 1 } } := by
  simp [Block.epochUp, Block.hooked, h]

theorem Block.timeLost_thermos (cause : Nat) (b : Block) :
    (b.timeLost cause).thermos = { b.thermos with timeLost := true, lostCause := BitVec.ofNat 8 cause } := by
  simp [Block.timeLost]

theorem Block.timeLost_eq (cause : Nat) (b : Block) :
    b.timeLost cause = { b with
      thermos := (b.timeLost cause).thermos, host := (b.timeLost cause).host, flt := (b.timeLost cause).flt } :=
  Block.eq_of_fields (by simp [Block.timeLost])

/-- A cold POR away from OTX-120C (R114): the reset, and then the increment. -/
theorem Block.coldPor_of_not_hooked {b : Block} (h : b.boot.package ≠ .c) :
    b.coldPor.thermos = { Thermos.sourced { b.thermos with tb := 0, tbFrac := 0, nv := .idle } with
        tbEpoch := b.thermos.tbEpoch + 1, timeLost := true, lostCause := 1 }
      ∧ b.coldPor.boot.phase = .thermosPor ∧ b.coldPor.boot.package = b.boot.package
      ∧ b.coldPor.link = {} ∧ b.coldPor.feat = {} ∧ b.coldPor.cfg = {} ∧ b.coldPor.den = {} := by
  have e : b.coldPor = Block.epochUp 1 (Block.cleared .thermosPor false
      { b with thermos := Thermos.sourced { b.thermos with tb := 0, tbFrac := 0, nv := .idle } }) := by
    simp only [Block.coldPor, Block.hooked, beq_eq_false_iff_ne.mpr h, if_neg Bool.false_ne_true]
  rw [e]
  generalize hc : Block.cleared .thermosPor false _ = c
  have pk : c.boot.package ≠ .c := by rw [← hc]; exact h
  rw [Block.epochUp_of_not_hooked pk, Block.timeLost_eq, Block.timeLost_thermos]
  subst hc
  exact ⟨rfl, rfl, rfl, rfl, rfl, rfl, rfl⟩

/-- A cold POR of OTX-120C (R633): the increment follows the release. -/
theorem Block.coldPor_of_hooked {b : Block} (h : b.boot.package = .c) :
    b.coldPor = Block.cleared .thermosPor false
      { b with thermos := Thermos.sourced { b.thermos with tb := 0, tbFrac := 0, nv := .idle } } := by
  simp [Block.coldPor, Block.hooked, h]

/-- An entry to the brown-out log leaves the time base and the supply, and is counted. -/
theorem Thermos.brown_counts (kind rails outcome : Nat) (t : Thermos) :
    (t.brown kind rails outcome).tb = t.tb ∧ (t.brown kind rails outcome).tbEpoch = t.tbEpoch ∧ (t.brown kind rails outcome).onVbk = t.onVbk
      ∧ (t.brown kind rails outcome).xtalStopped = t.xtalStopped ∧ (t.brown kind rails outcome).brownCount = t.brownCount + 1 := by
  unfold Thermos.brown
  generalize memWriteBytes t.journal _ _ = j
  exact ⟨rfl, rfl, rfl, rfl, rfl⟩

theorem Block.arbitrate_of_fall {b : Block} (vbk : b.thermos.onVbk = true) (f : Nat) :
    b.arbitrate none (some f) = (b.logBrown logArbitration 0).coldPor := by
  simp [Block.arbitrate, vbk, vaonFirst]

theorem Block.arbitrate_of_rise {b : Block} (vbk : b.thermos.onVbk = true) {a f : Nat} (first : a < f) :
    b.arbitrate (some a) (some f) = (b.logBrown logArbitration 1).sourceSwitch false := by
  simp [Block.arbitrate, vbk, vaonFirst, first]

/-- The switch back to the main supply, from VBK. -/
theorem Block.sourceSwitch_of_vbk {b : Block} (vbk : b.thermos.onVbk = true) :
    b.sourceSwitch false = Block.logBrown logToVaon 0 { b with thermos := Thermos.sourced { b.thermos with onVbk := false } } := by
  simp [Block.sourceSwitch, vbk]

theorem Block.crystalStop_of_vbk {b : Block} (runs : b.thermos.xtalStopped = false) (vbk : b.thermos.onVbk = true) :
    b.crystalStop = Block.epochUp 2 (Block.logBrown logCrystal 0 { b with thermos := { b.thermos with xtalStopped := true } }) := by
  simp [Block.crystalStop, runs, vbk]

theorem Block.nvTimeout_of_due {b : Block} (asked : b.thermos.nv ≠ .idle) (due : b.thermos.nvSince + 5000000 ≤ b.now) :
    b.nvTimeout = Block.timeLost 3 { b with thermos := { b.thermos with tbEpoch := 0xFFFFFFFF, nv := .idle } } := by
  simp [Block.nvTimeout, asked, ms, due]

theorem Block.nvTimeout_of_not_due {b : Block} (h : b.thermos.nv = .idle ∨ b.now < b.thermos.nvSince + 5000000) : b.nvTimeout = b := by
  rcases h with h | h
  · exact Block.nvTimeout_of_idle h
  · simp [Block.nvTimeout, ms, Nat.not_le.mpr h]

/-- Settles O4: a cold POR by the package, an arbitration by its winner, and the counter by what was asked of it. -/
theorem coldPorAndCounter : Obligations.ColdPorAndCounter := by
  unfold Obligations.ColdPorAndCounter
  refine ⟨fun s => ⟨fun pk => ?_, fun pk => ?_, fun f vbk pk => ?_, fun a f first vbk => ?_, fun runs vbk pk => ?_, fun pk por => ?_⟩,
    fun s => ⟨fun v nv pk => ?_, fun v nv => ?_, fun v nv => ?_, fun nv due => ?_, fun h => ?_⟩⟩
  · obtain ⟨thermos, phase, package, link, feat, cfg, den⟩ := Block.coldPor_of_not_hooked pk
    refine completes_of_act (f := Block.coldPor) rfl ?_
    rw [thermos]
    exact ⟨rfl, rfl, rfl, rfl, rfl, rfl, phase, package, link, feat, cfg, den⟩
  · refine completes_of_act (f := Block.coldPor) rfl ?_
    rw [Block.coldPor_of_hooked pk]
    exact ⟨rfl, rfl, rfl, rfl, rfl⟩
  · refine completes_of_act (f := Block.arbitrate none (some f)) rfl ?_
    obtain ⟨thermos, phase, -⟩ := Block.coldPor_of_not_hooked (b := Block.logBrown logArbitration 0 s.toBlock) pk
    rw [Block.arbitrate_of_fall vbk, thermos]
    refine ⟨?_, ?_, phase, ?_⟩ <;> simp [Thermos.sourced, Block.logBrown, Thermos.brown_counts]
  · refine completes_of_act (f := Block.arbitrate (some a) (some f)) rfl ?_
    rw [Block.arbitrate_of_rise vbk first, Block.sourceSwitch_of_vbk (by simp [Block.logBrown, Thermos.brown_counts, vbk])]
    simp [Block.logBrown, Thermos.brown_counts, Thermos.sourced, BitVec.add_assoc]
  · refine completes_of_act (f := Block.crystalStop) rfl ?_
    rw [Block.crystalStop_of_vbk runs vbk, Block.epochUp_of_not_hooked (by exact pk)]
    refine ⟨?_, ?_, ?_, ?_, ?_, Block.eq_of_fields ?_⟩ <;> simp [Block.timeLost, Block.logBrown, Thermos.brown_counts]
  · refine completes_of_act (f := Block.tporRelease) rfl ?_
    rw [show s.tporRelease = Block.drive .nvRead _ from if_pos (by simp [Block.hooked, pk, Block.awake, por])]
    exact ⟨rfl, rfl, rfl, rfl⟩
  · refine completes_of_act (f := Block.nvResponse v false) rfl ?_
    simp [Block.nvResponse, nv, Block.nvValue, Block.epochUp, Block.hooked, pk, Block.timeLost, Block.now]
  · refine State.act_of_eq ?_
    simp [Block.nvResponse, nv, Block.nvValue]
  · refine State.act_of_eq ?_
    simp [Block.nvResponse, nv, Block.nvValue, Block.freeNow, Block.drew]
  · refine completes_of_act (f := Block.nvTimeout) rfl ?_
    rw [Block.nvTimeout_of_due nv due]
    exact ⟨Block.timeLost_thermos .., Block.timeLost_eq ..⟩
  · exact State.act_of_eq (Block.nvTimeout_of_not_due h)

end Sys2Proof.Machine
end

section
/-! PROOF. Boot (O5 to O8, chapter 02): the resets that enter MAIN_POR, the probe, the slots, bring-up and READY. -/

namespace Sys2Proof.Machine

/-! ### One main POR (R42, R644, R668, R669) -/

theorem Block.awake_of_ne {b : Block} (h : b.boot.phase ≠ .thermosPor) : b.awake = true := by simp [Block.awake, h]

theorem Block.resetFall_of_awake {b : Block} (h : b.awake = true) :
    b.resetFall = Block.mainPor false { b with pins := { b.pins with resetN := false, resetFellAt := some b.now } } :=
  if_pos h

theorem Block.mainBrownout_of_awake {b : Block} (h : b.awake = true) (high : b.pins.resetN = true) (rails : BitVec 8) :
    b.mainBrownout rails = Block.mainPor false
      (Block.logBrown logBrownout 0 { b with pins := { b.pins with rails := rails, brownAt := some b.now } }) := by
  simp only [Block.mainBrownout, high, Bool.true_or, Bool.not_true, if_neg Bool.false_ne_true]
  exact if_pos (by simpa [Block.awake] using h)

theorem Block.softReset_of_key {b : Block} (h : b.awake = true) {v : BitVec 32} (key : softKey v) : b.softReset v = b.mainPor true := by
  obtain ⟨set, word⟩ := key
  simp [Block.softReset, h, set, word]

theorem Block.softReset_of_no_key {b : Block} (h : b.awake = true) {v : BitVec 32} (key : ¬softKey v) : b.softReset v = b.badReg := by
  have : (v.getLsbD 16 && decide (v.extractLsb' 0 16 = 0xC3A5)) = false := by simpa [softKey] using key
  simp only [Block.softReset, h, this]
  rfl

/-- Settles O5: outside THERMOS_POR each of the three is the main POR, with the link kept by the soft reset alone. -/
theorem mainResets : Obligations.MainResets := by
  unfold Obligations.MainResets
  intro s phase
  have awake := Block.awake_of_ne phase
  refine ⟨?_, fun r high => ?_, fun v set word => ?_, fun v h => State.act_of_eq (Block.softReset_of_no_key awake h)⟩
  · refine completes_of_act (f := Block.resetFall) rfl ?_
    rw [Block.resetFall_of_awake awake]
    exact ⟨rfl, rfl, rfl, rfl, rfl, rfl, rfl, rfl, rfl, rfl, rfl, rfl, rfl, rfl, rfl, rfl⟩
  · refine completes_of_act (f := Block.mainBrownout r) rfl ?_
    rw [Block.mainBrownout_of_awake awake high]
    refine ⟨rfl, ?_, rfl, rfl, ?_, rfl, rfl, rfl, rfl, rfl⟩
    · simp [Block.mainPor, Block.cleared, Block.logBrown, Block.now, Thermos.brown_counts]
    · simp [Block.logBrown, logBrownout]
  · refine completes_of_act (f := Block.softReset v) rfl ?_
    rw [Block.softReset_of_key awake ⟨set, word⟩]
    exact ⟨rfl, rfl, rfl, rfl, rfl, rfl, rfl, rfl, rfl, rfl⟩

/-! ### What the steps of boot leave in its registers -/

theorem Block.releaseFlash_boot (b : Block) : b.releaseFlash.boot = { b.boot with flashDriven := false } := by
  unfold Block.releaseFlash
  split
  · simp
  · next driven => rw [← Bool.eq_false_iff.mpr driven]

theorem Block.haltNoBoot_boot (b : Block) :
    b.haltNoBoot.boot = { b.boot with phase := .haltedNoboot, since := b.now, flashDriven := false } := by
  rw [Block.haltNoBoot, Block.releaseFlash_boot, enter_boot]

theorem Block.haltBoth_boot (cause : BitVec 8) (b : Block) :
    (b.haltBoth cause).boot = { b.boot with causeA := cause, causeB := cause, phase := .haltedNoboot, since := b.now, flashDriven := false } := by
  rw [Block.haltBoth, Block.haltNoBoot_boot]
  rfl

theorem Block.drives_boot {α : Type} (f : α → Out) (l : List α) (b : Block) : (l.foldl (fun b w => b.drive (f w)) b).boot = b.boot :=
  foldl_boot _ (fun b w => by simp) l b

theorem Block.romProbe_boot (b : Block) :
    b.romProbe.boot = { b.boot with phase := .romProbe, since := b.now, otp := {}, otpSince := b.now } := by
  by_cases probing : b.boot.phase = .romProbe <;> simp [Block.romProbe, probing, enter_boot]

@[simp] theorem Block.islandsUp_frame (is : List Nat) (b : Block) :
    (b.islandsUp is).thermos = b.thermos ∧ (b.islandsUp is).boot = b.boot ∧ (b.islandsUp is).pins = b.pins ∧ (b.islandsUp is).cfg = b.cfg
      ∧ (b.islandsUp is).den = b.den := by
  unfold Block.islandsUp
  simp

/-! ### The probe (R43 to R46, R635, R636, R638) -/

/-- The block right after MAIN_POR is released away from OTX-120C: its supplies come up, boot ROM runs and the flash is asked for its SFDP (R43). -/
def Block.released (b : Block) : Block :=
  let b1 := { b with
    pins := { b.pins with resetN := true, rails := 0 }
    thermos := Thermos.sourced { b.thermos with refRuns := true }
    boot := { b.boot with releasedAt := b.now, masterStrap := b.pins.master, bootSrc := false, flashDriven := true } }
  ((b1.islandsUp [1, 2, 8, 9]).clock 0 true).romProbe.drive .flashProbe

theorem Block.released_fields (b : Block) :
    b.released.boot = { b.boot with releasedAt := b.now, masterStrap := b.pins.master, bootSrc := false, flashDriven := true,
                                    phase := .romProbe, since := b.now, otp := {}, otpSince := b.now }
      ∧ b.released.pins = { b.pins with resetN := true, rails := 0 } := by
  simp [Block.released, Block.romProbe_boot, Block.now, Thermos.sourced]

/-- Away from OTX-120C the release ends with the flash's answer. -/
theorem Block.mainRelease_of_due {b : Block} (por : b.boot.phase = .mainPor) (run : b.pins.testEn = false)
    (due : b.boot.since + 250000 ≤ b.now) (pk : b.boot.package ≠ .c) (probe : FlashProbe) :
    b.mainRelease probe = match probe with
      | .sfdp octal quad single density => { b.released with boot := { b.released.boot with
          flashMode := if densityOk density then bestMode octal quad single else .none, density := density } }
      | _ => b.released.haltBoth 0x01 := by
  have hooked : b.hooked = false := by simp [Block.hooked, pk]
  cases probe <;> simp only [Block.mainRelease, Block.released, por, run, hooked, ms, due, beq_self_eq_true, Bool.not_false, decide_true, Bool.and_self, if_true,
    Bool.false_and, Bool.false_eq_true, if_false]

/-- Settles O6: the probe ends with what the flash, the boot storage or the one-time memory answers, or with their silence. -/
theorem romProbe : Obligations.RomProbe := by
  unfold Obligations.RomProbe
  intro s
  refine ⟨fun por run due pk => ?_, fun d por run due pk low high => ?_, fun probing => ?_, fun o d reading storage => ?_⟩
  · refine completes_of_act (f := Block.mainRelease .absent) rfl ?_
    obtain ⟨boot, pins⟩ := Block.released_fields s.toBlock
    rw [Block.mainRelease_of_due por run due pk]
    simp [Block.haltBoth_boot, boot, pins]
  · refine completes_of_act (f := Block.mainRelease (.sfdp false true false d)) rfl ?_
    obtain ⟨boot, pins⟩ := Block.released_fields s.toBlock
    have ok : densityOk d = true := by simp [densityOk, low, high]
    rw [Block.mainRelease_of_due por run due pk]
    simp [boot, ok, bestMode]
  · refine ⟨fun unknown late => ?_, fun w v seen => ?_, fun v unseen => ?_, fun v unknown unseen => ?_, fun unanswered late => ?_,
      fun d storage unknown small => ?_⟩
    · refine completes_of_act (f := Block.probeTimeout) rfl ?_
      simp [Block.probeTimeout, probing, unknown, ms, late, Block.haltBoth_boot]
    · refine State.act_of_eq ?_
      simp [Block.otpResponse, seen]
    · refine completes_of_act (f := Block.otpResponse 2 v true) rfl ?_
      simp [Block.otpResponse, probing, unseen, otpWords, Block.haltBoth_boot]
    · refine State.act_of_eq ?_
      simp [Block.otpResponse, probing, unseen, otpWords, Block.probed, unknown, Otp.take]
    · refine completes_of_act (f := Block.otpTimeout) rfl ?_
      simp [Block.otpTimeout, probing, unanswered, ms, late, Block.haltBoth_boot]
    · refine completes_of_act (f := Block.bootResponse (.info d false)) rfl ?_
      simp [Block.bootResponse, storage, probing, unknown, densityOk, Nat.not_le.mpr small, Block.haltBoth_boot]
  · refine State.act_of_eq ?_
    simp [Block.bootResponse, storage, reading]

end Sys2Proof.Machine
end

section
/-! PROOF. What every command but a reset keeps (O58, O59): the memories stay canonical, the tables keep their sizes, no unit comes back and the step
level does not fall. `Core` is the part of the block that these speak of; most operations leave it as it is. -/

namespace Sys2Proof.Machine

/-- The live masks and the step level of the fault registers. -/
def Flt.fences (f : Flt) : Flt := { fox := f.fox, tiles := f.tiles, threads := f.threads, pairA := f.pairA, pairB := f.pairB, step := f.step }

@[simp] theorem Flt.fences_isLive (f : Flt) (k : Fenceable) : f.fences.isLive k = f.isLive k := by
  cases k with
  | pair p => cases p <;> rfl
  | _ => rfl

/-- The memories, the sizes of the tables, and the fences of a block. -/
structure Core where
  journal   : Memory
  bootStore : Memory
  mem       : Memory
  active    : List Memory
  shadow    : List Memory
  sizes     : List Nat
  fences    : Flt

def Block.sizes (b : Block) : List Nat :=
  [b.cfg.active.length, b.cfg.shadow.length, b.host.queues.length, b.host.streams.length, b.link.msix.length, b.ports.length, b.slots.length,
    b.ifc.chans.length, b.fox.cams.length, b.owl.slots.length, b.guests.length, b.den.windows.length, b.edge.length, b.trail.lanes.length,
    b.trail.bundles.length, b.flt.restarts.length, b.flt.restarting.length, b.flt.failed.length, b.flt.clockOn.length, b.pwr.packSince.length,
    b.pwr.pwrAck.length, b.pwr.iso.length]

def Block.core (b : Block) : Core :=
  { journal := b.thermos.journal, bootStore := b.boot.bootStore, mem := b.den.mem, active := b.cfg.active, shadow := b.cfg.shadow
    sizes := b.sizes, fences := b.flt.fences }

/-- The sizes that the spec gives. -/
def specSizes : List Nat := [64, 64, 16, 8, 32, 6, 6, 24, 6, 8, 64, 8, 53, 18, 16, 11, 11, 11, 11, 4, 11, 11]

/-- The invariant of the block, said of its core. -/
def Core.Ok (c : Core) : Prop :=
  (c.journal.wf ∧ c.bootStore.wf ∧ c.mem.wf ∧ (∀ p ∈ c.active, Memory.wf p) ∧ ∀ p ∈ c.shadow, Memory.wf p) ∧ c.sizes = specSizes

theorem Block.inv_iff (b : Block) : b.Inv ↔ b.core.Ok := by
  simp only [Block.Inv, Block.canonical, Block.shaped, Core.Ok, Block.core, Block.sizes, specSizes, List.cons.injEq, and_true]

/-- No unit is live that was not before, and the step level is no lower. -/
def Flt.Below (f g : Flt) : Prop := (∀ k : Fenceable, g.isLive k = true → f.isLive k = true) ∧ f.step ≤ g.step

theorem Flt.Below.refl (f : Flt) : f.Below f := ⟨fun _ h => h, le_refl _⟩

theorem Flt.Below.trans {f g h : Flt} (fg : f.Below g) (gh : g.Below h) : f.Below h :=
  ⟨fun k l => fg.1 k (gh.1 k l), le_trans fg.2 gh.2⟩

/-- What a command that is no reset may make of block a: the invariant is kept, and the fences stay. -/
structure Block.Follows (a b : Block) : Prop where
  inv : a.core.Ok → b.core.Ok
  fences : a.core.fences.Below b.core.fences

@[simp] theorem HostLink.flowStep_tables (h : HostLink) (unit stream : BitVec 8) :
    (h.flowStep unit stream).queues = h.queues ∧ (h.flowStep unit stream).streams = h.streams := ⟨rfl, rfl⟩

@[simp] theorem Thermos.advance_journal (t : Thermos) : t.advance.journal = t.journal := by
  unfold Thermos.advance
  split
  · rfl
  · split <;> rfl

@[simp] theorem Thermos.sourced_journal (t : Thermos) : t.sourced.journal = t.journal := rfl

theorem wf_journalWrite {j : Memory} (ue : BitVec 2) (body : Bytes) (h : j.wf = true) : Memory.wf (journalWrite ue j body) = true := by
  unfold journalWrite
  exact wf_memWriteBytes _ _ (wf_memWriteBytes _ _ (wf_memWriteBytes _ _ (wf_memWriteBytes _ _ (wf_memWriteBytes _ _ h))))

theorem Flt.below_without (f : Flt) (k : Fenceable) : f.fences.Below (f.without k).fences := by
  refine ⟨fun u l => ?_, ?_⟩
  · simp only [Flt.fences_isLive] at l ⊢
    rcases k with _ | _ | _ | (_ | _) <;> rcases u with _ | _ | _ | (_ | _) <;> simp_all [Flt.isLive, Flt.without, clearBit]
  · rcases k with _ | _ | _ | (_ | _) <;> exact le_max_left _ _

theorem Flt.dropBeats_without_tables (f : Flt) (unit : BitVec 8) (k : Fenceable) :
    ((f.without k).dropBeats unit).restarts = f.restarts ∧ ((f.without k).dropBeats unit).restarting = f.restarting
      ∧ ((f.without k).dropBeats unit).failed = f.failed ∧ ((f.without k).dropBeats unit).clockOn = f.clockOn := by
  rcases k with _ | _ | _ | (_ | _) <;> exact ⟨rfl, rfl, rfl, rfl⟩

theorem Thermos.brown_journal (kind rails outcome : Nat) (t : Thermos) :
    (t.brown kind rails outcome).journal
      = memWriteBytes t.journal (0xF800 + 64 * (t.brownCount.toNat % 32)) (brownEntry t kind rails outcome) := by
  simp only [Thermos.brown]

/-- A settings set as it is loaded: 64 pages in the canonical form. -/
def WholeSet (set : List Memory) : Prop := set.length = 64 ∧ ∀ p ∈ set, Memory.wf p = true

theorem wholeSet_set {set : List Memory} (h : WholeSet set) (i : Nat) (bs : Bytes) : WholeSet (set.set i (memOf bs)) := by
  refine ⟨by simp [h.1], fun p hp => ?_⟩
  rcases List.mem_or_eq_of_mem_set hp with old | rfl
  · exact h.2 p old
  · exact wf_memOf bs

theorem wholeSet_slotPages (rd : SlotRead) : WholeSet (slotPages rd) := by
  unfold slotPages
  refine List.foldlRecOn _ _ (by simp [WholeSet]) fun set h e _ => ?_
  exact List.foldlRecOn _ _ h fun set h i _ => wholeSet_set h _ _

namespace Block.Follows

theorem refl (a : Block) : a.Follows a := ⟨id, Flt.Below.refl _⟩

variable {a b c : Block}

theorem trans (ab : a.Follows b) (bc : b.Follows c) : a.Follows c := ⟨bc.inv ∘ ab.inv, ab.fences.trans bc.fences⟩

/-- A change that leaves the core. -/
theorem update (h : a.Follows b) (same : c.core = b.core := by rfl) : a.Follows c :=
  ⟨same ▸ h.inv, same ▸ h.fences⟩

/-- A change that keeps the fences. -/
theorem change (h : a.Follows b) (fences : c.flt.fences = b.flt.fences) (inv : b.core.Ok → c.core.Ok) : a.Follows c :=
  h.trans ⟨inv, by rw [show c.core.fences = b.core.fences from fences]; exact Flt.Below.refl _⟩

theorem either {p : Prop} [Decidable p] (hb : a.Follows b) (hc : a.Follows c) : a.Follows (if p then b else c) := by
  split
  · exact hb
  · exact hc

theorem foldl {α : Type} {f : Block → α → Block} {l : List α} (h : a.Follows b) (step : ∀ b x, a.Follows b → a.Follows (f b x)) :
    a.Follows (l.foldl f b) := by
  induction l generalizing b with
  | nil => exact h
  | cons x l ih => exact ih (step b x h)

theorem foldlFst {α β : Type} {f : Block × β → α → Block × β} {l : List α} {p : Block × β} (h : a.Follows p.1)
    (step : ∀ p x, a.Follows p.1 → a.Follows (f p x).1) : a.Follows (l.foldl f p).1 := by
  induction l generalizing p with
  | nil => exact h
  | cons x l ih => exact ih (step p x h)

theorem foldlSnd {α β : Type} {f : β × Block → α → β × Block} {l : List α} {p : β × Block} (h : a.Follows p.2)
    (step : ∀ p x, a.Follows p.2 → a.Follows (f p x).2) : a.Follows (l.foldl f p).2 := by
  induction l generalizing p with
  | nil => exact h
  | cons x l ih => exact ih (step p x h)

/-- The block that a pair was taken apart into. -/
theorem ofSnd {α : Type} {p : α × Block} {x : α} (e : p = (x, b)) (h : a.Follows p.2) : a.Follows b := by
  rw [e] at h; exact h

theorem ofFst {α : Type} {p : Block × α} {x : α} (e : p = (b, x)) (h : a.Follows p.1) : a.Follows b := by
  rw [e] at h; exact h

/-! ### One table of a size that stays, with whatever the core does not hold -/

section
variable {pins : Pins} {feat : Feat} {ep : Ep} {tim : Tim} {ctls : List (Option Nat)} {afu : Afu} {badger : Badger} {map : Map} {fresh : Nat}

theorem other (h : a.Follows b) :
    a.Follows { b with pins := pins, feat := feat, ep := ep, tim := tim, ctls := ctls, afu := afu, badger := badger, map := map, fresh := fresh } :=
  h.update

theorem ports {x : List Port} (h : a.Follows b)
    (same : x.length = b.ports.length := by simp) :
    a.Follows { b with ports := x, pins := pins, feat := feat, ep := ep, tim := tim, ctls := ctls, afu := afu, badger := badger, map := map, fresh := fresh } :=
  h.update (by simp [Block.core, Block.sizes, same])

theorem slots {x : List Slot} (h : a.Follows b)
    (same : x.length = b.slots.length := by simp) :
    a.Follows { b with slots := x, pins := pins, feat := feat, ep := ep, tim := tim, ctls := ctls, afu := afu, badger := badger, map := map, fresh := fresh } :=
  h.update (by simp [Block.core, Block.sizes, same])

theorem ifc {x : Ifc} (h : a.Follows b)
    (same : x.chans.length = b.ifc.chans.length := by simp) :
    a.Follows { b with ifc := x, pins := pins, feat := feat, ep := ep, tim := tim, ctls := ctls, afu := afu, badger := badger, map := map, fresh := fresh } :=
  h.update (by simp [Block.core, Block.sizes, same])

theorem fox {x : Fox} (h : a.Follows b)
    (same : x.cams.length = b.fox.cams.length := by simp) :
    a.Follows { b with fox := x, pins := pins, feat := feat, ep := ep, tim := tim, ctls := ctls, afu := afu, badger := badger, map := map, fresh := fresh } :=
  h.update (by simp [Block.core, Block.sizes, same])

theorem owl {x : Owl} (h : a.Follows b)
    (same : x.slots.length = b.owl.slots.length := by simp) :
    a.Follows { b with owl := x, pins := pins, feat := feat, ep := ep, tim := tim, ctls := ctls, afu := afu, badger := badger, map := map, fresh := fresh } :=
  h.update (by simp [Block.core, Block.sizes, same])

theorem guests {x : List Guest} (h : a.Follows b)
    (same : x.length = b.guests.length := by simp) :
    a.Follows { b with guests := x, pins := pins, feat := feat, ep := ep, tim := tim, ctls := ctls, afu := afu, badger := badger, map := map, fresh := fresh } :=
  h.update (by simp [Block.core, Block.sizes, same])

theorem link {x : Link} (h : a.Follows b)
    (same : x.msix.length = b.link.msix.length := by simp) :
    a.Follows { b with link := x, pins := pins, feat := feat, ep := ep, tim := tim, ctls := ctls, afu := afu, badger := badger, map := map, fresh := fresh } :=
  h.update (by simp [Block.core, Block.sizes, same])

theorem host {x : HostLink} (h : a.Follows b)
    (same : x.queues.length = b.host.queues.length ∧ x.streams.length = b.host.streams.length := by simp) :
    a.Follows { b with host := x, pins := pins, feat := feat, ep := ep, tim := tim, ctls := ctls, afu := afu, badger := badger, map := map, fresh := fresh } :=
  h.update (by simp [Block.core, Block.sizes, same])

theorem edge {x : List EdgeCh} (h : a.Follows b)
    (same : x.length = b.edge.length := by simp) :
    a.Follows { b with edge := x, pins := pins, feat := feat, ep := ep, tim := tim, ctls := ctls, afu := afu, badger := badger, map := map, fresh := fresh } :=
  h.update (by simp [Block.core, Block.sizes, same])

theorem trail {x : Trail} (h : a.Follows b)
    (same : x.lanes.length = b.trail.lanes.length ∧ x.bundles.length = b.trail.bundles.length := by simp) :
    a.Follows { b with trail := x, pins := pins, feat := feat, ep := ep, tim := tim, ctls := ctls, afu := afu, badger := badger, map := map, fresh := fresh } :=
  h.update (by simp [Block.core, Block.sizes, same])

theorem pwr {x : Pwr} (h : a.Follows b)
    (same : x.packSince.length = b.pwr.packSince.length ∧ x.pwrAck.length = b.pwr.pwrAck.length ∧ x.iso.length = b.pwr.iso.length := by simp) :
    a.Follows { b with pwr := x, pins := pins, feat := feat, ep := ep, tim := tim, ctls := ctls, afu := afu, badger := badger, map := map, fresh := fresh } :=
  h.update (by simp [Block.core, Block.sizes, same])

theorem den {x : Den} (h : a.Follows b) (same : x.mem = b.den.mem ∧ x.windows.length = b.den.windows.length := by simp) :
    a.Follows { b with den := x, pins := pins, feat := feat, ep := ep, tim := tim, ctls := ctls, afu := afu, badger := badger, map := map, fresh := fresh } :=
  h.update (by simp [Block.core, Block.sizes, same])

theorem cfg {x : Cfg} (h : a.Follows b) (same : x.active = b.cfg.active ∧ x.shadow = b.cfg.shadow := by simp) :
    a.Follows { b with cfg := x, pins := pins, feat := feat, ep := ep, tim := tim, ctls := ctls, afu := afu, badger := badger, map := map, fresh := fresh } :=
  h.update (by simp [Block.core, Block.sizes, same])

theorem thermos {x : Thermos} (h : a.Follows b) (same : x.journal = b.thermos.journal := by simp) :
    a.Follows { b with thermos := x, pins := pins, feat := feat, ep := ep, tim := tim, ctls := ctls, afu := afu, badger := badger, map := map, fresh := fresh } :=
  h.update (by simp [Block.core, Block.sizes, same])

theorem boot {x : Boot} (h : a.Follows b) (same : x.bootStore = b.boot.bootStore := by simp) :
    a.Follows { b with boot := x, pins := pins, feat := feat, ep := ep, tim := tim, ctls := ctls, afu := afu, badger := badger, map := map, fresh := fresh } :=
  h.update (by simp [Block.core, Block.sizes, same])

theorem flt {x : Flt} (h : a.Follows b)
    (same : x.fences = b.flt.fences ∧ x.restarts.length = b.flt.restarts.length ∧ x.restarting.length = b.flt.restarting.length
      ∧ x.failed.length = b.flt.failed.length ∧ x.clockOn.length = b.flt.clockOn.length := by simp [Flt.fences]) :
    a.Follows { b with flt := x, pins := pins, feat := feat, ep := ep, tim := tim, ctls := ctls, afu := afu, badger := badger, map := map, fresh := fresh } :=
  h.update (by simp [Block.core, Block.sizes, same])

end

/-! ### The shared operations -/

theorem signal (h : a.Follows b) {v : Nat} : a.Follows (b.signal v) := h.update
theorem emit (h : a.Follows b) {st : Nat} {type : BitVec 16} {unit : BitVec 8} {pl : Bytes} {ins : List InRef} : a.Follows (b.emit st type unit pl ins) := by
  refine h.update ?_
  have := emit_streams_length st type unit pl ins b
  rw [emit_eq]
  simp [Block.core, Block.sizes, this, Flt.fences]

end Block.Follows

end Sys2Proof.Machine
end

section
/-! PROOF. Each operation of the block follows the block it runs on: one rule for each, in the order of the model, put together from the
rules of the operations that it calls. (They are checked one after the other: all at once they take more threads than the memory holds.) -/

set_option Elab.async false

namespace Sys2Proof.Machine.Block.Follows

variable {a b c : Block}

theorem drew (h : a.Follows b) : a.Follows b.drew := by
  unfold Block.drew
  exact h.other

theorem cause (h : a.Follows b) {i : Nat} : a.Follows (b.cause i) := by
  unfold Block.cause
  exact Follows.either h.host h.host.signal

theorem enter (h : a.Follows b) {p : BootPhase} : a.Follows (b.enter p) := by
  unfold Block.enter
  exact h.boot.cause

theorem hello (h : a.Follows b) {x : Hello} : a.Follows (b.hello x) := by
  unfold Block.hello
  exact Follows.either h h.other.cause

theorem drive (h : a.Follows b) {o : Out} : a.Follows (b.drive o) := by
  unfold Block.drive
  exact h.host

theorem trace (h : a.Follows b) {p : Parcel} {ins : List InRef} : a.Follows (b.trace p ins) :=
  h.update (by simp [Block.trace, Block.core, Block.sizes, Flt.fences])

theorem toStream (h : a.Follows b) {st : Nat} {p : Parcel} : a.Follows (b.toStream st p) := by
  unfold Block.toStream
  exact h.host

theorem event (h : a.Follows b) {code : Nat} {source : BitVec 8} {body : Bytes} : a.Follows (b.event code source body) := h.emit

theorem eventFrom (h : a.Follows b) {code : Nat} {source unit : BitVec 8} {body : Bytes} {ins : List InRef} : a.Follows (b.eventFrom code source
    unit body ins) :=
  h.emit

theorem diag (h : a.Follows b) {code : Nat} {source : BitVec 8} {body : Bytes} : a.Follows (b.diag code source body) := h.emit

theorem flow (h : a.Follows b) {stream type : Nat} {unit : BitVec 8} {payload : Bytes} {ins : List InRef} : a.Follows (b.flow stream type unit
    payload ins) := by
  unfold Block.flow
  exact h.host.trace

theorem release (h : a.Follows b) {r : InRef} : a.Follows (b.release r) := by
  unfold Block.release
  exact h.host

theorem withCmd (h : a.Follows b) {r : CmdRef} {f : Cmd → Cmd} : a.Follows (b.withCmd r f) := by
  unfold Block.withCmd
  exact h.host

theorem finish (h : a.Follows b) {r : CmdRef} {status : Nat} {detail : Nat} {r0 r1 : Nat} : a.Follows (b.finish r status detail r0 r1) := h.withCmd

theorem portCount (h : a.Follows b) {k i : Nat} : a.Follows (b.portCount k i) := by
  unfold Block.portCount
  exact h.ports

theorem slotCount (h : a.Follows b) {k i : Nat} : a.Follows (b.slotCount k i) := by
  unfold Block.slotCount
  exact h.slots

theorem rearm (h : a.Follows b) {i : Nat} : a.Follows (b.rearm i) := by
  unfold Block.rearm
  exact h.flt

theorem badReg (h : a.Follows b) : a.Follows b.badReg := by
  unfold Block.badReg
  exact h.host

theorem journalPut (h : a.Follows b) {x : HostLink} {t : Thermos} (wf : Memory.wf b.thermos.journal = true → Memory.wf t.journal = true)
    (tables : x.queues = b.host.queues ∧ x.streams = b.host.streams) : a.Follows { b with host := x, thermos := t } := by
  refine h.change rfl fun ⟨⟨journal, store, mem, active, shadow⟩, sizes⟩ => ⟨⟨wf journal, store, mem, active, shadow⟩, ?_⟩
  simpa [Block.core, Block.sizes, tables] using sizes

theorem journal (h : a.Follows b) {halt : Option Bytes} : a.Follows (b.journal halt) := by
  unfold Block.journal
  extract_lets _ _ _ _ _ h2 body
  have tables : h2.queues = b.host.queues ∧ h2.streams = b.host.streams := by
    simp only [h2]
    split <;> exact ⟨rfl, rfl⟩
  clear_value h2 body
  refine h.journalPut (fun old => ?_) tables
  dsimp only
  exact wf_journalWrite _ _ old

theorem syncEmit (h : a.Follows b) : a.Follows b.syncEmit := by
  unfold Block.syncEmit
  split
  · exact h
  · exact h.other.event

theorem tick (h : a.Follows b) : a.Follows b.tick := by
  unfold Block.tick
  exact Follows.either h.thermos.syncEmit h.thermos

theorem begin {r : CmdRef} {op : Nat} {inRange : Cmd → Bool} {run : Cmd → Block → Block} (h : a.Follows b)
    (runs : ∀ c b, a.Follows b → a.Follows (run c b)) : a.Follows (b.begin r op inRange run) := by
  rcases begin_cases r op inRange run b with ⟨-, e⟩ | ⟨c, -, ⟨-, e⟩ | ⟨-, -, e⟩ | ⟨-, -, e⟩⟩ <;> rw [e]
  · exact h
  · exact h.finish
  · exact h.finish
  · exact runs c b h

theorem stage (h : a.Follows b) {r : CmdRef} {st : Stage} : a.Follows (b.stage r st) := h.withCmd

theorem settingsBusy (h : a.Follows b) {r : CmdRef} : a.Follows (b.settingsBusy r) := by
  unfold Block.settingsBusy
  exact h.cfg

theorem settingsEnd (h : a.Follows b) {r : CmdRef} {status detail r0 r1 : Nat} : a.Follows (b.settingsEnd r status detail r0 r1) := by
  unfold Block.settingsEnd
  exact h.cfg.finish

theorem forCmd {r : CmdRef} {f : Block → Block} (h : a.Follows b) (runs : ∀ b, a.Follows b → a.Follows (f b)) :
    a.Follows (b.forCmd r f) := (runs b h).withCmd

theorem dropWork (h : a.Follows b) {r : CmdRef} : a.Follows (b.dropWork r) := h.update

theorem abortCmd (h : a.Follows b) {r : CmdRef} : a.Follows (b.abortCmd r) := h.dropWork.finish

theorem orphan (h : a.Follows b) {q : Fin 16} : a.Follows (b.orphan q) := h.update

theorem endQueue (h : a.Follows b) {q : Fin 16} : a.Follows (b.endQueue q) := by
  unfold Block.endQueue
  exact (h.foldl fun _ _ h => (Follows.either h h.dropWork)).orphan.host

theorem queueOff (h : a.Follows b) {q : Fin 16} : a.Follows (b.queueOff q) := by
  unfold Block.queueOff
  exact h.endQueue.host

theorem hold (h : a.Follows b) : a.Follows b.hold := by
  unfold Block.hold
  exact h.host

theorem sessionEnd (h : a.Follows b) : a.Follows b.sessionEnd := by
  unfold Block.sessionEnd
  exact h.other

theorem windowsShut (h : a.Follows b) : a.Follows { b with den := { b.den with windows := List.replicate 8 none } } :=
  h.change rfl fun ⟨wf, sizes⟩ => ⟨wf, by simp_all [Block.core, Block.sizes, specSizes]⟩

theorem linkLost (h : a.Follows b) : a.Follows b.linkLost := by
  have k := h.hold.sessionEnd
  unfold Block.linkLost
  generalize b.hold.sessionEnd = b1 at k ⊢
  exact k.windowsShut.update

theorem sessionStart (h : a.Follows b) : a.Follows b.sessionStart := by
  unfold Block.sessionStart
  exact h.other.hello

theorem flrEffect (h : a.Follows b) : a.Follows b.flrEffect := by
  have k : a.Follows ((List.finRange 16).foldl (fun b q => b.queueOff q) b) := h.foldl fun _ _ h => h.queueOff
  unfold Block.flrEffect
  generalize (List.finRange 16).foldl _ b = b1 at k ⊢
  exact Follows.sessionEnd (k.change rfl fun ⟨wf, sizes⟩ => ⟨wf, by simp_all [Block.core, Block.sizes, specSizes]⟩)

theorem streamSignal (h : a.Follows b) {st : Nat} : a.Follows (b.streamSignal st) := by
  unfold Block.streamSignal
  exact Follows.either h.host.signal h.host

theorem queueSignal (h : a.Follows b) {q : Nat} : a.Follows (b.queueSignal q) := by
  unfold Block.queueSignal
  exact Follows.either h.host.signal h.host

theorem writeCompletion (h : a.Follows b) {q : Nat} {c : Cmd} : a.Follows (b.writeCompletion q c) := by
  unfold Block.writeCompletion
  exact h.host.drive.queueSignal

theorem haltCompletions (h : a.Follows b) : a.Follows b.haltCompletions :=
  (Follows.either (h.foldl fun _ _ h => (Follows.either (h.foldl fun _ _ h => h.writeCompletion).signal h)) h)

theorem onCam (h : a.Follows b) {cam : Nat} {f : FoxCam → FoxCam} : a.Follows (b.onCam cam f) := by
  unfold Block.onCam
  exact h.fox

theorem onFoxFrame (h : a.Follows b) {cam : Nat} {fs : Tick} {f : FoxFrame → FoxFrame} : a.Follows (b.onFoxFrame cam fs f) := h.onCam

theorem foxForget (h : a.Follows b) {cam : Nat} {fs : Tick} : a.Follows (b.foxForget cam fs) := h.onCam

theorem bookBand (h : a.Follows b) {k : Nat} {fs : Tick} {x : Band} : a.Follows (b.bookBand k fs x) := by
  unfold Block.bookBand
  exact h.fox

theorem foxDropEvent (h : a.Follows b) {cam cause : Nat} {no : BitVec 16} : a.Follows (b.foxDropEvent cam cause no) := h.event

theorem foxOpen (h : a.Follows b) {k : Nat} {f : Frame} : a.Follows (b.foxOpen k f) := by
  unfold Block.foxOpen
  exact Follows.either h (Follows.either h.onCam.other.foxDropEvent (h.onCam.foldl fun _ _ h => h.bookBand))

theorem foxDiscard (h : a.Follows b) {cam : Nat} {fs : Tick} : a.Follows (b.foxDiscard cam fs) := h.foxForget.onCam

theorem foxDrop (h : a.Follows b) {cam cause : Nat} {f : FoxFrame} : a.Follows (b.foxDrop cam cause f) := by
  unfold Block.foxDrop
  exact h.foxDiscard.other.foxDropEvent

theorem foxConsume (h : a.Follows b) {cam : Nat} : a.Follows (b.foxConsume cam) := by
  unfold Block.foxConsume
  split
  · exact h
  · split
    · exact h
    · exact h.onFoxFrame.onCam

theorem foxFrameDone (h : a.Follows b) {cam : Nat} {fs mid : Tick} : a.Follows (b.foxFrameDone cam fs mid) := h.onFoxFrame

theorem redoBand (h : a.Follows b) {cam : Nat} {fs : Tick} {index : Nat} : a.Follows (b.redoBand cam fs index) := by
  unfold Block.redoBand
  split
  · exact h
  · split
    · exact h
    · dsimp only
      split
      · exact h.onFoxFrame.bookBand
      · exact h.foxDrop

theorem redoLane (h : a.Follows b) {lane : Nat} : a.Follows (b.redoLane lane) :=
  (h.foldl fun _ _ h => (h.foldl fun _ _ h => (h.foldl fun _ _ h => h.redoBand)))

theorem trigDrive (h : a.Follows b) {pin : Nat} {level : Bool} : a.Follows (b.trigDrive pin level) := by
  unfold Block.trigDrive
  exact h.other

theorem lines (h : a.Follows b) {k : Nat} {payloads : List Bytes} : a.Follows (b.lines k payloads) := h.foldl fun _ _ h => h.flow

theorem missingLine (h : a.Follows b) {k : Nat} {frame : BitVec 16} {line : Nat} : a.Follows (b.missingLine k frame line) := h.lines

theorem onFrame (h : a.Follows b) {k : Nat} {f : Frame → Frame} : a.Follows (b.onFrame k f) := by
  unfold Block.onFrame
  exact h.ports

theorem useFrame (h : a.Follows b) {k : Nat} {fs mid : Tick} {dropped : Bool} : a.Follows (b.useFrame k fs mid dropped) := by
  unfold Block.useFrame
  exact Follows.either h.portCount.foxForget (Follows.either (Follows.either h.ports.foxDiscard h.ports.foxForget) h.ports.other.foxFrameDone)

theorem closeFrame (h : a.Follows b) {k : Nat} {fe : Option Tick} : a.Follows (b.closeFrame k fe) := by
  unfold Block.closeFrame
  split
  · exact h
  · split
    · split
      · exact Follows.either (Follows.either (Follows.either (Follows.either (Follows.either (h.foldl fun _ _ h => h.missingLine).portCount
          (h.foldl fun _ _ h => h.missingLine)).portCount (Follows.either (h.foldl fun _ _ h => h.missingLine).portCount (h.foldl fun _ _ h =>
          h.missingLine))).portCount.diag (Follows.either (Follows.either (h.foldl fun _ _ h => h.missingLine).portCount (h.foldl fun _ _ h =>
          h.missingLine)).portCount (Follows.either (h.foldl fun _ _ h => h.missingLine).portCount (h.foldl fun _ _ h =>
          h.missingLine)))).flow.ports.other (Follows.either (Follows.either (Follows.either (h.foldl fun _ _ h => h.missingLine).portCount
          (h.foldl fun _ _ h => h.missingLine)).portCount (Follows.either (h.foldl fun _ _ h => h.missingLine).portCount (h.foldl fun _ _ h =>
          h.missingLine))).portCount.diag (Follows.either (Follows.either (h.foldl fun _ _ h => h.missingLine).portCount (h.foldl fun _ _ h =>
          h.missingLine)).portCount (Follows.either (h.foldl fun _ _ h => h.missingLine).portCount (h.foldl fun _ _ h =>
          h.missingLine)))).flow.ports).foxDiscard (Follows.either (Follows.either (Follows.either (Follows.either (h.foldl fun _ _ h =>
          h.missingLine).portCount (h.foldl fun _ _ h => h.missingLine)).portCount (Follows.either (h.foldl fun _ _ h => h.missingLine).portCount
          (h.foldl fun _ _ h => h.missingLine))).portCount.diag (Follows.either (Follows.either (h.foldl fun _ _ h => h.missingLine).portCount
          (h.foldl fun _ _ h => h.missingLine)).portCount (Follows.either (h.foldl fun _ _ h => h.missingLine).portCount (h.foldl fun _ _ h =>
          h.missingLine)))).flow.ports.other (Follows.either (Follows.either (Follows.either (h.foldl fun _ _ h => h.missingLine).portCount
          (h.foldl fun _ _ h => h.missingLine)).portCount (Follows.either (h.foldl fun _ _ h => h.missingLine).portCount (h.foldl fun _ _ h =>
          h.missingLine))).portCount.diag (Follows.either (Follows.either (h.foldl fun _ _ h => h.missingLine).portCount (h.foldl fun _ _ h =>
          h.missingLine)).portCount (Follows.either (h.foldl fun _ _ h => h.missingLine).portCount (h.foldl fun _ _ h =>
          h.missingLine)))).flow.ports).useFrame

theorem closeGroup (h : a.Follows b) {k : Nat} : a.Follows (b.closeGroup k) := by
  unfold Block.closeGroup
  exact Follows.either h h.flow.slots

theorem i3cAssign (h : a.Follows b) {bus : Nat} : a.Follows (b.i3cAssign bus) := by
  unfold Block.i3cAssign
  exact Follows.either h (h.drive.foldl fun _ _ h => h.drive).slots

theorem trigEdge (h : a.Follows b) {pin : Fin 8} {rise : Bool} : a.Follows (b.trigEdge pin rise) := by
  unfold Block.trigEdge
  exact h.foldl fun _ _ h => (Follows.either (Follows.either h.trigDrive.ports h) (Follows.either h.trigDrive h))

theorem headerEcc (h : a.Follows b) {k : Nat} {e : Ecc} : a.Follows (b.headerEcc k e).1 := by
  unfold Block.headerEcc
  split
  · exact h
  · exact Follows.either h.portCount h
  · exact Follows.either h.portCount h

theorem openFrame (h : a.Follows b) {k : Nat} {no : BitVec 16} {fs : Tick} : a.Follows (b.openFrame k no fs) := by
  unfold Block.openFrame
  exact (Follows.either h.ports.portCount.event.drew h.ports).foxOpen

theorem frameStart (h : a.Follows b) {port : Fin 6} {p : ShortPkt} : a.Follows (b.frameStart port p) := by
  unfold Block.frameStart
  split
  · next e => exact Follows.either h (Follows.either (Follows.ofFst e h.ports.headerEcc) (Follows.either (Follows.ofFst e
      h.ports.headerEcc).portCount (Follows.either (Follows.ofFst e h.ports.headerEcc) (Follows.either (Follows.ofFst e
      h.ports.headerEcc).portCount.closeFrame (Follows.ofFst e h.ports.headerEcc)).openFrame)))

theorem trigNoFrame (h : a.Follows b) {port : Fin 6} : a.Follows (b.trigNoFrame port) := by
  unfold Block.trigNoFrame
  exact Follows.either h.ports.portCount.other h

theorem frameEnd (h : a.Follows b) {port : Fin 6} {p : ShortPkt} : a.Follows (b.frameEnd port p) := by
  unfold Block.frameEnd
  split
  · exact h
  · split
    · next e => exact Follows.either (Follows.ofFst e h.headerEcc) (Follows.either (Follows.ofFst e h.headerEcc).portCount (Follows.either
        (Follows.ofFst e h.headerEcc) (Follows.either (Follows.ofFst e h.headerEcc).portCount (Follows.ofFst e h.headerEcc).closeFrame)))

theorem lineStart (h : a.Follows b) {port : Fin 6} {isEnd : Bool} {p : ShortPkt} : a.Follows (b.lineStart port isEnd p) := by
  unfold Block.lineStart
  split
  · exact h
  · split
    · next e => exact Follows.either (Follows.ofFst e h.headerEcc) (Follows.either (Follows.ofFst e h.headerEcc).portCount (Follows.either
        (Follows.ofFst e h.headerEcc) (Follows.ofFst e h.headerEcc).onFrame))

theorem takeLine (h : a.Follows b) {k : Nat} {good : Bool} {payload : Bytes} : a.Follows (b.takeLine k good payload) := by
  unfold Block.takeLine
  split
  · exact h
  · exact Follows.either h.onFrame (Follows.either h.lines h.missingLine).onFrame

theorem pixelLine (h : a.Follows b) {k : Nat} {p : LongPkt} : a.Follows (b.pixelLine k p) :=
  (Follows.either (Follows.either (Follows.either h h.portCount).portCount (Follows.either h h.portCount)).portCount (Follows.either
      (Follows.either h h.portCount).portCount (Follows.either h h.portCount))).takeLine

theorem embed (h : a.Follows b) {k : Nat} {payload : Bytes} : a.Follows (b.embed k payload) := Follows.either h.toStream.trace h

theorem embedData (h : a.Follows b) {k : Nat} {p : LongPkt} : a.Follows (b.embedData k p) :=
  (Follows.either h.portCount (Follows.either (h.foldl fun _ _ h => h.embed) h.portCount))

theorem anyLong (h : a.Follows b) {k : Nat} {p : LongPkt} : a.Follows (b.anyLong k p) := by
  unfold Block.anyLong
  split
  · exact h
  · split
    · next e => exact Follows.either (Follows.either (Follows.ofFst e h.headerEcc).takeLine (Follows.ofFst e h.headerEcc)) (Follows.either
        (Follows.ofFst e h.headerEcc).portCount (Follows.either (Follows.ofFst e h.headerEcc).pixelLine (Follows.either (Follows.ofFst e
        h.headerEcc).portCount (Follows.either (Follows.ofFst e h.headerEcc).embedData (Follows.ofFst e h.headerEcc)))))

theorem longPacket (h : a.Follows b) {port : Fin 6} {p : LongPkt} : a.Follows (b.longPacket port p) := h.anyLong

theorem embedPacket (h : a.Follows b) {port : Fin 6} {p : LongPkt} : a.Follows (b.embedPacket port p) := h.anyLong

theorem phyError (h : a.Follows b) {port : Fin 6} : a.Follows (b.phyError port) := Follows.either h.portCount h

theorem dataReady (h : a.Follows b) {k : Nat} : a.Follows (b.dataReady k) := by
  unfold Block.dataReady
  exact Follows.either h.slots.slotCount h.slots

theorem irqEdge (h : a.Follows b) {pin : Fin 4} {rising : Bool} {width : Nat} : a.Follows (b.irqEdge pin rising width) :=
  (h.foldl fun _ _ h => (Follows.either h.dataReady h))

theorem pollTimer (h : a.Follows b) {slot : Fin 6} : a.Follows (b.pollTimer slot) := by
  unfold Block.pollTimer
  exact Follows.either h.slots h

theorem readStart (h : a.Follows b) {ctl : Fin 4} : a.Follows (b.readStart ctl) := by
  unfold Block.readStart
  dsimp only
  split
  · exact (Follows.either h.i3cAssign h).slots.drive
  · exact h

theorem readFailed (h : a.Follows b) {k : Nat} : a.Follows (b.readFailed k) := by
  unfold Block.readFailed
  exact Follows.either h.slotCount.slots.event h.slotCount.slots

theorem takeSample (h : a.Follows b) {k : Nat} {r : Read} {burst : Bytes} : a.Follows (b.takeSample k r burst) := by
  unfold Block.takeSample
  split
  · dsimp only
    split
    · exact h.slotCount
    · exact Follows.either (Follows.either (Follows.either h.slotCount h) (Follows.either h.slotCount h).slotCount).slots.closeGroup
        (Follows.either (Follows.either h.slotCount h) (Follows.either h.slotCount h).slotCount).slots
  · dsimp only
    split
    · exact h.slotCount
    · exact Follows.either (Follows.either (Follows.either h.slotCount h) (Follows.either h.slotCount h).slotCount).slots.closeGroup
        (Follows.either (Follows.either h.slotCount h) (Follows.either h.slotCount h).slotCount).slots

theorem readDone (h : a.Follows b) {ctl : Fin 4} {burst : Option Bytes} : a.Follows (b.readDone ctl burst) := by
  unfold Block.readDone
  split
  · exact h
  · split
    · exact h.slots
    · split
      · exact h.slots.readFailed
      · exact (Follows.either h.slots.slots.event h.slots.slots).takeSample

theorem groupTimer (h : a.Follows b) {slot : Fin 6} : a.Follows (b.groupTimer slot) := Follows.either h.closeGroup h

theorem onChan (h : a.Follows b) {c : Nat} {f : Chan → Chan} : a.Follows (b.onChan c f) := by
  unfold Block.onChan
  exact h.ifc

theorem onGroup (h : a.Follows b) {g : Nat} {f : Group → Group} : a.Follows (b.onGroup g f) := by
  unfold Block.onGroup
  exact h.ifc

theorem chanCount (h : a.Follows b) {c i : Nat} : a.Follows (b.chanCount c i) := h.onChan.onGroup

theorem wakeUp (h : a.Follows b) {src : WakeSrc} : a.Follows (b.wakeUp src) := Follows.either h.update h

theorem flushEvents (h : a.Follows b) {g : Nat} : a.Follows (b.flushEvents g) := h.onGroup.foldl fun _ _ h => h.emit

theorem ifcRelease (h : a.Follows b) : a.Follows b.ifcRelease := by
  unfold Block.ifcRelease
  exact h.ifc.foldl fun _ _ h => h.release

theorem closeOut (h : a.Follows b) {g : Nat} : a.Follows (b.closeOut g) := by
  unfold Block.closeOut
  exact Follows.either h.flushEvents (h.flow.other.onGroup.foldl fun _ _ h => h.emit).ifcRelease

theorem putOut (h : a.Follows b) {c : Nat} {r : IfcRec} {ins : List InRef} : a.Follows (b.putOut c r ins) :=
  (Follows.either h.onGroup.closeOut h.onGroup)

theorem evPin (h : a.Follows b) {c u : Nat} {start : Bool} : a.Follows (b.evPin c u start) := by
  unfold Block.evPin
  exact Follows.either (Follows.either (Follows.either h.trigDrive.ifc h.trigDrive) (Follows.either h.trigDrive h)) h

theorem evRun (h : a.Follows b) {c u : Nat} {r : IfcRec} : a.Follows (b.evRun c u r) := by
  unfold Block.evRun
  dsimp only
  split
  · exact h
  · exact Follows.either (Follows.either (Follows.either h.onChan.onGroup h.onChan).wakeUp (Follows.either h.onChan.onGroup h.onChan)).evPin
      (Follows.either (Follows.either h.onChan.onGroup h.onChan).wakeUp (Follows.either h.onChan.onGroup h.onChan))

theorem evEnd (h : a.Follows b) {c u cause : Nat} {stamp : Tick} {kind action pinMode pin : Nat} : a.Follows (b.evEnd c u cause stamp kind action
    pinMode pin) :=
  (Follows.either (Follows.either (Follows.either h.onChan.eventFrom.drew h.onChan).trigDrive (Follows.either h.onChan.eventFrom.drew h.onChan))
      h.onChan)

theorem evEndBoth (h : a.Follows b) {set : List Memory} {c cause : Nat} {stamp : Tick} : a.Follows (b.evEndBoth set c cause stamp) :=
  (h.foldl fun _ _ h => h.evEnd)

theorem ifcOutput (h : a.Follows b) {c n : Nat} {code : BitVec 8} : a.Follows (b.ifcOutput c n code) := by
  unfold Block.ifcOutput
  split
  · split
    · split
      · dsimp only
        split
        · exact (Follows.either h.onChan.chanCount.chanCount h.onChan.chanCount).chanCount.putOut.evRun.evRun
        · exact (Follows.either h.onChan.chanCount.chanCount h.onChan.chanCount).putOut.evRun.evRun
      · dsimp only
        split
        · exact (Follows.either h.onChan.chanCount h.onChan).chanCount.putOut.evRun.evRun
        · exact (Follows.either h.onChan.chanCount h.onChan).putOut.evRun.evRun
  · split
    · split
      · dsimp only
        split
        · exact (Follows.either h.onChan.chanCount.chanCount h.onChan.chanCount).chanCount.putOut.evRun.evRun
        · exact (Follows.either h.onChan.chanCount.chanCount h.onChan.chanCount).putOut.evRun.evRun
      · dsimp only
        split
        · exact (Follows.either h.onChan.chanCount h.onChan).chanCount.putOut.evRun.evRun
        · exact (Follows.either h.onChan.chanCount h.onChan).putOut.evRun.evRun

theorem ifcEnter (h : a.Follows b) {c : Nat} {i : IfcIn} : a.Follows (b.ifcEnter c i) := Follows.either h.onChan.ifcOutput h.onChan

theorem chanRestart (h : a.Follows b) {c : Nat} {stamp : Tick} : a.Follows (b.chanRestart c stamp) := h.evEndBoth.onChan.chanCount

theorem ifcSample (h : a.Follows b) {c slot : Nat} {stamp : Tick} {code : BitVec 8} {ovr : Bool} {raw : BitVec 32} {src : InRef} : a.Follows
    (b.ifcSample c slot stamp code ovr raw src) := by
  unfold Block.ifcSample
  exact (Follows.either h (Follows.either h.onChan.diag (Follows.either h (Follows.either (h.chanCount.foldl fun _ _ h => by
        split
        · exact h.ifcEnter
        · exact h) h.chanRestart.diag))).onChan.ifcEnter)

theorem chanStop (h : a.Follows b) {old : List Memory} {c : Nat} : a.Follows (b.chanStop old c) := Follows.either h.evEndBoth.onChan.onGroup h

theorem chanStart (h : a.Follows b) {c : Nat} : a.Follows (b.chanStart c) := Follows.either h h.onChan

theorem syncAnchor (h : a.Follows b) {bit : Nat} {merged : Bool} {stamp : Tick} : a.Follows (b.syncAnchor bit merged stamp) := by
  unfold Block.syncAnchor
  exact h.ifc

theorem ifcIslandRestart (h : a.Follows b) : a.Follows b.ifcIslandRestart := h.foldl fun _ _ h => (Follows.either h.chanRestart.onChan h)

theorem denWrite (h : a.Follows b) {addr : Nat} {bs : Bytes} : a.Follows (b.denWrite addr bs) :=
  h.change rfl fun ⟨⟨journal, store, mem, active, shadow⟩, sizes⟩ => ⟨⟨journal, store, wf_memWriteBytes bs addr mem, active, shadow⟩, sizes⟩

theorem storeMap (h : a.Follows b) {kind : MapKind} {addr : Nat} {payload : Bytes} {ins : List InRef} : a.Follows (b.storeMap kind addr payload
    ins) := by
  unfold Block.storeMap
  exact h.host.denWrite.trace

theorem guestOut (h : a.Follows b) {kind : Nat} {body : Bytes} {ins : List InRef} : a.Follows (b.guestOut kind body ins) := h.emit.drew

theorem queueFrag (h : a.Follows b) {kind : Nat} {p : Parcel} : a.Follows (b.queueFrag kind p) := by
  unfold Block.queueFrag
  split
  · exact h
  · exact h.host.trace.trail

theorem putMap (h : a.Follows b) {kind : MapKind} {addr : Nat} {payload : Bytes} {ins : List InRef} : a.Follows (b.putMap kind addr payload ins) := by
  unfold Block.putMap
  split
  · exact Follows.either h.storeMap.emit.guestOut.queueFrag h.storeMap.emit.queueFrag
  · exact h.storeMap.emit

theorem mapFull (h : a.Follows b) {kind : Nat} : a.Follows (b.mapFull kind) := by
  unfold Block.mapFull
  exact Follows.either h.den h.den.event

theorem poolTake (h : a.Follows b) {upTo : Nat} : a.Follows (b.poolTake upTo) := by
  unfold Block.poolTake
  exact h.other

theorem setKf (h : a.Follows b) {k : KfDir} : a.Follows (b.setKf k) := by
  unfold Block.setKf
  exact h.other

theorem makeCold (h : a.Follows b) {k : KfDir} : a.Follows (b.makeCold k) := Follows.either h.storeMap.setKf h

theorem roomHot (h : a.Follows b) : a.Follows b.roomHot := by
  unfold Block.roomHot
  split
  · exact h
  · split
    · exact h.makeCold
    · exact h

theorem makeHot (h : a.Follows b) {k : KfDir} : a.Follows (b.makeHot k) := by
  unfold Block.makeHot
  split
  · exact h
  · dsimp only
    split
    · exact h.roomHot
    · exact h.roomHot.storeMap.storeMap.setKf

theorem newKf (h : a.Follows b) {id : Nat} {payload : Bytes} {ins : List InRef} : a.Follows (b.newKf id payload ins) := by
  unfold Block.newKf
  split
  · dsimp only
    split
    · exact h.roomHot.mapFull
    · exact h.roomHot.putMap.setKf
  · dsimp only
    split
    · exact h.roomHot.putMap.setKf
    · exact h.roomHot.storeMap.putMap.setKf

theorem putPoints (h : a.Follows b) {recs : List (Nat × Bytes)} {ins : List InRef} : a.Follows (b.putPoints recs ins) := by
  unfold Block.putPoints
  exact h.foldl fun _ _ h => h.putMap.other

theorem putEdges (h : a.Follows b) {recs : List (Nat × Bytes)} {ins : List InRef} : a.Follows (b.putEdges recs ins) := by
  unfold Block.putEdges
  exact h.foldl fun _ _ h => h.putMap.other

theorem cullDefault (h : a.Follows b) {id : Nat} : a.Follows (b.cullDefault id) := h.putPoints

theorem postAt (h : a.Follows b) {key addr count : Nat} : a.Follows (b.postAt key addr count) := by
  unfold Block.postAt
  exact h.other

theorem newPosting (h : a.Follows b) {key id prev : Nat} {ins : List InRef} : a.Follows (b.newPosting key id prev ins) :=
  Block.newPosting_cases (fun _ _ => h.poolTake.putMap.postAt) h.mapFull

theorem postSample (h : a.Follows b) {key id : Nat} {ins : List InRef} : a.Follows (b.postSample key id ins) := by
  unfold Block.postSample
  split
  · split
    · split
      · exact h.putMap.postAt
      · exact h
    · exact h.newPosting
  · exact h.newPosting

theorem mapLoss (h : a.Follows b) {kind first last : Nat} : a.Follows (b.mapLoss kind first last) := h.event

theorem freeEdges (h : a.Follows b) {which : Bytes → Bool} : a.Follows (b.freeEdges which) := h.putEdges

theorem loseObject (h : a.Follows b) {addr : Nat} : a.Follows (b.loseObject addr) := by
  unfold Block.loseObject
  split
  · split
    · exact h.other.freeEdges.mapLoss
    · exact h
  · dsimp only
    split
    · exact Follows.either h h.other.freeEdges.mapLoss
    · exact h
  · exact Follows.either h.mapLoss h
  · exact Follows.either h.mapLoss h
  · split
    · exact h.mapLoss
    · split
      · exact h.other.mapLoss
      · exact h
  · exact h

theorem onGuest (h : a.Follows b) {s : Nat} {f : Guest → Guest} : a.Follows (b.onGuest s f) := by
  unfold Block.onGuest
  exact h.guests

theorem guestRecord (h : a.Follows b) {s kind : Nat} {body : Bytes} {ins : List InRef} : a.Follows (b.guestRecord s kind body ins) := h.emit.drew

theorem evict (h : a.Follows b) {s cause : Nat} : a.Follows (b.evict s cause) := by
  unfold Block.evict
  exact h.onGuest.other

theorem dropStaging (h : a.Follows b) {s : Nat} : a.Follows (b.dropStaging s) := h.onGuest

theorem alignFailed (h : a.Follows b) {s cause : Nat} : a.Follows (b.alignFailed s cause) := Follows.either h.onGuest.event.evict h.onGuest.event

theorem alignResult (h : a.Follows b) {s : Nat} {gen : BitVec 16} {limits : Nat × BitVec 32} {sol : Option (List (BitVec 32) × List (BitVec 32))}
    {result : List InRef} : a.Follows (b.alignResult s gen limits sol result) := by
  unfold Block.alignResult
  split
  · exact Follows.either h h.alignFailed
  · exact Follows.either h (Follows.either h.alignFailed (Follows.either h.alignFailed h.onGuest.event.guestRecord))

theorem onJob (h : a.Follows b) {n : Nat} {f : Job → Job} : a.Follows (b.onJob n f) := by
  unfold Block.onJob
  exact h.other

theorem sealOnly (h : a.Follows b) {type : Nat} {unit : BitVec 8} {payload : Bytes} {ins : List InRef} : a.Follows (b.sealOnly type unit payload
    ins) := by
  unfold Block.sealOnly
  exact h.host.trace

theorem assemble (h : a.Follows b) {j : Job} {rows landmarks blocks factors : Nat} {still : Bool} : a.Follows (b.assemble j rows landmarks blocks
    factors still) := by
  unfold Block.assemble
  exact h.sealOnly.other.drew.drew

theorem drewN (h : a.Follows b) {n : Nat} : a.Follows (b.drewN n) := by
  unfold Block.drewN
  exact h.other

theorem publish (h : a.Follows b) {j : Job} {payloads : List Bytes} : a.Follows (b.publish j payloads) :=
  (h.foldl fun _ _ h => (Follows.either h.emit h.flow))

theorem vioEnd (h : a.Follows b) {j : Job} {e : JobEnd} : a.Follows (b.vioEnd j e) := by
  unfold Block.vioEnd
  split
  · exact h.flow.sealOnly.drew.other
  · exact h.other
  · exact h.other.event

theorem correctKf (h : a.Follows b) {id : Nat} {d : List (BitVec 32)} {ins : List InRef} : a.Follows (b.correctKf id d ins) := by
  unfold Block.correctKf
  split
  · exact h.putMap
  · exact h

theorem loopEnd (h : a.Follows b) {j : Job} {e : JobEnd} : a.Follows (b.loopEnd j e) := by
  unfold Block.loopEnd
  cases j.published e with
  | none => exact h.event
  | some r =>
    obtain ⟨x, part, carried⟩ := r
    cases carried with
    | true => exact h.publish.event
    | false => exact (h.publish.foldl fun _ _ h => h.correctKf).other

theorem alignEnd (h : a.Follows b) {j : Job} {e : JobEnd} : a.Follows (b.alignEnd j e) := by
  unfold Block.alignEnd
  split
  · split
    · exact h.publish.alignResult
    · exact h.publish.alignResult
    · exact h.alignResult

theorem hostEnd (h : a.Follows b) {j : Job} {e : JobEnd} : a.Follows (b.hostEnd j e) := by
  unfold Block.hostEnd
  split
  · exact (h.forCmd fun _ h => by
        split
        · exact h.publish
        · exact h).finish
  · exact h

theorem jobEnd (h : a.Follows b) {n : Nat} {e : JobEnd} : a.Follows (b.jobEnd n e) := by
  unfold Block.jobEnd
  split
  · exact h
  · exact Follows.either h.other.hostEnd (Follows.either h.other.vioEnd (Follows.either h.other.loopEnd h.other.alignEnd))

theorem jobsWithoutTiles (h : a.Follows b) : a.Follows b.jobsWithoutTiles := Follows.either (h.foldl fun _ _ h => h.jobEnd) h

theorem dropWindow (h : a.Follows b) : a.Follows b.dropWindow := by
  unfold Block.dropWindow
  exact h.other

theorem onLane (h : a.Follows b) {l : Nat} {f : Lane → Lane} : a.Follows (b.onLane l f) := by
  unfold Block.onLane
  exact h.trail

theorem onBundle (h : a.Follows b) {k : Nat} {f : Bundle → Bundle} : a.Follows (b.onBundle k f) := by
  unfold Block.onBundle
  exact h.trail

theorem rollStart (h : a.Follows b) : a.Follows b.rollStart := by
  unfold Block.rollStart
  exact h.trail

theorem askWidth (h : a.Follows b) {k : Nat} : a.Follows (b.askWidth k) := Follows.either h h.onBundle.drive

theorem laneGone (h : a.Follows b) {k : Nat} : a.Follows (b.laneGone k) := Follows.either h.onBundle h.onBundle.rollStart

theorem retrain (h : a.Follows b) {l : Nat} : a.Follows (b.retrain l) := Follows.either h.onLane.drive.laneGone h

theorem retrainBundle (h : a.Follows b) {k : Nat} : a.Follows (b.retrainBundle k) := h.foldl fun _ _ h => h.retrain

theorem lanesDown (h : a.Follows b) : a.Follows b.lanesDown := by
  unfold Block.lanesDown
  exact h.trail

theorem trailRestart (h : a.Follows b) : a.Follows b.trailRestart := by
  unfold Block.trailRestart
  exact (h.trail.foldl fun _ _ h => h.retrain).rollStart

theorem putFlits (h : a.Follows b) {k : Nat} {x : Sending} : a.Follows (b.putFlits k x) := h.onBundle.drive

theorem sendOn (h : a.Follows b) {k : Nat} {x : Sending} : a.Follows (b.sendOn k x) := Follows.either h.putFlits h.onBundle

theorem sendWaiting (h : a.Follows b) {k : Nat} : a.Follows (b.sendWaiting k) := h.onBundle.foldl fun _ _ h => h.sendOn

theorem unreachable (h : a.Follows b) {d : BitVec 12} {cause : Nat} : a.Follows (b.unreachable d cause) := by
  unfold Block.unreachable
  exact Follows.either h.trail h.trail.event

theorem sendTo (h : a.Follows b) {x : Sending} : a.Follows (b.sendTo x) := by
  unfold Block.sendTo
  split
  · exact h.trail
  · split
    · exact h.sendOn
    · exact h.unreachable

theorem control' (h : a.Follows b) {type : Nat} {d : BitVec 12} {payload : Bytes} : a.Follows (b.control' type d payload) := by
  unfold Block.control'
  exact h.host.sendTo

theorem sendOwn (h : a.Follows b) {d : BitVec 12} {p : Parcel} : a.Follows (b.sendOwn d p) := h.sendTo

theorem linkParcel (h : a.Follows b) {type k : Nat} {d : BitVec 12} {payload : Bytes} : a.Follows (b.linkParcel type k d payload) := by
  unfold Block.linkParcel
  exact h.host.sendOn

theorem received (h : a.Follows b) {p : Parcel} : a.Follows (b.received p) := by
  unfold Block.received
  exact h.trail

theorem sendJoin (h : a.Follows b) : a.Follows b.sendJoin := by
  unfold Block.sendJoin
  exact Follows.either h.control'.trail h

theorem pumpFrags (h : a.Follows b) : a.Follows b.pumpFrags := by
  unfold Block.pumpFrags
  exact Follows.either h (h.trail.foldl fun _ _ h => h.sendOwn)

theorem resendFrags (h : a.Follows b) : a.Follows b.resendFrags := h.foldl fun _ _ h => h.sendOwn

theorem queueMap (h : a.Follows b) : a.Follows b.queueMap := by
  unfold Block.queueMap
  exact (((h.foldl fun _ _ h => by
        dsimp only
        split
        · exact (h.queueFrag.foldl fun _ _ h => by
        split
        · exact h.queueFrag
        · exact h)
        · exact (h.foldl fun _ _ h => by
        split
        · exact h.queueFrag
        · exact h)).foldl fun _ _ h => by
        dsimp only
        split
        · exact h.queueFrag
        · exact h).foldl fun _ _ h => by
        dsimp only
        split
        · exact h.queueFrag
        · exact h)

theorem releaseFlash (h : a.Follows b) : a.Follows b.releaseFlash := by
  unfold Block.releaseFlash
  exact Follows.either h.drive.boot h

theorem faultHalt (h : a.Follows b) {cause island : Nat} : a.Follows (b.faultHalt cause island) := by
  unfold Block.faultHalt
  refine Follows.releaseFlash (Follows.signal (Follows.haltCompletions (Follows.journal (h.update ?_))))
  simp [Block.core, Block.sizes, Flt.fences]

theorem reportFence (h : a.Follows b) {unit cause : BitVec 8} {k : Fenceable} : a.Follows (b.reportFence unit cause k) := by
  unfold Block.reportFence
  exact h.flt.event

theorem restartCmd (h : a.Follows b) {r : CmdRef} {c : Cmd} : a.Follows (b.restartCmd r c) := Follows.either h.dropWork.withCmd h

theorem switchPair (h : a.Follows b) {p : Pair} {cause : BitVec 8} : a.Follows (b.switchPair p cause) := by
  have k : a.Follows ((List.finRange 16).foldl (fun b (q : Fin 16) =>
      ((b.host.queues.getD q {}).cmds).foldl (fun b c => b.restartCmd ⟨q, c.id⟩ c) b) b) :=
    h.foldl fun _ _ h => h.foldl fun _ _ h => h.restartCmd
  unfold Block.switchPair
  generalize (List.finRange 16).foldl _ b = b1 at k ⊢
  exact Follows.event (k.update (by simp [Block.core, Block.sizes, Flt.fences]))

/-- What a fence does beyond the live masks follows the block that has them. -/
theorem ofWithout {unit cause : BitVec 8} {k : Fenceable}
    (h : a.Follows { b with flt := (b.flt.without k).dropBeats unit, ep := { b.ep with changeAt := b.now } }) : a.Follows (b.fence unit cause k) := by
  unfold Block.fence
  cases k with
  | lane l => exact h.reportFence.redoLane
  | tile l => exact h.reportFence.jobsWithoutTiles
  | thread l => exact h.reportFence
  | pair p => exact (h.flt.reportFence.switchPair).either h.reportFence

theorem fence (h : a.Follows b) {unit cause : BitVec 8} {k : Fenceable} : a.Follows (b.fence unit cause k) :=
  ofWithout (h.trans ⟨fun ⟨wf, sizes⟩ => ⟨wf, by simpa [Block.core, Block.sizes, Flt.dropBeats_without_tables] using sizes⟩,
    Flt.below_without _ _⟩)

theorem restartLoss (h : a.Follows b) {i : Nat} : a.Follows (b.restartLoss i) := by
  unfold Block.restartLoss
  split
  · exact (h.foldl fun _ _ h => (h.portCount.closeFrame).either h).slots
  · exact h.ifcIslandRestart
  · exact h.linkLost
  · exact h.trailRestart
  · exact h

theorem islandFailed (h : a.Follows b) {i : Nat} : a.Follows (b.islandFailed i) := by
  unfold Block.islandFailed
  exact Follows.either h.lanesDown.trail.event (Follows.either h.faultHalt h)

theorem restarted (h : a.Follows b) {f : Flt} {x : Badger} (same : f.fences = b.flt.fences ∧ f.restarts.length = b.flt.restarts.length
      ∧ f.restarting.length = b.flt.restarting.length ∧ f.failed.length = b.flt.failed.length ∧ f.clockOn.length = b.flt.clockOn.length)
    {asmOnly four : Bool} {i : Nat} {unit : BitVec 8} {body : Bytes} :
    a.Follows (if four then
        (if asmOnly then { b with flt := f, badger := x }.event 0x0013 unit body
          else ({ b with flt := f, badger := x }.event 0x0013 unit body).restartLoss i).islandFailed i
      else (if asmOnly then { b with flt := f, badger := x }.event 0x0013 unit body
        else ({ b with flt := f, badger := x }.event 0x0013 unit body).restartLoss i)) := by
  have k : a.Follows ({ b with flt := f, badger := x }.event 0x0013 unit body) := (h.flt same).event
  exact (k.either k.restartLoss).islandFailed.either (k.either k.restartLoss)

theorem islandRestart (h : a.Follows b) {i : Nat} {cause unit : BitVec 8} {asmOnly : Bool} : a.Follows (b.islandRestart i cause unit asmOnly) := by
  unfold Block.islandRestart
  split
  · exact h
  · exact restarted h (by simp [Flt.fences, apply_ite List.length])

theorem blame (h : a.Follows b) {unit : BitVec 8} {cause : Nat} : a.Follows (b.blame unit cause) := by
  unfold Block.blame
  split
  · exact h
  · split
    · split
      · exact h
      · split
        · exact Follows.either h.faultHalt h.fence
        · exact h.fence
    · split
      · exact h.islandRestart
      · exact h

theorem bridgeFault (h : a.Follows b) {i : Nat} {unit : Option (BitVec 8)} {cause : Nat} : a.Follows (b.bridgeFault i unit cause) := by
  unfold Block.bridgeFault
  split
  · exact h
  · split
    · exact h.blame
    · split
      · exact h.blame
      · exact Follows.either h.blame h.islandRestart

theorem integrityFault (h : a.Follows b) {p : Parcel} {verifier cause : BitVec 8} : a.Follows (b.integrityFault p verifier cause) := by
  unfold Block.integrityFault
  split
  · exact h
  · split
    · split
      · exact Follows.either h.flt.event.control' h.flt.event
      · split
        · exact Follows.either h.flt.event h.flt.event.blame
        · exact h.flt.event
    · split
      · exact Follows.either h.flt.event.control' h.flt.event
      · split
        · exact Follows.either h.flt.event h.flt.event.blame
        · exact h.flt.event

theorem reportMem (h : a.Follows b) {addr region : Nat} : a.Follows (b.reportMem addr region) := by
  unfold Block.reportMem
  exact h.den.event

theorem settingsLost (h : a.Follows b) {addr : Nat} : a.Follows (b.settingsLost addr) := by
  unfold Block.settingsLost
  split
  · exact h.faultHalt
  · split
    · split
      · split
        · exact h.cfg.cfg.finish
        · exact h.cfg.cfg
      · exact h.cfg
    · split
      · split
        · exact h.cfg.cfg.finish
        · exact h.cfg.cfg
      · exact h.cfg

theorem memFault (h : a.Follows b) {addr : Nat} : a.Follows (b.memFault addr) := by
  unfold Block.memFault
  split
  · exact h
  · split
    · exact h
    · split
      · exact h.reportMem.settingsLost
      · exact h.reportMem.blame
      · exact h.reportMem.blame
      · exact h.reportMem.other
      · exact h.reportMem.other
      · exact h.reportMem.loseObject
      · exact h.reportMem.loseObject
      · exact h.reportMem.loseObject
      · exact h.reportMem.loseObject
      · split
        · exact h.reportMem.loseObject
        · split
          · exact h.reportMem.dropStaging.drew
          · exact h.reportMem
      · exact h.reportMem

theorem poolFault (h : a.Follows b) : a.Follows b.poolFault := h.memFault.drew

theorem readObjects (h : a.Follows b) {as : List Nat} : a.Follows (b.readObjects as) := by
  unfold Block.readObjects
  exact (h.foldl fun _ _ h => by
        split
        · exact h.memFault
        · exact h)

theorem verify (h : a.Follows b) {p : Parcel} {seen : Seen} {verifier : BitVec 8} : a.Follows (b.verify p seen verifier).2 := by
  unfold Block.verify
  split
  · exact h.poolFault
  · exact h.blame
  · split
    · exact h
    · exact h.integrityFault
  · split
    · exact h
    · exact h.integrityFault

theorem verifyAll (h : a.Follows b) {reads : Reads} {unit : BitVec 8} {ps : List Parcel} : a.Follows (b.verifyAll reads unit ps).2 := by
  induction ps generalizing b with
  | nil => exact h
  | cons p ps ih =>
    unfold Block.verifyAll
    split
    · next e => exact ih (Follows.ofSnd e h.verify)
    · next e => exact Follows.ofSnd e h.verify

theorem verifyRefs (h : a.Follows b) {rs : List InRef} {reads : Reads} {unit : BitVec 8} : a.Follows (b.verifyRefs rs reads unit).2 := h.verifyAll

theorem fixTc (h : a.Follows b) : a.Follows b.fixTc := by
  unfold Block.fixTc
  exact Follows.either h h.other.drew

theorem limitEvent (h : a.Follows b) {kind which : Nat} {near tc : Int} : a.Follows (b.limitEvent kind which near tc) := by
  unfold Block.limitEvent
  exact h.other.event

theorem rejectPrior (h : a.Follows b) {source cause stamp : Nat} {d2 : BitVec 32} : a.Follows (b.rejectPrior source cause stamp d2) := by
  unfold Block.rejectPrior
  exact h.other.event

theorem takePriors (h : a.Follows b) {gates : List (BitVec 4 × BitVec 32)} : a.Follows (b.takePriors gates).1 := by
  unfold Block.takePriors
  refine h.foldlFst fun p s h => ?_
  split
  · exact h
  · exact h.limitEvent
  · simp only [apply_ite Prod.fst]
    exact h.rejectPrior.either h

theorem owlCount (h : a.Follows b) {s i n : Nat} : a.Follows (b.owlCount s i n) := by
  unfold Block.owlCount
  exact h.owl

theorem countRecs (h : a.Follows b) {s : Nat} {recs : List OwlRec} : a.Follows (b.countRecs s recs) := h.owlCount.owlCount.owlCount

theorem engineScore (h : a.Follows b) {s use : Nat} {samples : List Sample} {ins : List InRef} : a.Follows (b.engineScore s use samples ins).1 := by
  unfold Block.engineScore
  split
  · exact h
  · exact h.countRecs.foldlFst fun _ _ h => (Follows.either h.flow.emit h.flow)

theorem owlEnter (h : a.Follows b) : a.Follows b.owlEnter := by
  unfold Block.owlEnter
  split
  · exact h
  · split
    · exact h
    · split
      · exact h.owl.stage
      · exact h.owl

theorem owlModelLoad (h : a.Follows b) {r : CmdRef} : a.Follows (b.owlModelLoad r) := by
  unfold Block.owlModelLoad
  exact h.begin fun _ _ h => (Follows.either h.finish (Follows.either h.finish h.settingsBusy.stage.owl))

theorem loadFails (h : a.Follows b) {r : CmdRef} {status detail : Nat} : a.Follows (b.loadFails r status detail) := by
  unfold Block.loadFails
  exact h.owl.settingsEnd

theorem modelHeads (h : a.Follows b) {r : CmdRef} {c : Cmd} {hs : List Parcel} : a.Follows (b.modelHeads r c hs) := by
  unfold Block.modelHeads
  exact Follows.either h.withCmd.owl h.loadFails

theorem modelPart (h : a.Follows b) {r : CmdRef} {c : Cmd} {p : Parcel} : a.Follows (b.modelPart r c p) := by
  unfold Block.modelPart
  split
  · exact h
  · exact Follows.either (Follows.withCmd h.owl) (Follows.settingsEnd (h.update (by simp [Block.core, Block.sizes])))

theorem owlScore (h : a.Follows b) {r : CmdRef} : a.Follows (b.owlScore r) := h.begin fun _ _ h => (Follows.either h.finish h.stage)

theorem featureHeads (h : a.Follows b) {r : CmdRef} {c : Cmd} {hs : List Parcel} : a.Follows (b.featureHeads r c hs) := by
  unfold Block.featureHeads
  split
  · exact h.finish
  · exact Follows.either h.finish (Follows.either h.finish h.withCmd)

theorem featurePart (h : a.Follows b) {r : CmdRef} {c : Cmd} {p : Parcel} : a.Follows (b.featurePart r c p) := by
  unfold Block.featurePart
  dsimp only
  split
  · exact h.finish
  · exact Follows.either h.withCmd h.withCmd.owl.owlEnter

theorem owlRecord (h : a.Follows b) {thread : Nat} {j : OwlJob} {rec_ : OwlRec} : a.Follows (b.owlRecord thread j rec_) := by
  unfold Block.owlRecord
  split
  · exact Follows.either (Follows.either (h.countRecs.forCmd fun _ h => (h.foldl fun _ _ h => h.emit)) h.countRecs).owl.finish.owlEnter
      (Follows.either (h.countRecs.forCmd fun _ h => (h.foldl fun _ _ h => h.emit)) h.countRecs).owl
  · exact Follows.either (Follows.either (h.countRecs.foldl fun _ _ h => h.emit) h.countRecs).owl.owlEnter (Follows.either (h.countRecs.foldl fun _
      _ h => h.emit) h.countRecs).owl

theorem owlSampleResult (h : a.Follows b) {thread : Fin 32} {index : Nat} : a.Follows (b.owlSampleResult thread index) := by
  unfold Block.owlSampleResult
  dsimp only
  split
  · exact h.owlEnter
  · split
    · exact h.owlEnter
    · split
      · exact h.owlEnter
      · exact h.owlEnter.owlRecord

theorem engineVerify (h : a.Follows b) {x : OwlIn} {ins : List InRef} : a.Follows (b.engineVerify x ins).2 := h.verifyRefs

theorem gateScore (h : a.Follows b) {x : OwlIn} : a.Follows (b.gateScore x) := by
  unfold Block.gateScore
  split
  · exact Follows.either h h.owl
  · dsimp only
    split
    · exact h
    · split
      · next e => exact Follows.ofSnd e h.engineVerify
      · next e => exact (Follows.ofSnd e h.engineVerify).engineScore.drewN.owl

theorem makeKeyframe (h : a.Follows b) {slots : List (BitVec 32)} : a.Follows (b.makeKeyframe slots) := by
  unfold Block.makeKeyframe
  split
  · exact h.mapFull
  · dsimp only
    split
    · exact h.mapFull
    · have k (n : Nat) : a.Follows (if b.den.dramAbsent then b else b.poolTake n) := h.either h.poolTake
      refine Follows.either (k _).newKf (Follows.owl (Follows.either (Follows.cullDefault ?_) ?_)) <;>
        exact ((k _).newKf.foldl fun _ _ h => h.putMap).foldl fun _ _ h => h.postSample

theorem keyframeDecided (h : a.Follows b) {slots : List (BitVec 32)} {pass : Bool} : a.Follows (b.keyframeDecided slots pass) := by
  unfold Block.keyframeDecided
  exact Follows.either h.other.makeKeyframe h.other

theorem keyframeScore (h : a.Follows b) {x : OwlIn} : a.Follows (b.keyframeScore x) := by
  unfold Block.keyframeScore
  dsimp only
  split
  · exact h.readObjects
  · split
    · exact h.readObjects.keyframeDecided
    · split
      · next e => exact Follows.ofSnd e h.readObjects.engineVerify
      · next e => exact (Follows.ofSnd e h.readObjects.engineVerify).engineScore.keyframeDecided

theorem cullScore (h : a.Follows b) {x : OwlIn} : a.Follows (b.cullScore x) := by
  unfold Block.cullScore
  split
  · exact h
  · split
    · exact h
    · dsimp only
      split
      · next e => exact Follows.ofSnd e h.readObjects.readObjects.engineVerify
      · next e => exact (Follows.ofSnd e h.readObjects.readObjects.engineVerify).engineScore.putPoints.owl

theorem fixOldest (h : a.Follows b) {lo hi : Nat} : a.Follows (b.fixOldest lo hi) := by
  unfold Block.fixOldest
  extract_lets all
  split
  · exact h
  · split
    · exact h.putMap
    · exact h

theorem loopAccepted (h : a.Follows b) {new cand : Nat} {refs : List InRef} : a.Follows (b.loopAccepted new cand refs) := by
  unfold Block.loopAccepted
  split
  · exact Follows.either (Follows.either h.makeHot.other h.makeHot) h.makeHot.readObjects.fixOldest.assemble.jobsWithoutTiles
  · exact Follows.either (Follows.either h.other h) h.readObjects.fixOldest.assemble.jobsWithoutTiles

theorem loopScore (h : a.Follows b) {x : OwlIn} : a.Follows (b.loopScore x) := by
  unfold Block.loopScore
  split
  · exact h
  · split
    · exact h
    · dsimp only
      split
      · next e => exact Follows.ofSnd e h.readObjects.readObjects.engineVerify
      · split
        · next e _ _ _ _ => exact (Follows.ofSnd e h.readObjects.readObjects.engineVerify).engineScore.owl.loopAccepted
        · next e _ _ => exact (Follows.ofSnd e h.readObjects.readObjects.engineVerify).engineScore.owl

theorem motionScore (h : a.Follows b) {x : OwlIn} : a.Follows (b.motionScore x) := by
  unfold Block.motionScore
  split
  · exact h
  · split
    · exact h
    · dsimp only
      split
      · next e => exact Follows.ofSnd e h.engineVerify
      · next e => exact (Follows.ofSnd e h.engineVerify).engineScore.owl

theorem owlEngineScore (h : a.Follows b) {use : OwlUse} {x : OwlIn} : a.Follows (b.owlEngineScore use x) := by
  unfold Block.owlEngineScore
  split
  · exact h
  · split
    · exact h.gateScore.owlEnter
    · exact h.keyframeScore.owlEnter
    · exact h.cullScore.owlEnter
    · exact h.loopScore.owlEnter
    · exact h.motionScore.owlEnter

theorem owlGateLate (h : a.Follows b) {cam : Fin 6} : a.Follows (b.owlGateLate cam) := by
  unfold Block.owlGateLate
  split
  · split
    · exact h.owl.owlCount.event.owlEnter
    · exact h.owl.event.owlEnter
  · exact h

theorem nodeUe (h : a.Follows b) {slot : Fin 8} {reloadOk : Bool} : a.Follows (b.nodeUe slot reloadOk) := by
  unfold Block.nodeUe
  exact (Follows.either h (h.poolFault.owl.event.foldl fun _ _ h => by
        split
        · exact h.finish
        · exact h).owlEnter)

theorem vioInitStep (h : a.Follows b) : a.Follows b.vioInitStep := by
  unfold Block.vioInitStep
  exact Follows.either h h.other

theorem vioProblem (h : a.Follows b) {x : VioIn} : a.Follows (b.vioProblem x) := by
  unfold Block.vioProblem
  split
  · next e => exact (Follows.ofFst e h.takePriors).other.assemble.jobsWithoutTiles

theorem vioVerify (h : a.Follows b) {x : VioIn} : a.Follows (b.vioVerify x).2 := h.verifyAll

theorem vioAssembly (h : a.Follows b) {x : VioIn} : a.Follows (b.vioAssembly x) := by
  unfold Block.vioAssembly
  split
  · split
    · next e => exact Follows.ofSnd e h.vioVerify
    · next e => exact (Follows.either (Follows.ofSnd e h.vioVerify).vioInitStep.other.vioProblem (Follows.ofSnd e
        h.vioVerify).vioInitStep.other).foldl fun _ _ h => (Follows.either h.foxConsume h)
  · exact h

theorem hostJob (h : a.Follows b) {r : CmdRef} {c : Cmd} {pcg : Bool} {ins : List InRef} {init : List (BitVec 32)} {f : Job → Job} : a.Follows
    (b.hostJob r c pcg ins init f) := by
  unfold Block.hostJob
  exact h.other.stage.jobsWithoutTiles

theorem hostGraph (h : a.Follows b) {r : CmdRef} {c : Cmd} : a.Follows (b.hostGraph r c) :=
  (Follows.either h.readObjects.finish h.readObjects.hostJob)

theorem hostAlign (h : a.Follows b) {r : CmdRef} {c : Cmd} : a.Follows (b.hostAlign r c) := Follows.either h.finish h.drewN.hostJob

theorem badgerJob (h : a.Follows b) {r : CmdRef} : a.Follows (b.badgerJob r) := by
  unfold Block.badgerJob
  exact (h.begin fun _ _ h => by
        split
        · exact h.finish
        · split
          · exact h.hostGraph
          · exact h.hostAlign
          · exact h.stage)

theorem problemHeads (h : a.Follows b) {r : CmdRef} {c : Cmd} {hs : List Parcel} : a.Follows (b.problemHeads r c hs) :=
  (Follows.either h.withCmd h.finish)

theorem problemPart (h : a.Follows b) {r : CmdRef} {c : Cmd} {p : Parcel} : a.Follows (b.problemPart r c p) :=
  (Follows.either h.withCmd (Follows.either h.finish h.hostJob))

theorem trip (h : a.Follows b) {j : Job} {f : Fmt} {row col : BitVec 32} : a.Follows (b.trip j f row col) := by
  unfold Block.trip
  exact Follows.either h.onJob.other.jobEnd h.onJob.other

theorem putBlock (h : a.Follows b) {n tile : Nat} {k : Place} {f : Fmt} {vals : List Int} {ins : List InRef} : a.Follows (b.putBlock n tile k f
    vals ins) :=
  h.sealOnly.onJob

theorem nextOp (h : a.Follows b) {j : Job} {tile : Nat} : a.Follows (b.nextOp j tile) := by
  unfold Block.nextOp
  split
  · exact h.trip
  · exact (h.foldl fun _ _ h => h.putBlock).other.onJob

theorem inputOp (h : a.Follows b) {j : Job} {tile : Nat} {row col : BitVec 32} {vals : List (BitVec 32)} : a.Follows (b.inputOp j tile row col
    vals) := by
  unfold Block.inputOp
  split
  · dsimp only
    split
    · exact h.putBlock
    · exact h.trip
  · dsimp only
    split
    · exact h.putBlock
    · exact h.trip

theorem blockOp (h : a.Follows b) {j : Job} {tile : Nat} {op : BlockOp} : a.Follows (b.blockOp j tile op) := by
  unfold Block.blockOp
  split
  · exact Follows.either h.inputOp h
  · exact Follows.either h.onJob h
  · exact Follows.either h h.nextOp
  · exact Follows.either h.other h
  · exact Follows.either h h.onJob

theorem verifyOp (h : a.Follows b) {n tile : Nat} {ps : List Parcel} {reads : Reads} : a.Follows (b.verifyOp n tile ps reads).2 := by
  unfold Block.verifyOp
  split
  · next e => exact Follows.ofSnd e h.verifyAll
  · split
    · next e _ _ => exact Follows.ofSnd e h.verifyAll
    · next e _ _ _ => exact (Follows.ofSnd e h.verifyAll).onJob

theorem redoBlock (h : a.Follows b) {j : Job} {tile : Nat} {p : Parcel} : a.Follows (b.redoBlock j tile p) := h.sealOnly.onJob

theorem blockOpDone (h : a.Follows b) {n : Nat} {tile : Fin 16} {op : BlockOp} {residueOk : Bool} {reads : Reads} :
    a.Follows (b.blockOpDone n tile op residueOk reads) := by
  unfold Block.blockOpDone
  dsimp only
  split
  · exact h.other
  · refine Follows.either h.other (Follows.either h.other.blame ?_)
    split
    · exact h.other.redoBlock.other
    · split
      · next e => exact Follows.ofSnd e h.other.verifyOp
      · next e => exact (Follows.ofSnd e h.other.verifyOp).blockOp.other

theorem lmDecide (h : a.Follows b) {j : Job} {d : IterIn} : a.Follows (b.lmDecide j d) := by
  unfold Block.lmDecide
  split
  · exact Follows.either h.onJob.jobEnd h
  · split
    · dsimp only
      split
      · exact h.onJob.jobEnd
      · exact Follows.either h.onJob.jobEnd (Follows.either h.onJob.jobEnd h.onJob)
    · dsimp only
      split
      · exact h.onJob.jobEnd
      · exact Follows.either h.onJob.jobEnd (Follows.either h.onJob.jobEnd h.onJob)

theorem linearDecide (h : a.Follows b) {j : Job} {d : IterIn} : a.Follows (b.linearDecide j d) :=
  (Follows.either h (Follows.either h.onJob.jobEnd (Follows.either h.onJob.jobEnd (Follows.either h.onJob.jobEnd h.onJob))))

theorem iterationDecide (h : a.Follows b) {n : Nat} {d : IterIn} : a.Follows (b.iterationDecide n d) := by
  unfold Block.iterationDecide
  split
  · exact h
  · exact Follows.either h (Follows.either h.linearDecide h.lmDecide)

theorem badgerDeadline (h : a.Follows b) {n : Nat} : a.Follows (b.badgerDeadline n) := by
  unfold Block.badgerDeadline
  split
  · exact h
  · split
    · exact Follows.either h.jobEnd h
    · exact h

theorem vioReset (h : a.Follows b) : a.Follows b.vioReset := by
  unfold Block.vioReset
  exact Follows.either h.dropWindow.other.event h

theorem writeHead (h : a.Follows b) {o : MapObj} : a.Follows (b.writeHead o) := by
  unfold Block.writeHead
  split
  · exact h.putMap
  · exact h

theorem writeObs (h : a.Follows b) {o : MapObj} : a.Follows (b.writeObs o) := Follows.either h h.putMap

theorem writePoints (h : a.Follows b) {o : MapObj} : a.Follows (b.writePoints o) := by
  unfold Block.writePoints
  exact Follows.either h (Follows.either h.mapFull (Follows.either h h.putMap.other))

theorem writeEdges (h : a.Follows b) {o : MapObj} : a.Follows (b.writeEdges o) := by
  unfold Block.writeEdges
  exact Follows.either h (Follows.either h.mapFull (Follows.either h h.putMap.other))

theorem writePosting (h : a.Follows b) {o : MapObj} : a.Follows (b.writePosting o) := by
  unfold Block.writePosting
  split
  · exact h
  · split
    · exact h.postSample
    · exact h

theorem mapWrite (h : a.Follows b) {o : MapObj} : a.Follows (b.mapWrite o) := by
  unfold Block.mapWrite
  split
  · exact h
  · split
    · exact h.readObjects.writeHead
    · exact h.readObjects.writeObs
    · exact h.readObjects.writePoints
    · exact h.readObjects.writeEdges
    · exact h.readObjects.writePosting

theorem hotMove (h : a.Follows b) {m : HotMove} : a.Follows (b.hotMove m) := by
  unfold Block.hotMove
  split
  · dsimp only
    split
    · exact h.readObjects
    · exact Follows.either h.readObjects h.readObjects.makeHot
  · dsimp only
    split
    · exact h.readObjects
    · exact h.readObjects.makeCold

theorem hotColdMove (h : a.Follows b) {ms : List HotMove} : a.Follows (b.hotColdMove ms) := by
  unfold Block.hotColdMove
  exact Follows.either h (h.foldl fun _ _ h => h.hotMove).other

theorem sramScrub (h : a.Follows b) {addr : BitVec 40} {found : EccFind} : a.Follows (b.sramScrub addr found) := by
  unfold Block.sramScrub
  split
  · exact h
  · split
    · exact h
    · exact h.den
    · exact h.memFault

theorem dramScrub (h : a.Follows b) {addr : BitVec 40} {found : EccFind} {link : Bool} : a.Follows (b.dramScrub addr found link) := by
  unfold Block.dramScrub
  split
  · exact h
  · split
    · exact h.den
    · exact Follows.either h.den.den h.den.den
    · exact h.den.memFault

theorem zqCalibration (h : a.Follows b) : a.Follows b.zqCalibration := by
  unfold Block.zqCalibration
  exact Follows.either h.den.drive h

theorem windowOpen (h : a.Follows b) {r : CmdRef} : a.Follows (b.windowOpen r) := by
  unfold Block.windowOpen
  exact h.begin fun _ _ h => (Follows.either h.den.finish h.finish)

theorem windowClose (h : a.Follows b) {r : CmdRef} : a.Follows (b.windowClose r) := by
  unfold Block.windowClose
  exact h.begin fun _ _ h => (Follows.either h.den.finish h.finish)

theorem hostReadFault (h : a.Follows b) {addr : Nat} : a.Follows (b.hostReadFault addr) := by
  unfold Block.hostReadFault
  split
  · exact Follows.either h.reportMem h
  · exact h

theorem bar4Read (h : a.Follows b) {off len : Nat} : a.Follows (b.bar4Read off len) := by
  unfold Block.bar4Read
  split
  · exact h
  · dsimp only
    split
    · exact h.drive
    · split
      · exact h.hostReadFault.drive
      · exact h.drive

theorem bar4Write (h : a.Follows b) : a.Follows b.bar4Write := by
  unfold Block.bar4Write
  exact Follows.either h.den h

theorem assignGuest (h : a.Follows b) {s gid : Nat} {member : Option (BitVec 12)} : a.Follows (b.assignGuest s gid member) := h.onGuest

theorem guestOpen (h : a.Follows b) {r : CmdRef} : a.Follows (b.guestOpen r) := by
  unfold Block.guestOpen
  exact (h.begin fun _ _ h => by
        split
        · exact h.finish
        · exact h.assignGuest.finish)

theorem stageFrag (h : a.Follows b) {p : Parcel} : a.Follows (b.stageFrag p) := h.onGuest

theorem reportStale (h : a.Follows b) {p : Parcel} : a.Follows (b.reportStale p) := h.onGuest.event

theorem guestFragment (h : a.Follows b) {r : CmdRef} : a.Follows (b.guestFragment r) := h.begin fun _ _ h => (Follows.either h.finish h.stage)

theorem fragHeads (h : a.Follows b) {r : CmdRef} {c : Cmd} {hs : List Parcel} : a.Follows (b.fragHeads r c hs) := Follows.either h.withCmd h.finish

theorem fragPart (h : a.Follows b) {r : CmdRef} {c : Cmd} {p : Parcel} : a.Follows (b.fragPart r c p) := by
  unfold Block.fragPart
  split
  · exact (Follows.either h.reportStale h).finish
  · exact Follows.either h.stageFrag.finish h.stageFrag.withCmd

theorem guestClose (h : a.Follows b) {r : CmdRef} : a.Follows (b.guestClose r) := h.begin fun _ _ h => (Follows.either h.finish h.evict.finish)

theorem alignPairs (h : a.Follows b) {s : Nat} {samples : List (Nat × Sample)} : a.Follows (b.alignPairs s samples).1 := by
  unfold Block.alignPairs
  dsimp only
  split
  · exact h.engineScore
  · exact h

theorem guestAlignStart (h : a.Follows b) {slot : Fin 64} {samples : List (Nat × Sample)} : a.Follows (b.guestAlignStart slot samples) := by
  unfold Block.guestAlignStart
  dsimp only
  split
  · exact Follows.either h.alignPairs.onGuest.alignFailed h.alignPairs.onGuest.onGuest.drewN.assemble.jobsWithoutTiles
  · exact h

theorem mergeDropped (h : a.Follows b) {s n : Nat} : a.Follows (b.mergeDropped s n) := h.onGuest

theorem takePoint (h : a.Follows b) {s : Nat} {gp : BitVec 32} : a.Follows (b.takePoint s gp).2 := by
  unfold Block.takePoint
  dsimp only
  split
  · exact h
  · split
    · exact h.mergeDropped
    · split
      · exact h.mapFull.mergeDropped
      · exact h.onGuest

theorem addEdge (h : a.Follows b) {s : Nat} {rec_ : Bytes} {ins : List InRef} : a.Follows (b.addEdge s rec_ ins) := by
  unfold Block.addEdge
  split
  · exact h.putEdges
  · exact h.mapFull.mergeDropped

theorem mergeHead (h : a.Follows b) {s : Nat} {body : Bytes} {ins : List InRef} : a.Follows (b.mergeHead s body ins) := by
  unfold Block.mergeHead
  split
  · dsimp only
    split
    · split
      · exact h.putMap
      · exact h.mergeDropped
    · exact Follows.either h.mergeDropped h.mapFull.mergeDropped
  · dsimp only
    split
    · split
      · exact h.putMap
      · exact h.mergeDropped
    · split
      · exact h.mergeDropped
      · split
        · exact h.mapFull.mergeDropped
        · split
          · exact h.poolTake.newKf.onGuest.addEdge
          · exact h.poolTake.newKf.onGuest

theorem mergeRef (h : a.Follows b) {s : Nat} {gp : BitVec 32} : a.Follows (b.mergeRef s gp).2 := by
  unfold Block.mergeRef
  split
  · exact h
  · split
    · split
      · next e => exact Follows.ofSnd e h.takePoint
      · next e => exact Follows.ofSnd e h.takePoint
    · exact h

theorem mergeObs (h : a.Follows b) {s : Nat} {body : Bytes} {ins : List InRef} : a.Follows (b.mergeObs s body ins) := by
  unfold Block.mergeObs
  split
  · exact h.mergeDropped
  · exact (Follows.either h.mergeDropped ((h.foldlFst fun _ _ h => by
        split
        · next e => exact (Follows.ofSnd e h.mergeRef)).putMap.foldl fun _ _ h => by
        split
        · exact (Follows.either h.postSample h)))

theorem mergePoints (h : a.Follows b) {s : Nat} {body : Bytes} {ins : List InRef} : a.Follows (b.mergePoints s body ins) := by
  unfold Block.mergePoints
  refine Follows.putPoints (Follows.foldlFst h fun p x h => ?_)
  dsimp only
  split
  · exact h
  · split
    · next e => exact Follows.ofSnd e h.takePoint
    · next e => exact Follows.ofSnd e h.takePoint

theorem mergeEdges (h : a.Follows b) {s : Nat} {body : Bytes} {ins : List InRef} : a.Follows (b.mergeEdges s body ins) := by
  unfold Block.mergeEdges
  exact (h.foldl fun _ _ h => by
        split
        · exact h.addEdge
        · exact h.mergeDropped)

theorem mergeOne (h : a.Follows b) {s : Nat} {reads : Reads} : a.Follows (b.mergeOne s reads).2 := by
  unfold Block.mergeOne
  split
  · exact h
  · split
    · exact h.reportMem.dropStaging.drew
    · next e _ => exact Follows.ofSnd e h.verify
    · next e _ =>
      have k := Follows.ofSnd e h.verify
      refine Follows.other (Follows.onGuest ?_)
      split
      · exact k.readObjects.mergeHead
      · exact k.readObjects.mergeObs
      · exact k.readObjects.mergePoints
      · exact k.readObjects.mergeEdges

theorem mergeSome (h : a.Follows b) {reads : Reads} {n : Nat} : a.Follows (b.mergeSome reads n) := by
  induction n generalizing b with
  | zero => exact h
  | succ n ih =>
    unfold Block.mergeSome
    split
    · split
      · next e => exact ih (Follows.ofSnd e h.mergeOne)
      · next e => exact Follows.ofSnd e h.mergeOne
    · exact h

theorem purgeSlot (h : a.Follows b) {s : Nat} : a.Follows (b.purgeSlot s) := by
  unfold Block.purgeSlot
  dsimp only
  split
  · exact h
  · exact h.readObjects.putPoints.putEdges.other.onGuest

theorem guestMerge (h : a.Follows b) {reads : Reads} : a.Follows (b.guestMerge reads) :=
  (Follows.either (h.mergeSome.foldl fun _ _ h => h.purgeSlot) h)

theorem guestIdle (h : a.Follows b) {slot : Fin 64} : a.Follows (b.guestIdle slot) := Follows.either h.evict h

theorem guestEvicted (h : a.Follows b) {slot : Fin 64} : a.Follows (b.guestEvicted slot) := Follows.either h.event.guestRecord.onGuest h

theorem guestCooled (h : a.Follows b) {slot : Fin 64} : a.Follows (b.guestCooled slot) := Follows.either h.onGuest h

theorem startTraining (h : a.Follows b) {l : Nat} : a.Follows (b.startTraining l) := h.onLane

theorem trainAttempt (h : a.Follows b) {l : Fin 18} : a.Follows (b.trainAttempt l) := Follows.either h.startTraining h

theorem trainTimeout (h : a.Follows b) {l : Fin 18} : a.Follows (b.trainTimeout l) := Follows.either (Follows.either h.onLane.laneGone h.onLane) h

theorem laneRetry (h : a.Follows b) {l : Fin 18} : a.Follows (b.laneRetry l) := Follows.either h.startTraining h

theorem headerErrors (h : a.Follows b) {l : Fin 18} {count : Nat} : a.Follows (b.headerErrors l count) := Follows.either h.retrain h

theorem lockLoss (h : a.Follows b) {l : Fin 18} : a.Follows (b.lockLoss l) := Follows.either h.retrain h

theorem retrainReq (h : a.Follows b) {l : Fin 18} : a.Follows (b.retrainReq l) := Follows.either h.onLane.laneGone (Follows.either h.onLane h)

theorem laneUp (h : a.Follows b) {l : Fin 18} {rate : BitVec 3} {far : FarEnd} : a.Follows (b.laneUp l rate far) := by
  unfold Block.laneUp
  exact Follows.either (Follows.either h.onLane.onBundle.askWidth h.onLane.onBundle.askWidth.trail.rollStart) h

theorem widthReqIn (h : a.Follows b) {k : Fin 16} {w : BitVec 5} : a.Follows (b.widthReqIn k w) := Follows.either h h.onBundle.drive

theorem widthAckIn (h : a.Follows b) {k : Fin 16} {w : BitVec 5} : a.Follows (b.widthAckIn k w) := Follows.either h.onBundle h

theorem takeAck (h : a.Follows b) {k : Nat} {s : BitVec 12} : a.Follows (b.takeAck k s) := h.onBundle.sendWaiting

theorem takeNak (h : a.Follows b) {k : Nat} {s : BitVec 12} : a.Follows (b.takeNak k s) :=
  (Follows.either (h.onBundle.foldl fun _ _ h => h.drive).retrainBundle (h.onBundle.foldl fun _ _ h => h.drive))

theorem sendNak (h : a.Follows b) {k : Nat} : a.Follows (b.sendNak k) := Follows.either h h.onBundle.drive

theorem sendAck (h : a.Follows b) {k : Nat} : a.Follows (b.sendAck k) := h.onBundle.drive

theorem routeParcel (h : a.Follows b) {x : Sending} : a.Follows (b.routeParcel x) := by
  unfold Block.routeParcel
  exact Follows.either h.trail (Follows.either h.sendTo h)

theorem takeBeats (h : a.Follows b) {k : Nat} {f : Bytes} : a.Follows (b.takeBeats k f) := Follows.either h.onBundle.routeParcel h.onBundle

theorem flitReceive (h : a.Follows b) {k : Fin 16} {flit : BitVec 2048} : a.Follows (b.flitReceive k flit) :=
  (Follows.either h (Follows.either h.onBundle.sendNak (Follows.either (Follows.either (Follows.either (Follows.either h.takeAck h).takeNak
      (Follows.either h.takeAck h)).sendAck (Follows.either (Follows.either h.takeAck h).takeNak (Follows.either h.takeAck h)).sendNak)
      (Follows.either (Follows.either (Follows.either (Follows.either h.takeAck h).takeNak (Follows.either h.takeAck h)).onBundle.sendAck
      (Follows.either (Follows.either h.takeAck h).takeNak (Follows.either h.takeAck h)).onBundle).takeBeats (Follows.either (Follows.either
      (Follows.either h.takeAck h).takeNak (Follows.either h.takeAck h)).onBundle.sendAck (Follows.either (Follows.either h.takeAck h).takeNak
      (Follows.either h.takeAck h)).onBundle)))))

theorem nakReceive (h : a.Follows b) {k : Fin 16} {seq : BitVec 12} : a.Follows (b.nakReceive k seq) := Follows.either h.takeNak h

theorem ackTimer (h : a.Follows b) {k : Fin 16} : a.Follows (b.ackTimer k) := Follows.either h.sendAck h

theorem flitTimeout (h : a.Follows b) {k : Fin 16} : a.Follows (b.flitTimeout k) := by
  unfold Block.flitTimeout
  split
  · exact Follows.either h.retrainBundle h
  · exact h

theorem rollSend (h : a.Follows b) : a.Follows b.rollSend := by
  unfold Block.rollSend
  exact Follows.either (h.trail.foldl fun _ _ h => h.linkParcel) h

theorem rollReceive (h : a.Follows b) {k : Fin 16} {p : Parcel} : a.Follows (b.rollReceive k p) := by
  unfold Block.rollReceive
  split
  · next e => exact Follows.ofSnd e h.received.verify
  · next e => exact Follows.either (Follows.ofSnd e h.received.verify) (Follows.either (Follows.ofSnd e h.received.verify).onBundle (Follows.either
      (Follows.ofSnd e h.received.verify) (Follows.ofSnd e h.received.verify).rollStart).onBundle.trail)

theorem tellUplinks (h : a.Follows b) : a.Follows b.tellUplinks := h.foldl fun _ _ h => h.linkParcel

theorem rollDone (h : a.Follows b) {n : Nat} : a.Follows (b.rollDone n) := by
  unfold Block.rollDone
  exact h.trail.event.tellUplinks

theorem becomeMaster (h : a.Follows b) : a.Follows b.becomeMaster := by
  unfold Block.becomeMaster
  exact (h.trail.foldl fun _ _ h => by
        split
        · exact h.linkParcel
        · exact h.event).rollDone

theorem rollSettle (h : a.Follows b) : a.Follows b.rollSettle := by
  unfold Block.rollSettle
  exact Follows.either (Follows.either (Follows.either h.trail.event h.trail).becomeMaster (Follows.either h.trail.event h.trail)) h

theorem assignIn (h : a.Follows b) {p : Parcel} : a.Follows (b.assignIn p) := by
  unfold Block.assignIn
  split
  · next e => exact Follows.ofSnd e h.received.verify
  · next e => exact Follows.either (Follows.ofSnd e h.received.verify) (Follows.ofSnd e h.received.verify).trail.rollDone

theorem readReqIn (h : a.Follows b) {src : BitVec 12} {p : Parcel} : a.Follows (b.readReqIn src p) := by
  unfold Block.readReqIn
  split
  · next e => exact Follows.ofSnd e h.received.verify
  · split
    · next e _ => exact Follows.ofSnd e h.received.verify
    · dsimp only
      split
      · next e _ _ _ => exact (Follows.ofSnd e h.received.verify).sendTo
      · next e _ _ _ _ => exact (Follows.either (Follows.ofSnd e h.received.verify).memFault (Follows.ofSnd e h.received.verify)).control'

theorem readRespIn (h : a.Follows b) {tag : BitVec 32} {p : Parcel} : a.Follows (b.readRespIn tag p) := by
  unfold Block.readRespIn
  exact h.trail.received.verify

theorem sendRead (h : a.Follows b) {r : ReadWait} : a.Follows (b.sendRead r) := h.control'

theorem readTimeout (h : a.Follows b) {tag : BitVec 32} : a.Follows (b.readTimeout tag) := by
  unfold Block.readTimeout
  split
  · exact h
  · exact Follows.either h.trail h.trail.sendRead

theorem controlIn (h : a.Follows b) {type : BitVec 16} {p : Parcel} : a.Follows (b.controlIn type p).2 := by
  unfold Block.controlIn
  split
  · next e => exact Follows.ofSnd e h.received.verify
  · next e =>
    have k := Follows.ofSnd e h.received.verify
    simp only [apply_ite Prod.snd]
    exact k.either k

theorem joinIn (h : a.Follows b) {p : Parcel} : a.Follows (b.joinIn p) := by
  unfold Block.joinIn
  split
  · next e => exact Follows.ofSnd e h.controlIn
  · split
    · next e _ => exact Follows.ofSnd e h.controlIn
    · dsimp only
      split
      · next e _ _ _ => exact (Follows.ofSnd e h.controlIn).control'
      · next e _ _ _ _ => exact (Follows.ofSnd e h.controlIn).assignGuest.control'

theorem joinReplyIn (h : a.Follows b) {p : Parcel} : a.Follows (b.joinReplyIn p) := by
  unfold Block.joinReplyIn
  split
  · next e => exact Follows.ofSnd e h.controlIn
  · next e => exact Follows.either (Follows.ofSnd e h.controlIn) (Follows.either (Follows.ofSnd e h.controlIn).trail.readObjects.queueMap.pumpFrags
      (Follows.ofSnd e h.controlIn).trail)

theorem joinRetry (h : a.Follows b) : a.Follows b.joinRetry := Follows.either h.sendJoin h

theorem fragAckIn (h : a.Follows b) {p : Parcel} : a.Follows (b.fragAckIn p) := by
  unfold Block.fragAckIn
  split
  · next e => exact Follows.ofSnd e h.controlIn
  · next e => exact Follows.either (Follows.ofSnd e h.controlIn) (Follows.either (Follows.ofSnd e h.controlIn).sendJoin (Follows.either
      (Follows.ofSnd e h.controlIn).trail.resendFrags (Follows.ofSnd e h.controlIn).trail).pumpFrags)

theorem fragAckLate (h : a.Follows b) : a.Follows b.fragAckLate := by
  unfold Block.fragAckLate
  exact Follows.either h.trail.resendFrags h

theorem fragIn (h : a.Follows b) {p : Parcel} : a.Follows (b.fragIn p) := by
  unfold Block.fragIn
  split
  · next e => exact Follows.ofSnd e h.controlIn
  · split
    · next e _ => exact Follows.ofSnd e h.controlIn
    · split
      · next e _ _ _ => exact (Follows.ofSnd e h.controlIn).stageFrag
      · next e _ _ _ _ => exact Follows.either (Follows.ofSnd e h.controlIn).onGuest.reportStale (Follows.ofSnd e h.controlIn).onGuest

theorem leaveIn (h : a.Follows b) {p : Parcel} : a.Follows (b.leaveIn p) := by
  unfold Block.leaveIn
  split
  · next e => exact Follows.ofSnd e h.controlIn
  · next e => exact Follows.either (Follows.ofSnd e h.controlIn).evict (Follows.ofSnd e h.controlIn)

theorem chipLost (h : a.Follows b) {serial : BitVec 64} : a.Follows (b.chipLost serial) := by
  unfold Block.chipLost
  split
  · exact h
  · exact Follows.either h.trail.event h

theorem sealReportIn (h : a.Follows b) {p : Parcel} : a.Follows (b.sealReportIn p) := by
  unfold Block.sealReportIn
  split
  · next e => exact Follows.ofSnd e h.controlIn
  · next e => exact Follows.either (Follows.ofSnd e h.controlIn) (Follows.either (Follows.ofSnd e h.controlIn).flt.event.blame (Follows.ofSnd e
      h.controlIn).flt.event)

theorem onBridge (h : a.Follows b) {n : Nat} {f : Bridge → Bridge} : a.Follows (b.onBridge n f) := by
  unfold Block.onBridge
  exact h.flt

theorem bridgeBeat (h : a.Follows b) {sender receiver : Island} {x : Handshake} : a.Follows (b.bridgeBeat sender receiver x) := by
  unfold Block.bridgeBeat
  dsimp only
  split
  · exact h
  · split
    · exact h.flt.onBridge
    · exact Follows.either h h.onBridge
    · exact h.onBridge
    · exact h.onBridge
    · exact h

theorem bridgeWatchdog (h : a.Follows b) {sender receiver : Island} {unit : Option (BitVec 8)} : a.Follows (b.bridgeWatchdog sender receiver unit) :=
  (Follows.either (Follows.either h.bridgeFault.onBridge h.bridgeFault.onBridge) h)

theorem detect (h : a.Follows b) {c : Instr} {waiting : List Instr} : a.Follows (b.detect c waiting) := by
  unfold Block.detect
  split
  · exact h
  · exact h.foldl fun _ _ h => h.blame

theorem restartDone (h : a.Follows b) {island : Island} : a.Follows (b.restartDone island) := by
  unfold Block.restartDone
  exact Follows.either h h.flt.rearm

theorem ifcTake (h : a.Follows b) {slot : Nat} {p : Parcel} : a.Follows (b.ifcTake slot p) := by
  unfold Block.ifcTake
  exact (h.foldl fun _ _ h => (h.foldl fun _ _ h => by
        split
        · exact h.ifcSample))

theorem ifcInput (h : a.Follows b) {slot : Fin 6} {seen : Seen} : a.Follows (b.ifcInput slot seen) := by
  unfold Block.ifcInput
  split
  · exact h
  · split
    · exact h
    · dsimp only
      split
      · exact h.verify.ifc.ifcTake.ifcRelease
      · exact h.verify.release

theorem trigPulseEnd (h : a.Follows b) {pin : Fin 8} : a.Follows (b.trigPulseEnd pin) := by
  unfold Block.trigPulseEnd
  split
  · exact Follows.either h.trigDrive.ifc h
  · exact h

theorem ifcOutTimer (h : a.Follows b) {group : Fin 4} : a.Follows (b.ifcOutTimer group) := Follows.either h.closeOut h

theorem syncWake (h : a.Follows b) : a.Follows b.syncWake := Follows.either h.wakeUp h

theorem syncFrom (h : a.Follows b) {bit : Nat} {stamp : Tick} : a.Follows (b.syncFrom bit stamp).1 := by
  unfold Block.syncFrom
  dsimp only
  split
  · split
    · exact h.other.syncAnchor.syncWake
    · exact h.syncEmit.other.syncAnchor.syncWake
  · exact h.other.syncAnchor.syncWake

theorem syncEdge (h : a.Follows b) {width : Nat} : a.Follows (b.syncEdge width) := by
  unfold Block.syncEdge
  exact Follows.either h (Follows.either h.other h.other.syncFrom)

theorem syncCmd (h : a.Follows b) {r : CmdRef} : a.Follows (b.syncCmd r) := h.begin fun _ _ h => h.syncFrom.finish

theorem coefRefused (h : a.Follows b) {ch : Fin 24} {set : BitVec 8} : a.Follows (b.coefRefused ch set) := by
  unfold Block.coefRefused
  exact Follows.either h.ifc.chanCount.diag h

theorem onBand (h : a.Follows b) {cam : Nat} {fs : Tick} {index : Nat} {g : Band → Band} : a.Follows (b.onBand cam fs index g) := h.onFoxFrame

theorem bandStart (h : a.Follows b) {lane : Fin 8} : a.Follows (b.bandStart lane) := by
  unfold Block.bandStart
  dsimp only
  split
  · exact h
  · split
    · exact h
    · exact h.onBand

theorem verifyLines (h : a.Follows b) {lane cam : Nat} {f : FoxFrame} {x : Band} {reads : Reads} : a.Follows (b.verifyLines lane cam f x reads) :=
  (h.foldl fun _ _ h => (h.foldl fun _ _ h => (Follows.either h.verify h.verify.onFoxFrame)))

theorem bandSealed (h : a.Follows b) {lane cam : Nat} {f : FoxFrame} {x : Band} {w : BandOut} : a.Follows (b.bandSealed lane cam f x w) := by
  unfold Block.bandSealed
  dsimp only
  refine Follows.onBand ?_
  exact Follows.foldlFst (Follows.foldlFst h fun _ _ h => h.flow) fun _ _ h => h.flow

theorem bandSeal (h : a.Follows b) {lane : Fin 8} {reads : Reads} : a.Follows (b.bandSeal lane reads) := by
  unfold Block.bandSeal
  split
  · exact h
  · split
    · exact h
    · split
      · exact h
      · dsimp only
        split
        · exact h.verifyLines
        · exact Follows.either h.verifyLines (Follows.either h.verifyLines.verifyRefs.onBand (Follows.either h.verifyLines.verifyRefs
            h.verifyLines.verifyRefs.bandSealed))

theorem foxCutoffDue (h : a.Follows b) : a.Follows b.foxCutoffDue := Follows.either h (h.foldl fun _ _ h => (h.foldl fun _ _ h => h.foxDrop))

theorem verifyOutputs (h : a.Follows b) {sec : Bool} {reads : Reads} : a.Follows (b.verifyOutputs sec reads) := by
  unfold Block.verifyOutputs
  exact (h.foldl fun _ _ h => by
        split
        · next e => exact Follows.ofSnd e h.verify
        · next e => exact (Follows.ofSnd e h.verify).other)

theorem verifySol (h : a.Follows b) {o : Option SolRec} {reads : Reads} : a.Follows (b.verifySol o reads).2 := by
  unfold Block.verifySol
  split
  · exact h
  · split
    · next e => exact Follows.ofSnd e h.verify
    · next e => exact Follows.ofSnd e h.verify

theorem verifySols (h : a.Follows b) {reads : Reads} : a.Follows (b.verifySols reads) := by
  unfold Block.verifySols
  exact h.verifySol.verifySol.other

theorem endpointLost (h : a.Follows b) {e : Option (Nat × Int)} {t : Int} : a.Follows (b.endpointLost e t) := by
  unfold Block.endpointLost
  split
  · exact h.limitEvent
  · exact h.limitEvent.drew

theorem sealPreint (h : a.Follows b) {payload : Bytes} {ins : List InRef} : a.Follows (b.sealPreint payload ins) := by
  unfold Block.sealPreint
  exact h.flow.release.other

theorem preintFrom (h : a.Follows b) : a.Follows b.preintFrom := by
  unfold Block.preintFrom
  exact (Follows.either (Follows.either h.endpointLost (Follows.either h.endpointLost h)).other (Follows.either h.endpointLost (Follows.either
      h.endpointLost h))).sealPreint

theorem preintHeld (h : a.Follows b) : a.Follows b.preintHeld := by
  unfold Block.preintHeld
  split
  · exact h.other.sealPreint
  · exact h.other.sealPreint.drewN

theorem preintBuild (h : a.Follows b) {reads : Reads} : a.Follows (b.preintBuild reads) :=
  (Follows.either h (Follows.either h.fixTc.verifySols.preintHeld h.fixTc.verifyOutputs.preintFrom).drew)

theorem takePrior (h : a.Follows b) {p : Parcel} : a.Follows (b.takePrior p).1 := by
  unfold Block.takePrior
  dsimp only
  split
  · exact h.other.event
  · split
    · exact h.rejectPrior
    · exact h.other

theorem prior (h : a.Follows b) {r : CmdRef} : a.Follows (b.prior r) := h.begin fun _ _ h => h.stage

theorem priorHeads (h : a.Follows b) {r : CmdRef} {c : Cmd} {hs : List Parcel} : a.Follows (b.priorHeads r c hs) := by
  unfold Block.priorHeads
  split
  · exact Follows.either h.withCmd h.finish
  · exact h.finish

theorem priorPart (h : a.Follows b) {r : CmdRef} {_c : Cmd} {p : Parcel} : a.Follows (b.priorPart r _c p) := h.takePrior.finish

theorem sealPose (h : a.Follows b) {payload : Bytes} {ins : List InRef} : a.Follows (b.sealPose payload ins) := by
  unfold Block.sealPose
  exact h.emit.other

theorem poseNone (h : a.Follows b) : a.Follows b.poseNone := by
  unfold Block.poseNone
  exact h.sealPose.other

theorem poseSolved (h : a.Follows b) {s : SolRec} : a.Follows (b.poseSolved s) := by
  unfold Block.poseSolved
  exact h.sealPose.other

theorem poseCarried (h : a.Follows b) {s : SolRec} : a.Follows (b.poseCarried s) := by
  unfold Block.poseCarried
  exact h.sealPose.other

theorem assemblePose (h : a.Follows b) {reads : Reads} : a.Follows (b.assemblePose reads) := by
  unfold Block.assemblePose
  dsimp only
  split
  · exact h.fixTc.verifySols.poseNone
  · exact Follows.either h.fixTc.verifySols.poseNone (Follows.either h.fixTc.verifySols.poseSolved (Follows.either
      h.fixTc.verifySols.verifyAll.poseCarried h.fixTc.verifySols.verifyAll.poseNone))

theorem poseAssembly (h : a.Follows b) {reads : Reads} : a.Follows (b.poseAssembly reads) := Follows.either h.assemblePose h

theorem predFrom (h : a.Follows b) {s : SolRec} {t : Tick} : a.Follows (b.predFrom s t) := by
  unfold Block.predFrom
  exact h.emit.drew.other

theorem predNone (h : a.Follows b) {t : Tick} : a.Follows (b.predNone t) := h.emit

theorem predEmit (h : a.Follows b) {reads : Reads} : a.Follows (b.predEmit reads) := by
  unfold Block.predEmit
  dsimp only
  split
  · split
    · exact h.other.verifySols.verifyOutputs.predFrom
    · exact h.other.verifySols.verifyOutputs.predNone
  · exact h

theorem onQueue (h : a.Follows b) {q : Nat} {f : Queue → Queue} : a.Follows (b.onQueue q f) := by
  unfold Block.onQueue
  exact h.host

theorem onStream (h : a.Follows b) {st : Nat} {f : Stream → Stream} : a.Follows (b.onStream st f) := by
  unfold Block.onStream
  exact h.host

theorem bellError (h : a.Follows b) {q : Nat} : a.Follows (b.bellError q) := Follows.either h.onQueue h.onQueue.cause

theorem sqTail (h : a.Follows b) {q : Fin 16} {value : BitVec 32} : a.Follows (b.sqTail q value) :=
  (Follows.either h (Follows.either h.bellError (Follows.either h h.onQueue)))

theorem cqHead (h : a.Follows b) {q : Fin 16} {value : BitVec 32} : a.Follows (b.cqHead q value) :=
  (Follows.either h (Follows.either h.bellError h.onQueue))

theorem streamHead (h : a.Follows b) {st : Fin 8} {value : BitVec 32} : a.Follows (b.streamHead st value) :=
  (Follows.either h (Follows.either (Follows.either h.onStream h.onStream.cause) h.onStream))

theorem badBell (h : a.Follows b) {off size : Nat} : a.Follows (b.badBell off size) := by
  unfold Block.badBell
  exact Follows.either h h.host

theorem commandFetch (h : a.Follows b) {q : Fin 16} {entry : BitVec 512} : a.Follows (b.commandFetch q entry) := Follows.either h.onQueue h

theorem completionWrite (h : a.Follows b) {q : Fin 16} : a.Follows (b.completionWrite q) := by
  unfold Block.completionWrite
  split
  · exact Follows.either h.writeCompletion h
  · exact Follows.either h h

theorem heldCompletions (h : a.Follows b) {q : Fin 16} {n : Nat} : a.Follows (b.heldCompletions q n) := by
  induction n generalizing b with
  | zero => exact h
  | succ n ih =>
    unfold Block.heldCompletions
    split
    · exact ih h.writeCompletion
    · exact h

theorem nop (h : a.Follows b) {r : CmdRef} : a.Follows (b.nop r) := h.begin fun _ _ h => h.finish

theorem journalReadout (h : a.Follows b) : a.Follows b.journalReadout := by
  unfold Block.journalReadout
  dsimp only
  split
  · split
    · exact (h.eventFrom.foldl fun _ _ h => h.event).thermos.eventFrom.boot
    · exact (h.event.foldl fun _ _ h => h.event).thermos.eventFrom.boot
  · split
    · exact (h.eventFrom.foldl fun _ _ h => h.event).thermos
    · exact (h.event.foldl fun _ _ h => h.event).thermos

theorem streamTwoOpened (h : a.Follows b) : a.Follows b.streamTwoOpened := by
  unfold Block.streamTwoOpened
  exact Follows.either (Follows.either h h.journalReadout.boot).den.event (Follows.either h h.journalReadout.boot)

theorem streamOpen (h : a.Follows b) {r : CmdRef} {ue : BitVec 2} : a.Follows (b.streamOpen r ue) := by
  unfold Block.streamOpen
  exact h.begin fun _ _ h => (Follows.either h.finish (Follows.either h.finish (h.forCmd fun _ h => (Follows.either
      h.onStream.thermos.streamTwoOpened h.onStream)).finish))

theorem streamClose (h : a.Follows b) {r : CmdRef} : a.Follows (b.streamClose r) := h.begin fun _ _ h => (Follows.either h.finish h.onStream.finish)

theorem abort (h : a.Follows b) {r : CmdRef} : a.Follows (b.abort r) := by
  unfold Block.abort
  split
  · exact h
  · split
    · exact h
    · split
      · exact h.onQueue
      · dsimp only
        split
        · exact h.onQueue
        · exact Follows.either h.onQueue h.abortCmd.owlEnter.onQueue

theorem putSlot (h : a.Follows b) {st : Nat} {p : Parcel} : a.Follows (b.putSlot st p) := h.drive.drive.onStream.streamSignal

theorem putGap (h : a.Follows b) {st : Nat} : a.Follows (b.putGap st) := by
  unfold Block.putGap
  split
  · exact h
  · exact h.onStream.putSlot

theorem putParcel (h : a.Follows b) {st : Nat} {p : Parcel} : a.Follows (b.putParcel st p) := Follows.either h.onStream h.putGap.putSlot

theorem parcelWrite (h : a.Follows b) {st : Fin 8} {seen : Seen} : a.Follows (b.parcelWrite st seen) := by
  unfold Block.parcelWrite
  dsimp only
  split
  · exact h
  · split
    · exact h
    · split
      · next e => exact (Follows.ofSnd e h.onStream.verify).putParcel
      · next e => exact (Follows.ofSnd e h.onStream.verify).onStream

theorem streamResume (h : a.Follows b) {st : Fin 8} : a.Follows (b.streamResume st) :=
  (Follows.either (Follows.either h.onStream.putGap h.onStream) h)

theorem streamReset (h : a.Follows b) {st : Fin 8} : a.Follows (b.streamReset st) := Follows.either h.onStream h

theorem qEnable (h : a.Follows b) {q : Fin 16} : a.Follows (b.qEnable q) :=
  (Follows.either h (Follows.either h.onQueue (Follows.either h.onQueue h.onQueue.cause)))

theorem qDisable (h : a.Follows b) {q : Fin 16} : a.Follows (b.qDisable q) := Follows.either h.queueOff.owlEnter h

theorem qResume (h : a.Follows b) {q : Fin 16} : a.Follows (b.qResume q) := Follows.either h.onQueue.heldCompletions h

theorem coalesceTimer (h : a.Follows b) {v : Fin 32} : a.Follows (b.coalesceTimer v) :=
  (Follows.either (Follows.either h.onQueue.signal h) (Follows.either h (h.foldl fun _ _ h => h.onStream).signal))

theorem sidebandRead (h : a.Follows b) {command : Byte} {addr : BitVec 16} {count : Nat} : a.Follows (b.sidebandRead command addr count) :=
  (Follows.either h (Follows.either h.drive.drew h.drive))

theorem settingsRead (h : a.Follows b) {r : CmdRef} : a.Follows (b.settingsRead r) :=
  (Follows.either h (h.begin fun _ _ h => (h.foldl fun _ _ h => h.drive).finish))

theorem shadowWrite (h : a.Follows b) {r : CmdRef} : a.Follows (b.shadowWrite r) := by
  unfold Block.shadowWrite
  exact (h.begin fun _ _ h => by
        split
        · exact h.finish
        · exact h.finish
        · exact h.finish
        · exact h.settingsBusy.stage)

theorem pageHeads (h : a.Follows b) {r : CmdRef} {c : Cmd} {hs : List Parcel} : a.Follows (b.pageHeads r c hs) :=
  (Follows.either h.withCmd h.settingsEnd)

theorem pagePart (h : a.Follows b) {r : CmdRef} {c : Cmd} {p : Parcel} : a.Follows (b.pagePart r c p) := by
  have k (pos : Nat) (bad : List Nat) :
      a.Follows { b with cfg := { b.cfg with shadow := b.cfg.shadow.set pos (memOf p.payload), shadowState := .dirty, badPages := bad } } := by
    refine h.change rfl fun ⟨⟨journal, store, mem, active, shadow⟩, sizes⟩ => ⟨⟨journal, store, mem, active, fun q hq => ?_⟩, ?_⟩
    · rcases List.mem_or_eq_of_mem_set hq with old | rfl
      · exact shadow q old
      · exact wf_memOf _
    · simpa [Block.core, Block.sizes] using sizes
  unfold Block.pagePart
  exact (k _ _).settingsEnd.either (k _ _).withCmd

theorem check (h : a.Follows b) {r : CmdRef} : a.Follows (b.check r) := by
  unfold Block.check
  exact (h.begin fun _ _ h => by
        split
        · exact h.finish
        · exact h.finish
        · exact h.settingsBusy.stage.cfg)

theorem checkComplete (h : a.Follows b) : a.Follows b.checkComplete := by
  unfold Block.checkComplete
  split
  · split
    · split
      · exact h.cfg.finish
      · exact h.cfg
    · split
      · exact h.drew.cfg.finish
      · exact h.drew.cfg
  · exact h

theorem apply (h : a.Follows b) {r : CmdRef} : a.Follows (b.apply r) := by
  unfold Block.apply
  exact (h.begin fun _ _ h => by
        split
        · exact h.stage.cfg
        · exact h.finish
        · exact h.finish)

theorem syncShadow (h : a.Follows b) {r : CmdRef} : a.Follows (b.syncShadow r) := by
  refine h.begin fun c b h => ?_
  split
  · exact h.finish
  · exact h.finish
  · refine Follows.finish ?_
    refine Follows.change h rfl ?_
    rintro ⟨⟨journal, store, mem, active, shadow⟩, sizes⟩
    exact ⟨⟨journal, store, mem, active, active⟩, by simp_all [Block.core, Block.sizes, specSizes]⟩

theorem swapSets (h : a.Follows b) {epoch : Nat} : a.Follows (b.swapSets epoch) := by
  unfold Block.swapSets
  split
  · exact h
  · have k (x : Cfg) (swapped : x.active = b.cfg.shadow ∧ x.shadow = b.cfg.active) : a.Follows { b with cfg := x } := by
      refine h.change rfl fun ⟨⟨journal, store, mem, active, shadow⟩, sizes⟩ => ⟨⟨journal, store, mem, ?_⟩, ?_⟩
      · simp only [Block.core, swapped]
        exact ⟨shadow, active⟩
      · simp_all [Block.core, Block.sizes, specSizes]
    dsimp only
    split
    · exact Follows.finish (Follows.forCmd (k _ ⟨rfl, rfl⟩) fun _ h => h.event)
    · exact (k _ ⟨rfl, rfl⟩).event

theorem dataFails (h : a.Follows b) {r : CmdRef} {c : Cmd} {status : Nat} : a.Follows (b.dataFails r c status) :=
  (Follows.either h.settingsEnd (Follows.either h.loadFails h.finish))

theorem dataHeads (h : a.Follows b) {r : CmdRef} {c : Cmd} {hs : List Parcel} : a.Follows (b.dataHeads r c hs) :=
  (Follows.either h.pageHeads (Follows.either h.modelHeads (Follows.either h.featureHeads (Follows.either h.problemHeads (Follows.either
      h.priorHeads h.fragHeads)))))

theorem dataPart (h : a.Follows b) {r : CmdRef} {c : Cmd} {p : Parcel} : a.Follows (b.dataPart r c p) :=
  (Follows.either h.pagePart (Follows.either h.modelPart (Follows.either h.featurePart (Follows.either h.problemPart (Follows.either h.priorPart
      h.fragPart)))))

theorem dmaRead (h : a.Follows b) {r : CmdRef} {d : DmaData} : a.Follows (b.dmaRead r d) := by
  unfold Block.dmaRead
  split
  · exact h
  · split
    · exact h.dataFails
    · exact Follows.either h h.dataHeads
    · split
      · exact h
      · split
        · exact h.dataPart
        · exact h.integrityFault.dataFails

theorem skinCheck (h : a.Follows b) : a.Follows b.skinCheck := by
  unfold Block.skinCheck
  exact Follows.either h.pwr.event h

theorem skinBack (h : a.Follows b) {source : Nat} {value : BitVec 16} : a.Follows (b.skinBack source value) := by
  unfold Block.skinBack
  exact Follows.either h.pwr.event h

theorem govLatch (h : a.Follows b) : a.Follows b.govLatch := by
  unfold Block.govLatch
  exact h.pwr.pwr

theorem thermalStep (h : a.Follows b) : a.Follows b.thermalStep := by
  unfold Block.thermalStep
  exact Follows.either h.pwr.event h.pwr

theorem journalOnce (h : a.Follows b) : a.Follows b.journalOnce := by
  unfold Block.journalOnce
  exact Follows.either (Follows.other h.journal) h

theorem planCommit (h : a.Follows b) {x : PlanIn} : a.Follows (b.planCommit x) := by
  unfold Block.planCommit
  split
  · exact Follows.either h.journalOnce.govLatch.skinCheck.thermalStep.other h
  · exact h

theorem burstEnd (h : a.Follows b) {cause : Nat} {t since : Tick} : a.Follows (b.burstEnd cause t since) := by
  unfold Block.burstEnd
  exact h.pwr.event

theorem burstStep (h : a.Follows b) {t len : Tick} {p : Plan} : a.Follows (b.burstStep t len p) := by
  unfold Block.burstStep
  split
  · exact Follows.either h.burstEnd (Follows.either h.burstEnd (Follows.either h.burstEnd h))
  · exact Follows.either h.pwr.event h

theorem clock (h : a.Follows b) {i : Nat} {on : Bool} : a.Follows (b.clock i on) := by
  unfold Block.clock
  exact h.flt

theorem movePoint (h : a.Follows b) {t : Tick} {q : PPoints} {i : Dvfs} : a.Follows (b.movePoint t q i) := by
  unfold Block.movePoint
  refine h.either (Follows.either h.pwr.event ?_)
  refine Follows.either (Follows.clock (h.pwr ?_)) (h.pwr ?_) <;> simp [apply_ite List.length]

theorem movePoints (h : a.Follows b) {t : Tick} {q : PPoints} : a.Follows (b.movePoints t q) := h.foldl fun _ _ h => h.movePoint

theorem untrip (h : a.Follows b) : a.Follows b.untrip := by
  unfold Block.untrip
  exact Follows.either h.clock.clock.clock.rearm.rearm.rearm.pwr h

theorem voltageRaise (h : a.Follows b) {i : Dvfs} : a.Follows (b.voltageRaise i) := by
  unfold Block.voltageRaise
  split
  · exact Follows.either h.pwr h
  · exact h

theorem voltageLower (h : a.Follows b) {i : Dvfs} : a.Follows (b.voltageLower i) := by
  unfold Block.voltageLower
  exact Follows.either h.pwr h

theorem portsSlots (h : a.Follows b) {x : List Port} {y : List Slot} (same : x.length = b.ports.length ∧ y.length = b.slots.length := by simp) :
    a.Follows { b with ports := x, slots := y } :=
  h.update (by simp [Block.core, Block.sizes, same])

theorem portRecords (h : a.Follows b) {k : Nat} : a.Follows (b.portRecords k) := by
  unfold Block.portRecords
  exact Follows.portsSlots (Follows.either (Follows.diag (h.diag.either h)) (h.diag.either h))

theorem ifcRecords (h : a.Follows b) {g : Nat} : a.Follows (b.ifcRecords g) := Follows.either h.diag.onGroup h

theorem counterRecords (h : a.Follows b) : a.Follows b.counterRecords := (h.foldl fun _ _ h => h.portRecords).foldl fun _ _ h => h.ifcRecords

theorem endEpoch (h : a.Follows b) : a.Follows b.endEpoch := by
  unfold Block.endEpoch
  exact (h.either h.assemblePose).counterRecords.other

theorem islandsDown (h : a.Follows b) {is : List Nat} : a.Follows (b.islandsDown is) := by
  unfold Block.islandsDown
  exact h.foldl fun _ _ h => h.clock.pwr

theorem islandsUp (h : a.Follows b) {is : List Nat} : a.Follows (b.islandsUp is) := by
  unfold Block.islandsUp
  exact h.foldl fun _ _ h => (Follows.either h.pwr h.pwr.clock.pwr)

theorem closeFrames (h : a.Follows b) {ks : List Nat} : a.Follows (b.closeFrames ks) := by
  unfold Block.closeFrames
  exact h.foldl fun _ _ h => h.closeFrame.ports

theorem shutEnd (h : a.Follows b) : a.Follows b.shutEnd := by
  unfold Block.shutEnd
  exact h.journal.pwr

theorem pausedWith (h : a.Follows b) {x : Pwr} {y : Cfg} {pins : Pins} {badger : Badger} {ep : Ep}
    (same : (x.packSince.length = b.pwr.packSince.length ∧ x.pwrAck.length = b.pwr.pwrAck.length ∧ x.iso.length = b.pwr.iso.length)
      ∧ y.active = b.cfg.active ∧ y.shadow = b.cfg.shadow := by simp) :
    a.Follows { b.clock 8 false with pwr := x, pins := pins, badger := badger, cfg := y, ep := ep } :=
  (h.clock (i := 8) (on := false)).update (by simp [Block.clock, Block.core, Block.sizes, same])

theorem enterPause (h : a.Follows b) {t : Tick} : a.Follows (b.enterPause t) := by
  unfold Block.enterPause
  split
  · refine Follows.either (Follows.shutEnd ?_) ?_ <;>
      exact Follows.journal (Follows.event (Follows.islandsDown (Follows.pausedWith h.burstEnd.closeFrames)))
  · refine Follows.either (Follows.shutEnd ?_) ?_ <;>
      exact Follows.journal (Follows.event (Follows.islandsDown (Follows.pausedWith h.closeFrames)))

theorem reconfigure (h : a.Follows b) {new : List Memory} {t : Tick} {c : Nat} : a.Follows (b.reconfigure new t c) :=
  (Follows.either (h.foldl fun _ _ h => (Follows.either h h.evEnd.onChan)) h)

theorem rescaleLater (h : a.Follows b) {new : List Memory} {t : Tick} {c : Nat} : a.Follows (b.rescaleLater new t c) := Follows.either h.onChan h

theorem stopUnits (h : a.Follows b) {new : List Memory} {t : Tick} : a.Follows (b.stopUnits new t) :=
  (((h.closeFrames.foldl fun _ _ h => h.closeGroup).foldl fun _ _ h => (Follows.either h.reconfigure.rescaleLater h.chanStop)).foldl fun _ _ h =>
      h.closeOut)

theorem restPins (h : a.Follows b) {old : List Memory} : a.Follows (b.restPins old) := by
  unfold Block.restPins
  exact (h.foldl fun _ _ h => by
        split
        · exact Follows.either h h.trigDrive
        · exact (Follows.either h.trigDrive h))

theorem startSlots (h : a.Follows b) {old : List Memory} {t : Tick} : a.Follows (b.startSlots old t) := by
  unfold Block.startSlots
  exact (h.foldl fun _ _ h => h.slots).foldl fun _ _ h => (Follows.either h.i3cAssign h)

theorem foxSwap (h : a.Follows b) {old : List Memory} : a.Follows (b.foxSwap old) := h.foldl fun _ _ h => h.onCam

theorem owlSwap (h : a.Follows b) {old : List Memory} : a.Follows (b.owlSwap old) := by
  unfold Block.owlSwap
  exact (h.foldl fun _ _ h => by
        split
        · split
          · exact Follows.either h h.dropWork.finish
          · exact h
        · exact h)

theorem leaveJob (h : a.Follows b) {new : List Memory} : a.Follows (b.leaveJob new) := by
  unfold Block.leaveJob
  split
  · exact Follows.either h.control'.trail h
  · exact h

theorem trailSwap (h : a.Follows b) {old : List Memory} : a.Follows (b.trailSwap old) := Follows.either h (Follows.either h.lanesDown h.rollStart)

theorem evictAll (h : a.Follows b) : a.Follows b.evictAll := h.foldl fun _ _ h => (Follows.either h.evict h)

theorem swapAt (h : a.Follows b) {n : Nat} {t : Tick} : a.Follows (b.swapAt n t) := by
  unfold Block.swapAt
  exact (Follows.either (h.stopUnits.leaveJob.swapSets.restPins.startSlots.foldl fun _ _ h => (Follows.either h.chanStart
      h)).foxSwap.owlSwap.evictAll (h.stopUnits.leaveJob.swapSets.restPins.startSlots.foldl fun _ _ h => (Follows.either h.chanStart
      h)).foxSwap.owlSwap).trailSwap.ports

theorem applyFeatures (h : a.Follows b) {made : Tick} : a.Follows (b.applyFeatures made) := by
  unfold Block.applyFeatures
  exact Follows.either (Follows.either (Follows.either (Follows.either (Follows.either h.other h.other.event).other (Follows.either h.other
      h.other.event)).evictAll (Follows.either (Follows.either h.other h.other.event).other (Follows.either h.other h.other.event))).lanesDown
      (Follows.either (Follows.either (Follows.either h.other h.other.event).other (Follows.either h.other h.other.event)).evictAll (Follows.either
      (Follows.either h.other h.other.event).other (Follows.either h.other h.other.event)))) h

theorem stepRate (h : a.Follows b) {n : Nat} {t made : Tick} {cap : Nat} : a.Follows (b.stepRate n t made cap) := by
  unfold Block.stepRate
  exact Follows.either h.other.event h.other

theorem rebase (h : a.Follows b) {n : Nat} {t : Tick} : a.Follows (b.rebase n t) := by
  unfold Block.rebase
  exact h.other

theorem chooseInertial (h : a.Follows b) : a.Follows b.chooseInertial := by
  unfold Block.chooseInertial
  exact h.other

theorem readDram (h : a.Follows b) {ds : List DramTemp} : a.Follows (b.readDram ds) := by
  unfold Block.readDram
  exact Follows.either (h.foldl fun _ _ h => (Follows.either h.den.event h.den)) (h.foldl fun _ _ h => (Follows.either h.den.event h.den)).den

theorem freshEpoch (h : a.Follows b) {n : Nat} {t len : Tick} {p : Plan} {mw : BitVec 16} : a.Follows (b.freshEpoch n t len p mw) := by
  unfold Block.freshEpoch
  exact h.update (by simp [Block.core, Block.sizes])

theorem fragAcks (h : a.Follows b) : a.Follows b.fragAcks := by
  unfold Block.fragAcks
  exact (Follows.either (h.foldl fun _ _ h => by
        dsimp only
        split
        · exact Follows.either h.control'.onGuest h
        · exact h) h)

theorem memberTurn (h : a.Follows b) : a.Follows b.memberTurn := (Follows.either h.sendJoin h).pumpFrags

theorem sweep (h : a.Follows b) : a.Follows b.sweep := by
  unfold Block.sweep
  exact h.host

theorem startEpoch (h : a.Follows b) {n : Nat} {t : Tick} {dram : List DramTemp} {vack : PPoints} {resume : Bool} : a.Follows (b.startEpoch n t
    dram vack resume) := by
  unfold Block.startEpoch
  exact (Follows.either (Follows.either (Follows.either (Follows.either h.pwr.diag h.pwr).swapAt (Follows.either h.pwr.diag
      h.pwr)).applyFeatures.stepRate.rebase (Follows.either (Follows.either h.pwr.diag h.pwr).swapAt (Follows.either h.pwr.diag
      h.pwr)).applyFeatures.stepRate).diag (Follows.either (Follows.either (Follows.either h.pwr.diag h.pwr).swapAt (Follows.either h.pwr.diag
      h.pwr)).applyFeatures.stepRate.rebase (Follows.either (Follows.either h.pwr.diag h.pwr).swapAt (Follows.either h.pwr.diag
      h.pwr)).applyFeatures.stepRate)).burstStep.movePoints.untrip.readDram.chooseInertial.freshEpoch.cfg.pwr.sweep.fragAcks.memberTurn.owlEnter

theorem epochBoundary (h : a.Follows b) {dram : List DramTemp} {vack : PPoints} : a.Follows (b.epochBoundary dram vack) :=
  (Follows.either (Follows.either h.endEpoch.enterPause h.endEpoch.startEpoch) h)

theorem timeLost (h : a.Follows b) {cause : Nat} : a.Follows (b.timeLost cause) := by
  unfold Block.timeLost
  exact h.thermos.event

theorem timeRegained (h : a.Follows b) {cause : Nat} : a.Follows (b.timeRegained cause) := by
  unfold Block.timeRegained
  exact Follows.either h.thermos.event h

theorem lostAck (h : a.Follows b) {value : BitVec 32} : a.Follows (b.lostAck value) := Follows.either h.timeRegained h

theorem ptmStart (h : a.Follows b) : a.Follows b.ptmStart := by
  unfold Block.ptmStart
  exact h.other.drive

theorem ptmDue (h : a.Follows b) : a.Follows b.ptmDue := by
  unfold Block.ptmDue
  exact Follows.either (Follows.either h.other.ptmStart h.other.other) h

theorem ptmDeferred (h : a.Follows b) : a.Follows b.ptmDeferred := Follows.either h.ptmStart h

theorem ptmComplete (h : a.Follows b) {master : BitVec 64} {delay : BitVec 32} : a.Follows (b.ptmComplete master delay) := by
  unfold Block.ptmComplete
  exact Follows.either h.other.event.timeRegained h

theorem ptmFail (h : a.Follows b) : a.Follows b.ptmFail := by
  unfold Block.ptmFail
  exact Follows.either h.other h

theorem commitSet (h : a.Follows b) {set : BitVec 128} {x : Hello} : a.Follows (b.commitSet set x) := by
  unfold Block.commitSet
  exact Follows.either h.other.hello h.other.hello.evictAll

theorem acceptWrite (h : a.Follows b) {word : Fin 4} {value : BitVec 32} : a.Follows (b.acceptWrite word value) := by
  unfold Block.acceptWrite
  exact Follows.either h (Follows.either h.other.hello h.other)

theorem helloDone (h : a.Follows b) {value : BitVec 32} : a.Follows (b.helloDone value) := by
  unfold Block.helloDone
  exact Follows.either h (Follows.either (Follows.either h h.other.cause) (Follows.either h.commitSet h.hello))

theorem helloExpiry (h : a.Follows b) {waiting : List Instr} : a.Follows (b.helloExpiry waiting) := by
  unfold Block.helloExpiry
  split
  · exact h
  · split
    · exact Follows.either h.commitSet h
    · exact h

theorem linkUp (h : a.Follows b) {speed : Fin 4} {bme msix ptm : Bool} : a.Follows (b.linkUp speed bme msix ptm) := by
  unfold Block.linkUp
  exact Follows.either h h.link.sessionStart

theorem linkDown (h : a.Follows b) : a.Follows b.linkDown := Follows.either h.linkLost h

theorem busMasterOff (h : a.Follows b) : a.Follows b.busMasterOff := by
  unfold Block.busMasterOff
  exact Follows.either h.hold.link h

theorem msixCleared (h : a.Follows b) {x : Link} {tim : Tim} (entries : x.msix.length = 32 := by simp) : a.Follows { b with link := x, tim := tim } :=
  h.change rfl fun ⟨wf, sizes⟩ => ⟨wf, by simp_all [Block.core, Block.sizes, specSizes]⟩

theorem flr (h : a.Follows b) : a.Follows b.flr := by
  unfold Block.flr
  have k := h.flrEffect.owlEnter
  generalize b.flrEffect.owlEnter = b1 at k ⊢
  exact Follows.either (Follows.sessionStart k.msixCleared) h

theorem budgetWrite (h : a.Follows b) {value : BitVec 32} : a.Follows (b.budgetWrite value) := by
  unfold Block.budgetWrite
  exact Follows.either h.pwr h

theorem skinWrite (h : a.Follows b) {value : BitVec 32} : a.Follows (b.skinWrite value) := by
  unfold Block.skinWrite
  exact Follows.either h.pwr.skinBack h

theorem skinReadDue (h : a.Follows b) : a.Follows b.skinReadDue := by
  unfold Block.skinReadDue
  exact Follows.either h.pwr.drive h

theorem skinReadDone (h : a.Follows b) {value : Option (BitVec 16)} : a.Follows (b.skinReadDone value) := by
  unfold Block.skinReadDone
  split
  · exact h
  · split
    · exact h.pwr.skinBack
    · exact Follows.either h.pwr.skinCheck h.pwr

theorem skinStale (h : a.Follows b) : a.Follows b.skinStale := Follows.either h.skinCheck h

theorem cooldownEnd (h : a.Follows b) : a.Follows b.cooldownEnd := by
  unfold Block.cooldownEnd
  split
  · exact Follows.either h.pwr h
  · exact h

theorem dieSample (h : a.Follows b) {temps : BitVec 128} {valid : BitVec 8} : a.Follows (b.dieSample temps valid) := by
  unfold Block.dieSample
  exact Follows.either h.pwr (Follows.either h.pwr.pwr.event (Follows.either h.pwr.pwr.event h.pwr))

theorem thermalTrip (h : a.Follows b) {sensor : Fin 8} {temp : BitVec 16} : a.Follows (b.thermalTrip sensor temp) := by
  unfold Block.thermalTrip
  exact Follows.either h.clock.clock.clock.pwr.event h

theorem askPause (h : a.Follows b) : a.Follows b.askPause := by
  unfold Block.askPause
  exact Follows.either h h.pwr

theorem pauseRequest (h : a.Follows b) : a.Follows b.pauseRequest := by
  unfold Block.pauseRequest
  exact Follows.either h.askPause.pwr h

theorem pauseClear (h : a.Follows b) : a.Follows b.pauseClear := by
  unfold Block.pauseClear
  exact Follows.either h.pwr.wakeUp h

theorem shutDown (h : a.Follows b) : a.Follows b.shutDown := by
  unfold Block.shutDown
  exact Follows.either (Follows.either h.pwr.shutEnd h.pwr.askPause) h

theorem denWakes (h : a.Follows b) : a.Follows b.denWakes := by
  unfold Block.denWakes
  exact Follows.either h.pwr h.pwr

theorem resume (h : a.Follows b) : a.Follows b.resume := by
  unfold Block.resume
  split
  · exact h
  · exact Follows.either h.pwr.islandsUp.denWakes.dropWindow.other.startEpoch.event h

theorem journalCommit (h : a.Follows b) : a.Follows b.journalCommit := Follows.either h.journalOnce h

theorem haltNoBoot (h : a.Follows b) : a.Follows b.haltNoBoot := h.enter.releaseFlash

theorem haltBoth (h : a.Follows b) {cause : BitVec 8} : a.Follows (b.haltBoth cause) := by
  unfold Block.haltBoth
  exact h.boot.haltNoBoot

theorem discardLoad (h : a.Follows b) : a.Follows b.discardLoad := by
  refine h.change rfl fun ⟨⟨journal, store, mem, active, shadow⟩, sizes⟩ => ⟨⟨journal, store, mem, ?_⟩, ?_⟩
  · simp [Block.discardLoad, Block.core]
  · simp_all [Block.discardLoad, Block.core, Block.sizes, specSizes]

theorem slotFails (h : a.Follows b) {cause : BitVec 8} : a.Follows (b.slotFails cause) := by
  unfold Block.slotFails
  split
  · exact h.discardLoad.boot.boot.haltNoBoot
  · exact (Follows.either h.discardLoad.boot h.discardLoad.boot.enter).boot

theorem romProbe (h : a.Follows b) : a.Follows b.romProbe := by
  unfold Block.romProbe
  exact Follows.either ((Follows.either h.boot h.enter).boot.foldl fun _ _ h => h.drive).drive ((Follows.either h.boot h.enter).boot.foldl fun _ _
      h => h.drive)

theorem probed (h : a.Follows b) : a.Follows b.probed := by
  unfold Block.probed
  exact Follows.either h.enter.boot h

theorem askBytes (h : a.Follows b) {off n : Nat} : a.Follows (b.askBytes off n) := Follows.either (h.foldl fun _ _ h => h.drive) h.drive

theorem settingsPut (h : a.Follows b) {x : Boot} {r : CheckResult} {set : List Memory} (whole : WholeSet set)
    (store : x.bootStore = b.boot.bootStore := by simp) : a.Follows { b with boot := x, cfg := { active := set, shadow := set, result := r } } := by
  refine h.change rfl fun ⟨⟨journal, store', mem, _, _⟩, sizes⟩ => ⟨⟨journal, ?_, mem, whole.2, whole.2⟩, ?_⟩
  · simpa [Block.core, store] using store'
  · simp_all [Block.core, Block.sizes, specSizes, WholeSet]

theorem settingsLoad (h : a.Follows b) {rd : SlotRead} : a.Follows (b.settingsLoad rd) := by
  have k := h.enter (p := .settingsLoad)
  unfold Block.settingsLoad
  generalize b.enter .settingsLoad = b1 at k ⊢
  generalize (b.loadCheck rd).first = found
  dsimp only
  split
  · refine k.settingsPut (wholeSet_slotPages rd) ?_
    rfl
  · refine Follows.slotFails (k.update ?_)
    rfl

theorem refChange (h : a.Follows b) {running : Bool} : a.Follows (b.refChange running) := by
  unfold Block.refChange
  exact h.thermos

theorem journalBytes (h : a.Follows b) {t : Thermos} {at_ : Nat} {xs : Bytes} (written : t.journal = memWriteBytes b.thermos.journal at_ xs) :
    a.Follows { b with thermos := t } :=
  h.change rfl fun ⟨⟨journal, store, mem, active, shadow⟩, sizes⟩ =>
    ⟨⟨(congrArg Memory.wf written).trans (wf_memWriteBytes _ _ journal), store, mem, active, shadow⟩, sizes⟩

theorem logBrown (h : a.Follows b) {kind outcome : Nat} : a.Follows (b.logBrown kind outcome) := by
  unfold Block.logBrown
  exact h.journalBytes (Thermos.brown_journal _ _ _ _)

theorem sourceSwitch (h : a.Follows b) {toVbk : Bool} : a.Follows (b.sourceSwitch toVbk) := by
  unfold Block.sourceSwitch
  exact Follows.either h h.thermos.logBrown

theorem epochUp (h : a.Follows b) {cause : Nat} : a.Follows (b.epochUp cause) := by
  unfold Block.epochUp
  exact (Follows.either h.thermos.thermos.drive h.thermos).timeLost

theorem tporRelease (h : a.Follows b) : a.Follows b.tporRelease := Follows.either h.update.drive h

theorem nvValue (h : a.Follows b) {value : BitVec 32} {err : Bool} : a.Follows (b.nvValue value err).2 := by
  unfold Block.nvValue
  simp only [apply_ite Prod.snd]
  exact h.drew.either h

theorem nvResponse (h : a.Follows b) {value : BitVec 32} {err : Bool} : a.Follows (b.nvResponse value err) := by
  unfold Block.nvResponse
  split
  · exact h
  · exact h.nvValue.thermos.epochUp
  · exact h.nvValue.thermos

theorem nvTimeout (h : a.Follows b) : a.Follows b.nvTimeout := by
  unfold Block.nvTimeout
  exact Follows.either h.thermos.timeLost h

theorem crystalStop (h : a.Follows b) : a.Follows b.crystalStop := by
  unfold Block.crystalStop
  exact Follows.either h (Follows.either h.thermos.logBrown.epochUp h.thermos.logBrown)

theorem crystalRestart (h : a.Follows b) : a.Follows b.crystalRestart := by
  unfold Block.crystalRestart
  exact h.thermos

theorem thermosExit (h : a.Follows b) : a.Follows b.thermosExit := by
  unfold Block.thermosExit
  exact Follows.either h.boot h

theorem mainRelease (h : a.Follows b) {probe : FlashProbe} : a.Follows (b.mainRelease probe) := by
  have k (p : Pins) (t : Thermos) (x : Boot) (same : t.journal = b.thermos.journal ∧ x.bootStore = b.boot.bootStore) :
      a.Follows ((({ b with pins := p, thermos := t, boot := x }.islandsUp [1, 2, 8, 9]).clock 0 true).romProbe) := by
    refine Follows.romProbe (Follows.clock (Follows.islandsUp (h.update ?_)))
    simp [Block.core, Block.sizes, same]
  unfold Block.mainRelease
  refine Follows.either ?_ h
  dsimp only
  generalize e : Block.romProbe _ = b2
  have k2 : a.Follows b2 := by
    rw [← e]
    exact k _ _ _ ⟨rfl, rfl⟩
  refine Follows.either k2 ?_
  split
  · exact k2.drive.boot
  · exact k2.drive.haltBoth

/-! ### The resets: every unit of a block that they follow on is live, or they reset to no fewer -/

theorem cleared (h : a.Follows b) (top : ∀ f : Flt, a.core.fences.Below f) {phase : BootPhase} {keepLink : Bool} :
    a.Follows (b.cleared phase keepLink) := by
  refine ⟨fun ok => ?_, top _⟩
  obtain ⟨⟨journal, -⟩, sizes⟩ := h.inv ok
  obtain ⟨⟨-, store, mem, active, shadow⟩, reset⟩ := (Block.inv_iff _).1 reset_inv
  refine ⟨⟨journal, store, mem, active, shadow⟩, ?_⟩
  cases keepLink with
  | false => exact reset
  | true =>
    have entries : b.link.msix.length = State.reset.toBlock.link.msix.length := by
      simp_all [Block.core, Block.sizes, specSizes]
    rw [← reset]
    simp only [Block.core, Block.sizes, ← entries]
    rfl

theorem mainPor (h : a.Follows b) (top : ∀ f : Flt, a.core.fences.Below f) {keepLink : Bool} : a.Follows (b.mainPor keepLink) :=
  h.cleared top

theorem coldPor (h : a.Follows b) (top : ∀ f : Flt, a.core.fences.Below f) : a.Follows b.coldPor := by
  unfold Block.coldPor
  have k (t : Thermos) (same : t.journal = b.thermos.journal) : a.Follows (Block.cleared .thermosPor false { b with thermos := t }) := (h.thermos
      same).cleared top
  split
  · exact k _ rfl
  · exact Follows.epochUp (k _ (by rfl))

theorem coldThermosPor (h : a.Follows b) (top : ∀ f : Flt, a.core.fences.Below f) : a.Follows b.coldThermosPor := h.coldPor top

theorem arbitrate (h : a.Follows b) (top : ∀ f : Flt, a.core.fences.Below f) {vaonRise vbkFall : Option Nat} :
    a.Follows (b.arbitrate vaonRise vbkFall) :=
  h.either (h.logBrown.sourceSwitch.either (h.logBrown.coldPor top))

theorem mainBrownout (h : a.Follows b) (top : ∀ f : Flt, a.core.fences.Below f) {rails : BitVec 8} : a.Follows (b.mainBrownout rails) := by
  have k (p : Pins) : a.Follows (Block.logBrown logBrownout 0 { b with pins := p }) := h.other.logBrown
  unfold Block.mainBrownout
  exact h.either (Follows.either ((k _).mainPor top) (k _))

theorem resetFall (h : a.Follows b) (top : ∀ f : Flt, a.core.fences.Below f) : a.Follows b.resetFall := by
  have k (p : Pins) : a.Follows { b with pins := p } := h.other
  unfold Block.resetFall
  exact Follows.either ((k _).mainPor top) (k _)

theorem softReset (h : a.Follows b) {v : BitVec 32} (top : softKey v → ∀ f : Flt, a.core.fences.Below f) : a.Follows (b.softReset v) := by
  unfold Block.softReset
  split
  · exact h
  · split
    · next key => exact h.mainPor (top (by simpa [softKey] using key))
    · exact h.badReg


theorem probeTimeout (h : a.Follows b) : a.Follows b.probeTimeout := Follows.either h.haltBoth h

theorem otpResponse (h : a.Follows b) {word : BitVec 10} {value : BitVec 32} {err : Bool} : a.Follows (b.otpResponse word value err) := by
  unfold Block.otpResponse
  exact Follows.either (Follows.either h.haltBoth h.boot.probed) h

theorem rollFails (h : a.Follows b) : a.Follows b.rollFails := by
  unfold Block.rollFails
  exact h.boot.event

theorem otpTimeout (h : a.Follows b) : a.Follows b.otpTimeout := Follows.either h.haltBoth (Follows.either h.rollFails h)

theorem bootResponse (h : a.Follows b) {beat : BootBeat} : a.Follows (b.bootResponse beat) := by
  have k (x : Nat) (bytes : Bytes) : a.Follows { b with boot := { b.boot with bootStore := memWriteBytes b.boot.bootStore x bytes } } :=
    h.change rfl fun ⟨⟨journal, store, mem, active, shadow⟩, sizes⟩ => ⟨⟨journal, wf_memWriteBytes _ _ store, mem, active, shadow⟩, sizes⟩
  unfold Block.bootResponse
  split
  · exact h
  · split
    · exact (h.boot.probed.either h.haltBoth).either h
    · exact (k _ _).either h

theorem slotAttempt (h : a.Follows b) {f : FlashImage} : a.Follows (b.slotAttempt f) := by
  unfold Block.slotAttempt
  split
  · exact h
  · split
    · split
      · dsimp only
        split
        · exact (h.foldl fun _ _ h => h.askBytes).boot.slotFails
        · exact (h.foldl fun _ _ h => h.askBytes).boot.settingsLoad
      · dsimp only
        split
        · exact (h.askBytes.askBytes.foldl fun _ _ h => h.askBytes).boot.slotFails
        · exact (h.askBytes.askBytes.foldl fun _ _ h => h.askBytes).boot.settingsLoad
    · split
      · dsimp only
        split
        · exact (h.foldl fun _ _ h => h.askBytes).boot.slotFails
        · exact (h.foldl fun _ _ h => h.askBytes).boot.settingsLoad
      · dsimp only
        split
        · exact (h.askBytes.askBytes.foldl fun _ _ h => h.askBytes).boot.slotFails
        · exact (h.askBytes.askBytes.foldl fun _ _ h => h.askBytes).boot.settingsLoad

theorem slotTimeout (h : a.Follows b) : a.Follows b.slotTimeout := by
  unfold Block.slotTimeout
  exact Follows.either (Follows.either h h.boot).slotFails h

theorem loadTimeout (h : a.Follows b) : a.Follows b.loadTimeout := Follows.either h.slotFails h

theorem restartBoot (h : a.Follows b) {x : Boot} (store : x.bootStore = [] := by simp) : a.Follows { b with boot := x } :=
  h.change rfl fun ⟨⟨journal, _, mem, active, shadow⟩, sizes⟩ => ⟨⟨journal, by simp [Block.core, store], mem, active, shadow⟩, sizes⟩

theorem bootMismatch (h : a.Follows b) : a.Follows b.bootMismatch := by
  have k := h.discardLoad.fence (unit := pairUnit .a) (cause := 6) (k := .pair .a)
  unfold Block.bootMismatch
  generalize Block.fence (pairUnit .a) 6 (.pair .a) b.discardLoad = b1 at k ⊢
  split
  · exact h.faultHalt.either (k.drive.either k).restartBoot.romProbe
  · exact h.faultHalt.either (k.drive.either k).restartBoot.romProbe
  · exact h.faultHalt.either (k.drive.either k).restartBoot.romProbe
  · exact h

theorem bringupStart (h : a.Follows b) {populated : BitVec 4} : a.Follows (b.bringupStart populated) := by
  have k := (h.enter (p := .bringup)).islandsUp (is := [3, 4, 5, 6, 7, 10])
  unfold Block.bringupStart
  generalize Block.islandsUp [3, 4, 5, 6, 7, 10] (b.enter .bringup) = b1 at k ⊢
  refine Follows.either (Follows.foldl (k.update ?_) fun _ _ h => h.i3cAssign) h
  simp [Block.core, Block.sizes]

theorem selfTest (h : a.Follows b) {unit : BitVec 8} {ok : Bool} : a.Follows (b.selfTest unit ok) := by
  have k (t : Fenceable) : a.Follows { b with flt := b.flt.tested t } := h.flt (by cases t <;> simp [Flt.tested, Flt.fences])
  unfold Block.selfTest
  split
  · exact Follows.either ((k _).either (k _).blame) h
  · exact h

theorem bringupTimeout (h : a.Follows b) : a.Follows b.bringupTimeout := Follows.either (h.foldl fun _ _ h => h.selfTest) h

theorem dramTrained (h : a.Follows b) {trained : BitVec 4} {mib : Nat} : a.Follows (b.dramTrained trained mib) := h.update

theorem trainingDone (h : a.Follows b) {trained : BitVec 4} {mib : Nat} : a.Follows (b.trainingDone trained mib) := Follows.either h.dramTrained h

theorem trainingTimeout (h : a.Follows b) {trained : BitVec 4} {mib : Nat} : a.Follows (b.trainingTimeout trained mib) :=
  (Follows.either h.dramTrained h)

theorem rollStep (h : a.Follows b) : a.Follows b.rollStep := by
  unfold Block.rollStep
  split
  · exact Follows.either h.boot.drive h.boot
  · exact h.boot

theorem programResponse (h : a.Follows b) {err readback : Bool} : a.Follows (b.programResponse err readback) := by
  unfold Block.programResponse
  split
  · split
    · exact h.rollFails
    · split
      · exact h.boot.rollStep
      · exact h.boot
  · exact h

theorem startUnits (h : a.Follows b) : a.Follows b.startUnits := by
  unfold Block.startUnits
  exact Follows.slots (Follows.restPins (h.foldl fun _ _ h => h.chanStart.either h))

/-- The step level rises to the level of the live units. -/
theorem capacityShown (h : a.Follows b) {x : Boot} {f : Flt} {p : Pwr} {t : Tim} {d : Den} {e : Ep}
    (same : x.bootStore = b.boot.bootStore ∧ f = { b.flt with capOn := f.capOn, step := f.step }
      ∧ (p.packSince.length = b.pwr.packSince.length ∧ p.pwrAck.length = b.pwr.pwrAck.length ∧ p.iso.length = b.pwr.iso.length)
      ∧ d.mem = b.den.mem ∧ d.windows.length = b.den.windows.length := by simp)
    (step : b.flt.step ≤ f.step := by simp) : a.Follows { b with boot := x, flt := f, pwr := p, tim := t, den := d, ep := e } := by
  obtain ⟨store, flt, pwr, mem, windows⟩ := same
  refine h.trans ⟨fun ⟨wf, sizes⟩ => ⟨?_, ?_⟩, fun k live => ?_, step⟩
  · simpa [Block.core, store, mem] using wf
  · rw [flt]
    simpa [Block.core, Block.sizes, pwr, windows] using sizes
  · have same : f.isLive k = b.flt.isLive k := by rw [flt]; rcases k with _ | _ | _ | (_ | _) <;> rfl
    simpa [Block.core, same] using live

theorem readyEntry (h : a.Follows b) : a.Follows b.readyEntry := by
  have k := (h.enter (p := .ready)).releaseFlash
  unfold Block.readyEntry
  generalize (b.enter .ready).releaseFlash = b1 at k ⊢
  refine Follows.either ?_ h
  dsimp only
  generalize e : Block.freshEpoch _ _ _ _ _ _ = b4
  have k4 : a.Follows b4 := by
    rw [← e]
    exact Follows.freshEpoch (Follows.chooseInertial (Follows.startUnits (Follows.drew (Follows.capacityShown k (by simp [Block.govLatch,
        Boot.published])))))
  have k5 := Follows.either (p := b4.link.up) k4.sessionStart k4
  exact Follows.rollStep (Follows.memberTurn (Follows.pwr (k5.rollStart.either k5)))

theorem edgeBeat (h : a.Follows b) {ch : Fin 53} {beat : Beat} {early : Bool} : a.Follows (b.edgeBeat ch beat early) := by
  unfold Block.edgeBeat
  split
  · split
    · exact Follows.either h.edge.phyError h.edge
    · exact h.edge
  · exact h

theorem laneAbsent (h : a.Follows b) {l : Nat} : a.Follows (b.laneAbsent l) := by
  unfold Block.laneAbsent
  dsimp only
  split
  · exact h.onLane.laneGone
  · exact h.onLane
  · exact h.onLane.laneGone
  · exact h

theorem edgeStall (h : a.Follows b) {ch : Fin 53} : a.Follows (b.edgeStall ch) := by
  unfold Block.edgeStall
  exact Follows.either (Follows.either (Follows.either h.edge.linkLost h.edge) (Follows.either h.edge.laneAbsent (Follows.either (Follows.either
      h.edge.haltBoth h.edge) (Follows.either (Follows.either h.edge.haltBoth (Follows.either h.edge.rollFails h.edge)) h.edge)))) h

theorem clockAgain (h : a.Follows b) {i : Nat} : a.Follows (b.clockAgain i) := Follows.either h.clock h

theorem packMatch (h : a.Follows b) {i : Dvfs} : a.Follows (b.packMatch i) := by
  unfold Block.packMatch
  exact Follows.either h.pwr.clockAgain h

theorem packTimeout (h : a.Follows b) {i : Dvfs} {delivered : Fin 6} : a.Follows (b.packTimeout i delivered) := by
  unfold Block.packTimeout
  split
  · exact Follows.either h.pwr.clockAgain.event h
  · exact h

theorem islandOn (h : a.Follows b) {i : Nat} : a.Follows (b.islandOn i) := by
  unfold Block.islandOn
  exact h.pwr.clockAgain

theorem ackRise (h : a.Follows b) {island : Island} : a.Follows (b.ackRise island) := by
  unfold Block.ackRise
  exact Follows.either (Follows.either (Follows.either h.pwr.pwr h.pwr.pwr.islandOn) h.pwr.islandOn) h

theorem retAck (h : a.Follows b) {level : Bool} : a.Follows (b.retAck level) := by
  unfold Block.retAck
  exact Follows.either (Follows.either (Follows.either h.pwr.pwr h.pwr) (Follows.either h.pwr.islandOn h.pwr)) h

theorem ackFall (h : a.Follows b) {island : Island} : a.Follows (b.ackFall island) := by
  unfold Block.ackFall
  exact Follows.either (Follows.either h.pwr.bridgeFault h.pwr) h

theorem ackTimeout (h : a.Follows b) {island : Island} : a.Follows (b.ackTimeout island) := by
  unfold Block.ackTimeout
  exact Follows.either (Follows.either h.flt.islandFailed h.flt.faultHalt) h

theorem ptmLatch (h : a.Follows b) : a.Follows b.ptmLatch := by
  unfold Block.ptmLatch
  exact h.other

theorem readWord (h : a.Follows b) {off : Nat} : a.Follows (b.readWord off).2 := by
  unfold Block.readWord
  split
  · exact h.ptmLatch.either h
  · split
    · exact h.update
    · exact h
    · exact h

theorem read4 (h : a.Follows b) {off : Nat} : a.Follows (b.read4 off) := Follows.either h (Follows.either h.drive h.readWord.drive)

theorem readPtm (h : a.Follows b) {size : Nat} : a.Follows (b.readPtm size) := Follows.either h (Follows.either h.ptmLatch.drive h.drive)

theorem clearPort (h : a.Follows b) {k i : Nat} : a.Follows (b.clearPort k i) := by
  unfold Block.clearPort
  exact Follows.either h.ports h.slots

theorem clearCounter (h : a.Follows b) {off : Nat} : a.Follows (b.clearCounter off) := by
  unfold Block.clearCounter
  exact Follows.either h.clearPort (Follows.either h.onChan.onGroup (Follows.either h.owl (Follows.either h.guests (Follows.either h.edge
      (Follows.either h.onBundle (Follows.either h.onLane h.trail))))))

theorem clearLow (h : a.Follows b) {off : Nat} : a.Follows (b.clearLow off) := by
  unfold Block.clearLow
  split
  · exact h.flt
  · exact h.flt
  · exact h.den
  · exact h.den
  · exact h.den
  · exact h.den
  · exact h.host
  · exact h.other
  · exact h.other
  · exact h.other
  · exact h.flt

theorem clearBits (h : a.Follows b) {off : Nat} {value : BitVec 32} : a.Follows (b.clearBits off value) := by
  unfold Block.clearBits
  exact Follows.either h.host (Follows.either h.ifc (Follows.either h.onQueue h.onStream))

theorem clearWrite (h : a.Follows b) {off : Nat} {value : BitVec 32} : a.Follows (b.clearWrite off value) := by
  unfold Block.clearWrite
  split
  · exact h
  · split
    · exact Follows.either h.clearLow h.clearCounter
    · exact h.clearBits
    · exact h

theorem queueCtrl (h : a.Follows b) {q : Fin 16} {v : BitVec 32} : a.Follows (b.queueCtrl q v) :=
  (Follows.either h.qDisable (Follows.either h.qEnable.qResume h.qEnable))

theorem streamCtrl (h : a.Follows b) {st : Fin 8} {v : BitVec 32} : a.Follows (b.streamCtrl st v) :=
  (Follows.either h.streamReset (Follows.either h.streamResume h))

theorem powerCtrl (h : a.Follows b) {v : BitVec 32} : a.Follows (b.powerCtrl v) :=
  (Follows.either h.shutDown (Follows.either h.pauseRequest h.pauseClear))

theorem queueAccess_ne_soft (r : Nat) : queueAccess r ≠ .soft := by
  unfold queueAccess
  (repeat' split) <;> decide

theorem streamAccess_ne_soft (r : Nat) : streamAccess r ≠ .soft := by
  unfold streamAccess
  (repeat' split) <;> decide

theorem counterAccess_ne_soft (off : Nat) : counterAccess off ≠ .soft := by
  have either {p : Prop} [Decidable p] {x y : RegAccess} (hx : x ≠ .soft) (hy : y ≠ .soft) : (if p then x else y) ≠ .soft := by
    split <;> assumption
  unfold counterAccess
  (repeat' apply either) <;> (repeat' split) <;> decide

theorem offset_of_lowSoft {off : Nat} (h : lowAccess off = .soft) : off = 0x210 := by
  by_contra ne
  revert h
  unfold lowAccess
  rw [if_neg ne]
  (repeat' split) <;> decide

theorem offset_of_soft {off : Nat} (h : regAccess off = .soft) : off = 0x210 := by
  unfold regAccess at h
  split at h
  · exact offset_of_lowSoft h
  · split at h
    · exact absurd h (queueAccess_ne_soft _)
    · split at h
      · exact absurd h (streamAccess_ne_soft _)
      · split at h
        · exact absurd h (counterAccess_ne_soft _)
        · split at h <;> contradiction

theorem wordWrite (h : a.Follows b) {off : Nat} {v : BitVec 32} (top : off = 0x210 → softKey v → ∀ f : Flt, a.core.fences.Below f) :
    a.Follows (b.wordWrite off v) := by
  unfold Block.wordWrite
  split
  · next soft => exact h.either (h.softReset (top (offset_of_soft soft)))
  · exact (Follows.either h (Follows.either h.acceptWrite (Follows.either h.helloDone (Follows.either h.powerCtrl (Follows.either h.lostAck
      (Follows.either h.budgetWrite (Follows.either h.skinWrite (Follows.either (Follows.either h.queueCtrl h.onQueue) h.streamCtrl))))))))
  · exact h

theorem msixWrite (h : a.Follows b) {off : Nat} {v : BitVec 32} : a.Follows (b.msixWrite off v) := by
  unfold Block.msixWrite
  exact Follows.either h.link.link.drive h.link

theorem bar0Write (h : a.Follows b) {off size : Nat} {value : BitVec 64}
    (top : off = 0x210 → softKey (value.setWidth 32) → ∀ f : Flt, a.core.fences.Below f) : a.Follows (b.bar0Write off size value) := by
  unfold Block.bar0Write
  refine Follows.either (Follows.either (h.foldl fun _ _ h => h.msixWrite) h) (Follows.either h ?_)
  split
  · exact h.badReg
  · next aligned =>
    have k : a.Follows ((accessWords off size value).foldl (fun b w => b.clearWrite w.1 w.2) b) := h.foldl fun _ _ h => h.clearWrite
    refine List.foldlRecOn _ _ (k.badReg.either k) fun b h w hw => h.wordWrite fun at_ key => ?_
    simp only [accessWords] at hw
    grind

theorem ptmControl (h : a.Follows b) {on : Bool} : a.Follows (b.ptmControl on) := by
  unfold Block.ptmControl
  exact h.link

theorem registerWrite (h : a.Follows b) {w : RegWrite}
    (top : ∀ n v, w = .bar0 0x210 n v → softKey (v.setWidth 32) → ∀ f : Flt, a.core.fences.Below f) : a.Follows (b.registerWrite w) := by
  unfold Block.registerWrite
  split
  · exact h
  · split
    · exact h.bar0Write fun at_ => top _ _ (by rw [at_])
    · exact Follows.either h (Follows.either h.link h.busMasterOff)
    · exact Follows.either h.ptmControl h
    · exact Follows.either h.link h
    · exact Follows.either h.link h

end Sys2Proof.Machine.Block.Follows
end

section
/-! PROOF. Every command of the machine, and the idle step, follow the block they run on (O58, O59). -/

namespace Sys2Proof.Machine

theorem Block.Follows.acted {a : Block} {s t : State} {f : Block → Block} (e : s.act f = .next t) (h : a.Follows (f s.toBlock)) :
    a.Follows t.toBlock := by
  injection e with e
  exact e ▸ h

/-- One command, whichever it is: a reset needs a block in which every unit is live to follow on. -/
theorem Block.Follows.exec {a : Block} {c : Instr} {s t : State} (h : a.Follows s.toBlock) (e : exec c s = .next t)
    (top : Resets c → ∀ f : Flt, a.core.fences.Below f) : a.Follows t.toBlock := by
  cases c with
  | thermosPorExit => exact acted e h.thermosExit
  | coldThermosPor => exact acted e (h.coldThermosPor (top (.inr (.inr (.inl rfl)))))
  | thermosSourceSwitch _ => exact acted e h.sourceSwitch
  | thermosArbitration _ _ => exact acted e (h.arbitrate (top (.inr (.inr (.inr (.inl ⟨_, _, rfl⟩))))))
  | crystalStop => exact acted e h.crystalStop
  | crystalRestart => exact acted e h.crystalRestart
  | tporRelease => exact acted e h.tporRelease
  | mainBrownout _ => exact acted e (h.mainBrownout (top (.inr (.inl ⟨_, rfl⟩))))
  | mainPorRelease _ => exact acted e h.mainRelease
  | resetNFall => exact acted e (h.resetFall (top (.inl rfl)))
  | romProbeTimeout => exact acted e h.probeTimeout
  | otpResponse _ _ _ => exact acted e h.otpResponse
  | otpTimeout => exact acted e h.otpTimeout
  | bootResponse _ => exact acted e h.bootResponse
  | slotAttempt _ => exact acted e h.slotAttempt
  | slotVerifyTimeout => exact acted e h.slotTimeout
  | settingsLoadTimeout => exact acted e h.loadTimeout
  | bringupStart _ => exact acted e h.bringupStart
  | unitSelfTestDone _ _ => exact acted e h.selfTest
  | bringupTimeout => exact acted e h.bringupTimeout
  | dramTrainingDone _ _ => exact acted e h.trainingDone
  | dramTrainingTimeout _ _ => exact acted e h.trainingTimeout
  | readyEntry => exact acted e h.readyEntry
  | otpProgramResponse _ _ => exact acted e h.programResponse
  | bootLockstepMismatch => exact acted e h.bootMismatch
  | softReset _ => exact acted e (h.softReset fun key => top (.inr (.inr (.inr (.inr (.inl ⟨_, rfl, key⟩))))))
  | nvCounterResponse _ _ => exact acted e h.nvResponse
  | nvCounterTimeout => exact acted e h.nvTimeout
  | featAcceptWrite _ _ => exact acted e h.acceptWrite
  | helloDone _ => exact acted e h.helloDone
  | helloTimerExpiry => exact acted e h.helloExpiry
  | linkUp _ _ _ _ => exact acted e h.linkUp
  | linkDown => exact acted e h.linkDown
  | busMasterEnableClear => exact acted e h.busMasterOff
  | flr => exact acted e h.flr
  | settingsRead _ => exact acted e h.settingsRead
  | shadowWrite _ => exact acted e h.shadowWrite
  | check _ => exact acted e h.check
  | checkComplete => exact acted e h.checkComplete
  | apply _ => exact acted e h.apply
  | syncShadow _ => exact acted e h.syncShadow
  | epochBoundary _ _ => exact acted e h.epochBoundary
  | planCommit _ => exact acted e h.planCommit
  | voltageRaise _ => exact acted e h.voltageRaise
  | voltageLower _ => exact acted e h.voltageLower
  | ptmDialogueDue => exact acted e h.ptmDue
  | ptmDeferredRun => exact acted e h.ptmDeferred
  | ptmDialogueComplete _ _ => exact acted e h.ptmComplete
  | ptmDialogueFail => exact acted e h.ptmFail
  | lostAck _ => exact acted e h.lostAck
  | lowerHalfRead _ => exact acted e h.read4
  | ptmCorrRead _ => exact acted e h.readPtm
  | trigEdge _ _ => exact acted e h.trigEdge
  | frameStart _ _ => exact acted e h.frameStart
  | trigNoFrame _ => exact acted e h.trigNoFrame
  | frameEnd _ _ => exact acted e h.frameEnd
  | lineStart _ _ _ => exact acted e h.lineStart
  | longPacket _ _ => exact acted e h.longPacket
  | embedPacket _ _ => exact acted e h.embedPacket
  | phyFramingError _ => exact acted e h.phyError
  | irqImuEdge _ _ _ => exact acted e h.irqEdge
  | pollTimer _ => exact acted e h.pollTimer
  | sensorReadStart _ => exact acted e h.readStart
  | sensorReadDone _ _ => exact acted e h.readDone
  | inertialGroupClose _ => exact acted e h.groupTimer
  | skinReadDue => exact acted e h.skinReadDue
  | skinReadDone _ => exact acted e h.skinReadDone
  | skinStale => exact acted e h.skinStale
  | ifcInput _ _ => exact acted e h.ifcInput
  | trigPulseEnd _ => exact acted e h.trigPulseEnd
  | ifcOutClose _ => exact acted e h.ifcOutTimer
  | syncEdge _ => exact acted e h.syncEdge
  | sync _ => exact acted e h.syncCmd
  | coefLoadRefused _ _ => exact acted e h.coefRefused
  | foxBandStart _ => exact acted e h.bandStart
  | foxBandSeal _ _ => exact acted e h.bandSeal
  | foxCutoff => exact acted e h.foxCutoffDue
  | preintBuild _ => exact acted e h.preintBuild
  | prior _ => exact acted e h.prior
  | poseAssembly _ => exact acted e h.poseAssembly
  | predEmit _ => exact acted e h.predEmit
  | owlModelLoad _ => exact acted e h.owlModelLoad
  | owlScore _ => exact acted e h.owlScore
  | owlEngineScore _ _ => exact acted e h.owlEngineScore
  | owlSampleResult _ _ => exact acted e h.owlSampleResult
  | owlGateLate _ => exact acted e h.owlGateLate
  | nodeUe _ _ => exact acted e h.nodeUe
  | vioAssembly _ => exact acted e h.vioAssembly
  | badgerJob _ => exact acted e h.badgerJob
  | badgerBlockOpDone _ _ _ _ _ => exact acted e h.blockOpDone
  | badgerIterationDecide _ _ => exact acted e h.iterationDecide
  | badgerDeadline _ => exact acted e h.badgerDeadline
  | vioReset => exact acted e h.vioReset
  | mapWrite _ => exact acted e h.mapWrite
  | hotColdMove _ => exact acted e h.hotColdMove
  | sramScrub _ _ => exact acted e h.sramScrub
  | dramScrub _ _ _ => exact acted e h.dramScrub
  | zqCalibration => exact acted e h.zqCalibration
  | denWindowOpen _ => exact acted e h.windowOpen
  | denWindowClose _ => exact acted e h.windowClose
  | bar4Read _ _ => exact acted e h.bar4Read
  | bar4Write _ _ => exact acted e h.bar4Write
  | guestOpen _ => exact acted e h.guestOpen
  | guestFragment _ => exact acted e h.guestFragment
  | guestClose _ => exact acted e h.guestClose
  | guestAlignStart _ _ => exact acted e h.guestAlignStart
  | guestMerge _ => exact acted e h.guestMerge
  | guestIdleExpiry _ => exact acted e h.guestIdle
  | guestEvictComplete _ => exact acted e h.guestEvicted
  | guestCoolingEnd _ => exact acted e h.guestCooled
  | sqTailDoorbell _ _ => exact acted e h.sqTail
  | cqHeadDoorbell _ _ => exact acted e h.cqHead
  | streamHeadDoorbell _ _ => exact acted e h.streamHead
  | badDoorbell _ _ => exact acted e h.badBell
  | commandFetch _ _ => exact acted e h.commandFetch
  | completionWrite _ => exact acted e h.completionWrite
  | nop _ => exact acted e h.nop
  | streamOpen _ _ => exact acted e h.streamOpen
  | streamClose _ => exact acted e h.streamClose
  | abort _ => exact acted e h.abort
  | streamParcelWrite _ _ => exact acted e h.parcelWrite
  | msixCoalesceTimer _ => exact acted e h.coalesceTimer
  | qEnable _ => exact acted e h.qEnable
  | qDisable _ => exact acted e h.qDisable
  | qResume _ => exact acted e h.qResume
  | streamResume _ => exact acted e h.streamResume
  | streamReset _ => exact acted e h.streamReset
  | sidebandRead _ _ _ => exact acted e h.sidebandRead
  | laneTrainAttempt _ => exact acted e h.trainAttempt
  | laneTrainTimeout _ => exact acted e h.trainTimeout
  | laneRetry _ => exact acted e h.laneRetry
  | syncHeaderErrors _ _ => exact acted e h.headerErrors
  | laneLockLoss _ => exact acted e h.lockLoss
  | retrainReq _ => exact acted e h.retrainReq
  | widthReq _ _ => exact acted e h.widthReqIn
  | widthAck _ _ => exact acted e h.widthAckIn
  | flitReceive _ _ => exact acted e h.flitReceive
  | nakReceive _ _ => exact acted e h.nakReceive
  | ackTimer _ => exact acted e h.ackTimer
  | flitAckTimeout _ => exact acted e h.flitTimeout
  | rollCallSend => exact acted e h.rollSend
  | rollCallReceive _ _ => exact acted e h.rollReceive
  | rollCallSettle => exact acted e h.rollSettle
  | assign _ => exact acted e h.assignIn
  | readReq _ _ => exact acted e h.readReqIn
  | readResp _ _ => exact acted e h.readRespIn
  | readReqTimeout _ => exact acted e h.readTimeout
  | join _ => exact acted e h.joinIn
  | joinReply _ => exact acted e h.joinReplyIn
  | joinRetry => exact acted e h.joinRetry
  | fragAckReceive _ => exact acted e h.fragAckIn
  | fragAckTimeout => exact acted e h.fragAckLate
  | leave _ => exact acted e h.leaveIn
  | chipLost _ => exact acted e h.chipLost
  | sealReport _ => exact acted e h.sealReportIn
  | bridgeBeat _ _ _ => exact acted e h.bridgeBeat
  | bridgeWatchdog _ _ _ => exact acted e h.bridgeWatchdog
  | lockstepMismatch _ => exact acted e h.detect
  | localUe _ => exact acted e h.detect
  | eccStorm _ _ => exact acted e h.detect
  | unitWatchdog _ => exact acted e h.detect
  | islandRestartDone _ => exact acted e h.restartDone
  | govBudgetWrite _ => exact acted e h.budgetWrite
  | govSkinWrite _ => exact acted e h.skinWrite
  | cooldownEnd => exact acted e h.cooldownEnd
  | dieTempSample _ _ => exact acted e h.dieSample
  | thermalTrip _ _ => exact acted e h.thermalTrip
  | pauseRequest => exact acted e h.pauseRequest
  | pauseClear => exact acted e h.pauseClear
  | resumeBoundary => exact acted e h.resume
  | shutdown => exact acted e h.shutDown
  | journalCommit => exact acted e h.journalCommit
  | edgeBeatIn _ _ _ => exact acted e h.edgeBeat
  | edgeStall _ => exact acted e h.edgeStall
  | packMatch _ => exact acted e h.packMatch
  | packTimeout _ _ => exact acted e h.packTimeout
  | pwrAckRise _ => exact acted e h.ackRise
  | retAckDen _ => exact acted e h.retAck
  | pwrAckFall _ => exact acted e h.ackFall
  | pwrAckTimeout _ => exact acted e h.ackTimeout
  | clearWrite _ _ => exact acted e h.clearWrite
  | registerWrite _ => exact acted e (h.registerWrite fun n v w key => top (.inr (.inr (.inr (.inr (.inr ⟨n, v, by rw [w], key⟩))))))
  | dmaReadCompletion _ _ => exact acted e h.dmaRead
  | laneUp _ _ _ => exact acted e h.laneUp
  | guestFragReceive _ => exact acted e h.fragIn
  | tbSourceChange _ => exact acted e h.refChange

theorem Block.Follows.step {a : Block} {s t : State} (h : a.Follows s.toBlock) (e : step s = .next t) (top : ∀ f : Flt, a.core.fences.Below f) :
    a.Follows t.toBlock := by
  unfold Machine.step at e
  split at e
  · injection e with e
    rw [← e]
    exact h.tick
  · next c cs _ => exact Follows.exec (c := c) (s := { s with pending := cs }) h e fun _ => top

/-- The block with every unit live and the step level 0: any fences come below its own. -/
def Block.unfenced (b : Block) : Block :=
  { b with flt := { b.flt with fox := BitVec.allOnes 8, tiles := BitVec.allOnes 16, threads := BitVec.allOnes 32, pairA := true, pairB := true, step := 0 } }

theorem allOnes_isLive {w l : Nat} (h : l < w) : (BitVec.allOnes w).getLsbD l = true := by simp [h]

theorem Block.unfenced_top (b : Block) (f : Flt) : b.unfenced.core.fences.Below f := by
  refine ⟨fun k live => ?_, Fin.zero_le _⟩
  cases k with
  | lane l => exact allOnes_isLive (BitVec.lt_of_getLsbD live)
  | tile l => exact allOnes_isLive (BitVec.lt_of_getLsbD live)
  | thread l => exact allOnes_isLive (BitVec.lt_of_getLsbD live)
  | pair p => cases p <;> rfl

theorem Block.unfenced_follows (b : Block) : b.unfenced.Follows b := ⟨id, b.unfenced_top _⟩

/-- Settles O59: the step follows the same block with every unit live, of which the invariant says the same. -/
theorem invariantKept : Obligations.InvariantKept := by
  intro s t inv e
  rw [Block.inv_iff] at inv ⊢
  exact (s.toBlock.unfenced_follows.step e s.toBlock.unfenced_top).inv inv

theorem popcount_le {w : Nat} (x : BitVec w) : popcount x ≤ w := by
  simpa [popcount] using List.length_filter_le x.getLsbD (List.range w)

theorem extract_step {n k : Nat} (low : n < 2 ^ 28) : (BitVec.ofNat 32 (n + k * 2 ^ 28)).extractLsb' 28 4 = BitVec.ofNat 4 k := by
  refine BitVec.eq_of_toNat_eq ?_
  rw [BitVec.extractLsb'_toNat, BitVec.toNat_ofNat, BitVec.toNat_ofNat, Nat.shiftRight_eq_div_pow, show 2 ^ 32 = 2 ^ 28 * 2 ^ 4 from rfl,
    Nat.mod_mul_right_div_self, Nat.add_mul_div_right _ _ (by decide), Nat.div_eq_of_lt low, Nat.zero_add, Nat.mod_mod]

/-- CAPACITY.STEP lies above the counts: 8 lanes, 16 tiles, 32 threads and 2 pairs do not reach bit 28. -/
theorem Flt.capacity_step (f : Flt) : f.capacity.extractLsb' 28 4 = if f.capOn then BitVec.ofNat 4 f.step.val else 0 := by
  have fox := popcount_le f.fox
  have tiles := popcount_le f.tiles
  have threads := popcount_le f.threads
  have pairs : f.pairs ≤ 2 := Nat.add_le_add (Bool.toNat_le _) (Bool.toNat_le _)
  have step := f.step.isLt
  unfold Flt.capacity
  split
  · exact extract_step (by omega)
  · rfl

/-- Settles O58: every command that is no reset follows the block it runs on. -/
theorem fencesStay : Obligations.FencesStay := by
  intro c s t e keeps
  obtain ⟨live, level⟩ := ((Block.Follows.refl s.toBlock).exec e fun resets => absurd resets keeps).fences
  exact ⟨fun k => by simpa [Block.core] using live k, level, t.flt.capacity_step⟩

end Sys2Proof.Machine
end

section
/-! PROOF. The slots (O7, R60 to R68) and Ranger B at boot (R38, R564). -/

namespace Sys2Proof.Machine

/-- What a slot that fails leaves of the boot registers (R60, R68): the cause of the slot that was tried, and nothing that it loaded. -/
def Boot.failed (cause : BitVec 8) (o : Boot) : Boot :=
  { o with
    policy := BitVec.allOnes 128, models := List.replicate 8 none, ranges := List.replicate 4 none, trySvn := 0, tryVersion := 0
    causeA := if o.trying.getD .a = .a then cause else o.causeA
    causeB := if o.trying.getD .a = .b then cause else o.causeB }

/-- With no slot left boot halts. -/
theorem Block.slotFails_boot_of_last {b : Block} (last : b.boot.order = []) (cause : BitVec 8) :
    (b.slotFails cause).boot = { b.boot.failed cause with trying := none, phase := .haltedNoboot, since := b.now, flashDriven := false } := by
  simp only [Block.slotFails, last, Block.haltNoBoot_boot]
  rfl

/-- With a slot left it is tried next. -/
theorem Block.slotFails_boot_of_next {b : Block} {n : SlotId} {ns : List SlotId} (next : b.boot.order = n :: ns) (cause : BitVec 8) :
    (b.slotFails cause).boot = { b.boot.failed cause with phase := .slotVerify, trying := some n, order := ns, since := b.now } := by
  by_cases verifying : b.boot.phase = .slotVerify
  · simp [Block.slotFails, next, Block.discardLoad, verifying, Boot.failed]
  · simp [Block.slotFails, next, Block.discardLoad, verifying, Boot.failed, enter_boot]

/-- A slot that fails while slots are verified says nothing to the host when another is left. -/
theorem Block.slotFails_host_of_next {b : Block} {n : SlotId} {ns : List SlotId} (next : b.boot.order = n :: ns)
    (verifying : b.boot.phase = .slotVerify) (cause : BitVec 8) : (b.slotFails cause).host = b.host := by
  simp [Block.slotFails, next, Block.discardLoad, verifying]

/-- The block once the slot in turn has been read. -/
def Block.slotRequested (n : SlotId) (f : FlashImage) (b : Block) : Block :=
  let b1 := if b.boot.headersRead then b else (b.askBytes (b.slotBase .a) 64).askBytes (b.slotBase .b) 64
  (slotReads (b.slotRead n f) (slotCause (b.slotRead n f) b.boot.density b.boot.otp)).foldl (fun b x => b.askBytes (b.slotBase n + x.1) x.2) b1

/-- The slot that is tried is read, and then fails or is loaded (R60, R67). -/
theorem Block.slotAttempt_of_trying {b : Block} (verifying : b.boot.phase = .slotVerify) {n : SlotId} (trying : b.boot.trying = some n)
    (f : FlashImage) :
    b.slotAttempt f =
      let b1 := b.slotRequested n f
      let b2 := { b1 with boot := { b1.boot with headersRead := true, trying := some n, order := b.boot.order } }
      match slotCause (b.slotRead n f) b.boot.density b.boot.otp with
      | some c => b2.slotFails c
      | none => b2.settingsLoad (b.slotRead n f) := by
  simp only [Block.slotAttempt, verifying, bne_self_eq_false, trying, Option.isSome_some, if_true, Option.getD_some, Bool.false_eq_true,
    if_false]
  rfl

@[simp] theorem Block.slotRequested_frame (n : SlotId) (f : FlashImage) (b : Block) :
    (b.slotRequested n f).thermos = b.thermos ∧ (b.slotRequested n f).boot = b.boot ∧ (b.slotRequested n f).flt = b.flt
      ∧ (b.slotRequested n f).den = b.den ∧ (b.slotRequested n f).pins = b.pins := by
  unfold Block.slotRequested
  simp

theorem Block.slotRequested_now (n : SlotId) (f : FlashImage) (b : Block) : (b.slotRequested n f).now = b.now := by
  simp [Block.now]

/-- A slot whose MAGIC is wrong is not read beyond the two headers (R61). -/
theorem Block.slotRequested_host_of_magic {b : Block} (flash : b.boot.bootSrc = false) {n : SlotId} {f : FlashImage}
    (magic : slotField (b.slotRead n f) 0 4 ≠ 0x484D5052) :
    (b.slotRequested n f).host = { b.host with out := b.host.out ++ (if b.boot.headersRead then [] else
      [.flashRead b.boot.flashMode (b.slotBase .a) 64, .flashRead b.boot.flashMode (b.slotBase .b) 64]) } := by
  have cause : slotCause (b.slotRead n f) b.boot.density b.boot.otp = some 2 := by simp [slotCause, magic]
  have reads : slotReads (b.slotRead n f) (some 2) = [] := rfl
  rw [Block.slotRequested, cause, reads, List.foldl_nil]
  cases h : b.boot.headersRead <;> simp [Block.askBytes, flash, Block.drive]

/-- What CHECK sees of a slot is given by the package, the wiring and the slot. -/
theorem Block.loadCheck_congr {b c : Block} (boot : c.boot.package = b.boot.package) (pins : c.pins = b.pins) (rd : SlotRead) :
    c.loadCheck rd = b.loadCheck rd := by
  simp only [Block.loadCheck, boot, pins]

/-- A slot that passes is loaded when its settings pass CHECK (R86). -/
theorem Block.settingsLoad_of_passed {b : Block} {rd : SlotRead} (passed : (b.loadCheck rd).first = none) :
    b.settingsLoad rd = { b.enter .settingsLoad with
      boot := { b.boot with
        phase := .settingsLoad, since := b.now
        policy := slotPolicy rd, models := slotModels rd, ranges := (List.range 4).map fun i => slotSection rd 0x0030 i
        trySvn := BitVec.ofNat 8 (slotField rd 12 1), tryVersion := BitVec.ofNat 32 (slotField rd 8 4) }
      cfg := { active := slotPages rd, shadow := slotPages rd, result := { pass := true } } } := by
  simp only [Block.settingsLoad, passed, enter_boot]

/-! ### Ranger B at boot (R38, R564) -/

theorem Block.faultHalt_phase (cause island : Nat) (b : Block) :
    (b.faultHalt cause island).boot.phase = .faultHalt ∧ (b.faultHalt cause island).boot.since = b.now
      ∧ (b.faultHalt cause island).boot.haltDue = true ∧ (b.faultHalt cause island).flt.haltCause = BitVec.ofNat 4 cause := by
  simp [Block.faultHalt, Block.releaseFlash_boot]

theorem Block.romProbe_flt (b : Block) : b.romProbe.flt = b.flt := by
  by_cases probing : b.boot.phase = .romProbe <;> simp [Block.romProbe, probing]

theorem getLsbD_clearBit {w : Nat} (x : BitVec w) (i j : Nat) : (clearBit x i).getLsbD j = (x.getLsbD j && decide (i ≠ j)) := by
  have bound := @BitVec.lt_of_getLsbD w x j
  simp only [clearBit, BitVec.getLsbD_and, BitVec.getLsbD_not, BitVec.getLsbD_ofNat, Nat.testBit_two_pow]
  by_cases live : x.getLsbD j = true <;> by_cases same : i = j <;> simp_all

theorem Flt.without_isLive (f : Flt) (unit : BitVec 8) (k : Fenceable) : ((f.without k).dropBeats unit).isLive k = false := by
  rcases k with _ | _ | _ | (_ | _) <;> simp [Flt.without, Flt.dropBeats, Flt.isLive, getLsbD_clearBit]

/-- A unit that is fenced is live no more (R558). -/
theorem Block.fence_isLive (unit cause : BitVec 8) (k : Fenceable) (b : Block) : (b.fence unit cause k).flt.isLive k = false := by
  have follows := (Block.Follows.ofWithout (unit := unit) (cause := cause) (k := k) (Block.Follows.refl _) (b := b)).fences.1 k
  by_contra live
  simp [Block.core, Flt.without_isLive] at follows
  exact live follows

/-- A fence of pair A leaves the boot registers and the Thermos domain. -/
theorem Block.fence_pairA_frame (unit cause : BitVec 8) (b : Block) :
    (b.fence unit cause (.pair .a)).thermos = b.thermos ∧ (b.fence unit cause (.pair .a)).boot = b.boot := by
  by_cases control : b.flt.control = .a <;> simp [Block.fence, control]

/-- Settles O7: a slot is tried, read and loaded or failed; with none left boot halts, and with no Ranger pair left the engine does. -/
theorem slotFailures : Obligations.SlotFailures := by
  unfold Obligations.SlotFailures
  intro s
  refine ⟨fun f n verifying flash trying order magic => ?_, fun f n verifying trying => ?_, fun verifying late trying order => ?_,
    fun loading late trying order => ?_, fun verifying first control other => ?_, fun verifying none => ?_⟩
  · refine completes_of_act (f := Block.slotAttempt f) rfl ?_
    have cause : slotCause (s.slotRead .a f) s.boot.density s.boot.otp = some 2 := by simp [slotCause, magic]
    rw [Block.slotAttempt_of_trying verifying trying, cause]
    dsimp only
    rw [Block.slotFails_boot_of_next (by exact order), Block.slotFails_host_of_next (by exact order) (by simp [verifying])]
    simp [Block.slotRequested_host_of_magic flash magic, Boot.failed, Block.now]
  · refine completes_of_act (f := Block.slotAttempt f) rfl ⟨fun passes good => ?_, fun c fails => ?_⟩
    · rw [Block.slotAttempt_of_trying verifying trying, passes]
      dsimp only
      rw [Block.settingsLoad_of_passed ((congrArg CheckIn.first (Block.loadCheck_congr (by simp) (by simp) _)).trans good)]
      generalize s.slotRead n f = rd
      simp [Block.now]
    · rw [Block.slotAttempt_of_trying verifying trying, fails]
      dsimp only
      obtain order | ⟨m, ms, order⟩ : s.boot.order = [] ∨ ∃ m ms, s.boot.order = m :: ms := by cases s.boot.order <;> simp
      · rw [Block.slotFails_boot_of_last (by exact order)]
        cases n <;> simp [Boot.failed, order]
      · rw [Block.slotFails_boot_of_next (by exact order)]
        cases n <;> simp [Boot.failed, order]
  · refine completes_of_act (f := Block.slotTimeout) rfl ?_
    have e : s.slotTimeout = s.slotFails 0x0B := by simp [Block.slotTimeout, verifying, ms, late, trying]
    rw [e, Block.slotFails_boot_of_last order]
    simp [Boot.failed, trying]
  · refine completes_of_act (f := Block.loadTimeout) rfl ?_
    have e : s.loadTimeout = s.slotFails 0x0A := by simp [Block.loadTimeout, loading, ms, late]
    rw [e, Block.slotFails_boot_of_next order, Block.slotFails_cfg]
    simp [Boot.failed, trying]
  · refine completes_of_act (f := Block.bootMismatch) rfl ?_
    have fenced := Block.fence_isLive (pairUnit .a) 6 (.pair .a) s.discardLoad
    simp only [Block.bootMismatch, verifying, first, other]
    split_ifs <;> simp_all [Block.romProbe_boot, Block.fence_pairA_frame, Flt.isLive, Block.now, Block.discardLoad]
  · refine completes_of_act (f := Block.bootMismatch) rfl ?_
    have e : s.bootMismatch = s.faultHalt 1 0 := by
      rcases none with h | h <;> simp [Block.bootMismatch, verifying, h]
    rw [e]
    obtain ⟨phase, since, due, cause⟩ := Block.faultHalt_phase 1 0 s.toBlock
    exact ⟨phase, cause, due, since⟩

end Sys2Proof.Machine
end

section
/-! PROOF. What reports and re-places work stays beside the rest: the boot, the Thermos domain, the settings, the supplies, the epoch but for
its degraded mark, and the fault registers but for the count of dropped traces. -/

set_option Elab.async false

namespace Sys2Proof.Machine

structure Block.Aside (a b : Block) : Prop where
  boot : b.boot = a.boot
  thermos : b.thermos = a.thermos
  cfg : b.cfg = a.cfg
  pwr : b.pwr = a.pwr
  feat : b.feat = a.feat
  link : b.link = a.link
  ep : { b.ep with degraded := a.ep.degraded } = a.ep
  flt : { b.flt with traceDrop := a.flt.traceDrop } = a.flt

namespace Block.Aside

theorem refl (a : Block) : a.Aside a := ⟨rfl, rfl, rfl, rfl, rfl, rfl, rfl, rfl⟩

variable {a b c : Block}

theorem trans (ab : a.Aside b) (bc : b.Aside c) : a.Aside c where
  boot := bc.boot.trans ab.boot
  thermos := bc.thermos.trans ab.thermos
  cfg := bc.cfg.trans ab.cfg
  pwr := bc.pwr.trans ab.pwr
  feat := bc.feat.trans ab.feat
  link := bc.link.trans ab.link
  ep := by rw [← ab.ep, ← bc.ep]
  flt := by rw [← ab.flt, ← bc.flt]

theorem other {pins : Pins} {tim : Tim} {ports : List Port} {slots : List Slot} {ctls : List (Option Nat)} {ifc : Ifc} {fox : Fox} {afu : Afu}
    {owl : Owl} {badger : Badger} {den : Den} {map : Map} {guests : List Guest} {host : HostLink} {edge : List EdgeCh} {trail : Trail}
    {fresh : Nat} (h : a.Aside b) :
    a.Aside { b with
      pins := pins, tim := tim, ports := ports, slots := slots, ctls := ctls, ifc := ifc, fox := fox, afu := afu, owl := owl, badger := badger
      den := den, map := map, guests := guests, host := host, edge := edge, trail := trail, fresh := fresh } :=
  h.trans ⟨rfl, rfl, rfl, rfl, rfl, rfl, rfl, rfl⟩

theorem degraded (h : a.Aside b) : a.Aside { b with ep := { b.ep with degraded := true } } :=
  h.trans ⟨rfl, rfl, rfl, rfl, rfl, rfl, rfl, rfl⟩

theorem either {p : Prop} [Decidable p] (hb : a.Aside b) (hc : a.Aside c) : a.Aside (if p then b else c) := by
  split
  · exact hb
  · exact hc

theorem foldl {α : Type} {f : Block → α → Block} {l : List α} (h : a.Aside b) (step : ∀ b x, a.Aside b → a.Aside (f b x)) :
    a.Aside (l.foldl f b) := by
  induction l generalizing b with
  | nil => exact h
  | cons x l ih => exact ih (step b x h)

theorem drew (h : a.Aside b) : a.Aside b.drew := by
  unfold Block.drew
  exact h.other

theorem drive (h : a.Aside b) {o : Out} : a.Aside (b.drive o) := by
  unfold Block.drive
  exact h.other

theorem trace (h : a.Aside b) {p : Parcel} {ins : List InRef} : a.Aside (b.trace p ins) :=
  h.trans ⟨rfl, rfl, rfl, rfl, rfl, rfl, rfl, rfl⟩

theorem toStream (h : a.Aside b) {st : Nat} {p : Parcel} : a.Aside (b.toStream st p) := by
  unfold Block.toStream
  exact h.other

theorem emit (h : a.Aside b) {st : Nat} {type : BitVec 16} {unit : BitVec 8} {pl : Bytes} {ins : List InRef} :
    a.Aside (b.emit st type unit pl ins) := by
  rw [emit_eq]
  exact h.trans ⟨rfl, rfl, rfl, rfl, rfl, rfl, rfl, rfl⟩

theorem event (h : a.Aside b) {code : Nat} {source : BitVec 8} {body : Bytes} : a.Aside (b.event code source body) := h.emit

theorem flow (h : a.Aside b) {stream type : Nat} {unit : BitVec 8} {payload : Bytes} {ins : List InRef} : a.Aside (b.flow stream type unit
    payload ins) := by
  unfold Block.flow
  exact h.other.trace

theorem withCmd (h : a.Aside b) {r : CmdRef} {f : Cmd → Cmd} : a.Aside (b.withCmd r f) := by
  unfold Block.withCmd
  exact h.other

theorem finish (h : a.Aside b) {r : CmdRef} {status : Nat} {detail : Nat} {r0 r1 : Nat} : a.Aside (b.finish r status detail r0 r1) := h.withCmd

theorem forCmd {r : CmdRef} {f : Block → Block} (h : a.Aside b) (runs : ∀ b, a.Aside b → a.Aside (f b)) :
    a.Aside (b.forCmd r f) := (runs b h).withCmd

theorem onCam (h : a.Aside b) {cam : Nat} {f : FoxCam → FoxCam} : a.Aside (b.onCam cam f) := by
  unfold Block.onCam
  exact h.other

theorem onFoxFrame (h : a.Aside b) {cam : Nat} {fs : Tick} {f : FoxFrame → FoxFrame} : a.Aside (b.onFoxFrame cam fs f) := h.onCam

theorem foxForget (h : a.Aside b) {cam : Nat} {fs : Tick} : a.Aside (b.foxForget cam fs) := h.onCam

theorem bookBand (h : a.Aside b) {k : Nat} {fs : Tick} {x : Band} : a.Aside (b.bookBand k fs x) := by
  unfold Block.bookBand
  exact h.other

theorem foxDropEvent (h : a.Aside b) {cam cause : Nat} {no : BitVec 16} : a.Aside (b.foxDropEvent cam cause no) := h.event

theorem foxDiscard (h : a.Aside b) {cam : Nat} {fs : Tick} : a.Aside (b.foxDiscard cam fs) := h.foxForget.onCam

theorem foxDrop (h : a.Aside b) {cam cause : Nat} {f : FoxFrame} : a.Aside (b.foxDrop cam cause f) :=
  Aside.foxDropEvent (show a.Aside { b.foxDiscard cam f.fs with ep := { b.ep with degraded := true } } from h.foxDiscard.degraded)

theorem redoBand (h : a.Aside b) {cam : Nat} {fs : Tick} {index : Nat} : a.Aside (b.redoBand cam fs index) := by
  unfold Block.redoBand
  split
  · exact h
  · split
    · exact h
    · dsimp only
      split
      · exact h.onFoxFrame.bookBand
      · exact h.foxDrop

theorem redoLane (h : a.Aside b) {lane : Nat} : a.Aside (b.redoLane lane) :=
  (h.foldl fun _ _ h => (h.foldl fun _ _ h => (h.foldl fun _ _ h => h.redoBand)))

theorem trigDrive (h : a.Aside b) {pin : Nat} {level : Bool} : a.Aside (b.trigDrive pin level) := by
  unfold Block.trigDrive
  exact h.other

theorem onChan (h : a.Aside b) {c : Nat} {f : Chan → Chan} : a.Aside (b.onChan c f) := by
  unfold Block.onChan
  exact h.other

theorem chanStart (h : a.Aside b) {c : Nat} : a.Aside (b.chanStart c) := Aside.either h h.onChan

theorem denWrite (h : a.Aside b) {addr : Nat} {bs : Bytes} : a.Aside (b.denWrite addr bs) := by
  unfold Block.denWrite
  exact h.other

theorem storeMap (h : a.Aside b) {kind : MapKind} {addr : Nat} {payload : Bytes} {ins : List InRef} : a.Aside (b.storeMap kind addr payload
    ins) := by
  unfold Block.storeMap
  exact h.other.denWrite.trace

theorem guestOut (h : a.Aside b) {kind : Nat} {body : Bytes} {ins : List InRef} : a.Aside (b.guestOut kind body ins) := h.emit.drew

theorem queueFrag (h : a.Aside b) {kind : Nat} {p : Parcel} : a.Aside (b.queueFrag kind p) := by
  unfold Block.queueFrag
  split
  · exact h
  · exact h.other.trace.other

theorem putMap (h : a.Aside b) {kind : MapKind} {addr : Nat} {payload : Bytes} {ins : List InRef} : a.Aside (b.putMap kind addr payload ins) := by
  unfold Block.putMap
  split
  · exact Aside.either h.storeMap.emit.guestOut.queueFrag h.storeMap.emit.queueFrag
  · exact h.storeMap.emit

theorem onGuest (h : a.Aside b) {s : Nat} {f : Guest → Guest} : a.Aside (b.onGuest s f) := by
  unfold Block.onGuest
  exact h.other

theorem guestRecord (h : a.Aside b) {s kind : Nat} {body : Bytes} {ins : List InRef} : a.Aside (b.guestRecord s kind body ins) := h.emit.drew

theorem evict (h : a.Aside b) {s cause : Nat} : a.Aside (b.evict s cause) := by
  unfold Block.evict
  exact h.onGuest.other

theorem alignFailed (h : a.Aside b) {s cause : Nat} : a.Aside (b.alignFailed s cause) := Aside.either h.onGuest.event.evict h.onGuest.event

theorem alignResult (h : a.Aside b) {s : Nat} {gen : BitVec 16} {limits : Nat × BitVec 32} {sol : Option (List (BitVec 32) × List (BitVec 32))}
    {result : List InRef} : a.Aside (b.alignResult s gen limits sol result) := by
  unfold Block.alignResult
  split
  · exact Aside.either h h.alignFailed
  · exact Aside.either h (Aside.either h.alignFailed (Aside.either h.alignFailed h.onGuest.event.guestRecord))

theorem sealOnly (h : a.Aside b) {type : Nat} {unit : BitVec 8} {payload : Bytes} {ins : List InRef} : a.Aside (b.sealOnly type unit payload
    ins) := by
  unfold Block.sealOnly
  exact h.other.trace

theorem publish (h : a.Aside b) {j : Job} {payloads : List Bytes} : a.Aside (b.publish j payloads) :=
  (h.foldl fun _ _ h => (Aside.either h.emit h.flow))

theorem vioEnd (h : a.Aside b) {j : Job} {e : JobEnd} : a.Aside (b.vioEnd j e) := by
  unfold Block.vioEnd
  split
  · exact h.flow.sealOnly.drew.other
  · exact h.other
  · exact h.other.event

theorem correctKf (h : a.Aside b) {id : Nat} {d : List (BitVec 32)} {ins : List InRef} : a.Aside (b.correctKf id d ins) := by
  unfold Block.correctKf
  split
  · exact h.putMap
  · exact h

theorem loopEnd (h : a.Aside b) {j : Job} {e : JobEnd} : a.Aside (b.loopEnd j e) := by
  unfold Block.loopEnd
  cases j.published e with
  | none => exact h.event
  | some r =>
    obtain ⟨x, part, carried⟩ := r
    cases carried with
    | true => exact h.publish.event
    | false => exact (h.publish.foldl fun _ _ h => h.correctKf).other

theorem alignEnd (h : a.Aside b) {j : Job} {e : JobEnd} : a.Aside (b.alignEnd j e) := by
  unfold Block.alignEnd
  split
  · split
    · exact h.publish.alignResult
    · exact h.publish.alignResult
    · exact h.alignResult

theorem hostEnd (h : a.Aside b) {j : Job} {e : JobEnd} : a.Aside (b.hostEnd j e) := by
  unfold Block.hostEnd
  split
  · exact (h.forCmd fun _ h => by
        split
        · exact h.publish
        · exact h).finish
  · exact h

theorem jobEnd (h : a.Aside b) {n : Nat} {e : JobEnd} : a.Aside (b.jobEnd n e) := by
  unfold Block.jobEnd
  split
  · exact h
  · exact Aside.either h.other.hostEnd (Aside.either h.other.vioEnd (Aside.either h.other.loopEnd h.other.alignEnd))

theorem jobsWithoutTiles (h : a.Aside b) : a.Aside b.jobsWithoutTiles := Aside.either (h.foldl fun _ _ h => h.jobEnd) h

theorem onBundle (h : a.Aside b) {k : Nat} {f : Bundle → Bundle} : a.Aside (b.onBundle k f) := by
  unfold Block.onBundle
  exact h.other

theorem rollStart (h : a.Aside b) : a.Aside b.rollStart := by
  unfold Block.rollStart
  exact h.other

theorem putFlits (h : a.Aside b) {k : Nat} {x : Sending} : a.Aside (b.putFlits k x) := h.onBundle.drive

theorem sendOn (h : a.Aside b) {k : Nat} {x : Sending} : a.Aside (b.sendOn k x) := Aside.either h.putFlits h.onBundle

theorem unreachable (h : a.Aside b) {d : BitVec 12} {cause : Nat} : a.Aside (b.unreachable d cause) := by
  unfold Block.unreachable
  exact Aside.either h.other h.other.event

theorem sendTo (h : a.Aside b) {x : Sending} : a.Aside (b.sendTo x) := by
  unfold Block.sendTo
  split
  · exact h.other
  · split
    · exact h.sendOn
    · exact h.unreachable

theorem control' (h : a.Aside b) {type : Nat} {d : BitVec 12} {payload : Bytes} : a.Aside (b.control' type d payload) := by
  unfold Block.control'
  exact h.other.sendTo

theorem sendOwn (h : a.Aside b) {d : BitVec 12} {p : Parcel} : a.Aside (b.sendOwn d p) := h.sendTo

theorem sendJoin (h : a.Aside b) : a.Aside b.sendJoin := by
  unfold Block.sendJoin
  exact Aside.either h.control'.other h

theorem pumpFrags (h : a.Aside b) : a.Aside b.pumpFrags := by
  unfold Block.pumpFrags
  exact Aside.either h (h.other.foldl fun _ _ h => h.sendOwn)

theorem restPins (h : a.Aside b) {old : List Memory} : a.Aside (b.restPins old) := by
  unfold Block.restPins
  exact (h.foldl fun _ _ h => by
        split
        · exact Aside.either h h.trigDrive
        · exact (Aside.either h.trigDrive h))

theorem chooseInertial (h : a.Aside b) : a.Aside b.chooseInertial := by
  unfold Block.chooseInertial
  exact h.other

theorem memberTurn (h : a.Aside b) : a.Aside b.memberTurn := (Aside.either h.sendJoin h).pumpFrags

theorem startUnits (h : a.Aside b) : a.Aside b.startUnits := by
  unfold Block.startUnits
  exact Aside.other (Aside.restPins (h.foldl fun _ _ h => h.chanStart.either h))

end Block.Aside

end Sys2Proof.Machine
end

section
/-! PROOF. Detections and fences (O51, O52; R558 to R565, R572). -/

namespace Sys2Proof.Machine

/-! ### The masks -/

theorem Flt.without_step (f : Flt) (k : Fenceable) : (f.without k).step = max f.step (f.without k).level := by
  rcases k with _ | _ | _ | (_ | _) <;> rfl

theorem Flt.without_other (f : Flt) {j k : Fenceable} (other : j ≠ k) : (f.without k).isLive j = f.isLive j := by
  rcases k with _ | _ | _ | (_ | _) <;> rcases j with _ | _ | _ | (_ | _) <;>
    simp_all [Flt.without, Flt.isLive, getLsbD_clearBit, eq_comm]

/-- What a fence leaves of the fault registers as they were. -/
theorem Flt.without_frame (f : Flt) (k : Fenceable) :
    (f.without k).fenceLog = f.fenceLog ∧ (f.without k).fenceCount = f.fenceCount ∧ (f.without k).control = f.control
      ∧ (f.without k).haltCause = f.haltCause := by
  rcases k with _ | _ | _ | (_ | _) <;> exact ⟨rfl, rfl, rfl, rfl⟩

theorem Flt.dropBeats_isLive (f : Flt) (unit : BitVec 8) (k : Fenceable) : (f.dropBeats unit).isLive k = f.isLive k := by
  rcases k with _ | _ | _ | (_ | _) <;> rfl

/-! ### The report -/

/-- The entry of FENCE_LOG. -/
def Block.fenceEntry (unit cause : BitVec 8) (k : Fenceable) (b : Block) : FenceEntry :=
  { unit := unit, cause := cause, live := BitVec.ofNat 8 (b.flt.count k), epoch := b.ep.now.setWidth 32, tick := BitVec.ofNat 64 b.now }

/-- An event changes the host link and, of the fault registers, the count of dropped traces. -/
theorem Block.event_parts (code : Nat) (source : BitVec 8) (body : Bytes) (b : Block) :
    b.event code source body = { b with
      host := (b.event code source body).host, flt := { b.flt with traceDrop := (b.event code source body).flt.traceDrop } } := by
  unfold Block.event
  rw [emit_eq]

theorem Block.reportFence_eq (unit cause : BitVec 8) (k : Fenceable) (b : Block) :
    b.reportFence unit cause k = { b with
      host := (b.reportFence unit cause k).host
      flt := { b.flt with
        fenceLog := lastN 32 (b.flt.fenceLog ++ [b.fenceEntry unit cause k]), fenceCount := b.flt.fenceCount + 1
        traceDrop := (b.reportFence unit cause k).flt.traceDrop } } := by
  unfold Block.reportFence
  exact Block.event_parts _ _ _ _

/-- The block with a unit out of the live masks. -/
def Block.unitOut (unit : BitVec 8) (k : Fenceable) (b : Block) : Block :=
  { b with flt := (b.flt.without k).dropBeats unit, ep := { b.ep with changeAt := b.now } }

/-- A fence of a lane, a tile or a thread re-places the unit's work and touches nothing else that the report shows. -/
theorem Block.fence_aside (unit cause : BitVec 8) {k : Fenceable} (single : ∀ p, k ≠ .pair p) (b : Block) :
    ((b.unitOut unit k).reportFence unit cause k).Aside (b.fence unit cause k) := by
  have reported := Block.Aside.refl ((b.unitOut unit k).reportFence unit cause k)
  unfold Block.fence
  cases k with
  | lane l => exact reported.redoLane
  | tile l => exact reported.jobsWithoutTiles
  | thread l => exact reported
  | pair p => exact absurd rfl (single p)

/-- The fault registers once a lane, a tile or a thread is fenced. -/
theorem Block.fence_flt (unit cause : BitVec 8) {k : Fenceable} (single : ∀ p, k ≠ .pair p) (b : Block) :
    (b.fence unit cause k).flt = { (b.flt.without k).dropBeats unit with
      fenceLog := lastN 32 (b.flt.fenceLog ++ [(b.unitOut unit k).fenceEntry unit cause k]), fenceCount := b.flt.fenceCount + 1
      traceDrop := (b.fence unit cause k).flt.traceDrop } := by
  have aside := (b.fence_aside unit cause single).flt
  obtain ⟨log, count, -⟩ := b.flt.without_frame k
  rw [Block.reportFence_eq] at aside
  rw [← log, ← count]
  generalize (b.fence unit cause k).flt = f at aside ⊢
  generalize ((b.unitOut unit k).reportFence unit cause k).flt.traceDrop = drop at aside
  exact (congrArg (fun x : Flt => { x with traceDrop := f.traceDrop }) aside)

/-! ### What a fence leaves -/

/-- A unit is fenced, with a cause, and no other (R558 to R560, R572). -/
structure Block.Fenced (unit cause : BitVec 8) (k : Fenceable) (b t : Block) : Prop where
  dead : t.flt.isLive k = false
  others : ∀ j : Fenceable, j ≠ k → t.flt.isLive j = b.flt.isLive j
  log : ∃ e : FenceEntry, t.flt.fenceLog = lastN 32 (b.flt.fenceLog ++ [e]) ∧ e.unit = unit ∧ e.cause = cause
    ∧ e.tick = BitVec.ofNat 64 b.now ∧ e.epoch = b.ep.now.setWidth 32
  step : t.flt.step = max b.flt.step t.flt.level
  control : t.flt.control = b.flt.control
  ep : t.ep = { b.ep with changeAt := b.now, degraded := t.ep.degraded }
  boot : t.boot = b.boot
  cfg : t.cfg = b.cfg
  pwr : t.pwr = b.pwr
  thermos : t.thermos = b.thermos

theorem Ep.eq_of_degraded {x y : Ep} {d : Bool} (e : { x with degraded := d } = y) : x = { y with degraded := x.degraded } := by
  rw [← e]

theorem Block.fenced_fence (unit cause : BitVec 8) {k : Fenceable} (single : ∀ p, k ≠ .pair p) (b : Block) :
    Block.Fenced unit cause k b (b.fence unit cause k) := by
  have aside := b.fence_aside unit cause single
  have flt := b.fence_flt unit cause single
  have ep := aside.ep
  obtain ⟨-, -, control, -⟩ := b.flt.without_frame k
  refine ⟨Block.fence_isLive unit cause k b, fun j other => ?_, ⟨_, by rw [flt], rfl, rfl, rfl, rfl⟩, ?_, by rw [flt]; exact control, ?_,
    aside.boot.trans (by simp [Block.unitOut]), aside.cfg.trans (by simp [Block.unitOut]), aside.pwr.trans (by simp [Block.unitOut]),
    aside.thermos.trans (by simp [Block.unitOut])⟩
  · rw [flt, ← Flt.without_other b.flt other]
    rcases j with _ | _ | _ | (_ | _) <;> rfl
  · rw [flt]
    exact b.flt.without_step k
  · have start : ((b.unitOut unit k).reportFence unit cause k).ep = { b.ep with changeAt := b.now } := by simp [Block.unitOut]
    exact (Ep.eq_of_degraded ep).trans (by rw [start])

/-! ### Detections -/

theorem Block.blame_live {b : Block} {unit : BitVec 8} {k : Fenceable} (detects : b.detects = true) (unitOf : fenceable unit = some k)
    (live : b.flt.isLive k = true) (single : ∀ p, k ≠ .pair p) (cause : Nat) :
    b.blame unit cause = b.fence unit (BitVec.ofNat 8 cause) k := by
  cases k with
  | pair p => exact absurd rfl (single p)
  | _ => simp [Block.blame, detects, unitOf, live]

theorem Block.blame_dead {b : Block} {unit : BitVec 8} {k : Fenceable} (unitOf : fenceable unit = some k) (dead : b.flt.isLive k = false)
    (cause : Nat) : b.blame unit cause = b := by
  by_cases detects : b.detects = true <;> simp [Block.blame, detects, unitOf, dead]

theorem Block.detect_none {b : Block} {c : Instr} (none : b.detection c = none) (waiting : List Instr) : b.detect c waiting = b := by
  simp [Block.detect, none]

/-- A detection that no other waits beside blames its unit. -/
theorem Block.detect_alone {b : Block} {c : Instr} {u : BitVec 8} {cause : Nat} (found : b.detection c = some (u, cause)) {waiting : List Instr}
    (alone : ∀ c ∈ waiting, b.detection c = none) : b.detect c waiting = b.blame u cause := by
  have rest : waiting.filterMap b.detection = [] := List.filterMap_eq_nil_iff.2 alone
  simp [Block.detect, found, rest, sortBy, insertBy]

theorem toNat_of_thread {u : BitVec 8} {x : Nat} (h : fenceable u = some (.thread x)) : u.toNat = 0x40 + x := by
  simp only [fenceable] at h
  split_ifs at h with _ _ _ range <;> simp only [Option.some.injEq, Fenceable.thread.injEq, reduceCtorEq] at h
  simp only [Bool.and_eq_true, decide_eq_true_eq] at range
  omega

theorem Block.detects_congr {b c : Block} (same : c.boot = b.boot) : c.detects = b.detects := by
  simp only [Block.detects, same]

theorem Block.watchdog_detection {b : Block} {u : BitVec 8} {k : Fenceable} (unitOf : fenceable u = some k) (single : ∀ p, k ≠ .pair p)
    (running : b.pwr.tripped = false) : b.detection (.unitWatchdog u) = some (u, 8) := by
  cases k with
  | pair p => exact absurd rfl (single p)
  | _ => simp [Block.detection, unitOf, Block.tripStops, running]

theorem lastN_append {α : Type} (n : Nat) (l : List α) (x y : α) : lastN (n + 1) (lastN (n + 1) (l ++ [x]) ++ [y]) = lastN (n + 1) (l ++ [x, y]) := by
  simp only [lastN, List.length_append, List.length_drop, List.length_cons, List.length_nil]
  rw [show l ++ [x, y] = (l ++ [x]) ++ [y] by simp, ← List.drop_append_of_le_length (by simp; omega), List.drop_drop]
  congr 1
  omega

/-- Two threads that are fenced one after the other. -/
theorem Block.threads_fenced {b t t' : Block} {u v c d : BitVec 8} {x y : Nat} (first : Block.Fenced u c (.thread x) b t)
    (second : Block.Fenced v d (.thread y) t t') :
    (∀ z, t'.flt.isLive (.thread z) = (b.flt.isLive (.thread z) && decide (z ≠ x) && decide (z ≠ y)))
      ∧ ∃ e f : FenceEntry, t'.flt.fenceLog = lastN 32 (b.flt.fenceLog ++ [e, f]) ∧ e.unit = u ∧ f.unit = v := by
  refine ⟨fun z => ?_, ?_⟩
  · by_cases hy : z = y
    · subst hy; simp [second.dead]
    · rw [second.others _ (by simpa using hy)]
      by_cases hx : z = x
      · subst hx; simp [first.dead]
      · rw [first.others _ (by simpa using hx)]
        simp [hx, hy]
  · obtain ⟨e, elog, eunit, -⟩ := first.log
    obtain ⟨f, flog, funit, -⟩ := second.log
    exact ⟨e, f, by rw [flog, elog, lastN_append], eunit, funit⟩

theorem threads_eq {f g : Flt} {x y : Nat}
    (h : ∀ z, g.isLive (.thread z) = (f.isLive (.thread z) && decide (z ≠ x) && decide (z ≠ y))) :
    g.threads = clearBit (clearBit f.threads x) y := by
  refine BitVec.eq_of_getLsbD_eq fun i _ => ?_
  rw [getLsbD_clearBit, getLsbD_clearBit]
  simpa [Flt.isLive, eq_comm] using h i

/-- What a detection of these kinds finds: the unit and the cause of its row, or nothing. -/
theorem Block.localUe_detection (b : Block) {u : BitVec 8} {k : Fenceable} (unitOf : fenceable u = some k) :
    ((∀ x, k ≠ .thread x) → b.detection (.localUe u) = some (u, 3)) ∧ ∀ x, k = .thread x → b.detection (.localUe u) = none := by
  cases k <;> simp [Block.detection, unitOf]

theorem Block.eccStorm_detection (b : Block) {u : BitVec 8} {k : Fenceable} (unitOf : fenceable u = some k) (single : ∀ p, k ≠ .pair p) {n : Nat} :
    ((∀ x, k ≠ .thread x) → 64 < n → b.detection (.eccStorm u n) = some (u, 5)) ∧ (n ≤ 64 → b.detection (.eccStorm u n) = none)
      ∧ ∀ x, k = .thread x → b.detection (.eccStorm u n) = none := by
  cases k <;> simp_all [Block.detection]

theorem Block.watchdog_detection_or (b : Block) {u : BitVec 8} {k : Fenceable} (unitOf : fenceable u = some k) :
    b.detection (.unitWatchdog u) = some (u, 8) ∨ b.detection (.unitWatchdog u) = none := by
  cases k with
  | pair p => simp [Block.detection, unitOf]
  | _ => simp [Block.detection, unitOf]

/-- Settles O51: a detection blames its unit; those of one tick blame theirs in ascending unit ID. -/
theorem fences : Obligations.Fences := by
  unfold Obligations.Fences
  refine ⟨fun s u v x y detects running hu hv different liveX liveY queue => ?_, fun s u k detects alone unitOf single => ?_⟩
  · refine completes_of_act (f := Block.detect (.unitWatchdog u) s.pending) rfl ?_
    have atU := toNat_of_thread hu
    have atV := toNat_of_thread hv
    have apart : x ≠ y := fun e => different (BitVec.eq_of_toNat_eq (by omega))
    have foundU := Block.watchdog_detection (b := s.toBlock) hu (by simp) running
    have foundV := Block.watchdog_detection (b := s.toBlock) hv (by simp) running
    -- whichever of the two is first, its fence leaves the other's thread live
    have two {u v : BitVec 8} {x y : Nat} (hu : fenceable u = some (.thread x)) (hv : fenceable v = some (.thread y)) (apart : x ≠ y)
        (liveX : s.flt.isLive (.thread x) = true) (liveY : s.flt.isLive (.thread y) = true) :
        ((s.blame u 8).blame v 8).flt.threads = clearBit (clearBit s.flt.threads x) y ∧ ∃ e f : FenceEntry,
          ((s.blame u 8).blame v 8).flt.fenceLog = lastN 32 (s.flt.fenceLog ++ [e, f]) ∧ e.unit = u ∧ f.unit = v := by
      have first := Block.fenced_fence u (BitVec.ofNat 8 8) (k := .thread x) (by simp) s.toBlock
      rw [← Block.blame_live detects hu liveX (by simp)] at first
      have second := Block.fenced_fence v (BitVec.ofNat 8 8) (k := .thread y) (by simp) (s.blame u 8)
      rw [← Block.blame_live ((Block.detects_congr first.boot).trans detects) hv
        ((first.others _ (by simpa using apart.symm)).trans liveY) (by simp)] at second
      obtain ⟨live, log⟩ := Block.threads_fenced first second
      exact ⟨threads_eq live, log⟩
    by_cases order : u.toNat ≤ v.toNat
    · obtain ⟨threads, e, f, log, rfl, rfl⟩ := two hu hv apart liveX liveY
      have run : s.detect (.unitWatchdog e.unit) s.pending = (s.blame e.unit 8).blame f.unit 8 := by
        simp [Block.detect, queue, foundU, foundV, sortBy, insertBy, order]
      rw [run]
      exact ⟨threads, e, f, log, by omega, .inl rfl, .inr rfl⟩
    · obtain ⟨threads, e, f, log, rfl, rfl⟩ := two hv hu apart.symm liveY liveX
      have run : s.detect (.unitWatchdog f.unit) s.pending = (s.blame e.unit 8).blame f.unit 8 := by
        simp [Block.detect, queue, foundU, foundV, sortBy, insertBy, order]
      rw [run]
      exact ⟨by rw [threads, clearBit, clearBit, clearBit, clearBit, BitVec.and_assoc, BitVec.and_comm _ (~~~_), ← BitVec.and_assoc],
        e, f, log, by omega, .inr rfl, .inl rfl⟩
  · have dead (dead : s.flt.isLive k = false) (cause : Nat) {c : Instr} (found : s.detection c = some (u, cause)) : s.detect c s.pending = s.toBlock := by
      rw [Block.detect_alone found alone, Block.blame_dead unitOf dead]
    have live (live : s.flt.isLive k = true) (cause : Nat) {c : Instr} (found : s.detection c = some (u, cause)) :
        s.detect c s.pending = s.fence u (BitVec.ofNat 8 cause) k := by
      rw [Block.detect_alone found alone, Block.blame_live detects unitOf live single]
    have fenced (cause : BitVec 8) := Block.fenced_fence u cause single s.toBlock
    have kinds : (∀ x, k ≠ .thread x) ∨ ∃ x, k = .thread x := by cases k <;> simp
    refine ⟨fun n many => ⟨fun alive => ⟨fun notThread => ⟨?_, ?_⟩, fun running => ?_⟩, fun gone => ⟨?_, ?_, ?_⟩⟩, fun n few => ?_,
      fun x thread => ?_, fun x thread alive running => ?_⟩
    · refine completes_of_act (f := Block.detect (.localUe u) s.pending) rfl ?_
      rw [live alive 3 ((s.localUe_detection unitOf).1 notThread)]
      obtain ⟨dead, others, log, step, control, ep, boot, cfg, -, thermos⟩ := fenced 3
      exact ⟨dead, others, log, step, control, ep, boot, congrArg Cfg.active cfg, thermos⟩
    · refine completes_of_act (f := Block.detect (.eccStorm u n) s.pending) rfl ?_
      rw [live alive 5 ((s.eccStorm_detection unitOf single).1 notThread many)]
      obtain ⟨dead, others, log, step, control, ep, boot, cfg, -, thermos⟩ := fenced 5
      exact ⟨dead, others, log, step, control, ep, boot, congrArg Cfg.active cfg, thermos⟩
    · refine completes_of_act (f := Block.detect (.unitWatchdog u) s.pending) rfl ?_
      rw [live alive 8 (Block.watchdog_detection unitOf single running)]
      obtain ⟨dead, others, log, step, control, ep, boot, cfg, -, thermos⟩ := fenced 8
      exact ⟨dead, others, log, step, control, ep, boot, congrArg Cfg.active cfg, thermos⟩
    · refine State.act_of_eq (f := Block.detect (.localUe u) s.pending) ?_
      rcases kinds with notThread | ⟨x, thread⟩
      · exact dead gone 3 ((s.localUe_detection unitOf).1 notThread)
      · exact Block.detect_none ((s.localUe_detection unitOf).2 x thread) _
    · refine State.act_of_eq (f := Block.detect (.eccStorm u n) s.pending) ?_
      rcases kinds with notThread | ⟨x, thread⟩
      · exact dead gone 5 ((s.eccStorm_detection unitOf single).1 notThread many)
      · exact Block.detect_none ((s.eccStorm_detection unitOf single).2.2 x thread) _
    · refine State.act_of_eq (f := Block.detect (.unitWatchdog u) s.pending) ?_
      rcases s.watchdog_detection_or unitOf with found | none
      · exact dead gone 8 found
      · exact Block.detect_none none _
    · exact State.act_of_eq (f := Block.detect (.eccStorm u n) s.pending) (Block.detect_none ((s.eccStorm_detection unitOf single).2.1 few) _)
    · exact State.act_of_eq (f := Block.detect (.localUe u) s.pending) (Block.detect_none ((s.localUe_detection unitOf).2 x thread) _)
    · subst thread
      refine completes_of_act (f := Block.detect (.unitWatchdog u) s.pending) rfl ?_
      rw [live alive 8 (Block.watchdog_detection unitOf single running)]
      refine ⟨by rw [Block.fence_flt _ _ single]; rfl, by rw [Block.fence_flt _ _ single]; rfl, ?_⟩
      exact Block.eq_of_fields (by simp [Block.fence])

/-! ### The Ranger pairs (O52, R561 to R563) -/

theorem Block.lockstep_detection {b : Block} (ready : b.boot.phase = .ready) (p : Pair) :
    b.detection (.lockstepMismatch p) = some (pairUnit p, 6) := by
  simp [Block.detection, ready]

theorem fenceable_pairUnit (p : Pair) : fenceable (pairUnit p) = some (.pair p) := by
  cases p <;> decide

theorem Block.switchPair_flt (p : Pair) (cause : BitVec 8) (b : Block) :
    (b.switchPair p cause).flt = { b.flt with control := p, traceDrop := (b.switchPair p cause).flt.traceDrop } := by
  unfold Block.switchPair
  dsimp only
  rw [Block.event_parts]
  simp

/-- The fault registers at a halt: its cause and island, and the clocks of all but Thermos, Den and the host link stopped. -/
theorem Block.faultHalt_flt (cause island : Nat) (b : Block) :
    (b.faultHalt cause island).flt = { b.flt with
      haltCause := BitVec.ofNat 4 cause, haltIsland := BitVec.ofNat 4 island
      clockOn := b.flt.clockOn.mapIdx fun i c => c && (i == 0 || i == 8 || i == 9) } := by
  simp [Block.faultHalt]

/-- The journal at a halt, with the halt record. -/
theorem Block.faultHalt_thermos (cause island : Nat) (b : Block) :
    let b1 := { b with
      boot := { b.boot with phase := .faultHalt, since := b.now, haltDue := true }, flt := (b.faultHalt cause island).flt
      pins := (b.faultHalt cause island).pins, host := { b.host with eventCause := setBit b.host.eventCause 0 } }
    (b.faultHalt cause island).thermos = (b1.journal (some b1.haltRecord)).thermos := by
  rw [Block.faultHalt_flt]
  simp [Block.faultHalt]

theorem Block.journal_thermos (halt : Option Bytes) (b : Block) :
    (b.journal halt).thermos = { b.thermos with
      journal := (b.journal halt).thermos.journal, journalUe := (b.journal halt).thermos.journalUe } := by
  unfold Block.journal
  dsimp only

/-- A reported fence and a switch after it leave the live masks. -/
theorem Block.switched_flt (unit cause cause' : BitVec 8) (k : Fenceable) (other : Pair) (b : Block) :
    ∃ log count drop, ((b.reportFence unit cause k).switchPair other cause').flt
      = { b.flt with control := other, fenceLog := log, fenceCount := count, traceDrop := drop } := by
  have e := Block.switchPair_flt other cause' (b.reportFence unit cause k)
  generalize ((b.reportFence unit cause k).switchPair other cause').flt = f at e ⊢
  rw [Block.reportFence_eq] at e
  exact ⟨_, _, _, e⟩

/-- The block when the pair in control is fenced: the other pair reports the fence and takes control. -/
theorem Block.fence_control {b : Block} {p other : Pair} (control : b.flt.control = p) (apart : other ≠ p) (unit cause : BitVec 8) :
    b.fence unit cause (.pair p) = Block.switchPair other cause (Block.reportFence unit cause (.pair p)
      { b with flt := { (b.flt.without (.pair p)).dropBeats unit with control := other }, ep := { b.ep with changeAt := b.now } }) := by
  cases p <;> cases other <;> simp_all [Block.fence]

theorem foldl_active {α : Type} {f : Block → α → Block} (keeps : ∀ b x, (f b x).cfg.active = b.cfg.active) (l : List α) (b : Block) :
    (l.foldl f b).cfg.active = b.cfg.active := by
  induction l generalizing b with
  | nil => rfl
  | cons x l ih => exact (ih _).trans (keeps b x)

theorem Block.restartCmd_active (r : CmdRef) (c : Cmd) (b : Block) : (b.restartCmd r c).cfg.active = b.cfg.active := by
  unfold Block.restartCmd
  (repeat' split) <;> rfl

theorem Block.switchPair_active (p : Pair) (cause : BitVec 8) (b : Block) : (b.switchPair p cause).cfg.active = b.cfg.active := by
  unfold Block.switchPair
  simp only [Block.event_frame]
  exact foldl_active (fun b q => foldl_active (fun b c => Block.restartCmd_active _ _ _) _ _) _ _

/-- Settles O52: the standby is fenced like any unit, the pair in control gives way, and the last pair halts the engine. -/
theorem rangerPairs : Obligations.RangerPairs := by
  unfold Obligations.RangerPairs
  intro s p ready alone
  have found := Block.lockstep_detection (b := s.toBlock) ready p
  have run : s.detect (.lockstepMismatch p) s.pending = s.blame (pairUnit p) 6 := Block.detect_alone found alone
  have detects : s.detects = true := by simp [Block.detects, ready]
  refine ⟨fun dead => ?_, fun a b => ⟨fun standby => ?_, fun control => ?_⟩, fun last live => ?_⟩
  · refine State.act_of_eq (f := Block.detect (.lockstepMismatch p) s.pending) ?_
    rw [run, Block.blame_dead (fenceable_pairUnit p) dead]
  · refine completes_of_act (f := Block.detect (.lockstepMismatch p) s.pending) rfl ?_
    have live : s.flt.isLive (.pair p) = true := by cases p <;> assumption
    have fence : s.blame (pairUnit p) 6 = s.fence (pairUnit p) 6 (.pair p) := by
      simp [Block.blame, detects, fenceable_pairUnit, live, Flt.pairs, a, b]
    rw [run, fence]
    have report : s.fence (pairUnit p) 6 (.pair p) = (s.unitOut (pairUnit p) (.pair p)).reportFence (pairUnit p) 6 (.pair p) := by
      simp [Block.fence, standby, Block.unitOut]
    refine ⟨Block.fence_isLive _ _ _ _, ?_, ?_, ?_⟩
    · rw [report, Block.reportFence_eq]
      exact (s.flt.without_frame (.pair p)).2.2.1
    · rw [report, Block.reportFence_eq]
      exact congrArg (· + 1) (s.flt.without_frame (.pair p)).2.1
    · rw [report]
      exact Block.eq_of_fields (by simp [Block.unitOut])
  · refine completes_of_act (f := Block.detect (.lockstepMismatch p) s.pending) rfl ?_
    have live : s.flt.isLive (.pair p) = true := by cases p <;> assumption
    have fence : s.blame (pairUnit p) 6 = s.fence (pairUnit p) 6 (.pair p) := by
      simp [Block.blame, detects, fenceable_pairUnit, live, Flt.pairs, a, b]
    rw [run, fence]
    obtain ⟨other, apart⟩ : ∃ other, other ≠ p := by cases p <;> [exact ⟨.b, by decide⟩; exact ⟨.a, by decide⟩]
    have dead := Block.fence_isLive (pairUnit p) 6 (.pair p) s.toBlock
    rw [Block.fence_control control apart] at dead ⊢
    refine ⟨dead, ?_, ?_, ?_, ?_, ?_, by simp, by simp [Block.switchPair_active], by simp, by simp⟩
    all_goals
      obtain ⟨log, count, drop, flt⟩ := Block.switched_flt (pairUnit p) 6 6 (.pair p) other
        { s.toBlock with flt := { (s.flt.without (.pair p)).dropBeats (pairUnit p) with control := other }, ep := { s.ep with changeAt := s.now } }
      rw [flt]
    · exact apart
    · cases p <;> cases other <;> simp_all [Flt.isLive, Flt.without, Flt.dropBeats]
    all_goals cases p <;> rfl
  · refine completes_of_act (f := Block.detect (.lockstepMismatch p) s.pending) rfl ?_
    have halt : s.blame (pairUnit p) 6 = s.faultHalt 1 0 := by
      simp [Block.blame, detects, fenceable_pairUnit, live, last]
    rw [run, halt]
    obtain ⟨phase, since, due, cause⟩ := Block.faultHalt_phase 1 0 s.toBlock
    have thermos := Block.faultHalt_thermos 1 0 s.toBlock
    refine ⟨phase, since, due, cause, fun i bound h0 h8 h9 => ?_, ?_, ?_, ?_, ?_, fun b1 e => ?_, Block.eq_of_fields (by simp)⟩
    · simp only [Block.faultHalt_flt, List.getD_eq_getElem?_getD, List.getElem?_mapIdx]
      cases s.flt.clockOn[i]? <;> simp [h0, h8, h9]
    · simp [Block.faultHalt_flt, List.getD_eq_getElem?_getD]
    · simp [Block.faultHalt_flt, List.getD_eq_getElem?_getD]
    · simp [Block.faultHalt_flt]
    · rw [thermos]
      exact Block.journal_thermos _ _
    · rw [thermos, e, Block.faultHalt_flt]
      rfl

end Sys2Proof.Machine
end

section
/-! PROOF. Bring-up and READY (O8; R37 to R40, R66, R405 to R410). -/

namespace Sys2Proof.Machine

/-! ### The self-tests -/

theorem fenceable_lane (l : Fin 8) : fenceable (BitVec.ofNat 8 (0x20 + l)) = some (.lane l) := by
  revert l; decide

/-- A unit that is not a pair has an ID of its range. -/
theorem fenceable_bound {u : BitVec 8} {k : Fenceable} (h : fenceable u = some k) :
    match k with | .lane l => l < 8 | .tile t => t < 16 | .thread t => t < 32 | .pair _ => True := by
  simp only [fenceable] at h
  split_ifs at h with _ _ lanes threads tiles <;> injection h with h <;> subst h
  · trivial
  · trivial
  · simp only [Bool.and_eq_true, decide_eq_true_eq] at lanes; dsimp only; omega
  · simp only [Bool.and_eq_true, decide_eq_true_eq] at threads; dsimp only; omega
  · simp only [Bool.and_eq_true, decide_eq_true_eq] at tiles; dsimp only; omega

theorem Flt.tested_self (f : Flt) {u : BitVec 8} {k : Fenceable} (unitOf : fenceable u = some k) : (f.tested k).isTested k = true := by
  have bound := fenceable_bound unitOf
  cases k with
  | pair p => rfl
  | _ => exact getLsbD_setBit_self bound _

theorem Flt.tested_mono (f : Flt) (k : Fenceable) {j : Fenceable} (done : f.isTested j = true) : (f.tested k).isTested j = true := by
  rcases k with _ | _ | _ | (_ | _) <;> rcases j with _ | _ | _ | (_ | _) <;> simp_all [Flt.tested, Flt.isTested, setBit]

theorem Flt.tested_isLive (f : Flt) (k j : Fenceable) : (f.tested k).isLive j = f.isLive j := by
  rcases k with _ | _ | _ | (_ | _) <;> rcases j with _ | _ | _ | (_ | _) <;> rfl

/-- The fault registers keep the tests that are over when a unit is fenced. -/
theorem Block.fence_isTested (unit cause : BitVec 8) {k : Fenceable} (single : ∀ p, k ≠ .pair p) (b : Block) (j : Fenceable) :
    (b.fence unit cause k).flt.isTested j = b.flt.isTested j := by
  rw [Block.fence_flt _ _ single]
  rcases k with _ | _ | _ | (_ | _) <;> rcases j with _ | _ | _ | (_ | _) <;> rfl

/-- In BRINGUP a unit whose self-test fails is tested, and fenced if it was live. -/
theorem Block.selfTest_fails {b : Block} {u : BitVec 8} {k : Fenceable} (bringup : b.boot.phase = .bringup) (unitOf : fenceable u = some k)
    (single : ∀ p, k ≠ .pair p) (untested : b.flt.isTested k = false) :
    b.selfTest u false = if b.flt.isLive k then { b with flt := b.flt.tested k }.fence u 0x0B k else { b with flt := b.flt.tested k } := by
  have detects : Block.detects { b with flt := b.flt.tested k } = true := by simp [Block.detects, bringup]
  have run : b.selfTest u false = Block.blame u 0x0B { b with flt := b.flt.tested k } := by simp [Block.selfTest, unitOf, bringup, untested]
  rw [run]
  split
  · next live => exact Block.blame_live detects unitOf ((b.flt.tested_isLive k k).trans live) single 0x0B
  · next dead => exact Block.blame_dead unitOf ((b.flt.tested_isLive k k).trans (by simpa using dead)) 0x0B

/-- After a self-test that has failed the unit is tested, with those that were. -/
theorem Block.selfTest_tests {b : Block} {u : BitVec 8} {k : Fenceable} (bringup : b.boot.phase = .bringup) (unitOf : fenceable u = some k)
    (single : ∀ p, k ≠ .pair p) :
    (b.selfTest u false).boot.phase = .bringup ∧ (b.selfTest u false).flt.isTested k = true
      ∧ ∀ j, b.flt.isTested j = true → (b.selfTest u false).flt.isTested j = true := by
  cases tested : b.flt.isTested k with
  | true =>
    have e : b.selfTest u false = b := by simp [Block.selfTest, unitOf, tested]
    rw [e]
    exact ⟨bringup, tested, fun _ h => h⟩
  | false =>
    rw [Block.selfTest_fails bringup unitOf single tested]
    split
    · have boot := (Block.fenced_fence u 0x0B single { b with flt := b.flt.tested k }).boot
      exact ⟨(congrArg Boot.phase boot).trans bringup, (Block.fence_isTested _ _ single _ _).trans (b.flt.tested_self unitOf),
        fun j h => (Block.fence_isTested _ _ single _ _).trans (b.flt.tested_mono k h)⟩
    · exact ⟨bringup, b.flt.tested_self unitOf, fun j h => b.flt.tested_mono k h⟩

theorem testedUnits_fenceable : ∀ u ∈ testedUnits, ∃ k, fenceable (BitVec.ofNat 8 u) = some k ∧ ∀ p, k ≠ .pair p := by
  have all : testedUnits.all (fun u => match fenceable (BitVec.ofNat 8 u) with | some (.pair _) => false | some _ => true | none => false) = true := by
    decide
  intro u hu
  have := List.all_eq_true.1 all u hu
  match e : fenceable (BitVec.ofNat 8 u) with
  | some (.lane l) => exact ⟨_, rfl, by simp⟩
  | some (.tile l) => exact ⟨_, rfl, by simp⟩
  | some (.thread l) => exact ⟨_, rfl, by simp⟩
  | some (.pair l) => simp [e] at this
  | none => simp [e] at this

/-- The self-tests of a list of units, each of which fails unless it is over. -/
theorem Block.selfTests_test (us : List Nat) (units : ∀ u ∈ us, ∃ k, fenceable (BitVec.ofNat 8 u) = some k ∧ ∀ p, k ≠ .pair p) {b : Block}
    (bringup : b.boot.phase = .bringup) :
    let t := us.foldl (fun b u => b.selfTest (BitVec.ofNat 8 u) false) b
    t.boot.phase = .bringup ∧ (∀ j, b.flt.isTested j = true → t.flt.isTested j = true)
      ∧ ∀ u ∈ us, ∀ k, fenceable (BitVec.ofNat 8 u) = some k → t.flt.isTested k = true := by
  induction us generalizing b with
  | nil => exact ⟨bringup, fun _ h => h, by simp⟩
  | cons u us ih =>
    obtain ⟨k, unitOf, single⟩ := units u (by simp)
    obtain ⟨phase, self, kept⟩ := Block.selfTest_tests bringup unitOf single
    obtain ⟨phase', kept', all⟩ := ih (fun v hv => units v (by simp [hv])) phase
    refine ⟨phase', fun j h => kept' j (kept j h), fun v hv k' unitOf' => ?_⟩
    rcases List.mem_cons.1 hv with rfl | hv
    · rw [unitOf] at unitOf'
      injection unitOf' with e
      exact e ▸ kept' k self
    · exact all v hv k' unitOf'

/-! ### DRAM training (R405 to R410) -/

/-- The channels in use are populated and trained ones, all of them or a power of two. -/
theorem channelsUsed_spec (populated trained : BitVec 4) :
    channelsUsed populated trained &&& ~~~(trained &&& populated) = 0
      ∧ (trained &&& populated = populated ∨ popcount (channelsUsed populated trained) ∈ [0, 1, 2, 4]) := by
  revert populated trained
  decide

/-! ### READY (R40, R66, R635) -/

theorem Block.rollStep_boot (b : Block) :
    ∃ busy since, b.rollStep.boot = { b.boot with rollBusy := busy, otpSince := since } := by
  unfold Block.rollStep
  split
  · split <;> exact ⟨_, _, rfl⟩
  · exact ⟨_, _, rfl⟩

theorem Block.rollStep_kept (b : Block) : b.rollStep.flt = b.flt ∧ b.rollStep.ep = b.ep ∧ b.rollStep.thermos = b.thermos := by
  unfold Block.rollStep
  split
  · split <;> exact ⟨rfl, rfl, rfl⟩
  · exact ⟨rfl, rfl, rfl⟩

/-- What READY publishes of block b in block t: the boot, CAPACITY, and an epoch that starts at the present tick (R40, R66, R124). -/
structure Block.ReadyAt (b : Block) (n : BitVec 64) (t : Block) : Prop where
  boot : ∃ us target busy since, t.boot = { b.boot with
    phase := .ready, since := b.now, flashDriven := false, booted := true, bootedSlot := b.boot.hamperSlot, svn := b.boot.trySvn
    versionCounter := b.boot.tryVersion, bootUs := us, rollTarget := target, rollBusy := busy, otpSince := since }
  thermos : t.thermos = b.thermos
  capacity : t.flt.capOn = true
  running : t.ep.running = true
  base : t.ep.base = b.now
  now : t.ep.now = n

namespace Block.ReadyAt

variable {b t t' : Block} {n : BitVec 64}

theorem aside (h : b.ReadyAt n t) (beside : t.Aside t') : b.ReadyAt n t' where
  boot := by rw [beside.boot]; exact h.boot
  thermos := beside.thermos.trans h.thermos
  capacity := (congrArg Flt.capOn beside.flt).trans h.capacity
  running := (congrArg Ep.running beside.ep).trans h.running
  base := (congrArg Ep.base beside.ep).trans h.base
  now := (congrArg Ep.now beside.ep).trans h.now

theorem same (h : b.ReadyAt n t) (kept : t'.boot = t.boot ∧ t'.thermos = t.thermos ∧ t'.flt.capOn = t.flt.capOn ∧ t'.ep.running = t.ep.running
    ∧ t'.ep.base = t.ep.base ∧ t'.ep.now = t.ep.now) : b.ReadyAt n t' := by
  obtain ⟨boot, thermos, capOn, running, base, now⟩ := kept
  exact ⟨boot ▸ h.boot, thermos.trans h.thermos, capOn.trans h.capacity, running.trans h.running, base.trans h.base, now.trans h.now⟩

theorem either {p : Prop} [Decidable p] (h : b.ReadyAt n t) (h' : b.ReadyAt n t') : b.ReadyAt n (if p then t else t') := by
  split
  · exact h
  · exact h'

theorem sessionStart (h : b.ReadyAt n t) : b.ReadyAt n t.sessionStart := h.same (by simp)

theorem freshEpoch (h : b.ReadyAt n t) {e : Nat} {at_ len : Tick} {p : Plan} {mw : BitVec 16} :
    b.ReadyAt (BitVec.ofNat 64 e) (t.freshEpoch e at_ len p mw) :=
  ⟨h.boot, h.thermos, h.capacity, h.running, h.base, rfl⟩

theorem pwr (h : b.ReadyAt n t) {x : Pwr} : b.ReadyAt n { t with pwr := x } := h.same ⟨rfl, rfl, rfl, rfl, rfl, rfl⟩

theorem rollStep (h : b.ReadyAt n t) : b.ReadyAt n t.rollStep := by
  obtain ⟨flt, ep, thermos⟩ := t.rollStep_kept
  obtain ⟨busy, since, boot⟩ := t.rollStep_boot
  obtain ⟨us, target, _, _, boot'⟩ := h.boot
  refine ⟨⟨us, target, busy, since, by rw [boot, boot']⟩, thermos.trans h.thermos, ?_, ?_, ?_, ?_⟩
  · rw [flt]; exact h.capacity
  · rw [ep]; exact h.running
  · rw [ep]; exact h.base
  · rw [ep]; exact h.now

end Block.ReadyAt

theorem Block.readyEntry_publishes {b : Block} (bringup : b.boot.phase = .bringup) (done : b.broughtUp = true) : b.ReadyAt 0 b.readyEntry := by
  have published : ((b.enter .ready).releaseFlash).boot = { b.boot with phase := .ready, since := b.now, flashDriven := false } := by
    rw [Block.releaseFlash_boot, enter_boot]
  have thermos : ((b.enter .ready).releaseFlash).thermos = b.thermos := by simp
  simp only [Block.readyEntry, bringup, done, beq_self_eq_true, Bool.and_self, if_true]
  generalize (b.enter .ready).releaseFlash = b1 at published thermos ⊢
  generalize e : Block.freshEpoch _ _ _ _ _ _ = b4
  have fresh : b.ReadyAt 0 b4 := by
    rw [← e]
    refine ReadyAt.freshEpoch (n := b1.ep.now) (ReadyAt.aside ?_ ((Aside.refl _).startUnits.chooseInertial))
    exact ⟨⟨_, _, _, _, congrArg (Boot.published b.now) published⟩, thermos, rfl, rfl, rfl, rfl⟩
  have session := ReadyAt.either (p := b4.link.up) fresh.sessionStart fresh
  have rolling := session.aside (Aside.refl _).rollStart
  exact ((rolling.either session).pwr.aside (Aside.refl _).memberTurn).rollStep

/-- Settles O8: each step of bring-up from what its operation does. -/
theorem bringupAndReady : Obligations.BringupAndReady := by
  unfold Obligations.BringupAndReady
  refine ⟨fun s => ⟨fun p loading package => ?_, fun bringup => ⟨fun l untested => ?_, fun l untested live => ?_, fun late => ?_,
    fun tr m training => ?_⟩⟩, fun s => ⟨fun bringup done => ?_, fun ready busy none target => ?_, fun ready busy => ?_, fun ready idle e r => ?_⟩⟩
  · refine completes_of_act (f := Block.bringupStart p) rfl ?_
    simp [Block.bringupStart, loading, package, packageChannels, enter_boot, Block.now]
  · refine State.act_of_eq (f := Block.selfTest _ true) ?_
    have untested : s.flt.isTested (.lane l) = false := untested
    simp [Block.selfTest, fenceable_lane, bringup, untested, Flt.tested]
  · refine completes_of_act (f := Block.selfTest (BitVec.ofNat 8 (0x20 + l)) false) rfl ?_
    rw [Block.selfTest_fails bringup (fenceable_lane l) (by simp) untested,
      if_pos (show s.flt.isLive (.lane l) = true from live), Block.fence_flt _ _ (by simp)]
    exact ⟨rfl, rfl, rfl, rfl⟩
  · refine completes_of_act (f := Block.bringupTimeout) rfl ?_
    have run : s.bringupTimeout = testedUnits.foldl (fun b u => b.selfTest (BitVec.ofNat 8 u) false) s.toBlock := by
      simp [Block.bringupTimeout, bringup, ms, late]
    obtain ⟨phase, -, all⟩ := Block.selfTests_test testedUnits testedUnits_fenceable bringup
    rw [run]
    exact ⟨phase, all⟩
  · have trained := channelsUsed_spec s.den.populated tr
    have result : Block.dramTrained tr m s.toBlock = { s.toBlock with
        boot := (Block.dramTrained tr m s.toBlock).boot, den := (Block.dramTrained tr m s.toBlock).den } := rfl
    intro t
    have all : t (Block.dramTrained tr m s.toBlock) := by
      refine ⟨rfl, rfl, rfl, ?_, ?_, by simp [Block.dramTrained], ?_, rfl⟩
      all_goals
        simp only [Block.dramTrained]
        split_ifs with absent
      · simp
      · exact trained.1
      · exact .inr (by decide)
      · exact trained.2
      · simp
      · simp [absent]
    refine ⟨completes_of_act (f := Block.trainingDone tr m) rfl ?_, fun late => completes_of_act (f := Block.trainingTimeout tr m) rfl ?_⟩
    · simpa [Block.trainingDone, bringup, training] using all
    · simpa [Block.trainingTimeout, bringup, training, ms, late] using all
  · refine completes_of_act (f := Block.readyEntry) rfl ?_
    obtain ⟨⟨us, target, busy, since, boot⟩, thermos, capacity, running, base, now⟩ := Block.readyEntry_publishes bringup done
    rw [boot, thermos, Block.readyEntry_cfg]
    exact ⟨rfl, rfl, rfl, rfl, rfl, capacity, running, base, now, rfl, rfl, rfl⟩
  · refine State.act_of_eq (f := Block.programResponse false true) ?_
    have first : (List.range 64).find? (fun i => !(0 : BitVec 64).getLsbD i) = some 0 := by decide
    have next : (List.range 64).find? (fun i => !(1 : BitVec 64).getLsbD i) = some 1 := by decide
    have bit : setBit (0 : BitVec 64) 0 = 1 := by decide
    have one : popcount (1 : BitVec 64) = 1 := by decide
    simp only [Block.programResponse, Block.ready, ready, busy, none, first, bit, Block.rollStep, next, one, target, beq_self_eq_true,
      Bool.and_self, Bool.not_true, Bool.or_self, Bool.false_eq_true, if_true, if_false, lt_irrefl]
  · refine completes_of_act (f := Block.programResponse true true) rfl ?_
    simp [Block.programResponse, Block.ready, ready, busy, Block.rollFails]
  · refine State.act_of_eq (f := Block.programResponse e r) ?_
    simp [Block.programResponse, idle]

end Sys2Proof.Machine
end

section
/-! PROOF. FEAT_ACCEPT, HELLO_DONE and the HELLO timer (O9; R69 to R82). -/

namespace Sys2Proof.Machine

/-- One word of FEAT_ACCEPT replaced, the reserved bits kept zero. -/
theorem accept_word (accept : BitVec 128) (w w' : Fin 4) (v : BitVec 32) :
    ((accept ^^^ (((accept >>> (32 * w.val)).setWidth 32 ^^^ v).setWidth 128 <<< (32 * w.val))) &&& capabilities).extractLsb' (32 * w') 32
      = (if w' = w then v else accept.extractLsb' (32 * w') 32) &&& capabilities.extractLsb' (32 * w') 32 := by
  refine BitVec.eq_of_getLsbD_eq fun i hi => ?_
  rw [BitVec.extractLsb'_and, BitVec.getLsbD_and, BitVec.getLsbD_and]
  congr 1
  have inWord : 32 * w'.val + i < 128 := by omega
  by_cases same : w' = w
  · subst same
    simp [hi, inWord]
  · have apart : w'.val ≠ w.val := fun e => same (Fin.ext e)
    rw [if_neg same]
    simp only [BitVec.getLsbD_extractLsb', hi, decide_true, Bool.true_and, BitVec.getLsbD_xor, BitVec.getLsbD_shiftLeft, BitVec.getLsbD_setWidth,
      inWord]
    by_cases below : 32 * w'.val + i < 32 * w.val
    · simp [below]
    · have beyond : ¬ 32 * w'.val + i - 32 * w.val < 32 := by omega
      have high : v.getLsbD (32 * w'.val + i - 32 * w.val) = false := BitVec.getLsbD_of_ge _ _ (by omega)
      simp [beyond, high]

theorem hello_other (h : Hello) (b : Block) : b.hello h = { b with feat := (b.hello h).feat, host := (b.hello h).host, link := (b.hello h).link } :=
  Block.eq_of_fields (by simp)

theorem Block.Aside.evictAll {a b : Block} (h : a.Aside b) : a.Aside b.evictAll := by
  unfold Block.evictAll
  exact h.foldl fun _ _ h => h.evict.either h

/-- What a commit makes of the features (R76). -/
theorem Block.commitSet_feat (set : BitVec 128) (h : Hello) (b : Block) :
    (b.commitSet set h).feat = { b.feat with
      committed := set, state := h, everCommit := true, commitTick := b.now, applied := false, timer := none } := by
  unfold Block.commitSet
  dsimp only
  split
  · rw [hello_state]
  · rw [(Block.Aside.refl _).evictAll.feat, hello_state]

/-- Settles O9: the write of FEAT_ACCEPT word by word, the commits from what a commit does. -/
theorem featureCommit : Obligations.FeatureCommit := by
  unfold Obligations.FeatureCommit
  intro s ready
  have isReady : s.ready = true := by simp [Block.ready, ready]
  refine ⟨fun notDone => ⟨fun w v => ?_, fun v bit subset guests => ?_, fun v bit excess => ?_, fun u timer due quiet => ?_, fun waiting => ?_⟩,
    fun done => ⟨fun w v => ?_, fun v bit => ?_, ?_⟩⟩
  · refine completes_of_act (f := Block.acceptWrite w v) rfl ?_
    have run : s.acceptWrite w v = (if s.feat.state = .refused then Block.hello .waiting else id) { s.toBlock with feat := { s.feat with
        accept := (s.feat.accept ^^^ (((s.feat.accept >>> (32 * w.val)).setWidth 32 ^^^ v).setWidth 128 <<< (32 * w.val))) &&& capabilities } } := by
      by_cases refused : s.feat.state = .refused <;> simp [Block.acceptWrite, isReady, notDone, refused]
    rw [run]
    split_ifs with refused
    · rw [hello_state]
      exact ⟨fun w' => accept_word _ w w' v, rfl, rfl, Block.eq_of_fields (by simp [hello_state])⟩
    · exact ⟨fun w' => accept_word _ w w' v, rfl, rfl, rfl⟩
  · refine completes_of_act (f := Block.helloDone v) rfl ?_
    have run : s.helloDone v = s.commitSet s.feat.accept .committed := by simp only [Block.helloDone, isReady, bit, notDone, subset, Bool.not_true, Bool.or_self, Bool.false_eq_true, if_false, if_true]
    rw [run]
    refine ⟨Block.commitSet_feat _ _ _, ?_⟩
    rw [Block.commitSet, if_pos (by simp [featGuests, guests])]
    exact hello_other _ _
  · refine completes_of_act (f := Block.helloDone v) rfl ?_
    have run : s.helloDone v = s.hello .refused := by simp only [Block.helloDone, isReady, bit, notDone, excess, Bool.not_true, Bool.or_self, Bool.false_eq_true, if_false]
    rw [run]
    exact ⟨hello_state _ _, hello_other _ _⟩
  · refine completes_of_act (f := Block.helloExpiry s.pending) rfl ?_
    have run : s.helloExpiry s.pending = s.commitSet (if s.feat.limited then s.feat.offer else baseline &&& s.feat.offer) .baseline := by
      simp [Block.helloExpiry, quiet, timer, isReady, notDone, due]
    rw [run, Block.commitSet_feat]
    exact ⟨rfl, rfl, rfl, rfl⟩
  · refine State.act_of_eq (f := Block.helloExpiry s.pending) ?_
    simp [Block.helloExpiry, waiting]
  · refine State.act_of_eq (f := Block.acceptWrite w v) ?_
    simp [Block.acceptWrite, done]
  · refine completes_of_act (f := Block.helloDone v) rfl ?_
    have run : s.helloDone v = if s.feat.late then s.toBlock else Block.cause 1 { s.toBlock with feat := { s.feat with late := true } } := by
      simp only [Block.helloDone, isReady, bit, done, Bool.not_true, Bool.or_self, Bool.false_eq_true, if_false, if_true]
    rw [run]
    split_ifs with late
    · rw [← late]
      exact ⟨rfl, rfl⟩
    · exact ⟨by simp, Block.eq_of_fields (by simp)⟩
  · refine State.act_of_eq (f := Block.helloExpiry s.pending) ?_
    cases timer : s.feat.timer <;> simp [Block.helloExpiry, timer, done]

end Sys2Proof.Machine
end

section
/-! PROOF. How a command starts and ends (O12), and the settings commands (O11; R83 to R108). -/

namespace Sys2Proof.Machine

/-! ### Ending a command (O12, R478) -/

/-- The earliest uncompleted command of an identifier splits its queue, and a change of it changes no other. -/
theorem cmdModify_of_find {id : BitVec 32} {c : Cmd} (f : Cmd → Cmd) {l : List Cmd}
    (found : l.find? (fun c => c.id == id && c.stage != .finished) = some c) :
    ∃ pre post, l = pre ++ c :: post ∧ (∀ x ∈ pre, ¬(x.id = id ∧ x.stage ≠ .finished)) ∧ cmdModify id f l = pre ++ f c :: post := by
  induction l with
  | nil => simp at found
  | cons x l ih =>
    cases here : (x.id == id && x.stage != .finished) with
    | true =>
      simp only [List.find?_cons, here, Option.some.injEq] at found
      subst found
      exact ⟨[], l, rfl, by simp, by simp only [cmdModify, here, if_true, List.nil_append]⟩
    | false =>
      simp only [List.find?_cons, here] at found
      obtain ⟨pre, post, split, before, changed⟩ := ih found
      refine ⟨x :: pre, post, by rw [split, List.cons_append], fun y hy => ?_, by simp [cmdModify, here, changed]⟩
      rcases List.mem_cons.1 hy with rfl | hy
      · simpa using here
      · exact before y hy

theorem withCmd_queue {b : Block} {r : CmdRef} (f : Cmd → Cmd) (fits : r.q < b.host.queues.length) :
    (b.withCmd r f).host.queues.getD r.q {} =
      { b.host.queues.getD r.q {} with cmds := cmdModify r.id f (b.host.queues.getD r.q {}).cmds } := by
  simp [Block.withCmd, List.getD_eq_getElem?_getD, fits]

/-- Settles O12: ending a command changes the one command that its reference names. -/
theorem commandsEnd : Obligations.CommandsEnd := by
  unfold Obligations.CommandsEnd
  refine ⟨fun b r c st d r0 r1 found fits => ?_, fun s r => ⟨fun none => ?_, fun none => ?_, fun none => ?_, fun none => ?_⟩,
    fun s r c starts bad => ?_⟩
  · obtain ⟨pre, post, split, before, changed⟩ := cmdModify_of_find (fun c : Cmd => { c with
      stage := .finished, status := BitVec.ofNat 16 st, detail := BitVec.ofNat 32 d, result0 := BitVec.ofNat 64 r0, result1 := BitVec.ofNat 64 r1
      data := [] }) found
    refine ⟨pre, post, split, before, ?_, fun q other => withCmd_other _ _ _ _ other, rfl⟩
    rw [Block.finish, withCmd_queue _ fits, changed]
  · exact State.act_of_eq (f := Block.syncShadow r) (by simp [Block.syncShadow, Block.begin, none])
  · exact State.act_of_eq (f := Block.check r) (by simp [Block.check, Block.begin, none])
  · exact State.act_of_eq (f := Block.apply r) (by simp [Block.apply, Block.begin, none])
  · exact State.act_of_eq (f := Block.shadowWrite r) (by simp [Block.shadowWrite, Block.begin, none])
  · exact State.act_of_eq (f := Block.syncShadow r) (by simp [Block.syncShadow, Block.begin, starts, bad, stField])

/-! ### The settings commands (O11) -/

/-- A command that needs no feature runs once it is started in its turn with its fields in order (R484). -/
theorem Block.begin_eq_run_of_free {b : Block} {r : CmdRef} {op : Nat} {c : Cmd} {inRange : Cmd → Bool} (run : Cmd → Block → Block)
    (starts : b.starting r op = some c) (fields : c.fieldsOk inRange = true) (free : c.feature = none) : b.begin r op inRange run = run c b := by
  simp [Block.begin, starts, fields, free]

/-- Outputs that are driven one after the other. -/
theorem Block.drives_host {α : Type} (f : α → Out) (l : List α) (b : Block) :
    l.foldl (fun b x => b.drive (f x)) b = { b with host := { b.host with out := b.host.out ++ l.map f } } := by
  induction l generalizing b with
  | nil => simp
  | cons x l ih => rw [List.foldl_cons, ih]; simp [Block.drive]

/-- The boundary at which an accepted APPLY swaps (R97): the next one, if its plan can still be checked. -/
theorem Block.applyAt_of_running {b : Block} (running : b.pwr.paused = false) :
    b.applyAt = if b.now + 50000 ≤ b.ep.nextBoundary then (b.ep.now.toNat + 1, b.ep.nextBoundary)
      else (b.ep.now.toNat + 2, b.ep.boundary (b.ep.now.toNat + 2)) := by
  simp only [Block.applyAt, running, Bool.false_eq_true, if_false]
  rfl

/-- CHECK_COMPLETE of a set with no bad page tells what CHECK finds, and ends the command (R94, R108, R325). -/
theorem Block.checkComplete_of_checking {b : Block} {r : CmdRef} (checking : b.cfg.shadowState = .checking) (ready : b.boot.phase = .ready)
    (good : b.cfg.badPages = []) (owner : b.cfg.busyBy = some r) (x : Option Finding) (found : b.checkIn.first = x) :
    b.checkComplete =
      let res : CheckResult := (x.map fun f => { pass := false, reason := BitVec.ofNat 8 f.code, page := BitVec.ofNat 6 f.page
                                                 field := BitVec.ofNat 12 f.field }).getD { pass := true }
      Block.finish r (if x.isNone then stOk else stCheckFail) (res.reason.toNat + 256 * res.page.toNat) res.field.toNat 0 { b with
        cfg := { b.cfg with
          shadowState := if x.isNone then .pass else .fail, result := res, modelErr := BitVec.ofNat 32 ((x.map Finding.moff).getD noModelErr)
          busy := false, busyBy := none } } := by
  subst found
  simp only [Block.checkComplete, checking, Block.ready, ready, Block.checkFinds, good, owner, beq_self_eq_true, Bool.and_self, if_true, List.isEmpty_nil]
  cases b.checkIn.first <;> rfl

/-- Settles O11: each command in its turn, state by state of the shadow set. -/
theorem settingsCommands : Obligations.SettingsCommands := by
  unfold Obligations.SettingsCommands
  refine ⟨fun s r c => ⟨fun starts live set fields free => ?_, fun has needs => ⟨fun starts fields => ⟨fun busy => ?_, fun stale => ?_, fun idle => ?_⟩,
    fun starts fields => ⟨fun busy => ?_, fun armed checking => ?_⟩,
    fun starts fields => ⟨fun pass running => ?_, fun armed => ?_, fun pass armed => ?_⟩,
    fun starts fields => ⟨fun busy => ?_, fun armed checking => ?_⟩⟩⟩,
    fun s r checking ready good owner => ⟨fun passes => ?_, fun f fails => ?_⟩⟩
  · refine completes_of_act (f := Block.settingsRead r) rfl ?_
    have run : s.settingsRead r = s.begin r 0x10 (fun c => decide (c.arg 24 1 ≤ 1) && pagesOk c && c.arg 16 4 == 4096 * c.arg 26 1) _ := if_neg (by simp [live])
    rw [run, Block.begin_eq_run_of_free _ starts fields free]
    dsimp only
    rw [Block.drives_host]
    rfl
  · refine State.act_of_eq (f := Block.shadowWrite r) ?_
    rw [Block.shadowWrite, Block.begin_eq_run _ starts fields needs has]
    rcases busy with e | e <;> simp only [e, stBusy]
  · refine State.act_of_eq (f := Block.shadowWrite r) ?_
    rw [Block.shadowWrite, Block.begin_eq_run _ starts fields needs has]
    simp only [stale, stStale]
  · refine completes_of_act (f := Block.shadowWrite r) rfl ?_
    rw [Block.shadowWrite, Block.begin_eq_run _ starts fields needs has]
    dsimp only
    split
    · simp_all
    · simp_all
    · simp_all
    · exact ⟨rfl, rfl, rfl⟩
  · refine State.act_of_eq (f := Block.check r) ?_
    rw [Block.check, Block.begin_eq_run _ starts fields needs has]
    rcases busy with e | e <;> simp only [e, stBusy]
  · refine completes_of_act (f := Block.check r) rfl ?_
    rw [Block.check, Block.begin_eq_run _ starts fields needs has]
    dsimp only
    split
    · exact absurd ‹_› armed
    · exact absurd ‹_› checking
    · exact ⟨rfl, rfl, rfl⟩
  · refine completes_of_act (f := Block.apply r) rfl ?_
    rw [Block.apply, Block.begin_eq_run _ starts fields needs has]
    simp only [pass, Block.applyAt_of_running running]
    refine ⟨?_, trivial, by split <;> rfl⟩
    split <;> rfl
  · refine State.act_of_eq (f := Block.apply r) ?_
    rw [Block.apply, Block.begin_eq_run _ starts fields needs has]
    simp only [armed, stPending]
  · refine State.act_of_eq (f := Block.apply r) ?_
    rw [Block.apply, Block.begin_eq_run _ starts fields needs has]
    dsimp only
    split
    · exact absurd ‹_› pass
    · exact absurd ‹_› armed
    · rfl
  · refine State.act_of_eq (f := Block.syncShadow r) ?_
    rw [Block.syncShadow, Block.begin_eq_run _ starts fields needs has]
    rcases busy with e | e <;> simp only [e, stBusy]
  · refine State.act_of_eq (f := Block.syncShadow r) ?_
    rw [Block.syncShadow, Block.begin_eq_run _ starts fields needs has]
    dsimp only
    split
    · exact absurd ‹_› armed
    · exact absurd ‹_› checking
    · rfl
  · refine State.act_of_eq (f := Block.checkComplete) ?_
    rw [Block.checkComplete_of_checking checking ready good owner _ passes]
    rfl
  · refine completes_of_act (f := Block.checkComplete) rfl ?_
    rw [Block.checkComplete_of_checking checking ready good owner _ fails]
    exact ⟨rfl, rfl, rfl⟩

end Sys2Proof.Machine
end

section
/-! PROOF. The link's ups and downs and the Function Level Reset (O10; R67, R505 to R507). -/

namespace Sys2Proof.Machine

/-! ### A queue that is disabled -/

/-- What an operation that drops the commands of queues may touch: their work, and no stream. -/
structure Block.Drops (a b : Block) : Prop where
  other : b = { a with cfg := b.cfg, owl := b.owl, badger := b.badger, host := b.host }
  cfg : b.cfg = { a.cfg with armed := b.cfg.armed, shadowState := b.cfg.shadowState, busy := b.cfg.busy, busyBy := b.cfg.busyBy }
  host : b.host = { a.host with queues := b.host.queues }

namespace Block.Drops

theorem refl (b : Block) : b.Drops b := ⟨rfl, rfl, rfl⟩

theorem trans {a b c : Block} (ab : a.Drops b) (bc : b.Drops c) : a.Drops c := by
  refine ⟨?_, ?_, ?_⟩
  · rw [bc.other, ab.other]
  · rw [bc.cfg, ab.cfg]
  · rw [bc.host, ab.host]

theorem dropWork (b : Block) (r : CmdRef) : b.Drops (b.dropWork r) := ⟨rfl, rfl, rfl⟩

theorem orphan (b : Block) (q : Fin 16) : b.Drops (b.orphan q) := ⟨rfl, rfl, rfl⟩

end Block.Drops

/-- What drops the work of a queue's commands leaves the queues. -/
structure Block.DropsWork (a b : Block) : Prop extends a.Drops b where
  queues : b.host.queues = a.host.queues

theorem Block.DropsWork.fold (q : Fin 16) (cmds : List Cmd) (b : Block) :
    b.DropsWork (cmds.foldl (fun b c => if b.pastCommit ⟨q, c.id⟩ c then b else b.dropWork ⟨q, c.id⟩) b) := by
  induction cmds generalizing b with
  | nil => exact ⟨.refl b, rfl⟩
  | cons c cmds ih =>
    rw [List.foldl_cons]
    split
    · exact ih b
    · exact ⟨(Drops.dropWork b _).trans (ih _).toDrops, (ih _).queues⟩

/-- A disabled queue is empty, and no other queue changes (R507). -/
theorem Block.queueOff_drops (b : Block) (q : Fin 16) :
    b.Drops (b.queueOff q) ∧ (b.queueOff q).host.queues = b.host.queues.modify q Queue.off := by
  have work := DropsWork.fold q (b.host.queues.getD q {}).cmds b
  rw [Block.queueOff, Block.endQueue]
  dsimp only
  generalize List.foldl _ b _ = b1 at work ⊢
  refine ⟨work.toDrops.trans ⟨rfl, rfl, rfl⟩, ?_⟩
  show (b1.host.queues.modify q fun x => { x with cmds := [] }).modify q Queue.off = b.host.queues.modify q Queue.off
  rw [List.modify_modify_eq, work.queues]
  rfl

/-- A queue that an FLR has disabled. -/
def Queue.isOff (x : Queue) : Prop := x.enabled = false ∧ x.cmds = []

/-- An FLR disables queue after queue. -/
theorem Block.flrQueues (l : List (Fin 16)) (b : Block) :
    b.Drops (l.foldl (fun b q => b.queueOff q) b) ∧ (l.foldl (fun b q => b.queueOff q) b).host.queues.length = b.host.queues.length ∧
      ∀ (i : Fin 16) (x : Queue), (i ∈ l ∨ ∀ y, b.host.queues[i.val]? = some y → y.isOff) →
        (l.foldl (fun b q => b.queueOff q) b).host.queues[i.val]? = some x → x.isOff := by
  induction l generalizing b with
  | nil => exact ⟨.refl b, rfl, fun i x h here => h.elim (fun none => absurd none List.not_mem_nil) fun off => off x here⟩
  | cons q l ih =>
    obtain ⟨drops, queues⟩ := b.queueOff_drops q
    obtain ⟨restDrops, length, rest⟩ := ih (b.queueOff q)
    refine ⟨drops.trans restDrops, by rw [List.foldl_cons, length, queues, List.length_modify], fun i x off here => rest i x ?_ here⟩
    by_cases same : i = q
    · subst same
      refine Or.inr fun y changed => ?_
      rw [queues, List.getElem?_modify_eq] at changed
      obtain ⟨z, -, rfl⟩ := Option.map_eq_some_iff.1 changed
      exact ⟨rfl, rfl⟩
    · rcases off with mem | off
      · exact Or.inl ((List.mem_cons.1 mem).resolve_left same)
      · refine Or.inr fun y unchanged => off y ?_
        have apart : q.val ≠ i.val := fun e => same (Fin.ext e.symm)
        rwa [queues, List.getElem?_modify_ne _ _ apart] at unchanged

theorem Block.flrEffect_drops (b : Block) :
    b.flrEffect = { b with cfg := b.flrEffect.cfg, owl := b.flrEffect.owl, badger := b.flrEffect.badger, host := b.flrEffect.host
                           feat := { b.feat with timer := none }, den := { b.den with windows := List.replicate 8 none } }
      ∧ b.flrEffect.cfg = { b.cfg with armed := b.flrEffect.cfg.armed, shadowState := b.flrEffect.cfg.shadowState
                                       busy := b.flrEffect.cfg.busy, busyBy := b.flrEffect.cfg.busyBy }
      ∧ b.flrEffect.host.streams = b.host.streams.map Stream.shut
      ∧ (b.host.queues.length = 16 → ∀ x ∈ b.flrEffect.host.queues, x.isOff) := by
  obtain ⟨⟨other, cfg, host⟩, length, off⟩ := Block.flrQueues (List.finRange 16) b
  rw [Block.flrEffect]
  dsimp only [Block.sessionEnd]
  generalize List.foldl _ b _ = b1 at *
  refine ⟨by rw [other], cfg, by rw [host], fun all x mem => ?_⟩
  obtain ⟨i, bound, rfl⟩ := List.mem_iff_getElem.1 mem
  exact off ⟨i, by omega⟩ _ (Or.inl (List.mem_finRange _)) (List.getElem?_eq_getElem bound)

theorem cmdModify_nil (id : BitVec 32) (f : Cmd → Cmd) : cmdModify id f [] = [] := rfl

/-- A command of a queue that is off is none. -/
theorem withCmd_off {b : Block} {r : CmdRef} {f : Cmd → Cmd} (off : ∀ x ∈ b.host.queues, x.isOff) :
    ∀ x ∈ (b.withCmd r f).host.queues, x.isOff := by
  intro x mem
  obtain ⟨i, bound, rfl⟩ := List.mem_iff_getElem.1 mem
  simp only [Block.withCmd, List.length_modify] at bound
  have was := off _ (List.getElem_mem bound)
  simp only [Block.withCmd, List.getElem_modify]
  split
  · exact ⟨was.1, by simp only [was.2, cmdModify_nil]⟩
  · exact was

/-- A scoring job that enters Owl is at its commit point, and nothing else changes. -/
theorem Block.owlEnter_drops (b : Block) :
    b.owlEnter = { b with owl := b.owlEnter.owl, host := b.owlEnter.host } ∧ b.owlEnter.host.streams = b.host.streams
      ∧ ((∀ x ∈ b.host.queues, x.isOff) → ∀ x ∈ b.owlEnter.host.queues, x.isOff) := by
  unfold Block.owlEnter
  split
  · exact ⟨rfl, rfl, id⟩
  · split
    · exact ⟨rfl, rfl, id⟩
    · dsimp only
      split
      · exact ⟨rfl, rfl, fun off => withCmd_off off⟩
      · exact ⟨rfl, rfl, id⟩

/-! ### Links that come and go -/

theorem Stream.lose_of_open {x : Stream} (opened : x.lose.isOpen = true) : x.lose.held = true ∧ x.lose.out = [] := by
  unfold Stream.lose at opened ⊢
  split_ifs at opened ⊢ with h
  · exact ⟨rfl, rfl⟩
  · exact absurd opened h

theorem Block.hold_holds (b : Block) :
    (∀ q ∈ b.hold.host.queues, q.enabled = true → q.held = true)
      ∧ ∀ x ∈ b.hold.host.streams, x.isOpen = true → x.held = true ∧ x.out = [] := by
  refine ⟨fun q mem on => ?_, fun x mem opened => ?_⟩
  · obtain ⟨q', -, rfl⟩ := List.mem_map.1 mem
    simpa using Or.inr on
  · obtain ⟨x', -, rfl⟩ := List.mem_map.1 mem
    exact Stream.lose_of_open opened

/-- A session starts with its offer and its timer, and FEAT_ACCEPT zero (R69, R75). -/
theorem Block.sessionStart_feat (b : Block) : b.sessionStart.feat = { b.feat with
    accept := 0, late := false, offer := if b.ready then b.newOffer.1 else 0, limited := b.newOffer.2
    timer := if b.ready then some (b.now + ms 500) else none, state := if b.ready then .waiting else .notReady } :=
  hello_state _ _

/-- A change of the HELLO state tells the host. -/
theorem Block.hello_told (h : Hello) (b : Block) :
    (b.hello h).link = { b.link with pba := (b.hello h).link.pba } ∧ (b.hello h).host.queues = b.host.queues
      ∧ (b.hello h).host.streams = b.host.streams := by
  unfold Block.hello
  split
  · exact ⟨rfl, rfl, rfl⟩
  · rw [Block.cause]
    split <;> exact ⟨rfl, rfl, rfl⟩

theorem Block.sessionStart_told (b : Block) :
    b.sessionStart.link = { b.link with pba := b.sessionStart.link.pba } ∧ b.sessionStart.host.queues = b.host.queues
      ∧ b.sessionStart.host.streams = b.host.streams ∧ b.sessionStart.map = { b.map with saidFull := 0 } := by
  obtain ⟨link, queues, streams⟩ := Block.hello_told (if b.ready then .waiting else .notReady) { b with
    map := { b.map with saidFull := 0 }
    feat := { b.feat with accept := 0, late := false, offer := if b.ready then b.newOffer.1 else 0, limited := b.newOffer.2
                          timer := if b.ready then some (b.now + ms 500) else none } }
  exact ⟨link, queues, streams, by simp [Block.sessionStart]⟩

theorem Stream.shut_closed (x : Stream) : x.shut.isOpen = false ∧ x.shut.out = [] := ⟨rfl, rfl⟩

/-- Settles O10: by what each of the four commands does to the queues, the streams and the session. -/
theorem linkAndSessions : Obligations.LinkAndSessions := by
  unfold Obligations.LinkAndSessions
  intro s
  refine ⟨fun v bme msix ptm ready down closed => ?_, fun v bme msix ptm up => ?_, fun down => ?_, fun up => ?_, fun on => ?_, fun up all => ?_⟩
  · refine completes_of_act (f := Block.linkUp v bme msix ptm) rfl ?_
    have run : s.linkUp v bme msix ptm = Block.sessionStart { s.toBlock with
        link := { s.link with up := true, pm := .l0, speed := v, bme := bme, msixOn := msix, ptm := ptm }
        tim := { s.tim with due := s.now, deferred := false } } := by simp [Block.linkUp, down, ready]
    rw [run]
    obtain ⟨link, queues, streams, map⟩ := Block.sessionStart_told { s.toBlock with
        link := { s.link with up := true, pm := .l0, speed := v, bme := bme, msixOn := msix, ptm := ptm }
        tim := { s.tim with due := s.now, deferred := false } }
    refine ⟨by rw [link], by rw [link], by rw [link], by rw [link], by rw [link], by rw [link], ?_, ?_, ?_, ?_, ?_, ?_, by simp, map, queues, streams,
      Block.eq_of_fields (by simp)⟩ <;> rw [Block.sessionStart_feat]
    · simp [Block.newOffer, closed, Block.ready, ready, Block.offerValue]
    · simp [Block.ready, ready]
    · simp [Block.ready, ready, ms, Block.now]
  · exact State.act_of_eq (f := Block.linkUp v bme msix ptm) (by simp [Block.linkUp, up])
  · exact State.act_of_eq (f := Block.linkDown) (by simp [Block.linkDown, down])
  · refine completes_of_act (f := Block.linkDown) rfl ?_
    rw [Block.linkDown, if_pos up]
    refine ⟨rfl, rfl, rfl, rfl, fun q _ => ?_, s.hold_holds.2, rfl⟩
    show (s.host.queues.map fun q => { q with held := q.held || q.enabled }).getD q {} = _
    rw [List.getD_eq_getElem?_getD, List.getD_eq_getElem?_getD, List.getElem?_map]
    cases s.host.queues[q]? <;> rfl
  · refine completes_of_act (f := Block.busMasterOff) rfl ?_
    rw [Block.busMasterOff, if_pos on]
    exact ⟨rfl, s.hold_holds.1, s.hold_holds.2, rfl⟩
  · refine completes_of_act (f := Block.flr) rfl ?_
    rw [Block.flr, if_pos up]
    dsimp only
    obtain ⟨other, cfg, streams, off⟩ := s.flrEffect_drops
    generalize s.flrEffect = b1 at *
    obtain ⟨other', streams', off'⟩ := b1.owlEnter_drops
    generalize b1.owlEnter = b2 at *
    generalize e : ({ b2 with link := _, tim := _ } : Block) = b3
    obtain ⟨link, queuesTold, streamsTold, map⟩ := b3.sessionStart_told
    have queues : b3.host.queues = b2.host.queues := by rw [← e]
    have held : b3.host.streams = s.host.streams.map Stream.shut := by rw [← e, streams', streams]
    have den : b3.den = { s.den with windows := List.replicate 8 none } := by rw [← e, other', other]
    have settings : b3.cfg.active = s.cfg.active ∧ b3.cfg.shadow = s.cfg.shadow ∧ b3.cfg.gen = s.cfg.gen := by
      rw [← e, other', cfg]
      exact ⟨rfl, rfl, rfl⟩
    have keyframes : b3.map = s.map := by rw [← e, other', other]
    have epochs : b3.ep = s.ep := by rw [← e, other', other]
    have linkKept : b3.sessionStart.link.up = true ∧ b3.sessionStart.link.bme = false := by
      rw [link, ← e, other', other]
      exact ⟨up, rfl⟩
    simp only [Block.sessionStart_frame, Block.sessionStart_feat, map, linkKept, queuesTold, streamsTold, queues, held, den, settings, keyframes,
      epochs, and_self, and_true]
    refine ⟨off' (off all), fun x mem => ?_⟩
    obtain ⟨y, -, rfl⟩ := List.mem_map.1 mem
    exact y.shut_closed

end Sys2Proof.Machine
end

section
/-! PROOF. The plan of the next epoch and the voltages around its boundary (O13; R24, R27, R589 to R591). -/

namespace Sys2Proof.Machine

/-! ### The raises of R591 -/

theorem ppGet_ppSet (p : PPoints) (i j : Dvfs) (v : Fin 6) : ppGet (ppSet p i v) j = if j = i then v else ppGet p j := by
  cases i <;> cases j <;> rfl

/-- The raise that is taken is of an island below its ceiling (R591). -/
theorem bestRaise_below {ceil pp : PPoints} {p : Projection} {r : Raise} (best : bestRaise ceil pp p = some r) :
    ppGet ceil r.island < ppGet pp r.island := by
  have keeps : ∀ (better : Raise → Raise → Bool) (l : List Raise) (start : Option Raise),
      (∀ x ∈ l, ppGet ceil x.island < ppGet pp x.island) → (∀ x, start = some x → ppGet ceil x.island < ppGet pp x.island) →
      ∀ x, l.foldl (fun best r => match best with | some x => if better r x then some r else some x | none => some r) start = some x →
        ppGet ceil x.island < ppGet pp x.island := by
    intro better l
    induction l with
    | nil => exact fun start _ here x e => here x e
    | cons y l ih =>
      intro start below here
      rw [List.foldl_cons]
      refine ih _ (fun x mem => below x (List.mem_cons_of_mem _ mem)) fun x e => ?_
      have head := below y List.mem_cons_self
      split at e
      · split at e
        · obtain rfl := Option.some.inj e
          exact head
        · exact here x e
      · obtain rfl := Option.some.inj e
        exact head
  refine keeps _ _ none (fun x mem => ?_) (by simp) r best
  obtain ⟨i, -, found⟩ := List.mem_filterMap.1 mem
  have holds := List.find?_some found
  simp only [Bool.and_eq_true, beq_iff_eq, decide_eq_true_eq] at holds
  rw [holds.1]
  exact holds.2

/-- One raise leaves every island between its ceiling and where it was. -/
theorem raise_between {ceil pp : PPoints} {r : Raise} (below : ppGet ceil r.island < ppGet pp r.island) {i : Dvfs}
    (within : ppGet ceil i ≤ ppGet pp i) :
    ppGet ceil i ≤ ppGet (ppSet pp r.island (pPoint ((ppGet pp r.island).val - 1))) i
      ∧ ppGet (ppSet pp r.island (pPoint ((ppGet pp r.island).val - 1))) i ≤ ppGet pp i := by
  rw [ppGet_ppSet]
  split
  · subst i
    have value : (pPoint ((ppGet pp r.island).val - 1)).val = (ppGet pp r.island).val - 1 := by
      simp only [pPoint, Fin.ofNat, Nat.min_def]
      split <;> omega
    simp only [Fin.le_def, Fin.lt_def, value] at *
    omega
  · exact ⟨within, le_refl _⟩

theorem raiseSteps_between (ceil : PPoints) (budget : Nat) (i : Dvfs) (rs : List Projection) (pp : PPoints) (p : Projection)
    (within : ppGet ceil i ≤ ppGet pp i) :
    ppGet ceil i ≤ ppGet (raiseSteps ceil budget pp p rs).1 i ∧ ppGet (raiseSteps ceil budget pp p rs).1 i ≤ ppGet pp i := by
  induction rs generalizing pp p with
  | nil =>
    rw [raiseSteps]
    split_ifs
    · exact ⟨within, le_refl _⟩
    · split
      · split_ifs
        · exact ⟨within, le_refl _⟩
        · exact raise_between (bestRaise_below ‹_›) within
      · exact ⟨within, le_refl _⟩
  | cons q qs ih =>
    rw [raiseSteps]
    split_ifs
    · exact ⟨within, le_refl _⟩
    · split
      · split_ifs
        · exact ⟨within, le_refl _⟩
        · have step := raise_between (bestRaise_below ‹_›) within
          have rest := ih _ q step.1
          exact ⟨rest.1, le_trans rest.2 step.2⟩
      · exact ⟨within, le_refl _⟩

theorem raiseSteps_budget (ceil : PPoints) (budget : Nat) (rs : List Projection) (pp : PPoints) (p : Projection)
    (each : ∀ q ∈ rs, q.mw.toNat ≤ budget) :
    (raiseSteps ceil budget pp p rs).2 = p ∨ (raiseSteps ceil budget pp p rs).2.mw.toNat ≤ budget := by
  induction rs generalizing pp p with
  | nil =>
    rw [raiseSteps]
    split_ifs
    · exact Or.inl rfl
    · split
      · split_ifs with dear
        · exact Or.inl rfl
        · exact Or.inr (by simpa using dear)
      · exact Or.inl rfl
  | cons q qs ih =>
    rw [raiseSteps]
    split_ifs
    · exact Or.inl rfl
    · split
      · split_ifs
        · exact Or.inl rfl
        · have head := each q List.mem_cons_self
          rcases ih _ q (fun x mem => each x (List.mem_cons_of_mem _ mem)) with e | le
          · exact Or.inr (by rw [e]; exact head)
          · exact Or.inr le
      · exact Or.inl rfl

/-- No raise where nothing is late. -/
theorem raiseSteps_of_punctual (ceil : PPoints) (budget : Nat) (pp : PPoints) {p : Projection} (rs : List Projection)
    (vio : p.vioLate = false) (jobs : p.behind = false) : raiseSteps ceil budget pp p rs = (pp, p) := by
  cases rs <;> simp [raiseSteps, vio, jobs]

/-- No raise that exceeds the budget. -/
theorem raiseSteps_of_dear {ceil : PPoints} {budget : Nat} {pp : PPoints} {p : Projection} (rs : List Projection) {r : Raise}
    (best : bestRaise ceil pp p = some r) (dear : budget < r.mw.toNat) : raiseSteps ceil budget pp p rs = (pp, p) := by
  cases rs <;> simp [raiseSteps, best, dear]

/-! ### The plan -/

theorem Block.planOf_reason (x : PlanIn) (b : Block) :
    (b.planOf x).made = b.now ∧ ((b.planOf x).why = .none → (b.planOf x).burst = false ∧ (b.planOf x).pp = (b.planOf x).lowPp ∧ (b.planOf x).mw = (b.planOf x).lowMw) := by
  refine ⟨rfl, fun none => ?_⟩
  have reason : burstReason (raiseSteps (ppOf b.ceilingOf) b.sustainedBudget (ppOf b.floorOf) (x.steps.headD ⟨0, false, false, false, []⟩)
      x.steps.tail).2 = .none := none
  simp only [Block.planOf, reason, bne_self_eq_false, Bool.false_and, Bool.false_eq_true, if_false, and_self]

/-- A journal commit of the epoch writes the journal alone, and only where it is due (R24). -/
theorem Block.journalOnce_parts (b : Block) :
    b.journalOnce.ep = { b.ep with journaled := b.ep.journaled || (b.afu.posed && !b.pwr.paused) }
      ∧ b.journalOnce.thermos = { b.thermos with journal := b.journalOnce.thermos.journal, journalUe := b.journalOnce.thermos.journalUe }
      ∧ (b.afu.posed = false ∨ b.ep.journaled = true → b.journalOnce.thermos = b.thermos) := by
  unfold Block.journalOnce
  have journal := Block.journal_thermos none b
  have epoch : (b.journal none).ep = b.ep := by simp
  dsimp only
  generalize b.journal none = b1 at *
  split
  · rename_i due
    simp only [Bool.and_eq_true, Bool.not_eq_true'] at due
    obtain ⟨⟨posed, not⟩, running⟩ := due
    refine ⟨by simp [epoch, posed, not, running], journal, fun idle => ?_⟩
    rcases idle with e | e <;> simp [e] at posed not
  · rename_i idle
    refine ⟨?_, rfl, fun _ => rfl⟩
    have same : (b.ep.journaled || (b.afu.posed && !b.pwr.paused)) = b.ep.journaled := by
      revert idle
      cases b.ep.journaled <;> cases b.afu.posed <;> cases b.pwr.paused <;> simp
    rw [same]

/-- The inputs of a plan move no P-point. -/
theorem Block.inputs_pp (b : Block) : b.govLatch.skinCheck.thermalStep.pwr.pp = b.pwr.pp := by
  have step : ∀ b : Block, b.thermalStep.pwr.pp = b.pwr.pp := by
    intro b
    unfold Block.thermalStep
    dsimp only
    split <;> simp
  have check : ∀ b : Block, b.skinCheck.pwr.pp = b.pwr.pp := by
    intro b
    unfold Block.skinCheck
    dsimp only
    split <;> simp
  rw [step, check]
  rfl

/-- Settles O13: the plan by its deadline, the raises by the budget and the ceilings, the voltages by their windows. -/
theorem plansAndVoltages : Obligations.PlansAndVoltages := by
  unfold Obligations.PlansAndVoltages
  refine ⟨fun s p u ready next => ⟨fun early => ?_, fun late => ?_⟩, fun ceil budget pp p rs => ⟨raiseSteps_of_punctual _ _ _ _, fun r => raiseSteps_of_dear _,
    raiseSteps_budget _ _ _ _ _, fun i => raiseSteps_between _ _ _ _ _ _⟩, fun s i u ready next packaged => ⟨fun future near higher => ?_, fun outside => ?_,
    fun near lower arrived => ?_, fun far => ?_⟩⟩
  · refine completes_of_act (f := Block.planCommit p) rfl ?_
    have run : s.planCommit p = { s.journalOnce.govLatch.skinCheck.thermalStep with
        ep := { s.journalOnce.govLatch.skinCheck.thermalStep.ep with next := some (s.journalOnce.govLatch.skinCheck.thermalStep.planOf p) }
        map := { s.journalOnce.govLatch.skinCheck.thermalStep.map with moved := 0 } } := by
      simp [Block.planCommit, next, Block.ready, ready, early]
    obtain ⟨epoch, journal, idle⟩ := s.journalOnce_parts
    rw [run]
    obtain ⟨made, why⟩ := s.journalOnce.govLatch.skinCheck.thermalStep.planOf_reason p
    generalize s.journalOnce.govLatch.skinCheck.thermalStep.planOf p = q at *
    have points := s.journalOnce.inputs_pp
    have kept : s.journalOnce.govLatch.skinCheck.thermalStep.map = s.map ∧ s.journalOnce.govLatch.skinCheck.thermalStep.cfg = s.cfg
      ∧ s.journalOnce.govLatch.skinCheck.thermalStep.den = s.den ∧ s.journalOnce.pwr = s.pwr := by simp
    have later : s.journalOnce.govLatch.skinCheck.thermalStep.ep = s.journalOnce.ep
      ∧ s.journalOnce.govLatch.skinCheck.thermalStep.thermos = s.journalOnce.thermos := by simp
    simp only [Block.now, later] at made
    generalize s.journalOnce.govLatch.skinCheck.thermalStep = b2 at *
    obtain ⟨map, cfg, den, pwr⟩ := kept
    refine ⟨⟨q, ?_, ?_, why⟩, ?_, cfg, den, ?_, ?_, fun none => ?_⟩
    · rw [later.1, epoch]
    · rw [made, journal]
      rfl
    · rw [map]
    · rw [points, pwr]
    · rw [later.2]
      exact journal
    · rw [later.2]
      exact idle none
  · refine State.act_of_eq (f := Block.planCommit p) ?_
    simp [Block.planCommit, next, Nat.not_le.2 late]
  · refine State.act_of_eq (f := Block.voltageRaise i) ?_
    simp [Block.voltageRaise, next, future, near, higher, Block.ready, ready, Block.hooked, packaged]
  · refine State.act_of_eq (f := Block.voltageRaise i) ?_
    rcases outside with far | past
    · simp [Block.voltageRaise, next, Nat.not_le.2 far]
    · simp [Block.voltageRaise, next, Nat.not_lt.2 past]
  · refine State.act_of_eq (f := Block.voltageLower i) ?_
    simp [Block.voltageLower, near, lower, arrived, Block.ready, ready, Block.hooked, packaged]
  · refine State.act_of_eq (f := Block.voltageLower i) ?_
    simp [Block.voltageLower, Nat.not_le.2 far]

end Sys2Proof.Machine
end

section
/-! PROOF. The boundary of an epoch: the next one starts, or the pause that is due (O14; R21, R98, R600). -/

namespace Sys2Proof.Machine

/-! ### What a boundary does before the epoch's own fields -/

/-- The work of a boundary leaves the boot, the Thermos domain, the settings, the epoch and its common instant, and is no pause. -/
structure Block.SameEpoch (a b : Block) : Prop where
  boot : b.boot = a.boot
  thermos : b.thermos = a.thermos
  cfg : b.cfg = a.cfg
  paused : b.pwr.paused = a.pwr.paused
  now : b.ep.now = a.ep.now
  next : b.ep.next = a.ep.next
  plan : b.ep.plan = a.ep.plan
  start : b.ep.start = a.ep.start
  tc : b.afu.tc = a.afu.tc
  tcNext : b.afu.tcNext = a.afu.tcNext

namespace Block.SameEpoch

theorem refl (a : Block) : a.SameEpoch a := ⟨rfl, rfl, rfl, rfl, rfl, rfl, rfl, rfl, rfl, rfl⟩

variable {a b c : Block}

theorem trans (ab : a.SameEpoch b) (bc : b.SameEpoch c) : a.SameEpoch c where
  boot := bc.boot.trans ab.boot
  thermos := bc.thermos.trans ab.thermos
  cfg := bc.cfg.trans ab.cfg
  paused := bc.paused.trans ab.paused
  now := bc.now.trans ab.now
  next := bc.next.trans ab.next
  plan := bc.plan.trans ab.plan
  start := bc.start.trans ab.start
  tc := bc.tc.trans ab.tc
  tcNext := bc.tcNext.trans ab.tcNext

/-- An operation that keeps these fields whole keeps the epoch. -/
theorem of_frame (boot : b.boot = a.boot) (thermos : b.thermos = a.thermos) (cfg : b.cfg = a.cfg) (pwr : b.pwr = a.pwr) (ep : b.ep = a.ep)
    (afu : b.afu = a.afu) : a.SameEpoch b where
  boot := boot
  thermos := thermos
  cfg := cfg
  paused := by rw [pwr]
  now := by rw [ep]
  next := by rw [ep]
  plan := by rw [ep]
  start := by rw [ep]
  tc := by rw [afu]
  tcNext := by rw [afu]

theorem by_frame (h : a.SameEpoch b)
    (same : (c.boot = b.boot ∧ c.thermos = b.thermos ∧ c.cfg = b.cfg) ∧ c.pwr = b.pwr ∧ c.ep = b.ep ∧ c.afu = b.afu) : a.SameEpoch c :=
  h.trans (of_frame same.1.1 same.1.2.1 same.1.2.2 same.2.1 same.2.2.1 same.2.2.2)

/-- The supplies change, and no pause begins or ends. -/
theorem pwr (h : a.SameEpoch b) {p : Pwr} {flt : Flt} {den : Den} {feat : Feat} (same : p.paused = b.pwr.paused) :
    a.SameEpoch { b with pwr := p, flt := flt, den := den, feat := feat } :=
  h.trans ⟨rfl, rfl, rfl, same, rfl, rfl, rfl, rfl, rfl, rfl⟩

theorem afu (h : a.SameEpoch b) {x : Afu} (tc : x.tc = b.afu.tc) (next : x.tcNext = b.afu.tcNext) : a.SameEpoch { b with afu := x } :=
  h.trans ⟨rfl, rfl, rfl, rfl, rfl, rfl, rfl, rfl, tc, next⟩

theorem event (h : a.SameEpoch b) {code : Nat} {unit : BitVec 8} {body : Bytes} : a.SameEpoch (b.event code unit body) := h.by_frame (by simp)

theorem diag (h : a.SameEpoch b) {code : Nat} {unit : BitVec 8} {body : Bytes} : a.SameEpoch (b.diag code unit body) := h.by_frame (by simp)

theorem either {p : Prop} [Decidable p] (hb : a.SameEpoch b) (hc : a.SameEpoch c) : a.SameEpoch (if p then b else c) := by
  split
  · exact hb
  · exact hc

theorem foldl {α : Type} {f : Block → α → Block} {l : List α} (h : a.SameEpoch b) (step : ∀ b x, a.SameEpoch b → a.SameEpoch (f b x)) :
    a.SameEpoch (l.foldl f b) := by
  induction l generalizing b with
  | nil => exact h
  | cons x l ih => exact ih (step b x h)

theorem evictAll (h : a.SameEpoch b) : a.SameEpoch b.evictAll := by
  unfold Block.evictAll
  exact h.foldl fun b s h => (h.by_frame (by simp)).either h

theorem applyFeatures (h : a.SameEpoch b) {made : Tick} : a.SameEpoch (b.applyFeatures made) := by
  unfold Block.applyFeatures
  refine Block.SameEpoch.either ?_ h
  dsimp only
  generalize setNeeds b.cfg.active &&& ~~~b.feat.committed = left
  have start : a.SameEpoch { b with feat := { b.feat with inForce := b.feat.committed, applied := true } } :=
    h.trans ⟨rfl, rfl, rfl, rfl, rfl, rfl, rfl, rfl, rfl, rfl⟩
  generalize ({ b with feat := { b.feat with inForce := b.feat.committed, applied := true } } : Block) = b1 at start ⊢
  have told : a.SameEpoch (if left = 0 then b1 else b1.event 0x0019 noUnit (leBytes 16 left.toNat)) := start.either start.event
  generalize (if left = 0 then b1 else b1.event 0x0019 noUnit (leBytes 16 left.toNat)) = b2 at told ⊢
  have priors : a.SameEpoch (if left.getLsbD featPriors then { b2 with afu := { b2.afu with priors := List.replicate 16 [] } } else b2) :=
    either (told.afu rfl rfl) told
  generalize (if left.getLsbD featPriors then { b2 with afu := { b2.afu with priors := List.replicate 16 [] } } else b2) = b3 at priors ⊢
  have guests : a.SameEpoch (if left.getLsbD featGuests then b3.evictAll else b3) := priors.evictAll.either priors
  generalize (if left.getLsbD featGuests then b3.evictAll else b3) = b4 at guests ⊢
  exact (guests.by_frame (by simp)).either guests

theorem stepRate (h : a.SameEpoch b) {n : Nat} {t made : Tick} {cap : Nat} : a.SameEpoch (b.stepRate n t made cap) := by
  unfold Block.stepRate
  dsimp only
  generalize (if b.ep.changeAt ≤ made then b.flt.step else b.ep.k) = k
  generalize e : ({ b with ep := _ } : Block) = b1
  have start : a.SameEpoch b1 := by
    subst e
    exact h.trans ⟨rfl, rfl, rfl, rfl, rfl, rfl, rfl, rfl, rfl, rfl⟩
  exact start.event.either start

theorem burstEnd (h : a.SameEpoch b) {cause : Nat} {t since : Tick} : a.SameEpoch (b.burstEnd cause t since) := by
  unfold Block.burstEnd
  refine event ?_
  exact h.pwr rfl

theorem burstStep (h : a.SameEpoch b) {t len : Tick} {p : Plan} : a.SameEpoch (b.burstStep t len p) := by
  unfold Block.burstStep
  split
  · exact h.burstEnd.either (h.burstEnd.either (h.burstEnd.either h))
  · refine either (event ?_) h
    exact h.pwr rfl

theorem movePoint (h : a.SameEpoch b) {t : Tick} {q : PPoints} {i : Dvfs} : a.SameEpoch (b.movePoint t q i) := by
  unfold Block.movePoint
  dsimp only
  split_ifs
  · exact h
  · refine event ?_
    exact h.pwr rfl
  · exact h.pwr rfl
  · exact h.pwr rfl

theorem movePoints (h : a.SameEpoch b) {t : Tick} {q : PPoints} : a.SameEpoch (b.movePoints t q) := h.foldl fun _ _ h => h.movePoint

theorem untrip (h : a.SameEpoch b) : a.SameEpoch b.untrip := by
  unfold Block.untrip
  refine either ?_ h
  have clocks : a.SameEpoch (((b.clock 4 true).clock 6 true).clock 7 true |>.rearm 4 |>.rearm 6 |>.rearm 7) := h.by_frame (by simp)
  dsimp only
  generalize (((b.clock 4 true).clock 6 true).clock 7 true |>.rearm 4 |>.rearm 6 |>.rearm 7) = b1 at clocks ⊢
  exact clocks.pwr rfl

theorem dramTemp (h : a.SameEpoch b) {d : DramTemp} :
    a.SameEpoch (
      let b1 := { b with den := { b.den with refresh := b.den.refresh.set d.channel.toNat d.value } }
      if d.hot then b1.event 0x0026 noUnit (leBytes 1 d.channel.toNat ++ leBytes 1 d.rank.toNat ++ [d.value]) else b1) := by
  have noted : a.SameEpoch { b with den := { b.den with refresh := b.den.refresh.set d.channel.toNat d.value } } := h.pwr rfl
  dsimp only
  generalize ({ b with den := { b.den with refresh := b.den.refresh.set d.channel.toNat d.value } } : Block) = b1 at noted ⊢
  exact noted.event.either noted

theorem readDram (h : a.SameEpoch b) {ds : List DramTemp} : a.SameEpoch (b.readDram ds) := by
  unfold Block.readDram
  have read := h.foldl (l := ds.filter fun d => b.den.channels.getLsbD d.channel.toNat) fun _ d h => h.dramTemp (d := d)
  refine read.either ?_
  exact read.pwr rfl

theorem chooseInertial (h : a.SameEpoch b) : a.SameEpoch b.chooseInertial := h.afu rfl rfl

theorem portRecords (h : a.SameEpoch b) {k : Nat} : a.SameEpoch (b.portRecords k) := by
  unfold Block.portRecords
  dsimp only
  generalize e1 : (if (b.ports.getD k {}).changed then _ else b : Block) = b1
  have port : a.SameEpoch b1 := by
    subst e1
    exact h.diag.either h
  generalize e2 : (if (b.slots.getD k {}).changed then _ else b1 : Block) = b2
  have slot : a.SameEpoch b2 := by
    subst e2
    exact port.diag.either port
  exact slot.trans ⟨rfl, rfl, rfl, rfl, rfl, rfl, rfl, rfl, rfl, rfl⟩

theorem ifcRecords (h : a.SameEpoch b) {g : Nat} : a.SameEpoch (b.ifcRecords g) := by
  unfold Block.ifcRecords
  refine either (h.by_frame ?_) h
  simp

theorem counterRecords (h : a.SameEpoch b) : a.SameEpoch b.counterRecords := by
  unfold Block.counterRecords
  exact (h.foldl fun b k h => h.portRecords).foldl fun b g h => h.ifcRecords

end Block.SameEpoch

/-! ### A new epoch -/

/-- What every step of a fold keeps, the fold keeps. -/
theorem Block.foldl_keeps {α β : Type} (part : Block → β) {f : Block → α → Block} (step : ∀ b x, part (f b x) = part b) (l : List α) (b : Block) :
    part (l.foldl f b) = part b := by
  induction l generalizing b with
  | nil => rfl
  | cons x l ih => exact (ih _).trans (step b x)

/-- The part of the block that is no business of the links: the epoch, the units, the supplies, the settings, the Thermos domain. -/
def Block.inner (b : Block) : Ep × Afu × Badger × Pwr × Boot × Cfg × Thermos := (b.ep, b.afu, b.badger, b.pwr, b.boot, b.cfg, b.thermos)

/-- What is sent after a boundary changes nothing of the epoch. -/
theorem Block.sent_inner (b : Block) : b.sweep.fragAcks.memberTurn.owlEnter.inner = b.inner := by
  have acks : ∀ b : Block, b.fragAcks.inner = b.inner := by
    intro b
    unfold Block.fragAcks
    split
    · refine foldl_keeps _ (fun b s => ?_) _ b
      dsimp only
      split
      · split <;> simp [Block.inner]
      · rfl
    · rfl
  have turn : ∀ b : Block, b.memberTurn.inner = b.inner := by
    intro b
    unfold Block.memberTurn
    dsimp only
    split <;> simp [Block.inner]
  have enter : ∀ b : Block, b.owlEnter.inner = b.inner := fun b => by simp [Block.inner]
  rw [enter, turn, acks]
  rfl

theorem Cfg.map_unarmed {c : Cfg} (quiet : c.armed = none) (f : Armed → Armed) : { c with armed := c.armed.map f } = c := by
  rw [quiet, Option.map_none, ← quiet]

/-- A new epoch (R21): its number, its start and its plan, where no swap is armed (R98). -/
theorem Block.startEpoch_fields {b : Block} (quiet : b.cfg.armed = none) (n : Nat) (t : Tick) (ds : List DramTemp) (v : PPoints) :
    let e := b.startEpoch n t ds v false
    (e.ep.now = BitVec.ofNat 64 n ∧ e.ep.start = t ∧ e.ep.next = none ∧ e.ep.plan = b.ep.next.getD b.ep.plan)
      ∧ (e.afu.posed = false ∧ e.afu.tcDone = b.afu.tcNext.isSome ∧ e.afu.tc = b.afu.tcNext.getD b.afu.tc ∧ e.badger.vioDone = false)
      ∧ e.pwr.paused = b.pwr.paused ∧ e.boot = b.boot ∧ e.cfg = b.cfg ∧ e.thermos = b.thermos := by
  dsimp only
  unfold Block.startEpoch
  simp only [quiet, Option.filter_none, Option.isSome_none, Bool.false_eq_true, if_false, bne_self_eq_false, Bool.false_and]
  generalize e0 : ({ b with ep := _, pwr := _ } : Block) = b0
  have start : { b with ep := { b.ep with now := BitVec.ofNat 64 n } }.SameEpoch b0 := by
    subst e0
    exact ⟨rfl, rfl, rfl, rfl, rfl, rfl, rfl, rfl, rfl, rfl⟩
  generalize e1 : (if b.ep.next.isNone then _ else b0 : Block) = b1
  have warned : { b with ep := { b.ep with now := BitVec.ofNat 64 n } }.SameEpoch b1 := by
    subst e1
    exact start.diag.either start
  have stepped := (warned.applyFeatures (made := (b.ep.next.getD b.ep.plan).made)).stepRate (n := n) (t := t)
    (made := (b.ep.next.getD b.ep.plan).made) (cap := b.rateCapHz)
  generalize Block.stepRate _ _ _ _ _ = b3 at stepped ⊢
  have burst := stepped.burstStep (t := t) (len := b3.ep.boundary (n + 1) - t) (p := b.ep.next.getD b.ep.plan)
  generalize Block.burstStep _ _ _ b3 = b6 at burst ⊢
  generalize (if b6.pwr.burst.isActive = true then _ else _ : PPoints) = q
  generalize (if b6.pwr.burst.isActive = true then _ else _ : BitVec 16) = mw
  have moved := (burst.movePoints (t := t) (q := b6.tripPoints q)).untrip.readDram (ds := ds) |>.chooseInertial
  generalize Block.chooseInertial _ = b7 at moved ⊢
  generalize e9 : ({ b7.freshEpoch _ _ _ _ _ with cfg := _, pwr := _ } : Block) = b9
  have sent := b9.sent_inner
  simp only [Block.inner, Prod.mk.injEq] at sent
  obtain ⟨ep, afu, badger, pwr, boot, cfg, thermos⟩ := sent
  rw [ep, afu, badger, pwr, boot, cfg, thermos, ← e9]
  have settings : b7.cfg = b.cfg := moved.cfg
  refine ⟨⟨rfl, rfl, rfl, rfl⟩, ⟨rfl, ?_, ?_, rfl⟩, moved.paused, moved.boot, ?_, moved.thermos⟩
  · exact congrArg Option.isSome moved.tcNext
  · show b7.afu.tcNext.getD b7.afu.tc = _
    rw [moved.tcNext, moved.tc]
  · have same := Cfg.map_unarmed (c := b7.cfg) (by rw [settings]; exact quiet)
    exact (same _).trans settings

/-! ### A pause at the boundary (R600) -/

/-- The end of an epoch whose POSE is sealed writes counter records. -/
theorem Block.endEpoch_kept {b : Block} (posed : b.afu.posed = true) :
    b.SameEpoch b.endEpoch ∧ b.endEpoch.pwr = b.pwr ∧ b.endEpoch.badger.jobs = b.badger.jobs ∧ b.endEpoch.badger.tiles = b.badger.tiles
      ∧ b.endEpoch.owl = b.owl := by
  have kept : b.counterRecords.pwr = b.pwr ∧ b.counterRecords.badger = b.badger ∧ b.counterRecords.owl = b.owl := by
    have ports : ∀ (b : Block) (k : Nat), ((b.portRecords k).pwr, (b.portRecords k).badger, (b.portRecords k).owl) = (b.pwr, b.badger, b.owl) := by
      intro b k
      unfold Block.portRecords
      dsimp only
      split <;> split <;> simp
    have groups : ∀ (b : Block) (g : Nat), ((b.ifcRecords g).pwr, (b.ifcRecords g).badger, (b.ifcRecords g).owl) = (b.pwr, b.badger, b.owl) := by
      intro b k
      unfold Block.ifcRecords
      dsimp only
      split <;> simp
    have all := (foldl_keeps (fun b => (b.pwr, b.badger, b.owl)) groups (List.range 4) _).trans
      (foldl_keeps (fun b => (b.pwr, b.badger, b.owl)) ports (List.range 6) b)
    simp only [Prod.mk.injEq] at all
    exact all
  obtain ⟨pwr, badger, owl⟩ := kept
  have records := (SameEpoch.refl b).counterRecords
  unfold Block.endEpoch
  simp only [posed, if_true]
  generalize b.counterRecords = b1 at *
  refine ⟨records.trans ⟨rfl, rfl, rfl, rfl, rfl, rfl, rfl, rfl, rfl, rfl⟩, pwr, ?_, ?_, owl⟩
  · rw [badger]
  · rw [badger]

/-- A frame that a pause abandons degrades the epoch, and drops its camera (R600, R234). -/
theorem Block.SameEpoch.abandonFrame {a b : Block} (h : a.SameEpoch b) {k : Nat} : a.SameEpoch (b.closeFrame k none) := by
  unfold Block.closeFrame
  split
  · exact h
  · rename_i f _
    simp only [Option.isNone_none, if_true, List.foldl_nil, Bool.or_true]
    have many : a.SameEpoch (if f.tooMany = true then b.portCount k 8 else b) := Block.SameEpoch.either (h.by_frame (by simp)) h
    generalize (if f.tooMany = true then b.portCount k 8 else b) = b1 at many ⊢
    generalize decide (f.f 29 1 < _) = dropped
    have missing : a.SameEpoch (if dropped = true then b1.portCount k 9 else b1) := Block.SameEpoch.either (many.by_frame (by simp)) many
    generalize (if dropped = true then b1.portCount k 9 else b1) = b2 at missing ⊢
    generalize framePayload _ _ _ _ _ _ _ _ _ _ _ = payload
    generalize (f.mid _).1 = inv
    have inverted : a.SameEpoch (if inv = true then (b2.portCount k 12).diag 0x0105 (portUnit k) payload else b2) :=
      Block.SameEpoch.either (missing.by_frame (by simp)) missing
    generalize (if inv = true then (b2.portCount k 12).diag 0x0105 (portUnit k) payload else b2) = b3 at inverted ⊢
    have told : a.SameEpoch (b3.flow (0x80 + k) 0x0102 (portUnit k) payload []) := inverted.by_frame (by simp)
    generalize b3.flow (0x80 + k) 0x0102 (portUnit k) payload [] = b4 at told ⊢
    generalize e : ({ b4 with ports := _, ep := _ } : Block) = b5
    have marked : a.SameEpoch b5 := by
      subst e
      exact told.trans ⟨rfl, rfl, rfl, rfl, rfl, rfl, rfl, rfl, rfl, rfl⟩
    exact marked.by_frame (by simp)

/-- Frames that a pause closes (R600). -/
theorem Block.closeFrames_kept (ks : List Nat) (b : Block) :
    b.SameEpoch (b.closeFrames ks) ∧ (b.closeFrames ks).pwr = b.pwr := by
  refine ⟨(SameEpoch.refl b).foldl fun b k h => ?_, foldl_keeps Block.pwr (fun b k => ?_) ks b⟩
  · have closed := h.abandonFrame (k := k)
    exact closed.by_frame (by simp)
  · simp

/-- The end of a pause's entry when a shutdown asked for it (R602). -/
theorem Block.shutEnd_fields (b : Block) :
    (b.shutEnd.pwr.paused = b.pwr.paused ∧ b.shutEnd.pwr.pauseReq = b.pwr.pauseReq ∧ b.shutEnd.pwr.retDen = b.pwr.retDen
      ∧ b.shutEnd.pwr.shutReady = true) ∧ b.shutEnd.ep = b.ep ∧ b.shutEnd.cfg = b.cfg
      ∧ b.shutEnd.thermos = { b.thermos with journal := b.shutEnd.thermos.journal, journalUe := b.shutEnd.thermos.journalUe } := by
  have kept : (b.journal none).pwr = b.pwr ∧ (b.journal none).ep = b.ep ∧ (b.journal none).cfg = b.cfg := by simp
  have again := Block.journal_thermos none b
  unfold Block.shutEnd
  dsimp only
  generalize b.journal none = b1 at *
  obtain ⟨pwr, ep, cfg⟩ := kept
  exact ⟨⟨by rw [pwr], by rw [pwr], by rw [pwr], rfl⟩, ep, cfg, again⟩

/-- Islands that go down isolate themselves, and nothing else of the supplies changes but their request. -/
theorem Block.islandsDown_kept (is : List Nat) (b : Block) :
    (b.islandsDown is).ep = b.ep ∧ (b.islandsDown is).cfg = b.cfg ∧ (b.islandsDown is).thermos = b.thermos
      ∧ { (b.islandsDown is).pwr with iso := b.pwr.iso, pwrReq := b.pwr.pwrReq } = b.pwr := by
  induction is generalizing b with
  | nil => exact ⟨rfl, rfl, rfl, rfl⟩
  | cons i is ih =>
    obtain ⟨ep, cfg, thermos, pwr⟩ := ih { (b.clock i false) with pwr := { b.pwr with iso := b.pwr.iso.set i true, pwrReq := b.pwr.pwrReq.set i false } }
    refine ⟨ep, cfg, thermos, ?_⟩
    have := congrArg (fun p : Pwr => { p with iso := b.pwr.iso, pwrReq := b.pwr.pwrReq }) pwr
    exact this

/-- The event of a pause and the journal that it commits (R24, R600). -/
theorem Block.pauseTold (code : Nat) (body : Bytes) (b : Block) :
    (Block.journal none (b.event code noUnit body)).pwr = b.pwr ∧ (Block.journal none (b.event code noUnit body)).ep = b.ep
      ∧ (Block.journal none (b.event code noUnit body)).cfg = b.cfg
      ∧ (Block.journal none (b.event code noUnit body)).thermos = { b.thermos with
          journal := (Block.journal none (b.event code noUnit body)).thermos.journal
          journalUe := (Block.journal none (b.event code noUnit body)).thermos.journalUe } := by
  refine ⟨by simp, by simp, by simp, ?_⟩
  have event : (b.event code noUnit body).thermos = b.thermos := by simp
  rw [← event]
  exact Block.journal_thermos none _

/-- A burst that a pause ends (R593). -/
def Block.burstStopped (t : Tick) (b : Block) : Block :=
  match b.pwr.burst with
  | .active s => b.burstEnd 4 t s
  | _ => b

/-- The engine as the pause begins, before the islands go down. -/
def Block.pausing (t : Tick) (b : Block) : Block :=
  { b.clock 8 false with
    pwr := { b.pwr with paused := true, pauseReq := none, wake := none, retDen := true, dram := .selfRefresh, standbyOff := true,
                        retAckDen := b.pwr.retAckDen || !b.hooked, iso := b.pwr.iso.set 8 true }
    pins := b.pinsAtRest
    badger := { b.badger with tiles := b.badger.tiles.map fun _ => none }
    cfg := { b.cfg with armed := b.cfg.armed.map fun a => { a with epoch := b.ep.now.toNat + 1, boundary := farBoundary } }
    ep := { b.ep with next := none, prevLen := t - b.ep.start } }

theorem Block.enterPause_eq (t : Tick) (b : Block) :
    b.enterPause t =
      let b4 := Block.journal none (((((b.burstStopped t).closeFrames (List.range 6)).pausing t).islandsDown [4, 5, 6, 7]).event 0x0059 noUnit
        (leBytes 1 b.pwr.shutdown.toNat))
      if b.pwr.shutdown then b4.shutEnd else b4 := by
  unfold Block.enterPause Block.burstStopped Block.pausing
  cases b.pwr.burst <;> dsimp only

theorem Block.burstStopped_kept (t : Tick) (b : Block) :
    b.SameEpoch (b.burstStopped t) ∧ (b.burstStopped t).pwr = { b.pwr with burst := (b.burstStopped t).pwr.burst } := by
  unfold Block.burstStopped
  split
  · exact ⟨(SameEpoch.refl b).burstEnd, by simp [Block.burstEnd]⟩
  · exact ⟨SameEpoch.refl b, rfl⟩

theorem Block.pausing_fields (t : Tick) (b : Block) :
    ((b.pausing t).pwr.paused = true ∧ (b.pausing t).pwr.pauseReq = none ∧ (b.pausing t).pwr.retDen = true
        ∧ (b.pausing t).pwr.shutReady = b.pwr.shutReady)
      ∧ ((b.pausing t).ep.now = b.ep.now ∧ (b.pausing t).ep.next = none)
      ∧ ((b.pausing t).cfg.active = b.cfg.active ∧ (b.pausing t).cfg.gen = b.cfg.gen) ∧ (b.pausing t).thermos = b.thermos :=
  ⟨⟨rfl, rfl, rfl, rfl⟩, ⟨rfl, rfl⟩, ⟨rfl, rfl⟩, rfl⟩

/-- A pause stops the units and leaves the settings in force (R600). -/
theorem Block.enterPause_fields (b : Block) (t : Tick) :
    let e := b.enterPause t
    (e.pwr.paused = true ∧ e.pwr.pauseReq = none ∧ e.pwr.retDen = true ∧ e.pwr.shutReady = (b.pwr.shutReady || b.pwr.shutdown))
      ∧ (e.ep.now = b.ep.now ∧ e.ep.next = none) ∧ (e.cfg.active = b.cfg.active ∧ e.cfg.gen = b.cfg.gen)
      ∧ e.thermos = { b.thermos with journal := e.thermos.journal, journalUe := e.thermos.journalUe } := by
  rw [Block.enterPause_eq]
  dsimp only
  obtain ⟨burstEpoch, burstPwr⟩ := b.burstStopped_kept t
  generalize b.burstStopped t = b1 at *
  obtain ⟨closedEpoch, closedPwr⟩ := b1.closeFrames_kept (List.range 6)
  generalize b1.closeFrames (List.range 6) = b2 at *
  have same := burstEpoch.trans closedEpoch
  have shut : b2.pwr.shutReady = b.pwr.shutReady := by rw [closedPwr, burstPwr]
  have down := b2.pausing_fields t
  generalize b2.pausing t = b3 at *
  obtain ⟨⟨paused, req, ret, ready⟩, ⟨now, next⟩, ⟨active, gen⟩, thermos⟩ := down
  obtain ⟨downEp, downCfg, downThermos, downPwr⟩ := b3.islandsDown_kept [4, 5, 6, 7]
  generalize b3.islandsDown [4, 5, 6, 7] = b4 at *
  obtain ⟨toldPwr, toldEp, toldCfg, toldThermos⟩ := b4.pauseTold 0x0059 (leBytes 1 b.pwr.shutdown.toNat)
  generalize Block.journal none (b4.event 0x0059 noUnit (leBytes 1 b.pwr.shutdown.toNat)) = b5 at *
  have still : b5.pwr.paused = b3.pwr.paused ∧ b5.pwr.pauseReq = b3.pwr.pauseReq ∧ b5.pwr.retDen = b3.pwr.retDen
      ∧ b5.pwr.shutReady = b3.pwr.shutReady := by
    rw [toldPwr, ← downPwr]
    exact ⟨rfl, rfl, rfl, rfl⟩
  obtain ⟨paused', req', ret', ready'⟩ := still
  rw [downThermos, thermos, same.thermos] at toldThermos
  have epoch : b5.ep.now = b.ep.now ∧ b5.ep.next = none := by
    rw [toldEp, downEp, now, next]
    exact ⟨same.now, rfl⟩
  have settings : b5.cfg.active = b.cfg.active ∧ b5.cfg.gen = b.cfg.gen := by
    rw [toldCfg, downCfg, active, gen, same.cfg]
    exact ⟨rfl, rfl⟩
  split
  · rename_i off
    obtain ⟨⟨p, q, r, d⟩, ep, cfg, journal⟩ := b5.shutEnd_fields
    rw [ep, cfg, p, q, r, d, paused', req', ret', off, Bool.or_true]
    refine ⟨⟨paused, req, ret, rfl⟩, epoch, settings, ?_⟩
    rw [journal, toldThermos]
  · rename_i on
    have on : b.pwr.shutdown = false := by simpa using on
    rw [on, Bool.or_false, ← shut, ← ready]
    exact ⟨⟨paused'.trans paused, req'.trans req, ret'.trans ret, ready'⟩, epoch, settings, toldThermos⟩

/-- Settles O14: by whether a pause is due and, if none is, by what the next epoch starts from. -/
theorem epochBoundary : Obligations.EpochBoundary := by
  unfold Obligations.EpochBoundary
  intro s ds v ready running awake
  refine ⟨fun early => ?_, fun due posed => ⟨fun free quiet => ?_, fun u asked held => ?_⟩⟩
  · refine State.act_of_eq (f := Block.epochBoundary ds v) ?_
    simp [Block.epochBoundary, Nat.not_le.2 early]
  · refine completes_of_act (f := Block.epochBoundary ds v) rfl ?_
    obtain ⟨ended, pwr, -⟩ := Block.endEpoch_kept posed
    have run : s.epochBoundary ds v = s.endEpoch.startEpoch (s.ep.now.toNat + 1) s.ep.nextBoundary ds v false := by
      simp [Block.epochBoundary, Block.ready, ready, running, awake, due, Block.pauseDue, free]
    rw [run]
    have fields := Block.startEpoch_fields (b := s.endEpoch) (by rw [ended.cfg]; exact quiet) (s.ep.now.toNat + 1) s.ep.nextBoundary ds v
    obtain ⟨⟨now, start, next, plan⟩, ⟨pose, tcDone, tc, vio⟩, paused, boot, cfg, thermos⟩ := fields
    rw [ended.next, ended.plan] at plan
    rw [ended.tcNext] at tcDone
    rw [ended.tcNext, ended.tc] at tc
    rw [ended.paused] at paused
    rw [ended.boot] at boot
    rw [ended.cfg] at cfg
    rw [ended.thermos] at thermos
    exact ⟨now, start, next, plan, pose, tcDone, tc, vio, paused.trans awake, by rw [boot]; exact ready, by rw [cfg], by rw [cfg], by rw [cfg], thermos⟩
  · refine completes_of_act (f := Block.epochBoundary ds v) rfl ?_
    obtain ⟨ended, pwr, jobs, tiles, owl⟩ := Block.endEpoch_kept posed
    have run : s.epochBoundary ds v = s.endEpoch.enterPause s.ep.nextBoundary := by
      have hold : s.endEpoch.jobsHold = s.jobsHold := by simp only [Block.jobsHold, jobs, tiles, owl]
      have now : (!s.endEpoch.jobsHold || decide (u + 62500000 ≤ s.ep.nextBoundary)) = true := by
        rw [hold]
        rcases held with e | e <;> simp [e]
      simp only [Block.epochBoundary, Block.ready, ready, running, awake, due, Block.pauseDue, pwr, asked, now, beq_self_eq_true, Bool.not_false,
        Bool.and_true, decide_true, if_true]
    rw [run]
    obtain ⟨⟨paused, req, ret, shut⟩, ⟨now, next⟩, ⟨active, gen⟩, thermos⟩ := s.endEpoch.enterPause_fields s.ep.nextBoundary
    rw [pwr] at shut
    rw [ended.now] at now
    rw [ended.cfg] at active gen
    rw [ended.thermos] at thermos
    exact ⟨paused, req, now, next, ret, active, gen, shut, thermos⟩

end Sys2Proof.Machine
end

section
/-! PROOF. The skin sensor, the die and the burst's cooldown (O19; R589, R593, R596, R597). -/

namespace Sys2Proof.Machine

/-- A report on the skin sensor changes the mark of its loss alone. -/
theorem Block.skinBack_parts (source : Nat) (value : BitVec 16) (b : Block) :
    (b.skinBack source value).pwr = { b.pwr with skinLost := (b.skinBack source value).pwr.skinLost }
      ∧ b.skinBack source value = { b with pwr := (b.skinBack source value).pwr, host := (b.skinBack source value).host
                                           flt := (b.skinBack source value).flt } := by
  unfold Block.skinBack
  split
  · exact ⟨by simp, Block.eq_of_fields (by simp)⟩
  · exact ⟨rfl, rfl⟩

theorem Block.skinCheck_parts (b : Block) :
    b.skinCheck.pwr = { b.pwr with skinLost := b.skinCheck.pwr.skinLost }
      ∧ b.skinCheck = { b with pwr := b.skinCheck.pwr, host := b.skinCheck.host, flt := b.skinCheck.flt } := by
  unfold Block.skinCheck
  dsimp only
  split
  · exact ⟨by simp, Block.eq_of_fields (by simp)⟩
  · exact ⟨rfl, rfl⟩

/-- What a sample of the die temperatures changes: the readings, and the mark of heat. -/
theorem Block.dieSample_parts (ts : BitVec 128) (v : BitVec 8) (b : Block) :
    (b.dieSample ts v).pwr = { b.pwr with
        dieTemps := (List.range 8).map fun i => if v.getLsbD i then some (ts.extractLsb' (16 * i) 16) else b.pwr.dieTemps.getD i none
        dieHot := (b.dieSample ts v).pwr.dieHot }
      ∧ b.dieSample ts v = { b with pwr := (b.dieSample ts v).pwr, host := (b.dieSample ts v).host, flt := (b.dieSample ts v).flt } := by
  unfold Block.dieSample
  dsimp only
  generalize (List.range 8).map _ = temps
  split
  · exact ⟨rfl, rfl⟩
  · split
    · exact ⟨by simp, Block.eq_of_fields (by simp)⟩
    · split
      · exact ⟨by simp, Block.eq_of_fields (by simp)⟩
      · exact ⟨rfl, rfl⟩

/-- One sensor that reads at or above the limit latches DIE_HOT. -/
theorem Block.dieSample_hot {b : Block} (ready : b.boot.phase = .ready) (ts : BitVec 128) (limit : b.dieLimit ≤ (ts.extractLsb' 0 16).toInt)
    (fresh : b.pwr.dieTemps = List.replicate 8 none) : (b.dieSample ts 1).pwr.dieHot = true := by
  have temps : ((List.range 8).map fun i => if (1 : BitVec 8).getLsbD i then some (ts.extractLsb' (16 * i) 16) else b.pwr.dieTemps.getD i none)
      = some (ts.extractLsb' 0 16) :: List.replicate 7 none := by
    rw [fresh]
    rfl
  have top : hottestOf (some (ts.extractLsb' 0 16) :: List.replicate 7 none) = ts.extractLsb' 0 16 := rfl
  unfold Block.dieSample
  dsimp only
  rw [temps, top]
  generalize ts.extractLsb' 0 16 = value at *
  have same : ({ b with pwr := { b.pwr with dieTemps := some value :: List.replicate 7 none } } : Block).dieLimit = b.dieLimit := rfl
  rw [same, if_neg (by simp [Block.ready, ready])]
  by_cases hot : b.pwr.dieHot = true
  · have warm : ¬ value.toInt < b.dieLimit - 2560 := by omega
    simp [hot, warm]
  · simp [hot, limit]

/-- Settles O19: by the guard of each command and the fields it leaves. -/
theorem heatAndSensors : Obligations.HeatAndSensors := by
  unfold Obligations.HeatAndSensors
  intro s
  refine ⟨fun ready awake up bus free due idle waiting => ?_, fun busy => ⟨fun v => ?_, ?_⟩, fun v free => ?_, fun u cooling => ⟨fun ended => ?_, fun early => ?_⟩,
    fun ts v => ?_, fun k c ready hot cold => ?_, fun k c cool => ?_⟩
  · refine State.act_of_eq (f := Block.skinReadDue) ?_
    have serial : (s.skinBus == 2 || s.skinBus == 3) = true := by simpa using bus
    simp only [Block.skinReadDue, Block.ready, ready, awake, up, serial, free, due, idle, waiting, beq_self_eq_true, Bool.not_false, Bool.and_true,
      decide_true, Option.isNone_none, List.isEmpty_nil, if_true]
    rfl
  · refine completes_of_act (f := Block.skinReadDone (some v)) rfl ?_
    have run : s.skinReadDone (some v) = Block.skinBack 1 v { s.toBlock with
        pwr := { s.pwr with skinBusy := false, sensor := some v, sensorAt := s.now, sensorFails := 0 } } := by simp [Block.skinReadDone, busy]
    obtain ⟨pwr, rest⟩ := Block.skinBack_parts 1 v { s.toBlock with
        pwr := { s.pwr with skinBusy := false, sensor := some v, sensorAt := s.now, sensorFails := 0 } }
    rw [run]
    refine ⟨?_, ?_, ?_, ?_, rest⟩ <;> rw [pwr]
  · refine completes_of_act (f := Block.skinReadDone none) rfl ?_
    generalize e : ({ s.toBlock with pwr := { s.pwr with skinBusy := false, sensorFails := s.pwr.sensorFails + 1 } } : Block) = b1
    have run : s.skinReadDone none = if b1.skinFrom = 1 then b1.skinCheck else b1 := by
      rw [← e, Block.skinReadDone, busy]
      rfl
    rw [run]
    split
    · obtain ⟨pwr, rest⟩ := b1.skinCheck_parts
      refine ⟨?_, ?_, ?_, ?_⟩
      · rw [pwr, ← e]
      · rw [pwr, ← e]
      · rw [pwr, ← e]
      · rw [← e] at rest ⊢
        exact rest
    · rw [← e]
      exact ⟨rfl, rfl, rfl, rfl⟩
  · exact State.act_of_eq (f := Block.skinReadDone v) (by simp [Block.skinReadDone, free])
  · exact State.act_of_eq (f := Block.cooldownEnd) (by simp [Block.cooldownEnd, cooling, ended])
  · exact State.act_of_eq (f := Block.cooldownEnd) (by simp [Block.cooldownEnd, cooling, Nat.not_le.2 early])
  · refine completes_of_act (f := Block.dieSample ts v) rfl ?_
    obtain ⟨pwr, rest⟩ := s.dieSample_parts ts v
    refine ⟨fun i lt => ?_, ?_, fun ready one limit fresh => ?_, rest⟩
    · rw [pwr]
      simp [List.getD_eq_getElem?_getD, lt]
    · rw [pwr]
    · subst one
      exact Block.dieSample_hot ready ts limit fresh
  · refine completes_of_act (f := Block.thermalTrip k c) rfl ?_
    have run : s.thermalTrip k c = Block.event 0x0058 noUnit (dieBody k.val c) { s.toBlock with
        pwr := { s.pwr with tripped := true }
        flt := { s.flt with clockOn := ((s.flt.clockOn.set 4 false).set 6 false).set 7 false } } := by
      have above : (115 * 256 : Int) ≤ c.toInt := by omega
      simp only [Block.thermalTrip, Block.ready, ready, above, cold, beq_self_eq_true, decide_true, Bool.not_false, Bool.and_true, if_true,
        Block.clock]
    rw [run, Block.event_parts]
    exact ⟨rfl, rfl, rfl, rfl⟩
  · refine State.act_of_eq (f := Block.thermalTrip k c) ?_
    have below : ¬ (115 * 256 : Int) ≤ c.toInt := by omega
    simp only [Block.thermalTrip, below, decide_false, Bool.and_false, Bool.false_and, Bool.false_eq_true, if_false]

end Sys2Proof.Machine
end

section
/-! PROOF. Trigger edges and Frame Start (O23; R128 to R137, R202 to R205). -/

namespace Sys2Proof.Machine

/-! ### Folds over the ports and the slots -/

theorem Block.foldl_still {α : Type} {f : Block → α → Block} {l : List α} {b : Block} (still : ∀ x ∈ l, f b x = b) : l.foldl f b = b := by
  induction l with
  | nil => rfl
  | cons x l ih =>
    rw [List.foldl_cons, still x List.mem_cons_self]
    exact ih fun y mem => still y (List.mem_cons_of_mem _ mem)

/-- Of a fold over indices that acts at one alone, that one action is what is left. -/
theorem Block.foldl_only {f : Block → Nat → Block} {n k : Nat} (inside : k < n) {b b1 : Block} (before : ∀ j < n, j ≠ k → f b j = b)
    (here : f b k = b1) (after : ∀ j < n, j ≠ k → f b1 j = b1) : (List.range n).foldl f b = b1 := by
  obtain ⟨pre, post, split⟩ := List.append_of_mem (List.mem_range.2 inside)
  have once := List.nodup_range (n := n)
  rw [split] at once
  have apart := (List.nodup_middle.1 once)
  rw [List.nodup_cons] at apart
  have other : ∀ j, j ∈ pre ∨ j ∈ post → j < n ∧ j ≠ k := by
    intro j mem
    refine ⟨List.mem_range.1 (by rw [split]; rcases mem with h | h <;> simp [h]), fun e => apart.1 (by rw [← e]; simpa using mem)⟩
  rw [split, List.foldl_append, List.foldl_cons]
  rw [foldl_still (l := pre) fun j mem => before j (other j (Or.inl mem)).1 (other j (Or.inl mem)).2, here]
  exact foldl_still fun j mem => after j (other j (Or.inr mem)).1 (other j (Or.inr mem)).2

theorem getD_modify_same {α : Type} {l : List α} {k : Nat} (inside : k < l.length) (f : α → α) (d : α) : (l.modify k f).getD k d = f (l.getD k d) := by
  simp [List.getD_eq_getElem?_getD, inside]

theorem getD_modify_other {α : Type} {k j : Nat} (apart : j ≠ k) (l : List α) (f : α → α) (d : α) : (l.modify k f).getD j d = l.getD j d := by
  simp [List.getD_eq_getElem?_getD, apart.symm]

/-- A change of one entry depends on what it makes of that entry alone. -/
theorem modify_congr {α : Type} {l : List α} {k : Nat} {f g : α → α} (same : ∀ x, l[k]? = some x → f x = g x) : l.modify k f = l.modify k g := by
  refine List.ext_getElem? fun i => ?_
  rw [List.getElem?_modify, List.getElem?_modify]
  split
  · subst k
    cases h : l[i]? with
    | none => rfl
    | some x => exact congrArg some (same x h)
  · rfl

/-! ### Frame Start -/

/-- A frame on a port with no waiting trigger opens at its Frame Start (R205). -/
theorem Block.openFrame_untriggered {b : Block} {k : Nat} {no : BitVec 16} {fs : Tick} (idle : (b.ports.getD k {}).trigs = []) (free : b.port k 42 1 ≠ 1) :
    b.openFrame k no fs = Block.foxOpen k { no := no, fs := fs, gen := b.cfg.gen, page := pageAt b.cfg.active 2 k, rise := fs, fall := fs } { b with
      ports := b.ports.modify k fun p => { p with
        synced := true, frame := some { no := no, fs := fs, gen := b.cfg.gen, page := pageAt b.cfg.active 2 k, rise := fs, fall := fs }
        trigs := p.trigs.map fun x => if some x = none then { x with met := true } else x } } := by
  have none : b.matchTrig k fs = none := by simp only [Block.matchTrig, idle, List.find?_nil]
  have noSlip : (b.port k 42 1 == 1) = false := by simpa using free
  simp only [Block.openFrame, none, noSlip, Option.isSome_none, Bool.false_and, Bool.false_eq_true, if_false, Option.map_none, Option.getD_none]

/-- A port whose Frame Start has been seen. -/
def Block.synced (k : Nat) (b : Block) : Block := { b with ports := b.ports.modify k fun x => { x with synced := true } }

theorem Block.frameStart_eq (b : Block) (k : Fin 6) (p : ShortPkt) :
    b.frameStart k p = if !b.csiOn k || (!(b.ports.getD k {}).synced
      && !(p.ecc != .bad && b.vcMapped k p.vc.toNat && p.vc.toNat == b.port k 32 1)) then b
    else if !((b.synced k).headerEcc k p.ecc).2 then ((b.synced k).headerEcc k p.ecc).1
    else if !((b.synced k).headerEcc k p.ecc).1.vcMapped k p.vc.toNat then ((b.synced k).headerEcc k p.ecc).1.portCount k 3
    else if p.vc.toNat != ((b.synced k).headerEcc k p.ecc).1.port k 32 1 then ((b.synced k).headerEcc k p.ecc).1
    else Block.openFrame k p.data (((b.synced k).headerEcc k p.ecc).1.now - ((b.synced k).headerEcc k p.ecc).1.deskew k)
      (if (((b.synced k).headerEcc k p.ecc).1.ports.getD k {}).frame.isSome then
        (((b.synced k).headerEcc k p.ecc).1.portCount k 10).closeFrame k none else ((b.synced k).headerEcc k p.ecc).1) := rfl

theorem Block.synced_of_synced {b : Block} {k : Nat} (synced : (b.ports.getD k {}).synced = true) : b.synced k = b := by
  have same : b.ports.modify k (fun x => { x with synced := true }) = b.ports.modify k id := modify_congr fun x here => by
    rw [List.getD_eq_getElem?_getD, here] at synced
    rw [← synced]
    rfl
  rw [Block.synced, same, List.modify_id]

/-- A Frame Start with a good header, of the port's own virtual channel, opens a frame where none is open (R202, R204). -/
theorem Block.frameStart_opens {b : Block} {k : Fin 6} {p : ShortPkt} (inside : k.val < b.ports.length) (on : b.csiOn k = true) (ok : p.ecc = .ok)
    (mapped : p.vc.toNat = b.port k 32 1) (idle : (b.ports.getD k {}).frame = none) :
    b.frameStart k p = (b.synced k).openFrame k p.data (b.now - b.deskew k) := by
  have first : (p.ecc != .bad && b.vcMapped k p.vc.toNat && p.vc.toNat == b.port k 32 1) = true := by simp [ok, Block.vcMapped, mapped]
  have still : ((b.synced k).ports.getD k {}).frame = none := by
    rw [Block.synced, getD_modify_same inside]
    exact idle
  have channel : (b.synced k).vcMapped k p.vc.toNat = true ∧ (p.vc.toNat != (b.synced k).port k 32 1) = false := by
    refine ⟨?_, ?_⟩
    · simp only [Bool.and_eq_true] at first
      exact first.1.2
    · rw [show (b.synced k).port k 32 1 = b.port k 32 1 from rfl, mapped, bne_self_eq_false]
  have header : (b.synced k).headerEcc k p.ecc = (b.synced k, true) := by rw [ok]; rfl
  rw [Block.frameStart_eq, header]
  simp only [first, on, channel, still, Bool.not_true, Bool.and_false, Bool.or_false, Bool.false_eq_true, if_false, Option.isSome_none]
  rfl

/-- Settles O23: by the one port whose trigger fires, and by what Frame Start finds open. -/
theorem triggersAndStarts : Obligations.TriggersAndStarts := by
  unfold Obligations.TriggersAndStarts
  intro s
  refine ⟨fun pin k inside fires now => ?_, fun pin quiet => ?_, fun k p all on ok mapped idle untrig free => ?_, fun k packaged => ?_,
    fun k p on synced bad => ?_, fun k p off => ?_, fun k u on trigs unmet late => ?_, fun k on => ?_, fun k off => ⟨?_, ?_⟩⟩
  · refine State.act_of_eq (f := Block.trigEdge pin true) ?_
    unfold Block.trigEdge
    have other : ∀ j < 6, j ≠ k → s.trigFires j pin = false := fun j lt ne => by rw [fires j lt]; simpa using ne
    have here : s.trigFires k pin = true := by rw [fires k inside]; simp
    refine Block.foldl_only inside (fun j lt ne => ?_) ?_ fun j lt ne => ?_
    · simp [other j lt ne]
    · simp [here, now, Block.trigDrive]
    · dsimp only
      rw [if_pos rfl, if_neg]
      intro fires
      exact Bool.false_ne_true ((other j lt ne).symm.trans (Bool.and_eq_true_iff.1 fires).1)
  · refine State.act_of_eq (f := Block.trigEdge pin true) ?_
    refine Block.foldl_still fun j mem => ?_
    simp [quiet j (List.mem_range.1 mem)]
  · refine completes_of_act (f := Block.frameStart k p) rfl ?_
    have inside : k.val < s.ports.length := by omega
    have none : ((s.toBlock.synced k).ports.getD k {}).trigs = [] := by
      rw [Block.synced, getD_modify_same inside]
      exact untrig
    rw [Block.frameStart_opens inside on ok mapped idle, Block.openFrame_untriggered none free]
    refine ⟨?_, fun j apart => ?_, Block.eq_of_fields (by simp [Block.synced])⟩
    · simp only [Block.foxOpen_frame, Block.synced, List.modify_modify_eq, getD_modify_same inside, Function.comp, untrig, List.map_nil]
    · simp only [Block.foxOpen_frame, Block.synced, getD_modify_other apart]
  · simp [Block.deskew, packaged]
  · refine State.act_of_eq (f := Block.frameStart k p) ?_
    rw [Block.frameStart_eq, Block.synced_of_synced synced, bad]
    simp only [Block.headerEcc, on, synced, Bool.not_true, Bool.false_and, Bool.or_false, Bool.false_eq_true, if_false, Bool.not_false, if_true]
    rfl
  · exact State.act_of_eq (f := Block.frameStart k p) (by simp [Block.frameStart, off])
  · refine State.act_of_eq (f := Block.trigNoFrame k) ?_
    have any : ((s.ports.getD k {}).trigs.any fun t => !t.met && decide (t.rise + s.port k 60 4 + s.trigTol k ≤ s.now)) = true := by
      rw [trigs]
      simp [unmet, late]
    simp only [Block.trigNoFrame, on, any, Bool.true_and, if_true, Block.portCount, List.modify_modify_eq]
    rw [modify_congr (g := fun x => { x with
      trigs := [{ u with met := true }], counters := x.counters.modify 14 bump, changed := x.changed || x.counters.getD 14 0 != BitVec.allOnes 32 })]
    intro x here
    have one : x.trigs = [u] := by
      rw [List.getD_eq_getElem?_getD, here] at trigs
      exact trigs
    simp [one, unmet, late]
  · refine State.act_of_eq (f := Block.phyError k) ?_
    rw [Block.phyError, if_pos on]
    rfl
  · exact State.act_of_eq (f := Block.phyError k) (by simp [Block.phyError, off])
  · exact State.act_of_eq (f := Block.trigNoFrame k) (by simp [Block.trigNoFrame, off])

end Sys2Proof.Machine
end

section
/-! PROOF. Inertial reads, from the data-ready edge to the group (O25; R213 to R224). -/

namespace Sys2Proof.Machine

/-- The read that starts is of a slot on the controller. -/
theorem nextRead_mem {l : List (Nat × Tick × Nat)} {k : Nat} (next : nextRead l = some k) : ∃ x ∈ l, x.1 = k := by
  cases l with
  | nil => simp [nextRead] at next
  | cons x xs =>
    obtain rfl := Option.some.inj next
    refine ⟨_, ?_, rfl⟩
    have fold : ∀ (xs : List (Nat × Tick × Nat)) (y : Nat × Tick × Nat),
        xs.foldl (fun y z => if z.2.1 < y.2.1 || (z.2.1 = y.2.1 && z.2.2 < y.2.2) then z else y) y ∈ y :: xs := by
      intro xs
      induction xs with
      | nil => exact fun y => List.mem_cons_self
      | cons z zs ih =>
        intro y
        rw [List.foldl_cons]
        split
        · exact List.mem_cons_of_mem _ (ih z)
        · rcases List.mem_cons.1 (ih y) with e | mem
          · rw [e]
            exact List.mem_cons_self
          · exact List.mem_cons_of_mem _ (List.mem_cons_of_mem _ mem)
    exact fold xs x

theorem waitingReads_port {b : Block} {ctl k : Nat} (next : nextRead (b.waitingReads ctl) = some k) : b.port k 97 1 = ctl := by
  obtain ⟨x, mem, rfl⟩ := nextRead_mem next
  obtain ⟨j, -, found⟩ := List.mem_filterMap.1 mem
  split at found
  · split at found
    · rename_i here
      obtain rfl := Option.some.inj found
      simpa using (Bool.and_eq_true_iff.1 here).2
    · exact absurd found (by simp)
  · exact absurd found (by simp)

/-- Counters of a slot change, and nothing else. -/
def Block.CountsSlot (k : Nat) (a b : Block) : Prop :=
  ∃ f : Slot → Slot, b = { a with slots := a.slots.modify k f } ∧ ∀ x, f x = { x with counters := (f x).counters, changed := (f x).changed }

theorem Block.CountsSlot.refl (k : Nat) (a : Block) : a.CountsSlot k a := ⟨id, by rw [List.modify_id], fun _ => rfl⟩

theorem Block.CountsSlot.slotCount {k : Nat} {a b : Block} (h : CountsSlot k a b) (i : Nat) : CountsSlot k a (b.slotCount k i) := by
  obtain ⟨f, rfl, keeps⟩ := h
  refine ⟨_, by rw [Block.slotCount, List.modify_modify_eq], fun x => ?_⟩
  simp only [Function.comp]
  rw [keeps x]

theorem Block.CountsSlot.either {k : Nat} {p : Prop} [Decidable p] {a b c : Block} (hb : CountsSlot k a b) (hc : CountsSlot k a c) :
    CountsSlot k a (if p then b else c) := by
  split
  · exact hb
  · exact hc

/-- What a sample adds to its slot: the range code and itself (R223). -/
def Slot.sampled (now : Tick) (code : Nat) (s : InSample) (x : Slot) : Slot :=
  { x with lastCode := some (BitVec.ofNat 8 code), group := x.group ++ [s], groupAt := if x.group.isEmpty then now else x.groupAt }

/-- A sample of a known range code opens a group where none is open (R223). -/
theorem Block.takeSample_opens {b : Block} {k : Nat} (inside : k < b.slots.length) (r : Read) (bs : Bytes)
    (known : memField (pageAt b.cfg.active 2 k) (152 + 12 * b.rangeCode k bs) 1 ≠ 0) (fresh : (b.slots.getD k {}).group = []) :
    ∃ (x : Slot) (s : InSample), ((b.takeSample k r bs).slots.getD k {}) = x.sampled b.now (b.rangeCode k bs) s
      ∧ x = { b.slots.getD k {} with counters := x.counters, changed := x.changed }
      ∧ b.takeSample k r bs = { b with slots := (b.takeSample k r bs).slots } := by
  generalize code : b.rangeCode k bs = n at *
  have run : ∃ (b2 : Block) (s : InSample), CountsSlot k b b2 ∧ b.takeSample k r bs =
      (let b3 := { b2 with slots := b2.slots.modify k (Slot.sampled b.now n s) }
       if 64 ≤ (b3.slots.getD k {}).group.length then b3.closeGroup k else b3) := by
    refine ⟨?block, ?sample, ?counts, ?run⟩
    case run =>
      unfold Block.takeSample
      dsimp only
      rw [code, if_neg known]
      rfl
    case counts =>
      exact CountsSlot.either (CountsSlot.either ((CountsSlot.refl k b).slotCount 3) (CountsSlot.refl k b))
        (CountsSlot.slotCount (CountsSlot.either ((CountsSlot.refl k b).slotCount 3) (CountsSlot.refl k b)) 4)
  obtain ⟨b2, s, ⟨f, rfl, keeps⟩, run⟩ := run
  have here : (((b.slots.modify k f).modify k (Slot.sampled b.now n s)).getD k {}) = (f (b.slots.getD k {})).sampled b.now n s := by
    rw [getD_modify_same (by simpa using inside), getD_modify_same inside]
  have few : ¬ 64 ≤ ((f (b.slots.getD k {})).sampled b.now n s).group.length := by
    rw [keeps]
    simp only [Slot.sampled, fresh, List.nil_append, List.length_singleton]
    omega
  dsimp only at run
  rw [here, if_neg few] at run
  rw [run]
  exact ⟨_, s, here, keeps _, rfl⟩

/-- A read that fails, and not the eighth time in a run, is counted (R218). -/
theorem Block.readFailed_counted {b : Block} {k : Nat} (few : (b.slots.getD k {}).failRun < 7) :
    b.readFailed k = { b with slots := b.slots.modify k fun x => { x with
      failRun := (b.slots.getD k {}).failRun + 1, counters := x.counters.modify 0 bump
      changed := x.changed || x.counters.getD 0 0 != BitVec.allOnes 32 } } := by
  have notLost : ((b.slots.getD k {}).failRun + 1 == 8) = false := by
    rw [beq_eq_false_iff_ne]
    omega
  simp only [Block.readFailed, notLost, Bool.false_and, Bool.or_false, Bool.false_eq_true, if_false, Block.slotCount, List.modify_modify_eq]
  rfl

/-- Settles O25: from the edge that queues a read to the timer that closes its group. -/
theorem inertialReads : Obligations.InertialReads := by
  unfold Obligations.InertialReads
  intro s
  refine ⟨fun pin rising w short => ?_, fun pin rising w k long inside idle named => ?_, fun k on polls due0 due => ?_,
    fun c k serial free idle next => ?_, fun c k busy inside all on few => ?_, fun c k bs busy inside all on known fresh => ?_,
    fun k some late => ?_, fun k early => ?_⟩
  · refine State.act_of_eq (f := Block.irqEdge pin rising w) ?_
    refine Block.foldl_still fun j _ => ?_
    simp [Nat.not_le.2 short]
  · refine State.act_of_eq (f := Block.irqEdge pin rising w) ?_
    have other : ∀ j < 6, j ≠ k → (s.slotOn j && s.port j 105 1 == pin.val && (s.port j 106 1 == 0) == rising) = false :=
      fun j lt ne => by rw [named j lt]; simpa using ne
    have here : (s.slotOn k && s.port k 105 1 == pin.val && (s.port k 106 1 == 0) == rising) = true := by rw [named k inside]; simp
    refine Block.foldl_only inside (fun j lt ne => if_neg ?_) ?_ fun j lt ne => if_neg ?_
    · intro fires
      exact Bool.false_ne_true ((other j lt ne).symm.trans (by simpa [long] using fires))
    · rw [if_pos (by simpa [long] using here), Block.dataReady, idle]
      rfl
    · intro fires
      have same : (decide (8 ≤ w) && s.slotOn j && s.port j 105 1 == pin.val && (s.port j 106 1 == 0) == rising) = true := fires
      exact Bool.false_ne_true ((other j lt ne).symm.trans (by simpa [long] using same))
  · refine completes_of_act (f := Block.pollTimer k) rfl ?_
    rw [Block.pollTimer, if_pos (by simp only [on, polls, bne_iff_ne.2 due0, due, beq_self_eq_true, decide_true, Bool.and_self])]
    exact ⟨rfl, rfl⟩
  · refine State.act_of_eq (f := Block.readStart c) ?_
    have port := waitingReads_port next
    have low : ¬ 2 ≤ c.val := by omega
    have read : s.readOut k = .busRead k (slice (leBytes 2 (s.port k 108 2)) 0 (s.port k 107 1)) (s.port k 110 1) := by
      simp [Block.readOut, port, low]
    rw [← read]
    simp only [Block.readStart, free, idle, next, low, Bool.false_and, Bool.false_eq_true, if_false, decide_false]
    rfl
  · refine completes_of_act (f := Block.readDone c none) rfl ?_
    have within : k < s.slots.length := by omega
    have run : s.readDone c none = Block.readFailed k { s.toBlock with
        ctls := s.ctls.set c none, slots := s.slots.modify k fun x => { x with reading := none } } := by
      simp only [Block.readDone, busy, on, Bool.not_true, Bool.false_eq_true, if_false]
    rw [run, Block.readFailed_counted (by rw [getD_modify_same within]; exact few)]
    refine ⟨rfl, ?_, rfl⟩
    rw [List.modify_modify_eq, getD_modify_same within]
    refine modify_congr fun x here => ?_
    rw [List.getD_eq_getElem?_getD, here]
    rfl
  · refine completes_of_act (f := Block.readDone c (some bs)) rfl ?_
    have within : k < s.slots.length := by omega
    generalize e2 : ({ s.toBlock with ctls := s.ctls.set c none, slots := (s.slots.modify k fun x => { x with reading := none }).modify k fun x =>
      { x with failRun := 0, lost := false } } : Block) = b2
    generalize e3 : (if (s.slots.getD k {}).lost then b2.event 0x000B (s.ctlUnit k) (s.sensorBody k (s.slots.getD k {}).failRun) else b2 : Block) = b3
    have run : s.readDone c (some bs) = b3.takeSample k ((s.slots.getD k {}).reading.getD { stamp := s.now }) bs := by
      rw [← e3, ← e2]
      simp only [Block.readDone, busy, on, Bool.not_true, Bool.false_eq_true, if_false]
    have told : b3 = { b2 with host := b3.host, flt := b3.flt } := by
      rw [← e3]
      split
      · exact Block.eq_of_fields (by simp)
      · rfl
    have slot : b2.slots.getD k {} = { s.slots.getD k {} with reading := none, failRun := 0, lost := false } := by
      rw [← e2]
      dsimp only
      rw [getD_modify_same (by simpa using within), getD_modify_same within]
    have same : b3.slots = b2.slots ∧ b3.cfg = s.cfg ∧ b3.now = s.now := by
      rw [told, ← e2]
      exact ⟨rfl, rfl, rfl⟩
    obtain ⟨slots, cfg, now⟩ := same
    have code : b3.rangeCode k bs = s.rangeCode k bs := by
      simp only [Block.rangeCode, Block.port, Block.setting, cfg]
      rfl
    obtain ⟨x, sample, opened, kept, rest⟩ := Block.takeSample_opens (b := b3) (k := k) (by rw [slots, ← e2]; simpa using within)
      ((s.slots.getD k {}).reading.getD { stamp := s.now }) bs (by rw [code, cfg]; exact known) (by rw [slots, slot]; exact fresh)
    rw [slots, slot] at kept
    rw [run, opened, rest, code, now, kept]
    rw [told, ← e2]
    refine ⟨rfl, ?_, ?_, rfl, rfl, rfl, rfl, rfl⟩
    · simp only [Slot.sampled, fresh, List.nil_append, List.length_singleton]
    · simp only [Slot.sampled, fresh, List.isEmpty_nil, if_true]
  · refine completes_of_act (f := Block.groupTimer k) rfl ?_
    have full : (s.slots.getD k {}).group.isEmpty = false := by simpa only [List.isEmpty_eq_false_iff] using some
    have run : s.groupTimer k = { s.toBlock.flow (0x90 + k) 0x0110 (s.ctlUnit k) (s.inertialPayload k (s.slots.getD k {}).group) [] with
        slots := (s.toBlock.flow (0x90 + k) 0x0110 (s.ctlUnit k) (s.inertialPayload k (s.slots.getD k {}).group) []).slots.modify k fun x =>
          { x with group := [] } } := by
      simp only [Block.groupTimer, full, late, Bool.not_false, decide_true, Bool.and_self, if_true, Block.closeGroup, Bool.false_eq_true, if_false]
    rw [run]
    exact ⟨rfl, rfl, rfl⟩
  · refine State.act_of_eq (f := Block.groupTimer k) ?_
    simp only [Block.groupTimer, Nat.not_le.2 early, decide_false, Bool.and_false, Bool.false_eq_true, if_false]

end Sys2Proof.Machine
end

section
/-! PROOF. The lines of an open frame, embedded data, and Frame End (O24; R205 to R212). -/

namespace Sys2Proof.Machine

/-! ### What is not traced -/

theorem bumpBy_zero {w : Nat} (c : BitVec w) : bumpBy c 0 = c := by
  rw [bumpBy, if_pos (by have := c.isLt; omega)]
  simp

theorem set_getD {α : Type} (l : List α) (k : Nat) (d : α) : l.set k (l.getD k d) = l := by
  refine List.ext_getElem? fun i => ?_
  rw [List.getElem?_set, List.getD_eq_getElem?_getD]
  split
  · subst k
    split
    · rename_i lt
      simp [List.getElem?_eq_getElem lt]
    · rename_i out
      rw [List.getElem?_eq_none (by omega)]
  · rfl

/-- A parcel without inputs leaves no trace record (R192). -/
theorem Block.trace_nil (p : Parcel) (b : Block) : b.trace p [] = b := by
  have untraced : b.traces p (consumed []) = false := by simp [Block.traces, consumed]
  simp only [Block.trace, untraced, Bool.false_eq_true, if_false, List.foldl_nil, set_getD, bumpBy_zero]

theorem Block.flow_ports (stream type : Nat) (unit : BitVec 8) (payload : Bytes) (ports : List Port) (b : Block) :
    Block.flow stream type unit payload [] { b with ports := ports } = { b.flow stream type unit payload [] with ports := ports } := by
  simp only [Block.flow, Block.trace_nil]
  rfl

/-- What a port emits does not depend on its own state. -/
theorem Block.lines_ports (k : Nat) (pls : List Bytes) (ports : List Port) (b : Block) :
    Block.lines k pls { b with ports := ports } = { b.lines k pls with ports := ports } := by
  unfold Block.lines
  induction pls generalizing b with
  | nil => rfl
  | cons pl pls ih =>
    rw [List.foldl_cons, List.foldl_cons, Block.flow_ports]
    exact ih _

/-! ### Pixel lines -/

/-- A change of the open frame. -/
theorem onFrame_of_frame {b : Block} {k : Nat} {f : Frame} (opened : (b.ports.getD k {}).frame = some f) (g : Frame → Frame) :
    b.onFrame k g = { b with ports := b.ports.modify k fun x => { x with frame := some (g f) } } := by
  rw [Block.onFrame, modify_congr]
  intro x here
  rw [List.getD_eq_getElem?_getD, here] at opened
  rw [show x.frame = some f from opened]
  rfl

/-- A line within the frame's height is emitted, or its absence (R205, R206). -/
theorem Block.takeLine_within {b : Block} {k : Nat} {f : Frame} (opened : (b.ports.getD k {}).frame = some f) (within : f.next < f.f 26 2)
    (good : Bool) (payload : Bytes) :
    b.takeLine k good payload =
      { (if good then b.lines k (linePayloads (b.camOf k) f.no f.next ((List.range (b.port k 24 2)).map (unpackPixel (b.port k 33 1) payload)))
         else b.missingLine k f.no f.next) with
        ports := b.ports.modify k fun x => { x with frame := some { f with next := f.next + 1, lines := f.lines ++ [⟨f.next, good⟩] } } } := by
  unfold Block.takeLine
  simp only [opened, Nat.not_le.2 within, if_false]
  generalize e : (if good = true then _ else _ : Block) = b1
  have ports : b1.ports = b.ports := by
    rw [← e]
    split <;> simp
  rw [onFrame_of_frame (by rw [ports]; exact opened), ports]

/-- A long packet of the port's pixels (R206). -/
theorem Block.anyLong_pixels {b : Block} {k : Nat} {p : LongPkt} (on : b.csiOn k = true) (synced : (b.ports.getD k {}).synced = true)
    (ok : p.ecc = .ok) (own : p.vc.toNat = b.port k 32 1) (pixels : p.dt.toNat = b.port k 33 1) : b.anyLong k p = b.pixelLine k p := by
  have mapped : b.vcMapped k p.vc.toNat = true := by simp [Block.vcMapped, own]
  have channel : (p.vc.toNat == b.port k 32 1) = true := by rw [own, beq_self_eq_true]
  have type : (p.dt.toNat == b.port k 33 1) = true := by rw [pixels, beq_self_eq_true]
  simp only [Block.anyLong, on, synced, ok, Block.headerEcc, mapped, channel, type, Bool.not_true, Bool.or_self, Bool.false_eq_true, if_false, Bool.and_self,
    if_true]

/-- A long packet of embedded data, on a port that takes it (R210). -/
theorem Block.anyLong_embeds {b : Block} {k : Nat} {p : LongPkt} (on : b.csiOn k = true) (synced : (b.ports.getD k {}).synced = true)
    (ok : p.ecc = .ok) (own : p.vc.toNat = b.port k 36 1) (takes : b.port k 35 1 % 2 = 1) (type : p.dt = 0x12) (other : b.port k 33 1 ≠ 0x12) :
    b.anyLong k p = b.embedData k p := by
  have mapped : b.vcMapped k p.vc.toNat = true := by simp [Block.vcMapped, own, takes]
  have channel : (p.vc.toNat == b.port k 36 1) = true := by rw [own, beq_self_eq_true]
  have pixels : (p.dt.toNat == b.port k 33 1) = false := by
    rw [type, beq_eq_false_iff_ne]
    exact fun e => other e.symm
  have embeds : (p.dt == 0x12) = true := by rw [type, beq_self_eq_true]
  simp only [Block.anyLong, on, synced, ok, Block.headerEcc, mapped, channel, pixels, embeds, takes, beq_self_eq_true, Bool.not_true, Bool.or_self,
    Bool.false_eq_true, if_false, Bool.and_false, Bool.and_self, if_true]

/-- A packet of the right length that did not overflow is a good line or a bad one by its CRC alone (R206). -/
theorem Block.pixelLine_whole {b : Block} {k : Nat} {p : LongPkt} (length : p.payload.length = lineBytes (b.port k 24 2) p.dt.toNat)
    (fits : p.overflow = false) : b.pixelLine k p = (if p.crcOk then b else b.portCount k 5).takeLine k p.crcOk p.payload := by
  have whole : (p.payload.length != lineBytes (b.port k 24 2) p.dt.toNat) = false := by rw [length, bne_self_eq_false]
  simp only [Block.pixelLine, whole, fits, Bool.false_eq_true, if_false, Bool.not_false, Bool.and_true]

/-- One EMBED parcel of an open stream 7 (R210). -/
theorem Block.embed_open {b : Block} (opened : (b.host.streams.getD 7 {}).isOpen = true) (k : Nat) (payload : Bytes) :
    b.embed k payload = { b with host := { b.host with streams := b.host.streams.modify 7 (Stream.take
      (sealParcel b.chip 0x0103 (BitVec.ofNat 8 (0x88 + k)) (b.host.streams.getD 7 {}).nextSeq (portUnit k) payload [])) } } := by
  have numbers : (b.host.streams.getD 7 {}).numbers 7 = true := by rw [Stream.numbers, opened, Bool.or_true]
  simp only [Block.embed, numbers, if_true, Block.trace_nil]
  rfl

/-- A frame that is used leaves its port without an open one (R208). -/
theorem Block.useFrame_ports {b : Block} {k : Nat} (inside : k < b.ports.length) (fs mid : Tick) (dropped : Bool)
    (closed : (b.ports.getD k {}).frame = none) : ((b.useFrame k fs mid dropped).ports.getD k {}).frame = none := by
  unfold Block.useFrame
  dsimp only
  split
  · rw [show ((b.portCount k 15).foxForget _ _).ports = (b.portCount k 15).ports by simp, Block.portCount, getD_modify_same inside]
    exact closed
  · have still (p : Port → Port) (keeps : ∀ x, (p x).frame = x.frame) : ((b.ports.modify k p).getD k {}).frame = none := by
      rw [getD_modify_same inside, keeps]
      exact closed
    split
    · split
      · simp only [Block.foxDiscard_frame]
        exact still _ fun _ => rfl
      · simp only [Block.foxForget_frame]
        exact still _ fun _ => rfl
    · simp only [Block.foxFrameDone_frame]
      exact still _ fun _ => rfl

/-- A port whose frame ends has none open (R208). -/
theorem Block.closeFrame_closed {b : Block} {k : Nat} (inside : k < b.ports.length) (fe : Tick) :
    ((b.closeFrame k (some fe)).ports.getD k {}).frame = none := by
  unfold Block.closeFrame
  split
  · assumption
  · rename_i f _
    simp only [Option.isNone_some, Bool.false_eq_true, if_false, Bool.or_false]
    generalize e1 : List.foldl (fun (b : Block) i => b.missingLine k f.no i) b _ = b1
    have size1 : k < b1.ports.length := by
      rw [← e1, foldl_keeps Block.ports (fun _ _ => by simp)]
      exact inside
    generalize framePayload _ _ _ _ _ _ _ _ _ _ _ = payload
    generalize decide (f.f 29 1 < _) = dropped
    generalize e2 : (if f.tooMany = true then b1.portCount k 8 else b1) = b2
    have size2 : k < b2.ports.length := by
      rw [← e2]
      split
      · simpa [Block.portCount] using size1
      · exact size1
    generalize e3 : (if dropped = true then b2.portCount k 9 else b2) = b3
    have size3 : k < b3.ports.length := by
      rw [← e3]
      split
      · simpa [Block.portCount] using size2
      · exact size2
    generalize e4 : Block.flow _ _ _ _ _ _ = b4
    have size4 : k < b4.ports.length := by
      rw [← e4, (Block.flow_frame _ _ _ _ _ _).2.2.2.2.2.2.2.2.1]
      split
      · simpa [Block.portCount] using size3
      · exact size3
    refine useFrame_ports ?_ _ _ _ ?_
    · split <;> simpa using size4
    · split <;> exact congrArg Port.frame (getD_modify_same size4 _ _)

/-- Settles O24: packet by packet, by what each counts or adds. -/
theorem linesOfAFrame : Obligations.LinesOfAFrame := by
  unfold Obligations.LinesOfAFrame
  intro s k on synced all
  have inside : k.val < s.ports.length := by omega
  refine ⟨fun p f ok own numbered opened => ?_, fun p ok own => ?_,
    fun p f ok own pixels opened => ⟨fun within length fits => ⟨fun crc => ?_, fun crc => ?_⟩, fun beyond length fits crc => ?_⟩,
    fun p ok crc own embeds type other => ⟨fun closed => ?_, fun f isOpen whole some short opened => ?_⟩,
    fun p ok own idle => ?_, fun p f ok own opened => ?_⟩
  · refine State.act_of_eq (f := Block.lineStart k false p) ?_
    have mapped : s.vcMapped k p.vc.toNat = true := by simp [Block.vcMapped, own]
    have channel : (p.vc.toNat != s.port k 32 1) = false := by rw [own, bne_self_eq_false]
    simp only [Block.lineStart, on, synced, ok, Block.headerEcc, mapped, channel, numbered, Bool.not_true, Bool.or_self, Bool.false_eq_true, if_false,
      decide_false]
    rw [onFrame_of_frame opened]
  · refine State.act_of_eq (f := Block.lineStart k true p) ?_
    have mapped : s.vcMapped k p.vc.toNat = true := by simp [Block.vcMapped, own]
    simp only [Block.lineStart, on, synced, ok, Block.headerEcc, mapped, Bool.not_true, Bool.or_self, Bool.false_eq_true, if_false, Bool.true_or, if_true]
  · refine completes_of_act (f := Block.longPacket k p) rfl ?_
    rw [show s.longPacket k p = s.anyLong k p from rfl, Block.anyLong_pixels on synced ok own pixels, Block.pixelLine_whole length fits, crc, if_pos rfl,
      Block.takeLine_within opened within]
    exact ⟨rfl, rfl, Block.eq_of_fields (by simp)⟩
  · refine completes_of_act (f := Block.longPacket k p) rfl ?_
    have counted : ((s.toBlock.portCount k 5).ports.getD k {}).frame = some f := by
      rw [Block.portCount, getD_modify_same inside]
      exact opened
    rw [show s.longPacket k p = s.anyLong k p from rfl, Block.anyLong_pixels on synced ok own pixels, Block.pixelLine_whole length fits, crc,
      if_neg Bool.false_ne_true, Block.takeLine_within counted within]
    have absent : Block.missingLine k f.no f.next (s.toBlock.portCount k 5) =
        { s.toBlock.missingLine k f.no f.next with ports := (s.toBlock.portCount k 5).ports } := Block.lines_ports _ _ _ _
    rw [if_neg Bool.false_ne_true, absent]
    refine ⟨?_, rfl, Block.eq_of_fields (by simp)⟩
    rw [Block.portCount, List.modify_modify_eq]
    rfl
  · refine State.act_of_eq (f := Block.longPacket k p) ?_
    rw [show s.longPacket k p = s.anyLong k p from rfl, Block.anyLong_pixels on synced ok own pixels, Block.pixelLine_whole length fits, crc, if_pos rfl]
    unfold Block.takeLine
    simp only [opened, beyond, if_true]
    rw [onFrame_of_frame opened]
  · refine State.act_of_eq (f := Block.embedPacket k p) ?_
    rw [show s.embedPacket k p = s.anyLong k p from rfl, Block.anyLong_embeds on synced ok own embeds type other]
    simp only [Block.embedData, crc, closed, Bool.not_true, Bool.and_false, Bool.false_eq_true, if_false]
    rfl
  · refine completes_of_act (f := Block.embedPacket k p) rfl ?_
    have one : (p.payload.length + 4087) / 4088 = 1 := by omega
    rw [show s.embedPacket k p = s.anyLong k p from rfl, Block.anyLong_embeds on synced ok own embeds type other]
    simp only [Block.embedData, crc, isOpen, whole, opened, one, Bool.not_true, Bool.and_true, Bool.false_eq_true, if_false,
      show 3 / 2 % 2 = 1 from rfl, beq_self_eq_true, if_true, List.range_one, List.foldl_cons, List.foldl_nil, Nat.mul_zero, List.drop_zero,
      List.take_of_length_le short, Block.embed_open isOpen]
    refine ⟨getD_modify_same ?_ _ _, fun j apart => getD_modify_other apart _ _ _, trivial⟩
    by_contra out
    rw [List.getD_eq_getElem?_getD, List.getElem?_eq_none (by omega)] at isOpen
    exact Bool.false_ne_true isOpen
  · refine State.act_of_eq (f := Block.frameEnd k p) ?_
    have mapped : s.vcMapped k p.vc.toNat = true := by simp [Block.vcMapped, own]
    have channel : (p.vc.toNat != s.port k 32 1) = false := by rw [own, bne_self_eq_false]
    simp only [Block.frameEnd, on, synced, ok, Block.headerEcc, mapped, channel, idle, Bool.not_true, Bool.or_self, Bool.false_eq_true, if_false,
      Option.isNone_none, if_true]
    rfl
  · refine completes_of_act (f := Block.frameEnd k p) rfl ?_
    have mapped : s.vcMapped k p.vc.toNat = true := by simp [Block.vcMapped, own]
    have channel : (p.vc.toNat != s.port k 32 1) = false := by rw [own, bne_self_eq_false]
    have run : s.frameEnd k p = s.closeFrame k (some (s.now - s.deskew k)) := by
      simp only [Block.frameEnd, on, synced, ok, Block.headerEcc, mapped, channel, opened, Bool.not_true, Bool.or_self, Bool.false_eq_true, if_false,
        Option.isNone_some]
    rw [run]
    exact ⟨Block.closeFrame_closed inside _, by simp, by simp, by simp⟩

end Sys2Proof.Machine
end

section
/-! PROOF. PTM dialogues (O16; R117 to R123, R676), and what a write to a register clears, keeps and is counted for (O21; R640 to R653). -/

namespace Sys2Proof.Machine

/-! ### PTM dialogues -/

theorem Thermos.timeKept {x : Thermos} (kept : x.timeLost = false) : { x with timeLost := false } = x := by rw [← kept]

/-- TIME_LOST ends, and where it stood an event tells it (R122). -/
theorem Block.timeRegained_parts (cause : Nat) (b : Block) :
    (b.timeRegained cause).tim = b.tim ∧ (b.timeRegained cause).thermos = { b.thermos with timeLost := false }
      ∧ b.timeRegained cause = { b with thermos := (b.timeRegained cause).thermos, host := (b.timeRegained cause).host
                                        flt := (b.timeRegained cause).flt } := by
  unfold Block.timeRegained
  split
  · exact ⟨by simp, by simp, Block.eq_of_fields (by simp)⟩
  · rename_i kept
    exact ⟨rfl, (Thermos.timeKept (by simpa using kept)).symm, rfl⟩

/-- Settles O16: by the link's power state at the request, and by how the dialogue ends. -/
theorem ptmDialogues : Obligations.PtmDialogues := by
  unfold Obligations.PtmDialogues
  intro s
  refine ⟨fun ready up ptm free => ?_, fun m d busy => ?_, fun busy => ?_, fun free => ⟨?_, fun m d => ?_⟩, fun v ready bit lost => ?_, fun v bit => ?_⟩
  · have on : s.ptmOn = true := by simp [Block.ptmOn, Block.ready, ready, up, ptm]
    refine ⟨fun due awake => ?_, fun due asleep => ?_, fun early => ?_, fun deferred awake => ?_⟩
    · refine State.act_of_eq (f := Block.ptmDue) ?_
      simp only [Block.ptmDue, on, due, free, awake, decide_true, Bool.not_false, Bool.and_self, beq_self_eq_true, if_true]
      rfl
    · exact State.act_of_eq (f := Block.ptmDue) (by simp [Block.ptmDue, on, due, free, asleep])
    · exact State.act_of_eq (f := Block.ptmDue) (by simp [Block.ptmDue, Nat.not_le.2 early])
    · exact State.act_of_eq (f := Block.ptmDeferred) (by simp [Block.ptmDeferred, on, deferred, free, awake, Block.ptmStart, Block.drive])
  · refine completes_of_act (f := Block.ptmComplete m d) rfl ?_
    rw [Block.ptmComplete, if_pos busy]
    dsimp only
    generalize e : Block.event 0x0002 noUnit _ _ = b1
    have told : b1.thermos = s.thermos ∧ b1.tim = { s.tim with
          busy := false, valid := true, pairHost := ptmHostTime m d s.tim.reqAt s.now, pairEpoch := s.thermos.tbEpoch
          pairTb := BitVec.ofNat 64 s.tim.reqAt + (if s.link.speed = 0 then 1 else 0) }
        ∧ b1 = { s.toBlock with tim := b1.tim, host := b1.host, flt := b1.flt } := by
      rw [← e]
      exact ⟨by simp, by simp, Block.eq_of_fields (by simp)⟩
    obtain ⟨thermos, tim, rest⟩ := told
    obtain ⟨kept, time, other⟩ := b1.timeRegained_parts 1
    rw [thermos] at time
    refine ⟨kept.trans tim, time, ?_⟩
    rw [other, rest]
  · exact State.act_of_eq (f := Block.ptmFail) (by simp [Block.ptmFail, busy])
  · exact State.act_of_eq (f := Block.ptmFail) (by simp [Block.ptmFail, free])
  · exact State.act_of_eq (f := Block.ptmComplete m d) (by simp [Block.ptmComplete, free])
  · refine completes_of_act (f := Block.lostAck v) rfl ?_
    have run : s.lostAck v = Block.event 0x0004 noUnit [2] { s.toBlock with thermos := { s.thermos with timeLost := false } } := by
      simp only [Block.lostAck, Block.ready, ready, bit, beq_self_eq_true, Bool.and_self, if_true, Block.timeRegained, lost]
      rfl
    rw [run]
    have kept : (Block.event 0x0004 noUnit [2] { s.toBlock with thermos := { s.thermos with timeLost := false } }).thermos
      = { s.thermos with timeLost := false } := by simp
    refine ⟨kept, ?_, Block.eq_of_fields (by simp)⟩
    rw [kept]
    exact ⟨rfl, rfl⟩
  · exact State.act_of_eq (f := Block.lostAck v) (by simp only [Block.lostAck, bit, Bool.and_false, Bool.false_eq_true, if_false])

/-! ### Register writes -/

theorem regAccess_portCounter : ∀ (k : Fin 6) (i : Fin 16), regAccess (0x2000 + 0x80 * k + 4 * i) = .clr := by decide

theorem regAccess_queueSize : ∀ q : Fin 16, regAccess (0x1010 + 0x40 * q) = .rw := by decide

theorem inBlock_below {off base n : Nat} (low : off < base) : inBlock base n off = false := by
  simp only [inBlock, Nat.not_le.2 low, decide_false, Bool.false_and]

/-- A write of one word below the MSI-X table: its clear, its count, its effect (R640, R643). -/
theorem Block.bar0Write_word {off : Nat} (aligned : off % 4 = 0) (low : off < 0xE000) (v : BitVec 64) (b : Block) :
    b.bar0Write off 4 v = Block.wordWrite off (v.setWidth 32)
      (if b.wordBad off (v.setWidth 32) then (b.clearWrite off (v.setWidth 32)).badReg else b.clearWrite off (v.setWidth 32)) := by
  have table : inBlock 0xE000 0x200 off = false := inBlock_below low
  have pending : inBlock 0xF000 8 off = false := inBlock_below (by omega)
  simp [Block.bar0Write, table, pending, aligned, accessWords]

/-- A word of a register that is neither cleared nor counted goes to its effect alone. -/
theorem Block.clearWrite_of_rw {off : Nat} {v : BitVec 32} {b : Block} (access : regAccess off = .rw) : b.clearWrite off v = b := by
  simp only [Block.clearWrite, access, ite_self]

/-- A write to the size of a queue is ignored and counted while the queue is enabled (R653). -/
theorem Block.queueSize_bad {b : Block} (ready : b.boot.phase = .ready) (q : Fin 16) (v : BitVec 32) :
    b.wordBad (0x1010 + 0x40 * q) v = (b.host.queues.getD q {}).enabled := by
  have inside : inBlock 0x1000 0x400 (0x1010 + 0x40 * q) = true := by
    have := q.isLt
    simp only [inBlock, Bool.and_eq_true, decide_eq_true_eq]
    omega
  have config : (0x1010 + 0x40 * q.val) % 0x40 < 0x1C := by omega
  have number : (0x1010 + 0x40 * q.val - 0x1000) / 0x40 = q := by omega
  simp only [Block.wordBad, regAccess_queueSize, Block.ready, ready, inside, config, number, Block.queue, beq_self_eq_true, decide_true, Bool.true_and]

/-- The size of a disabled queue is written (R653). -/
theorem Block.queueSize_write {b : Block} (ready : b.boot.phase = .ready) {q : Fin 16} (off : (b.host.queues.getD q {}).enabled = false) (v : BitVec 32) :
    b.wordWrite (0x1010 + 0x40 * q) v = { b with host := { b.host with queues := b.host.queues.modify q fun x => { x with sqSize := v.setWidth 13 } } } := by
  have bad : b.wordBad (0x1010 + 0x40 * q) v = false := (b.queueSize_bad ready q v).trans off
  have isReady : b.ready = true := by simp [Block.ready, ready]
  have config : (0x1010 + 0x40 * q.val) % 0x40 = 0x10 := by omega
  have number : (0x1010 + 0x40 * q.val - 0x1000) / 0x40 = q := by omega
  unfold Block.wordWrite
  simp only [regAccess_queueSize, isReady, bad, Bool.not_true, Bool.or_self, Bool.false_eq_true, if_false]
  rw [if_neg (by omega), if_neg (by omega), if_neg (by omega), if_neg (by omega), if_neg (by omega), if_neg (by omega), if_pos (by omega), config, number]
  rfl

/-- Settles O21: register by register, through the write of a word. -/
theorem clearAndRegisterWrites : Obligations.ClearAndRegisterWrites := by
  unfold Obligations.ClearAndRegisterWrites
  intro s phase
  have awake : s.awake = true := by simpa [Block.awake] using phase
  refine ⟨fun v => ?_, fun v => ?_, fun k i v => ?_, fun v => ?_, fun v => ?_, fun o v crooked low => ?_, fun v => ?_, fun ready q v on => ?_,
    fun ready q v off => ?_, fun up => ⟨fun v => ?_, ?_, ?_, ?_⟩⟩
  · refine State.act_of_eq (f := Block.clearWrite 0x720 v) ?_
    rw [Block.clearWrite, awake]
    rfl
  · refine State.act_of_eq (f := Block.clearWrite 0x230 v) ?_
    rw [Block.clearWrite, awake]
    rfl
  · refine State.act_of_eq (f := Block.clearWrite (0x2000 + 0x80 * k + 4 * i) v) ?_
    have port : (0x2000 + 0x80 * k.val + 4 * i.val - 0x2000) / 0x80 = k := by omega
    have counter : (0x2000 + 0x80 * k.val + 4 * i.val) % 0x80 / 4 = i := by omega
    have aligned : ¬ (0x2000 + 0x80 * k.val + 4 * i.val) % 4 ≠ 0 := by omega
    have high : ¬ 0x2000 + 0x80 * k.val + 4 * i.val < 0x1000 := by omega
    have within : 0x2000 + 0x80 * k.val + 4 * i.val < 0x2300 := by omega
    simp only [Block.clearWrite, awake, aligned, regAccess_portCounter, high, Block.clearCounter, within, port, counter, Block.clearPort, i.isLt,
      Bool.not_true, decide_false, Bool.or_self, Bool.false_eq_true, if_false, if_true]
  · refine State.act_of_eq (f := Block.clearWrite 0x400 v) ?_
    rw [Block.clearWrite, awake]
    rfl
  · refine State.act_of_eq (f := Block.registerWrite (.bar0 0x1500 4 v)) ?_
    have run : s.registerWrite (.bar0 0x1500 4 v) = s.bar0Write 0x1500 4 v := by simp only [Block.registerWrite, awake, Bool.not_true, Bool.false_eq_true, if_false]
    rw [run, Block.bar0Write_word (by decide) (by decide)]
    have access : regAccess 0x1500 = .none := by decide
    simp only [Block.wordBad, Block.wordWrite, Block.clearWrite, access, ite_self, if_true]
    rfl
  · refine State.act_of_eq (f := Block.registerWrite (.bar0 o 4 v)) ?_
    have table : inBlock 0xE000 0x200 o = false := inBlock_below low
    have pending : inBlock 0xF000 8 o = false := inBlock_below (by omega)
    simp [Block.registerWrite, awake, Block.bar0Write, table, pending, crooked, Block.badReg]
  · refine State.act_of_eq (f := Block.registerWrite (.bar0 0x508 4 v)) ?_
    have run : s.registerWrite (.bar0 0x508 4 v) = s.bar0Write 0x508 4 v := by simp only [Block.registerWrite, awake, Bool.not_true, Bool.false_eq_true, if_false]
    rw [run, Block.bar0Write_word (by decide) (by decide)]
    have access : regAccess 0x508 = .clr := by decide
    simp only [Block.wordBad, Block.wordWrite, Block.clearWrite, access, awake]
    rfl
  · refine State.act_of_eq (f := Block.registerWrite (.bar0 (0x1010 + 0x40 * q) 4 v)) ?_
    have run : s.registerWrite (.bar0 (0x1010 + 0x40 * q) 4 v) = s.bar0Write (0x1010 + 0x40 * q) 4 v := by simp only [Block.registerWrite, awake, Bool.not_true, Bool.false_eq_true, if_false]
    rw [run, Block.bar0Write_word (by omega) (by omega), s.queueSize_bad ready, on, if_pos rfl, Block.clearWrite_of_rw (regAccess_queueSize q)]
    have again : Block.wordBad (0x1010 + 0x40 * q) (v.setWidth 32) s.badReg = true := (s.badReg.queueSize_bad ready q _).trans on
    simp only [Block.wordWrite, regAccess_queueSize, again, Bool.or_true, if_true]
    rfl
  · refine State.act_of_eq (f := Block.registerWrite (.bar0 (0x1010 + 0x40 * q) 4 v)) ?_
    have run : s.registerWrite (.bar0 (0x1010 + 0x40 * q) 4 v) = s.bar0Write (0x1010 + 0x40 * q) 4 v := by simp only [Block.registerWrite, awake, Bool.not_true, Bool.false_eq_true, if_false]
    rw [run, Block.bar0Write_word (by omega) (by omega), s.queueSize_bad ready, off, if_neg Bool.false_ne_true,
      Block.clearWrite_of_rw (regAccess_queueSize q), Block.queueSize_write ready off,
      BitVec.setWidth_setWidth_of_le v (by decide)]
  · exact State.act_of_eq (f := Block.registerWrite (.msixControl v)) (by simp [Block.registerWrite, awake, up])
  · exact State.act_of_eq (f := Block.registerWrite (.busMaster true)) (by simp [Block.registerWrite, awake, up])
  · exact State.act_of_eq (f := Block.registerWrite (.ptmControl false)) (by simp [Block.registerWrite, awake, up, Block.ptmControl])
  · exact State.act_of_eq (f := Block.registerWrite (.linkPm 1)) (by simp [Block.registerWrite, awake, up, pmOf])

end Sys2Proof.Machine
end

section
/-! PROOF. The doorbells, the coalescing timer and the sideband (O39; R460 to R466, R510 to R512). -/

namespace Sys2Proof.Machine

/-! ### Fields of byte strings -/

theorem field_prefix {xs : Bytes} {off n : Nat} (inside : off + n ≤ xs.length) (ys : Bytes) : field (xs ++ ys) off n = field xs off n := by
  rw [field, field, slice, slice, List.drop_append_of_le_length (by omega), List.take_append_of_le_length (by rw [List.length_drop]; omega)]

theorem field_take {m off n : Nat} (inside : off + n ≤ m) (xs : Bytes) : field (xs.take m) off n = field xs off n := by
  rw [field, field, slice, slice, List.drop_take, List.take_take, Nat.min_eq_left (by omega)]

@[simp] theorem length_fit (n : Nat) (xs : Bytes) : (fit n xs).length = n := by
  simp [fit]

theorem field_fit {m off n : Nat} (inside : off + n ≤ m) {xs : Bytes} (short : off + n ≤ xs.length) : field (fit m xs) off n = field xs off n := by
  rw [fit, field_take inside, field_prefix short]

/-- The first 60 bytes of the status block, as they are before they are cut (R511). -/
def Block.statusBody (updates : BitVec 32) (b : Block) : Bytes :=
  leBytes 2 1 ++ leBytes 1 (phaseCode b.boot.phase) ++ leBytes 1 (helloCode b.feat.state)
    ++ [b.boot.causeA, b.boot.causeB] ++ leBytes 3 b.flt.capacity.toNat
    ++ leBytes 1 (b.link.up.toNat + 2 * b.thermos.timeLost.toNat + 4 * b.den.dramAbsent.toNat + 8 * b.boot.custKeyBlank.toNat
      + 16 * b.pwr.paused.toNat) ++ [0, 0]
    ++ leBytes 4 b.thermos.tbEpoch.toNat ++ leBytes 8 b.now ++ leBytes 8 b.ep.now.toNat ++ leBytes 4 updates.toNat
    ++ leBytes 4 b.flt.sealFaults.toNat

theorem Block.statusBlock_eq (updates : BitVec 32) (b : Block) :
    b.statusBlock updates = fit 60 (b.statusBody updates) ++ leBytes 4 (crc32c (fit 60 (b.statusBody updates))).toNat := rfl

theorem length_statusBlock (updates : BitVec 32) (b : Block) : (b.statusBlock updates).length = 64 := by
  simp [Block.statusBlock_eq]

theorem Block.statusBody_length (updates : BitVec 32) (b : Block) : (b.statusBody updates).length = 40 := by
  simp [Block.statusBody]

/-- A field of the status block. -/
theorem field_statusBlock {off n : Nat} (inside : off + n ≤ 40) (updates : BitVec 32) (b : Block) :
    field (b.statusBlock updates) off n = field (b.statusBody updates) off n := by
  rw [Block.statusBlock_eq, field_prefix (by rw [length_fit]; omega), field_fit (by omega) (by rw [Block.statusBody_length]; omega)]

/-- The latched copy begins with a status block, and the mirror follows it (R511, R512). -/
theorem Block.sidebandCopy_eq (b : Block) : ∃ (u : BitVec 32) (m : Option Parcel), b.sidebandCopy = fit 1024 (b.statusBlock u ++ mirrorBytes m)
    ∧ (b.committed featMirror = false → m = none) := by
  refine ⟨_, _, rfl, fun none => ?_⟩
  simp only [none, Bool.not_false, if_true]

theorem Block.sidebandCopy_fields (b : Block) :
    b.sidebandCopy.length = 1024 ∧ field b.sidebandCopy 0 2 = 1 ∧ field b.sidebandCopy 2 1 = phaseCode b.boot.phase
      ∧ field b.sidebandCopy 16 8 = b.now ∧ field b.sidebandCopy 24 8 = b.ep.now.toNat
      ∧ field b.sidebandCopy 60 4 = (crc32c (b.sidebandCopy.take 60)).toNat := by
  obtain ⟨u, m, copy, -⟩ := b.sidebandCopy_eq
  have status {off n : Nat} (inside : off + n ≤ 64) : field b.sidebandCopy off n = field (b.statusBlock u) off n := by
    have long := length_statusBlock u b
    rw [copy, field_fit (by omega) (by rw [List.length_append]; omega), field_prefix (by omega)]
  have body {off n : Nat} (inside : off + n ≤ 40) : field b.sidebandCopy off n = field (b.statusBody u) off n := by
    rw [status (by omega), field_statusBlock inside]
  refine ⟨by rw [copy, length_fit], ?_, ?_, ?_, ?_, ?_⟩
  · rw [body (by omega)]
    rfl
  · rw [body (by omega), show field (b.statusBody u) 2 1 = ofLe (leBytes 1 (phaseCode b.boot.phase)) from rfl, ofLe_leBytes]
    cases b.boot.phase <;> rfl
  · rw [body (by omega), show field (b.statusBody u) 16 8 = ofLe (leBytes 8 b.now) from rfl, ofLe_leBytes]
    exact Nat.mod_eq_of_lt b.thermos.tb.isLt
  · rw [body (by omega), show field (b.statusBody u) 24 8 = ofLe (leBytes 8 b.ep.now.toNat) from rfl, ofLe_leBytes]
    exact Nat.mod_eq_of_lt b.ep.now.isLt
  · have first : b.sidebandCopy.take 60 = fit 60 (b.statusBody u) := by
      rw [copy, fit, List.take_take, Block.statusBlock_eq, List.append_assoc, List.append_assoc]
      exact List.take_left' (length_fit _ _)
    rw [status (by omega), first, Block.statusBlock_eq, field, slice, List.drop_left' (length_fit _ _),
      List.take_of_length_le (by rw [length_leBytes]), ofLe_leBytes]
    exact Nat.mod_eq_of_lt (BitVec.isLt _)

/-- Without the mirror feature the rest of the copy is zero. -/
theorem Block.sidebandCopy_blank {b : Block} (none : b.committed featMirror = false) : b.sidebandCopy.drop 64 = List.replicate 960 0 := by
  obtain ⟨u, m, copy, blank⟩ := b.sidebandCopy_eq
  rw [copy, blank none, fit, List.drop_take, List.append_assoc, List.drop_left' (length_statusBlock u b), mirrorBytes,
    List.replicate_append_replicate, List.take_replicate]
  rfl

/-! ### Doorbells and the timer -/

theorem Block.cause_told (i : Fin 4) (b : Block) :
    (b.cause i).host.queues = b.host.queues ∧ (b.cause i).host.streams = b.host.streams ∧ (b.cause i).host.eventCause.getLsbD i = true
      ∧ b.cause i = { b with host := (b.cause i).host, link := (b.cause i).link } := by
  have told : (b.cause i).host.queues = b.host.queues ∧ (b.cause i).host.streams = b.host.streams := by
    unfold Block.cause
    dsimp only
    split <;> exact ⟨rfl, rfl⟩
  refine ⟨told.1, told.2, ?_, Block.eq_of_fields (by simp)⟩
  rw [cause_eventCause]
  exact getLsbD_setBit_self i.isLt _

/-- A doorbell beyond the queue sets DOORBELL_ERR and tells the host, once (R462). -/
theorem Block.bellError_told {b : Block} {q : Fin 16} (inside : q < b.host.queues.length) (sound : (b.queue q).bellErr = false) :
    let t := b.bellError q
    t.host.queues = b.host.queues.modify q (fun x => { x with bellErr := true }) ∧ t.host.eventCause.getLsbD 2 = true
      ∧ (t.queue q).mayFetch = false ∧ t = { b with host := t.host, link := t.link } := by
  obtain ⟨queues, -, told, other⟩ := Block.cause_told 2 (b.onQueue q fun x => { x with bellErr := true })
  have run : b.bellError q = (b.onQueue q fun x => { x with bellErr := true }).cause 2 := by
    rw [Block.bellError, sound]
    rfl
  dsimp only
  rw [run]
  refine ⟨queues, told, ?_, other⟩
  rw [Block.queue, show (Block.cause 2 (b.onQueue q fun x => { x with bellErr := true })).host.queues = _ from queues, Block.onQueue,
    getD_modify_same inside]
  simp [Queue.mayFetch]

/-- The timer of a queue's vector (R510). -/
theorem Block.coalesceTimer_queue {q : Fin 16} {v : Fin 32} (vector : v.val = q.val + 1) {b : Block} :
    b.coalesceTimer v =
      if coalDue (b.queue q).unsig (b.queue q).unsigAt b.now (b.queue q).coalUs.toNat then (b.onQueue q fun x => { x with unsig := 0 }).signal v
      else b := by
  have number : v.val - 1 = q := by omega
  unfold Block.coalesceTimer
  rw [number]
  refine if_pos ?_
  simp only [Bool.and_eq_true, decide_eq_true_eq]
  omega

/-- Settles O39: by the doorbell's range, the timer's tick, and the copy that the read latches. -/
theorem doorbellsTimersSideband : Obligations.DoorbellsTimersSideband := by
  unfold Obligations.DoorbellsTimersSideband
  refine ⟨fun s => ⟨fun q v inside => ⟨fun deaf => ⟨?_, ?_⟩, fun on sound => ⟨fun within new => ?_, fun within => ?_, fun c beyond => ?_⟩⟩,
    fun k v opened near => ?_, fun k v opened sound far => ?_, fun k v closed => ?_, fun o n bad => ?_⟩,
    fun s => ⟨fun q waiting inside => ⟨fun due v vector => ?_, fun early v vector => ?_⟩, fun phase => ⟨fun a n => ?_, fun c a n other => ?_⟩,
      fun phase c a n => ?_, s.sidebandCopy_fields, fun blank => Block.sidebandCopy_blank blank⟩⟩
  · refine State.act_of_eq (f := Block.sqTail q v) ?_
    rcases deaf with e | e <;> simp [Block.sqTail, e]
  · refine State.act_of_eq (f := Block.cqHead q v) ?_
    rcases deaf with e | e <;> simp [Block.cqHead, e]
  · refine State.act_of_eq (f := Block.sqTail q v) ?_
    simp [Block.sqTail, on, sound, Nat.not_le.2 within, new, Block.onQueue]
  · refine State.act_of_eq (f := Block.cqHead q v) ?_
    simp [Block.cqHead, on, sound, Nat.not_le.2 within, Block.onQueue]
  · rcases beyond with ⟨rfl, out⟩ | ⟨rfl, out⟩
    · refine completes_of_act (f := Block.sqTail q v) rfl ?_
      have run : s.sqTail q v = s.bellError q := by
        simp only [Block.sqTail, on, sound, out, Bool.not_true, Bool.or_self, Bool.false_eq_true, if_false, if_true]
      rw [run]
      exact Block.bellError_told inside sound
    · refine completes_of_act (f := Block.cqHead q v) rfl ?_
      have run : s.cqHead q v = s.bellError q := by
        simp only [Block.cqHead, on, sound, out, Bool.not_true, Bool.or_self, Bool.false_eq_true, if_false, if_true]
      rw [run]
      exact Block.bellError_told inside sound
  · refine State.act_of_eq (f := Block.streamHead k v) ?_
    simp only [Block.streamHead, opened, Nat.not_lt.2 near, Bool.not_true, Bool.false_eq_true, if_false]
    rfl
  · refine completes_of_act (f := Block.streamHead k v) rfl ?_
    have run : s.streamHead k v = (s.onStream k fun x => { x with bellErr := true }).cause 3 := by
      simp only [Block.streamHead, opened, sound, far, Bool.not_true, Bool.false_eq_true, if_false, if_true]
    obtain ⟨-, streams, told, other⟩ := Block.cause_told 3 (s.onStream k fun x => { x with bellErr := true })
    rw [run]
    exact ⟨streams, told, other⟩
  · exact State.act_of_eq (f := Block.streamHead k v) (by simp [Block.streamHead, closed])
  · refine State.act_of_eq (f := Block.badBell o n) ?_
    have none : isDoorbell o n = false := by
      by_contra isBell
      simp only [isDoorbell, Bool.not_eq_false, Bool.and_eq_true, Bool.or_eq_true, beq_iff_eq, decide_eq_true_eq] at isBell
      omega
    simp only [Block.badBell, none, Bool.false_eq_true, if_false]
  · refine completes_of_act (f := Block.coalesceTimer v) rfl ?_
    have run : s.coalesceTimer v = (s.onQueue q fun x => { x with unsig := 0 }).signal v := by
      rw [Block.coalesceTimer_queue vector, coalDue, decide_eq_true waiting, decide_eq_true due]
      rfl
    rw [run]
    refine ⟨getD_modify_same inside _ _, fun p apart => getD_modify_other apart _ _ _, fun live on open_ => ?_, rfl⟩
    rw [signal_unmasked v (s.onQueue q fun x => { x with unsig := 0 }) live on open_]
    rfl
  · refine State.act_of_eq (f := Block.coalesceTimer v) ?_
    rw [Block.coalesceTimer_queue vector, coalDue, decide_eq_false (Nat.not_le.2 early), Bool.and_false]
    rfl
  · refine State.act_of_eq (f := Block.sidebandRead 0x0B a n) ?_
    have awake : (s.boot.phase == .thermosPor) = false := by simpa using phase
    simp only [Block.sidebandRead, awake, Bool.false_eq_true, if_false, if_true]
    rfl
  · refine State.act_of_eq (f := Block.sidebandRead c a n) ?_
    have awake : (s.boot.phase == .thermosPor) = false := by simpa using phase
    simp only [Block.sidebandRead, awake, other, Bool.false_eq_true, if_false]
    rfl
  · exact State.act_of_eq (f := Block.sidebandRead c a n) (by simp [Block.sidebandRead, phase])

end Sys2Proof.Machine
end

section
/-! PROOF. An event is one sealed parcel on stream 2, and a seal that passes (O45; R160 to R171, R493, R503). -/

namespace Sys2Proof.Machine

/-! ### The seal word -/

/-- The flags of a seal word above its sealer: the version, and the three marks (Table 05-2). -/
def sealTop (x y z : Bool) : Nat := 1 + 16 * (x.toNat + 2 * (y.toNat + 2 * z.toNat))

theorem sealTop_lt (x y z : Bool) : sealTop x y z < 256 := by
  cases x <;> cases y <;> cases z <;> decide

/-- The seal word as a number: its parts do not overlap. -/
theorem sealBits_toNat (crc : BitVec 32) (lineage : BitVec 16) (sealer : BitVec 8) (x y z : Bool) :
    (sealBits crc lineage sealer x y z).toNat = crc.toNat + 2 ^ 32 * (lineage.toNat + 2 ^ 16 * (sealer.toNat + 2 ^ 8 * sealTop x y z)) := by
  have hc := crc.isLt
  have hl := lineage.isLt
  have hs := sealer.isLt
  have ht := sealTop_lt x y z
  have inner : sealer.toNat + 2 ^ 8 * sealTop x y z < 2 ^ 16 := by omega
  have middle : lineage.toNat + 2 ^ 16 * (sealer.toNat + 2 ^ 8 * sealTop x y z) < 2 ^ 32 := by omega
  have whole : crc.toNat + 2 ^ 32 * (lineage.toNat + 2 ^ 16 * (sealer.toNat + 2 ^ 8 * sealTop x y z)) < 2 ^ 64 := by omega
  rw [← Nat.mod_eq_of_lt whole, sealBits, BitVec.toNat_ofNat, sealTop]
  congr 1
  ring

theorem sealBits_parts (crc : BitVec 32) (lineage : BitVec 16) (sealer : BitVec 8) (x y z : Bool) :
    let w := sealBits crc lineage sealer x y z
    w.extractLsb' 0 32 = crc ∧ w.extractLsb' 32 16 = lineage ∧ w.extractLsb' 48 8 = sealer ∧ w.extractLsb' 56 8 = BitVec.ofNat 8 (sealTop x y z) := by
  dsimp only
  have word := sealBits_toNat crc lineage sealer x y z
  generalize sealBits crc lineage sealer x y z = w at word ⊢
  have hc := crc.isLt
  have hl := lineage.isLt
  have hs := sealer.isLt
  have above : w.toNat / 2 ^ 32 = lineage.toNat + 2 ^ 16 * (sealer.toNat + 2 ^ 8 * sealTop x y z) := by
    rw [word, Nat.add_mul_div_left _ _ (by decide), Nat.div_eq_of_lt hc, Nat.zero_add]
  have upper : w.toNat / 2 ^ 48 = sealer.toNat + 2 ^ 8 * sealTop x y z := by
    rw [show 2 ^ 48 = 2 ^ 32 * 2 ^ 16 from rfl, ← Nat.div_div_eq_div_mul, above, Nat.add_mul_div_left _ _ (by decide), Nat.div_eq_of_lt hl, Nat.zero_add]
  have top : w.toNat / 2 ^ 56 = sealTop x y z := by
    rw [show 2 ^ 56 = 2 ^ 48 * 2 ^ 8 from rfl, ← Nat.div_div_eq_div_mul, upper, Nat.add_mul_div_left _ _ (by decide), Nat.div_eq_of_lt hs, Nat.zero_add]
  refine ⟨BitVec.eq_of_toNat_eq ?_, BitVec.eq_of_toNat_eq ?_, BitVec.eq_of_toNat_eq ?_, BitVec.eq_of_toNat_eq ?_⟩ <;>
    rw [BitVec.extractLsb'_toNat, Nat.shiftRight_eq_div_pow]
  · rw [Nat.pow_zero, Nat.div_one, word, Nat.add_mul_mod_self_left, Nat.mod_eq_of_lt hc]
  · rw [above, Nat.add_mul_mod_self_left, Nat.mod_eq_of_lt hl]
  · rw [upper, Nat.add_mul_mod_self_left, Nat.mod_eq_of_lt hs]
  · rw [top, BitVec.toNat_ofNat]

/-- The seal of a parcel is no part of what its CRC covers (R161). -/
theorem Parcel.crc_sealWord (p : Parcel) (w : BitVec 64) : { p with sealWord := w }.crc = p.crc := rfl

/-- The flags, read from the seal's top byte. -/
theorem sealTop_flags (x y z : Bool) : (BitVec.ofNat 8 (sealTop x y z)).extractLsb' 0 4 = 1 ∧ (BitVec.ofNat 8 (sealTop x y z)).getLsbD 4 = x
    ∧ (BitVec.ofNat 8 (sealTop x y z)).getLsbD 5 = y := by
  cases x <;> cases y <;> cases z <;> decide

/-- What is consumed is nothing exactly where there is no input (R163). -/
theorem consumed_isEmpty (ins : List InRef) : (consumed ins).isEmpty = true ↔ ins = [] := by
  have grows : ∀ (ins acc : List InRef), acc ≠ [] →
      ins.foldl (fun acc r => if acc.any (InRef.same r) then acc else acc ++ [r]) acc ≠ [] := by
    intro ins
    induction ins with
    | nil => exact fun _ some => some
    | cons r ins ih =>
      intro acc some
      rw [List.foldl_cons]
      split
      · exact ih acc some
      · exact ih _ (by simp)
  cases ins with
  | nil => exact ⟨fun _ => rfl, fun _ => rfl⟩
  | cons r ins =>
    refine ⟨fun none => ?_, fun none => absurd none (by simp)⟩
    exact absurd (List.isEmpty_iff.1 none) (grows ins [r] (by simp))

/-- A parcel that a unit seals verifies, and says who sealed it, from what (R161 to R168). -/
theorem sealParcel_verifies (chip type : BitVec 16) (st : BitVec 8) (seq : BitVec 32) (u : BitVec 8) {pay : Bytes} (ins : List InRef)
    (short : pay.length ≤ 4096) :
    let p := sealParcel chip type st seq u pay ins
    sealFault p = none ∧ p.sealer = u ∧ p.sealCrc = p.crc ∧ p.lineage = lineageOf (consumed ins) ∧ p.payload = pay
      ∧ (p.sealWord.getLsbD 61 = true ↔ ins = []) ∧ p.sealWord.getLsbD 60 = false := by
  dsimp only
  generalize e : sealParcel chip type st seq u pay ins = p
  have word : ∃ z, p.sealWord = sealBits p.crc (lineageOf (consumed ins)) u false (consumed ins).isEmpty z := by
    rw [← e, sealParcel, Parcel.crc_sealWord]
    exact ⟨_, rfl⟩
  have pays : p.payload = pay ∧ p.len = BitVec.ofNat 16 pay.length := by
    rw [← e]
    exact ⟨rfl, rfl⟩
  obtain ⟨z, word⟩ := word
  obtain ⟨payload, len⟩ := pays
  obtain ⟨crc, lineage, sealer, top⟩ := sealBits_parts p.crc (lineageOf (consumed ins)) u false (consumed ins).isEmpty z
  obtain ⟨version, boundary, origin⟩ := sealTop_flags false (consumed ins).isEmpty z
  rw [← word] at crc lineage sealer top
  rw [← top] at version boundary origin
  have bit (i : Nat) (low : i < 8) : (p.sealWord.extractLsb' 56 8).getLsbD i = p.sealWord.getLsbD (56 + i) := by
    rw [BitVec.getLsbD_extractLsb', decide_eq_true low, Bool.true_and]
  rw [bit 4 (by decide)] at boundary
  rw [bit 5 (by decide)] at origin
  refine ⟨?_, sealer, crc, lineage, payload, ?_, boundary⟩
  · have whole : p.sealCrc = p.crc := crc
    have first : p.version = 1 := by
      rw [← version, Parcel.version]
      refine BitVec.eq_of_getLsbD_eq fun i lt => ?_
      simp [lt, show i < 8 by omega]
    have fits : (4096 < p.len.toNat || p.len.toNat ≠ p.payload.length) = false := by
      rw [len, payload, BitVec.toNat_ofNat, Nat.mod_eq_of_lt (by omega)]
      simp [short]
    simp only [sealFault, whole, first, fits, ne_eq, not_true, if_false, Bool.false_eq_true]
  · rw [origin]
    exact consumed_isEmpty ins

/-! ### Events -/

theorem length_padTo (m : Nat) (bs : Bytes) : (padTo m bs).length ≤ bs.length + m := by
  unfold padTo
  split
  · omega
  · rw [List.length_append, List.length_replicate]
    omega

/-- An emission to an open stream without inputs is one parcel for it. -/
theorem Block.emit_origin {b : Block} {st : Nat} (numbers : (b.host.streams.getD st {}).numbers st = true) (type : BitVec 16) (unit : BitVec 8)
    (payload : Bytes) : b.emit st type unit payload [] = b.toStream st (b.streamParcel st type unit payload []) := by
  simp only [Block.emit, numbers, if_true, Block.trace_nil]

/-- Settles O45: through the parcel that the pair in control seals, and the seal word it carries. -/
theorem eventsAndTraces : Obligations.EventsAndTraces := by
  unfold Obligations.EventsAndTraces
  refine ⟨fun b code src body all short => ⟨fun closed => event_closed _ _ _ _ closed, fun opened free => ?_⟩,
    fun chip type st seq u pay ins short => sealParcel_verifies chip type st seq u ins short, fun b k type u pay ins => ⟨fun high closed => ?_, fun low all => ?_⟩⟩
  · have numbers : (b.host.streams.getD 2 {}).numbers 2 = true := by rw [Stream.numbers, opened, Bool.or_true]
    have run : b.event code src body = b.toStream 2 (b.streamParcel 2 0x0E01 b.control (b.eventBytes code src body) []) := Block.emit_origin numbers _ _ _
    refine ⟨b.streamParcel 2 0x0E01 b.control (b.eventBytes code src body) [], ?_, rfl, rfl, rfl, rfl, ?_, fun j apart => ?_, ?_⟩
    · rw [run, Block.toStream, getD_modify_same (by omega)]
      simp only [Stream.take, opened, free, Bool.not_true, Bool.false_eq_true, if_false]
    · refine (sealParcel_verifies _ _ _ _ _ [] ?_).1
      have pad := length_padTo 8 body
      simp only [Block.eventBytes, List.length_append, length_leBytes, List.length_cons, List.length_nil]
      omega
    · rw [run, Block.toStream, getD_modify_other apart]
    · rw [run]
      rfl
  · exact emit_closed k _ _ _ _ b high closed
  · have numbers : (b.host.streams.getD k {}).numbers k = true := by rw [Stream.numbers, decide_eq_true low, Bool.true_or]
    have other : k.val ≠ 7 := by omega
    have apart : ∀ (l : List Stream) (x : Stream), (l.set 7 x).getD k {} = l.getD k {} := fun l x => by
      rw [List.getD_eq_getElem?_getD, List.getElem?_set_ne other.symm, ← List.getD_eq_getElem?_getD]
    simp only [Block.emit, numbers, if_true, Block.trace, apart]
    rw [Block.toStream, getD_modify_same (by omega), take_nextSeq]

end Sys2Proof.Machine
end

section
/-! PROOF. Q_CTRL and the configuration of a queue (O42; R467 to R469, R653). -/

namespace Sys2Proof.Machine

/-! ### The scoring job that enters Owl when another is gone -/

/-- The entry of a scoring job touches its own command alone. -/
theorem Block.owlEnter_host (b : Block) :
    b.owlEnter.host = b.host ∨ ∃ (j : OwlJob) (u : CmdRef), j ∈ b.owl.jobs ∧ j.entered = false ∧ j.owner = some u
      ∧ b.owlEnter.host = (b.stage u .committed).host := by
  unfold Block.owlEnter
  split
  · exact Or.inl rfl
  · rename_i j js jobs
    split
    · exact Or.inl rfl
    · rename_i idle
      dsimp only
      split
      · rename_i u owner
        refine Or.inr ⟨j, u, by rw [jobs]; exact List.mem_cons_self, ?_, owner, rfl⟩
        simp only [Bool.or_eq_true, not_or, Bool.not_eq_true] at idle
        exact idle.1
      · exact Or.inl rfl

/-- What is left of Owl's jobs when a queue is disabled are jobs that were there, and none is the queue's. -/
theorem Block.queueOff_jobs (b : Block) (q : Fin 16) :
    ∀ j ∈ (b.queueOff q).owl.jobs, ∃ j0 ∈ b.owl.jobs, j.entered = j0.entered ∧ ∀ u, j.owner = some u → j0.owner = some u ∧ u.q ≠ q := by
  have dropped : ∀ (cmds : List Cmd) (b : Block),
      ∀ j ∈ (cmds.foldl (fun b c => if b.pastCommit ⟨q, c.id⟩ c then b else b.dropWork ⟨q, c.id⟩) b).owl.jobs, j ∈ b.owl.jobs := by
    intro cmds
    induction cmds with
    | nil => exact fun b j mem => mem
    | cons c cmds ih =>
      intro b j mem
      rw [List.foldl_cons] at mem
      have here := ih _ j mem
      split at here
      · exact here
      · exact (List.mem_filter.1 here).1
  intro j mem
  obtain ⟨j0, was, rfl⟩ := List.mem_map.1 mem
  refine ⟨j0, dropped _ _ _ was, rfl, fun u owner => ?_⟩
  dsimp only at owner
  split at owner
  · rename_i r named
    split at owner
    · exact absurd owner (by simp)
    · rename_i other
      obtain rfl := Option.some.inj owner
      exact ⟨named, other⟩
  · exact absurd owner (by simp)

theorem withCmd_self {b : Block} {r : CmdRef} {f : Cmd → Cmd} (empty : (b.host.queues.getD r.q {}).cmds = []) :
    (b.withCmd r f).host.queues.getD r.q {} = b.host.queues.getD r.q {} := by
  rw [Block.withCmd]
  by_cases inside : r.q < b.host.queues.length
  · rw [getD_modify_same inside, empty, cmdModify_nil]
    exact congrArg (fun cmds => { b.host.queues.getD r.q {} with cmds := cmds }) empty.symm
  · rw [List.getD_eq_getElem?_getD, List.getD_eq_getElem?_getD, List.getElem?_eq_none (by simpa using inside), List.getElem?_eq_none (by omega)]

/-- A disabled queue has no commands and keeps its configuration; no other queue changes but by the scoring job that enters (R469, R507). -/
theorem Block.disabled_queues {b : Block} {q : Fin 16} (inside : q < b.host.queues.length) :
    (b.queueOff q).owlEnter.queue q = (b.queue q).off
      ∧ ((∀ j ∈ b.owl.jobs, j.entered = false → ∀ u : CmdRef, j.owner = some u → u.q = q) →
        ∀ p : Nat, p ≠ q → (b.queueOff q).owlEnter.queue p = b.queue p) := by
  obtain ⟨drops, queues⟩ := b.queueOff_drops q
  have own : (b.queueOff q).queue q = (b.queue q).off := by rw [Block.queue, queues, getD_modify_same inside, Block.queue]
  have other (p : Nat) (apart : p ≠ q) : (b.queueOff q).queue p = b.queue p := by rw [Block.queue, queues, getD_modify_other apart, Block.queue]
  rcases (b.queueOff q).owlEnter_host with same | ⟨j, u, mem, idle, owner, host⟩
  · simp only [Block.queue, same]
    exact ⟨own, fun _ => other⟩
  · obtain ⟨j0, was, entered, named⟩ := b.queueOff_jobs q j mem
    obtain ⟨owner0, apart⟩ := named u owner
    refine ⟨?_, fun all => absurd (all j0 was (entered.symm.trans idle) u owner0) apart⟩
    rw [Block.queue, host, Block.stage, withCmd_other _ _ _ _ fun e => apart (Fin.ext e.symm)]
    exact own

/-! ### The registers of a queue -/

/-- The register of a queue at an offset in its block. -/
def queueReg (q : Fin 16) (o : Nat) : Nat := 0x1000 + 0x40 * q + o

theorem queueReg_rw {q : Fin 16} {o : Nat} (low : o < 0x20) : regAccess (queueReg q o) = .rw := by
  have below : ¬ queueReg q o < 0x1000 := by unfold queueReg; omega
  have within : queueReg q o < 0x1400 := by unfold queueReg; omega
  have rest : queueReg q o % 0x40 = o := by unfold queueReg; omega
  rw [regAccess, if_neg below, if_pos within, queueAccess, rest, if_pos low]

/-- Which writes of a queue's registers are ignored and counted (R653). -/
theorem Block.queueReg_bad {b : Block} (ready : b.boot.phase = .ready) {q : Fin 16} {o : Nat} (low : o < 0x20) (v : BitVec 32) :
    b.wordBad (queueReg q o) v = (decide (o < 0x1C) && (b.queue q).enabled) := by
  have inside : inBlock 0x1000 0x400 (queueReg q o) = true := by
    have := q.isLt
    unfold queueReg
    simp only [inBlock, Bool.and_eq_true, decide_eq_true_eq]
    exact ⟨by omega, by omega⟩
  have rest : queueReg q o % 0x40 = o := by unfold queueReg; omega
  have number : (queueReg q o - 0x1000) / 0x40 = q := by unfold queueReg; omega
  simp only [Block.wordBad, queueReg_rw low, Block.ready, ready, inside, rest, number, beq_self_eq_true, Bool.true_and]

/-- A write of Q_CTRL (R653). -/
theorem Block.queueReg_ctrl {b : Block} (ready : b.boot.phase = .ready) (q : Fin 16) (v : BitVec 32) :
    b.wordWrite (queueReg q 0x1C) v = b.queueCtrl q v := by
  have bad : b.wordBad (queueReg q 0x1C) v = false := by
    rw [Block.queueReg_bad ready (by decide)]
    rfl
  have isReady : b.ready = true := by simp [Block.ready, ready]
  have rest : queueReg q 0x1C % 0x40 = 0x1C := by unfold queueReg; omega
  have number : (queueReg q 0x1C - 0x1000) / 0x40 = q := by unfold queueReg; omega
  have value : queueReg q 0x1C = 0x101C + 0x40 * q := by unfold queueReg; omega
  unfold Block.wordWrite
  simp only [queueReg_rw (show 0x1C < 0x20 by decide), isReady, bad, Bool.not_true, Bool.or_self, Bool.false_eq_true, if_false]
  rw [if_neg (by omega), if_neg (by omega), if_neg (by omega), if_neg (by omega), if_neg (by omega), if_neg (by omega), if_pos (by omega), rest, number,
    if_pos rfl, Fin.ofNat_val_eq_self]

/-- A write to an enabled queue's configuration, one word of it. -/
theorem Block.queueReg_ignored {b : Block} (ready : b.boot.phase = .ready) {q : Fin 16} (on : (b.queue q).enabled = true) {o : Nat} (low : o < 0x1C)
    (v : BitVec 32) : b.wordWrite (queueReg q o) v = b := by
  have bad : b.wordBad (queueReg q o) v = true := by
    rw [Block.queueReg_bad ready (by omega), on, decide_eq_true low]
    rfl
  simp only [Block.wordWrite, queueReg_rw (show o < 0x20 by omega), bad, Bool.or_true, if_true]

theorem Block.clearWrite_of_queueReg {q : Fin 16} {o : Nat} (low : o < 0x20) (v : BitVec 32) (b : Block) : b.clearWrite (queueReg q o) v = b :=
  Block.clearWrite_of_rw (queueReg_rw low)

/-- A write of four bytes to a queue's register. -/
theorem Block.registerWrite_queue4 {b : Block} (ready : b.boot.phase = .ready) {q : Fin 16} {o : Nat} (aligned : o % 4 = 0) (low : o < 0x20) (v : BitVec 64) :
    b.registerWrite (.bar0 (queueReg q o) 4 v) = Block.wordWrite (queueReg q o) (v.setWidth 32)
      (if decide (o < 0x1C) && (b.queue q).enabled then b.badReg else b) := by
  have awake : b.awake = true := by simp [Block.awake, ready]
  have mod : queueReg q o % 4 = 0 := by unfold queueReg; omega
  have below : queueReg q o < 0xE000 := by unfold queueReg; omega
  simp only [Block.registerWrite, awake, Bool.not_true, Bool.false_eq_true, if_false]
  rw [Block.bar0Write_word mod below, Block.clearWrite_of_queueReg low, Block.queueReg_bad ready low]

/-- A write of two words below the MSI-X table: their clears, one count, their effects (R640, R643). -/
theorem Block.bar0Write_words {off : Nat} (aligned : off % 8 = 0) (low : off < 0xE000) (v : BitVec 64) (b : Block) :
    b.bar0Write off 8 v = (accessWords off 8 v).foldl (fun b w => b.wordWrite w.1 w.2)
      (if (accessWords off 8 v).any fun w => b.wordBad w.1 w.2 then ((accessWords off 8 v).foldl (fun b w => b.clearWrite w.1 w.2) b).badReg
       else (accessWords off 8 v).foldl (fun b w => b.clearWrite w.1 w.2) b) := by
  have table : inBlock 0xE000 0x200 off = false := inBlock_below low
  have pending : inBlock 0xF000 8 off = false := inBlock_below (by omega)
  have word : (off % 8 == 0) = true := by rw [aligned, beq_self_eq_true]
  simp only [Block.bar0Write, table, pending, word, decide_true, Bool.or_true, Bool.and_self, Bool.not_true, Bool.false_eq_true, if_false]

/-- A write of eight bytes to an enabled queue's configuration is counted once (log entry 70). -/
theorem Block.registerWrite_queue8 {b : Block} (ready : b.boot.phase = .ready) {q : Fin 16} (on : (b.queue q).enabled = true) {o : Nat} (aligned : o % 8 = 0)
    (low : o + 4 < 0x1C) (v : BitVec 64) : b.registerWrite (.bar0 (queueReg q o) 8 v) = b.badReg := by
  have awake : b.awake = true := by simp [Block.awake, ready]
  have words : accessWords (queueReg q o) 8 v = [(queueReg q o, v.setWidth 32), (queueReg q (o + 4), v.extractLsb' 32 32)] := by
    have second : queueReg q o + 4 = queueReg q (o + 4) := by unfold queueReg; omega
    rw [accessWords, if_pos rfl, second]
  have clear (o' : Nat) (lt : o' < 0x20) (x : BitVec 32) : b.clearWrite (queueReg q o') x = b := Block.clearWrite_of_queueReg lt x b
  have ignored (o' : Nat) (lt : o' < 0x1C) (x : BitVec 32) : Block.wordWrite (queueReg q o') x b.badReg = b.badReg :=
    Block.queueReg_ignored (b := b.badReg) ready on lt x
  have bad := Block.queueReg_bad ready (q := q) (show o < 0x20 by omega) (v.setWidth 32)
  rw [on, decide_eq_true (show o < 0x1C by omega), Bool.and_self] at bad
  have run : b.registerWrite (.bar0 (queueReg q o) 8 v) = b.bar0Write (queueReg q o) 8 v := by
    simp only [Block.registerWrite, awake, Bool.not_true, Bool.false_eq_true, if_false]
  rw [run, Block.bar0Write_words (by unfold queueReg; omega) (by unfold queueReg; omega), words]
  simp only [List.foldl_cons, List.foldl_nil, List.any_cons, bad, Bool.true_or, if_true, clear o (by omega), clear (o + 4) (by omega),
    ignored o (by omega), ignored (o + 4) low]

/-- A write of Q_CTRL is its effect alone. -/
theorem Block.registerWrite_ctrl {b : Block} (ready : b.boot.phase = .ready) {q : Fin 16} {v : BitVec 64} :
    b.registerWrite (.bar0 (queueReg q 0x1C) 4 v) = b.queueCtrl q (v.setWidth 32) := by
  rw [Block.registerWrite_queue4 ready (by decide) (by decide)]
  exact Block.queueReg_ctrl ready q _

theorem Block.heldCompletions_none {b : Block} {q : Fin 16} (none : b.completable q = none) (n : Nat) : b.heldCompletions q n = b := by
  cases n with
  | zero => rfl
  | succ n => rw [Block.heldCompletions, none]

theorem Block.owlEnter_out (b : Block) : b.owlEnter.host.out = b.host.out := by
  rcases b.owlEnter_host with same | ⟨j, u, -, -, -, host⟩
  · rw [same]
  · rw [host]
    rfl

/-- Settles O42: an enabled queue ignores every write but a disable; the enable and the resume by their guards. -/
theorem queueControl : Obligations.QueueControl := by
  unfold Obligations.QueueControl
  intro s q ready inside
  have isReady : s.ready = true := by simp [Block.ready, ready]
  refine ⟨fun on => ⟨fun o v config => ?_, fun o v config => ?_, ?_, ?_, fun free => ⟨?_, ?_⟩, fun held live running => ?_⟩, fun off => ?_, ?_, ?_,
    fun off => ⟨fun good => ?_, fun bad => ?_⟩⟩
  · refine State.act_of_eq (f := Block.registerWrite (.bar0 (queueReg q o) 4 v)) ?_
    have range : o % 4 = 0 ∧ o < 0x1C := by
      simp only [List.mem_cons, List.not_mem_nil, or_false] at config
      omega
    have after : (s.badReg.queue q).enabled = true := on
    rw [Block.registerWrite_queue4 ready range.1 (by omega), on, decide_eq_true range.2]
    exact Block.queueReg_ignored (b := s.badReg) ready after range.2 _
  · refine State.act_of_eq (f := Block.registerWrite (.bar0 (queueReg q o) 8 v)) ?_
    have range : o % 8 = 0 ∧ o + 4 < 0x1C := by
      simp only [List.mem_cons, List.not_mem_nil, or_false] at config
      omega
    exact Block.registerWrite_queue8 ready on range.1 range.2 v
  · refine State.act_of_eq (f := Block.registerWrite (.bar0 (queueReg q 0x1C) 4 1)) ?_
    have again : s.qEnable q = s.toBlock := by simp [Block.qEnable, on]
    rw [Block.registerWrite_ctrl ready, show (1 : BitVec 64).setWidth 32 = 1 from rfl]
    exact again
  · exact State.act_of_eq (f := Block.qEnable q) (by simp [Block.qEnable, on])
  · exact State.act_of_eq (f := Block.qResume q) (by simp [Block.qResume, free])
  · refine State.act_of_eq (f := Block.registerWrite (.bar0 (queueReg q 0x1C) 4 3)) ?_
    have again : s.qEnable q = s.toBlock := by simp [Block.qEnable, on]
    have still : s.qResume q = s.toBlock := by simp [Block.qResume, free]
    rw [Block.registerWrite_ctrl ready, show (3 : BitVec 64).setWidth 32 = 3 from rfl]
    show (s.qEnable q).qResume q = s.toBlock
    rw [again, still]
  · refine State.act_of_eq (f := Block.qResume q) ?_
    have idle : Block.completable q (s.onQueue q fun x => { x with held := false }) = none := by
      have same : ((s.onQueue q fun x => { x with held := false }).queue q).cmds = (s.queue q).cmds := by
        rw [Block.queue, Block.onQueue, getD_modify_same inside]
        rfl
      rw [Block.completable, same]
      cases e : (s.queue q).cmds with
      | nil => rfl
      | cons c cs =>
        have first : (c.stage == .finished) = false := by simpa using running c (by rw [e]; exact List.mem_cons_self)
        simp only [first, Bool.false_and, Bool.false_eq_true, if_false]
    have run : s.qResume q = (s.onQueue q fun x => { x with held := false }).heldCompletions q (s.queue q).cmds.length := by
      simp only [Block.qResume, isReady, on, held, live, Bool.and_self, if_true]
    rw [run, Block.heldCompletions_none idle]
    rfl
  · exact State.act_of_eq (f := Block.qResume q) (by simp [Block.qResume, off])
  · have same : s.registerWrite (.bar0 (queueReg q 0x1C) 4 2) = s.qDisable q := by
      rw [Block.registerWrite_ctrl ready]
      rfl
    exact congrArg (fun b : Block => Host.Outcome.next { s with toBlock := b }) same
  · refine completes_of_act (f := Block.qDisable q) rfl ?_
    rw [Block.qDisable, if_pos isReady]
    obtain ⟨own, other⟩ := Block.disabled_queues inside
    obtain ⟨drops, -⟩ := s.queueOff_drops q
    obtain ⟨enters, streams, -⟩ := (s.queueOff q).owlEnter_drops
    refine ⟨by rw [own]; rfl, by rw [own]; rfl, by rw [own]; rfl, other, ?_, ?_, ?_⟩
    · rw [Block.owlEnter_out, drops.host]
    · rw [streams, drops.host]
    · rw [enters, drops.other]
  · refine completes_of_act (f := Block.qEnable q) rfl ?_
    have run : s.qEnable q = s.onQueue q fun x => { x with
        enabled := true, configErr := false, bellErr := false, held := !s.link.live, sqHead := 0, sqTail := 0, cqHead := 0, cqTail := 0
        phase := true, cmds := [], bells := [], unsig := 0 } := by
      simp only [Block.qEnable, off, isReady, good, Bool.not_true, Bool.or_self, Bool.false_eq_true, if_false, if_true]
    rw [run]
    exact ⟨getD_modify_same inside _ _, fun p apart => getD_modify_other apart _ _ _, rfl⟩
  · refine completes_of_act (f := Block.qEnable q) rfl ?_
    have run : s.qEnable q = if (s.queue q).configErr then s.onQueue q fun x => { x with configErr := true }
        else (s.onQueue q fun x => { x with configErr := true }).cause 2 := by
      simp only [Block.qEnable, off, isReady, bad, Bool.not_true, Bool.or_self, Bool.false_eq_true, if_false]
    have own : (s.onQueue q fun x => { x with configErr := true }).queue q = { s.queue q with configErr := true } := getD_modify_same inside _ _
    rw [run]
    split
    · rename_i was
      refine ⟨own, ?_, rfl⟩
      rw [was, Bool.not_true, Bool.or_false]
      rfl
    · rename_i new
      obtain ⟨queues, -, told, rest⟩ := Block.cause_told 2 (s.onQueue q fun x => { x with configErr := true })
      refine ⟨?_, ?_, rest⟩
      · exact (congrArg (fun l : List Queue => l.getD q {}) queues).trans own
      · rw [Bool.eq_false_iff.2 new, Bool.not_false, Bool.or_true]
        exact told

end Sys2Proof.Machine
end

section
/-! PROOF. A command is fetched, aborted or run, and completed in order (O40; R471 to R487). -/

namespace Sys2Proof.Machine

/-- What a signal of a queue adds to the outputs; the queue's count alone changes. -/
theorem Block.queueSignal_told {b : Block} {q : Fin 16} (inside : q < b.host.queues.length) :
    (∃ ms : List Out, (b.queueSignal q).host.out = b.host.out ++ ms)
      ∧ (b.queueSignal q).queue q = { b.queue q with unsig := ((b.queueSignal q).queue q).unsig, unsigAt := ((b.queueSignal q).queue q).unsigAt }
      ∧ (∀ p : Nat, p ≠ q → (b.queueSignal q).queue p = b.queue p)
      ∧ b.queueSignal q = { b with host := (b.queueSignal q).host, link := (b.queueSignal q).link } := by
  unfold Block.queueSignal
  dsimp only
  split
  · refine ⟨?_, ?_, fun p apart => getD_modify_other apart _ _ _, rfl⟩
    · simp only [Block.signal]
      split
      · exact ⟨_, rfl⟩
      · exact ⟨[], (List.append_nil _).symm⟩
    · simp only [Block.queue, Block.signal, getD_modify_same inside]
  · refine ⟨⟨[], (List.append_nil _).symm⟩, ?_, fun p apart => getD_modify_other apart _ _ _, rfl⟩
    simp only [Block.queue, getD_modify_same inside]

theorem getD_set_same {α : Type} {l : List α} {k : Nat} (inside : k < l.length) (x d : α) : (l.set k x).getD k d = x := by
  simp [List.getD_eq_getElem?_getD, inside]

theorem getD_set_other {α : Type} {k j : Nat} (apart : j ≠ k) (l : List α) (x d : α) : (l.set k x).getD j d = l.getD j d := by
  rw [List.getD_eq_getElem?_getD, List.getElem?_set_ne apart.symm, ← List.getD_eq_getElem?_getD]

/-- Where every scoring job is in Owl, none enters. -/
theorem Block.owlEnter_still {b : Block} (entered : ∀ j ∈ b.owl.jobs, j.entered = true) : b.owlEnter = b := by
  unfold Block.owlEnter
  split
  · rfl
  · rename_i j js jobs
    rw [if_pos (by rw [entered j (by rw [jobs]; exact List.mem_cons_self)]; rfl)]

/-- Settles O40: by the entry fetched, the command named, and the oldest command of the queue. -/
theorem fetchAndComplete : Obligations.FetchAndComplete := by
  unfold Obligations.FetchAndComplete
  intro s
  refine ⟨fun q e inside => ⟨fun ready live may => ?_, fun empty => ?_, fun ready live on free c cs cmds => ⟨fun ended plain => ?_, fun running => ?_⟩⟩,
    fun r c starts fields free => ?_, fun r c ready found fields => ?_⟩
  · refine completes_of_act (f := Block.commandFetch q e) rfl ?_
    rw [Block.commandFetch, if_pos (by simp [Block.ready, ready, live, may])]
    have own : (s.onQueue q (Queue.fetch e s.now)).queue q = (s.queue q).fetch e s.now := getD_modify_same inside _ _
    rw [own]
    refine ⟨⟨_, rfl, rfl, rfl, rfl, ?_⟩, rfl, rfl, ?_, fun p apart => getD_modify_other apart _ _ _, rfl⟩
    · simp only [fetchedCmd]
      split
      · exact Or.inl rfl
      · exact Or.inr ⟨rfl, rfl⟩
    · simp only [Queue.mayFetch, Bool.and_eq_true, decide_eq_true_eq] at may
      have room := may.2
      simp only [Queue.fetch, List.length_append, List.length_singleton, Queue.unread] at room ⊢
      omega
  · refine State.act_of_eq (f := Block.commandFetch q e) ?_
    have not : (s.queue q).mayFetch = false := by simp [Queue.mayFetch, empty]
    simp only [Block.commandFetch, not, Bool.and_false, Bool.false_eq_true, if_false]
  · refine completes_of_act (f := Block.completionWrite q) rfl ?_
    have next : s.completable q = some c := by simp only [Block.completable, cmds, ended, plain, List.all_nil, beq_self_eq_true, Bool.and_self, if_true]
    have run : s.completionWrite q = s.writeCompletion q c := by
      simp only [Block.completionWrite, next, Block.ready, ready, live, on, free, beq_self_eq_true, Bool.not_false, Bool.and_self, if_true]
    rw [run, Block.writeCompletion]
    dsimp only
    generalize e : Block.drive _ _ = b0
    have start : b0.host.out = s.host.out ++ [.memWrite (BitVec.ofNat 64 ((s.queue q).cqBase.toNat + 32 * (s.queue q).cqTail))
          (completionBytes q (s.queue q) c)]
        ∧ (b0.queue q) = { s.queue q with
          cmds := cs, cqTail := if (s.queue q).cqTail + 1 = (s.queue q).cqSize.toNat then 0 else (s.queue q).cqTail + 1
          phase := if (s.queue q).cqTail + 1 = (s.queue q).cqSize.toNat then !(s.queue q).phase else (s.queue q).phase }
        ∧ (∀ p : Nat, p ≠ q → b0.queue p = s.queue p) ∧ b0 = { s.toBlock with host := b0.host } ∧ q < b0.host.queues.length := by
      rw [← e]
      refine ⟨rfl, ?_, fun p apart => getD_set_other apart _ _ _, rfl, by simpa [Block.drive] using inside⟩
      refine (getD_set_same inside _ _).trans ?_
      have rest : (s.host.queues.getD q {}).cmds.tail = cs := by rw [show (s.host.queues.getD q {}).cmds = c :: cs from cmds]; rfl
      simp only [rest, Block.queue, beq_iff_eq]
      rfl
    obtain ⟨out, own, other, rest, size⟩ := start
    obtain ⟨⟨ms, told⟩, kept, others, all⟩ := Block.queueSignal_told size
    rw [own] at kept
    refine ⟨⟨ms, ?_⟩, by rw [kept], ?_, by rw [kept], by rw [kept], fun p apart => (others p apart).trans (other p apart), ?_⟩
    · rw [told, out, List.append_assoc]
      rfl
    · simp [completionBytes]
    · rw [all, rest]
  · refine State.act_of_eq (f := Block.completionWrite q) ?_
    have none : s.completable q = none := by
      have first : (c.stage == .finished) = false := by simpa using running
      simp only [Block.completable, cmds, first, Bool.false_and, Bool.false_eq_true, if_false]
    simp only [Block.completionWrite, none, ite_self]
  · refine State.act_of_eq (f := Block.nop r) ?_
    rw [Block.nop, Block.begin_eq_run_of_free _ starts fields free]
    rfl
  · have isReady : s.ready = true := by simp [Block.ready, ready]
    intro u
    refine ⟨fun none => ?_, fun x named other early alone => ?_⟩
    · refine State.act_of_eq (f := Block.abort r) ?_
      simp only [Block.abort, found, isReady, fields, Bool.not_true, Bool.false_eq_true, if_false]
      rw [show List.find? (fun c => c.id == u.id) (s.queue u.q).cmds = Option.none from none]
      rfl
    · refine completes_of_act (f := Block.abort r) rfl ?_
      have run : s.abort r = Block.onQueue r.q (fun x => { x with cmds := endAbort r.id stOk x.cmds }) (s.abortCmd u).owlEnter := by
        have plain : (x.op == 0x04) = false := by simpa using other
        simp only [Block.abort, found, isReady, fields, Bool.not_true, Bool.false_eq_true, if_false]
        rw [show List.find? (fun c => c.id == u.id) (s.queue u.q).cmds = some x from named]
        simp only [plain, show Block.pastCommit ⟨Fin.ofNat 16 (c.arg 24 1), BitVec.ofNat 32 (c.arg 28 4)⟩ x s.toBlock = false from early, Bool.or_self,
          Bool.false_eq_true, if_false]
        rfl
      have left : ∀ j ∈ (s.abortCmd u).owl.jobs, j ∈ s.owl.jobs ∧ j.owner ≠ some u := by
        intro j mem
        obtain ⟨was, apart⟩ := List.mem_filter.1 (show j ∈ s.owl.jobs.filter fun j => !(j.owner == some u) from mem)
        exact ⟨was, by simpa using apart⟩
      have still : (s.abortCmd u).owlEnter = s.abortCmd u := by
        refine Block.owlEnter_still fun j mem => ?_
        obtain ⟨was, apart⟩ := left j mem
        by_contra idle
        exact apart (alone j was (by simpa using idle))
      rw [run, still]
      refine ⟨rfl, fun j mem => (left j mem).2, fun j mem => ?_, rfl⟩
      have kept := (List.mem_filter.1 (show j ∈ s.badger.jobs.filter fun j => !(j.owner == some u) from mem)).2
      simpa using kept

end Sys2Proof.Machine
end

section
/-! PROOF. A stream opens, writes its parcels behind the host's head, and closes (O41; R489 to R498, R505 to R507, R613). -/

namespace Sys2Proof.Machine

/-! ### What the opening of stream 2 reads out -/

/-- Events change stream 2, the trace stream and the count of dropped traces. -/
structure Block.TellsTwo (a b : Block) : Prop where
  other : b = { a with host := { a.host with streams := b.host.streams }, flt := { a.flt with traceDrop := b.flt.traceDrop } }
  streams : ∀ j : Nat, j ≠ 2 → j ≠ 7 → b.stream j = a.stream j
  opened : (b.stream 2).isOpen = (a.stream 2).isOpen

namespace Block.TellsTwo

theorem refl (a : Block) : a.TellsTwo a := ⟨rfl, fun _ _ _ => rfl, rfl⟩

variable {a b c : Block}

theorem trans (ab : a.TellsTwo b) (bc : b.TellsTwo c) : a.TellsTwo c where
  other := by rw [bc.other, ab.other]
  streams j two seven := (bc.streams j two seven).trans (ab.streams j two seven)
  opened := bc.opened.trans ab.opened

theorem emit (a : Block) (type : BitVec 16) (unit : BitVec 8) (payload : Bytes) (ins : List InRef) : a.TellsTwo (a.emit 2 type unit payload ins) where
  other := emit_eq _ _ _ _ _ _
  streams j two seven := by
    unfold Block.emit
    split
    · simp only [Block.stream, Block.trace, Block.toStream, getD_set_other seven, getD_modify_other two]
    · rfl
  opened := by
    unfold Block.emit
    split
    · simp only [Block.stream, Block.trace, Block.toStream, getD_set_other (show 2 ≠ 7 by decide)]
      by_cases inside : 2 < a.host.streams.length
      · rw [getD_modify_same inside, (take_ring _ _).1]
      · rw [List.modify_eq_self (by omega)]
    · rfl

theorem event (h : a.TellsTwo b) {code : Nat} {unit : BitVec 8} {body : Bytes} : a.TellsTwo (b.event code unit body) := h.trans (emit _ _ _ _ _)

theorem eventFrom (h : a.TellsTwo b) {code : Nat} {source unit : BitVec 8} {body : Bytes} {ins : List InRef} :
    a.TellsTwo (b.eventFrom code source unit body ins) := h.trans (emit _ _ _ _ _)

theorem foldl {α : Type} {f : Block → α → Block} {l : List α} (h : a.TellsTwo b) (step : ∀ b x, a.TellsTwo b → a.TellsTwo (f b x)) :
    a.TellsTwo (l.foldl f b) := by
  induction l generalizing b with
  | nil => exact h
  | cons x l ih => exact ih (step b x h)

end Block.TellsTwo

/-- What the readout may do to the block of its first opening. -/
structure Block.ReadsOut (a b : Block) : Prop where
  other : b = { a with
    host := { a.host with streams := b.host.streams }, flt := { a.flt with traceDrop := b.flt.traceDrop }
    thermos := { a.thermos with brownRead := b.thermos.brownRead }, boot := { a.boot with haltDue := b.boot.haltDue } }
  streams : ∀ j : Nat, j ≠ 2 → j ≠ 7 → b.stream j = a.stream j
  opened : (b.stream 2).isOpen = (a.stream 2).isOpen

namespace Block.ReadsOut

variable {a b c : Block}

theorem refl (a : Block) : a.ReadsOut a := ⟨rfl, fun _ _ _ => rfl, rfl⟩

theorem tell (h : a.ReadsOut b) (told : b.TellsTwo c) : a.ReadsOut c where
  other := by rw [told.other, h.other]
  streams j two seven := (told.streams j two seven).trans (h.streams j two seven)
  opened := told.opened.trans h.opened

theorem brownRead (h : a.ReadsOut b) (n : BitVec 32) : a.ReadsOut { b with thermos := { b.thermos with brownRead := n } } :=
  ⟨by rw [h.other], h.streams, h.opened⟩

theorem haltDue (h : a.ReadsOut b) (due : Bool) : a.ReadsOut { b with boot := { b.boot with haltDue := due } } :=
  ⟨by rw [h.other], h.streams, h.opened⟩

end Block.ReadsOut

/-- The brown-out log read out behind the journal's parcel. -/
def Block.readBrown (b start : Block) : Block :=
  let b2 := (List.range (b.thermos.brownCount.toNat - max b.thermos.brownRead.toNat (b.thermos.brownCount.toNat - 32))).foldl (fun b' i =>
    b'.event 0x001D noUnit
      (memBytes b'.thermos.journal (0xF800 + 64 * ((max b.thermos.brownRead.toNat (b.thermos.brownCount.toNat - 32) + i) % 32)) 64)) start
  { b2 with thermos := { b2.thermos with brownRead := b2.thermos.brownCount } }

theorem Block.readBrown_readsOut {b start : Block} (told : b.TellsTwo start) :
    b.ReadsOut (b.readBrown start) ∧ (b.readBrown start).thermos.brownRead = b.thermos.brownCount := by
  have all := told.foldl (l := List.range (b.thermos.brownCount.toNat - max b.thermos.brownRead.toNat (b.thermos.brownCount.toNat - 32)))
    (f := fun b' i => b'.event 0x001D noUnit
      (memBytes b'.thermos.journal (0xF800 + 64 * ((max b.thermos.brownRead.toNat (b.thermos.brownCount.toNat - 32) + i) % 32)) 64))
    fun _ _ h => h.event
  exact ⟨((ReadsOut.refl b).tell all).brownRead _, by rw [readBrown, all.other]⟩

/-- The end of the readout: the journal's halt, told once (R581). -/
theorem Block.readHalt_readsOut {b b3 : Block} (halt : Option Parcel) (read : b.ReadsOut b3 ∧ b3.thermos.brownRead = b.thermos.brownCount)
    (told : Parcel → Block) (tells : ∀ h, b3.TellsTwo (told h)) :
    b.ReadsOut (match b3.boot.haltDue, halt with | true, some h => { told h with boot := { (told h).boot with haltDue := false } } | _, _ => b3) ∧
      (match b3.boot.haltDue, halt with | true, some h => { told h with boot := { (told h).boot with haltDue := false } } | _, _ => b3).thermos.brownRead
        = b.thermos.brownCount := by
  split
  next h _ => exact ⟨(read.1.tell (tells h)).haltDue _, by rw [← read.2, (tells h).other]⟩
  next => exact read

/-- The readout of the journal and the brown-out log (R581, R613). -/
theorem Block.journalReadout_readsOut (b : Block) : b.ReadsOut b.journalReadout ∧ b.journalReadout.thermos.brownRead = b.thermos.brownCount := by
  unfold Block.journalReadout
  dsimp only
  cases journalNewest b.thermos.journalUe b.thermos.journal with
  | none =>
    exact readHalt_readsOut _ (readBrown_readsOut (TellsTwo.refl b).event) _ fun _ => (TellsTwo.refl _).eventFrom
  | some n =>
    exact readHalt_readsOut _ (readBrown_readsOut (TellsTwo.refl b).eventFrom) _ fun _ => (TellsTwo.refl _).eventFrom

/-! ### Opening -/

/-- A command with good operands and its features runs. -/
theorem Block.begin_eq_run_of_needs {b : Block} {r : CmdRef} {op : Nat} {c : Cmd} {inRange : Cmd → Bool} (run : Cmd → Block → Block)
    (starts : b.starting r op = some c) (fields : c.fieldsOk inRange = true) (has : ∀ f, c.feature = some f → b.committed f = true) :
    b.begin r op inRange run = run c b := by
  cases needs : c.feature with
  | none => exact begin_eq_run_of_free run starts fields needs
  | some f => exact begin_eq_run run starts fields needs (has f needs)

theorem cmdModify_id {f : Cmd → Cmd} (same : ∀ c, f c = c) (id : BitVec 32) (l : List Cmd) : cmdModify id f l = l := by
  induction l with
  | nil => rfl
  | cons c l ih =>
    unfold cmdModify
    rw [same, ih, ite_self]

theorem withCmd_id {f : Cmd → Cmd} (same : ∀ c, f c = c) (r : CmdRef) (b : Block) : b.withCmd r f = b := by
  have all : b.host.queues.modify r.q (fun q => { q with cmds := cmdModify r.id f q.cmds }) = b.host.queues := by
    simp only [cmdModify_id same]
    exact List.modify_id _ _
  rw [Block.withCmd, all]

/-- An operation that seals nothing gives the command no outputs. -/
theorem Block.forCmd_silent {r : CmdRef} {f : Block → Block} {b : Block}
    (silent : ∀ i : Nat, ((f b).stream i).nextSeq = (b.stream i).nextSeq) : b.forCmd r f = f b := by
  have none : ((f b).host.streams.zipIdx).flatMap (fun (s, i) =>
      if s.isOpen then (List.range (s.nextSeq - (b.host.streams.getD i {}).nextSeq).toNat).map
        fun k => (i, (b.host.streams.getD i {}).nextSeq + BitVec.ofNat 32 k) else []) = [] := by
    refine List.flatMap_eq_nil_iff.2 fun ⟨x, i⟩ mem => ?_
    have own : x = (f b).stream i := by
      obtain ⟨-, bound, at_⟩ := List.mem_zipIdx mem
      simp only [Block.stream, List.getD_eq_getElem?_getD]
      rw [List.getElem?_eq_getElem (by omega), Option.getD_some, at_]
      simp
    have zero : (x.nextSeq - (b.host.streams.getD i {}).nextSeq).toNat = 0 := by
      rw [own, silent i]
      exact congrArg BitVec.toNat (BitVec.sub_self _)
    simp only [zero, List.range_zero, List.map_nil, ite_self]
  unfold Block.forCmd
  dsimp only
  rw [none]
  exact withCmd_id (fun c => by rw [List.append_nil]) _ _

/-- What an opening of stream 2 does before it tells of a degraded memory. -/
theorem Block.streamTwoRead_told (b b1 : Block)
    (e : b1 = if b.boot.stream2Opened then b else { b.journalReadout with boot := { b.journalReadout.boot with stream2Opened := true } }) :
    (∀ j : Nat, j ≠ 2 → j ≠ 7 → b1.stream j = b.stream j) ∧ (b1.stream 2).isOpen = (b.stream 2).isOpen
      ∧ (b.boot.stream2Opened = true → b1.thermos = b.thermos ∧ b1.boot = b.boot)
      ∧ (b.boot.stream2Opened = false → b1.thermos.brownRead = b.thermos.brownCount)
      ∧ b1 = { b with
          host := { b.host with streams := b1.host.streams }, flt := b1.flt
          thermos := { b.thermos with brownRead := b1.thermos.brownRead }, boot := { b.boot with stream2Opened := true, haltDue := b1.boot.haltDue } } := by
  cases was : b.boot.stream2Opened with
  | true =>
    rw [was, if_pos rfl] at e
    subst e
    refine ⟨fun _ _ _ => rfl, rfl, fun _ => ⟨rfl, rfl⟩, fun no => absurd no (by decide), ?_⟩
    rw [← was]
  | false =>
    rw [was, if_neg (by decide)] at e
    obtain ⟨⟨other, streams, opened⟩, count⟩ := b.journalReadout_readsOut
    subst e
    refine ⟨streams, opened, fun no => absurd no (by decide), fun _ => count, ?_⟩
    generalize b.journalReadout = b2 at *
    rw [other]

/-- The first opening of stream 2 reads the journal out, and every opening tells of a degraded memory once (R489, R613). -/
theorem Block.streamTwoOpened_told (b : Block) :
    (∀ j : Nat, j ≠ 2 → j ≠ 7 → b.streamTwoOpened.stream j = b.stream j) ∧ (b.streamTwoOpened.stream 2).isOpen = (b.stream 2).isOpen
      ∧ (b.boot.stream2Opened = true → b.streamTwoOpened.thermos = b.thermos ∧ b.streamTwoOpened.boot = b.boot)
      ∧ (b.boot.stream2Opened = false → b.streamTwoOpened.thermos.brownRead = b.thermos.brownCount)
      ∧ b.streamTwoOpened = { b with
          host := { b.host with streams := b.streamTwoOpened.host.streams }, flt := b.streamTwoOpened.flt, den := { b.den with degradedDue := false }
          thermos := { b.thermos with brownRead := b.streamTwoOpened.thermos.brownRead }
          boot := { b.boot with stream2Opened := true, haltDue := b.streamTwoOpened.boot.haltDue } } := by
  unfold Block.streamTwoOpened
  dsimp only
  generalize e : (if b.boot.stream2Opened then b else { b.journalReadout with boot := { b.journalReadout.boot with stream2Opened := true } }) = b1
  obtain ⟨streams, opened, again, first, all⟩ := b.streamTwoRead_told b1 e.symm
  cases due : b1.den.degradedDue with
  | false =>
    simp only [Bool.false_eq_true, if_false]
    refine ⟨streams, opened, again, first, ?_⟩
    have den : b1.den = b.den := by rw [all]
    rw [show ({ b.den with degradedDue := false } : Den) = b1.den by rw [← den, ← due], den]
    exact all
  | true =>
    rw [if_pos rfl]
    generalize e2 : Block.event _ _ _ _ = b2
    have told : ({ b1 with den := { b1.den with degradedDue := false } } : Block).TellsTwo b2 := e2 ▸ (TellsTwo.refl _).event
    refine ⟨fun j two seven => (told.streams j two seven).trans (streams j two seven), told.opened.trans opened, fun was => ?_, fun was => ?_, ?_⟩
    · obtain ⟨thermos, boot⟩ := again was
      exact ⟨by rw [told.other]; exact thermos, by rw [told.other]; exact boot⟩
    · rw [told.other]; exact first was
    · rw [told.other, all]

/-- What STREAM_OPEN does to a closed stream once its ring is good. -/
def Block.opening (st : Nat) (ue : BitVec 2) (c : Cmd) (b : Block) : Block :=
  let b1 := b.onStream st (Stream.opened c b.link.live)
  if st = 2 then
    Block.streamTwoOpened { b1 with thermos := { b1.thermos with
      journalUe := if b1.boot.stream2Opened then b1.thermos.journalUe else b1.thermos.journalUe ||| ue } }
  else b1

/-- The opening of stream 2 (R489, R612, R613). -/
theorem Block.openingTwo_told (ue : BitVec 2) (c : Cmd) {b : Block} (inside : 2 < b.host.streams.length) :
    ((b.opening 2 ue c).stream 2).isOpen = true
      ∧ (b.boot.stream2Opened = true → (b.opening 2 ue c).thermos = b.thermos ∧ (b.opening 2 ue c).boot = b.boot)
      ∧ (b.boot.stream2Opened = false →
        (b.opening 2 ue c).thermos.brownRead = b.thermos.brownCount ∧ (b.opening 2 ue c).thermos.journalUe = b.thermos.journalUe ||| ue)
      ∧ (∀ j : Nat, j ≠ 2 → j ≠ 7 → (b.opening 2 ue c).stream j = b.stream j)
      ∧ b.opening 2 ue c = { b with
          host := { b.host with streams := (b.opening 2 ue c).host.streams }, flt := (b.opening 2 ue c).flt, den := { b.den with degradedDue := false }
          thermos := { b.thermos with brownRead := (b.opening 2 ue c).thermos.brownRead, journalUe := (b.opening 2 ue c).thermos.journalUe }
          boot := { b.boot with stream2Opened := true, haltDue := (b.opening 2 ue c).boot.haltDue } } := by
  have run : b.opening 2 ue c = Block.streamTwoOpened { b.onStream 2 (Stream.opened c b.link.live) with thermos := { b.thermos with
      journalUe := if b.boot.stream2Opened then b.thermos.journalUe else b.thermos.journalUe ||| ue } } := rfl
  obtain ⟨streams, isOpen, again, first, all⟩ := Block.streamTwoOpened_told { b.onStream 2 (Stream.opened c b.link.live) with thermos := { b.thermos with
      journalUe := if b.boot.stream2Opened then b.thermos.journalUe else b.thermos.journalUe ||| ue } }
  rw [run]
  generalize Block.streamTwoOpened _ = t at *
  refine ⟨isOpen.trans ?_, fun was => ?_, fun was => ⟨first was, ?_⟩, fun j two seven => ?_, ?_⟩
  · exact congrArg Stream.isOpen (getD_modify_same inside _ _)
  · obtain ⟨thermos, boot⟩ := again was
    exact ⟨by rw [thermos, was, if_pos rfl], boot⟩
  · rw [all, was]
    rfl
  · exact (streams j two seven).trans (getD_modify_other two _ _ _)
  · rw [all]
    rfl

theorem Block.streamOpen_good {r : CmdRef} {ue : BitVec 2} {c : Cmd} {b : Block} (starts : b.starting r 0x02 = some c)
    (fields : c.fieldsOk (fun c => decide (c.arg 24 1 < 8) && decide (1 ≤ c.arg 26 1)) = true) (has : ∀ f, c.feature = some f → b.committed f = true)
    (closed : (b.stream (c.arg 24 1)).isOpen = false) (aligned : c.arg 32 8 % 4096 = 0) (sized : powerWithin 16 65536 (c.arg 28 4) = true)
    (tail : c.arg 40 8 % 8 = 0) :
    b.streamOpen r ue = Block.finish r stOk 0 (b.stream (c.arg 24 1)).nextSeq.toNat 0 (b.forCmd r (Block.opening (c.arg 24 1) ue c)) := by
  rw [Block.streamOpen, Block.begin_eq_run_of_needs _ starts fields has]
  simp only [closed, aligned, sized, tail, ne_eq, not_true_eq_false, decide_false, Bool.not_true, Bool.or_self, Bool.false_eq_true, if_false]
  rfl

/-! ### Slots of a ring -/

theorem Block.streamSignal_told {b : Block} {k : Nat} (inside : k < b.host.streams.length) :
    (∃ ms : List Out, (b.streamSignal k).host.out = b.host.out ++ ms)
      ∧ (b.streamSignal k).stream k = { b.stream k with unsig := ((b.streamSignal k).stream k).unsig, unsigAt := ((b.streamSignal k).stream k).unsigAt }
      ∧ (∀ j : Nat, j ≠ k → (b.streamSignal k).stream j = b.stream j)
      ∧ b.streamSignal k = { b with host := (b.streamSignal k).host, link := (b.streamSignal k).link } := by
  unfold Block.streamSignal
  dsimp only
  split
  · refine ⟨?_, ?_, fun j apart => getD_modify_other apart _ _ _, rfl⟩
    · simp only [Block.signal]
      split
      · exact ⟨_, rfl⟩
      · exact ⟨[], (List.append_nil _).symm⟩
    · simp only [Block.stream, Block.signal, getD_modify_same inside]
  · refine ⟨⟨[], (List.append_nil _).symm⟩, ?_, fun j apart => getD_modify_other apart _ _ _, rfl⟩
    simp only [Block.stream, getD_modify_same inside]

/-- A slot is written whole, then the tail record, and then the interrupt is raised. -/
theorem Block.putSlot_told {b : Block} {k : Nat} (inside : k < b.host.streams.length) (p : Parcel) :
    (∃ ms : List Out, (b.putSlot k p).host.out = b.host.out ++ [.memWrite ((b.stream k).base
          + BitVec.ofNat 64 ((b.stream k).tail.toNat % max 1 (b.stream k).slots.toNat * slotSize k)) p.stored
        , .memWrite (b.stream k).tailAddr (leBytes 4 ((b.stream k).tail + 1).toNat ++ leBytes 4 p.seq.toNat)] ++ ms)
      ∧ (b.putSlot k p).stream k = { b.stream k with
          tail := (b.stream k).tail + 1, lastSeq := p.seq, written := true
          unsig := ((b.putSlot k p).stream k).unsig, unsigAt := ((b.putSlot k p).stream k).unsigAt }
      ∧ (∀ j : Nat, j ≠ k → (b.putSlot k p).stream j = b.stream j)
      ∧ b.putSlot k p = { b with host := (b.putSlot k p).host, link := (b.putSlot k p).link } := by
  unfold Block.putSlot
  dsimp only
  generalize e : Block.onStream k _ _ = b1
  have start : b1.host.out = b.host.out ++ [.memWrite ((b.stream k).base
          + BitVec.ofNat 64 ((b.stream k).tail.toNat % max 1 (b.stream k).slots.toNat * slotSize k)) p.stored
        , .memWrite (b.stream k).tailAddr (leBytes 4 ((b.stream k).tail + 1).toNat ++ leBytes 4 p.seq.toNat)]
      ∧ b1.stream k = { b.stream k with tail := (b.stream k).tail + 1, lastSeq := p.seq, written := true }
      ∧ (∀ j : Nat, j ≠ k → b1.stream j = b.stream j) ∧ b1 = { b with host := b1.host } ∧ k < b1.host.streams.length := by
    rw [← e]
    refine ⟨by simp only [Block.onStream, Block.drive, List.append_assoc]; rfl, getD_modify_same inside _ _,
      fun j apart => getD_modify_other apart _ _ _, rfl, by simpa [Block.onStream, Block.drive] using inside⟩
  obtain ⟨out, own, other, rest, size⟩ := start
  obtain ⟨⟨ms, told⟩, kept, others, all⟩ := Block.streamSignal_told size
  refine ⟨⟨ms, by rw [told, out]⟩, ?_, fun j apart => (others j apart).trans (other j apart), by rw [all, rest]⟩
  rw [own] at kept
  exact kept

/-- A stream's gap is written as one GAP parcel, after which there is none (R504). -/
theorem Block.putGap_told {b : Block} {k : Nat} {g : BitVec 32 × BitVec 32 × GapCause} (inside : k < b.host.streams.length)
    (gap : (b.stream k).gap = some g) :
    (b.putGap k).stream k = { b.stream k with
        gap := none, tail := (b.stream k).tail + 1, lastSeq := g.1, written := true
        unsig := ((b.putGap k).stream k).unsig, unsigAt := ((b.putGap k).stream k).unsigAt }
      ∧ b.putGap k = { b with host := (b.putGap k).host, link := (b.putGap k).link } := by
  obtain ⟨f, l, c⟩ := g
  simp only [Block.putGap, gap]
  have size : k < (b.onStream k fun s => { s with gap := none }).host.streams.length := by simpa [Block.onStream] using inside
  have own : (b.onStream k fun s => { s with gap := none }).stream k = { b.stream k with gap := none } := getD_modify_same inside _ _
  generalize ep : sealParcel b.chip 0x0F01 (BitVec.ofNat 8 k) f b.control _ [] = p
  have seq : p.seq = f := by rw [← ep]; rfl
  obtain ⟨-, kept, -, all⟩ := Block.putSlot_told size p
  rw [own, seq] at kept
  exact ⟨kept, by rw [all]; rfl⟩

/-- Settles O41: by the stream's state and the free slots of its ring. -/
theorem streamsOpenAndWrite : Obligations.StreamsOpenAndWrite := by
  unfold Obligations.StreamsOpenAndWrite
  intro s eight
  have inside (k : Fin 8) : k.val < s.host.streams.length := by omega
  have hit (k : Fin 8) (f : Stream → Stream) : (s.onStream k f).stream k = f (s.stream k) := getD_modify_same (inside k) _ _
  have twice (k : Fin 8) (f g : Stream → Stream) : (s.onStream k f).onStream k g = s.onStream k fun x => g (f x) := by
    simp only [Block.onStream, List.modify_modify_eq]
    rfl
  have popped (k : Fin 8) (p : Parcel) (ps : List Parcel) (ready : s.boot.phase = .ready) (live : s.link.live = true) (isOpen : (s.stream k).isOpen = true)
      (free : (s.stream k).held = false) (out : (s.stream k).out = p :: ps) (passes : sealFault p = none) :
      s.parcelWrite k .intact = (s.onStream k fun x => { x with out := ps }).putParcel k p := by
    simp only [Block.parcelWrite, out, Block.ready, ready, live, isOpen, free, beq_self_eq_true, Bool.not_true, Bool.or_self, Bool.false_eq_true, if_false,
      Block.verify_intact passes]
  refine ⟨fun r ue c k starts names fields has => ⟨fun isOpen => ?_, fun closed => ⟨fun odd => ?_, fun two aligned sized tail => ?_, fun other aligned sized tail => ?_⟩⟩,
    fun r c starts fields free => ⟨fun closed => ?_, fun isOpen => ?_⟩,
    fun k p ps ready live isOpen free out passes => ⟨fun room none => ?_, fun full => ?_, fun g gap two => ?_⟩, fun k empty x => ?_,
    fun k ready isOpen held live => ⟨fun none => ?_, fun f l c gap room => ?_⟩⟩
  · refine State.act_of_eq (f := Block.streamOpen r ue) ?_
    rw [Block.streamOpen, Block.begin_eq_run_of_needs _ starts fields has]
    simp only [names, isOpen, if_true]
    rfl
  · refine State.act_of_eq (f := Block.streamOpen r ue) ?_
    rw [Block.streamOpen, Block.begin_eq_run_of_needs _ starts fields has]
    simp only [names, closed, odd, ne_eq, not_false_eq_true, decide_true, Bool.true_or, Bool.false_eq_true, if_false, if_true]
    rfl
  · subst two
    refine completes_of_act (f := Block.streamOpen r ue) rfl ?_
    rw [Block.streamOpen_good starts fields has (by rw [names]; exact closed) aligned sized tail, names]
    obtain ⟨isOpen, again, first, streams, all⟩ := s.openingTwo_told ue c (inside 2)
    rw [show ((2 : Fin 8) : Nat) = 2 from rfl]
    unfold Block.forCmd Block.finish
    dsimp only
    generalize s.opening 2 ue c = t at *
    refine ⟨isOpen, (congrArg (fun b : Block => b.boot.stream2Opened) all).trans rfl, again, first, streams, ?_⟩
    rw [all]
    rfl
  · refine completes_of_act (f := Block.streamOpen r ue) rfl ?_
    rw [Block.streamOpen_good starts fields has (by rw [names]; exact closed) aligned sized tail, names]
    have run : s.opening k ue c = s.onStream k (Stream.opened c s.link.live) := if_neg fun two => other (Fin.ext two)
    have silent : s.forCmd r (Block.opening k ue c) = s.onStream k (Stream.opened c s.link.live) := by
      rw [Block.forCmd_silent, run]
      intro i
      rw [run]
      by_cases own : i = k
      · subst own; rw [hit]; rfl
      · exact congrArg Stream.nextSeq (getD_modify_other own _ _ _)
    rw [silent]
    have own : (Block.finish r stOk 0 (s.stream k).nextSeq.toNat 0 (s.onStream k (Stream.opened c s.link.live))).stream k
      = Stream.opened c s.link.live (s.stream k) := hit k _
    rw [own]
    exact ⟨rfl, rfl, rfl, rfl, rfl, fun j apart => getD_modify_other apart _ _ _, rfl, rfl⟩
  · refine State.act_of_eq (f := Block.streamClose r) ?_
    rw [Block.streamClose, Block.begin_eq_run_of_free _ starts fields free]
    simp only [closed, Bool.not_false, if_true]
    rfl
  · refine completes_of_act (f := Block.streamClose r) rfl ?_
    rw [Block.streamClose, Block.begin_eq_run_of_free _ starts fields free]
    simp only [isOpen, Bool.not_true, Bool.false_eq_true, if_false]
    rfl
  · refine completes_of_act (f := Block.parcelWrite k .intact) rfl ?_
    have run : s.parcelWrite k .intact = (s.onStream k fun x => { x with out := ps }).putSlot k p := by
      rw [popped k p ps ready live isOpen free out passes, Block.putParcel, hit]
      simp only [none, Option.isSome_none, Bool.toNat_false, Nat.add_zero, Stream.free] at room ⊢
      rw [if_neg (by omega), Block.putGap, hit]
      simp only [none]
    have size : k.val < (s.onStream k fun x => { x with out := ps }).host.streams.length := by simpa [Block.onStream] using inside k
    obtain ⟨⟨ms, told⟩, kept, others, all⟩ := Block.putSlot_told size p
    rw [run]
    rw [hit] at kept told
    refine ⟨⟨ms, told⟩, by rw [kept], by rw [kept], by rw [kept], by rw [kept]; exact none, fun j apart => ?_, ?_⟩
    · exact (others j apart).trans (getD_modify_other apart _ _ _)
    · rw [all]
      rfl
  · refine State.act_of_eq (f := Block.parcelWrite k .intact) ?_
    rw [popped k p ps ready live isOpen free out passes, Block.putParcel, hit, if_pos (by simp only [Stream.free] at full ⊢; omega), twice]
    rfl
  · refine completes_of_act (f := Block.parcelWrite k .intact) rfl ?_
    have run : s.parcelWrite k .intact = s.onStream k fun x => Stream.miss p.seq .ringFull { x with out := ps } := by
      rw [popped k p ps ready live isOpen free out passes, Block.putParcel, hit, if_pos (by
        simp only [gap, Option.isSome_some, Bool.toNat_true, Stream.free] at two ⊢; omega), twice]
    rw [run, hit]
    simp only [Stream.miss, gap]
    exact ⟨trivial, rfl, trivial⟩
  · exact State.act_of_eq (f := Block.parcelWrite k x) (by simp only [Block.parcelWrite, empty])
  · refine State.act_of_eq (f := Block.streamResume k) ?_
    rw [Block.streamResume, if_pos (by simp [Block.ready, ready, isOpen, held, live])]
    have still : (s.onStream k fun x => { x with held := false }).putGap k = s.onStream k fun x => { x with held := false } := by
      rw [Block.putGap, hit]
      simp only [none]
    simp only [still, ite_self]
    rfl
  · refine completes_of_act (f := Block.streamResume k) rfl ?_
    have run : s.streamResume k = (s.onStream k fun x => { x with held := false }).putGap k := by
      rw [Block.streamResume, if_pos (by simp [Block.ready, ready, isOpen, held, live])]
      exact if_pos room
    have size : k.val < (s.onStream k fun x => { x with held := false }).host.streams.length := by simpa [Block.onStream] using inside k
    obtain ⟨kept, all⟩ := Block.putGap_told size (g := (f, l, c)) (by rw [hit]; exact gap)
    rw [run]
    rw [hit] at kept
    refine ⟨by rw [kept], by rw [kept], by rw [kept], by rw [kept], by rw [kept], ?_⟩
    rw [all]
    rfl

end Sys2Proof.Machine
end

section
/-! PROOF. The block's edge: its clocks, its supplies and the beats that cross it (O53, O54; R615 to R632). -/

namespace Sys2Proof.Machine

/-! ### Clocks -/

/-- What an event adds, told of any writing of the block it was emitted in. -/
theorem Block.event_tells {code : Nat} {source : BitVec 8} {body : Bytes} {a b : Block} (same : a = b) : Tells code source body a (b.event code source body) :=
  same ▸ ⟨rfl, rfl⟩

/-- A clock that starts again changes the clocks alone. -/
theorem Block.clockAgain_parts (i : Nat) (b : Block) :
    b.clockAgain i = { b with flt := { b.flt with clockOn := (b.clockAgain i).flt.clockOn } } := by
  unfold Block.clockAgain
  split <;> rfl

theorem Block.clockAgain_runs {i : Nat} {b : Block} (free : b.clockFree i = true) (inside : i < b.flt.clockOn.length) :
    (b.clockAgain i).flt.clockOn.getD i false = true := by
  rw [Block.clockAgain, if_pos free]
  exact getD_set_same inside _ _

theorem dvfsIsland_inj : ∀ i d : Dvfs, dvfsIsland d = dvfsIsland i → d = i := by
  intro i d
  cases i <;> cases d <;> decide

theorem dvfsIndex_lt (i : Dvfs) : dvfsIndex i < 4 := by cases i <;> decide

theorem dvfsIsland_lt (i : Dvfs) : dvfsIsland i < 11 := by cases i <;> decide

/-- Once its P-point is there, nothing else holds a clock: no isolation, no trip and no halt (R579, R597, R627). -/
theorem Block.clockFree_matched {i : Dvfs} {b : Block} (power : b.pwr.iso.getD (dvfsIsland i) true = false) (cool : b.pwr.tripped = false)
    (runs : b.boot.phase ≠ .faultHalt) (there : b.pwr.packSince.getD (dvfsIndex i) none = none) : b.clockFree (dvfsIsland i) = true := by
  have runs' : (b.boot.phase != .faultHalt) = true := by simpa using runs
  simp only [Block.clockFree, power, Block.tripStops, cool, runs', Bool.not_false, Bool.false_and, Bool.true_or, Bool.true_and, List.all_eq_true]
  intro d _
  by_cases own : dvfsIsland d = dvfsIsland i
  · rw [dvfsIsland_inj i d own, there]; simp
  · simp [own]

/-- Settles O53: by the tick and the point delivered. -/
theorem clocksAtTheEdge : Obligations.ClocksAtTheEdge := by
  unfold Obligations.ClocksAtTheEdge
  intro s i u package since
  have hooked : s.hooked = true := by simp [Block.hooked, package]
  refine ⟨fun d late other four => ?_, fun d early => ?_, fun four => ?_⟩
  · refine completes_of_act (f := Block.packTimeout i d) rfl ?_
    have now : decide (u + us 50 ≤ s.now) = true := decide_eq_true late
    have apart : (d != ppGet s.pwr.preq i) = true := by simpa using other
    simp only [Block.packTimeout, since, hooked, now, apart, Bool.and_self, if_true, lateBody]
    generalize e : ({ s.toBlock with pwr := _ } : Block) = b1
    have pwr : b1.pwr = { s.pwr with
        preq := ppSet s.pwr.preq i d, pack := ppSet s.pwr.pack i d, pp := ppSet s.pwr.pp i d
        packSince := s.pwr.packSince.set (dvfsIndex i) none } := by rw [← e]
    have rest : b1 = { s.toBlock with pwr := b1.pwr } := by rw [← e]
    have matched : b1.pwr.packSince.getD (dvfsIndex i) none = none := by
      rw [pwr]
      exact getD_set_same (by have := dvfsIndex_lt i; omega) _ _
    have parts := b1.clockAgain_parts (dvfsIsland i)
    have free (power : s.pwr.iso.getD (dvfsIsland i) true = false) (cool : s.pwr.tripped = false) (runs : s.boot.phase ≠ .faultHalt)
        (eleven : s.flt.clockOn.length = 11) : (b1.clockAgain (dvfsIsland i)).flt.clockOn.getD (dvfsIsland i) false = true := by
      refine Block.clockAgain_runs (Block.clockFree_matched (by rw [pwr]; exact power) (by rw [pwr]; exact cool) (by rw [rest]; exact runs) matched) ?_
      rw [rest]
      exact (dvfsIsland_lt i).trans_eq eleven.symm
    generalize b1.clockAgain (dvfsIsland i) = b2 at *
    have told := b2.event_parts 0x005B noUnit (leBytes 1 (dvfsIsland i) ++ leBytes 1 (ppGet s.pwr.preq i).val ++ leBytes 1 d.val)
    have pwr2 : b2.pwr = b1.pwr := by rw [parts]
    have clocks : (b2.event 0x005B noUnit (leBytes 1 (dvfsIsland i) ++ leBytes 1 (ppGet s.pwr.preq i).val ++ leBytes 1 d.val)).flt.clockOn
      = b2.flt.clockOn := by rw [told]
    have pwr3 : (b2.event 0x005B noUnit (leBytes 1 (dvfsIsland i) ++ leBytes 1 (ppGet s.pwr.preq i).val ++ leBytes 1 d.val)).pwr = b1.pwr := by
      rw [told]; exact pwr2
    refine ⟨pwr3.trans pwr, by rw [pwr3, pwr, ppGet_ppSet, if_pos rfl], by rw [pwr3, pwr, ppGet_ppSet, if_pos rfl], fun power cool runs eleven => ?_, ?_, ?_⟩
    · rw [clocks]; exact free power cool runs eleven
    · refine Block.event_tells ?_
      rw [clocks, pwr3, parts, rest]
    · rw [told, parts, rest]
  · refine State.act_of_eq (f := Block.packTimeout i d) ?_
    have now : decide (u + us 50 ≤ s.now) = false := decide_eq_false (Nat.not_le.2 early)
    simp only [Block.packTimeout, since, now, Bool.and_false, Bool.false_and, Bool.false_eq_true, if_false]
  · refine completes_of_act (f := Block.packMatch i) rfl ?_
    simp only [Block.packMatch, since, hooked, Option.isSome_some, Bool.and_self, if_true]
    generalize e : ({ s.toBlock with pwr := _ } : Block) = b1
    have pwr : b1.pwr = { s.pwr with pack := ppSet s.pwr.pack i (ppGet s.pwr.preq i), packSince := s.pwr.packSince.set (dvfsIndex i) none } := by rw [← e]
    have rest : b1 = { s.toBlock with pwr := b1.pwr } := by rw [← e]
    have matched : b1.pwr.packSince.getD (dvfsIndex i) none = none := by
      rw [pwr]
      exact getD_set_same (by have := dvfsIndex_lt i; omega) _ _
    have parts := b1.clockAgain_parts (dvfsIsland i)
    have pwr2 : (b1.clockAgain (dvfsIsland i)).pwr = b1.pwr := by rw [parts]
    refine ⟨by rw [pwr2, pwr, ppGet_ppSet, if_pos rfl], by rw [pwr2]; exact matched, by rw [pwr2, pwr], fun power cool runs eleven => ?_, ?_⟩
    · refine Block.clockAgain_runs (Block.clockFree_matched (by rw [pwr]; exact power) (by rw [pwr]; exact cool) (by rw [rest]; exact runs) matched) ?_
      rw [rest]
      exact (dvfsIsland_lt i).trans_eq eleven.symm
    · generalize b1.clockAgain (dvfsIsland i) = b2 at *
      rw [parts, rest]

/-! ### Supplies -/

/-- An island that leaves isolation changes its isolation and its clock alone. -/
theorem Block.islandOn_parts (i : Nat) (b : Block) :
    (b.islandOn i).pwr = { b.pwr with iso := b.pwr.iso.set i false }
      ∧ b.islandOn i = { b with pwr := (b.islandOn i).pwr, flt := { b.flt with clockOn := (b.islandOn i).flt.clockOn } } := by
  unfold Block.islandOn
  have parts := Block.clockAgain_parts i { b with pwr := { b.pwr with iso := b.pwr.iso.set i false } }
  generalize Block.clockAgain i _ = t at *
  exact ⟨by rw [parts], by rw [parts]⟩

theorem islandNo_eq_ten : ∀ i : Island, islandNo i = 10 ↔ i = .trail := by
  intro i; cases i <;> decide

theorem islandNo_pos {i : Island} (other : i ≠ .thermos) : (islandNo i != 0) = true := by
  revert other; cases i <;> decide

theorem islandNo_eq_eight : ∀ i : Island, islandNo i = 8 ↔ i = .den := by
  intro i; cases i <;> decide

theorem islandNo_lt (i : Island) : islandNo i < 11 := by cases i <;> decide

/-! ### Beats and partners -/

theorem Block.laneGone_parts (k : Nat) (b : Block) : b.laneGone k = { b with trail := (b.laneGone k).trail } := Block.eq_of_fields (by simp)

/-- A lane whose partner is absent changes the trails alone. -/
theorem Block.laneAbsent_parts (l : Nat) (b : Block) : b.laneAbsent l = { b with trail := (b.laneAbsent l).trail } := by
  unfold Block.laneAbsent
  dsimp only
  split
  · rw [Block.laneGone_parts]; rfl
  · rfl
  · rw [Block.laneGone_parts]; rfl
  · rfl

/-- A phase that is entered leaves the link as it is. -/
theorem Block.haltBoth_up (c : BitVec 8) (b : Block) : (b.haltBoth c).link.up = b.link.up := by
  simp only [Block.haltBoth, Block.haltNoBoot, Block.releaseFlash_frame, Block.enter, Block.cause]
  split <;> rfl

/-- What the absence of a channel's partner does (R621). -/
def Block.partnerGone (ch : Nat) (b : Block) : Block :=
  if ch < 8 then (if b.link.up then b.linkLost else b)
  else if ch < 28 then b.laneAbsent (ch - 10)
  else if ch = 46 then (if b.boot.bootSrc && b.boot.phase == .romProbe then b.haltBoth 0x01 else b)
  else if ch = 48 then (if b.boot.phase == .romProbe then b.haltBoth 0x0D else if b.ready && b.boot.rollBusy then b.rollFails else b)
  else b

theorem Block.edgeStall_runs {ch : Fin 53} {b : Block} (out : edgeIn ch = false) (runs : b.edgeRuns ch = true) :
    b.edgeStall ch = Block.partnerGone ch { b with edge := b.edge.modify ch fun e => { e with stall := bump e.stall } } := by
  rw [Block.edgeStall, if_pos (by rw [out, runs]; rfl)]
  rfl

/-- What EDGE_STALL leaves. -/
theorem Block.edgeStall_kept (ch : Fin 53) {b : Block} (out : edgeIn ch = false) (runs : b.edgeRuns ch = true) :
    (b.edgeStall ch).edge = b.edge.modify ch (fun e => { e with stall := bump e.stall })
      ∧ (ch.val < 8 → (b.edgeStall ch).link.up = false) ∧ (8 ≤ ch.val → (b.edgeStall ch).link.up = b.link.up)
      ∧ (ch.val < 28 → (b.edgeStall ch).cfg = b.cfg ∧ (b.edgeStall ch).ep = b.ep ∧ (b.edgeStall ch).boot = b.boot) := by
  rw [Block.edgeStall_runs out runs]
  generalize e : ({ b with edge := _ } : Block) = b1
  have kept : b1.edge = b.edge.modify ch (fun e => { e with stall := bump e.stall }) ∧ b1 = { b with edge := b1.edge } := by rw [← e]; exact ⟨rfl, rfl⟩
  obtain ⟨edge, rest⟩ := kept
  have same : b1.link.up = b.link.up ∧ b1.cfg = b.cfg ∧ b1.ep = b.ep ∧ b1.boot = b.boot := by rw [rest]; exact ⟨rfl, rfl, rfl, rfl⟩
  obtain ⟨up, cfg, ep, boot⟩ := same
  unfold Block.partnerGone
  by_cases pcie : ch.val < 8
  · rw [if_pos pcie]
    split
    next isUp =>
      exact ⟨by simp [edge], fun _ => rfl, fun far => absurd pcie (by omega), fun _ => ⟨by simp [cfg], by simp [ep], by simp [boot]⟩⟩
    next down => exact ⟨edge, fun _ => by simpa using down, fun _ => up, fun _ => ⟨cfg, ep, boot⟩⟩
  rw [if_neg pcie]
  by_cases trail : ch.val < 28
  · rw [if_pos trail, Block.laneAbsent_parts]
    exact ⟨edge, fun near => absurd near pcie, fun _ => up, fun _ => ⟨cfg, ep, boot⟩⟩
  rw [if_neg trail]
  have far (t : Block) (sameEdge : t.edge = b1.edge) (sameUp : t.link.up = b1.link.up) :
      t.edge = b.edge.modify ch (fun e => { e with stall := bump e.stall }) ∧ (ch.val < 8 → t.link.up = false) ∧ (8 ≤ ch.val → t.link.up = b.link.up)
        ∧ (ch.val < 28 → t.cfg = b.cfg ∧ t.ep = b.ep ∧ t.boot = b.boot) :=
    ⟨sameEdge.trans edge, fun near => absurd near pcie, fun _ => sameUp.trans up, fun near => absurd near trail⟩
  split
  · split
    · exact far _ (by simp) (Block.haltBoth_up _ _)
    · exact far _ rfl rfl
  split
  · split
    · exact far _ (by simp) (Block.haltBoth_up _ _)
    split
    · exact far _ (by simp [Block.rollFails]) (by simp [Block.rollFails])
    · exact far _ rfl rfl
  · exact far _ rfl rfl

/-- Settles O54: by the island's phase at the edge, and by the order of a channel's beats. -/
theorem suppliesAndBeatsAtTheEdge : Obligations.SuppliesAndBeatsAtTheEdge := by
  unfold Obligations.SuppliesAndBeatsAtTheEdge
  refine ⟨fun s i ackLen isoLen failedLen => ⟨fun package => ?_, fun package other => ?_⟩, fun s c x e size => ⟨fun package => ?_, fun out => ?_, fun in_ => ?_,
    fun runs => ⟨fun in_ => ?_, fun out => ?_⟩⟩⟩
  · have bare : s.hooked = false := by simpa [Block.hooked] using package
    refine ⟨State.act_of_eq (f := Block.ackRise i) ?_, State.act_of_eq (f := Block.ackFall i) ?_, State.act_of_eq (f := Block.ackTimeout i) ?_,
      fun v => State.act_of_eq (f := Block.retAck v) ?_⟩
    · simp only [Block.ackRise, Block.supplyAsked, bare, Bool.false_and, Bool.false_eq_true, if_false]
    · simp only [Block.ackFall, bare, Bool.false_and, Bool.false_eq_true, if_false]
    · simp only [Block.ackTimeout, Block.supplyAsked, bare, Bool.false_and, Bool.and_false, Bool.false_eq_true, if_false]
    · simp only [Block.retAck, bare, Bool.false_and, Bool.false_eq_true, if_false]
  · have hooked : s.hooked = true := by simp [Block.hooked, package]
    have place : (islandNo i != 0) = true := islandNo_pos other
    have timedOut (asks : s.pwr.pwrReq.getD (islandNo i) false = true) (absent : s.pwr.pwrAck.getD (islandNo i) false = false)
        (sound : s.flt.failed.getD (islandNo i) false = false) (ready : s.boot.phase = .ready) (late : s.pwr.pwrSince.getD (islandNo i) 0 + 2500000 ≤ s.now) :
        s.ackTimeout i = if islandNo i = 10
          then Block.islandFailed 10 { s.toBlock with flt := { s.flt with failed := s.flt.failed.set (islandNo i) true } }
          else Block.faultHalt 2 (islandNo i) { s.toBlock with flt := { s.flt with failed := s.flt.failed.set (islandNo i) true } } := by
      have detects : s.detects = true := by simp [Block.detects, ready]
      have now : decide (s.pwr.pwrSince.getD (islandNo i) 0 + ms 10 ≤ s.now) = true := decide_eq_true late
      rw [Block.ackTimeout, if_pos]
      simp only [Block.supplyAsked, detects, hooked, place, asks, absent, sound, now, Bool.not_false, Bool.and_self, Bool.true_and, Bool.and_true]
      rw [ready]
      rfl
    refine ⟨fun asks absent leaves => ?_, fun asks absent retains held => ?_, fun retains free => ?_, fun done held asks there => ?_,
      fun there => ⟨fun silent => ?_, fun asks => ?_⟩, fun asks absent sound => ⟨fun ready late => ⟨fun local_ => ?_, fun trail => ?_⟩, fun early => ?_⟩⟩
    · refine completes_of_act (f := Block.ackRise i) rfl ?_
      have plain : (islandNo i == 8 && s.pwr.retDen) = false := by
        rcases leaves with apart | done
        · have : islandNo i ≠ 8 := fun h => apart ((islandNo_eq_eight i).1 h)
          simp [this]
        · rw [done, Bool.and_false]
      simp only [Block.ackRise, Block.supplyAsked, hooked, place, asks, absent, plain, Bool.not_false, Bool.and_self, Bool.false_eq_true, if_true, if_false]
      obtain ⟨pwr, all⟩ := Block.islandOn_parts (islandNo i) { s.toBlock with pwr := { s.pwr with pwrAck := s.pwr.pwrAck.set (islandNo i) true } }
      generalize Block.islandOn _ _ = t at *
      exact ⟨pwr, by rw [all]⟩
    · refine State.act_of_eq (f := Block.ackRise .den) ?_
      simp only [Block.ackRise, Block.supplyAsked, hooked, show islandNo .den = 8 from rfl, show (8 != 0) = true from rfl, asks, absent, retains, held,
        beq_self_eq_true, Bool.not_false, Bool.and_self, if_true]
    · refine State.act_of_eq (f := Block.retAck true) ?_
      have change : (s.pwr.retAckDen != true) = true := by rw [free]; rfl
      simp only [Block.retAck, hooked, change, retains, Bool.and_self, if_true]
    · refine completes_of_act (f := Block.retAck false) rfl ?_
      have change : (s.pwr.retAckDen != false) = true := by rw [held]; rfl
      have run : s.retAck false = Block.islandOn 8 { s.toBlock with pwr := { s.pwr with retAckDen := false } } := by
        rw [Block.retAck, if_pos (by rw [hooked, change]; rfl)]
        refine (if_neg (by decide)).trans (if_pos ?_)
        simp only [done, asks, there, Bool.not_false, Bool.and_self]
      rw [run]
      obtain ⟨pwr, all⟩ := Block.islandOn_parts 8 { s.toBlock with pwr := { s.pwr with retAckDen := false } }
      generalize Block.islandOn _ _ = t at *
      exact ⟨pwr, by rw [all]⟩
    · refine State.act_of_eq (f := Block.ackFall i) ?_
      simp only [Block.ackFall, hooked, place, there, silent, Bool.and_self, Bool.false_eq_true, if_true, if_false]
    · refine State.act_of_eq (f := Block.ackFall i) ?_
      simp only [Block.ackFall, hooked, place, there, asks, Bool.and_self, if_true]
    · refine completes_of_act (f := Block.ackTimeout i) rfl ?_
      have far : islandNo i ≠ 10 := fun h => local_ ((islandNo_eq_ten i).1 h)
      rw [timedOut asks absent sound ready late, if_neg far]
      obtain ⟨phase, -, -, cause⟩ := Block.faultHalt_phase 2 (islandNo i) { s.toBlock with flt := { s.flt with failed := s.flt.failed.set (islandNo i) true } }
      have flt := Block.faultHalt_flt 2 (islandNo i) { s.toBlock with flt := { s.flt with failed := s.flt.failed.set (islandNo i) true } }
      generalize Block.faultHalt _ _ _ = t at *
      exact ⟨phase, cause, by rw [flt], by rw [flt]; exact getD_set_same ((islandNo_lt i).trans_eq failedLen.symm) _ _⟩
    · refine completes_of_act (f := Block.ackTimeout i) rfl ?_
      subst trail
      rw [timedOut asks absent sound ready late, if_pos (show islandNo .trail = 10 from rfl), Block.islandFailed, if_pos rfl]
      dsimp only
      generalize e : ({ Block.lanesDown _ with trail := _ } : Block) = b1
      have failed : b1.trail.failed = true ∧ b1.flt = { s.flt with failed := s.flt.failed.set 10 true } ∧ b1.boot = s.boot
          ∧ (∀ x ∈ b1.trail.lanes, x.st = .off) ∧ b1 = { s.toBlock with trail := b1.trail, flt := b1.flt } := by
        rw [← e]
        refine ⟨rfl, rfl, rfl, fun x mem => ?_, rfl⟩
        obtain ⟨y, -, rfl⟩ := List.mem_map.1 (show x ∈ s.trail.lanes.map _ from mem)
        rfl
      obtain ⟨down, flt, boot, off, all⟩ := failed
      have told := b1.event_parts 0x0014 noUnit []
      have trail : (b1.event 0x0014 noUnit []).trail = b1.trail := by rw [told]
      refine ⟨by rw [told]; exact boot, by rw [trail]; exact down, ?_, by rw [trail]; exact off, Block.event_tells ?_⟩
      · rw [told]
        dsimp only
        rw [flt]
        exact getD_set_same (by omega) _ _
      · rw [trail, all, flt]
    · refine State.act_of_eq (f := Block.ackTimeout i) ?_
      rcases early with starting | early
      · have still : (s.boot.phase != .bringup) = false := by rw [starting]; rfl
        simp only [Block.ackTimeout, still, Bool.and_false, Bool.false_and, Bool.false_eq_true, if_false]
      · have now : decide (s.pwr.pwrSince.getD (islandNo i) 0 + ms 10 ≤ s.now) = false := decide_eq_false (Nat.not_le.2 early)
        simp only [Block.ackTimeout, now, Bool.and_false, Bool.false_and, Bool.false_eq_true, if_false]
  · have bare : s.hooked = false := by simpa [Block.hooked] using package
    have still : s.edgeRuns c = false := by simp [Block.edgeRuns, bare]
    refine ⟨State.act_of_eq (f := Block.edgeBeat c x e) ?_, State.act_of_eq (f := Block.edgeStall c) ?_⟩
    · simp only [Block.edgeBeat, still, Bool.and_false, Bool.false_eq_true, if_false]
    · simp only [Block.edgeStall, still, Bool.and_false, Bool.false_eq_true, if_false]
  · exact State.act_of_eq (f := Block.edgeBeat c x e) (by simp only [Block.edgeBeat, out, Bool.false_and, Bool.false_eq_true, if_false])
  · exact State.act_of_eq (f := Block.edgeStall c) (by simp only [Block.edgeStall, in_, Bool.not_true, Bool.false_and, Bool.false_eq_true, if_false])
  · refine completes_of_act (f := Block.edgeBeat c x e) rfl ?_
    simp only [Block.edgeBeat, in_, runs, Bool.and_self, if_true]
    have beat (t : Block) (edges : t.edge = s.edge.modify c (EdgeCh.take x e)) :
        (e = true ∨ x.kind.getLsbD 0 = (s.edge.getD c {}).inSeq →
            t.edge.getD c {} = { s.edge.getD c {} with beats := [], inSeq := false, proto := bump (s.edge.getD c {}).proto })
          ∧ (e = false → x.kind.getLsbD 0 ≠ (s.edge.getD c {}).inSeq →
            (x.kind.getLsbD 1 = false → t.edge.getD c {} = { s.edge.getD c {} with beats := (s.edge.getD c {}).beats ++ [x], inSeq := true })
            ∧ (x.kind.getLsbD 1 = true → t.edge.getD c {} = { s.edge.getD c {} with beats := [], inSeq := false }))
          ∧ (∀ j : Nat, j ≠ c → t.edge.getD j {} = s.edge.getD j {}) := by
      rw [edges, getD_modify_same (show c.val < s.edge.length by omega)]
      refine ⟨fun bad => ?_, fun calm order => ⟨fun more => ?_, fun last => ?_⟩, fun j apart => getD_modify_other apart _ _ _⟩
      · rw [EdgeCh.take, if_pos]
        rcases bad with early | order
        · rw [early]; rfl
        · rw [edgeOrder, order, bne_self_eq_false, Bool.not_false, Bool.or_true]
      · rw [EdgeCh.take, if_neg (by rw [calm, edgeOrder, bne_iff_ne.2 order]; decide), if_neg (by rw [more]; decide)]
      · rw [EdgeCh.take, if_neg (by rw [calm, edgeOrder, bne_iff_ne.2 order]; decide), if_pos last]
    split
    next csi =>
      split
      next raised =>
        obtain ⟨early, ordered, others⟩ := beat (Block.phyError ⟨c.val, csi⟩ { s.toBlock with edge := s.edge.modify c (EdgeCh.take x e) }) (by simp)
        refine ⟨early, ordered, others, Block.eq_of_fields (by simp), fun quiet => ?_⟩
        rcases quiet with far | quiet
        · omega
        · rw [quiet] at raised; cases raised
      next =>
        obtain ⟨early, ordered, others⟩ := beat { s.toBlock with edge := s.edge.modify c (EdgeCh.take x e) } rfl
        exact ⟨early, ordered, others, rfl, fun _ => rfl⟩
    next =>
      obtain ⟨early, ordered, others⟩ := beat { s.toBlock with edge := s.edge.modify c (EdgeCh.take x e) } rfl
      exact ⟨early, ordered, others, rfl, fun _ => rfl⟩
  · refine completes_of_act (f := Block.edgeStall c) rfl ?_
    obtain ⟨edge, down, up, kept⟩ := Block.edgeStall_kept c out runs
    refine ⟨edge, down, up, fun l own training lanes => ?_, kept⟩
    have run : (s.edgeStall c).trail = { s.trail with lanes := s.trail.lanes.modify l fun x => { x with
        st := .failed, since := s.now, sentReq := false, leads := false, trainFail := bump x.trainFail } } := by
      have at_ : c.val - 10 = l := by omega
      rw [Block.edgeStall_runs out runs, Block.partnerGone, if_neg (by omega), if_pos (by omega), at_]
      generalize e : ({ s.toBlock with edge := _ } : Block) = b1
      have lane : (b1.lane l).st = .training := by rw [← e]; exact training
      rw [Block.laneAbsent]
      dsimp only
      rw [lane, ← e]
      rfl
    have inside : l.val < s.trail.lanes.length := by omega
    simp only [Block.lane, run]
    refine ⟨by rw [getD_modify_same inside], by rw [getD_modify_same inside], fun j apart => getD_modify_other apart _ _ _⟩

end Sys2Proof.Machine
end

section
/-! PROOF. The beats of a parcel (O50; R17 to R20): the parcel that they spell, and the bridge that takes them. -/

namespace Sys2Proof.Machine

/-! ### Bytes -/

theorem leBytes_ofLe (bs : Bytes) : leBytes bs.length (ofLe bs) = bs := by
  induction bs with
  | nil => rfl
  | cons x xs ih =>
    have low := x.isLt
    have first : BitVec.ofNat 8 (x.toNat + 256 * ofLe xs) = x := BitVec.eq_of_toNat_eq (by rw [BitVec.toNat_ofNat]; omega)
    have rest : (x.toNat + 256 * ofLe xs) / 256 = ofLe xs := by omega
    simp only [List.length_cons, leBytes, ofLe, first, rest, ih]

theorem fit_eq (n : Nat) (xs : Bytes) : fit n xs = xs.take n ++ List.replicate (n - xs.length) 0 := by
  rw [fit, List.take_append, List.take_replicate]
  congr 2
  omega

theorem fit_take (n : Nat) (xs : Bytes) : fit n (xs.take n) = fit n xs := by
  rw [fit_eq, fit_eq, List.take_take, Nat.min_self, List.length_take]
  congr 2
  omega

theorem fit_add (a b : Nat) (xs : Bytes) : fit (a + b) xs = fit a xs ++ fit b (xs.drop a) := by
  simp only [fit_eq, List.length_drop]
  by_cases inside : a ≤ xs.length
  · rw [List.take_add, Nat.sub_eq_zero_of_le inside, List.replicate_zero, List.append_nil, List.append_assoc]
    congr 3
    omega
  · rw [List.take_of_length_le (by omega), List.take_of_length_le (by omega : xs.length ≤ a), List.drop_of_length_le (by omega), List.take_nil,
      List.nil_append, List.append_assoc, List.replicate_append_replicate]
    congr 2
    omega

/-- Chunks of 32 bytes, zero-filled, are the bytes zero-filled. -/
theorem flatMap_chunks (bs : Bytes) (n : Nat) : (List.range n).flatMap (fun i => fit 32 (slice bs (32 * i) 32)) = fit (32 * n) bs := by
  induction n with
  | zero => rfl
  | succ n ih =>
    rw [List.range_succ, List.flatMap_append, ih, List.flatMap_singleton, slice, fit_take, Nat.mul_succ, fit_add]

/-! ### The parcel that its beats spell -/

theorem Parcel.length_header (p : Parcel) : p.header.length = 16 := by
  simp [Parcel.header]

section
variable (p : Parcel) (rest : Bytes)

theorem Parcel.header_type : field (p.header ++ rest) 0 2 = p.type.toNat :=
  (ofLe_leBytes 2 _).trans (Nat.mod_eq_of_lt p.type.isLt)

theorem Parcel.header_len : field (p.header ++ rest) 2 2 = p.len.toNat :=
  (ofLe_leBytes 2 _).trans (Nat.mod_eq_of_lt p.len.isLt)

theorem Parcel.header_chip : field (p.header ++ rest) 6 2 = p.chip.toNat :=
  (ofLe_leBytes 2 _).trans (Nat.mod_eq_of_lt p.chip.isLt)

theorem Parcel.header_seq : field (p.header ++ rest) 8 4 = p.seq.toNat :=
  (ofLe_leBytes 4 _).trans (Nat.mod_eq_of_lt p.seq.isLt)

theorem Parcel.header_spare : BitVec.ofNat 32 (field (p.header ++ rest) 5 1 + 256 * field (p.header ++ rest) 13 3) = p.spare := by
  have low : field (p.header ++ rest) 5 1 = p.spare.toNat % 256 := by
    show (p.spare.setWidth 8).toNat + 256 * 0 = _
    rw [BitVec.toNat_setWidth]
    rfl
  have high : field (p.header ++ rest) 13 3 = p.spare.toNat / 256 :=
    (ofLe_leBytes 3 _).trans (Nat.mod_eq_of_lt (by have := p.spare.isLt; omega))
  rw [low, high, Nat.mod_add_div, BitVec.ofNat_toNat, BitVec.setWidth_eq]

end

theorem length_beatSeqOf {p : Parcel} (whole : p.payload.length = p.len.toNat) : (beatSeqOf p).length = (16 + p.len.toNat + 31) / 32 := by
  simp [beatSeqOf, beatsOf, Parcel.length_header, whole]

/-- A beat carries its 32 bytes. -/
theorem leBytes_beat {d : Bytes} (full : d.length = 32) : leBytes 32 (BitVec.ofNat 256 (field d 0 32)).toNat = d := by
  have own : field d 0 32 = ofLe d := by rw [field, slice, List.drop_zero, List.take_of_length_le full.le]
  have small : ofLe d < 2 ^ 256 := by
    have := ofLe_lt d
    rwa [full] at this
  rw [own, BitVec.toNat_ofNat, Nat.mod_eq_of_lt small]
  have all := leBytes_ofLe d
  rwa [full] at all

/-- The bytes that the beats carry: header, payload and zero fill. -/
theorem beatSeqOf_bytes (p : Parcel) :
    (beatSeqOf p).flatMap (fun x => leBytes 32 x.data.toNat) = fit (32 * (((p.header ++ p.payload).length + 31) / 32)) (p.header ++ p.payload) := by
  rw [← flatMap_chunks, List.flatMap_def, List.flatMap_def]
  congr 1
  refine List.ext_getElem (by simp [beatSeqOf, beatsOf]) fun i _ _ => ?_
  simp only [beatSeqOf, beatsOf, List.getElem_map, List.getElem_mapIdx, List.getElem_range]
  exact leBytes_beat (by simp [fit])

/-- The beats of a parcel spell it (R17 to R19). -/
theorem parcelOfBeatSeq_beatSeqOf {p : Parcel} (whole : p.payload.length = p.len.toNat) : parcelOfBeatSeq (beatSeqOf p) = p := by
  have count := length_beatSeqOf whole
  have bytes : (beatSeqOf p).flatMap (fun x => leBytes 32 x.data.toNat)
      = p.header ++ (p.payload ++ List.replicate (32 * ((16 + p.len.toNat + 31) / 32) - (16 + p.len.toNat)) 0) := by
    have long : (p.header ++ p.payload).length = 16 + p.len.toNat := by rw [List.length_append, Parcel.length_header, whole]
    rw [beatSeqOf_bytes, fit_eq, long, List.take_of_length_le (by omega), List.append_assoc]
  have last : (match (beatSeqOf p).getLast? with | some x => x.sealWord | none => 0) = p.sealWord := by
    rw [List.getLast?_eq_getElem?, List.getElem?_eq_getElem (by omega)]
    have at_ : (beatSeqOf p).length - 1 + 1 = (beatsOf p).length := by
      rw [show (beatsOf p).length = (beatSeqOf p).length by simp [beatSeqOf]]
      omega
    simp only [beatSeqOf, List.getElem_mapIdx, List.length_mapIdx] at at_ ⊢
    rw [if_pos at_]
  have body : ((p.header ++ (p.payload ++ List.replicate (32 * ((16 + p.len.toNat + 31) / 32) - (16 + p.len.toNat)) 0)).drop 16).take p.len.toNat = p.payload := by
    rw [List.drop_append_of_le_length (by rw [Parcel.length_header]), List.drop_of_length_le (by rw [Parcel.length_header]), List.nil_append,
      ← whole, List.take_left]
  unfold parcelOfBeatSeq
  dsimp only
  rw [bytes, Parcel.header_len, Parcel.header_type, Parcel.header_chip, Parcel.header_seq, Parcel.header_spare, if_pos count, body]
  simp only [BitVec.ofNat_toNat, BitVec.setWidth_eq]
  cases p
  simp only [Parcel.mk.injEq, true_and]
  exact ⟨rfl, rfl, last, trivial⟩

/-! ### A bridge that takes them -/

/-- A bridge that has taken the first k beats of a parcel. -/
def Bridge.midway (p : Parcel) (k : Nat) : Bridge := { beat := ((beatSeqOf p).take k).getLast?, seq := (beatSeqOf p).take k }

/-- The kind of a beat (R17). -/
theorem beatSeqOf_kind {p : Parcel} {k : Nat} (h : k < (beatSeqOf p).length) :
    ((beatSeqOf p)[k]).kind = BitVec.ofNat 2 (beatKind k (beatSeqOf p).length) := by
  simp [beatSeqOf]

/-- A beat that is not the last joins its sequence. -/
theorem Bridge.take_midway {p : Parcel} {k : Nat} (short : (beatSeqOf p).length ≤ 129) (more : k + 1 < (beatSeqOf p).length) :
    Bridge.take { Bridge.midway p k with beat := some ((beatSeqOf p)[k]) } = Bridge.midway p (k + 1) := by
  have kind := beatSeqOf_kind (p := p) (k := k) (by omega)
  have joined : (beatSeqOf p).take (k + 1) = (beatSeqOf p).take k ++ [(beatSeqOf p)[k]] := by rw [List.take_succ_eq_append_getElem]
  have newest : ((beatSeqOf p).take (k + 1)).getLast? = some ((beatSeqOf p)[k]) := by rw [joined, List.getLast?_concat]
  unfold Bridge.take Bridge.midway
  dsimp only
  rw [kind, newest]
  by_cases first : k = 0
  · subst first
    rw [show beatKind 0 (beatSeqOf p).length = 1 by simp [beatKind, show (beatSeqOf p).length ≠ 1 by omega]]
    simp [joined]
  · rw [show beatKind k (beatSeqOf p).length = 0 by simp [beatKind, first, show (beatSeqOf p).length ≠ 1 by omega, show k + 1 ≠ (beatSeqOf p).length by omega]]
    have running : (((beatSeqOf p).take k).isEmpty || decide (129 ≤ ((beatSeqOf p).take k).length)) = false := by
      have size : ((beatSeqOf p).take k).length = k := by rw [List.length_take]; omega
      rw [size, List.isEmpty_eq_false_iff.2 (by intro e; rw [e] at size; exact first size.symm)]
      exact decide_eq_false (by omega)
    simp only [show (BitVec.ofNat 2 0).getLsbD 0 = false from rfl, show (BitVec.ofNat 2 0).getLsbD 1 = false from rfl, running, Bool.false_and,
      Bool.false_eq_true, if_false, joined]

/-- The last beat delivers the parcel. -/
theorem Bridge.take_last {p : Parcel} {k : Nat} (whole : p.payload.length = p.len.toNat) (short : (beatSeqOf p).length ≤ 129) (last : k + 1 = (beatSeqOf p).length) :
    Bridge.take { Bridge.midway p k with beat := some ((beatSeqOf p)[k]'(by omega)) } = { beat := (beatSeqOf p).getLast?, taken := some p } := by
  have kind := beatSeqOf_kind (p := p) (k := k) (by omega)
  have all : (beatSeqOf p).take k ++ [(beatSeqOf p)[k]'(by omega)] = beatSeqOf p := by
    rw [← List.take_succ_eq_append_getElem, last, List.take_length]
  have newest : (beatSeqOf p).getLast? = some ((beatSeqOf p)[k]'(by omega)) := by
    rw [List.getLast?_eq_getElem?, show (beatSeqOf p).length - 1 = k by omega]
    exact List.getElem?_eq_getElem _
  have full : (beatSeqOf p).isEmpty = false := List.isEmpty_eq_false_iff.2 fun e => by rw [e] at last; simp at last
  unfold Bridge.take Bridge.midway
  dsimp only
  rw [kind, newest]
  by_cases first : k = 0
  · subst first
    rw [show beatKind 0 (beatSeqOf p).length = 3 by simp [beatKind, ← last]]
    have one : [(beatSeqOf p)[0]'(by omega)] = beatSeqOf p := all
    simp only [show (BitVec.ofNat 2 3).getLsbD 0 = true from rfl, show (BitVec.ofNat 2 3).getLsbD 1 = true from rfl, if_true, one, full, Bool.not_false,
      Bool.and_self, parcelOfBeatSeq_beatSeqOf whole]
  · rw [show beatKind k (beatSeqOf p).length = 2 by simp [beatKind, first, ← last]]
    have running : (((beatSeqOf p).take k).isEmpty || decide (129 ≤ ((beatSeqOf p).take k).length)) = false := by
      have size : ((beatSeqOf p).take k).length = k := by rw [List.length_take]; omega
      rw [size, List.isEmpty_eq_false_iff.2 (by intro e; rw [e] at size; exact first size.symm)]
      exact decide_eq_false (by omega)
    simp only [show (BitVec.ofNat 2 2).getLsbD 0 = false from rfl, show (BitVec.ofNat 2 2).getLsbD 1 = true from rfl, running, Bool.false_eq_true, if_false,
      all, full, Bool.not_false, Bool.and_self, if_true, parcelOfBeatSeq_beatSeqOf whole]

/-- The beats of a parcel carry it across whole. -/
theorem Bridge.takes_parcel {p : Parcel} (whole : p.payload.length = p.len.toNat) (short : (beatSeqOf p).length ≤ 129) :
    (beatSeqOf p).foldl (fun (x : Bridge) d => Bridge.take { x with beat := some d }) ({} : Bridge) = { beat := (beatSeqOf p).getLast?, taken := some p } := by
  have some_ : 0 < (beatSeqOf p).length := by rw [length_beatSeqOf whole]; omega
  have part (k : Nat) (h : k < (beatSeqOf p).length) :
      ((beatSeqOf p).take k).foldl (fun (x : Bridge) d => Bridge.take { x with beat := some d }) ({} : Bridge) = Bridge.midway p k := by
    induction k with
    | zero => rfl
    | succ k ih =>
      rw [List.take_succ_eq_append_getElem (by omega), List.foldl_append, ih (by omega)]
      exact Bridge.take_midway short h
  obtain ⟨k, last⟩ : ∃ k, k + 1 = (beatSeqOf p).length := ⟨(beatSeqOf p).length - 1, by omega⟩
  calc (beatSeqOf p).foldl _ ({} : Bridge)
    _ = ((beatSeqOf p).take (k + 1)).foldl (fun (x : Bridge) d => Bridge.take { x with beat := some d }) ({} : Bridge) := by rw [last, List.take_length]
    _ = Bridge.take { Bridge.midway p k with beat := some ((beatSeqOf p)[k]'(by omega)) } := by
      rw [List.take_succ_eq_append_getElem (by omega), List.foldl_append, part k (by omega)]; rfl
    _ = _ := Bridge.take_last whole short last

end Sys2Proof.Machine
end

section
/-! PROOF. The bridges between the islands (O50; R16 to R22, R556, R566). -/

namespace Sys2Proof.Machine

/-- What an event adds to the host link does not depend on the fault registers but for the pair in control. -/
theorem Block.event_host_of_flt {b : Block} {f : Flt} (control : f.control = b.flt.control) (code : Nat) (source : BitVec 8) (body : Bytes) :
    (Block.event code source body { b with flt := f }).host = (b.event code source body).host := by
  have same : Block.control { b with flt := f } = b.control := by simp only [Block.control, control]
  simp only [Block.event, Block.emit, same]
  split
  · have sealed : Block.streamParcel 2 0x0E01 b.control (Block.eventBytes code source body { b with flt := f }) [] { b with flt := f }
        = b.streamParcel 2 0x0E01 b.control (b.eventBytes code source body) [] := rfl
    rw [sealed]
    generalize b.streamParcel 2 0x0E01 b.control (b.eventBytes code source body) [] = p
    have own : Block.control (Block.toStream 2 p { b with flt := f }) = Block.control (b.toStream 2 p) := same
    simp only [Block.trace, own]
    rfl
  · rfl

/-- A restart of an island other than the assembler's, the first in a second. -/
theorem Block.firstRestart {i : Nat} {b : Block} (cause unit : BitVec 8) (sound : b.flt.failed.getD i false = false) (quiet : b.flt.ticks.getD i [] = [])
    (apart : i ≠ 7) :
    b.islandRestart i cause unit false = Block.restartLoss i (Block.event 0x0013 unit (leBytes 1 i ++ [cause, 0, 0] ++ leBytes 4 1) { b with
      flt := { b.flt with
        ticks := b.flt.ticks.set i [b.now], asmTicks := recent b.now b.flt.asmTicks, restarts := b.flt.restarts.modify i bump
        restarting := b.flt.restarting.set i true } }) := by
  unfold Block.islandRestart
  rw [sound, quiet]
  simp [recent, apart]

/-- The fourth restart of an island in a second fails it (R566, R567). -/
theorem Block.fourthRestart {i : Nat} {b : Block} (cause unit : BitVec 8) {x y z : Tick} (sound : b.flt.failed.getD i false = false)
    (ticks : b.flt.ticks.getD i [] = [x, y, z]) (all : recent b.now [x, y, z] = [x, y, z]) :
    ∃ b1 : Block, b1.flt.failed = b.flt.failed.set i true ∧ b.islandRestart i cause unit false = (b1.restartLoss i).islandFailed i := by
  unfold Block.islandRestart
  rw [sound, ticks, all]
  refine ⟨_, ?_, rfl⟩
  rw [Block.event_parts]
  rfl

/-- A bridge that is dropped is idle and holds nothing. -/
theorem Block.onBridge_idle (n : Nat) (b : Block) :
    ((b.onBridge n fun x => { x with phase := .idle, beat := none }).flt.bridges.getD n {}).phase = .idle
      ∧ ((b.onBridge n fun x => { x with phase := .idle, beat := none }).flt.bridges.getD n {}).beat = none := by
  simp only [Block.onBridge]
  by_cases inside : n < b.flt.bridges.length
  · rw [getD_modify_same inside]
    exact ⟨rfl, rfl⟩
  · rw [List.modify_eq_self (by omega), List.getD_eq_getElem?_getD, List.getElem?_eq_none (by omega)]
    exact ⟨rfl, rfl⟩

/-- The phase that a signal of the handshake belongs to (R16). -/
def handshakeTurn : Handshake → CrossPhase
  | .request _ => .idle
  | .acknowledge => .requested
  | .dropRequest => .acknowledged
  | .dropAcknowledge => .released

/-- A signal out of its turn changes nothing. -/
theorem Block.bridgeBeat_out_of_turn {sender receiver : Island} {h : Handshake} {b : Block}
    (out : (b.flt.bridges.getD (bridgeNo sender receiver) {}).phase ≠ handshakeTurn h) : b.bridgeBeat sender receiver h = b := by
  unfold Block.bridgeBeat
  dsimp only
  generalize (b.flt.bridges.getD (bridgeNo sender receiver) {}).phase = phase at out ⊢
  split
  · rfl
  · cases h <;> cases phase <;> simp_all [handshakeTurn]

/-- What BRIDGE_WATCHDOG leaves of the bridge once the fault is blamed (R22, log entry 76). -/
def Block.stalled (n i : Nat) (now : Tick) (b : Block) : Block :=
  if b.flt.restarting.getD i false || (i = 7 && b.badger.asmHeld) then b.onBridge n fun x => { x with since := now }
  else b.onBridge n fun x => { x with phase := .idle, beat := none }

theorem Block.bridgeWatchdog_late {sender receiver : Island} {unit : Option (BitVec 8)} {b : Block}
    (asked : (b.flt.bridges.getD (bridgeNo sender receiver) {}).phase = .requested)
    (late : (b.flt.bridges.getD (bridgeNo sender receiver) {}).since + 25000 ≤ b.now)
    (free : b.flt.restarting.getD (islandNo receiver) false = false) (cool : b.tripStops (islandNo receiver) = false) :
    b.bridgeWatchdog sender receiver unit = Block.stalled (bridgeNo sender receiver) (islandNo receiver) b.now (b.bridgeFault (islandNo receiver)
      (unit.filter fun u => match fenceable u with | some k => fenceableIsland k == islandNo receiver && islandNo receiver != 1 | none => false) 9) := by
  have now : decide ((b.flt.bridges.getD (bridgeNo sender receiver) {}).since + us 100 ≤ b.now) = true := decide_eq_true late
  simp only [Block.bridgeWatchdog, asked, now, free, cool, beq_self_eq_true, Bool.not_false, Bool.and_self, if_true]
  rfl

/-- A fence leaves the islands that restart. -/
theorem Flt.without_restarting (f : Flt) (k : Fenceable) : (f.without k).restarting = f.restarting := by
  rcases k with _ | _ | _ | (_ | _) <;> rfl

/-- Settles O50: phase by phase of a crossing, and by what the watchdog's request names. -/
theorem bridges : Obligations.Bridges := by
  unfold Obligations.Bridges
  refine ⟨fun p whole short => ?_, fun s o i upO upI => ?_, fun s o i h down => ?_, fun s o i detects => ?_⟩
  · have few : (beatSeqOf p).length ≤ 129 := by rw [length_beatSeqOf whole]; omega
    exact ⟨few, parcelOfBeatSeq_beatSeqOf whole, Bridge.takes_parcel whole few⟩
  · intro n x
    have both : (!(s.islandUp (islandNo o) && s.islandUp (islandNo i))) = false := by rw [upO, upI]; rfl
    refine ⟨fun d idle => ?_, fun asked => ⟨fun free cool => ?_, fun busy => ?_⟩, fun acked => ?_, fun released => ?_, fun busy d => ?_,
      fun other => ⟨?_, fun u => ?_⟩, fun other => ?_, fun other => ?_, fun early u => ?_⟩
    · refine State.act_of_eq (f := Block.bridgeBeat o i (.request d)) ?_
      simp only [Block.bridgeBeat, both, Bool.false_eq_true, if_false]
      rw [show (s.flt.bridges.getD (bridgeNo o i) {}).phase = .idle from idle]
      rfl
    · refine State.act_of_eq (f := Block.bridgeBeat o i .acknowledge) ?_
      simp only [Block.bridgeBeat, both, Bool.false_eq_true, if_false]
      rw [show (s.flt.bridges.getD (bridgeNo o i) {}).phase = .requested from asked]
      simp only [free, cool, Bool.or_self, Bool.false_eq_true, if_false]
      rfl
    · refine State.act_of_eq (f := Block.bridgeBeat o i .acknowledge) ?_
      simp only [Block.bridgeBeat, both, Bool.false_eq_true, if_false]
      rw [show (s.flt.bridges.getD (bridgeNo o i) {}).phase = .requested from asked]
      simp only [busy, Bool.true_or, if_true]
    · refine State.act_of_eq (f := Block.bridgeBeat o i .dropRequest) ?_
      simp only [Block.bridgeBeat, both, Bool.false_eq_true, if_false]
      rw [show (s.flt.bridges.getD (bridgeNo o i) {}).phase = .acknowledged from acked]
      rfl
    · refine State.act_of_eq (f := Block.bridgeBeat o i .dropAcknowledge) ?_
      simp only [Block.bridgeBeat, both, Bool.false_eq_true, if_false]
      rw [show (s.flt.bridges.getD (bridgeNo o i) {}).phase = .released from released]
      rfl
    · exact State.act_of_eq (f := Block.bridgeBeat o i (.request d)) (Block.bridgeBeat_out_of_turn busy)
    · exact State.act_of_eq (f := Block.bridgeBeat o i .acknowledge) (Block.bridgeBeat_out_of_turn other)
    · refine State.act_of_eq (f := Block.bridgeWatchdog o i u) ?_
      have still : ((s.flt.bridges.getD (bridgeNo o i) {}).phase == .requested) = false := beq_eq_false_iff_ne.2 other
      simp only [Block.bridgeWatchdog, still, Bool.false_and, Bool.false_eq_true, if_false]
    · exact State.act_of_eq (f := Block.bridgeBeat o i .dropRequest) (Block.bridgeBeat_out_of_turn other)
    · exact State.act_of_eq (f := Block.bridgeBeat o i .dropAcknowledge) (Block.bridgeBeat_out_of_turn other)
    · refine State.act_of_eq (f := Block.bridgeWatchdog o i u) ?_
      have now : decide ((s.flt.bridges.getD (bridgeNo o i) {}).since + us 100 ≤ s.now) = false := decide_eq_false (Nat.not_le.2 early)
      simp only [Block.bridgeWatchdog, now, Bool.and_false, Bool.false_and, Bool.false_eq_true, if_false]
  · refine State.act_of_eq (f := Block.bridgeBeat o i h) ?_
    have closed : (!(s.islandUp (islandNo o) && s.islandUp (islandNo i))) = true := by rcases down with d | d <;> simp [d]
    unfold Block.bridgeBeat
    exact if_pos closed
  · intro n x
    refine ⟨fun which asked late free cool sound quiet restarting restarts => ?_, fun u k unitOf inIsland which live asked late free cool => ?_,
      fun a y z which asked late free sound ticks all size => ?_, fun sound => ?_, fun failed => ?_⟩
    · refine completes_of_act (f := Block.bridgeWatchdog o i none) rfl ?_
      have place : islandNo i ≠ 1 ∧ islandNo i ≠ 7 ∧ ∀ b : Block, b.restartLoss (islandNo i) = b := by
        rcases which with rfl | rfl | rfl <;> exact ⟨by decide, by decide, fun _ => rfl⟩
      obtain ⟨notBoot, notBadger, loses⟩ := place
      rw [Block.bridgeWatchdog_late asked late free (by rw [Block.tripStops, cool, Bool.false_and])]
      simp only [Option.filter_none, Block.bridgeFault, detects, notBoot, notBadger, Bool.not_true, Bool.false_eq_true, if_false]
      rw [Block.firstRestart _ _ sound quiet notBadger, loses]
      generalize e : ({ s.toBlock with flt := _ } : Block) = b1
      have parts : b1.flt.restarting.getD (islandNo i) false = true ∧ b1.flt.restarts.getD (islandNo i) 0 = bump (s.flt.restarts.getD (islandNo i) 0)
          ∧ b1.flt.bridges = s.flt.bridges ∧ b1 = { s.toBlock with flt := b1.flt } := by
        rw [← e]
        exact ⟨getD_set_same ((islandNo_lt i).trans_eq restarting.symm) _ _, getD_modify_same ((islandNo_lt i).trans_eq restarts.symm) _ _, rfl, rfl⟩
      have host : (b1.event 0x0013 noUnit (leBytes 1 (islandNo i) ++ [BitVec.ofNat 8 9, 0, 0] ++ leBytes 4 1)).host
          = (s.toBlock.event 0x0013 0xFF (leBytes 1 (islandNo i) ++ [9, 0, 0, 1, 0, 0, 0])).host := by
        rw [← e, List.append_assoc]
        refine Block.event_host_of_flt (b := s.toBlock) ?_ _ _ _
        rfl
      obtain ⟨runs, counted, same, rest⟩ := parts
      have told := b1.event_parts 0x0013 noUnit (leBytes 1 (islandNo i) ++ [BitVec.ofNat 8 9, 0, 0] ++ leBytes 4 1)
      generalize b1.event 0x0013 noUnit _ = b2 at *
      have going : b2.flt.restarting.getD (islandNo i) false = true := by rw [told]; exact runs
      rw [Block.stalled, going, Bool.true_or, if_pos rfl]
      refine ⟨going, ?_, ?_, host, ?_, ?_⟩
      · exact (by rw [told] : b2.flt.restarts.getD (islandNo i) 0 = b1.flt.restarts.getD (islandNo i) 0).trans counted
      · have was : b2.flt.bridges = s.flt.bridges := by rw [told]; exact same
        simp only [Block.onBridge, was]
        rfl
      · exact (by rw [told, rest] : b2.boot = s.boot)
      · rw [Block.onBridge, told, rest]
    · refine completes_of_act (f := Block.bridgeWatchdog o i (some u)) rfl ?_
      have place : islandNo i ≠ 1 ∧ islandNo i ≠ 7 := by rcases which with rfl | rfl <;> exact ⟨by decide, by decide⟩
      have single : ∀ p, k ≠ .pair p := by
        intro p e
        rw [e] at inIsland
        exact place.1 inIsland.symm
      have named : (some u).filter (fun u => match fenceable u with | some k => fenceableIsland k == islandNo i && islandNo i != 1 | none => false) = some u := by
        simp [Option.filter, unitOf, inIsland, place.1]
      rw [Block.bridgeWatchdog_late asked late free (by rw [Block.tripStops, cool, Bool.false_and]), named]
      simp only [Block.bridgeFault, detects, place.1, Bool.not_true, Bool.false_eq_true, if_false]
      rw [Block.blame_live detects unitOf live single]
      have fenced := s.toBlock.fenced_fence u (BitVec.ofNat 8 9) single
      have flt := s.toBlock.fence_flt u (BitVec.ofNat 8 9) single
      generalize s.toBlock.fence u (BitVec.ofNat 8 9) k = b1 at *
      have restarting : b1.flt.restarting = s.flt.restarting := by rw [flt]; exact Flt.without_restarting _ _
      have still : (b1.flt.restarting.getD (islandNo i) false || (islandNo i = 7 && b1.badger.asmHeld)) = false := by
        rw [restarting, free]; simp [place.2]
      rw [Block.stalled, still, if_neg Bool.false_ne_true]
      obtain ⟨idle, empty⟩ := Block.onBridge_idle n b1
      exact ⟨fenced.dead, idle, empty, fenced.others, restarting, fenced.boot⟩
    · refine completes_of_act (f := Block.bridgeWatchdog o i none) rfl ?_
      subst which
      rw [Block.bridgeWatchdog_late asked late free (by simp [Block.tripStops, islandNo])]
      obtain ⟨b1, failed, run⟩ := Block.fourthRestart (i := 5) (b := s.toBlock) (BitVec.ofNat 8 9) noUnit sound ticks all
      have fault : s.toBlock.bridgeFault 5 none 9 = b1.faultHalt 2 5 := by
        rw [Block.bridgeFault, detects]
        exact run
      rw [Option.filter_none, show islandNo .afu = 5 from rfl, fault]
      obtain ⟨phase, -, -, cause⟩ := Block.faultHalt_phase 2 5 b1
      have flt := Block.faultHalt_flt 2 5 b1
      have out : (b1.faultHalt 2 5).flt.failed.getD 5 false = true := by
        rw [flt]
        dsimp only
        rw [failed]
        exact getD_set_same (by omega) _ _
      have island : (b1.faultHalt 2 5).flt.haltIsland = 5 := by rw [flt]; rfl
      unfold Block.stalled
      split
      · exact ⟨phase, cause, island, out⟩
      · exact ⟨phase, cause, island, out⟩
    · refine State.act_of_eq (f := Block.restartDone i) ?_
      simp only [Block.restartDone, sound, detects, Bool.not_true, Bool.or_self, Bool.false_eq_true, if_false]
      rfl
    · exact State.act_of_eq (f := Block.restartDone i) (by simp only [Block.restartDone, failed, Bool.true_or, if_true])

end Sys2Proof.Machine
end

section
/-! PROOF. Trail lanes, widths and flits (O46, O47; R519 to R530). -/

namespace Sys2Proof.Machine

/-! ### Lanes -/

theorem lane_onLane_same {b : Block} {l : Nat} (inside : l < b.trail.lanes.length) (f : Lane → Lane) : (b.onLane l f).lane l = f (b.lane l) :=
  getD_modify_same inside _ _

theorem lane_onLane_other {l j : Nat} (apart : j ≠ l) (f : Lane → Lane) (b : Block) : (b.onLane l f).lane j = b.lane j :=
  getD_modify_other apart _ _ _

theorem bundle_onBundle_same {b : Block} {k : Nat} (inside : k < b.trail.bundles.length) (f : Bundle → Bundle) :
    (b.onBundle k f).bundle k = f (b.bundle k) :=
  getD_modify_same inside _ _

theorem bundle_onBundle_other {k j : Nat} (apart : j ≠ k) (f : Bundle → Bundle) (b : Block) : (b.onBundle k f).bundle j = b.bundle j :=
  getD_modify_other apart _ _ _

theorem fitWidth_le (n : Nat) : fitWidth n ≤ n := by
  unfold fitWidth
  split_ifs <;> omega

/-- A bundle that has lost a lane narrows at most, and a local one calls the roll again; the lanes stand (R523, R532). -/
theorem Block.laneGone_told (k : Nat) (b : Block) :
    (b.laneGone k).trail.lanes = b.trail.lanes
      ∧ (k < b.trail.bundles.length → ((b.laneGone k).bundle k).width.toNat ≤ (b.bundle k).width.toNat)
      ∧ (b.isUplink k = false → (b.laneGone k).trail.rolling = true ∧ (b.laneGone k).trail.rollDone = false)
      ∧ b.laneGone k = { b with trail := (b.laneGone k).trail } := by
  have width (inside : k < b.trail.bundles.length) : ((b.onBundle k fun x => { x with
      width := if fitWidth (b.liveLanes k).length < x.width.toNat then BitVec.ofNat 5 (fitWidth (b.liveLanes k).length) else x.width }).bundle k).width.toNat
        ≤ (b.bundle k).width.toNat := by
    rw [bundle_onBundle_same inside]
    dsimp only
    split
    · rw [BitVec.toNat_ofNat]
      exact (Nat.mod_le _ _).trans (Nat.le_of_lt ‹_›)
    · exact le_rfl
  unfold Block.laneGone
  dsimp only
  cases up : b.isUplink k with
  | true => exact ⟨rfl, width, fun no => absurd no (by decide), rfl⟩
  | false => exact ⟨rfl, width, fun _ => ⟨rfl, rfl⟩, rfl⟩

/-- Asking for a width notes the width asked for, and changes nothing else of the trails (R524, R525). -/
theorem Block.askWidth_told (k : Nat) (b : Block) :
    (b.askWidth k).trail = { b.trail with bundles := (b.askWidth k).trail.bundles }
      ∧ (b.askWidth k).bundle k = { b.bundle k with wantWidth := ((b.askWidth k).bundle k).wantWidth }
      ∧ b.askWidth k = { b with trail := (b.askWidth k).trail, host := { b.host with out := (b.askWidth k).host.out } } := by
  unfold Block.askWidth
  dsimp only
  split
  · exact ⟨rfl, rfl, rfl⟩
  · refine ⟨rfl, ?_, rfl⟩
    by_cases inside : k < b.trail.bundles.length
    · simp only [Block.bundle, Block.onBundle, Block.drive, getD_modify_same inside]
    · simp only [Block.bundle, Block.onBundle, Block.drive, List.modify_eq_self (show b.trail.bundles.length ≤ k by omega)]

/-- A lane that comes UP (R519, R523): its rate and its bundle's neighbour. -/
theorem Block.laneUp_told {l : Fin 18} {r : BitVec 3} {far : FarEnd} {b : Block} (on : b.lanesOn = true)
    (trains : (b.lane l).st = .training ∨ (b.lane l).st = .retraining) (fits : b.rateOk l r far = true)
    (within : b.laneBundle l < b.trail.bundles.length) :
    (b.laneUp l r far).trail.lanes = b.trail.lanes.modify l (fun x => { x with st := .up, rate := r, since := b.now, sentReq := false, leads := false })
      ∧ ((b.laneUp l r far).bundle (b.laneBundle l)).nbSerial = far.serial ∧ ((b.laneUp l r far).bundle (b.laneBundle l)).width ≠ 0
      ∧ (b.isUplink (b.laneBundle l) = false → (b.laneUp l r far).trail.rolling = true)
      ∧ b.laneUp l r far = { b with trail := (b.laneUp l r far).trail, host := { b.host with out := (b.laneUp l r far).host.out } } := by
  have starts : ((b.lane l).st == .training || (b.lane l).st == .retraining) = true := by rcases trains with e | e <;> rw [e] <;> rfl
  unfold Block.laneUp
  dsimp only
  rw [on, starts, fits, Bool.and_self, Bool.and_self, if_pos rfl]
  generalize e : (Block.onBundle (b.laneBundle l) _ _ : Block) = b2
  have joined : b2.trail.lanes = b.trail.lanes.modify l (fun x => { x with st := .up, rate := r, since := b.now, sentReq := false, leads := false })
      ∧ (b2.bundle (b.laneBundle l)).nbSerial = far.serial ∧ (b2.bundle (b.laneBundle l)).width ≠ 0 ∧ b2 = { b with trail := b2.trail } := by
    rw [← e]
    refine ⟨rfl, ?_, ?_, rfl⟩
    · exact congrArg Bundle.nbSerial (bundle_onBundle_same (b := b.onLane l _) within _)
    · rw [bundle_onBundle_same (b := b.onLane l _) within]
      dsimp only
      split
      · decide
      · assumption
  obtain ⟨lanes, serial, width, rest⟩ := joined
  obtain ⟨trail, own, all⟩ := b2.askWidth_told (b.laneBundle l)
  generalize b2.askWidth (b.laneBundle l) = b3 at *
  have lanes3 : b3.trail.lanes = b2.trail.lanes := by rw [trail]
  have serial3 : (b3.bundle (b.laneBundle l)).nbSerial = far.serial := by rw [own]; exact serial
  have width3 : (b3.bundle (b.laneBundle l)).width ≠ 0 := by rw [own]; exact width
  have all3 : b3 = { b with trail := b3.trail, host := { b.host with out := b3.host.out } } := by rw [all, rest]
  cases up : b.isUplink (b.laneBundle l) with
  | true => exact ⟨lanes3.trans lanes, serial3, width3, fun no => absurd no (by decide), all3⟩
  | false => exact ⟨lanes3.trans lanes, serial3, width3, fun _ => rfl, by rw [if_neg Bool.false_ne_true, all3]; rfl⟩

/-- A lane that is UP leaves it with a RETRAIN_REQ (R521, R522). -/
theorem Block.retrain_told {l : Nat} {b : Block} (up : (b.lane l).st = .up) (inside : l < b.trail.lanes.length) :
    (b.retrain l).lane l = { b.lane l with st := .retraining, since := b.now, sentReq := true, leads := true }
      ∧ (∀ j : Nat, j ≠ l → (b.retrain l).lane j = b.lane j) ∧ (b.retrain l).host.out = b.host.out ++ [.retrain l]
      ∧ (b.isUplink (b.laneBundle l) = false → (b.retrain l).trail.rolling = true ∧ (b.retrain l).trail.rollDone = false)
      ∧ (b.laneBundle l < b.trail.bundles.length → ((b.retrain l).bundle (b.laneBundle l)).width.toNat ≤ (b.bundle (b.laneBundle l)).width.toNat)
      ∧ b.retrain l = { b with trail := (b.retrain l).trail, host := { b.host with out := (b.retrain l).host.out } } := by
  have run : b.retrain l = Block.laneGone (b.laneBundle l)
      ((b.onLane l fun x => { x with st := .retraining, since := b.now, sentReq := true, leads := true }).drive (.retrain l)) := by
    rw [Block.retrain, up]; rfl
  obtain ⟨lanes, width, roll, rest⟩ := Block.laneGone_told (b.laneBundle l)
    ((b.onLane l fun x => { x with st := .retraining, since := b.now, sentReq := true, leads := true }).drive (.retrain l))
  rw [← run] at lanes width roll rest
  have at_ (j : Nat) : (b.retrain l).lane j = (b.onLane l fun x => { x with st := .retraining, since := b.now, sentReq := true, leads := true }).lane j := by
    rw [Block.lane, lanes]; rfl
  refine ⟨(at_ l).trans (lane_onLane_same inside _), fun j apart => (at_ j).trans (lane_onLane_other apart _ _), by rw [rest]; rfl, roll, width, ?_⟩
  rw [rest]
  rfl

/-- Settles O46: by the state that each event finds the lane in. -/
theorem trailLanes : Obligations.TrailLanes := by
  unfold Obligations.TrailLanes
  intro s l lanes bundles
  have inside : l.val < s.trail.lanes.length := by omega
  refine ⟨fun on bonded within off => ?_, fun other => ?_, fun on failed => ⟨fun due => ?_, fun early => ?_⟩, fun due => ⟨fun training => ?_, fun retraining => ?_⟩,
    fun early => ?_, fun up => ?_, fun n few => ?_, fun other => ?_, fun up => ?_, fun retraining sent => ?_, fun idle => ?_,
    fun r far on trains within => ⟨fun fits => ?_, fun misfit => ?_⟩⟩
  · refine State.act_of_eq (f := Block.trainAttempt l) ?_
    simp only [Block.trainAttempt, on, bonded, within, off, beq_self_eq_true, decide_true, Bool.and_self, if_true]
    rfl
  · refine State.act_of_eq (f := Block.trainAttempt l) ?_
    simp only [Block.trainAttempt, beq_eq_false_iff_ne.2 other, Bool.and_false, Bool.false_eq_true, if_false]
  · refine State.act_of_eq (f := Block.laneRetry l) ?_
    have now : decide ((s.lane l).since + ms 1000 ≤ s.now) = true := decide_eq_true due
    simp only [Block.laneRetry, on, failed, now, beq_self_eq_true, Bool.and_self, if_true]
    rfl
  · refine State.act_of_eq (f := Block.laneRetry l) ?_
    have now : decide ((s.lane l).since + ms 1000 ≤ s.now) = false := decide_eq_false (Nat.not_le.2 early)
    simp only [Block.laneRetry, now, Bool.and_false, Bool.false_eq_true, if_false]
  · refine State.act_of_eq (f := Block.trainTimeout l) ?_
    have now : decide ((s.lane l).since + ms 20 ≤ s.now) = true := decide_eq_true due
    simp only [Block.trainTimeout, training, now, beq_self_eq_true, Bool.true_or, Bool.and_self, if_true]
    rfl
  · refine completes_of_act (f := Block.trainTimeout l) rfl ?_
    have run : s.trainTimeout l = Block.laneGone (s.laneBundle l)
        (s.onLane l fun x => { x with st := .failed, since := s.now, trainFail := bump x.trainFail, sentReq := false, leads := false }) := by
      have now : decide ((s.lane l).since + ms 20 ≤ s.now) = true := decide_eq_true due
      simp only [Block.trainTimeout, retraining, now, beq_self_eq_true, Bool.or_true, Bool.and_self, if_true]
    obtain ⟨same, -, -, rest⟩ := Block.laneGone_told (s.laneBundle l)
      (s.onLane l fun x => { x with st := .failed, since := s.now, trainFail := bump x.trainFail, sentReq := false, leads := false })
    rw [← run] at same rest
    have own : (s.trainTimeout l).lane l = { s.lane l with st := .failed, since := s.now, trainFail := bump (s.lane l).trainFail, sentReq := false, leads := false } := by
      rw [Block.lane, same]; exact lane_onLane_same inside _
    refine ⟨by rw [own], by rw [own], fun j apart => ?_, ?_⟩
    · rw [Block.lane, same]; exact lane_onLane_other apart _ _
    · rw [rest]; rfl
  · refine State.act_of_eq (f := Block.trainTimeout l) ?_
    have now : decide ((s.lane l).since + ms 20 ≤ s.now) = false := decide_eq_false (Nat.not_le.2 early)
    simp only [Block.trainTimeout, now, Bool.and_false, Bool.false_eq_true, if_false]
  · intro retrains
    obtain ⟨own, others, out, roll, width, rest⟩ := Block.retrain_told up inside
    have told : retrains (s.retrain l) := ⟨by rw [own], by rw [own], others, out, roll, fun within => width (by omega), rest⟩
    refine ⟨fun n many => completes_of_act (f := Block.headerErrors l n) rfl ?_, fun package => completes_of_act (f := Block.lockLoss l) rfl ?_⟩
    · rw [Block.headerErrors, if_pos many]
      exact told
    · rw [Block.lockLoss, if_pos (by rw [package]; rfl)]
      exact told
  · exact State.act_of_eq (f := Block.headerErrors l n) (if_neg (by omega))
  · refine State.act_of_eq (f := Block.lockLoss l) ?_
    rw [Block.lockLoss, if_neg (by simpa using other)]
  · refine completes_of_act (f := Block.retrainReq l) rfl ?_
    have run : s.retrainReq l = Block.laneGone (s.laneBundle l)
        (s.onLane l fun x => { x with st := .retraining, since := s.now, sentReq := false, leads := false }) := by
      simp only [Block.retrainReq, up, beq_self_eq_true, if_true]
    obtain ⟨same, -, -, rest⟩ := Block.laneGone_told (s.laneBundle l)
      (s.onLane l fun x => { x with st := .retraining, since := s.now, sentReq := false, leads := false })
    rw [← run] at same rest
    have own : (s.retrainReq l).lane l = { s.lane l with st := .retraining, since := s.now, sentReq := false, leads := false } := by
      rw [Block.lane, same]; exact lane_onLane_same inside _
    refine ⟨by rw [own], by rw [own], by rw [own], fun j apart => ?_, ?_⟩
    · rw [Block.lane, same]; exact lane_onLane_other apart _ _
    · rw [rest]; rfl
  · refine State.act_of_eq (f := Block.retrainReq l) ?_
    simp only [Block.retrainReq, retraining, sent, beq_self_eq_true, Bool.and_self, if_true, show (LaneSt.retraining == LaneSt.up) = false from rfl,
      Bool.false_eq_true, if_false]
    rfl
  · refine State.act_of_eq (f := Block.retrainReq l) ?_
    rcases idle with e | e | e <;> simp [Block.retrainReq, e]
  · refine completes_of_act (f := Block.laneUp l r far) rfl ?_
    obtain ⟨same, serial, width, roll, rest⟩ := Block.laneUp_told on trains fits (by omega)
    have own : (s.laneUp l r far).lane l = { s.lane l with st := .up, rate := r, since := s.now, sentReq := false, leads := false } := by
      rw [Block.lane, same]; exact getD_modify_same inside _ _
    refine ⟨by rw [own], by rw [own], by rw [own], fun j apart => ?_, serial, width, roll, rest⟩
    rw [Block.lane, same]
    exact getD_modify_other apart _ _ _
  · refine State.act_of_eq (f := Block.laneUp l r far) ?_
    simp only [Block.laneUp, misfit, Bool.and_false, Bool.false_eq_true, if_false]

/-! ### Widths and flits -/

/-- What a live lane's place in its bundle says of it. -/
theorem mem_liveLanes {l k : Nat} {b : Block} (mem : l ∈ b.liveLanes k) : l < 18 ∧ (b.lane l).st = .up := by
  obtain ⟨of, up⟩ := List.mem_filter.1 mem
  obtain ⟨range, -⟩ := List.mem_filter.1 of
  exact ⟨List.mem_range.1 range, by simpa using up⟩

/-- Lanes that retrain one after the other: those that were UP retrain, the others stand. -/
theorem Block.retrains_told {ls : List Nat} {b : Block} (inside : ∀ l ∈ ls, l < b.trail.lanes.length) :
    (∀ l ∈ ls, (b.lane l).st = .up ∨ (b.lane l).st = .retraining → ((ls.foldl (fun b l => b.retrain l) b).lane l).st = .retraining)
      ∧ (∀ l : Nat, l ∉ ls → (ls.foldl (fun b l => b.retrain l) b).lane l = b.lane l)
      ∧ ls.foldl (fun b l => b.retrain l) b = { b with
          trail := (ls.foldl (fun b l => b.retrain l) b).trail, host := { b.host with out := (ls.foldl (fun b l => b.retrain l) b).host.out } } := by
  induction ls generalizing b with
  | nil => exact ⟨fun _ mem => absurd mem List.not_mem_nil, fun _ _ => rfl, rfl⟩
  | cons x xs ih =>
    have first : (∀ l : Nat, (b.lane l).st = .up ∧ l = x ∨ (b.lane l).st = .retraining → ((b.retrain x).lane l).st = .retraining)
        ∧ (∀ l : Nat, l ≠ x → (b.retrain x).lane l = b.lane l) ∧ (b.retrain x).trail.lanes.length = b.trail.lanes.length
        ∧ b.retrain x = { b with trail := (b.retrain x).trail, host := { b.host with out := (b.retrain x).host.out } } := by
      cases state : (b.lane x).st == .up with
      | true =>
        have up : (b.lane x).st = .up := by simpa using state
        have within := inside x List.mem_cons_self
        obtain ⟨own, others, -, -, -, rest⟩ := Block.retrain_told up within
        refine ⟨fun l goes => ?_, others, ?_, rest⟩
        · by_cases same : l = x
          · rw [same, own]
          · rw [others l same]
            exact goes.resolve_left fun h => same h.2
        · rw [Block.retrain, up, if_pos (by rfl), (Block.laneGone_told _ _).1]
          exact List.length_modify _ _ _
      | false =>
        have still : b.retrain x = b := by rw [Block.retrain, state, if_neg Bool.false_ne_true]
        rw [still]
        refine ⟨fun l goes => goes.resolve_left fun h => ?_, fun _ _ => rfl, rfl, rfl⟩
        rw [h.2, beq_eq_false_iff_ne] at *
        exact state h.1
    obtain ⟨goes, stays, size, rest⟩ := first
    obtain ⟨going, staying, resting⟩ := ih (b := b.retrain x) fun l mem => by rw [size]; exact inside l (List.mem_cons_of_mem _ mem)
    simp only [List.foldl_cons]
    refine ⟨fun l mem was => ?_, fun l out => ?_, by rw [resting, rest]⟩
    · have after : ((b.retrain x).lane l).st = .up ∨ ((b.retrain x).lane l).st = .retraining := by
        by_cases same : l = x
        · exact Or.inr (goes l (was.imp_left fun up => ⟨up, same⟩))
        · rw [stays l same]; exact was
      by_cases mem' : l ∈ xs
      · exact going l mem' after
      · rw [staying l mem']
        have same : l = x := (List.mem_cons.1 mem).resolve_right mem'
        exact goes l (was.imp_left fun up => ⟨up, same⟩)
    · obtain ⟨apart, out'⟩ := not_or.1 (mt List.mem_cons.2 out)
      rw [staying l out', stays l apart]

/-- Settles O47: by the flit's place in the sequence, the timers by their ticks, and the widths by the live lanes. -/
theorem flitsAndWidths : Obligations.FlitsAndWidths := by
  unfold Obligations.FlitsAndWidths
  intro s k bundles lanes
  have inside : k.val < s.trail.bundles.length := by omega
  have taken (f : BitVec 2048) (up : s.bundleUp k = true) (good : (crc32c ((flitBytes f).take 248)).toNat = field (flitBytes f) 248 4)
      (noAck : (field (flitBytes f) 2 2).testBit 12 = false) (noNak : (field (flitBytes f) 2 2).testBit 13 = false) :
      s.flitReceive k f = if BitVec.ofNat 12 (field (flitBytes f) 0 2) ≠ (s.bundle k).rxSeq
        then (if 2048 ≤ (BitVec.ofNat 12 (field (flitBytes f) 0 2) - (s.bundle k).rxSeq).toNat then s.sendAck k else s.sendNak k)
        else
          let b3 := s.onBundle k fun x => { x with
            rxSeq := x.rxSeq + 1, unacked := x.unacked + 1, gapNak := false, ackAt := if x.unacked = 0 then s.now else x.ackAt }
          let b4 := if 16 ≤ (b3.bundle k).unacked then b3.sendAck k else b3
          if 1 ≤ field (flitBytes f) 0 2 / 4096 && field (flitBytes f) 0 2 / 4096 ≤ 3 then b4.takeBeats k (flitBytes f) else b4 := by
    rw [Block.flitReceive, if_neg (by rw [up]; decide)]
    dsimp only
    rw [if_neg (fun h => h good), noAck, noNak]
    rfl
  refine ⟨fun w up some_ alone => ?_, fun w down => ?_, fun w asked => ?_, fun w other => ?_, fun f up => ⟨fun bad => ?_, fun good noAck noNak => ⟨fun next plain few => ?_, fun gap => ?_⟩⟩,
    fun f down => ?_, fun q up few => ?_, fun up some_ => ⟨fun due => ?_, fun early => ?_⟩, fun h hs held => ⟨fun late => ?_, fun early => ?_⟩, fun empty => ?_⟩
  · refine completes_of_act (f := Block.widthReqIn k w) rfl ?_
    have run : s.widthReqIn k w = (s.onBundle k fun x => { x with
        width := BitVec.ofNat 5 (min (fitWidth w.toNat) (fitWidth (s.liveLanes k).length)), wantWidth := none }).drive
          (.widthAck k (BitVec.ofNat 5 (min (fitWidth w.toNat) (fitWidth (s.liveLanes k).length)))) := by
      have runs : (!s.bundleUp k || decide (w = 0)) = false := by rw [up, decide_eq_false some_]; rfl
      simp only [Block.widthReqIn, runs, Bool.false_eq_true, if_false, alone]
    have own : (s.widthReqIn k w).bundle k = { s.bundle k with
        width := BitVec.ofNat 5 (min (fitWidth w.toNat) (fitWidth (s.liveLanes k).length)), wantWidth := none } := by
      rw [run]; exact bundle_onBundle_same inside _
    refine ⟨by rw [own], ?_, by rw [own, run]; rfl, fun j apart => by rw [run]; exact bundle_onBundle_other apart _ _, by rw [run]; rfl, by rw [run]; rfl⟩
    rw [own, BitVec.toNat_ofNat]
    exact (Nat.mod_le _ _).trans ((Nat.min_le_right _ _).trans (fitWidth_le _))
  · refine State.act_of_eq (f := Block.widthReqIn k w) ?_
    simp only [Block.widthReqIn, down, Bool.not_false, Bool.true_or, if_true]
  · refine State.act_of_eq (f := Block.widthAckIn k w) ?_
    rw [Block.widthAckIn, if_pos (by rw [asked]; exact beq_self_eq_true _)]
    rfl
  · refine State.act_of_eq (f := Block.widthAckIn k w) ?_
    rw [Block.widthAckIn, if_neg (by simpa using other)]
  · refine completes_of_act (f := Block.flitReceive k f) rfl ?_
    have run : s.flitReceive k f = Block.sendNak k (s.onBundle k fun x => { x with crcErr := bump x.crcErr }) := by
      simp only [Block.flitReceive, up, Bool.not_true, Bool.false_eq_true, if_false]
      exact if_pos bad
    have own : (s.onBundle k fun x => { x with crcErr := bump x.crcErr }).bundle k = { s.bundle k with crcErr := bump (s.bundle k).crcErr } :=
      bundle_onBundle_same inside _
    rw [run, Block.sendNak]
    dsimp only
    rw [own]
    cases gap : (s.bundle k).gapNak with
    | true =>
      refine ⟨own.trans ?_, rfl, fun j apart => bundle_onBundle_other apart _ _, rfl⟩
      rw [← gap]
    | false =>
      refine ⟨?_, rfl, fun j apart => ?_, rfl⟩
      · refine (bundle_onBundle_same (b := s.onBundle k _) (by simpa [Block.onBundle] using inside) _).trans ?_
        rw [own]
      · exact (bundle_onBundle_other apart _ (s.onBundle k _)).trans (bundle_onBundle_other apart _ _)
  · refine State.act_of_eq (f := Block.flitReceive k f) ?_
    rw [taken f up good noAck noNak, if_neg (by simpa using next)]
    have counted : ((s.onBundle k fun x => { x with
        rxSeq := x.rxSeq + 1, unacked := x.unacked + 1, gapNak := false, ackAt := if x.unacked = 0 then s.now else x.ackAt }).bundle k).unacked < 16 := by
      rw [bundle_onBundle_same inside]
      dsimp only
      omega
    dsimp only
    rw [if_neg (Nat.not_le.2 counted), plain]
    rfl
  · refine completes_of_act (f := Block.flitReceive k f) rfl ?_
    rw [taken f up good noAck noNak, if_pos gap]
    split
    · have own : (s.sendAck k).bundle k = { s.bundle k with unacked := 0 } := bundle_onBundle_same inside _
      exact ⟨by rw [own], by rw [own], rfl, rfl⟩
    · unfold Block.sendNak
      dsimp only
      split
      · exact ⟨rfl, rfl, rfl, rfl⟩
      · have own : ((s.onBundle k fun x => { x with gapNak := true }).drive (.ack k ((s.bundle k).rxSeq - 1) true)).bundle k
          = { s.bundle k with gapNak := true } := bundle_onBundle_same inside _
        exact ⟨by rw [own], by rw [own], rfl, rfl⟩
  · refine State.act_of_eq (f := Block.flitReceive k f) ?_
    simp only [Block.flitReceive, down, Bool.not_false, if_true]
  · refine completes_of_act (f := Block.nakReceive k q) rfl ?_
    have run : s.nakReceive k q = (ackedBy q (s.bundle k).replay).foldl (fun b h => b.drive (.flit k h.bytes)) (s.onBundle k fun x => { x with
        replay := ackedBy q x.replay, nakSeq := some q, nakRun := if (s.bundle k).nakSeq == some q then (s.bundle k).nakRun + 1 else 1
        replays := bump x.replays }) := by
      have short : ¬ 8 ≤ if (s.bundle k).nakSeq == some q then (s.bundle k).nakRun + 1 else 1 := by split <;> omega
      rw [Block.nakReceive, if_pos up]
      unfold Block.takeNak
      dsimp only
      rw [if_neg short, if_neg short, bundle_onBundle_same inside]
    rw [run, Block.drives_host (fun h : HeldFlit => .flit k h.bytes)]
    refine ⟨?_, ?_, rfl, rfl, fun j apart => bundle_onBundle_other apart _ _, rfl⟩
    · exact congrArg Bundle.replay (bundle_onBundle_same inside _)
    · exact congrArg Bundle.replays (bundle_onBundle_same inside _)
  · refine State.act_of_eq (f := Block.ackTimer k) ?_
    have now : decide ((s.bundle k).ackAt + us 1 ≤ s.now) = true := decide_eq_true due
    have waits : ((s.bundle k).unacked != 0) = true := by simpa using some_
    simp only [Block.ackTimer, up, waits, now, Bool.and_self, if_true]
    rfl
  · refine State.act_of_eq (f := Block.ackTimer k) ?_
    have now : decide ((s.bundle k).ackAt + us 1 ≤ s.now) = false := decide_eq_false (Nat.not_le.2 early)
    simp only [Block.ackTimer, now, Bool.and_false, Bool.false_eq_true, if_false]
  · refine completes_of_act (f := Block.flitTimeout k) rfl ?_
    have run : s.flitTimeout k = s.retrainBundle k := by
      simp only [Block.flitTimeout, held]
      exact if_pos late
    rw [run]
    obtain ⟨goes, stays, rest⟩ := Block.retrains_told (ls := s.liveLanes k) (b := s.toBlock) fun l mem => by have := (mem_liveLanes mem).1; omega
    exact ⟨fun l mem => goes l mem (Or.inl (mem_liveLanes mem).2), stays, rest⟩
  · refine State.act_of_eq (f := Block.flitTimeout k) ?_
    simp only [Block.flitTimeout, held]
    exact if_neg (Nat.not_le.2 early)
  · exact State.act_of_eq (f := Block.flitTimeout k) (by simp only [Block.flitTimeout, empty])

end Sys2Proof.Machine
end

section
/-! PROOF. Roll calls and reads between chips (O48; R532 to R543, R549 to R553). -/

namespace Sys2Proof.Machine

/-! ### Sending -/

/-- Sending parcels to other chips: what waits and is held on the bundles, what is delivered here, and the count of the unreachable. -/
structure Block.Sends (a b : Block) : Prop where
  rest : b = { a with trail := b.trail, host := b.host, flt := b.flt }
  trail : b.trail = { a.trail with
    bundles := b.trail.bundles, inbox := b.trail.inbox, unreach := b.trail.unreach, unreachSaid := b.trail.unreachSaid }

namespace Block.Sends

theorem refl (a : Block) : a.Sends a := ⟨rfl, rfl⟩

variable {a b c : Block}

theorem trans (ab : a.Sends b) (bc : b.Sends c) : a.Sends c where
  rest := by rw [bc.rest, ab.rest]
  trail := by rw [bc.trail, ab.trail]

theorem foldl {α : Type} {f : Block → α → Block} {l : List α} (h : a.Sends b) (step : ∀ b x, a.Sends b → a.Sends (f b x)) : a.Sends (l.foldl f b) := by
  induction l generalizing b with
  | nil => exact h
  | cons x l ih => exact ih (step b x h)

theorem event (h : a.Sends b) {code : Nat} {source : BitVec 8} {body : Bytes} : a.Sends (b.event code source body) :=
  h.trans ⟨by rw [Block.event_parts], by rw [Block.event_parts]⟩

theorem sendOn (h : a.Sends b) {k : Nat} {x : Sending} : a.Sends (b.sendOn k x) := by
  refine h.trans ?_
  unfold Block.sendOn
  dsimp only
  split <;> exact ⟨rfl, rfl⟩

theorem sendTo (h : a.Sends b) {x : Sending} : a.Sends (b.sendTo x) := by
  unfold Block.sendTo
  split
  · exact h.trans ⟨rfl, rfl⟩
  · split
    · exact h.sendOn
    · have counted := h.trans (c := { b with trail := { b.trail with unreach := bump b.trail.unreach, unreachSaid := x.dest :: b.trail.unreachSaid } }) ⟨rfl, rfl⟩
      unfold Block.unreachable
      dsimp only
      split
      · exact counted
      · exact counted.event

theorem control (h : a.Sends b) {type : Nat} {d : BitVec 12} {payload : Bytes} : a.Sends (b.control' type d payload) :=
  (h.trans (c := { b with host := b.host.flowStep b.control 0xFF }) ⟨rfl, rfl⟩).sendTo

theorem linkParcel (h : a.Sends b) {type k : Nat} {d : BitVec 12} {payload : Bytes} : a.Sends (b.linkParcel type k d payload) :=
  (h.trans (c := { b with host := b.host.flowStep trailUnit 0xFF }) ⟨rfl, rfl⟩).sendOn

theorem tellUplinks (h : a.Sends b) : a.Sends b.tellUplinks := h.foldl fun _ _ h => h.linkParcel

end Block.Sends

/-- A parcel that finds room in the replay buffer goes out at once (R527, R530). -/
theorem Block.sendOn_now {k : Nat} {x : Sending} {b : Block} (none : (b.bundle k).wait = []) (room : (b.bundle k).replay = []) (short : flitsOf x.p ≤ 512) :
    (b.sendOn k x).host.out = b.host.out ++ [.parcel k x.dest x.p] ∧ b.sendOn k x = { b with trail := (b.sendOn k x).trail, host := (b.sendOn k x).host } := by
  have run : b.sendOn k x = b.putFlits k x := by
    rw [Block.sendOn, none, room]
    simp [short]
  rw [run]
  exact ⟨rfl, rfl⟩

theorem sealParcel_payload (chip : BitVec 16) (type : BitVec 16) (stream : BitVec 8) (seq : BitVec 32) (unit : BitVec 8) (payload : Bytes) (ins : List InRef) :
    (sealParcel chip type stream seq unit payload ins).type = type ∧ (sealParcel chip type stream seq unit payload ins).payload = payload
      ∧ (sealParcel chip type stream seq unit payload ins).producer = unit := ⟨rfl, rfl, rfl⟩

/-- The chip's own roll call is done, and what its uplinks are told (R537, R538). -/
theorem Block.rollDone_sends (n : Nat) (b : Block) :
    ({ b with trail := { b.trail with rolling := false, rollDone := true } } : Block).Sends (b.rollDone n) :=
  (Sends.refl _).event.tellUplinks

/-- Without an uplink that is UP, none is told. -/
theorem Block.tellUplinks_none {b : Block} (none : ∀ k < 16, b.bundleUp k = true → b.isUplink k = false) : b.tellUplinks = b := by
  have empty : (List.range 16).filter (fun k => b.bundleUp k && b.isUplink k) = [] := by
    refine List.filter_eq_nil_iff.2 fun k mem => ?_
    cases up : b.bundleUp k with
    | false => simp
    | true => simp [none k (List.mem_range.1 mem) up]
  rw [Block.tellUplinks, empty]
  rfl

/-! ### The table of peers (R534, R540) -/

theorem putPeer_mem (p : Peer) (l : List Peer) : ∃ q ∈ putPeer p l, q.serial = p.serial := by
  unfold putPeer
  split
  · exact ⟨p, List.mem_append_right _ (List.mem_singleton.2 rfl), rfl⟩
  · rename_i q found
    have same : q.serial = p.serial := by simpa using List.find?_some found
    have mem := List.mem_of_find?_eq_some found
    split
    · exact ⟨q, mem, same⟩
    · exact ⟨p, List.mem_map.2 ⟨q, mem, by rw [same]; simp⟩, rfl⟩

theorem putPeer_keeps (p : Peer) {l : List Peer} {n : BitVec 64} (h : ∃ q ∈ l, q.serial = n) : ∃ q ∈ putPeer p l, q.serial = n := by
  obtain ⟨q, mem, serial⟩ := h
  unfold putPeer
  split
  · exact ⟨q, List.mem_append_left _ mem, serial⟩
  · split
    · exact ⟨q, mem, serial⟩
    · by_cases own : q.serial = p.serial
      · exact ⟨p, List.mem_map.2 ⟨q, mem, by simp [own]⟩, own ▸ serial⟩
      · exact ⟨q, List.mem_map.2 ⟨q, mem, by simp [own]⟩, serial⟩

theorem foldl_putPeer_keeps (far : List Peer) {l : List Peer} {n : BitVec 64} (h : ∃ q ∈ l, q.serial = n) :
    ∃ q ∈ far.foldl (fun l q => putPeer q l) l, q.serial = n := by
  induction far generalizing l with
  | nil => exact h
  | cons x far ih => exact ih (putPeer_keeps x h)

/-- A direct neighbour that is heard of is in the list, heard now. -/
theorem heard_mem (serial : BitVec 64) (chip : Option (BitVec 12)) (now : Tick) (l : List Neighbour) :
    ∃ n ∈ heard true serial chip now l, n.serial = serial ∧ n.heardAt = now := by
  unfold heard
  dsimp only
  split
  · rename_i any
    obtain ⟨n, mem, same⟩ := List.any_eq_true.1 any
    exact ⟨_, List.mem_map.2 ⟨n, mem, if_pos same⟩, by simpa using same, rfl⟩
  · exact ⟨_, List.mem_append_right _ (List.mem_singleton.2 rfl), rfl, rfl⟩

/-- Hearing of another keeps it there. -/
theorem heard_keeps (direct : Bool) (other : BitVec 64) (chip : Option (BitVec 12)) {now : Tick} {l : List Neighbour} {serial : BitVec 64}
    (h : ∃ n ∈ l, n.serial = serial ∧ n.heardAt = now) : ∃ n ∈ heard direct other chip now l, n.serial = serial ∧ n.heardAt = now := by
  obtain ⟨n, mem, own, at_⟩ := h
  unfold heard
  dsimp only
  split
  · refine ⟨_, List.mem_map.2 ⟨n, mem, rfl⟩, ?_⟩
    split
    · exact ⟨own, rfl⟩
    · exact ⟨own, at_⟩
  · split
    · exact ⟨n, List.mem_append_left _ mem, own, at_⟩
    · exact ⟨n, mem, own, at_⟩

theorem foldl_heard_keeps {α : Type} (f : α → BitVec 64 × Option (BitVec 12)) (rows : List α) {now : Tick} {l : List Neighbour} {serial : BitVec 64}
    (h : ∃ n ∈ l, n.serial = serial ∧ n.heardAt = now) :
    ∃ n ∈ rows.foldl (fun l r => heard false (f r).1 (f r).2 now l) l, n.serial = serial ∧ n.heardAt = now := by
  induction rows generalizing l with
  | nil => exact h
  | cons x rows ih => exact ih (heard_keeps false _ _ h)

theorem chipOf_isSome (n : Nat) : (chipOf n).isSome = true ↔ n ≠ 0xFFFF := by
  unfold chipOf
  split <;> simp_all

end Sys2Proof.Machine
end

section
/-! PROOF. Roll calls and reads between chips (O48). -/

namespace Sys2Proof.Machine

/-- Ranking is a strict total order of candidates (R534). -/
theorem ranksAbove_order (a b : Bool) (x y : BitVec 64) : ¬ranksAbove a x a x = true ∧ (ranksAbove a x b y = true → ranksAbove b y a x = false)
    ∧ (x ≠ y → ranksAbove a x b y = true ∨ ranksAbove b y a x = true) := by
  refine ⟨by simp [ranksAbove], fun above => ?_, fun apart => ?_⟩
  · cases a <;> cases b <;> simp_all [ranksAbove] <;> omega
  · have differ : x.toNat ≠ y.toNat := fun e => apart (BitVec.eq_of_toNat_eq e)
    cases a <;> cases b <;> simp [ranksAbove] <;> omega

/-- The ROLL_CALL payload of Table 15-4: 32 bytes, and 16 for each bundle. -/
theorem Block.length_rollPayload (b : Block) : b.rollPayload.length = 288 := by
  simp [Block.rollPayload, fit, List.length_flatMap]

/-- A control parcel of the trail controller on a bundle with room. -/
theorem Block.linkParcel_now {type k : Nat} {d : BitVec 12} {payload : Bytes} {b : Block} (none : (b.bundle k).wait = []) (room : (b.bundle k).replay = [])
    (short : payload.length ≤ 4096) :
    ∃ p : Parcel, (b.linkParcel type k d payload).host.out = b.host.out ++ [.parcel k d p] ∧ p.type = BitVec.ofNat 16 type ∧ p.payload = payload
      ∧ p.producer = trailUnit ∧ b.linkParcel type k d payload
        = { b with trail := (b.linkParcel type k d payload).trail, host := (b.linkParcel type k d payload).host } := by
  obtain ⟨out, rest⟩ := Block.sendOn_now (k := k) (b := { b with host := b.host.flowStep trailUnit 0xFF })
    (x := { dest := d, src := b.trail.chip, p := b.flowParcel 0xFF type trailUnit payload [] }) none room
    (by simp only [flitsOf, show (b.flowParcel 0xFF type trailUnit payload []).payload = payload from rfl]; omega)
  exact ⟨_, out, rfl, rfl, rfl, rest⟩

/-- A verified parcel of the trail controller leaves the receive buffer (R539). -/
theorem Block.verify_received {p : Parcel} (passes : sealFault p = none) (unit : BitVec 8) (b : Block) :
    (b.received p).verify p .intact unit = (some p, b.received p) := Block.verify_intact passes _ _

theorem pair_ite {α β : Type} (c : Bool) (x y : α) (u v : β) : ((if c then x else y), (if c then u else v)) = if c then (x, u) else (y, v) := by
  cases c <;> rfl

/-- A chip that hears of no other becomes the master of a domain of one (R536, R537). -/
theorem Block.becomeMaster_alone {b : Block} (alone : b.trail.peers = []) :
    ∃ numbers, b.becomeMaster = Block.rollDone 1 { b with trail := { b.trail with
      master := true, assigned := true, chip := BitVec.ofNat 12 b.chipBase, masterSerial := b.boot.otp.serial, numbers := numbers, peers := [] } } := by
  have plan : b.numbering = [] := by
    unfold Block.numbering
    rw [alone]
    rfl
  unfold Block.becomeMaster
  rw [plan, alone]
  exact ⟨_, rfl⟩

/-- Settles O48: by the call's phase, the neighbour's tick, and the region that a read names. -/
theorem rollCallsAndReads : Obligations.RollCallsAndReads := by
  unfold Obligations.RollCallsAndReads
  refine ⟨fun s bundles => ⟨fun on rolling => ⟨fun k due local_ none room => ?_, fun u sent early => ?_, fun due => ⟨fun own alone => ?_, fun other plain => ?_⟩, fun early => ?_,
      fun k p up local_ passes type => ?_⟩, fun k p on up uplink passes type => ?_, ranksAbove_order, fun p on passes type => ⟨fun mine => ?_, fun other => ?_⟩,
      fun n q ready found gone => ⟨fun late => ?_, fun early => ?_⟩, fun n none => ?_⟩,
    fun s bundles => ⟨fun a p k passes type on assigned apart route within none room => ?_, fun tag p passes => ?_, fun tag none => ?_,
      fun tag r found => ⟨fun again => ?_, fun first => ?_⟩⟩⟩
  · refine completes_of_act (f := Block.rollSend) rfl ?_
    have run : s.rollSend = Block.linkParcel 0x0901 k (s.bundle k).nbChip s.rollPayload { s.toBlock with trail := { s.trail with rollSent := some s.now } } := by
      unfold Block.rollSend
      dsimp only
      rw [on, rolling, Bool.and_self, Bool.true_and, local_]
      refine if_pos ?_
      split
      · exact decide_eq_true (due _ ‹_›)
      · rfl
    have sends : Block.Sends { s.toBlock with trail := { s.trail with rollSent := some s.now } } s.rollSend := by
      rw [run]; exact (Block.Sends.refl _).linkParcel
    obtain ⟨p, out, type, payload, producer, rest⟩ := Block.linkParcel_now (type := 0x0901) (d := (s.bundle k).nbChip) (payload := s.rollPayload)
      (b := { s.toBlock with trail := { s.trail with rollSent := some s.now } }) none room (by rw [Block.length_rollPayload]; omega)
    rw [← run] at out rest
    exact ⟨⟨p, out, type, payload, producer⟩, by rw [sends.trail], rest⟩
  · refine State.act_of_eq (f := Block.rollSend) ?_
    have now : decide (u + us 100 ≤ s.now) = false := decide_eq_false (Nat.not_le.2 early)
    simp only [Block.rollSend, sent, now, Bool.and_false, Bool.false_eq_true, if_false]
  · refine completes_of_act (f := Block.rollSettle) rfl ?_
    have run : s.rollSettle = Block.becomeMaster { s.toBlock with trail := { s.trail with settled := true } } := by
      have now : decide (s.trail.changedAt + ms 2 ≤ s.now) = true := decide_eq_true due
      simp only [Block.rollSettle, on, rolling, now, own, alone, List.any_nil, List.all_nil, beq_self_eq_true, Bool.and_self, Bool.and_false,
        Bool.false_eq_true, if_true, if_false]
    obtain ⟨numbers, master⟩ := Block.becomeMaster_alone (b := { s.toBlock with trail := { s.trail with settled := true } }) alone
    rw [run, master]
    generalize e : ({ s.toBlock with trail := _ } : Block) = b1
    have sends := b1.rollDone_sends 1
    have all : b1.rollDone 1 = { s.toBlock with trail := (b1.rollDone 1).trail, host := (b1.rollDone 1).host, flt := (b1.rollDone 1).flt } := by
      rw [sends.rest, ← e]
    refine ⟨?_, ?_, ?_, ?_, ?_, ?_, fun locals => ?_, all⟩
    · rw [sends.trail, ← e]
    · rw [sends.trail, ← e]
    · rw [sends.trail, ← e]
      rfl
    · rw [sends.trail, ← e]
    · rw [sends.trail]
    · rw [sends.trail]
    · have quiet : b1.rollDone 1 = Block.event 0x0042 noUnit
          (leBytes 2 (chipField b1.trail.assigned b1.trail.chip) ++ leBytes 1 1 ++ List.replicate 5 0 ++ leBytes 8 b1.trail.masterSerial.toNat)
          { b1 with trail := { b1.trail with rolling := false, rollDone := true } } := by
        refine Block.tellUplinks_none fun k small up => ?_
        rw [Block.event_parts, ← e] at up ⊢
        exact locals k small up
      have trail : (b1.rollDone 1).trail = { b1.trail with rolling := false, rollDone := true } := by rw [quiet, Block.event_parts]
      have body : leBytes 2 (chipField b1.trail.assigned b1.trail.chip) ++ leBytes 1 1 ++ List.replicate 5 0 ++ leBytes 8 b1.trail.masterSerial.toNat
          = leBytes 2 (BitVec.ofNat 12 s.chipBase).toNat ++ [1, 0, 0, 0, 0, 0] ++ leBytes 8 s.boot.otp.serial.toNat := by
        rw [← e, List.append_assoc (leBytes 2 _)]
        rfl
      rw [trail, quiet, body]
      exact Block.event_tells (by rw [← e])
  · refine State.act_of_eq (f := Block.rollSettle) ?_
    have now : decide (s.trail.changedAt + ms 2 ≤ s.now) = true := decide_eq_true due
    have apart : (s.trail.candSerial == s.boot.otp.serial) = false := beq_eq_false_iff_ne.2 other
    simp only [Block.rollSettle, on, rolling, now, plain, apart, Bool.and_self, Bool.false_and, Bool.false_eq_true, if_true, if_false]
  · refine State.act_of_eq (f := Block.rollSettle) ?_
    have now : decide (s.trail.changedAt + ms 2 ≤ s.now) = false := decide_eq_false (Nat.not_le.2 early)
    simp only [Block.rollSettle, now, Bool.and_false, Bool.false_eq_true, if_false]
  · refine completes_of_act (f := Block.rollReceive k p) rfl ?_
    have own (f : Bundle → Bundle) : (s.onBundle k f).bundle k = f (s.bundle k) := bundle_onBundle_same (by omega) _
    unfold Block.rollReceive
    dsimp only
    rw [Block.verify_received passes]
    dsimp only
    have hears : (p.type != 0x0901 || !(s.received p).lanesOn || !(s.received p).bundleUp k) = false := by
      rw [type, show (s.received p).lanesOn = true from on, show (s.received p).bundleUp k = true from up]; rfl
    rw [hears, if_neg Bool.false_ne_true, show (s.received p).isUplink k = false from local_, if_neg Bool.false_ne_true,
      show (s.received p).trail.rolling = true from rolling, if_pos rfl]
    refine ⟨congrArg Bundle.nbSerial (own _), ?_, ?_, ?_, ?_, fun j apart => bundle_onBundle_other apart _ _, rfl⟩
    · rw [← chipOf_isSome]
      exact iff_of_eq (congrArg (· = true) (congrArg Bundle.nbValid (own _)))
    · exact foldl_putPeer_keeps _ (putPeer_mem _ _)
    · exact pair_ite _ _ _ _ _
    · exact foldl_heard_keeps (fun r => (BitVec.ofNat 64 (field r 0 8), chipOf (field r 8 2))) _ (heard_mem _ _ _ _)
  · refine State.act_of_eq (f := Block.rollReceive k p) ?_
    unfold Block.rollReceive
    dsimp only
    rw [Block.verify_received passes]
    dsimp only
    have hears : (p.type != 0x0901 || !(s.received p).lanesOn || !(s.received p).bundleUp k) = false := by
      rw [type, show (s.received p).lanesOn = true from on, show (s.received p).bundleUp k = true from up]; rfl
    rw [hears, if_neg Bool.false_ne_true, show (s.received p).isUplink k = true from uplink, if_pos rfl]
    rfl
  · refine completes_of_act (f := Block.assignIn p) rfl ?_
    unfold Block.assignIn
    rw [Block.verify_received passes]
    dsimp only
    have hears : (p.type != 0x0902 || !(s.received p).lanesOn || field p.payload 0 8 != s.boot.otp.serial.toNat) = false := by
      rw [type, show (s.received p).lanesOn = true from on, mine]; simp
    rw [hears, if_neg Bool.false_ne_true]
    generalize e : ({ s.received p with trail := _ } : Block) = b2
    obtain ⟨rest, trail⟩ := b2.rollDone_sends (1 + ((s.received p).trail.peers.filter fun q => q.chip.isSome).length)
    generalize b2.rollDone _ = t at *
    have all : t = { s.toBlock with trail := t.trail, host := t.host, flt := t.flt } := by rw [rest, ← e]; rfl
    refine ⟨?_, ?_, ?_, ?_, ?_, ?_, all⟩ <;> rw [trail, ← e]
  · refine State.act_of_eq (f := Block.assignIn p) ?_
    unfold Block.assignIn
    rw [Block.verify_received passes]
    dsimp only
    have apart : (field p.payload 0 8 != s.boot.otp.serial.toNat) = true := bne_iff_ne.2 other
    rw [apart, Bool.or_true, if_pos rfl]
    rfl
  · refine completes_of_act (f := Block.chipLost n) rfl ?_
    have now : decide (q.heardAt + ms 10 ≤ s.now) = true := decide_eq_true late
    have silent : (s.upLocal.any fun k => (s.bundle k).nbSerial == n) = false := by
      rw [List.any_eq_false]
      exact fun k mem => by simpa using gone k mem
    have runs : (s.ready && !(s.upLocal.any fun k => (s.bundle k).nbSerial == n) && decide (q.heardAt + ms 10 ≤ s.now)) = true := by
      rw [silent, now, Block.ready, ready]; rfl
    simp only [Block.chipLost, found]
    rw [if_pos runs]
    generalize e : ({ s.toBlock with trail := _ } : Block) = b1
    have told := b1.event_parts 0x0044 noUnit (leBytes 2 (chipField q.chip.isSome (q.chip.getD 0)) ++ List.replicate 6 0 ++ leBytes 8 n.toNat)
    have trail : (b1.event 0x0044 noUnit (leBytes 2 (chipField q.chip.isSome (q.chip.getD 0)) ++ List.replicate 6 0 ++ leBytes 8 n.toNat)).trail = b1.trail := by
      rw [told]
    refine ⟨by rw [trail, ← e], Block.event_tells (by rw [trail, ← e]), by rw [told, ← e]⟩
  · refine State.act_of_eq (f := Block.chipLost n) ?_
    have now : decide (q.heardAt + ms 10 ≤ s.now) = false := decide_eq_false (Nat.not_le.2 early)
    simp only [Block.chipLost, found, now, Bool.and_false, Bool.false_eq_true, if_false]
  · exact State.act_of_eq (f := Block.chipLost n) (by simp only [Block.chipLost, none])
  · intro x
    have asks : (p.type != 0x0905 || !(s.received p).lanesOn || !(s.received p).trail.assigned) = false := by
      rw [type, show (s.received p).lanesOn = true from on, show (s.received p).trail.assigned = true from assigned]; rfl
    have leaves (h : HostLink) (y : Sending) (dest : y.dest = a) (src : y.src = s.trail.chip) :
        Block.sendTo y { s.received p with host := h } = Block.sendOn k y { s.received p with host := h } := by
      have same : Block.routeTo { s.received p with host := h } y.src y.dest = s.routeTo s.trail.chip a := by rw [src, dest]; rfl
      unfold Block.sendTo
      rw [same, route, if_neg]
      simp only [dest, Bool.and_eq_true, decide_eq_true_eq, not_and]
      exact fun e => absurd e apart
    have now (h : HostLink) (out : h.out = s.host.out) (y : Sending) (dest : y.dest = a) (src : y.src = s.trail.chip) (short : y.p.payload.length ≤ 8192) :
        (Block.sendTo y { s.received p with host := h }).host.out = s.host.out ++ [.parcel k a y.p]
          ∧ Block.sendTo y { s.received p with host := h } = { s.toBlock with
              trail := (Block.sendTo y { s.received p with host := h }).trail, host := (Block.sendTo y { s.received p with host := h }).host } := by
      rw [leaves h y dest src]
      obtain ⟨sent, rest⟩ := Block.sendOn_now (k := k) (x := y) (b := { s.received p with host := h }) none room (by simp only [flitsOf]; omega)
      refine ⟨?_, rest⟩
      rw [sent, dest]
      exact congrArg (· ++ _) out
    refine ⟨fun open_ => ?_, fun r region prot aligned => ?_⟩
    · refine completes_of_act (f := Block.readReqIn a p) rfl ?_
      have small : memField s.den.mem (x + 2) 2 ≤ 4096 := by
        unfold Block.readRefusal at open_
        dsimp only at open_
        split at open_
        · cases open_
        · split_ifs at open_ with _ _ _ long _
          exact Nat.not_lt.1 long
      have run : s.readReqIn a p = Block.sendTo {
          dest := a, src := s.trail.chip, kind := 3, tag := BitVec.ofNat 32 (field p.payload 8 4),
          p := parcelOf (memBytes s.den.mem x (storedSize (memField s.den.mem (x + 2) 2))) } { s.received p with host := s.host } := by
        unfold Block.readReqIn
        rw [Block.verify_received passes]
        dsimp only
        rw [asks, if_neg Bool.false_ne_true, show (s.received p).readRefusal (field p.payload 0 8) = Option.none from open_]
        rfl
      rw [run]
      exact now s.host rfl _ rfl rfl (by
        simp only [parcelOf, slice, List.length_take, List.length_drop, memBytes, List.length_map, List.length_range, storedSize]
        omega)
    · refine completes_of_act (f := Block.readReqIn a p) rfl ?_
      have refused : (s.received p).readRefusal (field p.payload 0 8) = some 1 := by
        show s.readRefusal (field p.payload 0 8) = some 1
        unfold Block.readRefusal
        dsimp only
        rw [show s.region (field p.payload 0 8 % 2 ^ 40) = some r from region]
        dsimp only
        rw [if_neg (fun h => h aligned), if_pos prot]
      have run : s.readReqIn a p = Block.sendTo {
          dest := a, src := s.trail.chip, kind := 3,
          tag := BitVec.ofNat 32 (field (leBytes 8 (field p.payload 0 8) ++ slice p.payload 8 4 ++ leBytes 1 1 ++ [0, 0, 0]) 8 4),
          p := s.flowParcel 0xFF 0x0907 s.control (leBytes 8 (field p.payload 0 8) ++ slice p.payload 8 4 ++ leBytes 1 1 ++ [0, 0, 0]) [] }
            { s.received p with host := s.host.flowStep s.control 0xFF } := by
        unfold Block.readReqIn
        rw [Block.verify_received passes]
        dsimp only
        rw [asks, if_neg Bool.false_ne_true, refused]
        rfl
      rw [run]
      obtain ⟨out, rest⟩ := now (s.host.flowStep s.control 0xFF) rfl {
          dest := a, src := s.trail.chip, kind := 3,
          tag := BitVec.ofNat 32 (field (leBytes 8 (field p.payload 0 8) ++ slice p.payload 8 4 ++ leBytes 1 1 ++ [0, 0, 0]) 8 4),
          p := s.flowParcel 0xFF 0x0907 s.control (leBytes 8 (field p.payload 0 8) ++ slice p.payload 8 4 ++ leBytes 1 1 ++ [0, 0, 0]) [] } rfl rfl (by
          show (leBytes 8 (field p.payload 0 8) ++ slice p.payload 8 4 ++ leBytes 1 1 ++ [0, 0, 0]).length ≤ 8192
          simp only [slice, List.length_append, length_leBytes, List.length_take, List.length_cons, List.length_nil]
          omega)
      refine ⟨⟨_, out, rfl, ?_⟩, rest⟩
      show leBytes 8 (field p.payload 0 8) ++ slice p.payload 8 4 ++ leBytes 1 1 ++ [0, 0, 0] = _
      rw [List.append_assoc _ (leBytes 1 1)]
      rfl
  · refine State.act_of_eq (f := Block.readRespIn tag p) ?_
    unfold Block.readRespIn
    dsimp only
    rw [Block.verify_intact passes]
    rfl
  · refine State.act_of_eq (f := Block.readTimeout tag) ?_
    rw [Block.readTimeout, show s.trail.reads.find? (fun r => r.tag == tag && decide (r.at_ + ms 1 ≤ s.now)) = Option.none from none]
  · refine State.act_of_eq (f := Block.readTimeout tag) ?_
    rw [Block.readTimeout, show s.trail.reads.find? (fun r => r.tag == tag && decide (r.at_ + ms 1 ≤ s.now)) = some r from found]
    exact if_pos again
  · refine completes_of_act (f := Block.readTimeout tag) rfl ?_
    have run : s.readTimeout tag = Block.sendRead r { s.toBlock with trail := { s.trail with
        reads := s.trail.reads.filter (fun x => x.tag != tag) ++ [{ r with at_ := s.now, again := true }] } } := by
      rw [Block.readTimeout, show s.trail.reads.find? (fun r => r.tag == tag && decide (r.at_ + ms 1 ≤ s.now)) = some r from found]
      exact if_neg (by rw [first]; decide)
    obtain ⟨rest, trail⟩ : Block.Sends { s.toBlock with trail := { s.trail with
        reads := s.trail.reads.filter (fun x => x.tag != tag) ++ [{ r with at_ := s.now, again := true }] } } (s.readTimeout tag) := by
      rw [run]; exact (Block.Sends.refl _).control
    exact ⟨by rw [trail], by rw [rest]⟩

end Sys2Proof.Machine
end

section
/-! PROOF. Merge jobs between a member and its collector (O49; R544 to R548, R554). -/

namespace Sys2Proof.Machine

/-- A verified control parcel of its TYPE gives its payload, and leaves the receive buffer (R539, R549). -/
theorem Block.controlIn_taken {type : BitVec 16} {p : Parcel} {b : Block} (passes : sealFault p = none) (is : p.type = type) (ready : b.boot.phase = .ready)
    (assigned : b.trail.assigned = true) : b.controlIn type p = (some p.payload, b.received p) := by
  have runs : (p.type == type && (b.received p).ready && (b.received p).trail.assigned) = true := by
    rw [is, show (b.received p).trail.assigned = true from assigned, Block.ready, show (b.received p).boot.phase = .ready from ready]
    simp
  unfold Block.controlIn
  rw [Block.verify_received passes]
  dsimp only
  rw [runs, if_pos rfl]

theorem Block.pumpFrags_none {b : Block} (empty : b.trail.toSend = []) : b.pumpFrags = b := by
  unfold Block.pumpFrags
  split
  · rfl
  · rw [empty]
    simp only [List.take_nil, List.drop_nil, List.append_nil, List.foldl_nil]
    rw [← empty]

/-- A JOIN that is sent (R544). -/
theorem Block.sendJoin_told {b : Block} (member : b.isMember = true) (assigned : b.trail.assigned = true) (on : b.lanesOn = true) :
    b.sendJoin.trail.joined = none ∧ b.sendJoin.trail.joinWait = false ∧ b.sendJoin.trail.joinSent = true ∧ b.sendJoin.trail.nextFrag = 1
      ∧ b.sendJoin.trail.toSend = [] ∧ b.sendJoin = { b with trail := b.sendJoin.trail, host := b.sendJoin.host, flt := b.sendJoin.flt } := by
  have rest : b.sendJoin = { b with trail := b.sendJoin.trail, host := b.sendJoin.host, flt := b.sendJoin.flt } := Block.eq_of_fields (by simp)
  refine ⟨?_, ?_, ?_, ?_, ?_, rest⟩ <;> simp only [Block.sendJoin, member, assigned, on, Bool.and_self, if_true]

/-- Settles O49: by the role of the chip in the merge job and the state of its stay. -/
theorem mergeJobs : Obligations.MergeJobs := by
  unfold Obligations.MergeJobs
  intro s p passes ready assigned size d took
  have isReady : s.ready = true := by simp [Block.ready, ready]
  have got (type : BitVec 16) (is : p.type = type) : s.controlIn type p = (some p.payload, took) := Block.controlIn_taken passes is ready assigned
  refine ⟨fun g type collector tag present on free fresh => ?_, fun type other => ?_, fun type mine sent => ⟨fun ok kfs points edges => ?_, fun no => ?_⟩,
    fun waits member on => ⟨fun due => ?_, fun early => ?_⟩, fun type mine joined ok idle => ?_, fun joined held => ⟨fun late => ?_, fun early => ?_⟩,
    fun type off => ?_, fun type on fits => ?_, fun type slot accepts gen gid => ?_, fun type => ⟨fun other => ?_, fun own known => ?_⟩⟩
  · refine completes_of_act (f := Block.joinIn p) rfl ?_
    have picks : (if took.den.dramAbsent || !took.guestsOn || (took.guestHolding (memberGid (BitVec.ofNat 12 (field p.payload 4 2)).toNat)).isSome then none
        else took.freeGuest) = some g := by
      rw [show took.den.dramAbsent = false from present, show took.guestsOn = true from on,
        show took.guestHolding (memberGid (BitVec.ofNat 12 (field p.payload 4 2)).toNat) = none from fresh]
      exact free
    have inside : g < s.guests.length := by
      have := List.mem_range.1 (List.mem_of_find?_eq_some (show (List.range (min 64 s.maxSlots)).find? _ = some g from free))
      omega
    unfold Block.joinIn
    rw [got _ type]
    dsimp only
    rw [if_neg (by rw [show took.isCollector = true from collector, show took.jobTag = field p.payload 0 4 from tag.symm]; simp), picks]
    dsimp only
    generalize e : Block.assignGuest g _ _ took = b2
    have sends := (Block.Sends.refl b2).control (type := 0x0904) (d := BitVec.ofNat 12 (field p.payload 4 2))
      (payload := leBytes 4 b2.jobTag ++ leBytes 2 (BitVec.ofNat 12 (field p.payload 4 2)).toNat ++ leBytes 1 g ++ [0] ++ leBytes 2 (b2.guest g).gen.toNat
        ++ leBytes 2 stOk ++ leBytes 4 0)
    generalize Block.control' _ _ _ b2 = t at *
    have guests : t.guests = b2.guests := by rw [sends.rest]
    have own : t.guest g = { st := .arriving, gen := nextGen (s.guest g).gen, gid := BitVec.ofNat 64 (memberGid (BitVec.ofNat 12 (field p.payload 4 2)).toNat)
                             stagedAt := s.ep.now.toNat, stale := (s.guest g).stale, dropped := (s.guest g).dropped
                             member := some (BitVec.ofNat 12 (field p.payload 4 2)) } := by
      rw [Block.guest, guests, ← e]
      exact getD_modify_same inside _ _
    refine ⟨by rw [own], by rw [own], by rw [own], fun f apart => ?_, ?_⟩
    · rw [Block.guest, guests, ← e]
      exact getD_modify_other apart _ _ _
    · rw [sends.rest, ← e]
      rfl
  · refine State.act_of_eq (f := Block.joinIn p) ?_
    unfold Block.joinIn
    rw [got _ type]
    exact if_pos (by rw [show took.isCollector = false from other]; rfl)
  · refine State.act_of_eq (f := Block.joinReplyIn p) ?_
    unfold Block.joinReplyIn
    rw [got _ type]
    dsimp only
    rw [if_neg (by rw [show took.myJob p.payload = true from mine, show took.trail.joinSent = true from sent]; decide),
      if_pos (show field p.payload 10 2 = stOk from ok)]
    have nothing : ∀ t : Trail, Block.pumpFrags (Block.queueMap (Block.readObjects (Block.mapReads { took with trail := t }) { took with trail := t }))
        = Block.pumpFrags { took with trail := t } := by
      intro t
      have reads : Block.mapReads { took with trail := t } = [] := by
        simp only [Block.mapReads, took, kfs, points, edges]
        rfl
      rw [reads]
      refine congrArg Block.pumpFrags ?_
      simp only [Block.readObjects, List.eraseDups_nil, List.foldl_nil, Block.queueMap, took, kfs, points, edges]
      rfl
    rw [nothing]
    exact Block.pumpFrags_none rfl
  · refine State.act_of_eq (f := Block.joinReplyIn p) ?_
    unfold Block.joinReplyIn
    rw [got _ type]
    dsimp only
    rw [if_neg (by rw [show took.myJob p.payload = true from mine, show took.trail.joinSent = true from sent]; decide), if_neg (show ¬field p.payload 10 2 = stOk from no)]
  · refine completes_of_act (f := Block.joinRetry) rfl ?_
    rw [Block.joinRetry, isReady, waits, decide_eq_true due]
    exact Block.sendJoin_told member assigned on
  · refine State.act_of_eq (f := Block.joinRetry) ?_
    rw [Block.joinRetry, decide_eq_false (Nat.not_le.2 early), Bool.and_false]
    rfl
  · refine State.act_of_eq (f := Block.fragAckIn p) ?_
    unfold Block.fragAckIn
    rw [got _ type]
    dsimp only
    have ours : (!took.myJob p.payload || took.trail.joined != some (BitVec.ofNat 8 (field p.payload 6 1), BitVec.ofNat 16 (field p.payload 8 2))) = false := by
      rw [show took.myJob p.payload = true from mine,
        show took.trail.joined = some (BitVec.ofNat 8 (field p.payload 6 1), BitVec.ofNat 16 (field p.payload 8 2)) from joined]
      simp
    rw [ours, if_neg Bool.false_ne_true, show field p.payload 10 2 = 0 from ok, if_neg (by decide), if_neg (by decide)]
    exact Block.pumpFrags_none idle
  · refine completes_of_act (f := Block.fragAckLate) rfl ?_
    have due : (s.ready && s.trail.joined.isSome && !s.trail.unacked.isEmpty && decide (s.trail.ackEpoch + 30 ≤ s.ep.now.toNat)) = true := by
      rw [isReady, joined, decide_eq_true late, List.isEmpty_eq_false_iff.2 held]
      rfl
    rw [Block.fragAckLate, if_pos due]
    have sends : Block.Sends { s.toBlock with trail := { s.trail with ackEpoch := s.ep.now.toNat } }
        (Block.resendFrags { s.toBlock with trail := { s.trail with ackEpoch := s.ep.now.toNat } }) :=
      (Block.Sends.refl _).foldl fun _ _ h => h.sendTo
    exact ⟨by rw [sends.trail], by rw [sends.trail], by rw [sends.rest]⟩
  · refine State.act_of_eq (f := Block.fragAckLate) ?_
    rw [Block.fragAckLate, decide_eq_false (Nat.not_le.2 early), Bool.and_false]
    rfl
  · refine State.act_of_eq (f := Block.fragIn p) ?_
    unfold Block.fragIn
    rw [got _ type]
    exact if_pos (by rw [show took.guestsOn = false from off]; rfl)
  · refine completes_of_act (f := Block.fragIn p) rfl ?_
    have inside : field p.payload 0 1 < s.guests.length := by
      unfold Block.fragRefusal at fits
      dsimp only at fits
      by_contra far
      rw [if_pos (by simp only [Bool.or_eq_true, decide_eq_true_eq]; omega)] at fits
      cases fits
    unfold Block.fragIn
    rw [got _ type]
    dsimp only
    rw [if_neg (by rw [show took.guestsOn = true from on]; decide), show took.fragRefusal p true = none from fits]
    refine ⟨?_, ?_, fun f apart => getD_modify_other apart _ _ _, rfl⟩
    · exact congrArg Guest.staged (getD_modify_same inside _ _)
    · exact congrArg Guest.lastFrag (getD_modify_same inside _ _)
  · refine completes_of_act (f := Block.leaveIn p) rfl ?_
    have own : (decide (field p.payload 6 1 < 64) && (took.guest (field p.payload 6 1)).st.accepts
        && (took.guest (field p.payload 6 1)).gen.toNat == field p.payload 8 2
        && (took.guest (field p.payload 6 1)).gid.toNat == memberGid (field p.payload 4 2)) = true := by
      have at_ (k : Nat) : took.guest k = s.guest k := rfl
      simp only [at_]
      rw [decide_eq_true (show field p.payload 6 1 < 64 from slot), show (s.guest (field p.payload 6 1)).st.accepts = true from accepts,
        show (s.guest (field p.payload 6 1)).gen.toNat = field p.payload 8 2 from gen,
        show (s.guest (field p.payload 6 1)).gid.toNat = memberGid (field p.payload 4 2) from gid]
      simp
    have inside : field p.payload 6 1 < s.guests.length := by
      have : field p.payload 6 1 < 64 := slot
      omega
    unfold Block.leaveIn
    rw [got _ type]
    dsimp only
    rw [own, if_pos rfl]
    refine ⟨?_, ?_, ?_, rfl⟩
    · exact congrArg Guest.st (getD_modify_same inside _ _)
    · exact congrArg Guest.cause (getD_modify_same inside _ _)
    · exact congrArg Guest.staged (getD_modify_same inside _ _)
  · refine State.act_of_eq (f := Block.sealReportIn p) ?_
    unfold Block.sealReportIn
    rw [got _ type]
    exact if_pos (bne_iff_ne.2 other)
  · refine completes_of_act (f := Block.sealReportIn p) rfl ?_
    have run : s.sealReportIn p = Block.event 0x0010 noUnit (fit 24 p.payload) { took with flt := { s.flt with sealFaults := bump s.flt.sealFaults } } := by
      unfold Block.sealReportIn
      rw [got _ type]
      dsimp only
      rw [if_neg (by rw [show took.chip = s.chip from rfl, show field p.payload 4 2 = s.chip.toNat from own]; simp),
        show unitExists (p.payload.getD 2 0) = false from known]
      simp only [Bool.and_false, Bool.false_and, Bool.false_eq_true, if_false]
      rfl
    rw [run]
    have told := Block.event_parts 0x0010 noUnit (fit 24 p.payload) { took with flt := { s.flt with sealFaults := bump s.flt.sealFaults } }
    refine ⟨by rw [told], Block.event_tells rfl, by rw [told]⟩

end Sys2Proof.Machine
end

section
/-! PROOF. Opening, feeding and closing a stay (O37; R437, R443 to R446, R460, R465). -/

namespace Sys2Proof.Machine

theorem nextGen_pos (g : BitVec 16) : nextGen g ≠ 0 := by
  unfold nextGen
  split
  · decide
  · rename_i last
    intro zero
    exact last (by have := congrArg (· - 1) zero; simpa [BitVec.add_sub_cancel] using this)

/-- The slot that a free one is: the lowest FREE one below MAX_SLOTS. -/
theorem Block.freeGuest_found {b : Block} {g : Nat} (found : b.freeGuest = some g) : g < 64 ∧ (b.guest g).st = .free ∧ ∀ f < g, (b.guest f).st ≠ .free := by
  obtain ⟨free, range, before⟩ := List.find?_range_eq_some.1 (show (List.range (min 64 b.maxSlots)).find? _ = some g from found)
  have bound := List.mem_range.1 range
  refine ⟨by omega, by simpa using free, fun f below is => ?_⟩
  have not := before f below
  rw [is] at not
  exact absurd not (by decide)

/-- A fragment that nothing refuses names a slot. -/
theorem Block.fragRefusal_slot {b : Block} {p : Parcel} {next : Bool} (fits : b.fragRefusal p next = none) : field p.payload 0 1 < 64 := by
  unfold Block.fragRefusal at fits
  dsimp only at fits
  by_contra far
  rw [if_pos (by simp only [Bool.or_eq_true, decide_eq_true_eq]; omega)] at fits
  cases fits

/-- Settles O37: by the slots free, the guest's home and the slot's generation. -/
theorem guestCommands : Obligations.GuestCommands := by
  unfold Obligations.GuestCommands
  refine ⟨fun s r c needs has fields => ⟨fun starts => ⟨fun absent => ?_, fun present => ⟨fun away => ?_, fun home => ⟨fun g holds => ?_, fun fresh full => ?_,
      fun g fresh free size => ?_⟩⟩⟩, fun starts => ⟨fun none empty => ?_, fun some_ => ?_⟩⟩,
    fun s r c p found op heads passes fits size => ?_, fun s r c needs has fields starts => ⟨fun stale => ?_, fun gen accepts size => ?_⟩,
    fun g => ⟨nextGen_pos g, fun last => if_neg last⟩⟩
  · refine State.act_of_eq (f := Block.guestOpen r) ?_
    rw [Block.guestOpen, Block.begin_eq_run _ starts fields needs has]
    simp only [Block.openGuest, absent, if_true]
    rfl
  · refine State.act_of_eq (f := Block.guestOpen r) ?_
    rw [Block.guestOpen, Block.begin_eq_run _ starts fields needs has]
    simp only [Block.openGuest, present, away, ne_eq, not_false_eq_true, Bool.false_eq_true, if_false, if_true]
    rfl
  · refine State.act_of_eq (f := Block.guestOpen r) ?_
    rw [Block.guestOpen, Block.begin_eq_run _ starts fields needs has]
    simp only [Block.openGuest, present, home, holds, ne_eq, not_true_eq_false, Bool.false_eq_true, if_false]
    rfl
  · refine State.act_of_eq (f := Block.guestOpen r) ?_
    rw [Block.guestOpen, Block.begin_eq_run _ starts fields needs has]
    simp only [Block.openGuest, present, home, fresh, full, ne_eq, not_true_eq_false, Bool.false_eq_true, if_false]
    rfl
  · refine completes_of_act (f := Block.guestOpen r) rfl ?_
    obtain ⟨small, isFree, lowest⟩ := Block.freeGuest_found free
    have run : s.guestOpen r = Block.finish r stOk g (nextGen (s.guest g).gen).toNat 0 (s.assignGuest g (c.arg 32 8) none) := by
      have own : (s.assignGuest g (c.arg 32 8) none).guest g = { st := .arriving, gen := nextGen (s.guest g).gen, gid := BitVec.ofNat 64 (c.arg 32 8)
                                                                 stagedAt := s.ep.now.toNat, stale := (s.guest g).stale
                                                                 dropped := (s.guest g).dropped, member := none } :=
        getD_modify_same (by omega) _ _
      rw [Block.guestOpen, Block.begin_eq_run _ starts fields needs has]
      simp only [Block.openGuest, present, home, fresh, free, ne_eq, not_true_eq_false, Bool.false_eq_true, if_false]
      rw [own]
    have own : (s.guestOpen r).guest g = { st := .arriving, gen := nextGen (s.guest g).gen, gid := BitVec.ofNat 64 (c.arg 32 8)
                                           stagedAt := s.ep.now.toNat, stale := (s.guest g).stale
                                           dropped := (s.guest g).dropped, member := none } := by
      rw [run]; exact getD_modify_same (by omega) _ _
    refine ⟨small, isFree, lowest, by rw [own], by rw [own], by rw [own], by rw [own], by rw [own], fun f apart => ?_, by rw [run]; rfl, by rw [run]; rfl⟩
    rw [run]
    exact getD_modify_other apart _ _ _
  · refine State.act_of_eq (f := Block.guestFragment r) ?_
    rw [Block.guestFragment, Block.begin_eq_run _ starts fields needs has]
    simp only [none, empty, decide_true, Bool.and_self, if_true]
    rfl
  · refine State.act_of_eq (f := Block.guestFragment r) ?_
    rw [Block.guestFragment, Block.begin_eq_run _ starts fields needs has]
    simp only [some_, decide_false, Bool.false_and, Bool.false_eq_true, if_false]
  · refine completes_of_act (f := Block.dmaRead r (.parcel p)) rfl ?_
    have inside : field (s.hostSealed p).payload 0 1 < s.guests.length := by
      have := Block.fragRefusal_slot fits
      omega
    have run : s.dmaRead r (.parcel p) = s.fragPart r c (s.hostSealed p) := by
      unfold Block.dmaRead
      rw [found]
      dsimp only
      rw [if_neg (by rw [heads]; decide), passes]
      simp only [Block.dataPart, op]
      rfl
    rw [run, Block.fragPart, fits]
    dsimp only
    split
    · refine ⟨?_, ?_, rfl⟩
      · exact congrArg Guest.staged (getD_modify_same inside _ _)
      · exact congrArg Guest.lastFrag (getD_modify_same inside _ _)
    · refine ⟨?_, ?_, rfl⟩
      · exact congrArg Guest.staged (getD_modify_same inside _ _)
      · exact congrArg Guest.lastFrag (getD_modify_same inside _ _)
  · refine State.act_of_eq (f := Block.guestClose r) ?_
    rw [Block.guestClose, Block.begin_eq_run _ starts fields needs has]
    simp only [stale, ne_eq, not_false_eq_true, decide_true, Bool.true_or, if_true]
    rfl
  · refine completes_of_act (f := Block.guestClose r) rfl ?_
    have run : s.guestClose r = (s.evict (c.arg 24 1) 1).finish r stOk 0 0 0 := by
      rw [Block.guestClose, Block.begin_eq_run _ starts fields needs has]
      simp only [gen, accepts, ne_eq, not_true_eq_false, decide_false, Bool.not_true, Bool.or_self, Bool.false_eq_true, if_false]
    have small : c.arg 24 1 < 64 := by
      simp only [Cmd.fieldsOk, Bool.and_eq_true, decide_eq_true_eq] at fields
      exact fields.2
    rw [run]
    refine ⟨?_, ?_, ?_, fun f apart => getD_modify_other apart _ _ _, rfl, rfl⟩
    · exact congrArg Guest.st (getD_modify_same (by omega) _ _)
    · exact congrArg Guest.staged (getD_modify_same (by omega) _ _)
    · exact congrArg Guest.cause (getD_modify_same (by omega) _ _)

end Sys2Proof.Machine
end

section
/-! PROOF. What a merge of a fragment leaves (O38; R454 to R457): the settings, the epoch, the solver, and the course of every stay. -/

namespace Sys2Proof.Machine

/-- A change of the map in the course of a merge. -/
structure Block.Merging (a b : Block) : Prop where
  cfg : b.cfg = a.cfg
  ep : b.ep = a.ep
  badger : b.badger = a.badger
  thermos : b.thermos = a.thermos
  merged : b.map.merged = a.map.merged
  size : b.guests.length = a.guests.length
  stays : ∀ f : Nat, (b.guest f).st = (a.guest f).st ∧ (b.guest f).staged = (a.guest f).staged ∧ (b.guest f).merges = (a.guest f).merges
    ∧ (b.guest f).mergedFrag = (a.guest f).mergedFrag

namespace Block.Merging

theorem refl (a : Block) : a.Merging a := ⟨rfl, rfl, rfl, rfl, rfl, rfl, fun _ => ⟨rfl, rfl, rfl, rfl⟩⟩

variable {a b c : Block}

theorem trans (ab : a.Merging b) (bc : b.Merging c) : a.Merging c where
  cfg := bc.cfg.trans ab.cfg
  ep := bc.ep.trans ab.ep
  badger := bc.badger.trans ab.badger
  thermos := bc.thermos.trans ab.thermos
  merged := bc.merged.trans ab.merged
  size := bc.size.trans ab.size
  stays f := by
    obtain ⟨st, staged, merges, frag⟩ := ab.stays f
    obtain ⟨st', staged', merges', frag'⟩ := bc.stays f
    exact ⟨st'.trans st, staged'.trans staged, merges'.trans merges, frag'.trans frag⟩

/-- A change that leaves the slots of the guests. -/
theorem of_frame (cfg : b.cfg = a.cfg) (ep : b.ep = a.ep) (badger : b.badger = a.badger) (thermos : b.thermos = a.thermos)
    (merged : b.map.merged = a.map.merged) (guests : b.guests = a.guests) : a.Merging b :=
  ⟨cfg, ep, badger, thermos, merged, by rw [guests], fun f => by rw [Block.guest, guests]; exact ⟨rfl, rfl, rfl, rfl⟩⟩

theorem foldl {α : Type} {f : Block → α → Block} {l : List α} (h : a.Merging b) (step : ∀ b x, a.Merging b → a.Merging (f b x)) : a.Merging (l.foldl f b) := by
  induction l generalizing b with
  | nil => exact h
  | cons x l ih => exact ih (step b x h)

theorem onGuest (h : a.Merging b) {s : Nat} {f : Guest → Guest}
    (keeps : ∀ g, (f g).st = g.st ∧ (f g).staged = g.staged ∧ (f g).merges = g.merges ∧ (f g).mergedFrag = g.mergedFrag) : a.Merging (b.onGuest s f) := by
  refine h.trans ⟨rfl, rfl, rfl, rfl, rfl, List.length_modify _ _ _, fun k => ?_⟩
  by_cases own : k = s
  · subst own
    by_cases inside : k < b.guests.length
    · simp only [Block.guest, Block.onGuest, getD_modify_same inside]
      exact keeps _
    · simp only [Block.guest, Block.onGuest, List.modify_eq_self (show b.guests.length ≤ k by omega)]
      exact ⟨trivial, trivial, trivial, trivial⟩
  · simp only [Block.guest, Block.onGuest, getD_modify_other own]
    exact ⟨trivial, trivial, trivial, trivial⟩

theorem putMap (h : a.Merging b) {kind : MapKind} {addr : Nat} {payload : Bytes} {ins : List InRef} : a.Merging (b.putMap kind addr payload ins) :=
  h.trans (of_frame (by simp) (by simp) (by simp) (by simp) (by simp) (by simp))

theorem storeMap (h : a.Merging b) {kind : MapKind} {addr : Nat} {payload : Bytes} {ins : List InRef} : a.Merging (b.storeMap kind addr payload ins) :=
  h.trans (of_frame (by simp) (by simp) (by simp) (by simp) (by simp) (by simp))

theorem poolTake (h : a.Merging b) {upTo : Nat} : a.Merging (b.poolTake upTo) := h.trans (of_frame rfl rfl rfl rfl rfl rfl)

theorem setKf (h : a.Merging b) {k : KfDir} : a.Merging (b.setKf k) := h.trans (of_frame rfl rfl rfl rfl rfl rfl)

theorem postAt (h : a.Merging b) {key addr count : Nat} : a.Merging (b.postAt key addr count) := h.trans (of_frame rfl rfl rfl rfl rfl rfl)

theorem mapFull (h : a.Merging b) {kind : Nat} : a.Merging (b.mapFull kind) := by
  refine h.trans (of_frame (by simp) (by simp) (by simp) (by simp) ?_ (by simp))
  unfold Block.mapFull
  dsimp only
  split
  · rfl
  · rw [Block.event_parts]

theorem mergeDropped (h : a.Merging b) {s n : Nat} : a.Merging (b.mergeDropped s n) := h.onGuest fun _ => ⟨rfl, rfl, rfl, rfl⟩

theorem roomHot (h : a.Merging b) : a.Merging b.roomHot := by
  unfold Block.roomHot Block.makeCold
  split
  · exact h
  · split
    · split
      · exact h.storeMap.setKf
      · exact h
    · exact h

theorem newKf (h : a.Merging b) {id : Nat} {payload : Bytes} {ins : List InRef} : a.Merging (b.newKf id payload ins) := by
  unfold Block.newKf
  dsimp only
  split
  · split
    · exact h.roomHot.mapFull
    · exact h.roomHot.putMap.setKf
  · split
    · exact h.roomHot.putMap.setKf
    · exact h.roomHot.storeMap.putMap.setKf

theorem mapTops (h : a.Merging b) {points edges : Nat} : a.Merging { b with map := { b.map with ptTop := points, edgeTop := edges } } :=
  h.trans (of_frame rfl rfl rfl rfl rfl rfl)

theorem putPoints (h : a.Merging b) {recs : List (Nat × Bytes)} {ins : List InRef} : a.Merging (b.putPoints recs ins) := by
  unfold Block.putPoints
  refine foldl h fun b i h => ?_
  extract_lets old base new b1
  clear_value new
  exact mapTops h.putMap

theorem putEdges (h : a.Merging b) {recs : List (Nat × Bytes)} {ins : List InRef} : a.Merging (b.putEdges recs ins) := by
  unfold Block.putEdges
  refine foldl h fun b i h => ?_
  extract_lets old base new b1
  clear_value new
  exact mapTops h.putMap

theorem newPosting (h : a.Merging b) {key id prev : Nat} {ins : List InRef} : a.Merging (b.newPosting key id prev ins) :=
  Block.newPosting_cases (fun _ _ => h.poolTake.putMap.postAt) h.mapFull

theorem postSample (h : a.Merging b) {key id : Nat} {ins : List InRef} : a.Merging (b.postSample key id ins) := by
  unfold Block.postSample
  split
  · split
    · split
      · exact h.putMap.postAt
      · exact h
    · exact h.newPosting
  · exact h.newPosting

theorem takePoint (h : a.Merging b) {s : Nat} {gp : BitVec 32} : a.Merging (b.takePoint s gp).2 := by
  unfold Block.takePoint
  dsimp only
  split
  · exact h
  · split
    · exact h.mergeDropped
    · split
      · exact h.mapFull.mergeDropped
      · exact h.onGuest fun _ => ⟨rfl, rfl, rfl, rfl⟩

theorem addEdge (h : a.Merging b) {s : Nat} {rec_ : Bytes} {ins : List InRef} : a.Merging (b.addEdge s rec_ ins) := by
  unfold Block.addEdge
  split
  · exact h.putEdges
  · exact h.mapFull.mergeDropped

theorem mergeRef (h : a.Merging b) {s : Nat} {gp : BitVec 32} : a.Merging (b.mergeRef s gp).2 := by
  unfold Block.mergeRef
  split
  · exact h
  · split
    · have took := h.takePoint (s := s) (gp := gp)
      split
      next e => rw [e] at took; exact took
      next e => rw [e] at took; exact took
    · exact h

theorem mergeHead (h : a.Merging b) {s : Nat} {body : Bytes} {ins : List InRef} : a.Merging (b.mergeHead s body ins) := by
  unfold Block.mergeHead
  extract_lets g head gk pose
  split
  · split
    · extract_lets old
      exact h.putMap
    · exact h.mergeDropped
  · split
    · exact h.mergeDropped
    · split
      · exact h.mapFull.mergeDropped
      · split
        · exact h.mapFull.mergeDropped
        · extract_lets new b1 b2
          have joined : a.Merging b2 := h.poolTake.newKf.onGuest fun _ => ⟨rfl, rfl, rfl, rfl⟩
          clear_value b2
          split
          · exact joined.addEdge
          · exact joined

theorem foldl_fst {α β : Type} {f : Block × β → α → Block × β} {l : List α} {x : Block × β} (h : a.Merging x.1)
    (step : ∀ acc y, a.Merging acc.1 → a.Merging (f acc y).1) : a.Merging (l.foldl f x).1 := by
  induction l generalizing x with
  | nil => exact h
  | cons y l ih => exact ih (step x y h)

theorem mergeObs (h : a.Merging b) {s : Nat} {body : Bytes} {ins : List InRef} : a.Merging (b.mergeObs s body ins) := by
  unfold Block.mergeObs
  split
  · exact h.mergeDropped
  · extract_lets head i recs r b1 start m
    split
    · exact h.mergeDropped
    · have renumbered : a.Merging r.1 := foldl_fst h fun acc x h => h.mergeRef
      have written : a.Merging b1 := renumbered.putMap
      clear_value b1
      refine foldl written fun b x h => ?_
      split
      split
      · exact h.postSample
      · exact h

theorem mergePoints (h : a.Merging b) {s : Nat} {body : Bytes} {ins : List InRef} : a.Merging (b.mergePoints s body ins) := by
  unfold Block.mergePoints
  extract_lets recs r
  have taken : a.Merging r.1 := by
    refine foldl_fst h fun acc x h => ?_
    dsimp only
    split
    · exact h
    · have took := h.takePoint (s := s) (gp := BitVec.ofNat 32 x.1)
      split
      next e => rw [e] at took; exact took
      next e => rw [e] at took; exact took
  exact taken.putPoints

theorem mergeEdges (h : a.Merging b) {s : Nat} {body : Bytes} {ins : List InRef} : a.Merging (b.mergeEdges s body ins) := by
  refine foldl h fun b x h => ?_
  split
  · exact h.addEdge
  · exact h.mergeDropped

end Block.Merging

end Sys2Proof.Machine
end

section
/-! PROOF. A stay from its alignment to its slot's release (O38; R439, R448 to R464). -/

namespace Sys2Proof.Machine

/-- No slot has a fragment to merge. -/
theorem Block.mergeSome_none {b : Block} (none : ∀ f < 64, (b.guest f).staged = []) (reads : Reads) (n : Nat) : b.mergeSome reads n = b := by
  cases n with
  | zero => rfl
  | succ n =>
    have found : ((List.range 64).find? fun s => (b.guest s).st == .merged && !(b.guest s).staged.isEmpty) = Option.none := by
      refine List.find?_eq_none.2 fun f mem => ?_
      rw [none f (List.mem_range.1 mem)]
      simp
    rw [Block.mergeSome, found]

/-- A slot that is not being evicted purges nothing. -/
theorem Block.purgeSlot_other {s : Nat} {b : Block} (other : (b.guest s).st ≠ .evicting) : b.purgeSlot s = b := by
  have off : ((b.guest s).st != .evicting) = true := by simpa using other
  unfold Block.purgeSlot
  simp only [off, Bool.true_or, if_true]

/-- A purge of keyframes in a map without points and edges, while no job runs (R463). -/
theorem Block.purgeSlot_bare {k : Nat} {b : Block} (evicting : (b.guest k).st = .evicting) (idle : b.badger.jobs = []) (points : b.map.ptTop = 0)
    (edges : b.map.edgeTop = 0) (purges : (b.guest k).purge ≠ []) :
    ∃ n : Guest → BitVec 32, b.purgeSlot k = Block.onGuest k (fun g => { g with
        purge := g.purge.filter fun id => !((b.guest k).purge.map BitVec.toNat).contains id.toNat, purged := n g, since := b.ep.now.toNat })
      { b with map := { b.map with kfs := b.map.kfs.filter fun x => !((b.guest k).purge.map BitVec.toNat).contains x.id } } := by
  have free (id : Nat) : b.kfInJob id = false := by rw [Block.kfInJob, idle]; rfl
  have ids : ((b.guest k).purge.map BitVec.toNat).filter (fun id => !b.kfInJob id) = (b.guest k).purge.map BitVec.toNat :=
    List.filter_eq_self.2 fun id _ => by rw [free]; rfl
  have some_ : ((b.guest k).purge.map BitVec.toNat).isEmpty = false := by simpa using purges
  have reads : (List.range ((b.map.ptTop + 62) / 63)).map pointsAddr ++ (List.range ((b.map.edgeTop + 49) / 50)).map edgesAddr = [] := by
    rw [points, edges]; rfl
  have noPoints (ids : List Nat) : b.purgePoints ids = [] := by rw [Block.purgePoints, points]; rfl
  have noEdges (ids : List Nat) : b.purgeEdges ids = [] := by rw [Block.purgeEdges, edges]; rfl
  have on : ((b.guest k).st != .evicting) = false := by rw [evicting]; rfl
  unfold Block.purgeSlot
  dsimp only
  rw [on, ids, some_, if_neg (by decide), reads, show b.readObjects [] = b from rfl, noPoints, noEdges]
  simp only [List.map_nil, List.eraseDups_nil, List.take_nil, List.filter_nil, List.length_nil, beq_self_eq_true, Bool.and_self, if_true, Nat.add_zero]
  exact ⟨fun g => bumpBy g.purged (0 + ((b.guest k).purge.map BitVec.toNat).length), rfl⟩

/-- A merge takes the slot's oldest fragment out of its staging and counts it (R454). -/
theorem Block.mergeOne_told {k : Nat} {b : Block} {p : Parcel} (staged : (b.guest k).staged = [p]) (passes : sealFault p = none) (clean : b.den.ue = [])
    (inside : k < b.guests.length) :
    (b.mergeOne k []).1 = true ∧ ((b.mergeOne k []).2.guest k).staged = [] ∧ ((b.mergeOne k []).2.guest k).merges = (b.guest k).merges + 1
      ∧ ((b.mergeOne k []).2.guest k).mergedFrag = BitVec.ofNat 32 (field p.payload 4 4) ∧ ((b.mergeOne k []).2.guest k).st = (b.guest k).st
      ∧ (∀ f : Nat, f ≠ k → ((b.mergeOne k []).2.guest f).st = (b.guest f).st ∧ ((b.mergeOne k []).2.guest f).staged = (b.guest f).staged)
      ∧ (b.mergeOne k []).2.map.merged = b.map.merged + 1 ∧ (b.mergeOne k []).2.cfg = b.cfg ∧ (b.mergeOne k []).2.ep = b.ep
      ∧ (b.mergeOne k []).2.badger = b.badger ∧ (b.mergeOne k []).2.thermos = b.thermos := by
  have run : ∃ b1 : Block, b.Merging b1 ∧ b.mergeOne k [] = (true, { b1.onGuest k (fun g => { g with
      staged := g.staged.tail, bytes := g.bytes - storedSize p.payload.length, mergedFrag := BitVec.ofNat 32 (field p.payload 4 4)
      merges := g.merges + 1 }) with map := { b1.map with merged := b1.map.merged + 1 } }) := by
    unfold Block.mergeOne
    rw [staged]
    dsimp only
    rw [show readAs [] p = .intact from rfl, Block.verify_intact passes]
    dsimp only
    rw [Block.readObjects_clean clean]
    refine ⟨_, ?_, rfl⟩
    split
    · exact (Block.Merging.refl b).mergeHead
    · exact (Block.Merging.refl b).mergeObs
    · exact (Block.Merging.refl b).mergePoints
    · exact (Block.Merging.refl b).mergeEdges
  obtain ⟨b1, merging, e⟩ := run
  rw [e]
  have own : (b1.onGuest k (fun g => { g with
      staged := g.staged.tail, bytes := g.bytes - storedSize p.payload.length, mergedFrag := BitVec.ofNat 32 (field p.payload 4 4)
      merges := g.merges + 1 })).guest k = { b1.guest k with
      staged := (b1.guest k).staged.tail, bytes := (b1.guest k).bytes - storedSize p.payload.length
      mergedFrag := BitVec.ofNat 32 (field p.payload 4 4), merges := (b1.guest k).merges + 1 } := getD_modify_same (by rw [merging.size]; exact inside) _ _
  obtain ⟨st, staged1, merges, -⟩ := merging.stays k
  refine ⟨rfl, ?_, ?_, ?_, ?_, fun f apart => ?_, ?_, merging.cfg, merging.ep, merging.badger, merging.thermos⟩
  · refine (congrArg Guest.staged own).trans ?_
    dsimp only
    rw [staged1, staged]
    rfl
  · refine (congrArg Guest.merges own).trans ?_
    dsimp only
    rw [merges]
  · exact (congrArg Guest.mergedFrag own)
  · refine (congrArg Guest.st own).trans st
  · have same : (b1.onGuest k (fun g => { g with
        staged := g.staged.tail, bytes := g.bytes - storedSize p.payload.length, mergedFrag := BitVec.ofNat 32 (field p.payload 4 4)
        merges := g.merges + 1 })).guest f = b1.guest f := getD_modify_other apart _ _ _
    obtain ⟨st', staged', -, -⟩ := merging.stays f
    exact ⟨(congrArg Guest.st same).trans st', (congrArg Guest.staged same).trans staged'⟩
  · exact congrArg (· + 1) merging.merged

/-- While tiles are live, the assembly of a problem adds its job at the end of the engine's list (R356, R359). -/
theorem Block.assembled_told (j : Job) (rows landmarks blocks factors : Nat) (still : Bool) {b : Block} (live : b.flt.tiles ≠ 0) :
    let t := (b.assemble j rows landmarks blocks factors still).jobsWithoutTiles
    (∃ p : Option Parcel, t.badger.jobs = b.badger.jobs ++ [{ j with rows := rows, marks := landmarks, problem := p, no := b.badger.nextNo }])
      ∧ t.guests = b.guests ∧ t.cfg = b.cfg ∧ t.den = b.den ∧ t.map = b.map ∧ t.thermos = b.thermos := by
  have stays : (b.assemble j rows landmarks blocks factors still).jobsWithoutTiles = b.assemble j rows landmarks blocks factors still := by
    rw [Block.jobsWithoutTiles]
    exact if_neg live
  rw [stays]
  exact ⟨⟨_, rfl⟩, by simp, by simp, by simp, by simp, by simp⟩

/-- A failed attempt at alignment, short of the last: the slot keeps its fragments and waits for more keyframes (R449). -/
theorem Block.alignFailed_told {k cause : Nat} {b : Block} (more : (b.guest k).attempts + 1 < b.alignAttempts) (inside : k < b.guests.length) :
    (b.alignFailed k cause).guest k = { b.guest k with
        st := .arriving, attempts := (b.guest k).attempts + 1, job := none, alignAt := (b.guest k).kfs.length + b.minAlignKf }
      ∧ (b.alignFailed k cause).badger = b.badger ∧ (b.alignFailed k cause).den = b.den ∧ (b.alignFailed k cause).map = b.map := by
  unfold Block.alignFailed
  dsimp only
  rw [if_neg (Nat.not_le.2 more)]
  refine ⟨?_, by simp, by simp, by simp⟩
  rw [Block.guest, show ∀ (c s) (p : Bytes) (b : Block), (b.event c s p).guests = b.guests by simp]
  exact getD_modify_same inside _ _

/-- Settles O38: from the correspondences that align a stay to the boundary that frees its slot. -/
theorem guestStays : Obligations.GuestStays := by
  unfold Obligations.GuestStays
  intro s k ready size
  have isReady : s.ready = true := by simp [Block.ready, ready]
  have inside : k.val < s.guests.length := by omega
  refine ⟨fun xs arriving enough room still present unused => ?_, fun other xs => ?_, fun running present => ⟨fun p merged staged passes clean more others => ?_,
      fun evicting others idle points edges purges => ?_⟩, fun accepts => ⟨fun limit due => ?_, fun early => ?_⟩, fun evicting purged => ⟨fun later => ?_, fun early => ?_⟩,
    fun cooling => ⟨fun due => ?_, fun early => ?_⟩⟩
  · have kfs : s.alignPairs k xs = (s.toBlock, (s.alignPairs k xs).2.1, []) := by
      unfold Block.alignPairs
      dsimp only
      rw [unused]
    intro ps cs
    have runs : (s.ready && (s.guest k).st == .arriving && decide (s.minAlignKf ≤ ((s.guest k).kfs.filter (s.guest k).obsKfs.contains).length)
        && decide ((s.guest k).alignAt ≤ (s.guest k).kfs.length) && !s.map.rebuild && !s.den.dramAbsent) = true := by
      rw [isReady, arriving, decide_eq_true enough, decide_eq_true room, still, present]
      rfl
    refine ⟨fun found live => completes_of_act (f := Block.guestAlignStart k xs) rfl ?_, fun few more => completes_of_act (f := Block.guestAlignStart k xs) rfl ?_⟩
    · set b3 := (s.toBlock.onGuest k.val fun g => { g with pairs := ps.map fun x => (x.guest.toNat, x.own), corrs := cs }).onGuest k.val
        (fun g => { g with st := .aligning, job := some s.badger.nextNo }) with e
      have run : ∃ j : Job, (j.cls = 2 ∧ j.host = false ∧ j.guest = some (k.val, (s.guest k).gen) ∧ j.points = cs.length
            ∧ j.deadline = some (s.now + s.gaDeadline))
          ∧ s.guestAlignStart k xs = ((b3.drewN 7).assemble j 1 0 1 cs.length false).jobsWithoutTiles := by
        unfold Block.guestAlignStart
        dsimp only
        rw [if_pos runs, kfs]
        dsimp only
        rw [if_neg (Nat.not_lt.2 found)]
        exact ⟨_, ⟨rfl, rfl, rfl, rfl, rfl⟩, rfl⟩
      obtain ⟨j, ⟨cls, host, guest, points, deadline⟩, run⟩ := run
      obtain ⟨⟨p, jobs⟩, guests, cfg, den, map, thermos⟩ := Block.assembled_told j 1 0 1 cs.length false (b := b3.drewN 7) live
      rw [run]
      refine ⟨?_, ⟨_, jobs, cls, host, guest, points, deadline, rfl⟩, cfg, den, map, thermos⟩
      rw [Block.guest, guests]
      refine (getD_modify_same (by rw [Block.onGuest, List.length_modify]; exact inside) _ _).trans ?_
      rw [show (s.toBlock.onGuest k.val fun g => { g with pairs := ps.map fun x => (x.guest.toNat, x.own), corrs := cs }).guests.getD k {} = _ from
        getD_modify_same inside _ _]
      rfl
    · unfold Block.guestAlignStart
      dsimp only
      rw [if_pos runs, kfs]
      dsimp only
      rw [if_pos few]
      set b1 := s.toBlock.onGuest k.val (fun g => { g with pairs := ps.map fun x => (x.guest.toNat, x.own), corrs := cs }) with e
      have slot : b1.guest k = { s.guest k with pairs := ps.map fun x => (x.guest.toNat, x.own), corrs := cs } := getD_modify_same inside _ _
      obtain ⟨own, badger, den, map⟩ := Block.alignFailed_told (k := k) (cause := 1) (b := b1) (by rw [slot]; exact more) (by
        rw [e, Block.onGuest, List.length_modify]; exact inside)
      refine ⟨?_, ?_, ?_, ?_, badger, den, map⟩
      · exact congrArg Guest.st own
      · exact (congrArg Guest.attempts own).trans (by rw [slot])
      · exact (congrArg Guest.staged own).trans (by rw [slot])
      · exact (congrArg Guest.alignAt own).trans (by rw [slot]; rfl)
  · refine State.act_of_eq (f := Block.guestAlignStart k xs) ?_
    have off : ((s.guest k).st == .arriving) = false := beq_eq_false_iff_ne.2 other
    simp only [Block.guestAlignStart, off, Bool.and_false, Bool.false_and, Bool.false_eq_true, if_false]
  · refine completes_of_act (f := Block.guestMerge []) rfl ?_
    obtain ⟨whole, empty, merges, frag, st, apart, counted, cfg, ep, badger, thermos⟩ := Block.mergeOne_told (b := s.toBlock) staged passes clean inside
    have after (f : Nat) (small : f < 64) : ((s.toBlock.mergeOne k []).2.guest f).staged = [] ∧ ((s.toBlock.mergeOne k []).2.guest f).st ≠ .evicting := by
      by_cases own : f = k
      · rw [own, st]
        exact ⟨empty, (others k).2⟩
      · obtain ⟨st', staged'⟩ := apart f own
        obtain ⟨none, out⟩ := others ⟨f, small⟩
        rw [st', staged']
        exact ⟨none fun e => own (congrArg Fin.val e), out⟩
    have run : s.guestMerge [] = (s.toBlock.mergeOne k []).2 := by
      have first : ((List.range 64).find? fun f => (s.guest f).st == .merged && !(s.guest f).staged.isEmpty) = some k.val := by
        refine List.find?_range_eq_some.2 ⟨by rw [merged, staged]; rfl, List.mem_range.2 k.isLt, fun f below => ?_⟩
        rw [(others ⟨f, below.trans k.isLt⟩).1 fun e => absurd (congrArg Fin.val e) (Nat.ne_of_lt below)]
        simp
      obtain ⟨n, left⟩ : ∃ n, s.mergePerEpoch - s.map.merged = n + 1 := ⟨s.mergePerEpoch - s.map.merged - 1, by omega⟩
      have runs : (s.ready && !s.pwr.paused && !s.den.dramAbsent) = true := by rw [isReady, running, present]; rfl
      rw [Block.guestMerge, if_pos runs, left, Block.mergeSome, first]
      dsimp only
      generalize s.toBlock.mergeOne k [] = r at *
      obtain ⟨fst, b1⟩ := r
      subst whole
      dsimp only at after ⊢
      rw [Block.mergeSome_none fun f small => (after f small).1]
      exact Block.foldl_still fun f mem => Block.purgeSlot_other (after f (List.mem_range.1 mem)).2
    rw [run]
    exact ⟨empty, merges, counted, frag, st.trans merged, cfg, ep, badger, thermos⟩
  · refine completes_of_act (f := Block.guestMerge []) rfl ?_
    obtain ⟨n, purged⟩ := Block.purgeSlot_bare (b := s.toBlock) evicting idle points edges purges
    have still (b : Block) (f : Nat) (small : f < 64) (apart : f ≠ k) (same : b.guest f = s.guest f) : b.purgeSlot f = b :=
      Block.purgeSlot_other (by rw [same]; exact (others ⟨f, small⟩).2 fun e => apart (congrArg Fin.val e))
    have run : s.guestMerge [] = s.toBlock.purgeSlot k := by
      have runs : (s.ready && !s.pwr.paused && !s.den.dramAbsent) = true := by rw [isReady, running, present]; rfl
      rw [Block.guestMerge, if_pos runs, Block.mergeSome_none fun f small => (others ⟨f, small⟩).1]
      refine Block.foldl_only k.isLt (fun f small apart => still _ f small apart rfl) rfl fun f small apart => still _ f small apart ?_
      rw [purged]
      exact getD_modify_other apart _ _ _
    rw [run, purged]
    refine ⟨?_, rfl, ?_, rfl, rfl⟩
    · refine (congrArg Guest.purge (getD_modify_same inside _ _)).trans (List.filter_eq_nil_iff.2 fun id mem => ?_)
      have all : ((s.guest k).purge.map BitVec.toNat).contains id.toNat = true := List.contains_iff_mem.2 (List.mem_map_of_mem mem)
      rw [all]
      decide
    · exact (congrArg Guest.since (getD_modify_same inside _ _)).trans rfl
  · refine completes_of_act (f := Block.guestIdle k) rfl ?_
    have runs : (s.ready && (s.guest k).st.accepts && s.idleEpochs != 0 && decide ((s.guest k).stagedAt + s.idleEpochs ≤ s.ep.now.toNat)) = true := by
      rw [isReady, accepts, bne_iff_ne.2 limit, decide_eq_true due]
      rfl
    rw [Block.guestIdle, if_pos runs]
    refine ⟨?_, ?_, ?_, ?_, rfl⟩
    · exact congrArg Guest.st (getD_modify_same inside _ _)
    · exact congrArg Guest.cause (getD_modify_same inside _ _)
    · exact congrArg Guest.staged (getD_modify_same inside _ _)
    · exact (congrArg Guest.gen (getD_modify_same inside _ _)).trans rfl
  · refine State.act_of_eq (f := Block.guestIdle k) ?_
    rcases early with off | early
    · simp only [Block.guestIdle, off, bne_self_eq_false, Bool.and_false, Bool.false_and, Bool.false_eq_true, if_false]
    · simp only [Block.guestIdle, decide_eq_false (Nat.not_le.2 early), Bool.and_false, Bool.false_eq_true, if_false]
  · refine completes_of_act (f := Block.guestEvicted k) rfl ?_
    have runs : (s.ready && (s.guest k).st == .evicting && (s.guest k).purge.isEmpty && decide ((s.guest k).since < s.ep.now.toNat)) = true := by
      rw [isReady, evicting, purged, decide_eq_true later]
      rfl
    rw [Block.guestEvicted, if_pos runs]
    dsimp only
    generalize e : Block.guestRecord k 7 _ [] _ = b2
    have told : b2.guests = s.guests ∧ b2 = { s.toBlock with host := b2.host, flt := b2.flt, fresh := b2.fresh } := by
      rw [← e]
      exact ⟨by simp, Block.eq_of_fields (by simp)⟩
    obtain ⟨guests, rest⟩ := told
    exact ⟨by rw [Block.onGuest, guests], by rw [Block.onGuest, rest]⟩
  · refine State.act_of_eq (f := Block.guestEvicted k) ?_
    simp only [Block.guestEvicted, decide_eq_false (Nat.not_lt.2 early), Bool.and_false, Bool.false_eq_true, if_false]
  · refine State.act_of_eq (f := Block.guestCooled k) ?_
    simp only [Block.guestCooled, isReady, cooling, decide_eq_true due, beq_self_eq_true, Bool.and_self, if_true]
    rfl
  · refine State.act_of_eq (f := Block.guestCooled k) ?_
    simp only [Block.guestCooled, decide_eq_false (Nat.not_le.2 early), Bool.and_false, Bool.false_eq_true, if_false]

end Sys2Proof.Machine
end

section
/-! PROOF. What a map write stores (R402, R414): the sealed parcel at its address, and every other byte of Den as before. -/

namespace Sys2Proof.Machine

/-- Padding fills up to the next multiple. -/
theorem length_padTo_eq (m : Nat) (bs : Bytes) (some_ : 0 < m) : (padTo m bs).length = m * ((bs.length + m - 1) / m) := by
  have whole := Nat.div_add_mod bs.length m
  unfold padTo
  split
  next none =>
    rw [none, Nat.add_zero] at whole
    have below : (bs.length + m - 1) / m = bs.length / m := by
      rw [Nat.div_eq_of_lt_le (k := bs.length / m) (by rw [Nat.mul_comm]; omega)]
      rw [Nat.succ_mul, Nat.mul_comm]; omega
    rw [below, whole]
  next part =>
    have lt := Nat.mod_lt bs.length some_
    have above : (bs.length + m - 1) / m = bs.length / m + 1 := by
      rw [Nat.div_eq_of_lt_le (k := bs.length / m + 1) (by rw [Nat.succ_mul, Nat.mul_comm]; omega)]
      rw [Nat.succ_mul, Nat.succ_mul, Nat.mul_comm]; omega
    rw [above, List.length_append, List.length_replicate, Nat.mul_add, Nat.mul_one]
    omega

/-- How many bytes a stored parcel takes (R402). -/
theorem Parcel.length_stored (p : Parcel) : p.stored.length = storedSize p.payload.length := by
  rw [Parcel.stored, length_padTo_eq _ _ (by decide), List.length_append, length_padTo_eq _ _ (by decide), length_leBytes, List.length_append,
    Parcel.length_header, storedSize]
  rfl

/-- A block in which a parcel has been stored at an address of Den. -/
structure Block.Stored (b : Block) (p : Parcel) (a : Nat) (t : Block) : Prop where
  own : memBytes t.den.mem a p.stored.length = p.stored
  others : ∀ x : Nat, x < a ∨ a + p.stored.length ≤ x → memRead t.den.mem x = memRead b.den.mem x
  rest : t.den = { b.den with mem := t.den.mem, ue := t.den.ue }

theorem Block.Stored.of_den {b t u : Block} {p : Parcel} {a : Nat} (h : b.Stored p a t) (same : u.den = t.den) : b.Stored p a u := by
  obtain ⟨own, others, rest⟩ := h
  exact ⟨by rw [same]; exact own, by rw [same]; exact others, by rw [same]; exact rest⟩

section
variable {b : Block} (sorted : Memory.wf b.den.mem = true)
include sorted

theorem Block.denWrite_stored (a : Nat) (p : Parcel) : b.Stored p a (b.denWrite a p.stored) := by
  have mem : (b.denWrite a p.stored).den.mem = memWriteBytes b.den.mem a p.stored := rfl
  refine ⟨?_, fun x out => ?_, ?_⟩
  · rw [mem]
    exact memBytes_memWriteBytes _ a sorted
  · rw [mem]
    exact memRead_memWriteBytes_out _ sorted out
  · unfold Block.denWrite
    dsimp only

/-- A write of the map, without the host's copy (R414). -/
theorem Block.storeMap_told (kind : MapKind) (a : Nat) (payload : Bytes) (ins : List InRef) :
    b.Stored (b.mapParcel kind a payload ins) a (b.storeMap kind a payload ins)
      ∧ b.storeMap kind a payload ins = { b with
        den := (b.storeMap kind a payload ins).den, host := (b.storeMap kind a payload ins).host, flt := (b.storeMap kind a payload ins).flt } := by
  refine ⟨(Block.denWrite_stored sorted a (b.mapParcel kind a payload ins)).of_den ?_, Block.eq_of_fields (by simp)⟩
  rw [Block.storeMap]
  simp only [Block.trace_frame]
  rfl

/-- A write of the map with the host's copies (R414, R416). -/
theorem Block.putMap_told (kind : MapKind) (a : Nat) (payload : Bytes) (ins : List InRef) :
    b.Stored (b.mapParcel kind a payload ins) a (b.putMap kind a payload ins)
      ∧ b.putMap kind a payload ins = { b with
        den := (b.putMap kind a payload ins).den, host := (b.putMap kind a payload ins).host, flt := (b.putMap kind a payload ins).flt
        trail := (b.putMap kind a payload ins).trail, fresh := (b.putMap kind a payload ins).fresh } := by
  refine ⟨(Block.storeMap_told sorted kind a payload ins).1.of_den ?_, Block.eq_of_fields (by simp)⟩
  unfold Block.putMap
  dsimp only
  split
  · split <;> simp
  · simp

end

end Sys2Proof.Machine
end

section
/-! PROOF. Hot and cold moves, the scrubbers and the calibration of the DRAM (O35; R423 to R425, R564, R427). -/

namespace Sys2Proof.Machine

theorem length_slice (bs : Bytes) (off n : Nat) : (slice bs off n).length = min n (bs.length - off) := by
  rw [slice, List.length_take, List.length_drop]

@[simp] theorem length_withHot (h : Option Nat) (p : Bytes) : (withHot h p).length = 256 := by
  simp only [withHot, List.length_append, length_slice, length_fit, length_leBytes, List.length_drop, List.length_cons, List.length_nil]
  decide

/-- The directory finds the entry that was put in. -/
theorem find?_kfInsert (k : KfDir) (l : List KfDir) : (kfInsert k l).find? (fun x => x.id == k.id) = some k := by
  have first (rest : List KfDir) : (k :: rest).find? (fun x => x.id == k.id) = some k := by
    rw [List.find?_cons, beq_self_eq_true]
  induction l with
  | nil => exact first []
  | cons x xs ih =>
    unfold kfInsert
    split
    next before => rw [List.find?_cons_of_neg (by simpa using Nat.ne_of_lt before), ih]
    · split
      · exact first xs
      · exact first (x :: xs)

theorem Block.kf_setKf (k : KfDir) (b : Block) : (b.setKf k).kf k.id = some k := find?_kfInsert k b.map.kfs

/-- The first keyframe of an absent directory entry is not read. -/
theorem Block.kfReads_absent {b : Block} {id : Nat} (absent : b.kf id = none) : b.kfReads id = [] := by
  rw [Block.kfReads, absent]

theorem Block.hotMove_absent {b : Block} {m : HotMove} (absent : b.kf m.kf = none) : b.hotMove m = b := by
  unfold Block.hotMove
  rw [Block.kfReads_absent absent]
  dsimp only
  rw [show b.readObjects (List.take 1 []) = b from rfl, absent]

theorem Block.mapParcel_payload (kind : MapKind) (a : Nat) (payload : Bytes) (ins : List InRef) (b : Block) :
    (b.mapParcel kind a payload ins).payload = payload := (sealParcel_payload _ _ _ _ _ _ _).2.1

/-- A scrub of the DRAM reaches the lines below the top of it (R564). -/
theorem Block.dramScrub_reaches {a : BitVec 40} {b : Block} (ready : b.boot.phase = .ready) (low : 0x100000000 ≤ a.toNat) (high : a.toNat < b.dramTop) :
    ¬ ((!b.ready || decide (a.toNat < 0x100000000) || decide (b.dramTop ≤ a.toNat)) = true) := by
  have isReady : b.ready = true := by simp [Block.ready, ready]
  rw [isReady, decide_eq_false (Nat.not_lt.2 low), decide_eq_false (Nat.not_le.2 high)]
  decide

/-- Settles O35: by the slot a keyframe leaves, and by what a scrub finds in a line. -/
theorem hotMovesAndScrubs : Obligations.HotMovesAndScrubs := by
  unfold Obligations.HotMovesAndScrubs
  intro s
  refine ⟨fun ms ready few absent => ?_, fun id h ready few known present sorted clean => completes_of_act (f := Block.hotColdMove [⟨id, false⟩]) rfl ?_,
    fun ms off => ?_, fun a => ?_, fun a detects low => ?_, fun a ready low high => ⟨fun l => ?_, ?_, ?_⟩, fun a f l out => ?_, fun ready present => ?_, fun absent => ?_⟩
  · refine State.act_of_eq (f := Block.hotColdMove ms) ?_
    have isReady : s.ready = true := by simp [Block.ready, ready]
    have still : (ms.take (64 - s.map.moved)).foldl (fun b m => b.hotMove m) s.toBlock = s.toBlock :=
      Block.foldl_still fun m mem => Block.hotMove_absent (absent m (List.mem_of_mem_take mem))
    rw [Block.hotColdMove, isReady]
    dsimp only
    rw [if_neg (by decide), still, List.length_take]
  · have isReady : s.ready = true := by simp [Block.ready, ready]
    have run : s.hotColdMove [⟨id, false⟩] = { s.makeCold ⟨id, some h⟩ with
        map := { (s.makeCold ⟨id, some h⟩).map with moved := (s.makeCold ⟨id, some h⟩).map.moved + 1 } } := by
      have one : [(⟨id, false⟩ : HotMove)].take (64 - s.map.moved) = [⟨id, false⟩] := List.take_of_length_le (by simp; omega)
      have moves : s.hotMove ⟨id, false⟩ = s.makeCold ⟨id, some h⟩ := by
        unfold Block.hotMove
        rw [Block.readObjects_clean clean]
        dsimp only
        rw [known]
        rfl
      rw [Block.hotColdMove, isReady]
      dsimp only
      rw [if_neg (by decide), one, List.foldl_cons, List.foldl_nil, moves]
      rfl
    have cold : s.makeCold ⟨id, some h⟩ = (s.storeMap .kfHead (headAddr id) (withHot none (s.object (hotAddr h)))
        ((s.storedAt (hotAddr h)).map Parcel.ref).toList).setKf ⟨id, none⟩ := by
      have here : ((⟨id, some h⟩ : KfDir).hot.isSome && !s.den.dramAbsent) = true := by rw [present]; rfl
      rw [Block.makeCold, if_pos here]
      rfl
    obtain ⟨stored, rest⟩ := Block.storeMap_told (b := s.toBlock) sorted .kfHead (headAddr id) (withHot none (s.object (hotAddr h)))
      ((s.storedAt (hotAddr h)).map Parcel.ref).toList
    have size : (s.mapParcel .kfHead (headAddr id) (withHot none (s.object (hotAddr h)))
        ((s.storedAt (hotAddr h)).map Parcel.ref).toList).stored.length = 320 := by
      rw [Parcel.length_stored, Block.mapParcel_payload, length_withHot]
      rfl
    rw [run, cold]
    generalize s.storeMap .kfHead (headAddr id) (withHot none (s.object (hotAddr h))) ((s.storedAt (hotAddr h)).map Parcel.ref).toList = b1 at *
    obtain ⟨own, others, den⟩ := stored
    refine ⟨find?_kfInsert ⟨id, none⟩ b1.map.kfs, ?_, fun p e => ?_, fun x out => ?_, ?_⟩
    · rw [rest]
      rfl
    · rw [e]
      exact ⟨own, size⟩
    · refine others x ?_
      rw [size]
      exact out
    · obtain ⟨d, host, flt, e⟩ : ∃ d host flt, b1 = { s.toBlock with den := d, host := host, flt := flt } := ⟨_, _, _, rest⟩
      subst e
      obtain ⟨mem, ue, e⟩ : ∃ mem ue, d = { s.den with mem := mem, ue := ue } := ⟨_, _, den⟩
      subst e
      rfl
  · refine State.act_of_eq (f := Block.hotColdMove ms) ?_
    have notReady : s.ready = false := by simp [Block.ready, off]
    rw [Block.hotColdMove, notReady]
    rfl
  · refine State.act_of_eq (f := Block.sramScrub a .clean) ?_
    unfold Block.sramScrub
    dsimp only
    exact ite_self _
  · refine State.act_of_eq (f := Block.sramScrub a .single) ?_
    have here : ¬ ((!s.detects || decide (0x2000000 ≤ a.toNat)) = true) := by rw [detects, decide_eq_false (Nat.not_le.2 low)]; decide
    rw [Block.sramScrub]
    exact if_neg here
  · refine State.act_of_eq (f := Block.dramScrub a .clean l) ?_
    rw [Block.dramScrub]
    exact if_neg (Block.dramScrub_reaches ready low high)
  · refine State.act_of_eq (f := Block.dramScrub a .single true) ?_
    rw [Block.dramScrub]
    exact if_neg (Block.dramScrub_reaches ready low high)
  · refine State.act_of_eq (f := Block.dramScrub a .single false) ?_
    rw [Block.dramScrub]
    exact if_neg (Block.dramScrub_reaches ready low high)
  · refine State.act_of_eq (f := Block.dramScrub a f l) ?_
    have past : (!s.ready || decide (a.toNat < 0x100000000) || decide (s.dramTop ≤ a.toNat)) = true := by rw [decide_eq_true out, Bool.or_true]
    rw [Block.dramScrub]
    exact if_pos past
  · refine State.act_of_eq (f := Block.zqCalibration) ?_
    have here : (s.ready && !s.den.dramAbsent) = true := by rw [present]; simp [Block.ready, ready]
    rw [Block.zqCalibration, if_pos here]
    rfl
  · refine State.act_of_eq (f := Block.zqCalibration) ?_
    have off : ¬ ((s.ready && !s.den.dramAbsent) = true) := by rw [absent]; simp
    rw [Block.zqCalibration, if_neg off]

end Sys2Proof.Machine
end

section
/-! PROOF. A map write stores one parcel (O34; R402, R414 to R420). -/

namespace Sys2Proof.Machine

/-! ### Payloads -/

theorem fit_of_length {n : Nat} {xs : Bytes} (size : xs.length = n) : fit n xs = xs := by
  rw [fit_eq, List.take_of_length_le size.le, size, Nat.sub_self, List.replicate_zero, List.append_nil]

theorem getD_fit {n i : Nat} (inside : i < n) (xs : Bytes) : (fit n xs).getD i 0 = xs.getD i 0 := by
  rw [fit, List.getD_eq_getElem?_getD, List.getElem?_take_of_lt inside, List.getElem?_append, List.getD_eq_getElem?_getD]
  split
  · rfl
  next past =>
    rw [List.getElem?_eq_none (Nat.not_lt.1 past), List.getElem?_replicate]
    split <;> rfl

theorem getD_append_past {i : Nat} {xs : Bytes} (past : xs.length ≤ i) (ys : Bytes) : (xs ++ ys).getD i 0 = ys.getD (i - xs.length) 0 :=
  List.getD_append_right _ _ _ _ past

theorem getD_drop (n i : Nat) (xs : Bytes) : (xs.drop n).getD i 0 = xs.getD (n + i) 0 := by
  rw [List.getD_eq_getElem?_getD, List.getElem?_drop, List.getD_eq_getElem?_getD]

theorem slice_past {off : Nat} {xs : Bytes} (past : xs.length ≤ off) (ys : Bytes) (n : Nat) : slice (xs ++ ys) off n = slice ys (off - xs.length) n := by
  rw [slice, slice, List.drop_append, List.drop_of_length_le past, List.nil_append]

theorem field_past {off : Nat} {xs : Bytes} (past : xs.length ≤ off) (ys : Bytes) (n : Nat) : field (xs ++ ys) off n = field ys (off - xs.length) n := by
  rw [field, slice_past past, field]

theorem field_slice {start off n m : Nat} (inside : off + n ≤ m) (xs : Bytes) : field (slice xs start m) off n = field xs (start + off) n := by
  rw [slice, field_take inside, field, field, slice, slice, List.drop_drop]

theorem slice_replicate (off n m : Nat) (x : Byte) : slice (List.replicate m x) off n = List.replicate (min n (m - off)) x := by
  rw [slice, List.drop_replicate, List.take_replicate]

theorem ofLe_zeros (n : Nat) : ofLe (List.replicate n (0 : Byte)) = 0 := by
  induction n with
  | zero => rfl
  | succ n ih => rw [List.replicate_succ, ofLe, ih]; rfl

theorem field_zeros (off n m : Nat) : field (List.replicate m (0 : Byte)) off n = 0 := by
  rw [field, slice_replicate, ofLe_zeros]

/-- A head's payload as a write gives it: its keyframe, its residence, the rest as written (R415, R423). -/
theorem headPayload_told (hot : Option Nat) (obs id : Nat) (written : Bytes) :
    let pay := withHot hot (withObs obs (leBytes 4 id ++ (fit 256 written).drop 4))
    pay.length = 256 ∧ field pay 0 4 = id % 2 ^ 32 ∧ field pay 4 1 % 2 = hot.isSome.toNat ∧ ∀ i < 256, 112 ≤ i → pay.getD i 0 = written.getD i 0 := by
  set p := leBytes 4 id ++ (fit 256 written).drop 4 with pDef
  set q := withObs obs p with qDef
  have pSize : p.length = 256 := by rw [pDef, List.length_append, length_leBytes, List.length_drop, length_fit]
  have head : (slice p 0 104).length = 104 := by rw [length_slice, pSize]; decide
  have qSize : q.length = 256 := by
    rw [qDef, withObs, List.length_append, List.length_append, head, length_leBytes, List.length_drop, pSize]
  have whole : withHot hot q = slice q 0 4 ++ [BitVec.ofNat 8 (2 * (field q 4 1 / 2) + hot.isSome.toNat)] ++ slice q 5 23 ++ leBytes 2 (hot.getD 0xFFFF) ++ q.drop 30 := by
    rw [withHot, fit_of_length qSize]
  have first : (slice q 0 4).length = 4 := by rw [length_slice, qSize]; decide
  refine ⟨length_withHot _ _, ?_, ?_, fun i inside past => ?_⟩
  · have own : field (leBytes 4 id) 0 4 = id % 2 ^ 32 := by
      rw [field, slice, List.drop_zero, List.take_of_length_le (length_leBytes 4 id).le, ofLe_leBytes]
    rw [whole]
    simp only [List.append_assoc]
    rw [field_prefix first.ge, field_slice (by decide), qDef, withObs]
    simp only [List.append_assoc]
    rw [field_prefix (by rw [head]; decide), field_slice (by decide), pDef, field_prefix (length_leBytes 4 id).ge]
    exact own
  · rw [whole]
    simp only [List.append_assoc]
    rw [field_past first.le, first, Nat.sub_self, field_prefix (Nat.le_refl 1)]
    generalize field q 4 1 / 2 = n
    have bit : hot.isSome.toNat < 2 := Bool.toNat_lt _
    simp only [field, slice, List.drop_zero, List.take_succ_cons, List.take_zero, ofLe, BitVec.toNat_ofNat]
    omega
  · have front : (slice q 0 4 ++ [BitVec.ofNat 8 (2 * (field q 4 1 / 2) + hot.isSome.toNat)] ++ slice q 5 23 ++ leBytes 2 (hot.getD 0xFFFF)).length = 30 := by
      rw [List.length_append, List.length_append, List.length_append, first, length_slice, qSize, length_leBytes]
      rfl
    have front' : (slice p 0 104 ++ leBytes 8 obs).length = 112 := by rw [List.length_append, head, length_leBytes]
    rw [whole, getD_append_past (by rw [front]; omega), front, getD_drop, Nat.add_sub_cancel' (by omega), qDef, withObs,
      getD_append_past (by rw [front']; exact past), front', getD_drop, Nat.add_sub_cancel' past, pDef,
      getD_append_past (by rw [length_leBytes]; omega), length_leBytes, getD_drop, Nat.add_sub_cancel' (by omega), getD_fit inside]

/-! ### What a write leaves -/

/-- A write of the map: the parcel is stored, every other byte of Den is as before, and nothing else changes but the map's directory and what
is told of the write. -/
def Block.Wrote (b t : Block) (p : Parcel) (a : Nat) : Prop :=
  memBytes t.den.mem a p.stored.length = p.stored ∧ (∀ x : Nat, x < a ∨ a + p.stored.length ≤ x → memRead t.den.mem x = memRead b.den.mem x)
    ∧ t = { b with den := { b.den with mem := t.den.mem, ue := t.den.ue }, map := t.map, host := t.host, flt := t.flt, trail := t.trail, fresh := t.fresh }

theorem Block.putMap_wrote {b : Block} (sorted : Memory.wf b.den.mem = true) (kind : MapKind) (a : Nat) (payload : Bytes) (ins : List InRef) :
    b.Wrote (b.putMap kind a payload ins) (b.mapParcel kind a payload ins) a := by
  obtain ⟨⟨own, others, den⟩, rest⟩ := Block.putMap_told sorted kind a payload ins
  refine ⟨own, others, ?_⟩
  rw [← den]
  conv_lhs => rw [rest]
  rw [show (b.putMap kind a payload ins).map = b.map by simp]

theorem Block.Wrote.withMap {b t : Block} {p : Parcel} {a : Nat} (h : b.Wrote t p a) (m : Map) : b.Wrote { t with map := m } p a := by
  obtain ⟨own, others, rest⟩ := h
  refine ⟨own, others, ?_⟩
  conv_lhs => rw [rest]

theorem Block.Wrote.ofMap {b t : Block} {m : Map} {p : Parcel} {a : Nat} (h : ({ b with map := m } : Block).Wrote t p a) : b.Wrote t p a := h

/-- A posting into a bucket that has none takes the first free bytes of the pool (R420). -/
theorem Block.newPosting_room {key id prev : Nat} {ins : List InRef} {b : Block} {a : Nat} (room : b.poolRoom 128 = some a) :
    b.newPosting key id prev ins = ((b.poolTake (a + 128)).putMap .postings a
      (fit 80 (leBytes 2 key ++ leBytes 1 1 ++ [0] ++ leBytes 8 prev ++ leBytes 4 0 ++ leBytes 4 id)) ins).postAt key a 1 := by
  have any : ∀ f, f = Block.newPosting → f key id prev ins b = ((b.poolTake (a + 128)).putMap .postings a
      (fit 80 (leBytes 2 key ++ leBytes 1 1 ++ [0] ++ leBytes 8 prev ++ leBytes 4 0 ++ leBytes 4 id)) ins).postAt key a 1 := by
    intro f hf
    delta Block.newPosting at hf
    subst hf
    beta_reduce
    rw [room]
  exact any _ rfl

/-- A write in READY whose reads have no uncorrectable error is the write of its kind. -/
theorem Block.mapWrite_eq {o : MapObj} {b : Block} (ready : b.ready = true) (clean : b.den.ue = []) :
    b.mapWrite o = match o.kind with
      | .kfHead => b.writeHead o
      | .kfObs => b.writeObs o
      | .points => b.writePoints o
      | .edges => b.writeEdges o
      | .postings => b.writePosting o := by
  unfold Block.mapWrite
  rw [ready, Block.readObjects_clean clean]
  rfl

/-- A page of empty records keeps its number and its count of places. -/
theorem emptyPage (first : Nat) (places : Byte) (n : Nat) :
    fit (8 + n) (leBytes 4 first ++ [places, 0, 0, 0] ++ (List.replicate (8 + n) (0 : Byte)).drop 8)
      = leBytes 4 first ++ [places, 0, 0, 0] ++ List.replicate n 0 := by
  rw [List.drop_replicate, Nat.add_sub_cancel_left]
  refine fit_of_length ?_
  rw [List.length_append, List.length_append, length_leBytes, List.length_replicate]
  rfl

theorem field_emptyPage {first off size n at_ len : Nat} {places : Byte} (past : 8 ≤ off) :
    field (slice (leBytes 4 first ++ [places, 0, 0, 0] ++ List.replicate n 0) off size) at_ len = 0 := by
  have front : (leBytes 4 first ++ [places, 0, 0, 0]).length = 8 := by rw [List.length_append, length_leBytes]; rfl
  rw [slice_past (by rw [front]; exact past), slice_replicate, field_zeros]

theorem newlyValid_none {per first : Nat} {was now : Nat → Bool} (none : ∀ s, now s = false) : newlyValid per first was now = [] := by
  rw [newlyValid]
  refine List.filter_eq_nil_iff.2 fun s _ => ?_
  rw [none s, Bool.false_and]
  decide

/-- A page of no points is written where points are kept (R416, R417). -/
theorem Block.writePoints_empty {o : MapObj} {b : Block} (present : b.den.dramAbsent = false) (below : o.index < 133152)
    (zeros : o.payload = List.replicate 4048 0) :
    let b1 := b.putMap .points (pointsAddr o.index) (leBytes 4 (63 * o.index) ++ [63, 0, 0, 0] ++ List.replicate 4040 0) (o.inputs.map Parcel.ref)
    b.writePoints o = { b1 with map := { b1.map with ptTop := max b1.map.ptTop (63 * o.index + 63) } } := by
  have page : fit 4048 (leBytes 4 (63 * o.index) ++ [63, 0, 0, 0] ++ o.payload.drop 8) = leBytes 4 (63 * o.index) ++ [63, 0, 0, 0] ++ List.replicate 4040 0 := by
    rw [zeros]
    exact emptyPage (63 * o.index) 63 4040
  unfold Block.writePoints
  rw [page]
  generalize hpay : leBytes 4 (63 * o.index) ++ [63, 0, 0, 0] ++ List.replicate 4040 0 = pay
  have empty (s : Nat) : pointValid (slice pay (16 + 64 * (s % 63)) 64) = false := by
    rw [pointValid, ← hpay, field_emptyPage (by omega)]
    rfl
  have past : ¬ 133153 ≤ o.index := by omega
  dsimp only
  rw [newlyValid_none empty, present]
  simp [lowestTaken, past]

/-- A page of no edges is written where edges are kept (R419). -/
theorem Block.writeEdges_empty {o : MapObj} {b : Block} (present : b.den.dramAbsent = false) (below : o.index < 40960)
    (zeros : o.payload = List.replicate 4016 0) :
    let b1 := b.putMap .edges (edgesAddr o.index) (leBytes 4 (50 * o.index) ++ [50, 0, 0, 0] ++ List.replicate 4008 0) (o.inputs.map Parcel.ref)
    b.writeEdges o = { b1 with map := { b1.map with edgeTop := max b1.map.edgeTop (50 * o.index + 50) } } := by
  have page : fit 4016 (leBytes 4 (50 * o.index) ++ [50, 0, 0, 0] ++ o.payload.drop 8) = leBytes 4 (50 * o.index) ++ [50, 0, 0, 0] ++ List.replicate 4008 0 := by
    rw [zeros]
    exact emptyPage (50 * o.index) 50 4008
  unfold Block.writeEdges
  rw [page]
  generalize hpay : leBytes 4 (50 * o.index) ++ [50, 0, 0, 0] ++ List.replicate 4008 0 = pay
  have empty (e : Nat) : edgeValid (slice pay (16 + 80 * (e % 50)) 80) = false := by
    rw [edgeValid, ← hpay, field_emptyPage (by omega)]
    rfl
  have past : ¬ 40960 ≤ o.index := by omega
  dsimp only
  rw [newlyValid_none empty, present]
  simp [lowestTaken, past]

/-- The payload of a bucket's first posting (R420). -/
theorem firstPosting (key id : Nat) :
    fit 80 (leBytes 2 key ++ leBytes 1 1 ++ [0] ++ leBytes 8 0 ++ leBytes 4 0 ++ leBytes 4 id)
      = leBytes 2 key ++ [1, 0] ++ List.replicate 12 0 ++ leBytes 4 id ++ List.replicate 60 0 := by
  rw [fit_eq, List.take_of_length_le (by simp [length_leBytes])]
  simp only [List.length_append, length_leBytes, List.length_cons, List.length_nil]
  congr 1

theorem Block.putMap_map (kind : MapKind) (a : Nat) (payload : Bytes) (ins : List InRef) (b : Block) : (b.putMap kind a payload ins).map = b.map := by simp

/-- The first posting of a bucket opens it. -/
theorem Block.postAt_first {key addr count : Nat} {b : Block} (none : (b.map.buckets.find? fun x => x.key == key) = none) :
    ((b.postAt key addr count).map.buckets.find? fun x => x.key == key) = some ⟨key, [addr], count⟩ := by
  unfold Block.postAt
  rw [none]
  dsimp only
  rw [List.find?_cons, beq_self_eq_true]

theorem Block.postSample_first {key : Nat} {b : Block} (none : (b.map.buckets.find? fun x => x.key == key) = none) (id : Nat) (ins : List InRef) :
    b.postSample key id ins = b.newPosting key id 0 ins := by
  unfold Block.postSample
  rw [none]

/-- Settles O34: the parcel stored is the one sealed, and a write of its bytes leaves every other. -/
theorem mapWrites : Obligations.MapWrites := by
  unfold Obligations.MapWrites
  intro s o sorted ins wrote
  refine ⟨fun off => ?_, fun absent kind => ?_, fun ready clean => ?_⟩
  · refine State.act_of_eq (f := Block.mapWrite o) ?_
    have notReady : s.ready = false := by simp [Block.ready, off]
    rw [Block.mapWrite, notReady]
    rfl
  · refine State.act_of_eq (f := Block.mapWrite o) ?_
    have reads : s.writeReads o = [] := by
      rcases kind with kind | kind <;> rw [Block.writeReads, kind] <;> exact Block.kfReads_absent absent
    unfold Block.mapWrite
    dsimp only
    rw [reads, show s.readObjects [] = s.toBlock from rfl]
    split
    · rfl
    · rcases kind with kind | kind <;> rw [kind]
      · simp only [Block.writeHead, absent]
      · simp only [Block.writeObs, absent, Option.isNone_none, Bool.true_or, if_true]
  · have isReady : s.ready = true := by simp [Block.ready, ready]
    refine ⟨fun k kind known => completes_of_act (f := Block.mapWrite o) rfl ?_, fun present => ⟨fun h kind known head part place => completes_of_act (f := Block.mapWrite o) rfl ?_,
      fun kind below zeros => completes_of_act (f := Block.mapWrite o) rfl ?_, fun kind below zeros => completes_of_act (f := Block.mapWrite o) rfl ?_,
      fun key kind sample none room => completes_of_act (f := Block.mapWrite o) rfl ?_⟩⟩
    · rw [Block.mapWrite_eq isReady clean, kind]
      dsimp only
      rw [Block.writeHead, known]
      dsimp only
      obtain ⟨size, id, hot, same⟩ := headPayload_told k.hot (field (s.object (kfAddr k)) 104 8) k.id o.payload
      refine ⟨_, size, id, hot, same, ?_, Block.putMap_wrote sorted _ _ _ _⟩
      rw [Parcel.length_stored, Block.mapParcel_payload, size]
      rfl
    · have go : ¬ (((s.kf o.index).isNone || s.den.dramAbsent || decide (field h 31 1 ≤ o.sub) || decide (field h 104 8 = 0)) = true) := by
        have some_ : (s.kf o.index).isNone = false := by rw [← Option.not_isSome, known]; rfl
        rw [some_, present, decide_eq_false (Nat.not_le.2 part), decide_eq_false place]
        decide
      rw [Block.mapWrite_eq isReady clean, kind]
      dsimp only
      rw [Block.writeObs, head]
      rw [if_neg go]
      exact Block.putMap_wrote sorted _ _ _ _
    · rw [Block.mapWrite_eq isReady clean, kind]
      dsimp only
      rw [Block.writePoints_empty present below zeros]
      refine ⟨(Block.putMap_wrote sorted _ _ _ _).withMap _, ?_⟩
      dsimp only
      rw [Block.putMap_map]
    · rw [Block.mapWrite_eq isReady clean, kind]
      dsimp only
      rw [Block.writeEdges_empty present below zeros]
      refine ⟨(Block.putMap_wrote sorted _ _ _ _).withMap _, ?_⟩
      dsimp only
      rw [Block.putMap_map]
    · have run : s.writePosting o = s.newPosting key o.index 0 ins := by
        rw [Block.writePosting, if_neg (by rw [present]; decide), sample]
        exact Block.postSample_first none o.index ins
      have place : s.poolRoom 128 = some s.map.poolNext := by
        rw [Block.poolRoom]
        exact if_pos room
      rw [Block.mapWrite_eq isReady clean, kind]
      dsimp only
      rw [run, Block.newPosting_room place, firstPosting]
      refine ⟨((Block.putMap_wrote (b := s.poolTake _) sorted _ _ _ _).withMap _).ofMap, Block.postAt_first ?_⟩
      rw [Block.putMap_map]
      exact none

end Sys2Proof.Machine
end

section
/-! PROOF. A PRIOR command and the parcels that its buffer brings (O29; R314, R135, R481 to R483). -/

namespace Sys2Proof.Machine

/-- A PRIOR whose parcel the AFU has taken, dropped or rejected ends at once (Table 14-6). -/
theorem Block.dmaRead_prior {r : CmdRef} {c : Cmd} {p : Parcel} {b : Block}
    (found : ((b.host.queues.getD r.q {}).cmds.find? fun c => c.id == r.id && b.reading r c) = some c) (op : c.op = 0x40) (heads : c.heads = true)
    (passes : b.hostFault p = none) :
    b.dmaRead r (.parcel p) = (b.takePrior (b.hostSealed p)).1.finish r stOk (b.takePrior (b.hostSealed p)).2 0 0 := by
  rw [Block.dmaRead, found]
  dsimp only
  rw [heads, passes]
  simp [Block.dataPart, op, Block.priorPart]

/-- What the AFU does with a prior of another time base (R135). -/
theorem Block.takePrior_dropped {p : Parcel} {b : Block} (other : field p.payload 4 4 ≠ b.thermos.tbEpoch.toNat) :
    b.takePrior p = (Block.event 0x0008 noUnit (slice p.payload 0 1 ++ [0, 0, 0] ++ slice p.payload 4 4 ++ slice p.payload 8 8)
      { b with afu := { b.afu with dropEpoch := bump b.afu.dropEpoch } }, 0xFF) := by
  rw [Block.takePrior, if_pos other]

/-- A prior that R314 rejects. -/
theorem Block.takePrior_rejected {p : Parcel} {b : Block} (same : field p.payload 4 4 = b.thermos.tbEpoch.toNat) (bad : b.priorCause p.payload ≠ 0) :
    b.takePrior p = (b.rejectPrior (field p.payload 0 1) (b.priorCause p.payload) (field p.payload 8 8) 0, b.priorCause p.payload) := by
  rw [Block.takePrior, if_neg (not_not_intro same), if_pos bad]

/-- A prior that is accepted becomes the newest of its source (R315). -/
theorem Block.takePrior_accepted {p : Parcel} {b : Block} (same : field p.payload 4 4 = b.thermos.tbEpoch.toNat) (good : b.priorCause p.payload = 0) :
    b.takePrior p = ({ b with afu := { b.afu with priors := b.afu.priors.modify (field p.payload 0 1) fun l =>
      (PriorRec.mk (field p.payload 8 8) p.payload p.ref b.now :: l).take 8 } }, 0) := by
  rw [Block.takePrior, if_neg (not_not_intro same), if_neg (not_not_intro good)]

/-- Settles O29: by what becomes of the buffer's one parcel. -/
theorem priorsAndParcels : Obligations.PriorsAndParcels := by
  unfold Obligations.PriorsAndParcels
  intro s r c
  refine ⟨fun starts fields needs has => ?_, fun starts fields needs lacks => ?_, fun none d => ?_,
    fun found op heads => ⟨?_, fun p passes => ⟨fun other => ?_, fun same good => ?_, fun same bad => ?_⟩⟩⟩
  · exact State.act_of_eq (f := Block.prior r) (Block.begin_eq_run _ starts fields needs has)
  · refine State.act_of_eq (f := Block.prior r) ?_
    simp [Block.prior, Block.begin, starts, fields, needs, lacks]
    rfl
  · refine State.act_of_eq (f := Block.dmaRead r d) ?_
    rw [Block.dmaRead, none]
  · refine State.act_of_eq (f := Block.dmaRead r .failed) ?_
    rw [Block.dmaRead, found]
    simp [Block.dataFails, op]
    rfl
  · refine completes_of_act (f := Block.dmaRead r (.parcel p)) rfl ?_
    rw [Block.dmaRead_prior found op heads passes, Block.takePrior_dropped other]
    simp
  · refine completes_of_act (f := Block.dmaRead r (.parcel p)) rfl ?_
    rw [Block.dmaRead_prior found op heads passes, Block.takePrior_accepted same good]
    rfl
  · refine completes_of_act (f := Block.dmaRead r (.parcel p)) rfl ?_
    rw [Block.dmaRead_prior found op heads passes, Block.takePrior_rejected same bad]
    simp [Block.rejectPrior]

end Sys2Proof.Machine
end

section
/-! PROOF. A host job is refused, stale or runs, and its deadline ends it (O32; R355, R361, R382, R388). -/

namespace Sys2Proof.Machine

/-- While tiles are live, no job ends for want of them. -/
theorem Block.jobsWithoutTiles_live {b : Block} (live : b.flt.tiles ≠ 0) : b.jobsWithoutTiles = b := if_neg live

/-- A submitted job stands at the end of the list under the next number (R356). -/
theorem Badger.submit_jobs (j : Job) (x : Badger) : (x.submit j).jobs = x.jobs ++ [{ j with no := x.nextNo }] := rfl

/-- A pose-graph job over a map that is empty reads nothing and is submitted (R355, R388). -/
theorem Block.hostGraph_empty {r : CmdRef} {c : Cmd} {b : Block} (kfs : b.map.kfs = []) (edges : b.map.edgeTop = 0) :
    b.hostGraph r c = b.hostJob r c true [] [] fun j => { j with span := some (c.arg 32 4, c.arg 36 4), unknowns := 0 } := by
  have reads (lo hi : Nat) : b.spanReads lo hi = [] := by rw [Block.spanReads, kfs, edges]; rfl
  have refs (lo hi : Nat) : b.spanRefs lo hi = [] := by rw [Block.spanRefs, kfs]; rfl
  have init (lo hi : Nat) : b.spanInit lo hi = [] := by
    rw [Block.spanInit, Block.spanKfs, kfs, List.filter_nil, List.map_nil, show lastN 65536 ([] : List Nat) = [] from List.drop_nil]
    rfl
  have few (lo hi : Nat) : b.spanEdges lo hi = 0 := by rw [Block.spanEdges, edges]; rfl
  unfold Block.hostGraph
  dsimp only
  rw [reads, show b.readObjects [] = b from rfl, kfs, few, refs, init]
  rfl

/-- A host job that the engine accepts, while tiles are live. -/
theorem Block.hostJob_told {r : CmdRef} {c : Cmd} {pcg : Bool} {ins : List InRef} {init : List (BitVec 32)} {f : Job → Job} {b : Block}
    (live : b.flt.tiles ≠ 0) :
    b.hostJob r c pcg ins init f = Block.stage r .running { b with badger := b.badger.submit (f { b.freshJob (c.arg 24 1) pcg (c.arg 25 1 == 1)
      (if c.arg 28 4 = 0 then none else some (c.order + c.arg 28 4)) ins with host := true, owner := some r, tag := r.id, init := init }) } := by
  unfold Block.hostJob
  exact Block.jobsWithoutTiles_live live

/-- A host job that may carry nothing ends without a result (R382, R390). -/
theorem Block.jobEnd_host {n : Nat} {j : Job} {r : CmdRef} {b : Block} (known : b.job n = some j) (host : j.host = true) (strict : j.carry = false)
    (owner : j.owner = some r) :
    b.jobEnd n .deadline
      = Block.finish r stMiss j.accepted 0 0 { b with badger := Badger.deal { b.badger with jobs := b.badger.jobs.filter fun x => x.no != n } } := by
  have none : j.published .deadline = none := by simp [Job.published, strict]
  unfold Block.jobEnd
  rw [known]
  dsimp only
  rw [if_pos host]
  unfold Block.hostEnd
  rw [none, owner]
  dsimp only
  rw [Block.forCmd_silent fun _ => rfl]
  rfl

/-- A command that ends is finished with its status in its queue (R471). -/
theorem Block.finish_finishes {r : CmdRef} {k : Cmd} {st d r0 r1 : Nat} {b : Block} (known : b.cmd r = some k) :
    ((b.finish r st d r0 r1).host.queues.getD r.q {}).cmds.any (fun x => x.id == r.id && x.stage == .finished && x.status == BitVec.ofNat 16 st) = true := by
  have inside : r.q < b.host.queues.length := by
    by_contra out
    rw [Block.cmd, List.getD_eq_getElem?_getD, List.getElem?_eq_none (Nat.not_lt.1 out)] at known
    simp at known
  obtain ⟨pre, post, -, -, after, -, -⟩ := commandsEnd.1 b r k st d r0 r1 known inside
  have own : k.id = r.id := by
    have found := List.find?_some known
    simp only [Bool.and_eq_true, beq_iff_eq] at found
    exact found.1
  rw [after, List.any_append, List.any_cons]
  simp [own]

/-- Settles O32: by the job's class and slot at its start, and by its deadline's tick. -/
theorem jobsOfBadger : Obligations.JobsOfBadger := by
  unfold Obligations.JobsOfBadger
  intro s r c
  refine ⟨fun starts needs has fields => ?_, fun n j d known deadline => ⟨fun early => ?_, fun due ready host strict owner => ?_⟩, fun n none => ?_⟩
  · have run : s.badgerJob r = if c.arg 25 1 = 1 ∧ c.arg 28 4 = 0 then s.finish r stProblem 0 0 0
        else match c.arg 24 1 with
        | 1 => s.hostGraph r c
        | 2 => s.hostAlign r c
        | _ => s.stage r .running := Block.begin_eq_run _ starts fields needs has
    have other (strict : c.arg 25 1 = 0) : ¬ (c.arg 25 1 = 1 ∧ c.arg 28 4 = 0) := fun ⟨one, _⟩ => by omega
    refine ⟨fun strict none => ?_, fun cls strict => ?_, fun cls strict stale => ?_, fun cls strict kfs edges live => ?_⟩
    · refine State.act_of_eq (f := Block.badgerJob r) ?_
      rw [run, if_pos ⟨strict, none⟩]
      rfl
    · refine completes_of_act (f := Block.badgerJob r) rfl ?_
      rw [run, if_neg (other strict), cls]
      exact ⟨rfl, rfl⟩
    · refine State.act_of_eq (f := Block.badgerJob r) ?_
      have ended : (!(s.guest (c.arg 40 1)).st.accepts || (s.guest (c.arg 40 1)).gen.toNat != c.arg 42 2) = true := by
        rw [bne_iff_ne.2 stale, Bool.or_true]
      rw [run, if_neg (other strict), cls, Block.hostAlign]
      exact if_pos ended
    · refine completes_of_act (f := Block.badgerJob r) rfl ?_
      rw [run, if_neg (other strict), cls]
      dsimp only
      rw [Block.hostGraph_empty kfs edges, Block.hostJob_told live]
      refine ⟨⟨_, Badger.submit_jobs _ _, ?_, rfl, rfl, rfl, rfl, ?_, fun none => ?_, fun some_ => ?_⟩, rfl, rfl⟩
      · exact congrArg (BitVec.ofNat 8) cls
      · exact beq_eq_false_iff_ne.2 (by omega)
      · exact if_pos none
      · exact if_neg some_
  · refine State.act_of_eq (f := Block.badgerDeadline n) ?_
    rw [Block.badgerDeadline, known]
    dsimp only
    rw [deadline]
    dsimp only
    rw [decide_eq_false (Nat.not_le.2 early)]
    rfl
  · refine completes_of_act (f := Block.badgerDeadline n) rfl ?_
    have run : s.badgerDeadline n = s.jobEnd n .deadline := by
      rw [Block.badgerDeadline, known]
      dsimp only
      rw [deadline]
      dsimp only
      rw [decide_eq_true due, show s.ready = true by simp [Block.ready, ready]]
      rfl
    rw [run, Block.jobEnd_host known host strict owner]
    exact ⟨by simp, Block.eq_of_fields (by simp), fun k known => Block.finish_finishes known⟩
  · refine State.act_of_eq (f := Block.badgerDeadline n) ?_
    rw [Block.badgerDeadline, none]

end Sys2Proof.Machine
end

section
/-! PROOF. The VIO problem of an epoch, and VIO's reset (O31; R362, R363, R365, R385). -/

namespace Sys2Proof.Machine

/-! ### What the assembly reads -/

theorem Block.vioVerify_intact {x : VioIn} {b : Block} (reads : x.reads = [])
    (passes : ∀ p : Parcel, b.afu.preint = some p ∨ b.badger.window = some p ∨ p ∈ b.host.pool → sealFault p = none) : b.vioVerify x = (true, b) := by
  rw [Block.vioVerify, reads]
  refine Block.verifyAll_clean (fun p mem => passes p ?_) b
  rcases List.mem_append.1 mem with mem | window
  · rcases List.mem_append.1 mem with preint | held
    · exact .inl (Option.mem_toList.1 preint)
    · exact .inr (.inr (Block.heldParcels_pool held))
  · exact .inr (.inl (Option.mem_toList.1 window))

/-! ### The priors of an epoch -/

/-- What the taking of the priors changes: the AFU's counts, the degraded mark of the epoch, and what is told. -/
def Block.Gates (a b : Block) : Prop :=
  b = { a with
    afu := b.afu, ep := { a.ep with degraded := b.ep.degraded }, host := b.host, flt := { a.flt with traceDrop := b.flt.traceDrop } }

theorem Block.Gates.of_told {a b c : Block} (h : a.Gates b)
    (told : c = { b with
      afu := c.afu, ep := { b.ep with degraded := c.ep.degraded }, host := c.host, flt := { b.flt with traceDrop := c.flt.traceDrop } }) : a.Gates c := by
  unfold Block.Gates at h ⊢
  rw [h] at told
  exact told

theorem Block.Gates.either {a : Block} {c : Prop} [Decidable c] {p q : Block × PriorUse} (hp : a.Gates p.1) (hq : a.Gates q.1) :
    a.Gates (if c then p else q).1 := by
  split
  · exact hp
  · exact hq

theorem Block.limitEvent_gates {a b : Block} (h : a.Gates b) (kind s : Nat) (near tc : Int) : a.Gates (b.limitEvent kind s near tc) := by
  refine h.of_told ?_
  rw [Block.limitEvent, Block.event_parts]

theorem Block.rejectPrior_gates {a b : Block} (h : a.Gates b) (source cause stamp : Nat) (d2 : BitVec 32) : a.Gates (b.rejectPrior source cause stamp d2) := by
  refine h.of_told ?_
  rw [Block.rejectPrior, Block.event_parts]

theorem Block.takePriors_gates (gates : List (BitVec 4 × BitVec 32)) (b : Block) : b.Gates (b.takePriors gates).1 := by
  unfold Block.takePriors
  dsimp only
  refine List.foldlRecOn (motive := fun acc : Block × PriorUse => b.Gates acc.1) _ _ rfl fun acc h s _ => ?_
  split
  · exact h
  · exact Block.limitEvent_gates h _ _ _ _
  · exact Block.Gates.either (Block.rejectPrior_gates h _ _ _ _) h

/-! ### The problem -/

/-- While tiles are live, the assembly of a problem submits its job, and tells of it. -/
theorem Block.assembled_rest (j : Job) (rows landmarks blocks factors : Nat) (still : Bool) {b : Block} (live : b.flt.tiles ≠ 0) :
    let t := (b.assemble j rows landmarks blocks factors still).jobsWithoutTiles
    (∃ p : Option Parcel, t.badger = b.badger.submit { j with rows := rows, marks := landmarks, problem := p })
      ∧ t = { b with badger := t.badger, host := t.host, flt := t.flt, fresh := t.fresh } := by
  have stays : (b.assemble j rows landmarks blocks factors still).jobsWithoutTiles = b.assemble j rows landmarks blocks factors still :=
    Block.jobsWithoutTiles_live live
  rw [stays]
  exact ⟨⟨_, rfl⟩, Block.eq_of_fields (by simp)⟩

/-- The epoch's VIO problem: one job of class 0 at the end of the list, after the window has taken in the newest frame (R363, R365). -/
theorem Block.vioProblem_told (x : VioIn) {b : Block} (live : b.flt.tiles ≠ 0) :
    let t := b.vioProblem x
    (∃ j : Job, t.badger.jobs = b.badger.jobs ++ [j] ∧ j.cls = 0 ∧ j.no = b.badger.nextNo ∧ j.host = false ∧ j.epoch = b.ep.now.toNat
        ∧ j.deadline = some (b.ep.start + b.vioDeadline) ∧ j.carry = b.vioCarry ∧ j.gen = b.cfg.gen)
      ∧ t.badger.vioDone = b.badger.vioDone ∧ t.badger.keyframes ≤ 24 ∧ t.badger.recents ≤ 8
      ∧ t = { b with badger := t.badger, afu := t.afu, ep := { b.ep with degraded := t.ep.degraded }, host := t.host, flt := t.flt, fresh := t.fresh } := by
  set b1 := (b.takePriors x.gates).1 with b1Def
  have gates : b.Gates b1 := Block.takePriors_gates x.gates b
  set b2 : Block := { b1 with
    badger := { b1.badger.takeFrame with pendLoop := false }
    afu := { b1.afu with usedPriors := (b.takePriors x.gates).2.mask, factors := (b.takePriors x.gates).2.factors } } with b2Def
  have same : b2 = { b with
      badger := { b.badger.takeFrame with pendLoop := false }, afu := b2.afu, ep := { b.ep with degraded := b2.ep.degraded }
      host := b2.host, flt := { b.flt with traceDrop := b2.flt.traceDrop } } := by
    rw [b2Def, show b1 = _ from gates]
  have tiles : b2.flt.tiles = b.flt.tiles := by
    rw [same]
  obtain ⟨j, rows, marks, blocks, factors, still, run, cls, host, epoch, deadline, carry, gen⟩ : ∃ (j : Job) (rows marks blocks factors : Nat) (still : Bool),
      b.vioProblem x = (b2.assemble j rows marks blocks factors still).jobsWithoutTiles ∧ j.cls = 0 ∧ j.host = false ∧ j.epoch = b2.ep.now.toNat
        ∧ j.deadline = some (b2.ep.start + b2.vioDeadline) ∧ j.carry = b2.vioCarry ∧ j.gen = b2.cfg.gen :=
    ⟨_, _, _, _, _, _, rfl, rfl, rfl, rfl, rfl, rfl, rfl⟩
  obtain ⟨⟨problem, badger⟩, rest⟩ := Block.assembled_rest j rows marks blocks factors still (b := b2) (by rw [tiles]; exact live)
  rw [run]
  generalize (b2.assemble j rows marks blocks factors still).jobsWithoutTiles = t at *
  clear_value b2
  rw [same] at badger deadline carry gen epoch
  refine ⟨⟨_, (congrArg Badger.jobs badger).trans (Badger.submit_jobs _ _), cls, rfl, host, epoch, deadline, carry, gen⟩,
    (congrArg Badger.vioDone badger).trans rfl, ?_, ?_, ?_⟩
  · rw [badger]
    exact Nat.min_le_left _ _
  · rw [badger]
    exact Nat.min_le_left _ _
  · rw [same] at rest
    rw [rest]

/-! ### The obligation -/

/-- The cameras whose results the epoch has taken; nothing but Fox notes it (R272). -/
theorem Block.foxUsed_told (b : Block) :
    let t := (List.range 6).foldl (fun b c => if (b.owl.gated.getD c none).isSome then b.foxConsume c else b) b
    t = { b with fox := t.fox } := by
  refine List.foldlRecOn (motive := fun t : Block => t = { b with fox := t.fox }) _ _ rfl fun t h c _ => ?_
  split
  · have told : t.foxConsume c = { t with fox := (t.foxConsume c).fox } := Block.eq_of_fields (by simp)
    obtain ⟨fox, e⟩ : ∃ fox, t = { b with fox := fox } := ⟨_, h⟩
    subst e
    exact told
  · exact h

/-- The assembly of an epoch whose inputs are there and verify (R362, R363). -/
theorem Block.vioAssembly_eq {x : VioIn} {b : Block} (ready : b.boot.phase = .ready) (running : b.ep.running = true) (fresh : b.badger.vioDone = false)
    (free : b.badger.asmHeld = false) (preint : b.afu.preintDone = true) (tracks : b.tracksReady = true)
    (passes : ∀ p : Parcel, b.afu.preint = some p ∨ b.badger.window = some p ∨ p ∈ b.host.pool → sealFault p = none) (reads : x.reads = []) :
    let b3 : Block := { b.vioInitStep with badger := { b.vioInitStep.badger with vioDone := true } }
    b.vioAssembly x = (List.range 6).foldl (fun b c => if (b.owl.gated.getD c none).isSome then b.foxConsume c else b)
      (if b3.badger.vioInit then b3.vioProblem x else b3) := by
  have runs : (b.ready && b.ep.running && !b.badger.vioDone && !b.badger.asmHeld && b.afu.preintDone && b.tracksReady) = true := by
    rw [running, fresh, free, preint, tracks]
    simp [Block.ready, ready]
  rw [Block.vioAssembly, if_pos runs, Block.vioVerify_intact reads passes]

/-- Before initialisation and before its eighth frame, the epoch's frame is noted alone (R362). -/
theorem Block.vioInitStep_early {b : Block} (before : b.badger.vioInit = false) (few : b.badger.initFrames.length < 7) :
    ∃ fs, b.vioInitStep = { b with badger := { b.badger with initFrames := fs } } := by
  unfold Block.vioInitStep
  rw [before]
  extract_lets t tracked fs ok
  have short : fs.length ≤ 7 := by
    have grown : fs.length = 0 ∨ fs.length = b.badger.initFrames.length + 1 ∨ fs.length = b.badger.initFrames.length := by
      simp only [fs]
      split
      · exact .inl rfl
      · split
        · exact .inr (.inl (List.length_append ..))
        · exact .inr (.inr rfl)
    omega
  have notYet : ok = false := by
    simp only [ok]
    rw [decide_eq_false (by omega), Bool.false_and]
  clear_value ok fs
  subst notYet
  refine ⟨fs, ?_⟩
  rw [if_neg (by decide), if_neg (by decide), ← before]

/-- Settles O31: by what the epoch has assembled, and by the count of dry epochs. -/
theorem vioProblems : Obligations.VioProblems := by
  unfold Obligations.VioProblems
  intro s x
  refine ⟨fun off => ?_, fun ready running fresh free preint tracks passes reads => ⟨fun before few => ?_, fun after live => ?_⟩,
    fun ready after dry => ?_, fun early => ?_⟩
  · refine State.act_of_eq (f := Block.vioAssembly x) ?_
    have waits : ¬ ((s.ready && s.ep.running && !s.badger.vioDone && !s.badger.asmHeld && s.afu.preintDone && s.tracksReady) = true) := by
      rcases off with off | off | off <;> rw [off] <;> simp
    rw [Block.vioAssembly, if_neg waits]
  · refine completes_of_act (f := Block.vioAssembly x) rfl ?_
    rw [Block.vioAssembly_eq ready running fresh free preint tracks passes reads]
    obtain ⟨fs, step⟩ := Block.vioInitStep_early before few
    rw [step]
    dsimp only
    rw [if_neg (by rw [before]; decide)]
    rw [Block.foxUsed_told]
    exact ⟨rfl, rfl⟩
  · refine completes_of_act (f := Block.vioAssembly x) rfl ?_
    have init : s.vioInitStep = s.toBlock := by rw [Block.vioInitStep, after]; rfl
    rw [Block.vioAssembly_eq ready running fresh free preint tracks passes reads, init]
    dsimp only
    rw [if_pos after]
    obtain ⟨job, done, keyframes, recents, rest⟩ := Block.vioProblem_told x (b := { s.toBlock with badger := { s.badger with vioDone := true } }) live
    generalize Block.vioProblem x { s.toBlock with badger := { s.badger with vioDone := true } } = b1 at *
    rw [Block.foxUsed_told]
    refine ⟨done, job, keyframes, recents, ?_⟩
    rw [rest]
  · refine completes_of_act (f := Block.vioReset) rfl ?_
    have runs : (s.ready && s.badger.vioInit && decide (s.carryLimit ≤ s.badger.dryEpochs)) = true := by
      rw [after, decide_eq_true dry]
      simp [Block.ready, ready]
    rw [Block.vioReset, if_pos runs]
    rw [Block.event_parts]
    exact ⟨rfl, rfl, rfl, rfl, rfl, rfl, rfl, rfl⟩
  · refine State.act_of_eq (f := Block.vioReset) ?_
    simp only [Block.vioReset, decide_eq_false (Nat.not_le.2 early), Bool.and_false, Bool.false_eq_true, if_false]

end Sys2Proof.Machine
end

section
/-! PROOF. What the sealing of parcels and the ends of commands leave: all but the host's side and the count of dropped trace records. -/

namespace Sys2Proof.Machine

/-- Parcels are sealed and told, commands move on, and nothing else changes. -/
def Block.Emits (a b : Block) : Prop := b = { a with host := b.host, flt := { a.flt with traceDrop := b.flt.traceDrop } }

namespace Block.Emits

variable {a b c : Block}

theorem refl (a : Block) : a.Emits a := rfl

theorem trans (ab : a.Emits b) (bc : b.Emits c) : a.Emits c := by
  unfold Block.Emits at ab bc ⊢
  rw [ab] at bc
  exact bc

theorem either {p : Prop} [Decidable p] (hb : a.Emits b) (hc : a.Emits c) : a.Emits (if p then b else c) := by
  split
  · exact hb
  · exact hc

theorem foldl {α : Type} {f : Block → α → Block} {l : List α} (h : a.Emits b) (step : ∀ b x, a.Emits b → a.Emits (f b x)) : a.Emits (l.foldl f b) := by
  induction l generalizing b with
  | nil => exact h
  | cons x l ih => exact ih (step b x h)

theorem emit (h : a.Emits b) {st : Nat} {type : BitVec 16} {unit : BitVec 8} {payload : Bytes} {ins : List InRef} :
    a.Emits (b.emit st type unit payload ins) := h.trans (by unfold Block.Emits; rw [emit_eq])

theorem flow (h : a.Emits b) {stream type : Nat} {unit : BitVec 8} {payload : Bytes} {ins : List InRef} :
    a.Emits (b.flow stream type unit payload ins) := h.trans rfl

theorem sealOnly (h : a.Emits b) {type : Nat} {unit : BitVec 8} {payload : Bytes} {ins : List InRef} :
    a.Emits (b.sealOnly type unit payload ins) := h.trans rfl

theorem event (h : a.Emits b) {code : Nat} {source : BitVec 8} {body : Bytes} : a.Emits (b.event code source body) :=
  h.trans (by unfold Block.Emits; rw [Block.event_parts])

theorem withCmd (h : a.Emits b) {r : CmdRef} {f : Cmd → Cmd} : a.Emits (b.withCmd r f) := h.trans rfl

theorem stage (h : a.Emits b) {r : CmdRef} {st : Stage} : a.Emits (b.stage r st) := h.withCmd

theorem finish (h : a.Emits b) {r : CmdRef} {st d r0 r1 : Nat} : a.Emits (b.finish r st d r0 r1) :=
  h.trans (Block.eq_of_fields (by simp))

theorem forCmd {r : CmdRef} {f : Block → Block} (h : a.Emits (f b)) : a.Emits (b.forCmd r f) := h.withCmd

end Block.Emits

end Sys2Proof.Machine
end

section
/-! PROOF. Owl's loads, scores and losses (O30; R324 to R327, R344 to R352, R571). -/

namespace Sys2Proof.Machine

/-! ### Results -/

/-- Counting a slot's records changes the slots alone. -/
theorem Block.countRecs_eq (s : Nat) (recs : List OwlRec) (b : Block) :
    b.countRecs s recs = { b with owl := { b.owl with slots := (b.countRecs s recs).owl.slots } } := rfl

/-- The first sample's entry marks the job at the head, and nothing else of the list. -/
theorem Block.owlEnter_nos (b : Block) : b.owlEnter.owl.jobs.map OwlJob.no = b.owl.jobs.map OwlJob.no
    ∧ b.owlEnter.owl = { b.owl with jobs := b.owlEnter.owl.jobs } ∧ b.owlEnter = { b with owl := b.owlEnter.owl, host := b.owlEnter.host }
    ∧ ∀ j ∈ b.owlEnter.owl.jobs, ∃ i ∈ b.owl.jobs, j.slot = i.slot := by
  unfold Block.owlEnter
  split
  next none => exact ⟨rfl, rfl, rfl, fun j mem => ⟨j, mem, rfl⟩⟩
  next j js jobs =>
    split
    · exact ⟨rfl, rfl, rfl, fun j mem => ⟨j, mem, rfl⟩⟩
    · have marks : ∀ i ∈ { j with entered := true } :: js, ∃ k ∈ b.owl.jobs, i.slot = k.slot := fun i mem => by
        rw [jobs]
        rcases List.mem_cons.1 mem with e | mem
        · exact ⟨j, List.mem_cons_self, by rw [e]⟩
        · exact ⟨i, List.mem_cons_of_mem _ mem, rfl⟩
      have nos : ({ j with entered := true } :: js).map OwlJob.no = b.owl.jobs.map OwlJob.no := by rw [jobs]; rfl
      dsimp only
      split
      · exact ⟨nos, rfl, rfl, marks⟩
      · exact ⟨nos, rfl, rfl, marks⟩

/-- A use scored on a slot that has a model: one record for each sample; besides, the slots' counters and what is told (R344, R354). -/
theorem Block.engineScore_told {slot use : Nat} {samples : List Sample} {ins : List InRef} {b : Block} {m : Bytes} (model : b.slotModel slot = some m) :
    let r := b.engineScore slot use samples ins
    r.2.1 = (samples.zipIdx).map (fun (x, i) => scoreSample m (BitVec.ofNat 32 (owlIn b.cfg.active slot 28 4)) i x.raw)
      ∧ (b.countRecs slot r.2.1).Emits r.1 := by
  unfold Block.engineScore
  rw [model]
  refine ⟨rfl, ?_⟩
  dsimp only
  refine List.foldlRecOn (motive := fun acc : Block × List InRef => (b.countRecs slot _).Emits acc.1) _ _ (Block.Emits.refl _) fun acc h p _ => ?_
  exact Block.Emits.either h.flow.emit h.flow

/-- Without jobs, no sample of a job enters. -/
theorem Block.owlEnter_idle {b : Block} (idle : b.owl.jobs = []) : b.owlEnter = b := Block.owlEnter_still (by simp [idle])

/-! ### The records of a host job -/

/-- The job's last record seals what it has and ends the job (R344, R351). -/
theorem Block.owlRecord_last {thread : Nat} {j : OwlJob} {x : OwlRec} {js : List OwlJob} {b : Block} (jobs : b.owl.jobs = j :: js)
    (last : j.done.length + 1 = j.samples.length) :
    let t := b.owlRecord thread j x
    t.owl.jobs.map OwlJob.no = (js.filter fun k => k.no != j.no).map OwlJob.no
      ∧ t = { b with
        owl := { b.owl with jobs := t.owl.jobs, slots := t.owl.slots }, host := t.host, flt := { b.flt with traceDrop := t.flt.traceDrop } } := by
  have isLast : (j.done.length + 1 == j.samples.length) = true := by rw [last]; exact beq_self_eq_true _
  obtain ⟨b2, emits, run⟩ : ∃ b2, (b.countRecs j.slot [x]).Emits b2 ∧ b.owlRecord thread j x
      = (match j.owner with
        | some r => Block.finish r stOk j.samples.length 0 0 { b2 with owl := { b2.owl with jobs := b2.owl.jobs.filter fun k => k.no != j.no } }
        | none => { b2 with owl := { b2.owl with jobs := b2.owl.jobs.filter fun k => k.no != j.no } }).owlEnter := by
    unfold Block.owlRecord
    dsimp only
    rw [isLast]
    simp only [Bool.true_or, if_true]
    refine ⟨_, ?_, rfl⟩
    have seals (c : Block) : c.Emits ((owlPayloads j.slot j.use j.gen.toNat j.tag.toNat (j.recs ++ [x])).foldl
        (fun b p => b.emit 4 0x0502 (threadUnit thread) p (j.refsOf ((j.recs ++ [x]).map fun x => x.index.toNat))) c) :=
      (Block.Emits.refl c).foldl fun _ _ h => h.emit
    split
    · exact (seals _).forCmd
    · exact seals _
  have emitted : b2 = { b with
      owl := { b.owl with slots := (b.countRecs j.slot [x]).owl.slots }, host := b2.host, flt := { b.flt with traceDrop := b2.flt.traceDrop } } := emits
  set b3 : Block := { b2 with owl := { b2.owl with jobs := b2.owl.jobs.filter fun k => k.no != j.no } } with b3Def
  have left : b3.owl.jobs = js.filter fun k => k.no != j.no := by
    rw [b3Def, emitted]
    refine (congrArg (List.filter _) jobs).trans ?_
    rw [List.filter_cons, bne_self_eq_false, if_neg (by decide)]
  have ends : b3.Emits (match j.owner with
      | some r => b3.finish r stOk j.samples.length 0 0
      | none => b3) := by
    split
    · exact (Block.Emits.refl b3).finish
    · exact Block.Emits.refl b3
  rw [run]
  generalize (match j.owner with
      | some r => b3.finish r stOk j.samples.length 0 0
      | none => b3) = b4 at *
  obtain ⟨nos, owl, rest, -⟩ := b4.owlEnter_nos
  have same : b4.owl = b3.owl := by rw [show b4 = _ from ends]
  refine ⟨by rw [nos, same, left], ?_⟩
  obtain ⟨jobs4, slots4, host4, drop4, told⟩ : ∃ jobs4 slots4 host4 drop4, b4 = { b with
      owl := { b.owl with jobs := jobs4, slots := slots4 }, host := host4, flt := { b.flt with traceDrop := drop4 } } :=
    ⟨b3.owl.jobs, b3.owl.slots, b4.host, b4.flt.traceDrop, by rw [show b4 = _ from ends, b3Def, emitted]⟩
  generalize b4.owlEnter = t at *
  subst told
  obtain ⟨owlT, hostT, told⟩ : ∃ owlT hostT, t = { b with
      owl := owlT, host := hostT, flt := { b.flt with traceDrop := drop4 } } := ⟨_, _, rest⟩
  subst told
  obtain ⟨jobsT, told⟩ : ∃ jobsT, owlT = { b.owl with jobs := jobsT, slots := slots4 } := ⟨_, owl⟩
  subst told
  rfl

/-- Another record joins its job's open parcel, which has room for more (R344). -/
theorem Block.owlRecord_more {thread : Nat} {j : OwlJob} {x : OwlRec} {js : List OwlJob} {b : Block} (jobs : b.owl.jobs = j :: js)
    (more : j.done.length + 1 ≠ j.samples.length) (room : (j.recs.length + 2) * x.bytes.length ≤ 4080) (apart : ∀ k ∈ js, k.no ≠ j.no) :
    let t := b.owlRecord thread j x
    t.owl.jobs = { j with done := x.index.toNat :: j.done, recs := j.recs ++ [x] } :: js
      ∧ t = { b with owl := { b.owl with jobs := t.owl.jobs, slots := t.owl.slots } } := by
  have notLast : (j.done.length + 1 == j.samples.length) = false := beq_eq_false_iff_ne.2 more
  have notFull : decide (4080 < ((j.recs ++ [x]).length + 1) * x.bytes.length) = false := by
    rw [List.length_append]
    exact decide_eq_false (Nat.not_lt.2 room)
  have others : js.map (fun k => if k.no == j.no then { k with done := x.index.toNat :: j.done, recs := j.recs ++ [x] } else k) = js := by
    refine (List.map_congr_left fun k mem => ?_).trans (List.map_id js)
    rw [if_neg (by simpa using apart k mem)]
    rfl
  have run : b.owlRecord thread j x = { b.countRecs j.slot [x] with owl := { (b.countRecs j.slot [x]).owl with
      jobs := b.owl.jobs.map fun k => if k.no == j.no then { k with done := x.index.toNat :: j.done, recs := j.recs ++ [x] } else k } } := by
    unfold Block.owlRecord
    dsimp only
    rw [notLast, notFull]
    rfl
  rw [run]
  refine ⟨?_, rfl⟩
  dsimp only
  rw [jobs, List.map_cons, others, if_pos (beq_self_eq_true _)]

/-- The job at the head whose first sample has entered is as it is. -/
theorem Block.owlEnter_entered {b : Block} {j : OwlJob} {js : List OwlJob} (jobs : b.owl.jobs = j :: js) (entered : j.entered = true) : b.owlEnter = b := by
  rw [Block.owlEnter, jobs]
  dsimp only
  rw [entered]
  rfl

/-- A live thread that is free for host jobs completes a sample of the job at the head (R336, R337). -/
theorem Block.owlSampleResult_eq {b : Block} {j : OwlJob} {js : List OwlJob} {th : Fin 32} {i : Nat} {x : Sample} (jobs : b.owl.jobs = j :: js)
    (entered : j.entered = true) (live : b.flt.threads.getLsbD th = true) (free : b.threadsForHost = true) (may : j.mayEnd i = true)
    (sample : j.samples[i]? = some x) : b.owlSampleResult th i = b.owlRecord th j (scoreSample j.model j.threshold i x.raw) := by
  have goes : ¬ ((!j.entered || !b.threadsForHost || !b.flt.threads.getLsbD th || !j.mayEnd i) = true) := by
    rw [entered, free, live, may]
    decide
  unfold Block.owlSampleResult
  dsimp only
  rw [Block.owlEnter_entered jobs entered, jobs]
  dsimp only [List.head?_cons]
  rw [if_neg goes, sample]

/-- In an island that runs, with no host jobs, a use is scored alone. -/
theorem Block.owlEngineScore_eq {u : OwlUse} {x : OwlIn} {b : Block} (runs : b.unitsRun 6 = true) :
    b.owlEngineScore u x = Block.owlEnter (match u with
      | .gate => b.gateScore x
      | .keyframe => b.keyframeScore x
      | .cull => b.cullScore x
      | .loop => b.loopScore x
      | .motion => b.motionScore x) := by
  unfold Block.owlEngineScore
  rw [runs]
  rfl

/-- The motion class is scored from the newest PREINT: the class of its record, when that passes (R366). -/
theorem Block.motionScore_told {n : Nat} {m : Bytes} {x : OwlIn} {b : Block} (used : b.useSlot 5 = some n) (model : b.slotModel n = some m)
    (preint : b.afu.preintDone = true) (fresh : b.owl.motionDone = false) (reads : x.reads = []) (passes : ∀ p ∈ b.host.pool, sealFault p = none) :
    let x0 := scoreSample m (BitVec.ofNat 32 (owlIn b.cfg.active n 28 4)) 0 (b.motionRaw x)
    ∃ b1 refs, (b.countRecs n [x0]).Emits b1 ∧ b.motionScore x = { b1 with owl := { b1.owl with
      motion := ((some x0).filter OwlRec.pass).map OwlRec.cls, motionDone := true, gateRefs := b1.owl.gateRefs ++ refs } } := by
  have goes : ¬ ((!b.afu.preintDone || b.owl.motionDone) = true) := by rw [preint, fresh]; decide
  have verified (ins : List InRef) : b.engineVerify x ins = (true, b) := by
    rw [Block.engineVerify, reads]
    exact Block.verifyRefs_clean passes _ _
  unfold Block.motionScore
  rw [used]
  dsimp only
  rw [if_neg goes, verified]
  dsimp only
  generalize (b.afu.preint.map Parcel.ref).toList ++ (b.solution.map Parcel.ref).toList = ins
  obtain ⟨recs, emits⟩ := Block.engineScore_told (slot := n) (use := 5) (samples := [{ raw := b.motionRaw x, key := 0 }]) (ins := ins) (b := b) model
  rw [recs] at emits
  refine ⟨(b.engineScore n 5 [{ raw := b.motionRaw x, key := 0 }] ins).1, (b.engineScore n 5 [{ raw := b.motionRaw x, key := 0 }] ins).2.2, emits, ?_⟩
  rw [recs]
  rfl

/-- A slot whose reload fails is lost, and its jobs with it (R571). -/
theorem Block.nodeUe_told {n : Fin 8} {b : Block} (detects : b.detects = true) :
    let t := b.nodeUe n false
    (∀ x, t.owl.slots[n.val]? = some x → x.lost = true) ∧ ∀ j ∈ t.owl.jobs, j.slot ≠ n := by
  have goes : ¬ ((!b.detects || false) = true) := by rw [detects]; decide
  obtain ⟨b4, owl, run⟩ : ∃ b4 : Block, b4.owl = { b.poolFault.owl with
      slots := b.poolFault.owl.slots.modify n fun s => { s with lost := true }
      jobs := b.poolFault.owl.jobs.filter fun j => j.slot != n.val } ∧ b.nodeUe n false = b4.owlEnter := by
    unfold Block.nodeUe
    rw [if_neg goes]
    refine ⟨_, ?_, rfl⟩
    refine (Block.foldl_keeps Block.owl (fun b j => ?_) _ _).trans (by simp)
    split <;> simp
  obtain ⟨-, same, -, slots⟩ := b4.owlEnter_nos
  rw [run]
  refine ⟨fun x found => ?_, fun j mem => ?_⟩
  · rw [same, owl] at found
    dsimp only at found
    rw [List.getElem?_modify_eq] at found
    obtain ⟨y, -, e⟩ := Option.map_eq_some_iff.1 found
    rw [← e]
  · obtain ⟨i, mem, slot⟩ := slots j mem
    rw [owl] at mem
    rw [slot]
    have kept := (List.mem_filter.1 mem).2
    exact bne_iff_ne.1 kept

/-- An event tells the same whatever Owl holds. -/
theorem Block.event_tells_owl (code : Nat) (source : BitVec 8) (body : Bytes) (o : Owl) (b : Block) :
    Tells code source body b (Block.event code source body { b with owl := o }) := by
  have same : Block.event code source body { b with owl := o } = { b.event code source body with owl := o } := by
    simp only [Block.event, Block.emit]
    split
    · rfl
    · rfl
  rw [same]
  exact ⟨rfl, rfl⟩

/-! ### The obligation -/

/-- Settles O30: by the state of the slot, the thread and the job at the head of the list. -/
theorem owlScoring : Obligations.OwlScoring := by
  unfold Obligations.OwlScoring
  intro s r c
  refine ⟨fun starts fields needs has => ⟨fun enabled => ?_, fun off notArmed notChecking => ?_⟩, fun starts fields needs has => ⟨fun none => ?_, fun some_ live => ?_⟩,
    fun th i j js jobs entered => ⟨fun off => ?_, fun x live free may sample => ⟨fun last => ?_, fun more room apart => ?_⟩⟩,
    fun runs idle x => ⟨fun unused => ⟨?_, ?_⟩, fun n m used model preint fresh reads passes => ?_, fun unused => ?_, fun unused => ?_, fun unused ready ungated => ?_,
      fun unused solved fresh clean default_ => ?_⟩,
    fun cam ready held ungated unused idle late => ?_, fun cam early => ?_, fun n => ?_, fun n detects => ?_⟩
  · refine State.act_of_eq (f := Block.owlModelLoad r) ?_
    rw [Block.owlModelLoad, Block.begin_eq_run _ starts fields needs has]
    exact if_pos enabled
  · refine completes_of_act (f := Block.owlModelLoad r) rfl ?_
    have free : ¬ ((s.cfg.shadowState == .armed || s.cfg.shadowState == .checking) = true) := by simp [notArmed, notChecking]
    rw [Block.owlModelLoad, Block.begin_eq_run _ starts fields needs has]
    dsimp only
    rw [if_neg off, if_neg free]
    exact ⟨rfl, rfl, rfl, rfl⟩
  · refine State.act_of_eq (f := Block.owlScore r) ?_
    rw [Block.owlScore, Block.begin_eq_run _ starts fields needs has]
    rw [none]
    rfl
  · refine completes_of_act (f := Block.owlScore r) rfl ?_
    have runs : ¬ (((s.slotModel (c.arg 24 1)).isNone || decide (s.flt.threads = 0)) = true) := by
      rw [decide_eq_false live, ← Option.not_isSome, some_]
      decide
    rw [Block.owlScore, Block.begin_eq_run _ starts fields needs has]
    dsimp only
    rw [if_neg runs]
    exact ⟨rfl, rfl⟩
  · refine State.act_of_eq (f := Block.owlSampleResult th i) ?_
    have waits : (!j.entered || !s.threadsForHost || !s.flt.threads.getLsbD th || !j.mayEnd i) = true := by
      rcases off with off | off <;> rw [off] <;> simp
    unfold Block.owlSampleResult
    dsimp only
    rw [Block.owlEnter_entered jobs entered, jobs]
    exact if_pos waits
  · refine completes_of_act (f := Block.owlSampleResult th i) rfl ?_
    rw [Block.owlSampleResult_eq jobs entered live free may sample]
    exact Block.owlRecord_last jobs last
  · refine completes_of_act (f := Block.owlSampleResult th i) rfl ?_
    rw [Block.owlSampleResult_eq jobs entered live free may sample]
    exact Block.owlRecord_more jobs more room apart
  · rw [Block.motionClass, unused]
    rfl
  · refine State.act_of_eq (f := Block.owlEngineScore .motion x) ?_
    rw [Block.owlEngineScore_eq runs]
    dsimp only
    rw [Block.motionScore, unused, Block.owlEnter_idle idle]
  · refine completes_of_act (f := Block.owlEngineScore .motion x) rfl ?_
    obtain ⟨b1, refs, emits, run⟩ := Block.motionScore_told (b := s.toBlock) used model preint fresh reads passes
    have told : b1 = { s.toBlock with
        owl := { s.owl with slots := b1.owl.slots }, host := b1.host, flt := { s.flt with traceDrop := b1.flt.traceDrop } } := by
      rw [show b1 = _ from emits]
      rfl
    rw [Block.owlEngineScore_eq runs]
    dsimp only
    rw [run, Block.owlEnter_idle]
    · refine ⟨rfl, rfl, ?_⟩
      rw [told]
    · rw [told]
      exact idle
  · refine State.act_of_eq (f := Block.owlEngineScore .cull x) ?_
    rw [Block.owlEngineScore_eq runs]
    dsimp only
    rw [Block.cullScore, unused, Block.owlEnter_idle idle]
  · refine State.act_of_eq (f := Block.owlEngineScore .loop x) ?_
    rw [Block.owlEngineScore_eq runs]
    dsimp only
    rw [Block.loopScore, unused, Block.owlEnter_idle idle]
  · refine completes_of_act (f := Block.owlEngineScore .gate x) rfl ?_
    have waits : ¬ (((s.foxReady x.cam).isNone || (s.owl.gated.getD x.cam none).isSome) = true) := by
      rw [← Option.not_isSome, ready, ungated]
      decide
    rw [Block.owlEngineScore_eq runs]
    dsimp only
    rw [Block.gateScore]
    dsimp only
    rw [if_neg waits, unused]
    dsimp only
    rw [List.append_nil, Block.owlEnter_idle]
    · exact ⟨rfl, rfl⟩
    · exact idle
  · refine State.act_of_eq (f := Block.owlEngineScore .keyframe x) ?_
    have waits : ¬ ((!s.solvedNow || s.badger.keyDone) = true) := by rw [solved, fresh]; decide
    rw [Block.owlEngineScore_eq runs]
    dsimp only
    rw [Block.keyframeScore, Block.readObjects_clean clean]
    dsimp only
    rw [if_neg waits, unused]
    dsimp only
    rw [default_, Block.keyframeDecided, if_neg (by decide)]
    exact Block.owlEnter_idle idle
  · refine completes_of_act (f := Block.owlGateLate cam) rfl ?_
    have goes : (s.ready && (s.foxReady cam).isSome && (s.owl.gated.getD cam none).isNone && decide (s.ep.start + s.foxCutoff + 250000 ≤ s.now)) = true := by
      rw [held, ungated, decide_eq_true late]
      simp [Block.ready, ready]
    rw [Block.owlGateLate, if_pos goes]
    dsimp only
    rw [unused]
    dsimp only
    rw [Block.owlEnter_idle]
    · exact ⟨by simp, Block.event_tells_owl _ _ _ _ _, Block.eq_of_fields (by simp)⟩
    · simpa using idle
  · refine State.act_of_eq (f := Block.owlGateLate cam) ?_
    simp only [Block.owlGateLate, decide_eq_false (Nat.not_le.2 early), Bool.and_false, Bool.false_eq_true, if_false]
  · refine State.act_of_eq (f := Block.nodeUe n true) ?_
    rw [Block.nodeUe, Bool.or_true]
    rfl
  · exact completes_of_act (f := Block.nodeUe n false) rfl (Block.nodeUe_told detects)

end Sys2Proof.Machine
end

section
/-! PROOF. The Fox lanes: a band's start and its seal, and the cut-off (O27; R271 to R277, R289 to R296). -/

namespace Sys2Proof.Machine

/-- An event tells the same whatever Fox holds and whether the epoch is degraded. -/
theorem Block.event_tells_fox (code : Nat) (source : BitVec 8) (body : Bytes) (x : Fox) (d : Bool) (b : Block) :
    Tells code source body b (Block.event code source body { b with fox := x, ep := { b.ep with degraded := d } }) := by
  have same : Block.event code source body { b with fox := x, ep := { b.ep with degraded := d } } = { b.event code source body with fox := x, ep := { b.ep with degraded := d } } := by
    simp only [Block.event, Block.emit]
    split
    · rfl
    · rfl
  rw [same]
  exact ⟨rfl, rfl⟩

/-! ### A lane seals a band -/

/-- A lane whose lines all verify notes nothing of them (R174). -/
theorem Block.verifyLines_intact {lane cam : Nat} {f : FoxFrame} {x : Band} {b : Block} (passes : ∀ p ∈ b.host.pool, sealFault p = none) :
    b.verifyLines lane cam f x [] = b := by
  refine Block.foldl_still fun i _ => Block.foldl_still fun p mem => ?_
  rw [show readAs [] p = .intact from rfl, Block.verify_intact (passes p (List.mem_filter.1 mem).1)]
  rfl

/-- Parcels of one flow that are sealed one after the other: each stands in the pool, and each is referred to. -/
def Block.flows (stream type : Nat) (unit : BitVec 8) (ins : List InRef) (l : List Bytes) (acc : Block × List InRef) : Block × List InRef :=
  l.foldl (fun acc p => (acc.1.flow stream type unit p ins, acc.2 ++ [(acc.1.flowParcel stream type unit p ins).ref])) acc

theorem Block.flows_told (stream type : Nat) (unit : BitVec 8) (ins : List InRef) (l : List Bytes) (acc : Block × List InRef) :
    let r := Block.flows stream type unit ins l acc
    acc.1.Emits r.1 ∧ r.2.length = acc.2.length + l.length ∧ (∀ p ∈ acc.1.host.pool, p ∈ r.1.host.pool)
      ∧ ∀ pl ∈ l, ∃ p ∈ r.1.host.pool, p.type = BitVec.ofNat 16 type ∧ p.payload = pl ∧ p.producer = unit ∧ p.stream = BitVec.ofNat 8 stream := by
  induction l generalizing acc with
  | nil => exact ⟨Block.Emits.refl _, rfl, fun _ mem => mem, fun _ mem => by simp at mem⟩
  | cons pl l ih =>
    set next : Block × List InRef := (acc.1.flow stream type unit pl ins, acc.2 ++ [(acc.1.flowParcel stream type unit pl ins).ref]) with e
    obtain ⟨emits, size, keeps, each⟩ := ih next
    have pool : next.1.host.pool = acc.1.host.pool ++ [acc.1.flowParcel stream type unit pl ins] := rfl
    refine ⟨(Block.Emits.refl acc.1).flow.trans emits, ?_, fun p mem => keeps p ?_, fun q mem => ?_⟩
    · refine size.trans ?_
      rw [e, List.length_append, List.length_cons, List.length_cons, List.length_nil]
      omega
    · rw [pool]
      exact List.mem_append_left _ mem
    · rcases List.mem_cons.1 mem with own | mem
      · obtain ⟨type_, payload, producer⟩ := sealParcel_payload acc.1.chip (BitVec.ofNat 16 type) (BitVec.ofNat 8 stream)
          (acc.1.host.flowSeq unit (BitVec.ofNat 8 stream)) unit pl ins
        refine ⟨_, keeps _ (by rw [pool]; exact List.mem_append_right _ (List.mem_singleton_self _)), type_, ?_, producer, rfl⟩
        rw [own]
        exact payload
      · exact each q mem

/-- A band is sealed: its TRACK payloads stand in the pool under the lane's unit, and the band keeps its results (R289 to R291). -/
theorem Block.bandSealed_told (lane cam : Nat) (f : FoxFrame) (x : Band) (w : BandOut) (b : Block) :
    ∃ (b2 : Block) (pyr : List PyrRef) (trk : List InRef), b.Emits b2 ∧ trk.length = ((b.under f).trackPayloads cam f x w.tracks).length
      ∧ (∀ pl ∈ (b.under f).trackPayloads cam f x w.tracks, ∃ p ∈ b2.host.pool,
        p.type = 0x0302 ∧ p.payload = pl ∧ p.producer = BitVec.ofNat 8 (0x20 + lane) ∧ p.stream = BitVec.ofNat 8 (0xB0 + cam))
      ∧ b.bandSealed lane cam f x w = b2.onBand cam f.fs x.index (fun y =>
        { y with isSealed := true, started := false, levels := w.levels, tracks := w.tracks, pyr := pyr, trk := trk }) := by
  unfold Block.bandSealed
  extract_lets unit g lines ins rows
  set first := rows.foldl (fun (acc : Block × List PyrRef) (row : Nat × Nat × Nat × Bytes) =>
    (acc.1.flow (0xB8 + cam) 0x0301 unit row.2.2.2 ins,
     acc.2 ++ [{ level := row.1, row := row.2.1, first := row.2.2.1
                 ref := (acc.1.flowParcel (0xB8 + cam) 0x0301 unit row.2.2.2 ins).ref }])) (b, []) with firstDef
  have firstEmits : b.Emits first.1 := by
    rw [firstDef]
    exact List.foldlRecOn (motive := fun acc : Block × List PyrRef => b.Emits acc.1) _ _ (Block.Emits.refl b) fun acc h row _ => h.flow
  obtain ⟨emits, size, -, each⟩ := Block.flows_told (0xB0 + cam) 0x0302 unit ins ((b.under f).trackPayloads cam f x w.tracks) (first.1, [])
  refine ⟨_, first.2, _, firstEmits.trans emits, size.trans (Nat.zero_add _), each, rfl⟩

/-! ### The cut-off -/

/-- The one frame of a camera is dropped: its results are gone, and the camera contributes nothing to the epoch (R273, R296). -/
theorem Block.foxDrop_told {cam cause : Nat} {f : FoxFrame} {b : Block} (inside : cam < b.fox.cams.length) (one : (b.foxCam cam).frames = [f]) :
    let t := b.foxDrop cam cause f
    t.foxCam cam = { b.foxCam cam with frames := [], dropped := true } ∧ (∀ j : Nat, j ≠ cam → t.foxCam j = b.foxCam j)
      ∧ t.ep = { b.ep with degraded := true } ∧ Tells 0x0020 noUnit ([BitVec.ofNat 8 cam, BitVec.ofNat 8 cause] ++ leBytes 2 f.no.toNat) b t
      ∧ t = { b with fox := t.fox, ep := t.ep, host := t.host, flt := t.flt } := by
  have run : b.foxDrop cam cause f = Block.event 0x0020 noUnit ([BitVec.ofNat 8 cam, BitVec.ofNat 8 cause] ++ leBytes 2 f.no.toNat)
      { b with fox := (b.foxDiscard cam f.fs).fox, ep := { b.ep with degraded := true } } := rfl
  have cams : (b.foxDrop cam cause f).fox = (b.foxDiscard cam f.fs).fox := by
    rw [run, Block.event_parts]
  dsimp only
  refine ⟨?_, fun j apart => ?_, ?_, ?_, ?_⟩
  · rw [Block.foxCam, cams]
    have forgot : (b.foxForget cam f.fs).fox.cams = b.fox.cams.modify cam fun c => { c with frames := c.frames.filter fun x => x.fs != f.fs } := rfl
    refine (getD_modify_same (by rw [forgot, List.length_modify]; exact inside) _ _).trans ?_
    rw [forgot, getD_modify_same inside]
    have none : (b.foxCam cam).frames.filter (fun x => x.fs != f.fs) = [] := by
      rw [one, List.filter_cons, bne_self_eq_false]
      rfl
    exact congrArg (fun l => ({ b.foxCam cam with frames := l, dropped := true } : FoxCam)) none
  · rw [Block.foxCam, cams]
    refine (getD_modify_other apart _ _ _).trans ?_
    exact getD_modify_other apart _ _ _
  · rw [run, Block.event_parts]
  · rw [run]
    exact Block.event_tells_fox _ _ _ _ _ _
  · rw [run, Block.event_parts]

/-- Settles O27: by the band whose lines have arrived, and by what is unsealed at the cut-off. -/
theorem foxLanes : Obligations.FoxLanes := by
  unfold Obligations.FoxLanes
  intro s
  refine ⟨fun l x off => ⟨?_, ?_⟩, fun l cam f x works idle here => ?_, fun l cam f x mid works started ready known frame passes => ?_,
    fun l cam f x rs started waits => ?_, fun early => ?_, fun whole => ?_, fun cam f inside ready running free due others one open_ began => ?_⟩
  · refine State.act_of_eq (f := Block.bandStart l) ?_
    simp only [Block.bandStart, off, Bool.not_false, Bool.true_or, if_true]
  · refine State.act_of_eq (f := Block.bandSeal l x) ?_
    unfold Block.bandSeal
    split
    · rfl
    · simp only [off, Bool.not_false, Bool.true_or, if_true]
  · refine completes_of_act (f := Block.bandStart l) rfl ?_
    have goes : ¬ ((!s.laneOk l || (s.laneBands l).any fun m => m.2.2.started) = true) := by rw [works, idle]; decide
    unfold Block.bandStart
    dsimp only
    rw [if_neg goes, here]
    exact ⟨rfl, rfl⟩
  · refine completes_of_act (f := Block.bandSeal l []) rfl ?_
    have goes : ¬ ((!s.laneOk l || !s.bandReady f x) = true) := by rw [works, ready]; decide
    have run : s.bandSeal l [] = s.bandSealed l cam f x ((s.toBlock.under f).bandWork cam f x mid) := by
      unfold Block.bandSeal
      rw [started]
      dsimp only
      rw [if_neg goes, known]
      dsimp only
      rw [Block.verifyLines_intact passes, frame]
      dsimp only
      rw [if_neg (by rw [works]; decide), Block.verifyRefs_clean passes]
      dsimp only
      rw [if_neg (by decide), if_neg (by rw [works]; decide)]
    obtain ⟨b2, pyr, trk, emits, size, each, e⟩ := Block.bandSealed_told l cam f x ((s.toBlock.under f).bandWork cam f x mid) s.toBlock
    rw [run, e]
    refine ⟨each, ⟨pyr, trk, size, ?_⟩, ?_⟩
    · rw [show b2 = _ from emits]
      rfl
    · rw [show b2 = _ from emits]
      rfl
  · refine State.act_of_eq (f := Block.bandSeal l rs) ?_
    unfold Block.bandSeal
    rw [started]
    simp only [waits, Bool.not_false, Bool.or_true, if_true]
  · refine State.act_of_eq (f := Block.foxCutoffDue) ?_
    have waits : (!s.ready || !s.ep.running || s.pwr.paused || decide (s.now < s.ep.start + s.foxCutoff)) = true := by
      rw [decide_eq_true early, Bool.or_true]
    rw [Block.foxCutoffDue]
    exact if_pos waits
  · refine State.act_of_eq (f := Block.foxCutoffDue) ?_
    rw [Block.foxCutoffDue]
    refine (ite_congr rfl (fun _ => rfl) fun _ => ?_).trans (ite_self _)
    refine Block.foldl_still fun cam mem => ?_
    rw [List.filter_eq_nil_iff.2 fun f held => by rw [whole cam (List.mem_range.1 mem) f held]; exact Bool.false_ne_true]
    rfl
  · refine completes_of_act (f := Block.foxCutoffDue) rfl ?_
    have goes : ¬ ((!s.ready || !s.ep.running || s.pwr.paused || decide (s.now < s.ep.start + s.foxCutoff)) = true) := by
      rw [running, free, decide_eq_false (Nat.not_lt.2 due)]
      simp [Block.ready, ready]
    have size : cam < s.fox.cams.length := by
      by_contra out
      rw [Block.foxCam, List.getD_eq_getElem?_getD, List.getElem?_eq_none (Nat.not_lt.1 out)] at one
      simp at one
    obtain ⟨own, apart, ep, tells, rest⟩ := Block.foxDrop_told (cause := 2) size one
    have none (b : Block) (j : Nat) (empty : (b.foxCam j).frames = []) :
        ((b.foxCam j).frames.filter fun f => !f.whole && decide (f.fs ≤ b.ep.start + b.foxCutoff)).foldl (fun b f => b.foxDrop j 2 f) b = b := by
      rw [empty]
      rfl
    have run : s.foxCutoffDue = s.foxDrop cam 2 f := by
      rw [Block.foxCutoffDue]
      refine (if_neg goes).trans ?_
      refine Block.foldl_only inside (fun j small other => none _ j (others j small other)) ?_ fun j small other => none _ j ?_
      · have held : (!f.whole && decide (f.fs ≤ s.ep.start + s.foxCutoff)) = true := by rw [open_, decide_eq_true began]; rfl
        rw [one, List.filter_cons, if_pos held]
        rfl
      · rw [apart j other]
        exact others j small other
    rw [run]
    exact ⟨own, apart, ep, tells, rest⟩

end Sys2Proof.Machine
end

section
/-! PROOF. The payloads of the alignment unit: PREINT, POSE and PRED (O28; Tables 09-3 and 09-5). -/

namespace Sys2Proof.Machine

/-! ### Words and fields -/

theorem field_leBytes (n v : Nat) (rest : Bytes) : field (leBytes n v ++ rest) 0 n = v % 2 ^ (8 * n) := by
  rw [field_prefix (by rw [length_leBytes, Nat.zero_add]), field, slice, List.drop_zero, List.take_of_length_le (length_leBytes n v).le, ofLe_leBytes]

theorem field_after {off : Nat} {xs : Bytes} (size : xs.length = off) (ys : Bytes) (at_ n : Nat) : field (xs ++ ys) (off + at_) n = field ys at_ n := by
  rw [field_past (by omega), size, Nat.add_sub_cancel_left]

theorem field_lt (xs : Bytes) (off n : Nat) : field xs off n < 2 ^ (8 * n) :=
  (ofLe_lt _).trans_le (Nat.pow_le_pow_right (by decide) (Nat.mul_le_mul_left _ (by rw [slice, List.length_take]; exact Nat.min_le_left _ _)))

theorem length_wordBytes (ws : List (BitVec 32)) : (wordBytes ws).length = 4 * ws.length := by
  induction ws with
  | nil => rfl
  | cons w ws ih => rw [wordBytes, List.flatMap_cons, List.length_append, length_leBytes, ← wordBytes, ih, List.length_cons]; omega

theorem field_wordBytes {ws : List (BitVec 32)} {i : Nat} (inside : i < ws.length) (rest : Bytes) :
    field (wordBytes ws ++ rest) (4 * i) 4 = (ws.getD i 0).toNat := by
  induction ws generalizing i with
  | nil => exact absurd inside (Nat.not_lt_zero _)
  | cons w ws ih =>
    rw [wordBytes, List.flatMap_cons, List.append_assoc, ← wordBytes]
    cases i with
    | zero =>
      refine (field_leBytes 4 w.toNat _).trans (Nat.mod_eq_of_lt w.isLt)
    | succ i =>
      rw [Nat.mul_succ, Nat.add_comm, field_after (length_leBytes 4 _), ih (Nat.lt_of_succ_lt_succ inside)]
      rfl

/-! ### PREINT -/

/-- A PREINT's payload: its size, its end, its count of steps and its flags (Table 09-3). -/
theorem Block.preintPayload_told (t0 t1 : Int) (steps flags : Nat) {bias : Bytes} (size : bias.length = 24) (x : Preint) (b : Block) :
    let pay := b.preintPayload t0 t1 steps flags bias x
    pay.length = 448 ∧ field pay 8 8 = (BitVec.ofInt 64 t1).toNat ∧ field pay 16 2 = min steps 0xFFFF ∧ field pay 18 2 = flags % 2 ^ 16 := by
  unfold Block.preintPayload
  simp only [List.append_assoc]
  refine ⟨?_, ?_, ?_, ?_⟩
  · simp only [List.length_append, length_leBytes, length_wordBytes, size, List.length_cons, List.length_nil, List.length_map, List.length_range, Q4.words, V3.words]
  · exact (field_after (length_leBytes 8 _) _ 0 8).trans ((field_leBytes 8 _ _).trans (Nat.mod_eq_of_lt (BitVec.isLt _)))
  · rw [field_after (off := 8) (at_ := 8) (length_leBytes 8 _), field_after (off := 8) (at_ := 0) (length_leBytes 8 _), field_leBytes]
    exact Nat.mod_eq_of_lt (by omega)
  · rw [field_after (off := 8) (at_ := 10) (length_leBytes 8 _), field_after (off := 8) (at_ := 2) (length_leBytes 8 _),
      field_after (off := 2) (at_ := 0) (length_leBytes 2 _), field_leBytes]

theorem length_biasOf (s : Option SolRec) : (biasOf s).length = 24 := by
  cases s with
  | none => exact List.length_replicate
  | some s => exact length_fit _ _

/-! ### POSE -/

/-- A record's payload: its size, its flags, and the first words of its state (Table 09-5). -/
theorem Block.recordPayload_told (t : Int) (age flags gen : Nat) {k : Kin} (base : Nat) (s : Option SolRec) (reloc table : Nat) (b : Block) :
    let pay := b.recordPayload t age flags gen k base s reloc table
    pay.length = 256 ∧ field pay 24 4 = flags % 2 ^ 32 ∧ ∀ i, 4 * i + 4 ≤ k.state.length → 4 * i + 4 ≤ 76 → field pay (32 + 4 * i) 4 = field k.state (4 * i) 4 := by
  unfold Block.recordPayload
  simp only [List.append_assoc]
  refine ⟨length_fit _ _, ?_, fun i inside low => ?_⟩
  · rw [field_fit (by omega) (by simp only [List.length_append, length_leBytes]; omega)]
    rw [field_after (off := 8) (at_ := 16) (length_leBytes 8 _), field_after (off := 4) (at_ := 12) (length_leBytes 4 _),
      field_after (off := 4) (at_ := 8) (length_leBytes 4 _), field_after (off := 8) (at_ := 0) (length_leBytes 8 _), field_leBytes]
  · rw [field_fit (by omega) (by simp only [List.length_append, length_leBytes]; omega)]
    rw [show 32 + 4 * i = 8 + (4 + (4 + (8 + (4 + (4 + 4 * i))))) by omega, field_after (length_leBytes 8 _), field_after (length_leBytes 4 _),
      field_after (length_leBytes 4 _), field_after (length_leBytes 8 _), field_after (length_leBytes 4 _), field_after (length_leBytes 4 _),
      field_prefix inside]

/-- The state that a motion publishes begins with its position (Table 09-5). -/
theorem Motion.kin_position {m : Motion} {omega : List (BitVec 32)} {bias : Bytes} {cov : List (BitVec 32)} {i : Nat} (low : i < 3) :
    (m.kin omega bias cov).state.length = 76 ∧ field (m.kin omega bias cov).state (4 * i) 4 = (m.p.words.getD i 0).toNat := by
  refine ⟨length_fit _ _, ?_⟩
  have three : m.p.words.length = 3 := rfl
  unfold Motion.kin
  dsimp only
  rw [field_fit (by omega) (by simp only [List.length_append, length_wordBytes, three]; omega)]
  rw [field_wordBytes (by simp only [List.length_append, three]; omega)]
  simp only [List.append_assoc]
  rw [List.getD_append _ _ _ _ (by rw [three]; exact low)]

/-- The position that a SOLUTION publishes is the one its parcel holds. -/
theorem SolRec.motion_position (s : SolRec) {i : Nat} (low : i < 3) : (s.motion.p.words.getD i 0).toNat = field s.parcel.payload (32 + 4 * i) 4 := by
  have word (j : Nat) : (wordAt s.parcel.payload 32 j).toNat = field s.parcel.payload (32 + 4 * j) 4 := by
    rw [wordAt, BitVec.toNat_ofNat]
    exact Nat.mod_eq_of_lt (field_lt _ _ 4)
  have cases_ : i = 0 ∨ i = 1 ∨ i = 2 := by omega
  rcases cases_ with e | e | e
  · subst e; exact word 0
  · subst e; exact word 1
  · subst e; exact word 2

end Sys2Proof.Machine
end

section
/-! PROOF. PREINT, POSE and PRED of an epoch (O28; R145, R308 to R313, R318 to R323). -/

namespace Sys2Proof.Machine

/-! ### What is verified -/

theorem Block.verifySol_intact {o : Option SolRec} {b : Block} (passes : ∀ x, o = some x → sealFault x.parcel = none) : b.verifySol o [] = (o, b) := by
  cases o with
  | none => rfl
  | some x =>
    rw [Block.verifySol, show readAs [] x.parcel = .intact from rfl, Block.verify_intact (passes x rfl)]

theorem Block.verifySols_intact {b : Block} (both : b.afu.sol = none → b.afu.solPrev = none)
    (passes : ∀ x : SolRec, b.afu.sol = some x ∨ b.afu.solPrev = some x → sealFault x.parcel = none) : b.verifySols [] = b := by
  unfold Block.verifySols
  dsimp only
  rw [Block.verifySol_intact fun x held => passes x (.inr held)]
  dsimp only
  rw [Block.verifySol_intact fun x held => passes x (.inl held)]
  dsimp only
  have same : (if b.afu.sol.isSome then b.afu.sol else b.afu.solPrev) = b.afu.sol ∧ (if b.afu.sol.isSome then b.afu.solPrev else none) = b.afu.solPrev := by
    cases h : b.afu.sol with
    | none => exact ⟨both h, (both h).symm⟩
    | some x => exact ⟨rfl, rfl⟩
  rw [same.1, same.2]

theorem Block.verifyOutputs_intact {sec : Bool} {b : Block} (passes : ∀ p ∈ b.host.pool, sealFault p = none) : b.verifyOutputs sec [] = b := by
  unfold Block.verifyOutputs
  refine Block.foldl_still fun p mem => ?_
  rw [show readAs [] p = .intact from rfl, Block.verify_intact (passes p (Block.heldParcels_pool mem))]

/-! ### PREINT -/

/-- What happens before a PREINT is sealed: the epoch may be degraded, and told so. -/
def Block.Degrades (a b : Block) : Prop :=
  b = { a with
    ep := { a.ep with degraded := b.ep.degraded }, host := b.host, flt := { a.flt with traceDrop := b.flt.traceDrop }, fresh := b.fresh }

theorem Block.Degrades.either {a b c : Block} {p : Prop} [Decidable p] (hb : a.Degrades b) (hc : a.Degrades c) : a.Degrades (if p then b else c) := by
  split
  · exact hb
  · exact hc

theorem Block.Degrades.mark {a b : Block} (h : a.Degrades b) : a.Degrades { b with ep := { b.ep with degraded := true } } := by
  unfold Block.Degrades at h ⊢
  conv_lhs => rw [h]

theorem Block.limitEvent_degrades (kind slot : Nat) (near tc : Int) (b : Block) : b.Degrades (b.limitEvent kind slot near tc) := by
  unfold Block.Degrades
  rw [Block.limitEvent, Block.event_parts]

theorem Block.endpointLost_degrades (e : Option (Nat × Int)) (t : Int) (b : Block) : b.Degrades (b.endpointLost e t) := by
  unfold Block.endpointLost
  split
  · exact Block.limitEvent_degrades _ _ _ _ b
  · have told := Block.limitEvent_degrades 0 b.inertialSlot b.freeNow.toInt t b
    unfold Block.Degrades at told ⊢
    rw [told]
    rfl

/-- The PREINT of an epoch is sealed from a block in which nothing but the epoch's mark has changed (R313). -/
theorem Block.sealPreint_told {a b : Block} (h : a.Degrades b) (payload : Bytes) (ins : List InRef) :
    let p := b.flowParcel 0xC0 0x0410 afuUnit payload ins
    let t := b.sealPreint payload ins
    p.type = 0x0410 ∧ p.producer = 0x28 ∧ p.stream = 0xC0 ∧ p.payload = payload
      ∧ t.afu = { a.afu with preint := some p, preintDone := true, preints := a.afu.preints ++ [p] } ∧ t.ep = b.ep
      ∧ t = { a with
        ep := { a.ep with degraded := t.ep.degraded }, afu := t.afu, host := t.host, flt := { a.flt with traceDrop := t.flt.traceDrop }
        fresh := t.fresh } := by
  obtain ⟨type, pay, producer⟩ := sealParcel_payload b.chip (BitVec.ofNat 16 0x0410) (BitVec.ofNat 8 0xC0)
    (b.host.flowSeq afuUnit (BitVec.ofNat 8 0xC0)) afuUnit payload ins
  have afu : b.afu = a.afu := by rw [show b = _ from h]
  refine ⟨type, producer, rfl, pay, ?_, rfl, ?_⟩
  · rw [← afu]
    rfl
  · obtain ⟨d, host, drop, fresh, e⟩ : ∃ d host drop fresh, b = { a with
        ep := { a.ep with degraded := d }, host := host, flt := { a.flt with traceDrop := drop }, fresh := fresh } := ⟨_, _, _, _, h⟩
    subst e
    rfl

theorem Block.drew_drewN (n : Nat) (b : Block) : (b.drewN n).drew = b.drewN (n + 1) := rfl

/-- The epoch's PREINT from the slot in use or its substitute (R309 to R312). -/
theorem Block.preintBuild_told {s : Block} (on : s.afuOn = true) (fixed : s.afu.tcDone = true) (fresh : s.afu.preintDone = false)
    (pool : ∀ p ∈ s.host.pool, sealFault p = none) (both : s.afu.sol = none → s.afu.solPrev = none)
    (passes : ∀ x : SolRec, s.afu.sol = some x ∨ s.afu.solPrev = some x → sealFault x.parcel = none) :
    ∃ (b : Block) (payload : Bytes) (ins : List InRef) (n : Nat), s.Degrades b ∧ s.preintBuild [] = Block.drewN n (b.sealPreint payload ins)
      ∧ payload.length = 448 ∧ field payload 8 8 = (BitVec.ofInt 64 s.commonInstant).toNat
      ∧ (s.afu.noInertial = true → b.ep.degraded = true ∧ field payload 16 2 = 0 ∧ field payload 18 2 = 64) := by
  have goes : ¬ ((!s.afuOn || s.afu.preintDone || (!s.afu.tcDone && s.portPending s.refPort)) = true) := by rw [on, fixed, fresh]; simp
  have tc : s.fixTc = s := if_pos fixed
  have run : s.preintBuild [] = Block.drew (if s.afu.noInertial then s.preintHeld else s.preintFrom) := by
    unfold Block.preintBuild
    rw [if_neg goes, tc]
    dsimp only
    rw [Block.verifySols_intact both passes, Block.verifyOutputs_intact pool]
  rw [run]
  cases lacks : s.afu.noInertial with
  | true =>
    have marked : s.Degrades { s with ep := { s.ep with degraded := true } } := rfl
    rw [if_pos rfl]
    unfold Block.preintHeld
    dsimp only
    split
    next x held =>
      obtain ⟨size, ends, steps, flags⟩ := Block.preintPayload_told (s.prevInstant.getD s.commonInstant) s.commonInstant 0 64
        (length_biasOf (some x)) (s.heldMotion x (s.prevInstant.getD s.commonInstant) s.commonInstant) { s with ep := { s.ep with degraded := true } }
      exact ⟨_, _, _, 1, marked, rfl, size, ends, fun _ => ⟨rfl, steps, flags⟩⟩
    next held =>
      rw [Block.drew_drewN]
      refine ⟨_, _, _, 11, marked, rfl, ?_⟩
      obtain ⟨size, ends, steps, flags⟩ := Block.preintPayload_told (s.prevInstant.getD s.commonInstant) s.commonInstant 0 64
        (length_biasOf none) { dr := ⟨(s.freeVec 10).getD 9 0, (s.freeVec 10).getD 0 0, (s.freeVec 10).getD 1 0, (s.freeVec 10).getD 2 0⟩
                               dv := ⟨(s.freeVec 10).getD 3 0, (s.freeVec 10).getD 4 0, (s.freeVec 10).getD 5 0⟩
                               dp := ⟨(s.freeVec 10).getD 6 0, (s.freeVec 10).getD 7 0, (s.freeVec 10).getD 8 0⟩ }
        { s with ep := { s.ep with degraded := true } }
      exact ⟨size, ends, fun _ => ⟨rfl, steps, flags⟩⟩
  | false =>
    rw [if_neg (by decide)]
    unfold Block.preintFrom
    extract_lets sec t1 t0 e0 e1 short b1 src b2 head tail pts us bias
    obtain ⟨size, ends, -, -⟩ := Block.preintPayload_told t0 t1 (pts.length - 1) (preintFlags us sec short) (length_biasOf (s.solAt t0))
      (Preint.run (v3At bias 0) (v3At bias 12) s.stepNoise pts {}) b2
    refine ⟨b2, _, _, 1, ?_, rfl, size, ends, fun some_ => absurd some_ (by decide)⟩
    have before : s.Degrades b1 := Block.Degrades.either (Block.endpointLost_degrades _ _ _) (Block.Degrades.either (Block.endpointLost_degrades _ _ _) rfl)
    exact Block.Degrades.either before.mark before

/-! ### POSE and PRED -/

/-- A parcel for stream 0 or 1 takes the stream's next SEQ (R493). -/
theorem Block.emit_numbered {b : Block} {st : Nat} (low : st < 2) (size : b.host.streams.length = 8) (type : BitVec 16) (unit : BitVec 8) (payload : Bytes)
    (ins : List InRef) : ((b.emit st type unit payload ins).host.streams.getD st {}).nextSeq = (b.host.streams.getD st {}).nextSeq + 1 := by
  have numbers : (b.host.streams.getD st {}).numbers st = true := by rw [Stream.numbers, decide_eq_true low, Bool.true_or]
  rw [Block.emit, if_pos numbers]
  dsimp only
  generalize b.streamParcel st type unit payload ins = p
  rw [Block.trace]
  dsimp only
  rw [getD_set_other (by omega), Block.toStream]
  dsimp only
  rw [getD_modify_same (by omega), take_nextSeq]

/-- A POSE is sealed and stands in the mirror (R28, R513). -/
theorem Block.sealPose_told {b : Block} (size : b.host.streams.length = 8) (payload : Bytes) (ins : List InRef) :
    let p := b.streamParcel 0 0x0420 afuUnit payload ins
    let t := b.sealPose payload ins
    p.type = 0x0420 ∧ p.producer = 0x28 ∧ p.seq = (b.host.streams.getD 0 {}).nextSeq ∧ p.payload = payload
      ∧ (t.host.streams.getD 0 {}).nextSeq = (b.host.streams.getD 0 {}).nextSeq + 1
      ∧ t.afu = { b.afu with posed := true, mirror := some p, mirrorPrev := b.afu.mirror, mirrorNo := b.afu.mirrorNo + 1 }
      ∧ t = { b with afu := t.afu, host := t.host, flt := { b.flt with traceDrop := t.flt.traceDrop } } := by
  obtain ⟨type, pay, producer⟩ := sealParcel_payload b.chip 0x0420 (BitVec.ofNat 8 0) (b.host.streams.getD 0 {}).nextSeq afuUnit payload ins
  refine ⟨type, producer, rfl, pay, Block.emit_numbered (by decide) size _ _ _ _, ?_, ?_⟩
  · unfold Block.sealPose
    rw [emit_eq]
  · unfold Block.sealPose
    rw [emit_eq]

/-- The flags of Table 09-6 that hold of every record lie below 128, above the lowest four bits. -/
theorem Block.commonFlags_lt (b : Block) : b.commonFlags ≤ 112 ∧ b.commonFlags % 16 = 0 := by
  unfold Block.commonFlags
  extract_lets f
  have lost := Bool.toNat_lt b.thermos.timeLost
  have first := Bool.toNat_lt (decide (f % 4 ≠ 0))
  have second := Bool.toNat_lt (decide (f / 4 % 4 ≠ 0) || decide (f / 64 % 2 = 1))
  omega

theorem Block.dueFlags_lt (b : Block) : b.dueFlags ≤ 392 ∧ b.dueFlags % 8 = 0 := by
  unfold Block.dueFlags
  have reloc := Bool.toNat_lt b.afu.relocDue
  have key := Bool.toNat_lt b.afu.keyDue
  have calib := Bool.toNat_lt b.afu.calibDue
  omega

/-- A POSE without an estimate says so (R320). -/
theorem Block.poseNone_told {b : Block} (size : b.host.streams.length = 8) :
    let t := b.poseNone
    (t.host.streams.getD 0 {}).nextSeq = (b.host.streams.getD 0 {}).nextSeq + 1
      ∧ (∃ p : Parcel, t.afu = { b.afu with
            posed := true, mirror := some p, mirrorPrev := b.afu.mirror, mirrorNo := b.afu.mirrorNo + 1, calibDue := false }
        ∧ p.type = 0x0420 ∧ p.producer = 0x28 ∧ p.seq = (b.host.streams.getD 0 {}).nextSeq ∧ p.payload.length = 256
        ∧ field p.payload 24 4 / 512 % 2 = 1)
      ∧ t = { b with afu := t.afu, host := t.host, flt := { b.flt with traceDrop := t.flt.traceDrop } } := by
  set tc := b.commonInstant
  set flags := b.commonFlags + 4 * b.ep.degraded.toNat + 256 * b.afu.calibDue.toNat + 512 with flagsDef
  set seq := (b.host.streams.getD 0 {}).nextSeq.toNat
  set pay := b.recordPayload tc 0xFFFFFFFF flags b.cfg.gen.toNat kinNone seq none b.afu.reloc.toNat b.tableVersion
  have run : b.poseNone = { b.sealPose pay [] with afu := { (b.sealPose pay []).afu with calibDue := false } } := rfl
  obtain ⟨type, producer, numbered, payload, next, afu, rest⟩ := Block.sealPose_told size pay []
  obtain ⟨length, said, -⟩ := Block.recordPayload_told tc 0xFFFFFFFF flags b.cfg.gen.toNat (k := kinNone) seq none b.afu.reloc.toNat b.tableVersion b
  rw [run]
  generalize b.sealPose pay [] = b1 at *
  refine ⟨next, ⟨_, ?_, type, producer, numbered, by rw [payload]; exact length, ?_⟩, ?_⟩
  · rw [afu]
  · rw [payload, said]
    have common := b.commonFlags_lt
    have degraded := Bool.toNat_lt b.ep.degraded
    have calib := Bool.toNat_lt b.afu.calibDue
    omega
  · conv_lhs => rw [rest]

/-- A POSE that publishes a SOLUTION holds its position (R152, R323). -/
theorem Block.poseSolved_told {b : Block} (size : b.host.streams.length = 8) (x : SolRec) :
    let t := b.poseSolved x
    (t.host.streams.getD 0 {}).nextSeq = (b.host.streams.getD 0 {}).nextSeq + 1
      ∧ (∃ p : Parcel, t.afu.mirror = some p ∧ p.type = 0x0420 ∧ p.producer = 0x28 ∧ p.seq = (b.host.streams.getD 0 {}).nextSeq
        ∧ p.payload.length = 256 ∧ field p.payload 24 4 / 512 % 2 = 0 ∧ field p.payload 24 4 % 2 = 0
        ∧ (∀ i < 3, field p.payload (32 + 4 * i) 4 = field x.parcel.payload (32 + 4 * i) 4))
      ∧ t.afu.posed = true ∧ t.afu.mirrorNo = b.afu.mirrorNo + 1 ∧ t.afu.calibDue = false ∧ t.afu.relocDue = false ∧ t.afu.keyDue = false
      ∧ t = { b with afu := t.afu, host := t.host, flt := { b.flt with traceDrop := t.flt.traceDrop } } := by
  set tc := b.commonInstant
  set flags := b.commonFlags + 2 * (field x.parcel.payload 16 1 % 2) + 4 * b.ep.degraded.toNat + b.dueFlags with flagsDef
  set seq := (b.host.streams.getD 0 {}).nextSeq.toNat
  set reloc := if b.afu.relocDue then b.afu.reloc + 1 else b.afu.reloc
  set pay := b.recordPayload tc (tc - x.age).toNat flags (field x.parcel.payload 20 4) (b.solvedKin x) seq (some x) reloc.toNat x.table.toNat
  have run : b.poseSolved x = { b.sealPose pay [x.parcel.ref] with afu := { (b.sealPose pay [x.parcel.ref]).afu with
      sol := some { x with reloc := reloc, flags := BitVec.ofNat 32 b.dueFlags, posed := true, omega := b.poseOmega x }, reloc := reloc
      relocDue := false, keyDue := false, calibDue := false } } := rfl
  obtain ⟨type, producer, numbered, payload, next, afu, rest⟩ := Block.sealPose_told size pay [x.parcel.ref]
  obtain ⟨length, said, state⟩ := Block.recordPayload_told tc (tc - x.age).toNat flags (field x.parcel.payload 20 4) (k := b.solvedKin x) seq (some x)
    reloc.toNat x.table.toNat b
  have common := b.commonFlags_lt
  have due := b.dueFlags_lt
  have degraded := Bool.toNat_lt b.ep.degraded
  have flagsIs : flags % 2 ^ 32 = b.commonFlags + 2 * (field x.parcel.payload 16 1 % 2) + 4 * b.ep.degraded.toNat + b.dueFlags :=
    Nat.mod_eq_of_lt (by omega)
  rw [run]
  generalize b.sealPose pay [x.parcel.ref] = b1 at *
  refine ⟨next, ⟨_, ?_, type, producer, numbered, by rw [payload]; exact length, ?_, ?_, fun i low => ?_⟩, ?_, ?_, rfl, rfl, rfl, ?_⟩
  · rw [afu]
  · rw [payload, said, flagsIs]
    omega
  · rw [payload, said, flagsIs]
    omega
  · obtain ⟨whole, position⟩ := Motion.kin_position (m := x.motion) (omega := b.poseOmega x) (bias := biasOf (some x)) (cov := x.cov) low
    rw [payload, state i (by rw [show (b.solvedKin x).state.length = 76 from whole]; omega) (by omega)]
    exact position.trans (x.motion_position low)
  · exact (congrArg Afu.posed afu)
  · exact (congrArg Afu.mirrorNo afu)
  · conv_lhs => rw [rest]

/-- A PRED without an estimate takes stream 1's next SEQ (R320, R321). -/
theorem Block.predNone_told {b : Block} (size : b.host.streams.length = 8) (t : Tick) :
    ((b.predNone t).host.streams.getD 1 {}).nextSeq = (b.host.streams.getD 1 {}).nextSeq + 1
      ∧ b.predNone t = { b with host := (b.predNone t).host, flt := { b.flt with traceDrop := (b.predNone t).flt.traceDrop } } := by
  refine ⟨Block.emit_numbered (by decide) size _ _ _ _, ?_⟩
  unfold Block.predNone
  dsimp only
  rw [emit_eq]

/-- A PRED from the newest SOLUTION takes stream 1's next SEQ and marks that SOLUTION (R321 to R323). -/
theorem Block.predFrom_told {b : Block} (size : b.host.streams.length = 8) (x : SolRec) (t : Tick) :
    ((b.predFrom x t).host.streams.getD 1 {}).nextSeq = (b.host.streams.getD 1 {}).nextSeq + 1
      ∧ b.predFrom x t = { b with
        afu := { b.afu with sol := tellSol x b.afu.sol, solPrev := tellSol x b.afu.solPrev }, host := (b.predFrom x t).host
        flt := { b.flt with traceDrop := (b.predFrom x t).flt.traceDrop }, fresh := b.fresh + 1 } := by
  obtain ⟨payload, ins, run⟩ : ∃ payload ins, b.predFrom x t = { (b.emit 1 0x0421 afuUnit payload ins).drew with
      afu := { (b.emit 1 0x0421 afuUnit payload ins).afu with
        sol := tellSol x (b.emit 1 0x0421 afuUnit payload ins).afu.sol
        solPrev := tellSol x (b.emit 1 0x0421 afuUnit payload ins).afu.solPrev } } := ⟨_, _, rfl⟩
  rw [run]
  refine ⟨Block.emit_numbered (by decide) size _ _ _ _, ?_⟩
  conv_lhs => rw [emit_eq]
  rfl

/-- Told from the newest SOLUTION with none before it, a PRED leaves that one told. -/
theorem Block.predFrom_newest {b : Block} {x : SolRec} (size : b.host.streams.length = 8) (t : Tick) (held : b.afu.sol = some x)
    (prev : b.afu.solPrev = none) :
    ((b.predFrom x t).host.streams.getD 1 {}).nextSeq = (b.host.streams.getD 1 {}).nextSeq + 1
      ∧ b.predFrom x t = { b with
        afu := { b.afu with sol := some { x with told := true } }, host := (b.predFrom x t).host
        flt := { b.flt with traceDrop := (b.predFrom x t).flt.traceDrop }, fresh := b.fresh + 1 } := by
  obtain ⟨next, rest⟩ := Block.predFrom_told size x t
  have sol : tellSol x b.afu.sol = some { x with told := true } := by
    rw [held]
    exact congrArg some (if_pos (beq_self_eq_true _))
  have solPrev : tellSol x b.afu.solPrev = b.afu.solPrev := by
    rw [prev]
    rfl
  rw [sol, solPrev] at rest
  exact ⟨next, rest⟩

/-- A tick lies within 100 µs after the last multiple of 250,000 when what is over it does. -/
theorem within_tick {n : Nat} (near : n % 250000 ≤ 25000) : n ≤ n / 250000 * 250000 + 25000 := by omega

theorem past_tick {n : Nat} (late : 25000 < n % 250000) : ¬ n ≤ n / 250000 * 250000 + 25000 := by omega

/-- A PRED at its tick, from what verifies (R321). -/
theorem Block.predEmit_eq {s : Block} {n : Tick} (tick : s.now / 250000 * 250000 = n) (on : s.afuOn = true) (near : s.now % 250000 ≤ 25000)
    (new : s.afu.predAt < n) (prev : s.afu.solPrev = none) (pool : ∀ p ∈ s.host.pool, sealFault p = none)
    (passes : ∀ x, s.afu.sol = some x → sealFault x.parcel = none) :
    let b1 : Block := { s with afu := { s.afu with predAt := n } }
    s.predEmit [] = match b1.solBefore n with
      | some x => b1.predFrom x n
      | none => b1.predNone n := by
  have goes : (s.afuOn && decide (s.now ≤ n + 25000) && decide (s.afu.predAt < n)) = true := by
    rw [on, ← tick, decide_eq_true (within_tick near), tick, decide_eq_true new]
    rfl
  have sols : Block.verifySols [] { s with afu := { s.afu with predAt := n } } = { s with afu := { s.afu with predAt := n } } := by
    refine Block.verifySols_intact (fun _ => prev) fun x held => ?_
    rcases held with held | held
    · exact passes x held
    · exact absurd (prev.symm.trans held) (by simp)
  have outputs : Block.verifyOutputs false [] { s with afu := { s.afu with predAt := n } } = { s with afu := { s.afu with predAt := n } } :=
    Block.verifyOutputs_intact pool
  unfold Block.predEmit
  rw [tick]
  dsimp only
  rw [if_pos goes, sols, outputs] <;> rfl

/-- Without a SOLUTION, the PRED of a tick says that there is no estimate (R320). -/
theorem Block.predEmit_none {s : Block} {n : Tick} (tick : s.now / 250000 * 250000 = n) (on : s.afuOn = true) (near : s.now % 250000 ≤ 25000)
    (new : s.afu.predAt < n) (prev : s.afu.solPrev = none) (pool : ∀ p ∈ s.host.pool, sealFault p = none) (size : s.host.streams.length = 8)
    (none : s.afu.sol = none) :
    let t := s.predEmit []
    t.afu = { s.afu with predAt := n } ∧ (t.host.streams.getD 1 {}).nextSeq = (s.host.streams.getD 1 {}).nextSeq + 1
      ∧ t = { s with afu := t.afu, host := t.host, flt := { s.flt with traceDrop := t.flt.traceDrop } } := by
  have nothing : Block.solBefore n { s with afu := { s.afu with predAt := n } } = Option.none := by
    unfold Block.solBefore
    dsimp only
    rw [none]
    exact ite_self _
  have run : s.predEmit [] = Block.predNone n { s with afu := { s.afu with predAt := n } } := by
    rw [Block.predEmit_eq tick on near new prev pool fun x held => absurd (none.symm.trans held) (by simp)]
    dsimp only
    rw [nothing]
  obtain ⟨next, rest⟩ := Block.predNone_told (b := { s with afu := { s.afu with predAt := n } }) size n
  rw [run]
  generalize Block.predNone n { s with afu := { s.afu with predAt := n } } = t at next rest ⊢
  refine ⟨?_, next, ?_⟩
  · rw [rest]
  · rw [rest]

/-- From a SOLUTION sealed before its tick, the PRED carries that one, which is told (R321). -/
theorem Block.predEmit_sol {s : Block} {x : SolRec} {n : Tick} (tick : s.now / 250000 * 250000 = n) (on : s.afuOn = true)
    (near : s.now % 250000 ≤ 25000) (new : s.afu.predAt < n) (prev : s.afu.solPrev = none) (pool : ∀ p ∈ s.host.pool, sealFault p = none)
    (size : s.host.streams.length = 8) (held : s.afu.sol = some x) (passes : sealFault x.parcel = none) (before : x.sealedAt < n)
    (has : s.afu.noSol = false) :
    let t := s.predEmit []
    t.afu = { s.afu with predAt := n, sol := some { x with told := true } }
      ∧ (t.host.streams.getD 1 {}).nextSeq = (s.host.streams.getD 1 {}).nextSeq + 1
      ∧ t = { s with afu := t.afu, host := t.host, flt := { s.flt with traceDrop := t.flt.traceDrop }, fresh := s.fresh + 1 } := by
  have found : Block.solBefore n { s with afu := { s.afu with predAt := n } } = some x := by
    unfold Block.solBefore
    dsimp only
    rw [has, held]
    exact if_pos before
  have run : s.predEmit [] = Block.predFrom x n { s with afu := { s.afu with predAt := n } } := by
    rw [Block.predEmit_eq tick on near new prev pool fun y other => by rw [← Option.some.inj (held.symm.trans other)]; exact passes]
    dsimp only
    rw [found]
  obtain ⟨next, rest⟩ := Block.predFrom_newest (b := { s with afu := { s.afu with predAt := n } }) size n held prev
  rw [run]
  generalize Block.predFrom x n { s with afu := { s.afu with predAt := n } } = t at next rest ⊢
  refine ⟨?_, next, ?_⟩
  · rw [rest]
  · rw [rest]

/-! ### The obligation -/

/-- POSE_ASSEMBLY of an epoch whose VIO job is over, with what verifies (R28). -/
theorem Block.poseAssembly_eq {s : Block} (on : s.afuOn = true) (fixed : s.afu.tcDone = true) (fresh : s.afu.posed = false) (over_ : s.vioOver = true)
    (ready : (!s.solvedNow || s.badger.keyDone) = true) (prev : s.afu.solPrev = none) (passes : ∀ x, s.afu.sol = some x → sealFault x.parcel = none) :
    s.poseAssembly [] = match s.afu.sol with
      | none => s.poseNone
      | some x =>
        if s.afu.noSol || s.afu.noSolEpoch then s.poseNone
        else if x.epoch = s.ep.now.toNat then s.poseSolved x
        else
          let v := s.verifyAll [] afuUnit s.afu.preints
          if v.1 then v.2.poseCarried x else v.2.poseNone := by
  have goes : (s.afuOn && !s.afu.posed && s.vioOver && (!s.solvedNow || s.badger.keyDone)) = true := by rw [on, fresh, over_, ready]; rfl
  have tc : s.fixTc = s := if_pos fixed
  have sols : s.verifySols [] = s := by
    refine Block.verifySols_intact (fun _ => prev) fun x held => ?_
    rcases held with held | held
    · exact passes x held
    · exact absurd (prev.symm.trans held) (by simp)
  unfold Block.poseAssembly
  rw [if_pos goes]
  unfold Block.assemblePose
  rw [tc, sols] <;> rfl

/-- Settles O28: each of the three by the parcel it seals once, and by the guard that it leaves shut. -/
theorem alignmentUnit : Obligations.AlignmentUnit := by
  unfold Obligations.AlignmentUnit
  intro s
  refine ⟨fun on fixed fresh pool both passes => completes_of_act (f := Block.preintBuild []) rfl ?_, fun rs done => ?_, fun rs open_ pending => ?_,
    fun on fixed fresh over_ none prev unsolved size => completes_of_act (f := Block.poseAssembly []) rfl ?_,
    fun x on fixed fresh over_ held prev passes epoch has hasEpoch key size => completes_of_act (f := Block.poseAssembly []) rfl ?_, fun rs done => ?_,
    fun on near new prev pool size => ⟨fun none => completes_of_act (f := Block.predEmit []) rfl ?_,
      fun x held passes before has => completes_of_act (f := Block.predEmit []) rfl ?_⟩, fun rs late => ?_, fun rs done => ?_⟩
  · obtain ⟨b, payload, ins, n, marks, run, length, ends, held⟩ := Block.preintBuild_told (s := s.toBlock) on fixed fresh pool both passes
    obtain ⟨type, producer, stream, own, afu, ep, rest⟩ := Block.sealPreint_told marks payload ins
    rw [run]
    generalize b.sealPreint payload ins = t at *
    refine ⟨⟨_, afu, type, producer, stream, by rw [own]; exact length, by rw [own]; exact ends, fun none => ?_⟩, fun none => ?_, ?_⟩
    · obtain ⟨-, steps, flags⟩ := held none
      rw [own]
      exact ⟨steps, flags⟩
    · exact (congrArg Ep.degraded ep).trans (held none).1
    · conv_lhs => rw [rest]
      rfl
  · refine State.act_of_eq (f := Block.preintBuild rs) ?_
    simp only [Block.preintBuild, done, Bool.or_true, Bool.true_or, if_true]
  · refine State.act_of_eq (f := Block.preintBuild rs) ?_
    simp only [Block.preintBuild, open_, pending, Bool.not_false, Bool.and_self, Bool.or_true, if_true]
  · rw [Block.poseAssembly_eq on fixed fresh over_ (by rw [unsolved]; rfl) prev fun x held => absurd (none.symm.trans held) (by simp), none]
    exact Block.poseNone_told size
  · have neither : ¬ ((s.afu.noSol || s.afu.noSolEpoch) = true) := by rw [has, hasEpoch]; decide
    rw [Block.poseAssembly_eq on fixed fresh over_ (by rw [key, Bool.or_true]) prev fun y other => by
      rw [← Option.some.inj (held.symm.trans other)]; exact passes, held]
    dsimp only
    rw [if_neg neither, if_pos epoch]
    exact Block.poseSolved_told size x
  · refine State.act_of_eq (f := Block.poseAssembly rs) ?_
    simp only [Block.poseAssembly, done, Bool.not_true, Bool.and_false, Bool.false_and, Bool.false_eq_true, if_false]
  · exact Block.predEmit_none (s := s.toBlock) rfl on near new prev pool size none
  · exact Block.predEmit_sol (s := s.toBlock) rfl on near new prev pool size held passes before has
  · refine State.act_of_eq (f := Block.predEmit rs) ?_
    unfold Block.predEmit
    dsimp only
    rw [decide_eq_false (past_tick late), Bool.and_false, Bool.false_and, if_neg (by decide)]
  · refine State.act_of_eq (f := Block.predEmit rs) ?_
    unfold Block.predEmit
    dsimp only
    rw [decide_eq_false (Nat.not_lt.2 done), Bool.and_false, if_neg (by decide)]

end Sys2Proof.Machine
end

section
/-! PROOF. A block operation on a tile, its pivots and fences, and the decision of an iteration (O33; R356, R357, R371 to R375, R379, R382). -/

namespace Sys2Proof.Machine

/-! ### A job of the list -/

/-- A change of a job that keeps its number is found under that number. -/
theorem Block.job_onJob {n : Nat} {f : Job → Job} {j : Job} {b : Block} (known : b.job n = some j) (keeps : (f j).no = n) :
    (b.onJob n f).job n = some (f j) := by
  unfold Block.job at known ⊢
  unfold Block.onJob
  dsimp only
  generalize b.badger.jobs = l at known
  induction l with
  | nil => simp at known
  | cons k l ih =>
    rw [List.find?_cons] at known
    rw [List.map_cons, List.find?_cons]
    cases own : k.no == n with
    | true =>
      rw [own] at known
      cases known
      rw [if_pos rfl, keeps, beq_self_eq_true]
    | false =>
      rw [own] at known
      rw [if_neg (by decide), own]
      exact ih known

theorem Block.job_no {n : Nat} {j : Job} {b : Block} (known : b.job n = some j) : j.no = n := by
  simpa using List.find?_some known

/-- The next operation of a job is set, and nothing else of it but the factorisation's start. -/
theorem Job.moved_told (j : Job) : j.moved.no = j.no ∧ j.moved.x = j.x ∧ j.moved.lam = j.lam ∧ j.moved.accepted = j.accepted ∧ j.moved.trips = j.trips
    ∧ j.moved.tinyAll = j.tinyAll ∧ j.moved.store = j.store := by
  unfold Job.moved
  dsimp only
  generalize (if j.rows = 0 then Work.solved else j.advance j.fuel j.work) = w
  split
  · exact ⟨rfl, rfl, rfl, rfl, rfl, rfl, rfl⟩
  · exact ⟨rfl, rfl, rfl, rfl, rfl, rfl, rfl⟩

/-! ### The blocks that an operation seals -/

/-- A job in the course of an operation: blocks are sealed into its store, and nothing else of it or of the block changes but what is told. -/
structure Block.Fills (n : Nat) (j : Job) (a b : Block) : Prop where
  job : ∃ k, b.job n = some k ∧ k = { j with store := k.store, opTrips := k.opTrips, lastTile := k.lastTile }
  rest : b = { a with
    badger := { a.badger with jobs := b.badger.jobs }, host := b.host, flt := { a.flt with traceDrop := b.flt.traceDrop } }

/-- A tile seals a block: it stands first in the job's store, with what it was computed from (R173, R357). -/
theorem Block.putBlock_told {n tile : Nat} {k : Place} {f : Fmt} {vals : List Int} {ins : List InRef} {j : Job} {a b : Block} (h : Block.Fills n j a b)
    (own : j.no = n) :
    Block.Fills n j a (b.putBlock n tile k f vals ins)
      ∧ ∃ i p, (b.putBlock n tile k f vals ins).job n = some i ∧ (p, ins) ∈ i.store ∧ p.producer = tileUnit tile ∧ p.type = 0x0602
        ∧ p.payload = blockPayload (BitVec.ofNat 32 k.2.1) (BitVec.ofNat 32 k.2.2) f vals := by
  obtain ⟨⟨i, known, same⟩, rest⟩ := h
  set pay := blockPayload (BitVec.ofNat 32 k.2.1) (BitVec.ofNat 32 k.2.2) f vals
  set p := b.flowParcel 0xFF 0x0602 (tileUnit tile) pay ins with pDef
  set g : Job → Job := fun j => { j with store := (p, ins) :: j.store.filter (fun x => keyOf x.1 != keyOf p), opTrips := 0, lastTile := tile } with gDef
  have run : b.putBlock n tile k f vals ins = (b.sealOnly 0x0602 (tileUnit tile) pay ins).onJob n g := rfl
  have sealed_ : (b.sealOnly 0x0602 (tileUnit tile) pay ins).job n = some i := known
  have no : (g i).no = n := by
    rw [gDef]
    dsimp only
    rw [same]
    exact own
  have found := Block.job_onJob sealed_ no
  obtain ⟨type, payload, producer⟩ := sealParcel_payload b.chip (BitVec.ofNat 16 0x0602) (BitVec.ofNat 8 0xFF)
    (b.host.flowSeq (tileUnit tile) (BitVec.ofNat 8 0xFF)) (tileUnit tile) pay ins
  rw [run]
  refine ⟨⟨⟨g i, found, ?_⟩, ?_⟩, g i, p, found, List.mem_cons_self, producer, type, payload⟩
  · rw [gDef]
    dsimp only
    rw [same]
  · obtain ⟨jobs, host, drop, e⟩ : ∃ jobs host drop, b = { a with
        badger := { a.badger with jobs := jobs }, host := host, flt := { a.flt with traceDrop := drop } } := ⟨_, _, _, rest⟩
    rw [e]
    rfl

/-- The results of an operation, sealed one after the other. -/
theorem Block.putBlocks_told {n tile : Nat} {fmt : Place → Fmt} {ins : List InRef} {j : Job} {a : Block} (own : j.no = n) (outs : List (Place × List Int)) {b : Block}
    (h : Block.Fills n j a b) : Block.Fills n j a (outs.foldl (fun b x => b.putBlock n tile x.1 (fmt x.1) x.2 ins) b) := by
  induction outs generalizing b with
  | nil => exact h
  | cons x outs ih => exact ih (Block.putBlock_told h own).1

/-- The last of them stands in the store as it was sealed. -/
theorem Block.putBlocks_last {n tile : Nat} {fmt : Place → Fmt} {ins : List InRef} {j : Job} {a : Block} (own : j.no = n) (outs : List (Place × List Int)) {b : Block}
    (h : Block.Fills n j a b) {x : Place × List Int} (last : outs.getLast? = some x) :
    ∃ i p, (outs.foldl (fun b x => b.putBlock n tile x.1 (fmt x.1) x.2 ins) b).job n = some i ∧ (p, ins) ∈ i.store ∧ p.producer = tileUnit tile
      ∧ p.type = 0x0602 ∧ p.payload = blockPayload (BitVec.ofNat 32 x.1.2.1) (BitVec.ofNat 32 x.1.2.2) (fmt x.1) x.2 := by
  obtain ⟨before, e⟩ := List.getLast?_eq_some_iff.1 last
  rw [e, List.foldl_append, List.foldl_cons, List.foldl_nil]
  exact (Block.putBlock_told (Block.putBlocks_told own before h) own).2

/-- An operation that computes its blocks seals them and moves its job on (R373 to R376). -/
theorem Block.nextOp_ok {n : Nat} {j : Job} {tile : Nat} {o : OpOut} {b : Block} (known : b.job n = some j) (result : j.run j.work = .ok o) :
    let t := b.nextOp j tile
    (∃ k : Job, t.job n = some k ∧ k.x = j.x ∧ k.lam = j.lam ∧ k.accepted = j.accepted ∧ k.trips = j.trips ∧ k.tinyAll = j.tinyAll + o.tiny
        ∧ ∀ x, o.outs.getLast? = some x → ∃ m ∈ k.store, m.2 = j.reading.map Parcel.ref ∧ m.1.producer = tileUnit tile ∧ m.1.type = 0x0602
            ∧ m.1.payload = blockPayload (BitVec.ofNat 32 x.1.2.1) (BitVec.ofNat 32 x.1.2.2) (j.keyFmt x.1) x.2)
      ∧ t = { b with
          badger := { b.badger with jobs := t.badger.jobs, lmDropped := bumpBy b.badger.lmDropped o.lost }
          host := t.host, flt := { b.flt with traceDrop := t.flt.traceDrop } } := by
  have own := Block.job_no known
  have start : Block.Fills n j b b := ⟨⟨j, known, rfl⟩, rfl⟩
  unfold Block.nextOp
  rw [result]
  dsimp only
  rw [own]
  have last := fun x => Block.putBlocks_last (tile := tile) (fmt := j.keyFmt) (ins := j.reading.map Parcel.ref) own o.outs start (x := x)
  obtain ⟨⟨i, found, same⟩, rest⟩ := Block.putBlocks_told (tile := tile) (fmt := j.keyFmt) (ins := j.reading.map Parcel.ref) own o.outs start
  generalize o.outs.foldl (fun b x => b.putBlock n tile x.1 (j.keyFmt x.1) x.2 (j.reading.map Parcel.ref)) b = b1 at *
  set i1 : Job := { i with
    tiny := i.tiny + o.tiny, tinyAll := i.tinyAll + o.tiny, ill := i.ill || decide (i.kReg < i.tiny + o.tiny)
    illEver := i.illEver || decide (i.kReg < i.tiny + o.tiny), dropped := i.dropped || decide (0 < o.lost) } with i1Def
  obtain ⟨no, x, lam, accepted, trips, tiny, store⟩ := i1.moved_told
  have counted : (Block.onJob n (fun (j : Job) => Job.moved { j with
      tiny := j.tiny + o.tiny, tinyAll := j.tinyAll + o.tiny, ill := j.ill || decide (j.kReg < j.tiny + o.tiny)
      illEver := j.illEver || decide (j.kReg < j.tiny + o.tiny), dropped := j.dropped || decide (0 < o.lost) })
      { b1 with badger := { b1.badger with lmDropped := bumpBy b1.badger.lmDropped o.lost } }).job n = some i1.moved := by
    refine Block.job_onJob (j := i) found ?_
    exact no.trans ((congrArg Job.no same).trans own)
  obtain ⟨xOf, lamOf, acceptedOf, tripsOf, tinyOf⟩ : i.x = j.x ∧ i.lam = j.lam ∧ i.accepted = j.accepted ∧ i.trips = j.trips ∧ i.tinyAll = j.tinyAll := by
    rw [same]
    exact ⟨rfl, rfl, rfl, rfl, rfl⟩
  refine ⟨⟨_, counted, x.trans xOf, lam.trans lamOf, accepted.trans acceptedOf, trips.trans tripsOf,
    tiny.trans (congrArg (· + o.tiny) tinyOf), fun y final => ?_⟩, ?_⟩
  · obtain ⟨i', p, found', mem, producer, type, payload⟩ := last y final
    have stored : (p, j.reading.map Parcel.ref) ∈ i.store := by
      rw [Option.some.inj (found.symm.trans found')]
      exact mem
    exact ⟨(p, _), by rw [store]; exact stored, rfl, producer, type, payload⟩
  · obtain ⟨jobs, host, drop, e⟩ : ∃ jobs host drop, b1 = { b with
        badger := { b.badger with jobs := jobs }, host := host, flt := { b.flt with traceDrop := drop } } := ⟨_, _, _, rest⟩
    rw [e]
    rfl

/-- An operation whose fence trips lowers that block's format and counts, and seals nothing (R371, R372). -/
theorem Block.nextOp_trips {n : Nat} {j : Job} {tile : Nat} {k : Place} {b : Block} (known : b.job n = some j) (result : j.run j.work = .error k)
    (stays : tripFaults j (j.keyFmt k) = false) :
    (b.nextOp j tile).job n = some (j.lowered (j.keyFmt k) (BitVec.ofNat 32 k.2.1) (BitVec.ofNat 32 k.2.2))
      ∧ b.nextOp j tile = { b with badger := { b.badger with jobs := (b.nextOp j tile).badger.jobs, rangeTrips := bump b.badger.rangeTrips } } := by
  have own := Block.job_no known
  unfold Block.nextOp
  rw [result]
  unfold Block.trip
  dsimp only
  rw [if_neg (by rw [stays]; decide), own]
  have found := Block.job_onJob (f := fun i => i.lowered (j.keyFmt k) (BitVec.ofNat 32 k.2.1) (BitVec.ofNat 32 k.2.2)) known own
  exact ⟨found, rfl⟩

/-! ### The operation on its tile -/

/-- A tile that goes on to the job of highest priority (R356). -/
def Block.tileFree (tile : Nat) (b : Block) : Block := { b with badger := { b.badger with tiles := b.badger.tiles.set tile b.badger.first } }

/-- The jobs stand as a tile goes on. -/
theorem Block.job_tileFree (n tile : Nat) (b : Block) : (Block.tileFree tile b).job n = b.job n := rfl

/-- A tile that works for a job does the operation, where what it reads verifies and its residue check passes (R174, R357). -/
theorem Block.blockOpDone_eq {n : Nat} {j : Job} {tile : Fin 16} {op : BlockOp} {s : Block} (known : s.job n = some j) (works : s.works j = true)
    (live : s.flt.tiles.getLsbD tile = true) (dealt : s.badger.deal.tiles.getD tile none = some n) (redone : j.redo = [])
    (reads : op = .next ∨ op = .linearised) (passes : ∀ p ∈ j.reading, sealFault p = none) :
    s.blockOpDone n tile op true [] = Block.tileFree tile (Block.blockOp j tile op { s with badger := s.badger.deal }) := by
  have goes : ¬ ((!s.works j || !s.flt.tiles.getLsbD tile || s.badger.deal.tiles.getD tile none != some n) = true) := by
    rw [works, live, dealt]
    simp
  have verified : Block.verifyOp n tile j.reading [] { s with badger := s.badger.deal } = (true, { s with badger := s.badger.deal }) := by
    rw [Block.verifyOp, Block.verifyAll_clean passes]
  have here : Block.job n { s with badger := s.badger.deal } = some j := known
  unfold Block.blockOpDone
  dsimp only
  rw [here]
  dsimp only
  rw [show Block.works j { s with badger := s.badger.deal } = s.works j from rfl, if_neg goes, redone]
  rcases reads with e | e
  · rw [e]
    dsimp only
    rw [verified]
    rfl
  · rw [e]
    dsimp only
    rw [verified]
    rfl

/-! ### The decision of an iteration -/

/-- Past its first iteration and with a cost, a job decides only an iteration whose solve is complete (R373, R379). -/
theorem Block.lmDecide_unsolved {j : Job} {d : IterIn} {b : Block} (later : j.decided ≠ 0) (unsolved : j.solves = false) : b.lmDecide j d = b := by
  unfold Block.lmDecide
  dsimp only
  rw [if_neg (fun first => later first.1), unsolved]
  rfl

/-- A decision that neither stops the job nor is its last changes the job alone (R379). -/
theorem Block.lmDecide_goesOn {j : Job} {d : IterIn} {c : Int} {b : Block} (cost : j.cost = some c) (later : j.decided ≠ 0) (solved : j.solves = true)
    (goesOn : d.cTry < c → lmStops j.resEps j.stepMin d.grad2 (j.g0.getD d.init.2) (if j.pcg then d.maxDx else j.maxStep) = false)
    (more : j.decided + 1 < j.maxOuter) :
    b.lmDecide j d = b.onJob j.no fun _ => { (j.decide d c).1 with g0 := some (j.g0.getD d.init.2) } := by
  have decided : (j.decide d c).1.decided = j.decided + 1 := by
    unfold Job.decide
    dsimp only
    split <;> rfl
  have runsOn : ¬ (((j.decide d c).2 && lmStops j.resEps j.stepMin d.grad2 (j.g0.getD d.init.2) (if j.pcg then d.maxDx else j.maxStep)) = true) := by
    intro stops
    obtain ⟨lower, stop⟩ := Bool.and_eq_true_iff.mp stops
    rw [goesOn (of_decide_eq_true lower)] at stop
    exact Bool.false_ne_true stop
  unfold Block.lmDecide
  dsimp only
  rw [if_neg (fun first => later first.1), solved, if_neg (by decide), cost]
  dsimp only [Option.getD_some]
  rw [if_neg runsOn, if_neg (by rw [decided]; omega)]

/-- The decision is that of the job's class while its islands run and its deadline is not over. -/
theorem Block.iterationDecide_eq {n : Nat} {d : IterIn} {j : Job} {b : Block} (known : b.job n = some j) (works : b.works j = true) (cls : j.cls ≠ 3) :
    b.iterationDecide n d = b.lmDecide j d := by
  unfold Block.iterationDecide
  rw [known]
  dsimp only
  rw [works, if_neg (by decide), if_neg cls]

/-! ### The obligation -/

/-- lambda stays in its format, at least one step above zero (R375, R379). -/
theorem nextLambda_told (l : Nat) (ill acc : Bool) : 1 ≤ nextLambda l ill acc ∧ nextLambda l ill acc < 2 ^ 32
    ∧ (l * 10 < 2 ^ 32 → 1 ≤ l → nextLambda l true acc = l * 10) ∧ (l * 4 < 2 ^ 32 → 1 ≤ l → nextLambda l false false = l * 4) := by
  unfold nextLambda
  refine ⟨Nat.le_max_left _ _, ?_, fun fits some_ => ?_, fun fits some_ => ?_⟩
  · have capped := Nat.min_le_left 0xFFFFFFFF (if ill = true then l * 10 else if acc = true then rneNat l 4 else l * 4)
    omega
  · rw [if_pos rfl]
    omega
  · rw [if_neg (by decide), if_neg (by decide)]
    omega

/-- Settles O33: an operation by what it stores or trips, a decision by whether its cost falls. -/
theorem tilesAndIterations : Obligations.TilesAndIterations := by
  unfold Obligations.TilesAndIterations
  intro s n j known
  have own := Block.job_no known
  refine ⟨fun tile op ok x off => ?_, fun tile works live dealt redone => ⟨fun notRead notSolved passes => ⟨fun o result => ?_, fun k result stays => ?_⟩, fun first factors passes => ?_⟩,
    fun frac p => ⟨fun large => ?_, fun tiny => ⟨?_, ?_⟩⟩, fun works d c cls cost some_ => ⟨fun waits => ?_, fun solved more => ⟨fun worse => ?_, fun better goesOn => ?_⟩⟩,
    nextLambda_told⟩
  · refine State.act_of_eq (f := Block.blockOpDone n tile op ok x) ?_
    have waits : (!s.works j || !s.flt.tiles.getLsbD tile || s.badger.deal.tiles.getD tile none != some n) = true := by
      rcases off with off | off <;> rw [off] <;> simp
    have here : Block.job n { s.toBlock with badger := s.badger.deal } = some j := known
    unfold Block.blockOpDone
    dsimp only
    rw [here]
    dsimp only
    exact if_pos waits
  · refine completes_of_act (f := Block.blockOpDone n tile .next true []) rfl ?_
    rw [Block.blockOpDone_eq known works live dealt redone (.inl rfl) passes, Block.blockOp, if_neg (by simp [notRead, notSolved])]
    obtain ⟨job, rest⟩ := Block.nextOp_ok (tile := tile) (b := { s.toBlock with badger := s.badger.deal }) known result
    generalize Block.nextOp j tile { s.toBlock with badger := s.badger.deal } = b1 at job rest ⊢
    refine ⟨job, ?_⟩
    obtain ⟨jobs, host, drop, e⟩ : ∃ jobs host drop, b1 = { s.toBlock with
        badger := { s.badger.deal with jobs := jobs, lmDropped := bumpBy s.badger.lmDropped o.lost }
        host := host, flt := { s.flt with traceDrop := drop } } := ⟨_, _, _, rest⟩
    rw [e]
    rfl
  · refine completes_of_act (f := Block.blockOpDone n tile .next true []) rfl ?_
    rw [Block.blockOpDone_eq known works live dealt redone (.inl rfl) passes, Block.blockOp, if_neg (by simp [notRead, notSolved])]
    obtain ⟨job, rest⟩ := Block.nextOp_trips (tile := tile) (b := { s.toBlock with badger := s.badger.deal }) known result stays
    generalize Block.nextOp j tile { s.toBlock with badger := s.badger.deal } = b1 at job rest ⊢
    refine ⟨job, ?_⟩
    obtain ⟨jobs, e⟩ : ∃ jobs, b1 = { s.toBlock with
        badger := { s.badger.deal with jobs := jobs, rangeTrips := bump s.badger.rangeTrips } } := ⟨_, rest⟩
    rw [e]
    rfl
  · subst own
    refine completes_of_act (f := Block.blockOpDone j.no tile .linearised true []) rfl ?_
    rw [Block.blockOpDone_eq known works live dealt redone (.inr rfl) passes, Block.blockOp, if_pos ⟨first, by rw [factors]; rfl⟩]
    have found := Block.job_onJob (f := fun j => Job.moved { j with lastTile := tile }) (b := { s.toBlock with badger := s.badger.deal }) known
      ((Job.moved_told { j with lastTile := tile }).1)
    exact ⟨(Block.job_tileFree j.no tile _).trans found, rfl⟩
  · simp [Job.pivotOf, large]
  · simp [Job.pivotOf, tiny]
  · simp [Job.pivotOf, tiny]
  · refine State.act_of_eq (f := Block.iterationDecide n d) ?_
    rw [Block.iterationDecide_eq known works cls, Block.lmDecide_unsolved some_ waits]
  · refine completes_of_act (f := Block.iterationDecide n d) rfl ?_
    rw [Block.iterationDecide_eq known works cls, Block.lmDecide_goesOn cost some_ solved (fun lower => absurd lower (by omega)) more, own]
    have kept : j.decide d c = ({ j with
        decided := j.decided + 1, lam := nextLambda j.lam j.ill false, ill := false, cost := some c, pcgIters := 0, store := [], redo := []
        work := .linearise }, false) := by
      unfold Job.decide
      rw [decide_eq_false (by omega)]
      rfl
    rw [kept]
    exact ⟨⟨_, Block.job_onJob known own, rfl, rfl, rfl, rfl, rfl, rfl, rfl⟩, rfl⟩
  · refine completes_of_act (f := Block.iterationDecide n d) rfl ?_
    rw [Block.iterationDecide_eq known works cls, Block.lmDecide_goesOn cost some_ solved (fun _ => goesOn) more, own]
    have taken : j.decide d c = ({ j with
        decided := j.decided + 1, lam := nextLambda j.lam j.ill true, ill := false, cost := some d.cTry, pcgIters := 0, store := [], redo := []
        work := .linearise, accepted := j.accepted + 1, x := d.x, cost32 := d.cost, cov := if j.cls = 0 then j.poseCov else d.cov }, true) := by
      unfold Job.decide
      rw [decide_eq_true better]
      rfl
    rw [taken]
    exact ⟨⟨_, Block.job_onJob known own, rfl, rfl, rfl, rfl, rfl, rfl, rfl⟩, rfl⟩

end Sys2Proof.Machine
end

section
/-! PROOF. The inertial filter chain's inputs, outputs and SYNC (O26; R143, R144, R175, R232 to R267). -/

namespace Sys2Proof.Machine

/-! ### What an input reaches (R232 to R263) -/

/-- A block with what the filter chain reaches taken from another: its channels and groups, the records for the AFU, the pins that an event unit
drives, a wake with the boundary of an armed swap, what is emitted, and the free values drawn. -/
def Block.filtered (a t : Block) : Block :=
  { a with
    pins := t.pins, cfg := { a.cfg with armed := t.cfg.armed }, pwr := { a.pwr with wake := t.pwr.wake }
    ifc := t.ifc, afu := t.afu, host := t.host, flt := t.flt, fresh := t.fresh }

/-- Only what the filter chain reaches differs. -/
def Block.Filters (a t : Block) : Prop := t = a.filtered t

theorem Block.Filters.refl (a : Block) : Filters a a := rfl

theorem Block.Filters.trans {a b c : Block} (first : Filters a b) (second : Filters b c) : Filters a c := by
  unfold Filters at first second ⊢
  rw [first] at second
  exact second

theorem Block.Filters.foldl {α : Type} {f : Block → α → Block} (each : ∀ b x, Filters b (f b x)) (l : List α) (b : Block) :
    Filters b (l.foldl f b) := by
  induction l generalizing b with
  | nil => exact .refl b
  | cons x l ih => exact (each b x).trans (ih (f b x))

theorem Block.Filters.either {p : Prop} [Decidable p] {a x y : Block} (yes : Filters a x) (no : Filters a y) : Filters a (if p then x else y) := by
  split
  · exact yes
  · exact no

theorem Block.onChan_filters (c : Nat) (f : Chan → Chan) (b : Block) : Filters b (b.onChan c f) := rfl

theorem Block.onGroup_filters (g : Nat) (f : Group → Group) (b : Block) : Filters b (b.onGroup g f) := rfl

theorem Block.chanCount_filters (c i : Nat) (b : Block) : Filters b (b.chanCount c i) := rfl

theorem Block.diag_filters (code : Nat) (source : BitVec 8) (body : Bytes) (b : Block) : Filters b (b.diag code source body) :=
  Block.eq_of_fields (by simp [filtered])

theorem Block.evPin_filters (c u : Nat) (start : Bool) (b : Block) : Filters b (b.evPin c u start) := Block.eq_of_fields (by simp [filtered])

theorem Block.putOut_filters (c : Nat) (r : IfcRec) (ins : List InRef) (b : Block) : Filters b (b.putOut c r ins) :=
  Block.eq_of_fields (by simp [filtered])

theorem Block.chanRestart_filters (c : Nat) (stamp : Tick) (b : Block) : Filters b (b.chanRestart c stamp) :=
  Block.eq_of_fields (by simp [filtered])

theorem Block.ifcRelease_filters (b : Block) : Filters b b.ifcRelease := Block.eq_of_fields (by simp [filtered])

/-- A wake takes its tick, and with it the boundary of an armed swap (R602, R603). -/
theorem Block.wakeUp_filters (src : WakeSrc) (b : Block) : Filters b (b.wakeUp src) := by
  unfold Block.wakeUp
  exact .either rfl (.refl b)

/-- An event unit changes its channel and group, may wake the engine, and drives its pin (R258 to R260). -/
theorem Block.evRun_filters (c u : Nat) (r : IfcRec) (b : Block) : Filters b (b.evRun c u r) := by
  unfold Block.evRun
  refine .either (.refl b) ?_
  refine Filters.trans ?_ (.either (Block.evPin_filters c u _ _) (.refl _))
  refine Filters.trans ?_ (.either (Block.wakeUp_filters _ _) (.refl _))
  exact (Block.onChan_filters c _ b).trans (.either (Block.onGroup_filters _ _ _) (.refl _))

/-- An output counts its flags, joins its group's parcel, and runs the channel's event units (R237 to R241, R253, R255). -/
theorem Block.ifcOutput_filters (c n : Nat) (code : BitVec 8) (b : Block) : Filters b (b.ifcOutput c n code) := by
  unfold Block.ifcOutput
  refine Filters.trans ?_ (Block.evRun_filters c 1 _ _)
  refine Filters.trans ?_ (Block.evRun_filters c 0 _ _)
  refine Filters.trans ?_ (Block.putOut_filters c _ _ _)
  refine Filters.trans ?_ (.either (Block.chanCount_filters c 5 _) (.refl _))
  refine Filters.trans ?_ (.either (Block.chanCount_filters c 4 _) (.refl _))
  exact (Block.onChan_filters c _ b).trans (.either (Block.chanCount_filters c 3 _) (.refl _))

theorem Block.ifcEnter_filters (c : Nat) (i : IfcIn) (b : Block) : Filters b (b.ifcEnter c i) := by
  unfold Block.ifcEnter
  exact (Block.onChan_filters c _ b).trans (.either (Block.ifcOutput_filters c _ _ _) (.refl _))

/-- A sample fills a gap or restarts its channel, and enters it (R246 to R248). -/
theorem Block.ifcSample_filters (c slot : Nat) (stamp : Tick) (code : BitVec 8) (ovr : Bool) (raw : BitVec 32) (src : InRef) (b : Block) :
    Filters b (b.ifcSample c slot stamp code ovr raw src) := by
  have fills : ∀ (last : Option IfcIn) (at_ : Nat → Tick) (l : List Nat) (a : Block), Filters a (l.foldl (fun b j =>
      match last with
      | some p => b.ifcEnter c { p with
          stamp := at_ j, fill := true, v := BitVec.ofInt 32 (rescale p.raw.toInt (b.scaleFor c p.code.toNat (at_ j))) }
      | none => b) a) := by
    intro last at_ l a
    refine .foldl (fun b j => ?_) l a
    cases last with
    | none => exact .refl b
    | some p => exact Block.ifcEnter_filters c _ b
  unfold Block.ifcSample
  refine .either (.refl b) ?_
  refine Filters.trans ?_ (Block.ifcEnter_filters c _ _)
  refine Filters.trans ?_ (Block.onChan_filters c _ _)
  refine .either ((Block.onChan_filters c _ b).trans (Block.diag_filters _ _ _ _)) ?_
  refine .either (.refl b) ?_
  refine .either ((Block.chanCount_filters c 1 b).trans ?_) ((Block.chanRestart_filters c _ b).trans (Block.diag_filters _ _ _ _))
  exact fills _ _ _ _

/-- The samples of a parcel reach the filter chain alone (R232, R265). -/
theorem Block.ifcTake_filters (slot : Nat) (p : Parcel) (b : Block) : Filters b (b.ifcTake slot p) :=
  .foldl (fun b _ => .foldl (fun b _ => Block.ifcSample_filters _ _ _ _ _ _ _ b) _ b) _ b

/-! ### The oldest parcel of a slot (R175, R232) -/

/-- A slot's oldest INERTIAL parcel whose seal verifies enters its samples while the island runs. -/
theorem Block.ifcInput_eq {slot : Fin 6} {p : Parcel} {b : Block} (ready : b.boot.phase = .ready) (up : b.flt.restarting.getD 3 false = false)
    (passes : sealFault p = none)
    (oldest : b.host.pool.find? (fun q => q.type == 0x0110 && q.stream == BitVec.ofNat 8 (0x90 + slot.val) && !b.ifc.taken.any (InRef.same q.ref))
      = some p) :
    b.ifcInput slot .intact = (Block.ifcTake slot p { b with ifc := { b.ifc with taken := p.ref :: b.ifc.taken } }).ifcRelease := by
  unfold Block.ifcInput
  rw [oldest]
  dsimp only
  rw [up, Block.ready, ready, Block.verify_intact passes]
  rfl

/-- The filter chain takes nothing while its island restarts. -/
theorem Block.ifcInput_waits {slot : Fin 6} {seen : Seen} {b : Block} (restarts : b.flt.restarting.getD 3 false = true) : b.ifcInput slot seen = b := by
  unfold Block.ifcInput
  rw [restarts]
  split <;> rfl

/-! ### A group's parcel (R264, R265) -/

/-- The INERTIAL parcels that nothing needs any more leave the pool (R175). -/
theorem Block.ifcRelease_told (b : Block) :
    b.ifcRelease = { b with ifc := { b.ifc with taken := b.ifcRelease.ifc.taken }, host := b.ifcRelease.host } := by
  have released : ∀ (l : List InRef) (a : Block), l.foldl (fun b r => b.release r) a = { a with host := (l.foldl (fun b r => b.release r) a).host } := by
    intro l
    induction l with
    | nil => exact fun _ => rfl
    | cons r l ih => exact fun a => ih (a.release r)
  unfold Block.ifcRelease
  dsimp only
  rw [released]

/-- The events of a group leave, and then the parcels that nothing needs any more. -/
theorem Block.groupEvents_told (es : List (BitVec 8 × Bytes)) (unit : BitVec 8) (ins : List InRef) (a : Block) :
    ∃ taken host flt, (es.foldl (fun (b : Block) e => b.emit 2 0x0E01 unit e.2 ins) a).ifcRelease
      = { a with ifc := { a.ifc with taken := taken }, host := host, flt := flt } := by
  have emitted : a.Emits (es.foldl (fun (b : Block) e => b.emit 2 0x0E01 unit e.2 ins) a) := (Block.Emits.refl a).foldl fun _ _ h => h.emit
  rw [Block.ifcRelease_told]
  generalize es.foldl (fun (b : Block) e => b.emit 2 0x0E01 unit e.2 ins) a = t at emitted ⊢
  obtain ⟨host, drop, e⟩ : ∃ host drop, t = { a with host := host, flt := { a.flt with traceDrop := drop } } := ⟨_, _, emitted⟩
  subst e
  exact ⟨_, _, _, rfl⟩

/-- A group's parcel is sealed, its records go to the AFU, and the group is empty (R264, R265). -/
theorem Block.closeOut_told {g : Nat} {b : Block} (filled : (b.ifc.groups.getD g {}).recs ≠ []) :
    let x := b.ifc.groups.getD g {}
    let p := b.flowParcel (0xA0 + g) 0x0201 (ifcUnit (6 * g)) (b.ifcPayload g x.recs) x.inputs
    let t := b.closeOut g
    t.ifc.groups = b.ifc.groups.modify g (fun y => { y with recs := [], inputs := [], events := [], last := some p.ref })
      ∧ t.afu = afuTake x.recs p.ref b.afu
      ∧ t = { b with ifc := { b.ifc with groups := t.ifc.groups, taken := t.ifc.taken }, afu := t.afu, host := t.host, flt := t.flt } := by
  have some_ : ¬ ((b.ifc.groups.getD g {}).recs.isEmpty = true) := by simpa using filled
  dsimp only
  unfold Block.closeOut
  dsimp only
  rw [if_neg some_]
  generalize b.flowParcel (0xA0 + g) 0x0201 (ifcUnit (6 * g)) (b.ifcPayload g (b.ifc.groups.getD g {}).recs) (b.ifc.groups.getD g {}).inputs = p
  obtain ⟨host, drop, e⟩ : ∃ host drop, b.flow (0xA0 + g) 0x0201 (ifcUnit (6 * g)) (b.ifcPayload g (b.ifc.groups.getD g {}).recs)
    (b.ifc.groups.getD g {}).inputs = { b with host := host, flt := { b.flt with traceDrop := drop } } := ⟨_, _, (Block.Emits.refl b).flow⟩
  rw [e]
  obtain ⟨taken, host2, flt2, e2⟩ := Block.groupEvents_told (b.ifc.groups.getD g {}).events (ifcUnit (6 * g)) [p.ref]
    (Block.onGroup g (fun y => { y with recs := [], inputs := [], events := [], last := some p.ref })
      { b with host := host, flt := { b.flt with traceDrop := drop }, afu := afuTake (b.ifc.groups.getD g {}).recs p.ref b.afu })
  rw [e2]
  exact ⟨rfl, rfl, rfl⟩

/-! ### SYNC (R143, R144, R249, R602) -/

/-- An entry of a table that is mapped with its index. -/
theorem getD_mapIdx {α : Type} {l : List α} {k : Nat} (inside : k < l.length) (f : Nat → α → α) (d : α) : (l.mapIdx f).getD k d = f k (l.getD k d) := by
  simp [List.getD_eq_getElem?_getD, inside]

/-- A SYNC at the present tick is due at the next input of each running channel that answers it, and touches no other (R249). -/
theorem Block.syncAnchor_anchored (bit : Nat) (b : Block) : b.syncAnchored bit (b.syncAnchor bit false b.now).ifc := by
  intro c inside
  have here : (b.syncAnchor bit false b.now).ifc.chans.getD c {} = if ((b.chan c).running && (b.setting 3 (c / 6) 16 1).testBit bit) = true
      then (match (b.chan c).hist.reverse.find? fun i => decide (b.now ≤ i.stamp) with
        | some i => { b.chan c with n0 := i.n, syncDue := true }
        | none => { b.chan c with syncAts := (b.chan c).syncAts ++ [b.now] })
      else b.chan c := by
    unfold Block.syncAnchor
    rw [getD_mapIdx inside]
    simp only [Bool.false_and, Bool.not_false, Bool.and_true] <;> rfl
  refine ⟨fun silent => ?_, fun runs answers older => ?_⟩
  · rw [here]
    exact if_neg (by rcases silent with e | e <;> simp [e])
  · have behind : (b.chan c).hist.reverse.find? (fun i => decide (b.now ≤ i.stamp)) = none := by
      rw [List.find?_eq_none]
      intro i mem
      have before := older i (List.mem_reverse.mp mem)
      simpa using before
    rw [here, runs, answers, behind]
    rfl

/-- With no SYNC's window open and the engine awake, a SYNC opens its window and anchors the channels that answer its source. -/
theorem Block.syncFrom_alone {bit : Nat} {stamp : Tick} {b : Block} (alone : b.tim.syncPend = none) (awake : b.pwr.paused = false) :
    b.syncFrom bit stamp = (Block.syncAnchor bit false stamp { b with tim := { b.tim with syncPend := some (stamp, BitVec.ofNat 8 bit) } }, stamp) := by
  have stays : ∀ a : Block, a.pwr.paused = false → a.syncWake = a := by
    intro a awake
    simp [Block.syncWake, Block.wakeUp, awake]
  unfold Block.syncFrom
  rw [alone]
  exact congrArg (·, stamp) (stays _ awake)

theorem Block.syncStamp_eq (b : Block) : b.syncStamp = b.now := Nat.add_sub_cancel _ _

/-- Settles O26, clause by clause: inputs, event pulses, the group's timer, refused loads, and the two sources of a SYNC. -/
theorem filterChain : Obligations.FilterChain := by
  unfold Obligations.FilterChain
  intro s
  refine ⟨fun k p ready up passes oldest => ?_, fun k x restarts => ?_, fun pin u lasts over_ => ?_, fun pin u lasts before => ?_,
    fun g size filled over_ => ?_, fun g before => ?_, fun c x runs => ?_, fun c x stopped => ?_, fun w short => ?_,
    fun w u wide ready last close => ?_, fun w wide ready apart alone awake => ?_, fun r c starts fields free alone awake => ?_⟩
  · refine completes_of_act (f := Block.ifcInput k .intact) rfl ?_
    rw [Block.ifcInput_eq ready up passes oldest]
    exact ⟨rfl, Block.Filters.trans (b := { s.toBlock with ifc := { s.ifc with taken := p.ref :: s.ifc.taken } }) rfl
      ((Block.ifcTake_filters k p _).trans (Block.ifcRelease_filters _))⟩
  · exact State.act_of_eq (f := Block.ifcInput k x) (Block.ifcInput_waits restarts)
  · refine State.act_of_eq (f := Block.trigPulseEnd pin) ?_
    unfold Block.trigPulseEnd
    rw [lasts]
    exact if_pos over_
  · refine State.act_of_eq (f := Block.trigPulseEnd pin) ?_
    unfold Block.trigPulseEnd
    rw [lasts]
    exact if_neg (Nat.not_le.mpr before)
  · refine completes_of_act (f := Block.ifcOutTimer g) rfl ?_
    have closes : s.toBlock.ifcOutTimer g = s.toBlock.closeOut g := if_pos (Bool.and_eq_true_iff.mpr
      ⟨by simpa using filled, decide_eq_true over_⟩)
    rw [closes]
    obtain ⟨groups, afu, rest⟩ := Block.closeOut_told (g := g) (b := s.toBlock) filled
    have inside : g.val < s.ifc.groups.length := by omega
    rw [groups] at rest ⊢
    rw [getD_modify_same inside]
    exact ⟨rfl, rfl, rfl, rfl, afu, fun j apart => getD_modify_other apart _ _ _, rest⟩
  · refine State.act_of_eq (f := Block.ifcOutTimer g) ?_
    exact if_neg (by rw [decide_eq_false (Nat.not_le.mpr before), Bool.and_false]; decide)
  · refine completes_of_act (f := Block.coefRefused c x) rfl ?_
    have refuses : s.toBlock.coefRefused c x = Block.diag 0x0104 (ifcUnit c) [BitVec.ofNat 8 c.val, x]
      (Block.chanCount c 0 { s.toBlock with ifc := { s.ifc with coefBusy := setBit s.ifc.coefBusy c } }) := if_pos runs
    rw [refuses]
    obtain ⟨host, drop, e⟩ : ∃ host drop, Block.diag 0x0104 (ifcUnit c) [BitVec.ofNat 8 c.val, x]
      (Block.chanCount c 0 { s.toBlock with ifc := { s.ifc with coefBusy := setBit s.ifc.coefBusy c } })
        = { (Block.chanCount c 0 { s.toBlock with ifc := { s.ifc with coefBusy := setBit s.ifc.coefBusy c } }) with
            host := host, flt := { s.flt with traceDrop := drop } } := ⟨_, _, (Block.Emits.refl _).emit⟩
    rw [e]
    exact ⟨rfl, rfl, rfl, rfl⟩
  · refine State.act_of_eq (f := Block.coefRefused c x) ?_
    exact if_neg (by rw [stopped]; decide)
  · refine State.act_of_eq (f := Block.syncEdge w) ?_
    exact if_pos (by simp [short])
  · refine State.act_of_eq (f := Block.syncEdge w) ?_
    unfold Block.syncEdge
    rw [if_neg (by simp [Block.ready, ready]; omega), Block.syncStamp_eq, last]
    exact if_pos (decide_eq_true close)
  · refine completes_of_act (f := Block.syncEdge w) rfl ?_
    have accepted : s.toBlock.syncEdge w = (Block.syncFrom 0 s.now { s.toBlock with tim := { s.tim with lastSync := some s.now } }).1 := by
      unfold Block.syncEdge
      rw [if_neg (by simp [Block.ready, ready]; omega), Block.syncStamp_eq]
      dsimp only
      refine if_neg ?_
      split
      · next t last => simpa using apart t last
      · exact Bool.false_ne_true
    rw [accepted, Block.syncFrom_alone (b := { s.toBlock with tim := { s.tim with lastSync := some s.now } }) alone awake]
    exact ⟨rfl, Block.syncAnchor_anchored 0 { s.toBlock with tim := { s.tim with lastSync := some s.now, syncPend := some (s.now, 0) } }, rfl⟩
  · refine completes_of_act (f := Block.syncCmd r) rfl ?_
    unfold Block.syncCmd
    rw [Block.begin_eq_run_of_free _ starts fields free]
    dsimp only
    rw [Block.syncFrom_alone alone awake]
    exact ⟨rfl, rfl, Block.syncAnchor_anchored 1 { s.toBlock with tim := { s.tim with syncPend := some (s.now, 1) } }, rfl⟩

end Sys2Proof.Machine
end
